-- ==== Sys2Proof/Word.lean ====
section
/-!
DEFINITION. The words the spec treats as bits: 64-bit registers, bytes, 256-bit tensor descriptors, and the sparse
maps (a list of key and value pairs) in which the model keeps every collection of registers, cells and parts.
-/
namespace Sys2Proof

/-- A scalar register, an address as software forms it, a 64-bit device register (spec 01, R18). -/
abbrev Word := BitVec 64

/-- The smallest unit the memory addresses. -/
abbrev Byte := BitVec 8

/-- A tensor descriptor (spec 01, R33). -/
abbrev Desc := BitVec 256

/-- A collection by number: pairs of a key and a value, keys rising. -/
abbrev SMap (α : Type) := List (Nat × α)

/-- The value at key `i`; `d` where the map lists none. -/
def smGet {α : Type} (d : α) : SMap α → Nat → α
  | [], _ => d
  | (k, v) :: r, i => if k = i then v else smGet d r i

/-- The value at key `i`, if the map lists one. -/
def smFind {α : Type} : SMap α → Nat → Option α
  | [], _ => none
  | (k, v) :: r, i => if k = i then some v else smFind r i

/-- The map without key `i`. -/
def smDel {α : Type} (m : SMap α) (i : Nat) : SMap α := m.filter fun p => p.1 != i

/-- Insert a pair before the first larger key. -/
def smIns {α : Type} (i : Nat) (v : α) : SMap α → SMap α
  | [] => [(i, v)]
  | (k, w) :: r => if i < k then (i, v) :: (k, w) :: r else (k, w) :: smIns i v r

/-- The map with `v` at key `i`. -/
def smPut {α : Type} (m : SMap α) (i : Nat) (v : α) : SMap α := smIns i v (smDel m i)

/-- The map with `v` at key `i`, in which a key that holds the default `d` is not listed. -/
def smSet {α : Type} [DecidableEq α] (d : α) (m : SMap α) (i : Nat) (v : α) : SMap α :=
  if v = d then smDel m i else smPut m i v

/-- Keys strictly rising. -/
def smSorted {α : Type} : SMap α → Bool
  | [] => true
  | [_] => true
  | (k, _) :: (l, w) :: r => decide (k < l) && smSorted ((l, w) :: r)

end Sys2Proof
end

