-- ==== Sys2Proof/Syntax.lean ====
section
/-!
DEFINITION. The instructions and events of spec/opcode_table.json: one constructor of `Instr` for each row, with the
fields of its word (spec 05); the rows that are events of the device, the host or the fabric have no fields (spec 95).
-/
namespace Sys2Proof

/-- The fields of a V slot word (spec 05, R142). -/
structure VFields where
  /-- GA [87:84] -/
  ga : BitVec 4 := 0
  /-- GB [83:80] -/
  gb : BitVec 4 := 0
  /-- TD [79:74] -/
  td : BitVec 6 := 0
  /-- TS1 [73:68] -/
  ts1 : BitVec 6 := 0
  /-- TS2 [67:62] -/
  ts2 : BitVec 6 := 0
  /-- TS3 [61:56] -/
  ts3 : BitVec 6 := 0
  /-- OD [55:50] -/
  od : BitVec 6 := 0
  /-- OS [49:44] -/
  os : BitVec 6 := 0
  /-- CI [43] -/
  ci : BitVec 1 := 0
  /-- CNT [42:27] -/
  cnt : BitVec 16 := 0
  /-- RM [26:24] -/
  rm : BitVec 3 := 0
  /-- MOD [23:16] -/
  mod : BitVec 8 := 0
  /-- HINT [15:14] -/
  hint : BitVec 2 := 0
  /-- FE [13] -/
  fe : BitVec 1 := 0
  /-- FL [12:8] -/
  fl : BitVec 5 := 0
  /-- IMM8 [7:0] -/
  imm8 : BitVec 8 := 0
deriving DecidableEq, Repr, Inhabited

/-- The fields of an M slot word (spec 05, R145). -/
structure MFields where
  /-- GA [183:180] -/
  ga : BitVec 4 := 0
  /-- T1 [179:174] -/
  t1 : BitVec 6 := 0
  /-- T2 [173:168] -/
  t2 : BitVec 6 := 0
  /-- T3 [167:162] -/
  t3 : BitVec 6 := 0
  /-- O1 [161:156] -/
  o1 : BitVec 6 := 0
  /-- O2 [155:150] -/
  o2 : BitVec 6 := 0
  /-- O3 [149:144] -/
  o3 : BitVec 6 := 0
  /-- N [143:128] -/
  n : BitVec 16 := 0
  /-- ACC [127:125] -/
  acc : BitVec 3 := 0
  /-- FL [124:120] -/
  fl : BitVec 5 := 0
  /-- FE [119] -/
  fe : BitVec 1 := 0
  /-- MODE [95:64] -/
  mode : BitVec 32 := 0
  /-- IMM [63:0] -/
  imm : BitVec 64 := 0
deriving DecidableEq, Repr, Inhabited

/-- Who makes a register access (spec 00, R11; 02, R42). -/
inductive Agent where
  /-- a function of the host port: 0 the PF, 1 to 63 the VFs (spec 20) -/
  | host (fn : Nat)
  /-- a strand, by its flat number (spec 01, R17) -/
  | strand (n : Nat)
  /-- another package, by its node number (spec 23, R508) -/
  | remote (node : Nat)
deriving DecidableEq, Repr, Inhabited

/-- How a host access reaches the device (spec 20, R436). -/
inductive HostPath where
  | bar0 | bar2 | cxlMem
  /-- the function's own configuration: SR-IOV control and HDM decoder, of which the device sees one bit each (R438, R441) -/
  | config
deriving DecidableEq, Repr, Inhabited

/-- One constructor per row of spec/opcode_table.json: first the rows with operand fields, then the rows without, each in
the table's order (log 2). What an event brings with it (a queue, a value, a flit) stands in the state's field `ev`. -/
inductive Instr where
  | add (d : BitVec 6) (a : BitVec 6) (b : BitVec 6) (w : BitVec 1)  -- ADD R180
  | sub (d : BitVec 6) (a : BitVec 6) (b : BitVec 6) (w : BitVec 1)  -- SUB R180
  | and (d : BitVec 6) (a : BitVec 6) (b : BitVec 6) (w : BitVec 1)  -- AND R180
  | or (d : BitVec 6) (a : BitVec 6) (b : BitVec 6) (w : BitVec 1)  -- OR R180
  | xor (d : BitVec 6) (a : BitVec 6) (b : BitVec 6) (w : BitVec 1)  -- XOR R180
  | andn (d : BitVec 6) (a : BitVec 6) (b : BitVec 6) (w : BitVec 1)  -- ANDN R180
  | sll (d : BitVec 6) (a : BitVec 6) (b : BitVec 6) (w : BitVec 1)  -- SLL R180
  | srl (d : BitVec 6) (a : BitVec 6) (b : BitVec 6) (w : BitVec 1)  -- SRL R180
  | sra (d : BitVec 6) (a : BitVec 6) (b : BitVec 6) (w : BitVec 1)  -- SRA R180
  | mul (d : BitVec 6) (a : BitVec 6) (b : BitVec 6) (w : BitVec 1)  -- MUL R180
  | mulhs (d : BitVec 6) (a : BitVec 6) (b : BitVec 6) (w : BitVec 1)  -- MULHS R180
  | mulhu (d : BitVec 6) (a : BitVec 6) (b : BitVec 6) (w : BitVec 1)  -- MULHU R180
  | divs (d : BitVec 6) (a : BitVec 6) (b : BitVec 6) (w : BitVec 1)  -- DIVS R180
  | divu (d : BitVec 6) (a : BitVec 6) (b : BitVec 6) (w : BitVec 1)  -- DIVU R180
  | rems (d : BitVec 6) (a : BitVec 6) (b : BitVec 6) (w : BitVec 1)  -- REMS R180
  | remu (d : BitVec 6) (a : BitVec 6) (b : BitVec 6) (w : BitVec 1)  -- REMU R180
  | min (d : BitVec 6) (a : BitVec 6) (b : BitVec 6) (w : BitVec 1)  -- MIN R180
  | minu (d : BitVec 6) (a : BitVec 6) (b : BitVec 6) (w : BitVec 1)  -- MINU R180
  | max (d : BitVec 6) (a : BitVec 6) (b : BitVec 6) (w : BitVec 1)  -- MAX R180
  | maxu (d : BitVec 6) (a : BitVec 6) (b : BitVec 6) (w : BitVec 1)  -- MAXU R180
  | slt (d : BitVec 6) (a : BitVec 6) (b : BitVec 6) (w : BitVec 1)  -- SLT R180
  | sltu (d : BitVec 6) (a : BitVec 6) (b : BitVec 6) (w : BitVec 1)  -- SLTU R180
  | clz (d : BitVec 6) (a : BitVec 6) (w : BitVec 1)  -- CLZ R180
  | ctz (d : BitVec 6) (a : BitVec 6) (w : BitVec 1)  -- CTZ R180
  | popc (d : BitVec 6) (a : BitVec 6) (w : BitVec 1)  -- POPC R180
  | brev (d : BitVec 6) (a : BitVec 6) (w : BitVec 1)  -- BREV R180
  | sext (d : BitVec 6) (a : BitVec 6) (b : BitVec 6) (w : BitVec 1)  -- SEXT R180
  | zext (d : BitVec 6) (a : BitVec 6) (b : BitVec 6) (w : BitVec 1)  -- ZEXT R180
  | addi (d : BitVec 6) (a : BitVec 6) (i : BitVec 14)  -- ADDI R181
  | andi (d : BitVec 6) (a : BitVec 6) (i : BitVec 14)  -- ANDI R181
  | ori (d : BitVec 6) (a : BitVec 6) (i : BitVec 14)  -- ORI R181
  | xori (d : BitVec 6) (a : BitVec 6) (i : BitVec 14)  -- XORI R181
  | muli (d : BitVec 6) (a : BitVec 6) (i : BitVec 14)  -- MULI R181
  | slli (d : BitVec 6) (a : BitVec 6) (w : BitVec 1) (s : BitVec 6)  -- SLLI R181
  | srli (d : BitVec 6) (a : BitVec 6) (w : BitVec 1) (s : BitVec 6)  -- SRLI R181
  | srai (d : BitVec 6) (a : BitVec 6) (w : BitVec 1) (s : BitVec 6)  -- SRAI R181
  | lui (d : BitVec 6) (i : BitVec 20)  -- LUI R181
  | auipc (d : BitVec 6) (i : BitVec 20)  -- AUIPC R181
  | bext (d : BitVec 6) (a : BitVec 6) (o : BitVec 6) (w : BitVec 6) (s : BitVec 1)  -- BEXT R182
  | bins (d : BitVec 6) (a : BitVec 6) (o : BitVec 6) (w : BitVec 6)  -- BINS R183
  | bextr (d : BitVec 6) (a : BitVec 6) (b : BitVec 6) (s : BitVec 1)  -- BEXTR R182
  | binsr (d : BitVec 6) (a : BitVec 6) (b : BitVec 6)  -- BINSR R183
  | sel (d : BitVec 6) (a : BitVec 6) (b : BitVec 6) (g : BitVec 4)  -- SEL R184
  | ld (d : BitVec 6) (a : BitVec 6) (i : BitVec 10) (z : BitVec 2) (h : BitVec 2)  -- LD R185
  | lds (d : BitVec 6) (a : BitVec 6) (i : BitVec 10) (z : BitVec 2) (h : BitVec 2)  -- LDS R185
  | st (s : BitVec 6) (a : BitVec 6) (i : BitVec 10) (z : BitVec 2)  -- ST R185
  | ldx (d : BitVec 6) (a : BitVec 6) (x : BitVec 14)  -- LDX R185
  | stx (s : BitVec 6) (a : BitVec 6) (x : BitVec 14)  -- STX R185
  | prf (a : BitVec 6) (i : BitVec 10) (h : BitVec 2)  -- PRF R189
  | amoAdd (d : BitVec 6) (a : BitVec 6) (b : BitVec 6) (s : BitVec 3) (o : BitVec 2)  -- AMO_ADD R190
  | amoAnd (d : BitVec 6) (a : BitVec 6) (b : BitVec 6) (s : BitVec 3) (o : BitVec 2)  -- AMO_AND R190
  | amoOr (d : BitVec 6) (a : BitVec 6) (b : BitVec 6) (s : BitVec 3) (o : BitVec 2)  -- AMO_OR R190
  | amoXor (d : BitVec 6) (a : BitVec 6) (b : BitVec 6) (s : BitVec 3) (o : BitVec 2)  -- AMO_XOR R190
  | amoMin (d : BitVec 6) (a : BitVec 6) (b : BitVec 6) (s : BitVec 3) (o : BitVec 2)  -- AMO_MIN R190
  | amoMax (d : BitVec 6) (a : BitVec 6) (b : BitVec 6) (s : BitVec 3) (o : BitVec 2)  -- AMO_MAX R190
  | amoSwap (d : BitVec 6) (a : BitVec 6) (b : BitVec 6) (s : BitVec 3) (o : BitVec 2)  -- AMO_SWAP R190
  | amoCas (d : BitVec 6) (a : BitVec 6) (b : BitVec 6) (s : BitVec 3) (o : BitVec 2)  -- AMO_CAS R190
  | amofFaddF32 (d : BitVec 6) (a : BitVec 6) (b : BitVec 6) (s : BitVec 3) (o : BitVec 2)  -- AMOF_FADD_F32 R191
  | amofFaddBf16x2 (d : BitVec 6) (a : BitVec 6) (b : BitVec 6) (s : BitVec 3) (o : BitVec 2)  -- AMOF_FADD_BF16X2 R191
  | amofFminF32 (d : BitVec 6) (a : BitVec 6) (b : BitVec 6) (s : BitVec 3) (o : BitVec 2)  -- AMOF_FMIN_F32 R191
  | amofFmaxF32 (d : BitVec 6) (a : BitVec 6) (b : BitVec 6) (s : BitVec 3) (o : BitVec 2)  -- AMOF_FMAX_F32 R191
  | cmpEq (g : BitVec 3) (a : BitVec 6) (b : BitVec 6) (w : BitVec 1)  -- CMP_EQ R194
  | cmpNe (g : BitVec 3) (a : BitVec 6) (b : BitVec 6) (w : BitVec 1)  -- CMP_NE R194
  | cmpLt (g : BitVec 3) (a : BitVec 6) (b : BitVec 6) (w : BitVec 1)  -- CMP_LT R194
  | cmpGe (g : BitVec 3) (a : BitVec 6) (b : BitVec 6) (w : BitVec 1)  -- CMP_GE R194
  | cmpLtu (g : BitVec 3) (a : BitVec 6) (b : BitVec 6) (w : BitVec 1)  -- CMP_LTU R194
  | cmpGeu (g : BitVec 3) (a : BitVec 6) (b : BitVec 6) (w : BitVec 1)  -- CMP_GEU R194
  | cmpTst (g : BitVec 3) (a : BitVec 6) (b : BitVec 6) (w : BitVec 1)  -- CMP_TST R194
  | cmpNtst (g : BitVec 3) (a : BitVec 6) (b : BitVec 6) (w : BitVec 1)  -- CMP_NTST R194
  | cmpiEq (g : BitVec 3) (a : BitVec 6) (i : BitVec 14)  -- CMPI_EQ R194
  | cmpiNe (g : BitVec 3) (a : BitVec 6) (i : BitVec 14)  -- CMPI_NE R194
  | cmpiLt (g : BitVec 3) (a : BitVec 6) (i : BitVec 14)  -- CMPI_LT R194
  | cmpiGe (g : BitVec 3) (a : BitVec 6) (i : BitVec 14)  -- CMPI_GE R194
  | cmpiLtu (g : BitVec 3) (a : BitVec 6) (i : BitVec 14)  -- CMPI_LTU R194
  | cmpiGeu (g : BitVec 3) (a : BitVec 6) (i : BitVec 14)  -- CMPI_GEU R194
  | cmpiTst (g : BitVec 3) (a : BitVec 6) (i : BitVec 14)  -- CMPI_TST R194
  | cmpiNtst (g : BitVec 3) (a : BitVec 6) (i : BitVec 14)  -- CMPI_NTST R194
  | gopAnd (g : BitVec 3) (x : BitVec 4) (y : BitVec 4)  -- GOP_AND R195
  | gopOr (g : BitVec 3) (x : BitVec 4) (y : BitVec 4)  -- GOP_OR R195
  | gopXor (g : BitVec 3) (x : BitVec 4) (y : BitVec 4)  -- GOP_XOR R195
  | gopAndn (g : BitVec 3) (x : BitVec 4) (y : BitVec 4)  -- GOP_ANDN R195
  | fcmpFeq (g : BitVec 3) (a : BitVec 6) (b : BitVec 6) (w : BitVec 1)  -- FCMP_FEQ R196
  | fcmpFlt (g : BitVec 3) (a : BitVec 6) (b : BitVec 6) (w : BitVec 1)  -- FCMP_FLT R196
  | fcmpFle (g : BitVec 3) (a : BitVec 6) (b : BitVec 6) (w : BitVec 1)  -- FCMP_FLE R196
  | fcmpFun (g : BitVec 3) (a : BitVec 6) (b : BitVec 6) (w : BitVec 1)  -- FCMP_FUN R196
  | pbr (t : BitVec 2) (o : BitVec 24)  -- PBR R197
  | br (t : BitVec 2) (g : BitVec 4)  -- BR R198
  | brl (t : BitVec 2) (g : BitVec 4)  -- BRL R198
  | mtbt (t : BitVec 2) (a : BitVec 6)  -- MTBT R197
  | loop (t : BitVec 2) (c : BitVec 2)  -- LOOP R199
  | lset (c : BitVec 2) (a : BitVec 6)  -- LSET R199
  | trap (c : BitVec 14)  -- TRAP R228
  | fadd (d : BitVec 6) (a : BitVec 6) (b : BitVec 6) (r : BitVec 3) (x : BitVec 1)  -- FADD R200
  | fsub (d : BitVec 6) (a : BitVec 6) (b : BitVec 6) (r : BitVec 3) (x : BitVec 1)  -- FSUB R200
  | fmul (d : BitVec 6) (a : BitVec 6) (b : BitVec 6) (r : BitVec 3) (x : BitVec 1)  -- FMUL R200
  | fdiv (d : BitVec 6) (a : BitVec 6) (b : BitVec 6) (r : BitVec 3) (x : BitVec 1)  -- FDIV R200
  | fsqrt (d : BitVec 6) (a : BitVec 6) (r : BitVec 3) (x : BitVec 1)  -- FSQRT R200
  | fmin (d : BitVec 6) (a : BitVec 6) (b : BitVec 6) (x : BitVec 1)  -- FMIN R200
  | fmax (d : BitVec 6) (a : BitVec 6) (b : BitVec 6) (x : BitVec 1)  -- FMAX R200
  | fabs (d : BitVec 6) (a : BitVec 6) (x : BitVec 1)  -- FABS R200
  | fneg (d : BitVec 6) (a : BitVec 6) (x : BitVec 1)  -- FNEG R200
  | fsgnj (d : BitVec 6) (a : BitVec 6) (b : BitVec 6) (x : BitVec 1)  -- FSGNJ R200
  | fclass (d : BitVec 6) (a : BitVec 6) (x : BitVec 1)  -- FCLASS R201
  | fma (d : BitVec 6) (a : BitVec 6) (b : BitVec 6) (c : BitVec 6)  -- FMA R202
  | fms (d : BitVec 6) (a : BitVec 6) (b : BitVec 6) (c : BitVec 6)  -- FMS R202
  | fnma (d : BitVec 6) (a : BitVec 6) (b : BitVec 6) (c : BitVec 6)  -- FNMA R202
  | fnms (d : BitVec 6) (a : BitVec 6) (b : BitVec 6) (c : BitVec 6)  -- FNMS R202
  | fcvt (d : BitVec 6) (a : BitVec 6) (s : BitVec 3) (t : BitVec 3) (r : BitVec 3) (x : BitVec 1)  -- FCVT R203
  | mfs (d : BitVec 6) (i : BitVec 14)  -- MFS R233
  | mts (a : BitVec 6) (i : BitVec 14)  -- MTS R233
  | acq (d : BitVec 6) (a : BitVec 6) (b : BitVec 6) (s : BitVec 3)  -- ACQ R209
  | rel (d : BitVec 6) (a : BitVec 6) (b : BitVec 6) (s : BitVec 3)  -- REL R79
  | arv (d : BitVec 6) (a : BitVec 6) (b : BitVec 6) (s : BitVec 3)  -- ARV R213
  | waitb (d : BitVec 6) (a : BitVec 6) (b : BitVec 6) (s : BitVec 3)  -- WAITB R214
  | bind (d : BitVec 6) (a : BitVec 6) (b : BitVec 6) (s : BitVec 3)  -- BIND R211
  | unbind (d : BitVec 6) (a : BitVec 6) (b : BitVec 6) (s : BitVec 3)  -- UNBIND R212
  | fence (s : BitVec 3)  -- FENCE R216
  | drain (p : BitVec 3)  -- DRAIN R217
  | setf (a : BitVec 6) (f : BitVec 5) (i : BitVec 1) (v : BitVec 6)  -- SETF R218
  | addf (a : BitVec 6) (f : BitVec 5) (i : BitVec 1) (v : BitVec 6)  -- ADDF R218
  | getf (d : BitVec 6) (f : BitVec 5)  -- GETF R218
  | epop (d : BitVec 6) (p : BitVec 6)  -- EPOP R221
  | epopt (d : BitVec 6) (p : BitVec 6)  -- EPOPT R221
  | epush (a : BitVec 6) (p : BitVec 6)  -- EPUSH R222
  | tdld (d : BitVec 6) (a : BitVec 6) (t : BitVec 6)  -- TDLD R224
  | tdst (d : BitVec 6) (a : BitVec 6) (t : BitVec 6)  -- TDST R224
  | tdset (d : BitVec 6) (a : BitVec 6) (t : BitVec 6) (f : BitVec 5)  -- TDSET R224
  | tdget (d : BitVec 6) (a : BitVec 6) (t : BitVec 6) (f : BitVec 5)  -- TDGET R224
  | tdcpy (d : BitVec 6) (m : BitVec 6) (t : BitVec 6)  -- TDCPY R224
  | prio (c : BitVec 2)  -- PRIO R226
  | mbpost (d : BitVec 6) (a : BitVec 6) (b : BitVec 6)  -- MBPOST R227
  | mbfin (d : BitVec 6) (a : BitVec 6) (b : BitVec 6)  -- MBFIN R227
  | mbver (d : BitVec 6) (a : BitVec 6) (b : BitVec 6)  -- MBVER R227
  | tlbiPage (a : BitVec 6)  -- TLBI_PAGE R241
  | tlbiTenant (a : BitVec 6)  -- TLBI_TENANT R241
  | tlbiAll (a : BitVec 6)  -- TLBI_ALL R241
  | cinv (a : BitVec 6) (p : BitVec 1)  -- CINV R242
  | cfls (a : BitVec 6) (p : BitVec 1)  -- CFLS R242
  | dstchk (a : BitVec 6) (b : BitVec 6) (x : BitVec 1)  -- DSTCHK R470
  | rgn (f : MFields)  -- RGN R243
  | vadd (f : VFields)  -- VADD R258
  | vsub (f : VFields)  -- VSUB R258
  | vmul (f : VFields)  -- VMUL R258
  | vfma (f : VFields)  -- VFMA R258
  | vfms (f : VFields)  -- VFMS R258
  | vdiv (f : VFields)  -- VDIV R258
  | vmin (f : VFields)  -- VMIN R258
  | vmax (f : VFields)  -- VMAX R258
  | vabs (f : VFields)  -- VABS R258
  | vneg (f : VFields)  -- VNEG R258
  | vsqrt (f : VFields)  -- VSQRT R258
  | vrcp (f : VFields)  -- VRCP R258
  | vrsq (f : VFields)  -- VRSQ R258
  | vscl (f : VFields)  -- VSCL R258
  | vaxpy (f : VFields)  -- VAXPY R258
  | vclmp (f : VFields)  -- VCLMP R258
  | vrnd (f : VFields)  -- VRND R258
  | vexp (f : VFields)  -- VEXP R259
  | vexp2 (f : VFields)  -- VEXP2 R259
  | vlog (f : VFields)  -- VLOG R259
  | vlog2 (f : VFields)  -- VLOG2 R259
  | vtanh (f : VFields)  -- VTANH R259
  | vsigm (f : VFields)  -- VSIGM R259
  | vgelu (f : VFields)  -- VGELU R259
  | vsilu (f : VFields)  -- VSILU R259
  | vsin (f : VFields)  -- VSIN R259
  | vcos (f : VFields)  -- VCOS R259
  | vcvt (f : VFields)  -- VCVT R260
  | vqnt (f : VFields)  -- VQNT R260
  | vdqnt (f : VFields)  -- VDQNT R260
  | vcvti (f : VFields)  -- VCVTI R260
  | vcvtf (f : VFields)  -- VCVTF R260
  | vcmp (f : VFields)  -- VCMP R261
  | vsel (f : VFields)  -- VSEL R261
  | vand (f : VFields)  -- VAND R261
  | vor (f : VFields)  -- VOR R261
  | vxor (f : VFields)  -- VXOR R261
  | vnot (f : VFields)  -- VNOT R261
  | vshl (f : VFields)  -- VSHL R261
  | vshr (f : VFields)  -- VSHR R261
  | vrsum (f : VFields)  -- VRSUM R263
  | vrmax (f : VFields)  -- VRMAX R263
  | vrmin (f : VFields)  -- VRMIN R263
  | vramx (f : VFields)  -- VRAMX R263
  | vscan (f : VFields)  -- VSCAN R263
  | vvote (f : VFields)  -- VVOTE R265
  | vflgc (f : VFields)  -- VFLGC R265
  | vrssq (f : VFields)  -- VRSSQ R263
  | vlse (f : VFields)  -- VLSE R264
  | vmov (f : VFields)  -- VMOV R266
  | vfill (f : VFields)  -- VFILL R266
  | vgth (f : VFields)  -- VGTH R266
  | vsct (f : VFields)  -- VSCT R266
  | vtrn (f : VFields)  -- VTRN R266
  | viota (f : VFields)  -- VIOTA R266
  | vcmpr (f : VFields)  -- VCMPR R266
  | vexpd (f : VFields)  -- VEXPD R266
  | viadd (f : VFields)  -- VIADD R267
  | visub (f : VFields)  -- VISUB R267
  | vimul (f : VFields)  -- VIMUL R267
  | vimin (f : VFields)  -- VIMIN R267
  | vimax (f : VFields)  -- VIMAX R267
  | vpopc (f : VFields)  -- VPOPC R267
  | vbext (f : VFields)  -- VBEXT R267
  | vhash (f : VFields)  -- VHASH R267
  | mstep (f : MFields)  -- MSTEP R275
  | mnest (f : MFields)  -- MNEST R282
  | mnset (f : MFields)  -- MNSET R281
  | mwb (f : MFields)  -- MWB R283
  | mzero (f : MFields)  -- MZERO R285
  | mlda (f : MFields)  -- MLDA R285
  | mspc (f : MFields)  -- MSPC R278
  | msig (f : MFields)  -- MSIG R304
  | mscat (f : MFields)  -- MSCAT R306
  | cpy (f : MFields)  -- CPY R322
  | cpyi (f : MFields)  -- CPYI R323
  | cpyrs (f : MFields)  -- CPYRS R326
  | cpyk (f : MFields)  -- CPYK R327
  | cpymc (f : MFields)  -- CPYMC R328
  | cwmk (f : MFields)  -- CWMK R329
  | ctpl (f : MFields)  -- CTPL R320
  | clar (f : MFields)  -- CLAR R333
  | clrs (f : MFields)  -- CLRS R333
  | clag (f : MFields)  -- CLAG R333
  | clbc (f : MFields)  -- CLBC R333
  | clxr (f : MFields)  -- CLXR R338
  | clgrp (f : MFields)  -- CLGRP R336
  | mbsend (f : MFields)  -- MBSEND R375
  | mbrls (f : MFields)  -- MBRLS R375
  | mbpol (f : MFields)  -- MBPOL R371
  | mbstgLoad (f : MFields)  -- MBSTG_LOAD R368
  | mbstgEnable (f : MFields)  -- MBSTG_ENABLE R368
  | mbstgDestroy (f : MFields)  -- MBSTG_DESTROY R368
  | mbstgCancel (f : MFields)  -- MBSTG_CANCEL R368
  | stsh (f : MFields)  -- STSH R348
  | stft (f : MFields)  -- STFT R350
  | stpf (f : MFields)  -- STPF R351
  | stdr (f : MFields)  -- STDR R351
  | stqy (f : MFields)  -- STQY R351
  | opj (f : MFields)  -- OPJ R362
  | oprt (f : MFields)  -- OPRT R360
  | opsk (f : MFields)  -- OPSK R364
  | bundleIssue  -- BUNDLE_ISSUE R55
  | scoreboardReturn  -- SCOREBOARD_RETURN R154
  | watchdog  -- WATCHDOG R58
  | trapEntry  -- TRAP_ENTRY R230
  | regionReplay  -- REGION_REPLAY R464
  | regionCheck  -- REGION_CHECK R468
  | remoteWriteAck  -- REMOTE_WRITE_ACK R90
  | launchDispatch  -- LAUNCH_DISPATCH R46
  | stageDispatch  -- STAGE_DISPATCH R373
  | taskRetire  -- TASK_RETIRE R68
  | lqTail  -- LQ_TAIL R40
  | lqCtail  -- LQ_CTAIL R42
  | lqCtlEnable  -- LQ_CTL_ENABLE R53
  | lqCtlDestroy  -- LQ_CTL_DESTROY R66
  | lqCtlCancel  -- LQ_CTL_CANCEL R66
  | registerWrite  -- REGISTER_WRITE R8
  | aperturePush  -- APERTURE_PUSH R30
  | preempt  -- PREEMPT R458
  | resume  -- RESUME R458
  | discard  -- DISCARD R458
  | fault  -- FAULT R458
  | gwsave  -- GWSAVE R460
  | gwrestore  -- GWRESTORE R460
  | corectlResume  -- CORECTL_RESUME R510
  | dtcmdGo  -- DTCMD_GO R523
  | ownerTableWrite  -- OWNER_TABLE_WRITE R512
  | hostErr  -- HOST_ERR R442
  | rasLost  -- RAS_LOST R461
  | rasCorr  -- RAS_CORR R461
  | fabcnt  -- FABCNT R511
  | lksts  -- LKSTS R502
  | bootStatus  -- BOOT_STATUS R452
  | hostWrite  -- HOST_WRITE R92
  | hostRead  -- HOST_READ R93
  | atsInvalidate  -- ATS_INVALIDATE R440
  | fwWinWrite  -- FW_WIN_WRITE R436
  | bootCtlGo  -- BOOT_CTL_GO R448
  | bootCtlWarm  -- BOOT_CTL_WARM R450
  | powerOn  -- POWER_ON R447
  | perst  -- PERST R447
  | hotReset  -- HOT_RESET R447
  | dlDown  -- DL_DOWN R447
  | pfFlr  -- PF_FLR R447
  | vfFlr  -- VF_FLR R447
  | firmwareCheck  -- FIRMWARE_CHECK R446
  | hbmTraining  -- HBM_TRAINING R451
  | zeroFill  -- ZERO_FILL R449
  | linkEqualisation  -- LINK_EQUALISATION R449
  | coreSelfTest  -- CORE_SELF_TEST R449
  | supervisorLoad  -- SUPERVISOR_LOAD R449
  | startTimeout  -- START_TIMEOUT R449
  | version  -- VERSION R519
  | telemetry  -- TELEMETRY R519
  | loadkey  -- LOADKEY R519
  | setpasid  -- SETPASID R519
  | raisesvn  -- RAISESVN R519
  | recexit  -- RECEXIT R519
  | inject  -- INJECT R519
  | events  -- EVENTS R519
  | monitorWindow  -- MONITOR_WINDOW R515
  | scrubPass  -- SCRUB_PASS R472
  | stackLoss  -- STACK_LOSS R473
  | throttleWindow  -- THROTTLE_WINDOW R495
  | write  -- WRITE R480
  | writem  -- WRITEM R480
  | read  -- READ R480
  | atomic  -- ATOMIC R480
  | tensor  -- TENSOR R375
  | coll  -- COLL R480
  | groupAbort  -- GROUP_ABORT R339
  | data  -- DATA R480
  | ack  -- ACK R480
  | nak  -- NAK R489
  | retryBackoff  -- RETRY_BACKOFF R488
  | marker  -- MARKER R503
  | lnak  -- LNAK R504
  | kload  -- KLOAD R502
  | lkctlSwitch  -- LKCTL_SWITCH R503
  | lkctlInuse  -- LKCTL_INUSE R529
  | keyWarn  -- KEY_WARN R503
  | keyExhausted  -- KEY_EXHAUSTED R503
  | linkDown  -- LINK_DOWN R478
  | newver  -- NEWVER R377
  | cancelGroup  -- CANCEL_GROUP R339
  | nop  -- NOP R229
  | yield  -- YIELD R229
  | texit  -- TEXIT R229
  | halt  -- HALT R229
  | eret  -- ERET R231
  | wfi  -- WFI R229
  | bkpt  -- BKPT R229
  | icsync  -- ICSYNC R103
  | routerCycle  -- ROUTER_CYCLE R484
  | writePerformed  -- WRITE_PERFORMED R73
  | linkTrained  -- LINK_TRAINED R478
  | hostCompletion  -- HOST_COMPLETION R440
  | completionTimeout  -- COMPLETION_TIMEOUT R440
  | backInvalidateAnswer  -- BACK_INVALIDATE_ANSWER R441
  | cxlCacheSnoop  -- CXL_CACHE_SNOOP R93
  | msixVectorUnmask  -- MSIX_VECTOR_UNMASK R443
  | vfFlrComplete  -- VF_FLR_COMPLETE R447
  | mbReq  -- MB_REQ R518
  | tcCmd  -- TC_CMD R458
deriving DecidableEq, Repr, Inhabited

end Sys2Proof
end

