-- ==== Sys2Proof/Machine/Fields.lean ====
section
/-!
DEFINITION. What the encoding forbids beyond a word's selectors (spec 05, R140 to R149): field values that are no
instruction, reserved fields that must be zero, and the encodings that only supervisor context may use (R141).
-/
namespace Sys2Proof.Machine

/-- The lowest set bit of a number below `2 ^ n`, counted from `lo`. -/
def lowBit (x : Nat) : Nat → Nat → Option Nat
  | 0, _ => none
  | n + 1, lo => if x % 2 = 1 then some lo else lowBit (x / 2) n (lo + 1)

/-- The lowest bit set in any of the fields listed, lowest field first. -/
def lowBitOf (w : Nat) : List (Nat × Nat) → Option Nat
  | [] => none
  | (lo, n) :: r => if w / 2 ^ lo % 2 ^ n = 0 then lowBitOf w r else lowBit (w / 2 ^ lo % 2 ^ n) n lo

/-- The lower of two optional bit numbers. -/
def minBit : Option Nat → Option Nat → Option Nat
  | some a, some b => some (min a b)
  | some a, none => some a
  | none, b => b

/-- The V word of an operation (R142). -/
def encodeV (vop : Nat) (f : VFields) : Nat :=
  vop * 2 ^ 88 + f.ga.toNat * 2 ^ 84 + f.gb.toNat * 2 ^ 80 + f.td.toNat * 2 ^ 74 + f.ts1.toNat * 2 ^ 68 +
  f.ts2.toNat * 2 ^ 62 + f.ts3.toNat * 2 ^ 56 + f.od.toNat * 2 ^ 50 + f.os.toNat * 2 ^ 44 + f.ci.toNat * 2 ^ 43 +
  f.cnt.toNat * 2 ^ 27 + f.rm.toNat * 2 ^ 24 + f.mod.toNat * 2 ^ 16 + f.hint.toNat * 2 ^ 14 + f.fe.toNat * 2 ^ 13 +
  f.fl.toNat * 2 ^ 8 + f.imm8.toNat

/-- The M word of an operation (R145). -/
def encodeM (mop : Nat) (f : MFields) : Nat :=
  mop * 2 ^ 184 + f.ga.toNat * 2 ^ 180 + f.t1.toNat * 2 ^ 174 + f.t2.toNat * 2 ^ 168 + f.t3.toNat * 2 ^ 162 +
  f.o1.toNat * 2 ^ 156 + f.o2.toNat * 2 ^ 150 + f.o3.toNat * 2 ^ 144 + f.n.toNat * 2 ^ 128 + f.acc.toNat * 2 ^ 125 +
  f.fl.toNat * 2 ^ 120 + f.fe.toNat * 2 ^ 119 + f.mode.toNat * 2 ^ 64 + f.imm.toNat

/-- The VOP code and fields of a V instruction (R144). -/
def vCode : Instr → Option (Nat × VFields)
  | .vadd f => some (0x01, f)
  | .vsub f => some (0x02, f)
  | .vmul f => some (0x03, f)
  | .vfma f => some (0x04, f)
  | .vfms f => some (0x05, f)
  | .vdiv f => some (0x06, f)
  | .vmin f => some (0x07, f)
  | .vmax f => some (0x08, f)
  | .vabs f => some (0x09, f)
  | .vneg f => some (0x0A, f)
  | .vsqrt f => some (0x0B, f)
  | .vrcp f => some (0x0C, f)
  | .vrsq f => some (0x0D, f)
  | .vscl f => some (0x0E, f)
  | .vaxpy f => some (0x0F, f)
  | .vclmp f => some (0x10, f)
  | .vrnd f => some (0x11, f)
  | .vexp f => some (0x20, f)
  | .vexp2 f => some (0x21, f)
  | .vlog f => some (0x22, f)
  | .vlog2 f => some (0x23, f)
  | .vtanh f => some (0x24, f)
  | .vsigm f => some (0x25, f)
  | .vgelu f => some (0x26, f)
  | .vsilu f => some (0x27, f)
  | .vsin f => some (0x28, f)
  | .vcos f => some (0x29, f)
  | .vcvt f => some (0x30, f)
  | .vqnt f => some (0x31, f)
  | .vdqnt f => some (0x32, f)
  | .vcvti f => some (0x33, f)
  | .vcvtf f => some (0x34, f)
  | .vcmp f => some (0x40, f)
  | .vsel f => some (0x41, f)
  | .vand f => some (0x42, f)
  | .vor f => some (0x43, f)
  | .vxor f => some (0x44, f)
  | .vnot f => some (0x45, f)
  | .vshl f => some (0x46, f)
  | .vshr f => some (0x47, f)
  | .vrsum f => some (0x50, f)
  | .vrmax f => some (0x51, f)
  | .vrmin f => some (0x52, f)
  | .vramx f => some (0x53, f)
  | .vscan f => some (0x54, f)
  | .vvote f => some (0x55, f)
  | .vflgc f => some (0x56, f)
  | .vrssq f => some (0x57, f)
  | .vlse f => some (0x58, f)
  | .vmov f => some (0x60, f)
  | .vfill f => some (0x61, f)
  | .vgth f => some (0x62, f)
  | .vsct f => some (0x63, f)
  | .vtrn f => some (0x64, f)
  | .viota f => some (0x65, f)
  | .vcmpr f => some (0x66, f)
  | .vexpd f => some (0x67, f)
  | .viadd f => some (0x70, f)
  | .visub f => some (0x71, f)
  | .vimul f => some (0x72, f)
  | .vimin f => some (0x73, f)
  | .vimax f => some (0x74, f)
  | .vpopc f => some (0x75, f)
  | .vbext f => some (0x76, f)
  | .vhash f => some (0x77, f)
  | _ => none

/-- The MOP code and fields of an M instruction (R146). -/
def mCode : Instr → Option (Nat × MFields)
  | .rgn f => some (0x80, f)
  | .mstep f => some (0x01, f)
  | .mnest f => some (0x02, f)
  | .mnset f => some (0x03, f)
  | .mwb f => some (0x04, f)
  | .mzero f => some (0x05, f)
  | .mlda f => some (0x06, f)
  | .mspc f => some (0x07, f)
  | .msig f => some (0x08, f)
  | .mscat f => some (0x09, f)
  | .cpy f => some (0x40, f)
  | .cpyi f => some (0x41, f)
  | .cpyrs f => some (0x42, f)
  | .cpyk f => some (0x43, f)
  | .cpymc f => some (0x44, f)
  | .cwmk f => some (0x45, f)
  | .ctpl f => some (0x46, f)
  | .clar f => some (0x48, f)
  | .clrs f => some (0x49, f)
  | .clag f => some (0x4A, f)
  | .clbc f => some (0x4B, f)
  | .clxr f => some (0x4C, f)
  | .clgrp f => some (0x4D, f)
  | .mbsend f => some (0x50, f)
  | .mbrls f => some (0x51, f)
  | .mbpol f => some (0x52, f)
  | .mbstgLoad f => some (0x53, f)
  | .mbstgEnable f => some (0x53, f)
  | .mbstgDestroy f => some (0x53, f)
  | .mbstgCancel f => some (0x53, f)
  | .stsh f => some (0x58, f)
  | .stft f => some (0x59, f)
  | .stpf f => some (0x5A, f)
  | .stdr f => some (0x5B, f)
  | .stqy f => some (0x5C, f)
  | .opj f => some (0x60, f)
  | .oprt f => some (0x61, f)
  | .opsk f => some (0x62, f)
  | _ => none

/-- The system register map: the indices of R232 and R238. -/
def sysRegKnown (n : Nat) : Bool :=
  decide (n ≤ 5) || n == 0x10 || (decide (0x20 ≤ n) && decide (n ≤ 0x23)) || (decide (0x30 ≤ n) && decide (n ≤ 0x33))
    || n == 0x40 || n == 0x41 || n == 0x50 || n == 0x51 || (decide (0x60 ≤ n) && decide (n ≤ 0x64))
    || (decide (0x70 ≤ n) && decide (n ≤ 0x8F))

/-- A scope code that names no scope (R76). -/
def badScope (s : BitVec 3) : Bool := decide (6 ≤ s.toNat)

/-- Selector values inside an instruction's fields that are no instruction: ILLEGAL_OP (R140, R149). -/
def illegalFields : Instr → Bool
  | .lds _ _ _ z _ => z == 3
  | .amoAdd _ _ _ s _ | .amoAnd _ _ _ s _ | .amoOr _ _ _ s _ | .amoXor _ _ _ s _ | .amoMin _ _ _ s _
  | .amoMax _ _ _ s _ | .amoSwap _ _ _ s _ | .amoCas _ _ _ s _ | .amofFaddF32 _ _ _ s _ | .amofFaddBf16x2 _ _ _ s _
  | .amofFminF32 _ _ _ s _ | .amofFmaxF32 _ _ _ s _ => badScope s
  | .acq _ _ _ s | .rel _ _ _ s | .arv _ _ _ s | .waitb _ _ _ s | .bind _ _ _ s | .unbind _ _ _ s | .fence s => badScope s
  | .fcvt _ _ s t _ _ => s == t || (decide (4 ≤ s.toNat) && decide (4 ≤ t.toNat))
  | .mfs _ i | .mts _ i => !sysRegKnown i.toNat
  | .drain p => decide (6 ≤ p.toNat)
  | .epop _ p | .epopt _ p => decide (0x14 < p.toNat)
  | .epush _ p => !(decide (0x10 ≤ p.toNat) && decide (p.toNat ≤ 0x14))
  | .tdset _ _ _ f | .tdget _ _ _ f => decide (16 ≤ f.toNat)
  | .mbstgLoad f => f.mode.toNat % 4 != 0
  | .mbstgEnable f => f.mode.toNat % 4 != 1
  | .mbstgDestroy f => f.mode.toNat % 4 != 2
  | .mbstgCancel f => f.mode.toNat % 4 != 3
  | _ => false

/-- Reserved values that the field layout does not show: hint 11, PRF hint 01, a .W shift of 32 or more, imm6 without I
(R140, R149, R181, R189, R218). The lowest offending bit. -/
def reservedScalar : Instr → Option Nat
  | .ld _ _ _ _ h | .lds _ _ _ _ h => if h = 3 then some 0 else none
  | .prf _ _ h => if h = 1 || h = 3 then some 0 else none
  | .slli _ _ w s | .srli _ _ w s | .srai _ _ w s => if w = 1 && 32 ≤ s.toNat then some 5 else none
  | .setf _ _ i v | .addf _ _ i v => if i = 0 then lowBit v.toNat 6 0 else none
  | _ => none

/-- What a V operation uses (spec 09): the source descriptors (bits 0 to 2), RM, the MOD and IMM8 bits, OD and OS. -/
structure VUses where
  ts : Nat
  rm : Bool := true
  mod : Nat := 0
  imm : Nat := 0
  od : Bool := true
  os : Bool := true

/-- The fields that the row of a V operation lists (R257 to R267); `m` is its MOD field. -/
def vUses (vop m : Nat) : VUses :=
  match vop with
  | 0x01 | 0x02 | 0x03 | 0x06 | 0x07 | 0x08 => { ts := 3, mod := 0x0B }
  | 0x04 | 0x05 | 0x0F | 0x10 => { ts := 7, mod := 0x0F }
  | 0x0E => { ts := 1, mod := 0x09, imm := 0xFF }
  | 0x31 => { ts := 3, mod := 0x09 }
  | 0x32 => { ts := 3, mod := 0x01 }
  | 0x33 => { ts := 1, mod := 0x01 }
  | 0x40 => { ts := 3, rm := false, mod := 0x03, imm := 0x07 }
  | 0x41 => { ts := 7, mod := 0x0F }
  | 0x42 | 0x43 | 0x44 => { ts := 3, rm := false, mod := 0x03 }
  | 0x45 => { ts := 1, rm := false, mod := 0x01 }
  | 0x46 => if m / 16 % 2 = 1 then { ts := 3, rm := false, mod := 0x13 } else { ts := 1, rm := false, mod := 0x01, imm := 0x3F }
  | 0x47 => if m / 16 % 2 = 1 then { ts := 3, rm := false, mod := 0x33 } else { ts := 1, rm := false, mod := 0x21, imm := 0x3F }
  | 0x50 | 0x57 | 0x58 => { ts := 1, mod := 0x20 }
  | 0x51 | 0x52 | 0x53 | 0x54 => { ts := 1, mod := 0x30 }
  | 0x55 => if m / 16 % 2 = 1 then { ts := 0, mod := 0x30, imm := 0xFF, os := false } else { ts := 1, mod := 0x30, imm := 0xFF }
  | 0x56 => { ts := 0, mod := 0x10, os := false }
  | 0x60 => { ts := 1, rm := false, mod := 0x01 }
  | 0x61 => { ts := 0, rm := false }
  | 0x62 => { ts := 3, rm := false }
  | 0x63 => { ts := 3, rm := false, od := false }
  | 0x64 => { ts := 1, rm := false, os := false }
  | 0x65 => { ts := 0, mod := 0x08, imm := 0xFF }
  | 0x66 => { ts := 7, rm := false }
  | 0x67 => { ts := 3, rm := false, mod := 0x10 }
  | 0x70 | 0x71 | 0x72 | 0x73 | 0x74 => { ts := 3, rm := false, mod := 0x0B }
  | 0x75 | 0x77 => { ts := 1, rm := false, mod := 0x09 }
  | 0x76 => { ts := 1, rm := false, mod := 0xF8, imm := 0x1F }
  | _ => { ts := 1, mod := 0x09 }

/-- The single bits of a field of `n` bits at `lo` that a mask does not list. -/
def unlisted (lo mask : Nat) : Nat → List (Nat × Nat)
  | 0 => []
  | n + 1 => if mask % 2 = 1 then unlisted (lo + 1) (mask / 2) n else (lo, 1) :: unlisted (lo + 1) (mask / 2) n

/-- Fields of a V word that must be zero for an operation with these fields: pairs of lowest bit and width. -/
def vZero (vop : Nat) (f : VFields) : List (Nat × Nat) :=
  let u := vUses vop f.mod.toNat
  unlisted 0 u.imm 8 ++ (if f.fe = 0 then [(8, 5)] else []) ++ unlisted 16 u.mod 8 ++ (if u.rm then [] else [(24, 3)])
    ++ (if f.ci = 1 then [(33, 10)] else []) ++ (if u.os then [] else [(44, 6)]) ++ (if u.od then [] else [(50, 6)])
    ++ (if u.ts / 4 % 2 = 1 then [] else [(56, 6)]) ++ (if u.ts / 2 % 2 = 1 then [] else [(62, 6)])
    ++ (if u.ts % 2 = 1 then [] else [(68, 6)])

/-- Values that the row of a V operation marks as reserved: the lowest bit of the field (R142, R257, R265, R267). -/
def vReserved (vop : Nat) (f : VFields) : Option Nat :=
  let imm := f.imm8.toNat
  let top := if f.mod.toNat / 16 % 2 = 1 then 4 else 0
  let r1 := if vop ≠ 0x55 then none
    else if imm % 4 = 3 then some 0
    else if imm / 4 % 4 ≠ 0 then some 2
    else if top < imm / 16 % 8 then some 4
    else if 128 ≤ imm then some 7 else none
  let r2 := if f.hint = 3 then some 14 else none
  let r3 := if vop = 0x76 && decide (6 ≤ f.mod.toNat / 32) then some 21 else none
  minBit r1 (minBit r2 r3)

/-- What an M operation uses: T1 to T3 and O1 to O3 (bits 0 to 2), N, ACC, GA, FE, and the bits of MODE and IMM. -/
structure MUses where
  t : Nat := 0
  o : Nat := 0
  n : Bool := false
  acc : Bool := false
  mode : Nat := 0
  imm : Nat := 0
  ga : Bool := true
  fe : Bool := true

/-- The fields that an ME operation lists (R147, R273 to R285, R292, R304 to R306). -/
def meUses (mop mode : Nat) : MUses :=
  let sig := mode.testBit 4
  let sparse := if mode % 4 = 1 then 0xFC00000 else 0
  match mop with
  | 0x80 => { n := true, mode := 0xFFFFFFFF, imm := if mode = 0 then 0xFFFFFFFE else 0xFFFFFFFFFFFFFFFE, ga := false, fe := false }
  | 0x01 => { t := if sig then 7 else 3, o := if sig then 7 else 3, n := true, acc := true,
              mode := if sig then 0x7FFFF else 0xFC1F, imm := (if sig then 0x3FFFFF else 0xFFFF) + sparse }
  | 0x02 => { t := 3, o := 7, n := true, acc := true, mode := 0xFC0F, imm := 0xFFFF + sparse }
  | 0x03 => if mode % 8 = 6 then { t := 1, mode := 0x3F07, imm := 0xFFFFFFFF00000000 }
            else { n := true, mode := 0xFF, imm := 0xFFFFFFFFFFFFFFFF }
  | 0x04 => { t := if sig then 5 else 1, o := if sig then 5 else 1, acc := true, mode := 0x7F,
              imm := if sig then 0xFFFFFFFF0000FF00 else 0xFFFFFFFF0000FFFF }
  | 0x05 => { acc := true, imm := 0xFFFF }
  | 0x06 => { t := 1, o := 1, acc := true, mode := 0x60, imm := 0xFFFF }
  | 0x07 => { t := 7, o := 7, n := true, acc := true, mode := 0xF, imm := 0xFFFF }
  | 0x08 => { t := 5, o := 5, n := true, mode := 0x703E0, imm := 0x3F00FF }
  | 0x09 => { t := 7, o := 7, mode := 0x7003F, imm := 0xFFFF }
  | _ => {}

/-- The fields that a CE, KE, stash, OE or MBS command lists (R321, R330, R336, R342, R346, R360, R362, R364, R368, R371,
R375). -/
def dieUses (mop mode : Nat) : MUses :=
  match mop with
  | 0x40 => { t := 3, o := 3, mode := 0xC1FFF }
  | 0x41 => { t := 7, o := 7, mode := 0xC1FFF }
  | 0x42 => { t := 3, o := 3, mode := 0x3FFFF, imm := if mode.testBit 17 then 0xFFFF else 0 }
  | 0x43 => { t := 3, o := 3, mode := 0xF01FFF,
              imm := (if mode.testBit 22 then 0 else 0xFFFFFFFF) + (if mode.testBit 23 then 0xFFFFFFFF00000000 else 0) }
  | 0x44 => { t := 3, o := 3, mode := 0x1FFFF, imm := 0xFFFF }
  | 0x45 => { mode := 0x100000F }
  | 0x46 => { mode := 0xFF0, imm := 0xFFFFFFFFFFFFFFFF }
  | 0x48 | 0x49 => { t := 3, o := 7, n := true, mode := 0xFFF }
  | 0x4A => { t := 3, o := 7, n := true, mode := 0x3F }
  | 0x4B => { t := 3, o := 7, n := true, mode := 0x3F, imm := 0xFFFF }
  | 0x4C => { t := 3, o := 7, n := true, mode := 0x103F, imm := if mode.testBit 12 then 0xFFFF else 0 }
  | 0x4D => if mode.testBit 14 then { o := 1, mode := 0x603F } else { t := 1, o := 1, n := true, mode := 0x603F }
  | 0x50 => { t := 1, o := 1, mode := 0x1000003 }
  | 0x51 => { o := 1, mode := 0x1000003 }
  | 0x52 => { mode := 0x1000FFF, imm := 0xFFFFFFFF }
  | 0x53 => if mode % 4 = 0 then { o := 1, mode := 0x1000003 } else { mode := 0x100FF03 }
  | 0x58 => { t := 1, o := 1, mode := if mode.testBit 2 then 0x100003F else 0x1000007, imm := 0xFFFF }
  | 0x59 => { t := 2, o := 1, mode := 0x1000100, imm := 0xFFFF }
  | 0x5A => { o := 1, mode := 0x1000000, imm := 0xFFFF }
  | 0x5B => { o := 1, mode := 0x1000200, imm := 0xFFFF }
  | 0x5C => { o := 1, imm := 0xFFFF }
  | 0x60 => { o := 1, mode := 0x1000000 }
  | 0x61 => { o := 1, mode := 0x100000F }
  | 0x62 => { mode := 0x1000001, imm := if mode.testBit 0 then 0 else 0xFFFFFFFF }
  | _ => {}

/-- Values that an M operation's fields reserve: the bit that RESERVED_FIELD reports. -/
def meReserved (mop mode imm n : Nat) : Option Nat :=
  let when (c : Bool) (b : Nat) : Option Nat := if c then some b else none
  let sig := mode.testBit 4
  let cplx := mode.testBit 2
  let rows := when (decide (128 < imm % 256)) 0
  let cols (c : Bool) := when (decide ((if c then 96 else 192) < imm / 256 % 256)) 8
  let rep := when (mode / 256 % 4 == 3) 72
  let win := when (mode.testBit 18) 80
  let all (l : List (Option Nat)) : Option Nat := l.foldl minBit none
  match mop with
  | 0x80 => when (n == 0xFFFF) 128
  | 0x01 => all [rows, cols cplx, when (decide (2 ≤ mode % 4) || (mode % 4 == 1 && cplx)) 64,
                 when (sig && (cplx || mode % 4 != 0)) 68, when (sig && mode / 256 % 4 == 3) 72,
                 when (mode / 4096 % 16 != 0 && mode / 1024 % 4 == 0) 76, when (sig && mode.testBit 18) 80]
  | 0x02 => all [rows, cols cplx, when (decide (2 ≤ mode % 4) || (mode % 4 == 1 && cplx)) 64,
                 when (mode / 4096 % 16 != 0 && mode / 1024 % 4 == 0) 76]
  | 0x03 => when (mode % 8 == 7) 64
  | 0x04 => all [rows, cols (mode.testBit 5)]
  | 0x05 => all [rows, cols false]
  | 0x06 => all [rows, cols (mode.testBit 5)]
  | 0x08 => all [rows, rep, win]
  | 0x09 => all [when (mode % 4 == 3) 64, win]
  | 0x40 | 0x41 => when (mode.testBit 18 && (mode.testBit 19 || !mode.testBit 12)) 82
  | 0x43 => all [when (decide (2 ≤ mode / 2 ^ 20 % 4)) 84, when (mode.testBit 23 && !mode.testBit 12) 76]
  | 0x44 => when (imm % 65536 == 0) 0
  | 0x48 | 0x49 => when (mode / 64 % 4 == 3) 70
  | 0x58 => when (mode % 4 == 3) 64
  | _ => none

/-- The fields that an M operation lists. -/
def mUses (mop : Nat) (f : MFields) : MUses := if mop < 0x40 || mop == 0x80 then meUses mop f.mode.toNat else dieUses mop f.mode.toNat

/-- Fields of an M word that must be zero for an operation with these fields. -/
def mZero (mop : Nat) (f : MFields) : List (Nat × Nat) :=
  let u := mUses mop f
  unlisted 0 u.imm 64 ++ unlisted 64 u.mode 32 ++ (if u.fe then [] else [(119, 1)]) ++ (if f.fe = 0 || !u.fe then [(120, 5)] else [])
    ++ (if u.acc then [] else [(125, 3)]) ++ (if u.n then [] else [(128, 16)])
    ++ (if u.o.testBit 2 then [] else [(144, 6)]) ++ (if u.o.testBit 1 then [] else [(150, 6)]) ++ (if u.o.testBit 0 then [] else [(156, 6)])
    ++ (if u.t.testBit 2 then [] else [(162, 6)]) ++ (if u.t.testBit 1 then [] else [(168, 6)]) ++ (if u.t.testBit 0 then [] else [(174, 6)])
    ++ (if u.ga then [] else [(180, 4)])

/-- Values of an M operation's fields that are reserved. -/
def mReserved (mop : Nat) (f : MFields) : Option Nat := meReserved mop f.mode.toNat f.imm.toNat f.n.toNat

/-- The lowest offending bit of a reserved field (R149, R150). -/
def reservedBit (i : Instr) : Option Nat :=
  match vCode i with
  | some (op, f) => minBit (lowBitOf (encodeV op f) (vZero op f)) (vReserved op f)
  | none =>
    match mCode i with
    | some (op, f) => minBit (lowBitOf (encodeM op f) (mZero op f)) (mReserved op f)
    | none => reservedScalar i

/-- An encoding that only supervisor context may use (R141). -/
def privileged : Instr → Bool
  | .tlbiPage _ | .tlbiTenant _ | .tlbiAll _ | .halt | .eret | .dstchk _ _ _ => true
  | .mfs _ i | .mts _ i => decide (0x60 ≤ i.toNat)
  | .prio c => c == 3
  | _ => false

/-- Instructions that only S1 may hold (R137). -/
def s1Only : Instr → Bool
  | .br _ _ | .brl _ _ | .loop _ _ | .lset _ _ | .trap _ | .yield | .texit | .halt | .eret | .wfi | .bkpt => true
  | _ => false

/-- Commit-class instructions (R60). -/
def commitClass : Instr → Bool
  | .amoAdd .. | .amoAnd .. | .amoOr .. | .amoXor .. | .amoMin .. | .amoMax .. | .amoSwap .. | .amoCas ..
  | .amofFaddF32 .. | .amofFaddBf16x2 .. | .amofFminF32 .. | .amofFmaxF32 .. | .rel .. | .arv .. | .epop .. | .epopt ..
  | .epush .. | .mbsend .. | .mbfin .. | .opj .. | .texit => true
  | _ => false

end Sys2Proof.Machine
end

