-- ==== Sys2Proof/WellFormed.lean ====
section
/-!
DEFINITION. Which terms of `Instr` stand for an encoding: no field value that is no instruction, no reserved field set
(spec 05, R140, R149).
-/
namespace Sys2Proof

/-- An instruction whose fields the encoding admits. -/
def wellFormed (i : Instr) : Bool := !Machine.illegalFields i && (Machine.reservedBit i).isNone

end Sys2Proof
end

