-- ==== Sys2Proof/Decode.lean ====
section
/-!
DEFINITION. The decoder and the encoder of slot words (spec 05, R139 to R149), and the bundle header (R131, R133). A word
is a number; bit 0 is its least significant bit.
-/
namespace Sys2Proof
open Machine (lowBitOf minBit encodeV encodeM)

/-- `n` bits of a word from bit `lo` on. -/
abbrev bits (n : Nat) (w lo : Nat) : BitVec n := BitVec.ofNat n (w / 2 ^ lo)

/-- Why a pattern is not an instruction (R149). -/
inductive Bad where
  /-- an unassigned opcode or selector: ILLEGAL_OP -/
  | illegal
  /-- a reserved field that is not zero: RESERVED_FIELD, with the lowest offending bit -/
  | reserved (bit : Nat)
deriving DecidableEq, Repr

/-- One row of the scalar opcode map (R140): the selector field and its value, the fields that must be zero as pairs of
lowest bit and width, and the instruction of a word. -/
structure Row where
  selLo : Nat
  selWidth : Nat
  selVal : Nat
  zero : List (Nat × Nat)
  build : Nat → Instr

/-- Major 0x01. -/
def rows01 : List Row :=
  [⟨0, 7, 0, [], fun w => .add (bits 6 w 20) (bits 6 w 14) (bits 6 w 8) (bits 1 w 7)⟩,
   ⟨0, 7, 1, [], fun w => .sub (bits 6 w 20) (bits 6 w 14) (bits 6 w 8) (bits 1 w 7)⟩,
   ⟨0, 7, 2, [], fun w => .and (bits 6 w 20) (bits 6 w 14) (bits 6 w 8) (bits 1 w 7)⟩,
   ⟨0, 7, 3, [], fun w => .or (bits 6 w 20) (bits 6 w 14) (bits 6 w 8) (bits 1 w 7)⟩,
   ⟨0, 7, 4, [], fun w => .xor (bits 6 w 20) (bits 6 w 14) (bits 6 w 8) (bits 1 w 7)⟩,
   ⟨0, 7, 5, [], fun w => .andn (bits 6 w 20) (bits 6 w 14) (bits 6 w 8) (bits 1 w 7)⟩,
   ⟨0, 7, 6, [], fun w => .sll (bits 6 w 20) (bits 6 w 14) (bits 6 w 8) (bits 1 w 7)⟩,
   ⟨0, 7, 7, [], fun w => .srl (bits 6 w 20) (bits 6 w 14) (bits 6 w 8) (bits 1 w 7)⟩,
   ⟨0, 7, 8, [], fun w => .sra (bits 6 w 20) (bits 6 w 14) (bits 6 w 8) (bits 1 w 7)⟩,
   ⟨0, 7, 9, [], fun w => .mul (bits 6 w 20) (bits 6 w 14) (bits 6 w 8) (bits 1 w 7)⟩,
   ⟨0, 7, 10, [], fun w => .mulhs (bits 6 w 20) (bits 6 w 14) (bits 6 w 8) (bits 1 w 7)⟩,
   ⟨0, 7, 11, [], fun w => .mulhu (bits 6 w 20) (bits 6 w 14) (bits 6 w 8) (bits 1 w 7)⟩,
   ⟨0, 7, 12, [], fun w => .divs (bits 6 w 20) (bits 6 w 14) (bits 6 w 8) (bits 1 w 7)⟩,
   ⟨0, 7, 13, [], fun w => .divu (bits 6 w 20) (bits 6 w 14) (bits 6 w 8) (bits 1 w 7)⟩,
   ⟨0, 7, 14, [], fun w => .rems (bits 6 w 20) (bits 6 w 14) (bits 6 w 8) (bits 1 w 7)⟩,
   ⟨0, 7, 15, [], fun w => .remu (bits 6 w 20) (bits 6 w 14) (bits 6 w 8) (bits 1 w 7)⟩,
   ⟨0, 7, 16, [], fun w => .min (bits 6 w 20) (bits 6 w 14) (bits 6 w 8) (bits 1 w 7)⟩,
   ⟨0, 7, 17, [], fun w => .minu (bits 6 w 20) (bits 6 w 14) (bits 6 w 8) (bits 1 w 7)⟩,
   ⟨0, 7, 18, [], fun w => .max (bits 6 w 20) (bits 6 w 14) (bits 6 w 8) (bits 1 w 7)⟩,
   ⟨0, 7, 19, [], fun w => .maxu (bits 6 w 20) (bits 6 w 14) (bits 6 w 8) (bits 1 w 7)⟩,
   ⟨0, 7, 20, [], fun w => .slt (bits 6 w 20) (bits 6 w 14) (bits 6 w 8) (bits 1 w 7)⟩,
   ⟨0, 7, 21, [], fun w => .sltu (bits 6 w 20) (bits 6 w 14) (bits 6 w 8) (bits 1 w 7)⟩,
   ⟨0, 7, 22, [(8, 6)], fun w => .clz (bits 6 w 20) (bits 6 w 14) (bits 1 w 7)⟩,
   ⟨0, 7, 23, [(8, 6)], fun w => .ctz (bits 6 w 20) (bits 6 w 14) (bits 1 w 7)⟩,
   ⟨0, 7, 24, [(8, 6)], fun w => .popc (bits 6 w 20) (bits 6 w 14) (bits 1 w 7)⟩,
   ⟨0, 7, 25, [(8, 6)], fun w => .brev (bits 6 w 20) (bits 6 w 14) (bits 1 w 7)⟩,
   ⟨0, 7, 26, [], fun w => .sext (bits 6 w 20) (bits 6 w 14) (bits 6 w 8) (bits 1 w 7)⟩,
   ⟨0, 7, 27, [], fun w => .zext (bits 6 w 20) (bits 6 w 14) (bits 6 w 8) (bits 1 w 7)⟩]

/-- Major 0x02. -/
def rows02 : List Row :=
  [⟨0, 0, 0, [], fun w => .addi (bits 6 w 20) (bits 6 w 14) (bits 14 w 0)⟩]

/-- Major 0x03. -/
def rows03 : List Row :=
  [⟨0, 0, 0, [], fun w => .andi (bits 6 w 20) (bits 6 w 14) (bits 14 w 0)⟩]

/-- Major 0x04. -/
def rows04 : List Row :=
  [⟨0, 0, 0, [], fun w => .ori (bits 6 w 20) (bits 6 w 14) (bits 14 w 0)⟩]

/-- Major 0x05. -/
def rows05 : List Row :=
  [⟨0, 0, 0, [], fun w => .xori (bits 6 w 20) (bits 6 w 14) (bits 14 w 0)⟩]

/-- Major 0x06. -/
def rows06 : List Row :=
  [⟨12, 2, 0, [(7, 5)], fun w => .slli (bits 6 w 20) (bits 6 w 14) (bits 1 w 6) (bits 6 w 0)⟩,
   ⟨12, 2, 1, [(7, 5)], fun w => .srli (bits 6 w 20) (bits 6 w 14) (bits 1 w 6) (bits 6 w 0)⟩,
   ⟨12, 2, 2, [(7, 5)], fun w => .srai (bits 6 w 20) (bits 6 w 14) (bits 1 w 6) (bits 6 w 0)⟩]

/-- Major 0x07. -/
def rows07 : List Row :=
  [⟨0, 0, 0, [], fun w => .lui (bits 6 w 20) (bits 20 w 0)⟩]

/-- Major 0x08. -/
def rows08 : List Row :=
  [⟨0, 0, 0, [], fun w => .auipc (bits 6 w 20) (bits 20 w 0)⟩]

/-- Major 0x09. -/
def rows09 : List Row :=
  [⟨0, 0, 0, [(0, 1)], fun w => .bext (bits 6 w 20) (bits 6 w 14) (bits 6 w 8) (bits 6 w 2) (bits 1 w 1)⟩]

/-- Major 0x0A. -/
def rows0A : List Row :=
  [⟨0, 0, 0, [(0, 2)], fun w => .bins (bits 6 w 20) (bits 6 w 14) (bits 6 w 8) (bits 6 w 2)⟩]

/-- Major 0x0B. -/
def rows0B : List Row :=
  [⟨0, 0, 0, [(1, 7)], fun w => .bextr (bits 6 w 20) (bits 6 w 14) (bits 6 w 8) (bits 1 w 0)⟩]

/-- Major 0x0C. -/
def rows0C : List Row :=
  [⟨0, 0, 0, [(0, 8)], fun w => .binsr (bits 6 w 20) (bits 6 w 14) (bits 6 w 8)⟩]

/-- Major 0x0D. -/
def rows0D : List Row :=
  [⟨0, 0, 0, [], fun w => .muli (bits 6 w 20) (bits 6 w 14) (bits 14 w 0)⟩]

/-- Major 0x0E. -/
def rows0E : List Row :=
  [⟨0, 0, 0, [(0, 4)], fun w => .sel (bits 6 w 20) (bits 6 w 14) (bits 6 w 8) (bits 4 w 4)⟩]

/-- Major 0x10. -/
def rows10 : List Row :=
  [⟨0, 0, 0, [], fun w => .ld (bits 6 w 20) (bits 6 w 14) (bits 10 w 4) (bits 2 w 2) (bits 2 w 0)⟩]

/-- Major 0x11. -/
def rows11 : List Row :=
  [⟨0, 0, 0, [], fun w => .lds (bits 6 w 20) (bits 6 w 14) (bits 10 w 4) (bits 2 w 2) (bits 2 w 0)⟩]

/-- Major 0x12. -/
def rows12 : List Row :=
  [⟨0, 0, 0, [(0, 2)], fun w => .st (bits 6 w 20) (bits 6 w 14) (bits 10 w 4) (bits 2 w 2)⟩]

/-- Major 0x13. -/
def rows13 : List Row :=
  [⟨0, 0, 0, [], fun w => .ldx (bits 6 w 20) (bits 6 w 14) (bits 14 w 0)⟩]

/-- Major 0x14. -/
def rows14 : List Row :=
  [⟨0, 0, 0, [], fun w => .stx (bits 6 w 20) (bits 6 w 14) (bits 14 w 0)⟩]

/-- Major 0x15. -/
def rows15 : List Row :=
  [⟨0, 0, 0, [(2, 2), (20, 6)], fun w => .prf (bits 6 w 14) (bits 10 w 4) (bits 2 w 0)⟩]

/-- Major 0x16. -/
def rows16 : List Row :=
  [⟨5, 3, 0, [], fun w => .amoAdd (bits 6 w 20) (bits 6 w 14) (bits 6 w 8) (bits 3 w 2) (bits 2 w 0)⟩,
   ⟨5, 3, 1, [], fun w => .amoAnd (bits 6 w 20) (bits 6 w 14) (bits 6 w 8) (bits 3 w 2) (bits 2 w 0)⟩,
   ⟨5, 3, 2, [], fun w => .amoOr (bits 6 w 20) (bits 6 w 14) (bits 6 w 8) (bits 3 w 2) (bits 2 w 0)⟩,
   ⟨5, 3, 3, [], fun w => .amoXor (bits 6 w 20) (bits 6 w 14) (bits 6 w 8) (bits 3 w 2) (bits 2 w 0)⟩,
   ⟨5, 3, 4, [], fun w => .amoMin (bits 6 w 20) (bits 6 w 14) (bits 6 w 8) (bits 3 w 2) (bits 2 w 0)⟩,
   ⟨5, 3, 5, [], fun w => .amoMax (bits 6 w 20) (bits 6 w 14) (bits 6 w 8) (bits 3 w 2) (bits 2 w 0)⟩,
   ⟨5, 3, 6, [], fun w => .amoSwap (bits 6 w 20) (bits 6 w 14) (bits 6 w 8) (bits 3 w 2) (bits 2 w 0)⟩,
   ⟨5, 3, 7, [], fun w => .amoCas (bits 6 w 20) (bits 6 w 14) (bits 6 w 8) (bits 3 w 2) (bits 2 w 0)⟩]

/-- Major 0x17. -/
def rows17 : List Row :=
  [⟨5, 3, 0, [], fun w => .amofFaddF32 (bits 6 w 20) (bits 6 w 14) (bits 6 w 8) (bits 3 w 2) (bits 2 w 0)⟩,
   ⟨5, 3, 1, [], fun w => .amofFaddBf16x2 (bits 6 w 20) (bits 6 w 14) (bits 6 w 8) (bits 3 w 2) (bits 2 w 0)⟩,
   ⟨5, 3, 2, [], fun w => .amofFminF32 (bits 6 w 20) (bits 6 w 14) (bits 6 w 8) (bits 3 w 2) (bits 2 w 0)⟩,
   ⟨5, 3, 3, [], fun w => .amofFmaxF32 (bits 6 w 20) (bits 6 w 14) (bits 6 w 8) (bits 3 w 2) (bits 2 w 0)⟩]

/-- Major 0x18. -/
def rows18 : List Row :=
  [⟨20, 3, 0, [(0, 7)], fun w => .cmpEq (bits 3 w 23) (bits 6 w 14) (bits 6 w 8) (bits 1 w 7)⟩,
   ⟨20, 3, 1, [(0, 7)], fun w => .cmpNe (bits 3 w 23) (bits 6 w 14) (bits 6 w 8) (bits 1 w 7)⟩,
   ⟨20, 3, 2, [(0, 7)], fun w => .cmpLt (bits 3 w 23) (bits 6 w 14) (bits 6 w 8) (bits 1 w 7)⟩,
   ⟨20, 3, 3, [(0, 7)], fun w => .cmpGe (bits 3 w 23) (bits 6 w 14) (bits 6 w 8) (bits 1 w 7)⟩,
   ⟨20, 3, 4, [(0, 7)], fun w => .cmpLtu (bits 3 w 23) (bits 6 w 14) (bits 6 w 8) (bits 1 w 7)⟩,
   ⟨20, 3, 5, [(0, 7)], fun w => .cmpGeu (bits 3 w 23) (bits 6 w 14) (bits 6 w 8) (bits 1 w 7)⟩,
   ⟨20, 3, 6, [(0, 7)], fun w => .cmpTst (bits 3 w 23) (bits 6 w 14) (bits 6 w 8) (bits 1 w 7)⟩,
   ⟨20, 3, 7, [(0, 7)], fun w => .cmpNtst (bits 3 w 23) (bits 6 w 14) (bits 6 w 8) (bits 1 w 7)⟩]

/-- Major 0x19. -/
def rows19 : List Row :=
  [⟨20, 3, 0, [], fun w => .cmpiEq (bits 3 w 23) (bits 6 w 14) (bits 14 w 0)⟩,
   ⟨20, 3, 1, [], fun w => .cmpiNe (bits 3 w 23) (bits 6 w 14) (bits 14 w 0)⟩,
   ⟨20, 3, 2, [], fun w => .cmpiLt (bits 3 w 23) (bits 6 w 14) (bits 14 w 0)⟩,
   ⟨20, 3, 3, [], fun w => .cmpiGe (bits 3 w 23) (bits 6 w 14) (bits 14 w 0)⟩,
   ⟨20, 3, 4, [], fun w => .cmpiLtu (bits 3 w 23) (bits 6 w 14) (bits 14 w 0)⟩,
   ⟨20, 3, 5, [], fun w => .cmpiGeu (bits 3 w 23) (bits 6 w 14) (bits 14 w 0)⟩,
   ⟨20, 3, 6, [], fun w => .cmpiTst (bits 3 w 23) (bits 6 w 14) (bits 14 w 0)⟩,
   ⟨20, 3, 7, [], fun w => .cmpiNtst (bits 3 w 23) (bits 6 w 14) (bits 14 w 0)⟩]

/-- Major 0x1A. -/
def rows1A : List Row :=
  [⟨20, 3, 0, [(0, 8), (12, 2), (18, 2)], fun w => .gopAnd (bits 3 w 23) (bits 4 w 14) (bits 4 w 8)⟩,
   ⟨20, 3, 1, [(0, 8), (12, 2), (18, 2)], fun w => .gopOr (bits 3 w 23) (bits 4 w 14) (bits 4 w 8)⟩,
   ⟨20, 3, 2, [(0, 8), (12, 2), (18, 2)], fun w => .gopXor (bits 3 w 23) (bits 4 w 14) (bits 4 w 8)⟩,
   ⟨20, 3, 3, [(0, 8), (12, 2), (18, 2)], fun w => .gopAndn (bits 3 w 23) (bits 4 w 14) (bits 4 w 8)⟩]

/-- Major 0x1B. -/
def rows1B : List Row :=
  [⟨20, 3, 0, [(0, 7)], fun w => .fcmpFeq (bits 3 w 23) (bits 6 w 14) (bits 6 w 8) (bits 1 w 7)⟩,
   ⟨20, 3, 1, [(0, 7)], fun w => .fcmpFlt (bits 3 w 23) (bits 6 w 14) (bits 6 w 8) (bits 1 w 7)⟩,
   ⟨20, 3, 2, [(0, 7)], fun w => .fcmpFle (bits 3 w 23) (bits 6 w 14) (bits 6 w 8) (bits 1 w 7)⟩,
   ⟨20, 3, 3, [(0, 7)], fun w => .fcmpFun (bits 3 w 23) (bits 6 w 14) (bits 6 w 8) (bits 1 w 7)⟩]

/-- Major 0x20. -/
def rows20 : List Row :=
  [⟨0, 0, 0, [], fun w => .pbr (bits 2 w 24) (bits 24 w 0)⟩]

/-- Major 0x21. -/
def rows21 : List Row :=
  [⟨0, 0, 0, [(0, 20)], fun w => .br (bits 2 w 24) (bits 4 w 20)⟩]

/-- Major 0x22. -/
def rows22 : List Row :=
  [⟨0, 0, 0, [(0, 20)], fun w => .brl (bits 2 w 24) (bits 4 w 20)⟩]

/-- Major 0x23. -/
def rows23 : List Row :=
  [⟨0, 0, 0, [(0, 14), (20, 4)], fun w => .mtbt (bits 2 w 24) (bits 6 w 14)⟩]

/-- Major 0x25. -/
def rows25 : List Row :=
  [⟨20, 2, 0, [(0, 20)], fun w => .loop (bits 2 w 24) (bits 2 w 22)⟩,
   ⟨20, 2, 1, [(0, 14), (24, 2)], fun w => .lset (bits 2 w 22) (bits 6 w 14)⟩]

/-- Major 0x26. -/
def rows26 : List Row :=
  [⟨0, 0, 0, [(14, 12)], fun w => .trap (bits 14 w 0)⟩]

/-- Major 0x27. -/
def rows27 : List Row :=
  [⟨0, 8, 0, [(8, 18)], fun _ => .nop⟩,
   ⟨0, 8, 1, [(8, 18)], fun _ => .yield⟩,
   ⟨0, 8, 2, [(8, 18)], fun _ => .texit⟩,
   ⟨0, 8, 3, [(8, 18)], fun _ => .halt⟩,
   ⟨0, 8, 4, [(8, 18)], fun _ => .eret⟩,
   ⟨0, 8, 5, [(8, 18)], fun _ => .wfi⟩,
   ⟨0, 8, 6, [(8, 18)], fun _ => .bkpt⟩]

/-- Major 0x28. -/
def rows28 : List Row :=
  [⟨0, 4, 0, [], fun w => .fadd (bits 6 w 20) (bits 6 w 14) (bits 6 w 8) (bits 3 w 5) (bits 1 w 4)⟩,
   ⟨0, 4, 1, [], fun w => .fsub (bits 6 w 20) (bits 6 w 14) (bits 6 w 8) (bits 3 w 5) (bits 1 w 4)⟩,
   ⟨0, 4, 2, [], fun w => .fmul (bits 6 w 20) (bits 6 w 14) (bits 6 w 8) (bits 3 w 5) (bits 1 w 4)⟩,
   ⟨0, 4, 3, [], fun w => .fdiv (bits 6 w 20) (bits 6 w 14) (bits 6 w 8) (bits 3 w 5) (bits 1 w 4)⟩,
   ⟨0, 4, 4, [(8, 6)], fun w => .fsqrt (bits 6 w 20) (bits 6 w 14) (bits 3 w 5) (bits 1 w 4)⟩,
   ⟨0, 4, 5, [(5, 3)], fun w => .fmin (bits 6 w 20) (bits 6 w 14) (bits 6 w 8) (bits 1 w 4)⟩,
   ⟨0, 4, 6, [(5, 3)], fun w => .fmax (bits 6 w 20) (bits 6 w 14) (bits 6 w 8) (bits 1 w 4)⟩,
   ⟨0, 4, 7, [(5, 9)], fun w => .fabs (bits 6 w 20) (bits 6 w 14) (bits 1 w 4)⟩,
   ⟨0, 4, 8, [(5, 9)], fun w => .fneg (bits 6 w 20) (bits 6 w 14) (bits 1 w 4)⟩,
   ⟨0, 4, 9, [(5, 3)], fun w => .fsgnj (bits 6 w 20) (bits 6 w 14) (bits 6 w 8) (bits 1 w 4)⟩,
   ⟨0, 4, 10, [(5, 9)], fun w => .fclass (bits 6 w 20) (bits 6 w 14) (bits 1 w 4)⟩]

/-- Major 0x29. -/
def rows29 : List Row :=
  [⟨0, 2, 0, [], fun w => .fma (bits 6 w 20) (bits 6 w 14) (bits 6 w 8) (bits 6 w 2)⟩,
   ⟨0, 2, 1, [], fun w => .fms (bits 6 w 20) (bits 6 w 14) (bits 6 w 8) (bits 6 w 2)⟩,
   ⟨0, 2, 2, [], fun w => .fnma (bits 6 w 20) (bits 6 w 14) (bits 6 w 8) (bits 6 w 2)⟩,
   ⟨0, 2, 3, [], fun w => .fnms (bits 6 w 20) (bits 6 w 14) (bits 6 w 8) (bits 6 w 2)⟩]

/-- Major 0x2A. -/
def rows2A : List Row :=
  [⟨0, 0, 0, [(0, 4)], fun w => .fcvt (bits 6 w 20) (bits 6 w 14) (bits 3 w 11) (bits 3 w 8) (bits 3 w 5) (bits 1 w 4)⟩]

/-- Major 0x30. -/
def rows30 : List Row :=
  [⟨0, 0, 0, [(14, 6)], fun w => .mfs (bits 6 w 20) (bits 14 w 0)⟩]

/-- Major 0x31. -/
def rows31 : List Row :=
  [⟨0, 0, 0, [(20, 6)], fun w => .mts (bits 6 w 14) (bits 14 w 0)⟩]

/-- Major 0x32. -/
def rows32 : List Row :=
  [⟨5, 3, 0, [(0, 2)], fun w => .acq (bits 6 w 20) (bits 6 w 14) (bits 6 w 8) (bits 3 w 2)⟩,
   ⟨5, 3, 1, [(0, 2)], fun w => .rel (bits 6 w 20) (bits 6 w 14) (bits 6 w 8) (bits 3 w 2)⟩,
   ⟨5, 3, 2, [(0, 2)], fun w => .arv (bits 6 w 20) (bits 6 w 14) (bits 6 w 8) (bits 3 w 2)⟩,
   ⟨5, 3, 3, [(0, 2)], fun w => .waitb (bits 6 w 20) (bits 6 w 14) (bits 6 w 8) (bits 3 w 2)⟩,
   ⟨5, 3, 4, [(0, 2)], fun w => .bind (bits 6 w 20) (bits 6 w 14) (bits 6 w 8) (bits 3 w 2)⟩,
   ⟨5, 3, 5, [(0, 2)], fun w => .unbind (bits 6 w 20) (bits 6 w 14) (bits 6 w 8) (bits 3 w 2)⟩]

/-- Major 0x33. -/
def rows33 : List Row :=
  [⟨0, 0, 0, [(0, 2), (5, 21)], fun w => .fence (bits 3 w 2)⟩]

/-- Major 0x34. -/
def rows34 : List Row :=
  [⟨0, 0, 0, [(3, 23)], fun w => .drain (bits 3 w 0)⟩]

/-- Major 0x35. -/
def rows35 : List Row :=
  [⟨12, 2, 0, [(20, 6)], fun w => .setf (bits 6 w 14) (bits 5 w 7) (bits 1 w 6) (bits 6 w 0)⟩,
   ⟨12, 2, 1, [(20, 6)], fun w => .addf (bits 6 w 14) (bits 5 w 7) (bits 1 w 6) (bits 6 w 0)⟩,
   ⟨12, 2, 2, [(0, 7), (14, 6)], fun w => .getf (bits 6 w 20) (bits 5 w 7)⟩]

/-- Major 0x36. -/
def rows36 : List Row :=
  [⟨0, 1, 0, [(1, 7), (14, 6)], fun w => .epop (bits 6 w 20) (bits 6 w 8)⟩,
   ⟨0, 1, 1, [(1, 7), (14, 6)], fun w => .epopt (bits 6 w 20) (bits 6 w 8)⟩]

/-- Major 0x37. -/
def rows37 : List Row :=
  [⟨0, 0, 0, [(0, 8), (20, 6)], fun w => .epush (bits 6 w 14) (bits 6 w 8)⟩]

/-- Major 0x38. -/
def rows38 : List Row :=
  [⟨0, 3, 0, [(3, 5)], fun w => .tdld (bits 6 w 20) (bits 6 w 14) (bits 6 w 8)⟩,
   ⟨0, 3, 1, [(3, 5)], fun w => .tdst (bits 6 w 20) (bits 6 w 14) (bits 6 w 8)⟩,
   ⟨0, 3, 2, [], fun w => .tdset (bits 6 w 20) (bits 6 w 14) (bits 6 w 8) (bits 5 w 3)⟩,
   ⟨0, 3, 3, [], fun w => .tdget (bits 6 w 20) (bits 6 w 14) (bits 6 w 8) (bits 5 w 3)⟩,
   ⟨0, 3, 4, [(3, 5)], fun w => .tdcpy (bits 6 w 20) (bits 6 w 14) (bits 6 w 8)⟩]

/-- Major 0x39. -/
def rows39 : List Row :=
  [⟨0, 0, 0, [(2, 24)], fun w => .prio (bits 2 w 0)⟩]

/-- Major 0x3A. -/
def rows3A : List Row :=
  [⟨0, 2, 0, [(2, 6)], fun w => .mbpost (bits 6 w 20) (bits 6 w 14) (bits 6 w 8)⟩,
   ⟨0, 2, 1, [(2, 6)], fun w => .mbfin (bits 6 w 20) (bits 6 w 14) (bits 6 w 8)⟩,
   ⟨0, 2, 2, [(2, 6)], fun w => .mbver (bits 6 w 20) (bits 6 w 14) (bits 6 w 8)⟩]

/-- Major 0x3B. -/
def rows3B : List Row :=
  [⟨0, 3, 0, [(3, 11), (20, 6)], fun w => .tlbiPage (bits 6 w 14)⟩,
   ⟨0, 3, 1, [(3, 11), (20, 6)], fun w => .tlbiTenant (bits 6 w 14)⟩,
   ⟨0, 3, 2, [(3, 11), (20, 6)], fun w => .tlbiAll (bits 6 w 14)⟩]

/-- Major 0x3C. -/
def rows3C : List Row :=
  [⟨0, 2, 0, [(3, 11), (20, 6)], fun w => .cinv (bits 6 w 14) (bits 1 w 2)⟩,
   ⟨0, 2, 1, [(3, 11), (20, 6)], fun w => .cfls (bits 6 w 14) (bits 1 w 2)⟩,
   ⟨0, 2, 2, [(2, 24)], fun _ => .icsync⟩,
   ⟨0, 2, 3, [(3, 5), (20, 6)], fun w => .dstchk (bits 6 w 14) (bits 6 w 8) (bits 1 w 2)⟩]

/-- The rows of a major opcode (R140); none where the map leaves it unassigned. -/
def rowsOf (major : Nat) : List Row :=
  match major with
  | 0x01 => rows01
  | 0x02 => rows02
  | 0x03 => rows03
  | 0x04 => rows04
  | 0x05 => rows05
  | 0x06 => rows06
  | 0x07 => rows07
  | 0x08 => rows08
  | 0x09 => rows09
  | 0x0A => rows0A
  | 0x0B => rows0B
  | 0x0C => rows0C
  | 0x0D => rows0D
  | 0x0E => rows0E
  | 0x10 => rows10
  | 0x11 => rows11
  | 0x12 => rows12
  | 0x13 => rows13
  | 0x14 => rows14
  | 0x15 => rows15
  | 0x16 => rows16
  | 0x17 => rows17
  | 0x18 => rows18
  | 0x19 => rows19
  | 0x1A => rows1A
  | 0x1B => rows1B
  | 0x20 => rows20
  | 0x21 => rows21
  | 0x22 => rows22
  | 0x23 => rows23
  | 0x25 => rows25
  | 0x26 => rows26
  | 0x27 => rows27
  | 0x28 => rows28
  | 0x29 => rows29
  | 0x2A => rows2A
  | 0x30 => rows30
  | 0x31 => rows31
  | 0x32 => rows32
  | 0x33 => rows33
  | 0x34 => rows34
  | 0x35 => rows35
  | 0x36 => rows36
  | 0x37 => rows37
  | 0x38 => rows38
  | 0x39 => rows39
  | 0x3A => rows3A
  | 0x3B => rows3B
  | 0x3C => rows3C
  | _ => []

/-- The instruction of a VOP code (R144). -/
def vInstr (vop : Nat) : Option (VFields → Instr) :=
  match vop with
  | 0x01 => some .vadd
  | 0x02 => some .vsub
  | 0x03 => some .vmul
  | 0x04 => some .vfma
  | 0x05 => some .vfms
  | 0x06 => some .vdiv
  | 0x07 => some .vmin
  | 0x08 => some .vmax
  | 0x09 => some .vabs
  | 0x0A => some .vneg
  | 0x0B => some .vsqrt
  | 0x0C => some .vrcp
  | 0x0D => some .vrsq
  | 0x0E => some .vscl
  | 0x0F => some .vaxpy
  | 0x10 => some .vclmp
  | 0x11 => some .vrnd
  | 0x20 => some .vexp
  | 0x21 => some .vexp2
  | 0x22 => some .vlog
  | 0x23 => some .vlog2
  | 0x24 => some .vtanh
  | 0x25 => some .vsigm
  | 0x26 => some .vgelu
  | 0x27 => some .vsilu
  | 0x28 => some .vsin
  | 0x29 => some .vcos
  | 0x30 => some .vcvt
  | 0x31 => some .vqnt
  | 0x32 => some .vdqnt
  | 0x33 => some .vcvti
  | 0x34 => some .vcvtf
  | 0x40 => some .vcmp
  | 0x41 => some .vsel
  | 0x42 => some .vand
  | 0x43 => some .vor
  | 0x44 => some .vxor
  | 0x45 => some .vnot
  | 0x46 => some .vshl
  | 0x47 => some .vshr
  | 0x50 => some .vrsum
  | 0x51 => some .vrmax
  | 0x52 => some .vrmin
  | 0x53 => some .vramx
  | 0x54 => some .vscan
  | 0x55 => some .vvote
  | 0x56 => some .vflgc
  | 0x57 => some .vrssq
  | 0x58 => some .vlse
  | 0x60 => some .vmov
  | 0x61 => some .vfill
  | 0x62 => some .vgth
  | 0x63 => some .vsct
  | 0x64 => some .vtrn
  | 0x65 => some .viota
  | 0x66 => some .vcmpr
  | 0x67 => some .vexpd
  | 0x70 => some .viadd
  | 0x71 => some .visub
  | 0x72 => some .vimul
  | 0x73 => some .vimin
  | 0x74 => some .vimax
  | 0x75 => some .vpopc
  | 0x76 => some .vbext
  | 0x77 => some .vhash
  | _ => none

/-- The instruction of a MOP code (R146); MBSTG is told apart by MODE[1:0] (R368). -/
def mInstr (mop mode : Nat) : Option (MFields → Instr) :=
  match mop with
  | 0x01 => some .mstep
  | 0x02 => some .mnest
  | 0x03 => some .mnset
  | 0x04 => some .mwb
  | 0x05 => some .mzero
  | 0x06 => some .mlda
  | 0x07 => some .mspc
  | 0x08 => some .msig
  | 0x09 => some .mscat
  | 0x40 => some .cpy
  | 0x41 => some .cpyi
  | 0x42 => some .cpyrs
  | 0x43 => some .cpyk
  | 0x44 => some .cpymc
  | 0x45 => some .cwmk
  | 0x46 => some .ctpl
  | 0x48 => some .clar
  | 0x49 => some .clrs
  | 0x4A => some .clag
  | 0x4B => some .clbc
  | 0x4C => some .clxr
  | 0x4D => some .clgrp
  | 0x50 => some .mbsend
  | 0x51 => some .mbrls
  | 0x52 => some .mbpol
  | 0x53 => some (match mode % 4 with | 0 => .mbstgLoad | 1 => .mbstgEnable | 2 => .mbstgDestroy | _ => .mbstgCancel)
  | 0x58 => some .stsh
  | 0x59 => some .stft
  | 0x5A => some .stpf
  | 0x5B => some .stdr
  | 0x5C => some .stqy
  | 0x60 => some .opj
  | 0x61 => some .oprt
  | 0x62 => some .opsk
  | 0x80 => some .rgn
  | _ => none


/-- The instruction of a row, or why the word is none: a selector value the row forbids, then the reserved fields. -/
def finish (i : Instr) (zeros : Option Nat) : Except Bad Instr :=
  if Machine.illegalFields i then .error .illegal
  else match minBit zeros (Machine.reservedBit i) with
    | some b => .error (.reserved b)
    | none => .ok i

/-- The scalar slot word (R139, R140, R149). -/
def decodeScalar (w : Nat) : Except Bad Instr :=
  match (rowsOf (w / 2 ^ 26 % 64)).find? fun r => w / 2 ^ r.selLo % 2 ^ r.selWidth == r.selVal with
  | none => .error .illegal
  | some r => finish (r.build w) (lowBitOf w r.zero)

/-- The fields of a V word (R142). -/
def vFields (w : Nat) : VFields :=
  { ga := bits 4 w 84, gb := bits 4 w 80, td := bits 6 w 74, ts1 := bits 6 w 68, ts2 := bits 6 w 62, ts3 := bits 6 w 56,
    od := bits 6 w 50, os := bits 6 w 44, ci := bits 1 w 43, cnt := bits 16 w 27, rm := bits 3 w 24, mod := bits 8 w 16,
    hint := bits 2 w 14, fe := bits 1 w 13, fl := bits 5 w 8, imm8 := bits 8 w 0 }

/-- The V slot word (R142, R144, R149). -/
def decodeV (w : Nat) : Except Bad Instr :=
  match vInstr (w / 2 ^ 88 % 256) with
  | none => .error .illegal
  | some mk => finish (mk (vFields w)) none

/-- The fields of an M word (R145). -/
def mFields (w : Nat) : MFields :=
  { ga := bits 4 w 180, t1 := bits 6 w 174, t2 := bits 6 w 168, t3 := bits 6 w 162, o1 := bits 6 w 156, o2 := bits 6 w 150,
    o3 := bits 6 w 144, n := bits 16 w 128, acc := bits 3 w 125, fl := bits 5 w 120, fe := bits 1 w 119,
    mode := bits 32 w 64, imm := bits 64 w 0 }

/-- The M slot word (R145, R146, R149). -/
def decodeM (w : Nat) : Except Bad Instr :=
  match mInstr (w / 2 ^ 184 % 256) (w / 2 ^ 64) with
  | none => .error .illegal
  | some mk => finish (mk (mFields w)) (lowBitOf w [(96, 23)])

/-- A word from its fixed bits and its fields, each a value and its lowest bit. -/
def word (fixed : Nat) : List (Nat × Nat) → Nat
  | [] => fixed
  | (v, lo) :: r => v * 2 ^ lo + word fixed r

/-- The words of an instruction, with their number of bits (R139, R142, R145). An event has none. -/
def encode : Instr → Option (Nat × Nat)
  | .add d a b w => some (32, word 0x04000000 [(d.toNat, 20), (a.toNat, 14), (b.toNat, 8), (w.toNat, 7)])
  | .sub d a b w => some (32, word 0x04000001 [(d.toNat, 20), (a.toNat, 14), (b.toNat, 8), (w.toNat, 7)])
  | .and d a b w => some (32, word 0x04000002 [(d.toNat, 20), (a.toNat, 14), (b.toNat, 8), (w.toNat, 7)])
  | .or d a b w => some (32, word 0x04000003 [(d.toNat, 20), (a.toNat, 14), (b.toNat, 8), (w.toNat, 7)])
  | .xor d a b w => some (32, word 0x04000004 [(d.toNat, 20), (a.toNat, 14), (b.toNat, 8), (w.toNat, 7)])
  | .andn d a b w => some (32, word 0x04000005 [(d.toNat, 20), (a.toNat, 14), (b.toNat, 8), (w.toNat, 7)])
  | .sll d a b w => some (32, word 0x04000006 [(d.toNat, 20), (a.toNat, 14), (b.toNat, 8), (w.toNat, 7)])
  | .srl d a b w => some (32, word 0x04000007 [(d.toNat, 20), (a.toNat, 14), (b.toNat, 8), (w.toNat, 7)])
  | .sra d a b w => some (32, word 0x04000008 [(d.toNat, 20), (a.toNat, 14), (b.toNat, 8), (w.toNat, 7)])
  | .mul d a b w => some (32, word 0x04000009 [(d.toNat, 20), (a.toNat, 14), (b.toNat, 8), (w.toNat, 7)])
  | .mulhs d a b w => some (32, word 0x0400000A [(d.toNat, 20), (a.toNat, 14), (b.toNat, 8), (w.toNat, 7)])
  | .mulhu d a b w => some (32, word 0x0400000B [(d.toNat, 20), (a.toNat, 14), (b.toNat, 8), (w.toNat, 7)])
  | .divs d a b w => some (32, word 0x0400000C [(d.toNat, 20), (a.toNat, 14), (b.toNat, 8), (w.toNat, 7)])
  | .divu d a b w => some (32, word 0x0400000D [(d.toNat, 20), (a.toNat, 14), (b.toNat, 8), (w.toNat, 7)])
  | .rems d a b w => some (32, word 0x0400000E [(d.toNat, 20), (a.toNat, 14), (b.toNat, 8), (w.toNat, 7)])
  | .remu d a b w => some (32, word 0x0400000F [(d.toNat, 20), (a.toNat, 14), (b.toNat, 8), (w.toNat, 7)])
  | .min d a b w => some (32, word 0x04000010 [(d.toNat, 20), (a.toNat, 14), (b.toNat, 8), (w.toNat, 7)])
  | .minu d a b w => some (32, word 0x04000011 [(d.toNat, 20), (a.toNat, 14), (b.toNat, 8), (w.toNat, 7)])
  | .max d a b w => some (32, word 0x04000012 [(d.toNat, 20), (a.toNat, 14), (b.toNat, 8), (w.toNat, 7)])
  | .maxu d a b w => some (32, word 0x04000013 [(d.toNat, 20), (a.toNat, 14), (b.toNat, 8), (w.toNat, 7)])
  | .slt d a b w => some (32, word 0x04000014 [(d.toNat, 20), (a.toNat, 14), (b.toNat, 8), (w.toNat, 7)])
  | .sltu d a b w => some (32, word 0x04000015 [(d.toNat, 20), (a.toNat, 14), (b.toNat, 8), (w.toNat, 7)])
  | .clz d a w => some (32, word 0x04000016 [(d.toNat, 20), (a.toNat, 14), (w.toNat, 7)])
  | .ctz d a w => some (32, word 0x04000017 [(d.toNat, 20), (a.toNat, 14), (w.toNat, 7)])
  | .popc d a w => some (32, word 0x04000018 [(d.toNat, 20), (a.toNat, 14), (w.toNat, 7)])
  | .brev d a w => some (32, word 0x04000019 [(d.toNat, 20), (a.toNat, 14), (w.toNat, 7)])
  | .sext d a b w => some (32, word 0x0400001A [(d.toNat, 20), (a.toNat, 14), (b.toNat, 8), (w.toNat, 7)])
  | .zext d a b w => some (32, word 0x0400001B [(d.toNat, 20), (a.toNat, 14), (b.toNat, 8), (w.toNat, 7)])
  | .addi d a i => some (32, word 0x08000000 [(d.toNat, 20), (a.toNat, 14), (i.toNat, 0)])
  | .andi d a i => some (32, word 0x0C000000 [(d.toNat, 20), (a.toNat, 14), (i.toNat, 0)])
  | .ori d a i => some (32, word 0x10000000 [(d.toNat, 20), (a.toNat, 14), (i.toNat, 0)])
  | .xori d a i => some (32, word 0x14000000 [(d.toNat, 20), (a.toNat, 14), (i.toNat, 0)])
  | .muli d a i => some (32, word 0x34000000 [(d.toNat, 20), (a.toNat, 14), (i.toNat, 0)])
  | .slli d a w s => some (32, word 0x18000000 [(d.toNat, 20), (a.toNat, 14), (w.toNat, 6), (s.toNat, 0)])
  | .srli d a w s => some (32, word 0x18001000 [(d.toNat, 20), (a.toNat, 14), (w.toNat, 6), (s.toNat, 0)])
  | .srai d a w s => some (32, word 0x18002000 [(d.toNat, 20), (a.toNat, 14), (w.toNat, 6), (s.toNat, 0)])
  | .lui d i => some (32, word 0x1C000000 [(d.toNat, 20), (i.toNat, 0)])
  | .auipc d i => some (32, word 0x20000000 [(d.toNat, 20), (i.toNat, 0)])
  | .bext d a o w s => some (32, word 0x24000000 [(d.toNat, 20), (a.toNat, 14), (o.toNat, 8), (w.toNat, 2), (s.toNat, 1)])
  | .bins d a o w => some (32, word 0x28000000 [(d.toNat, 20), (a.toNat, 14), (o.toNat, 8), (w.toNat, 2)])
  | .bextr d a b s => some (32, word 0x2C000000 [(d.toNat, 20), (a.toNat, 14), (b.toNat, 8), (s.toNat, 0)])
  | .binsr d a b => some (32, word 0x30000000 [(d.toNat, 20), (a.toNat, 14), (b.toNat, 8)])
  | .sel d a b g => some (32, word 0x38000000 [(d.toNat, 20), (a.toNat, 14), (b.toNat, 8), (g.toNat, 4)])
  | .ld d a i z h => some (32, word 0x40000000 [(d.toNat, 20), (a.toNat, 14), (i.toNat, 4), (z.toNat, 2), (h.toNat, 0)])
  | .lds d a i z h => some (32, word 0x44000000 [(d.toNat, 20), (a.toNat, 14), (i.toNat, 4), (z.toNat, 2), (h.toNat, 0)])
  | .st s a i z => some (32, word 0x48000000 [(s.toNat, 20), (a.toNat, 14), (i.toNat, 4), (z.toNat, 2)])
  | .ldx d a x => some (32, word 0x4C000000 [(d.toNat, 20), (a.toNat, 14), (x.toNat, 0)])
  | .stx s a x => some (32, word 0x50000000 [(s.toNat, 20), (a.toNat, 14), (x.toNat, 0)])
  | .prf a i h => some (32, word 0x54000000 [(a.toNat, 14), (i.toNat, 4), (h.toNat, 0)])
  | .amoAdd d a b s o => some (32, word 0x58000000 [(d.toNat, 20), (a.toNat, 14), (b.toNat, 8), (s.toNat, 2), (o.toNat, 0)])
  | .amoAnd d a b s o => some (32, word 0x58000020 [(d.toNat, 20), (a.toNat, 14), (b.toNat, 8), (s.toNat, 2), (o.toNat, 0)])
  | .amoOr d a b s o => some (32, word 0x58000040 [(d.toNat, 20), (a.toNat, 14), (b.toNat, 8), (s.toNat, 2), (o.toNat, 0)])
  | .amoXor d a b s o => some (32, word 0x58000060 [(d.toNat, 20), (a.toNat, 14), (b.toNat, 8), (s.toNat, 2), (o.toNat, 0)])
  | .amoMin d a b s o => some (32, word 0x58000080 [(d.toNat, 20), (a.toNat, 14), (b.toNat, 8), (s.toNat, 2), (o.toNat, 0)])
  | .amoMax d a b s o => some (32, word 0x580000A0 [(d.toNat, 20), (a.toNat, 14), (b.toNat, 8), (s.toNat, 2), (o.toNat, 0)])
  | .amoSwap d a b s o => some (32, word 0x580000C0 [(d.toNat, 20), (a.toNat, 14), (b.toNat, 8), (s.toNat, 2), (o.toNat, 0)])
  | .amoCas d a b s o => some (32, word 0x580000E0 [(d.toNat, 20), (a.toNat, 14), (b.toNat, 8), (s.toNat, 2), (o.toNat, 0)])
  | .amofFaddF32 d a b s o => some (32, word 0x5C000000 [(d.toNat, 20), (a.toNat, 14), (b.toNat, 8), (s.toNat, 2), (o.toNat, 0)])
  | .amofFaddBf16x2 d a b s o => some (32, word 0x5C000020 [(d.toNat, 20), (a.toNat, 14), (b.toNat, 8), (s.toNat, 2), (o.toNat, 0)])
  | .amofFminF32 d a b s o => some (32, word 0x5C000040 [(d.toNat, 20), (a.toNat, 14), (b.toNat, 8), (s.toNat, 2), (o.toNat, 0)])
  | .amofFmaxF32 d a b s o => some (32, word 0x5C000060 [(d.toNat, 20), (a.toNat, 14), (b.toNat, 8), (s.toNat, 2), (o.toNat, 0)])
  | .cmpEq g a b w => some (32, word 0x60000000 [(g.toNat, 23), (a.toNat, 14), (b.toNat, 8), (w.toNat, 7)])
  | .cmpNe g a b w => some (32, word 0x60100000 [(g.toNat, 23), (a.toNat, 14), (b.toNat, 8), (w.toNat, 7)])
  | .cmpLt g a b w => some (32, word 0x60200000 [(g.toNat, 23), (a.toNat, 14), (b.toNat, 8), (w.toNat, 7)])
  | .cmpGe g a b w => some (32, word 0x60300000 [(g.toNat, 23), (a.toNat, 14), (b.toNat, 8), (w.toNat, 7)])
  | .cmpLtu g a b w => some (32, word 0x60400000 [(g.toNat, 23), (a.toNat, 14), (b.toNat, 8), (w.toNat, 7)])
  | .cmpGeu g a b w => some (32, word 0x60500000 [(g.toNat, 23), (a.toNat, 14), (b.toNat, 8), (w.toNat, 7)])
  | .cmpTst g a b w => some (32, word 0x60600000 [(g.toNat, 23), (a.toNat, 14), (b.toNat, 8), (w.toNat, 7)])
  | .cmpNtst g a b w => some (32, word 0x60700000 [(g.toNat, 23), (a.toNat, 14), (b.toNat, 8), (w.toNat, 7)])
  | .cmpiEq g a i => some (32, word 0x64000000 [(g.toNat, 23), (a.toNat, 14), (i.toNat, 0)])
  | .cmpiNe g a i => some (32, word 0x64100000 [(g.toNat, 23), (a.toNat, 14), (i.toNat, 0)])
  | .cmpiLt g a i => some (32, word 0x64200000 [(g.toNat, 23), (a.toNat, 14), (i.toNat, 0)])
  | .cmpiGe g a i => some (32, word 0x64300000 [(g.toNat, 23), (a.toNat, 14), (i.toNat, 0)])
  | .cmpiLtu g a i => some (32, word 0x64400000 [(g.toNat, 23), (a.toNat, 14), (i.toNat, 0)])
  | .cmpiGeu g a i => some (32, word 0x64500000 [(g.toNat, 23), (a.toNat, 14), (i.toNat, 0)])
  | .cmpiTst g a i => some (32, word 0x64600000 [(g.toNat, 23), (a.toNat, 14), (i.toNat, 0)])
  | .cmpiNtst g a i => some (32, word 0x64700000 [(g.toNat, 23), (a.toNat, 14), (i.toNat, 0)])
  | .gopAnd g x y => some (32, word 0x68000000 [(g.toNat, 23), (x.toNat, 14), (y.toNat, 8)])
  | .gopOr g x y => some (32, word 0x68100000 [(g.toNat, 23), (x.toNat, 14), (y.toNat, 8)])
  | .gopXor g x y => some (32, word 0x68200000 [(g.toNat, 23), (x.toNat, 14), (y.toNat, 8)])
  | .gopAndn g x y => some (32, word 0x68300000 [(g.toNat, 23), (x.toNat, 14), (y.toNat, 8)])
  | .fcmpFeq g a b w => some (32, word 0x6C000000 [(g.toNat, 23), (a.toNat, 14), (b.toNat, 8), (w.toNat, 7)])
  | .fcmpFlt g a b w => some (32, word 0x6C100000 [(g.toNat, 23), (a.toNat, 14), (b.toNat, 8), (w.toNat, 7)])
  | .fcmpFle g a b w => some (32, word 0x6C200000 [(g.toNat, 23), (a.toNat, 14), (b.toNat, 8), (w.toNat, 7)])
  | .fcmpFun g a b w => some (32, word 0x6C300000 [(g.toNat, 23), (a.toNat, 14), (b.toNat, 8), (w.toNat, 7)])
  | .pbr t o => some (32, word 0x80000000 [(t.toNat, 24), (o.toNat, 0)])
  | .br t g => some (32, word 0x84000000 [(t.toNat, 24), (g.toNat, 20)])
  | .brl t g => some (32, word 0x88000000 [(t.toNat, 24), (g.toNat, 20)])
  | .mtbt t a => some (32, word 0x8C000000 [(t.toNat, 24), (a.toNat, 14)])
  | .loop t c => some (32, word 0x94000000 [(t.toNat, 24), (c.toNat, 22)])
  | .lset c a => some (32, word 0x94100000 [(c.toNat, 22), (a.toNat, 14)])
  | .trap c => some (32, word 0x98000000 [(c.toNat, 0)])
  | .nop => some (32, word 0x9C000000 [])
  | .yield => some (32, word 0x9C000001 [])
  | .texit => some (32, word 0x9C000002 [])
  | .halt => some (32, word 0x9C000003 [])
  | .eret => some (32, word 0x9C000004 [])
  | .wfi => some (32, word 0x9C000005 [])
  | .bkpt => some (32, word 0x9C000006 [])
  | .fadd d a b r x => some (32, word 0xA0000000 [(d.toNat, 20), (a.toNat, 14), (b.toNat, 8), (r.toNat, 5), (x.toNat, 4)])
  | .fsub d a b r x => some (32, word 0xA0000001 [(d.toNat, 20), (a.toNat, 14), (b.toNat, 8), (r.toNat, 5), (x.toNat, 4)])
  | .fmul d a b r x => some (32, word 0xA0000002 [(d.toNat, 20), (a.toNat, 14), (b.toNat, 8), (r.toNat, 5), (x.toNat, 4)])
  | .fdiv d a b r x => some (32, word 0xA0000003 [(d.toNat, 20), (a.toNat, 14), (b.toNat, 8), (r.toNat, 5), (x.toNat, 4)])
  | .fsqrt d a r x => some (32, word 0xA0000004 [(d.toNat, 20), (a.toNat, 14), (r.toNat, 5), (x.toNat, 4)])
  | .fmin d a b x => some (32, word 0xA0000005 [(d.toNat, 20), (a.toNat, 14), (b.toNat, 8), (x.toNat, 4)])
  | .fmax d a b x => some (32, word 0xA0000006 [(d.toNat, 20), (a.toNat, 14), (b.toNat, 8), (x.toNat, 4)])
  | .fabs d a x => some (32, word 0xA0000007 [(d.toNat, 20), (a.toNat, 14), (x.toNat, 4)])
  | .fneg d a x => some (32, word 0xA0000008 [(d.toNat, 20), (a.toNat, 14), (x.toNat, 4)])
  | .fsgnj d a b x => some (32, word 0xA0000009 [(d.toNat, 20), (a.toNat, 14), (b.toNat, 8), (x.toNat, 4)])
  | .fclass d a x => some (32, word 0xA000000A [(d.toNat, 20), (a.toNat, 14), (x.toNat, 4)])
  | .fma d a b c => some (32, word 0xA4000000 [(d.toNat, 20), (a.toNat, 14), (b.toNat, 8), (c.toNat, 2)])
  | .fms d a b c => some (32, word 0xA4000001 [(d.toNat, 20), (a.toNat, 14), (b.toNat, 8), (c.toNat, 2)])
  | .fnma d a b c => some (32, word 0xA4000002 [(d.toNat, 20), (a.toNat, 14), (b.toNat, 8), (c.toNat, 2)])
  | .fnms d a b c => some (32, word 0xA4000003 [(d.toNat, 20), (a.toNat, 14), (b.toNat, 8), (c.toNat, 2)])
  | .fcvt d a s t r x => some (32, word 0xA8000000 [(d.toNat, 20), (a.toNat, 14), (s.toNat, 11), (t.toNat, 8), (r.toNat, 5), (x.toNat, 4)])
  | .mfs d i => some (32, word 0xC0000000 [(d.toNat, 20), (i.toNat, 0)])
  | .mts a i => some (32, word 0xC4000000 [(a.toNat, 14), (i.toNat, 0)])
  | .acq d a b s => some (32, word 0xC8000000 [(d.toNat, 20), (a.toNat, 14), (b.toNat, 8), (s.toNat, 2)])
  | .rel d a b s => some (32, word 0xC8000020 [(d.toNat, 20), (a.toNat, 14), (b.toNat, 8), (s.toNat, 2)])
  | .arv d a b s => some (32, word 0xC8000040 [(d.toNat, 20), (a.toNat, 14), (b.toNat, 8), (s.toNat, 2)])
  | .waitb d a b s => some (32, word 0xC8000060 [(d.toNat, 20), (a.toNat, 14), (b.toNat, 8), (s.toNat, 2)])
  | .bind d a b s => some (32, word 0xC8000080 [(d.toNat, 20), (a.toNat, 14), (b.toNat, 8), (s.toNat, 2)])
  | .unbind d a b s => some (32, word 0xC80000A0 [(d.toNat, 20), (a.toNat, 14), (b.toNat, 8), (s.toNat, 2)])
  | .fence s => some (32, word 0xCC000000 [(s.toNat, 2)])
  | .drain p => some (32, word 0xD0000000 [(p.toNat, 0)])
  | .setf a f i v => some (32, word 0xD4000000 [(a.toNat, 14), (f.toNat, 7), (i.toNat, 6), (v.toNat, 0)])
  | .addf a f i v => some (32, word 0xD4001000 [(a.toNat, 14), (f.toNat, 7), (i.toNat, 6), (v.toNat, 0)])
  | .getf d f => some (32, word 0xD4002000 [(d.toNat, 20), (f.toNat, 7)])
  | .epop d p => some (32, word 0xD8000000 [(d.toNat, 20), (p.toNat, 8)])
  | .epopt d p => some (32, word 0xD8000001 [(d.toNat, 20), (p.toNat, 8)])
  | .epush a p => some (32, word 0xDC000000 [(a.toNat, 14), (p.toNat, 8)])
  | .tdld d a t => some (32, word 0xE0000000 [(d.toNat, 20), (a.toNat, 14), (t.toNat, 8)])
  | .tdst d a t => some (32, word 0xE0000001 [(d.toNat, 20), (a.toNat, 14), (t.toNat, 8)])
  | .tdset d a t f => some (32, word 0xE0000002 [(d.toNat, 20), (a.toNat, 14), (t.toNat, 8), (f.toNat, 3)])
  | .tdget d a t f => some (32, word 0xE0000003 [(d.toNat, 20), (a.toNat, 14), (t.toNat, 8), (f.toNat, 3)])
  | .tdcpy d m t => some (32, word 0xE0000004 [(d.toNat, 20), (m.toNat, 14), (t.toNat, 8)])
  | .prio c => some (32, word 0xE4000000 [(c.toNat, 0)])
  | .mbpost d a b => some (32, word 0xE8000000 [(d.toNat, 20), (a.toNat, 14), (b.toNat, 8)])
  | .mbfin d a b => some (32, word 0xE8000001 [(d.toNat, 20), (a.toNat, 14), (b.toNat, 8)])
  | .mbver d a b => some (32, word 0xE8000002 [(d.toNat, 20), (a.toNat, 14), (b.toNat, 8)])
  | .tlbiPage a => some (32, word 0xEC000000 [(a.toNat, 14)])
  | .tlbiTenant a => some (32, word 0xEC000001 [(a.toNat, 14)])
  | .tlbiAll a => some (32, word 0xEC000002 [(a.toNat, 14)])
  | .cinv a p => some (32, word 0xF0000000 [(a.toNat, 14), (p.toNat, 2)])
  | .cfls a p => some (32, word 0xF0000001 [(a.toNat, 14), (p.toNat, 2)])
  | .icsync => some (32, word 0xF0000002 [])
  | .dstchk a b x => some (32, word 0xF0000003 [(a.toNat, 14), (b.toNat, 8), (x.toNat, 2)])
  | .vadd f => some (96, encodeV 0x01 f)
  | .vsub f => some (96, encodeV 0x02 f)
  | .vmul f => some (96, encodeV 0x03 f)
  | .vfma f => some (96, encodeV 0x04 f)
  | .vfms f => some (96, encodeV 0x05 f)
  | .vdiv f => some (96, encodeV 0x06 f)
  | .vmin f => some (96, encodeV 0x07 f)
  | .vmax f => some (96, encodeV 0x08 f)
  | .vabs f => some (96, encodeV 0x09 f)
  | .vneg f => some (96, encodeV 0x0A f)
  | .vsqrt f => some (96, encodeV 0x0B f)
  | .vrcp f => some (96, encodeV 0x0C f)
  | .vrsq f => some (96, encodeV 0x0D f)
  | .vscl f => some (96, encodeV 0x0E f)
  | .vaxpy f => some (96, encodeV 0x0F f)
  | .vclmp f => some (96, encodeV 0x10 f)
  | .vrnd f => some (96, encodeV 0x11 f)
  | .vexp f => some (96, encodeV 0x20 f)
  | .vexp2 f => some (96, encodeV 0x21 f)
  | .vlog f => some (96, encodeV 0x22 f)
  | .vlog2 f => some (96, encodeV 0x23 f)
  | .vtanh f => some (96, encodeV 0x24 f)
  | .vsigm f => some (96, encodeV 0x25 f)
  | .vgelu f => some (96, encodeV 0x26 f)
  | .vsilu f => some (96, encodeV 0x27 f)
  | .vsin f => some (96, encodeV 0x28 f)
  | .vcos f => some (96, encodeV 0x29 f)
  | .vcvt f => some (96, encodeV 0x30 f)
  | .vqnt f => some (96, encodeV 0x31 f)
  | .vdqnt f => some (96, encodeV 0x32 f)
  | .vcvti f => some (96, encodeV 0x33 f)
  | .vcvtf f => some (96, encodeV 0x34 f)
  | .vcmp f => some (96, encodeV 0x40 f)
  | .vsel f => some (96, encodeV 0x41 f)
  | .vand f => some (96, encodeV 0x42 f)
  | .vor f => some (96, encodeV 0x43 f)
  | .vxor f => some (96, encodeV 0x44 f)
  | .vnot f => some (96, encodeV 0x45 f)
  | .vshl f => some (96, encodeV 0x46 f)
  | .vshr f => some (96, encodeV 0x47 f)
  | .vrsum f => some (96, encodeV 0x50 f)
  | .vrmax f => some (96, encodeV 0x51 f)
  | .vrmin f => some (96, encodeV 0x52 f)
  | .vramx f => some (96, encodeV 0x53 f)
  | .vscan f => some (96, encodeV 0x54 f)
  | .vvote f => some (96, encodeV 0x55 f)
  | .vflgc f => some (96, encodeV 0x56 f)
  | .vrssq f => some (96, encodeV 0x57 f)
  | .vlse f => some (96, encodeV 0x58 f)
  | .vmov f => some (96, encodeV 0x60 f)
  | .vfill f => some (96, encodeV 0x61 f)
  | .vgth f => some (96, encodeV 0x62 f)
  | .vsct f => some (96, encodeV 0x63 f)
  | .vtrn f => some (96, encodeV 0x64 f)
  | .viota f => some (96, encodeV 0x65 f)
  | .vcmpr f => some (96, encodeV 0x66 f)
  | .vexpd f => some (96, encodeV 0x67 f)
  | .viadd f => some (96, encodeV 0x70 f)
  | .visub f => some (96, encodeV 0x71 f)
  | .vimul f => some (96, encodeV 0x72 f)
  | .vimin f => some (96, encodeV 0x73 f)
  | .vimax f => some (96, encodeV 0x74 f)
  | .vpopc f => some (96, encodeV 0x75 f)
  | .vbext f => some (96, encodeV 0x76 f)
  | .vhash f => some (96, encodeV 0x77 f)
  | .rgn f => some (192, encodeM 0x80 f)
  | .mstep f => some (192, encodeM 0x01 f)
  | .mnest f => some (192, encodeM 0x02 f)
  | .mnset f => some (192, encodeM 0x03 f)
  | .mwb f => some (192, encodeM 0x04 f)
  | .mzero f => some (192, encodeM 0x05 f)
  | .mlda f => some (192, encodeM 0x06 f)
  | .mspc f => some (192, encodeM 0x07 f)
  | .msig f => some (192, encodeM 0x08 f)
  | .mscat f => some (192, encodeM 0x09 f)
  | .cpy f => some (192, encodeM 0x40 f)
  | .cpyi f => some (192, encodeM 0x41 f)
  | .cpyrs f => some (192, encodeM 0x42 f)
  | .cpyk f => some (192, encodeM 0x43 f)
  | .cpymc f => some (192, encodeM 0x44 f)
  | .cwmk f => some (192, encodeM 0x45 f)
  | .ctpl f => some (192, encodeM 0x46 f)
  | .clar f => some (192, encodeM 0x48 f)
  | .clrs f => some (192, encodeM 0x49 f)
  | .clag f => some (192, encodeM 0x4A f)
  | .clbc f => some (192, encodeM 0x4B f)
  | .clxr f => some (192, encodeM 0x4C f)
  | .clgrp f => some (192, encodeM 0x4D f)
  | .mbsend f => some (192, encodeM 0x50 f)
  | .mbrls f => some (192, encodeM 0x51 f)
  | .mbpol f => some (192, encodeM 0x52 f)
  | .mbstgLoad f => some (192, encodeM 0x53 f)
  | .mbstgEnable f => some (192, encodeM 0x53 f)
  | .mbstgDestroy f => some (192, encodeM 0x53 f)
  | .mbstgCancel f => some (192, encodeM 0x53 f)
  | .stsh f => some (192, encodeM 0x58 f)
  | .stft f => some (192, encodeM 0x59 f)
  | .stpf f => some (192, encodeM 0x5A f)
  | .stdr f => some (192, encodeM 0x5B f)
  | .stqy f => some (192, encodeM 0x5C f)
  | .opj f => some (192, encodeM 0x60 f)
  | .oprt f => some (192, encodeM 0x61 f)
  | .opsk f => some (192, encodeM 0x62 f)
  | _ => none

/-- The slot word of `nbits` bits by the kind of slot it fills (R131). -/
def decodeSlot (nbits w : Nat) : Except Bad Instr :=
  if nbits = 32 then decodeScalar w else if nbits = 96 then decodeV w else if nbits = 192 then decodeM w
  else .error .illegal

/-- The bundle header (R133). -/
structure Header where
  stall : Nat
  wv : Nat
  wc : Nat
  we : Bool
  wf : Nat
  p : Nat
deriving DecidableEq, Repr

/-- The header word: its fields, or the fault of R133 and R149: none for ILLEGAL_BUNDLE, else the reserved bit. -/
def decodeHeader (w : Nat) : Except (Option Nat) Header :=
  let h : Header := { stall := w / 2 ^ 20 % 8, wv := w / 2 ^ 12 % 256, wc := w / 2 ^ 10 % 4, we := w / 2 ^ 9 % 2 == 1,
                      wf := w / 2 ^ 4 % 32, p := w % 16 }
  if w / 2 ^ 28 % 16 != 14 || 2 ≤ h.wc then .error none
  else match lowBitOf w (if h.we then [(23, 5)] else [(4, 5), (10, 2), (12, 8), (23, 5)]) with
    | some b => .error (some b)
    | none => .ok h

/-- The slots present, as slot number of R150, byte offset and bits (R131). -/
def slotsOf (p : Nat) : List (Nat × Nat × Nat) :=
  let s0 := if p % 2 = 1 then 4 else 0
  let s1 := if p / 2 % 2 = 1 then 4 else 0
  let v := if p / 4 % 2 = 1 then 12 else 0
  (if p % 2 = 1 then [(1, 4, 32)] else []) ++ (if p / 2 % 2 = 1 then [(2, 4 + s0, 32)] else []) ++
  (if p / 4 % 2 = 1 then [(3, 4 + s0 + s1, 96)] else []) ++ (if p / 8 % 2 = 1 then [(4, 4 + s0 + s1 + v, 192)] else [])

/-- The length of a bundle in bytes (R131). -/
def bundleLen (p : Nat) : Nat := 4 + 4 * (p % 2) + 4 * (p / 2 % 2) + 12 * (p / 4 % 2) + 24 * (p / 8 % 2)

/-- The instruction the decoder reads from an instruction of `nbits` bits numbered as spec/opcode_table.json numbers
them. A slot word is stored least significant byte first (R4), so the number is the word. -/
def decodeTableWord (nbits w : Nat) : Option Instr :=
  match decodeSlot nbits w with
  | .ok i => some i
  | .error _ => none

end Sys2Proof
end

