-- ==== Sys2Proof/Machine/Num.lean ====
section
/-!
DEFINITION. Number formats and exact arithmetic (spec 04): values as exact fractions, decoding of every element format,
`round_to` with every rounding mode, conversion to integers, the exact operations of IEEE 754 with their flags, and
block scales.
-/
namespace Sys2Proof.Machine

/-- An exact value: a NaN (quiet or signalling), an infinity, or the signed fraction `n / d`. -/
inductive Val where
  | nan
  | snan
  | inf (neg : Bool)
  | fin (neg : Bool) (n d : Nat)
deriving DecidableEq, Repr, Inhabited

/-- Flag bits (R122): NV 1, DZ 2, OF 4, UF 8, NX 16. A flag set is a sum of distinct ones, joined by `|||`. -/
def flNV : Nat := 1
def flDZ : Nat := 2
def flOF : Nat := 4
def flUF : Nat := 8
def flNX : Nat := 16

/-- The element formats (R34). -/
inductive Fmt where
  | fp32 | bf16 | fp16 | e4m3 | e5m2 | e2m1 | hs4 | pp8 | int8 | int32 | ui8 | ui32 | ui16 | cb16 | cf32 | mask1
deriving DecidableEq, Repr, Inhabited

/-- The format of a FMT code (R34). -/
def fmtOf (c : Nat) : Fmt :=
  match c with
  | 0 => .fp32 | 1 => .bf16 | 2 => .fp16 | 3 => .e4m3 | 4 => .e5m2 | 5 => .e2m1 | 6 => .hs4 | 7 => .pp8
  | 8 => .int8 | 9 => .int32 | 10 => .ui8 | 11 => .ui32 | 12 => .ui16 | 13 => .cb16 | 14 => .cf32 | _ => .mask1

/-- Bits per element (R34). -/
def fmtBits : Fmt → Nat
  | .fp32 => 32 | .bf16 => 16 | .fp16 => 16 | .e4m3 => 8 | .e5m2 => 8 | .e2m1 => 4 | .hs4 => 4 | .pp8 => 8
  | .int8 => 8 | .int32 => 32 | .ui8 => 8 | .ui32 => 32 | .ui16 => 16 | .cb16 => 32 | .cf32 => 64 | .mask1 => 1

/-- Block scales allowed (R34). -/
def fmtBlockable : Fmt → Bool
  | .e4m3 | .e5m2 | .e2m1 | .hs4 | .pp8 | .int8 => true
  | _ => false

/-- How the top exponent of a binary format is used (R105). -/
inductive FloatKind where
  | ieee | e5m2 | e4m3 | e2m1
deriving DecidableEq, Repr

/-- A binary format: total bits, mantissa bits, bias, use of the top exponent (R105, R178). -/
structure FloatFmt where
  bits : Nat
  m : Nat
  bias : Nat
  kind : FloatKind
deriving DecidableEq, Repr

def ffF64 : FloatFmt := ⟨64, 52, 1023, .ieee⟩
def ffF32 : FloatFmt := ⟨32, 23, 127, .ieee⟩
def ffBF16 : FloatFmt := ⟨16, 7, 127, .ieee⟩
def ffFP16 : FloatFmt := ⟨16, 10, 15, .ieee⟩
def ffE5M2 : FloatFmt := ⟨8, 2, 15, .e5m2⟩
def ffE4M3 : FloatFmt := ⟨8, 3, 7, .e4m3⟩
def ffE2M1 : FloatFmt := ⟨4, 1, 1, .e2m1⟩

/-- `n / d` times a power of two. -/
def fracScale (n d : Nat) (e : Int) : Nat × Nat :=
  if 0 ≤ e then (n * 2 ^ e.toNat, d) else (n, d * 2 ^ (-e).toNat)

/-- floor (log2 (n / d)) for n and d above 0. -/
def floorLog2 (n d : Nat) : Int :=
  let e : Int := (Nat.log2 n : Int) - (Nat.log2 d : Int)
  let (a, b) := fracScale n d (-e)
  if b ≤ a then e else e - 1

/-- The exponent field's top value. -/
def ffTop (f : FloatFmt) : Nat := 2 ^ (f.bits - 1 - f.m) - 1

/-- The code of the largest finite magnitude (R105). -/
def ffMaxCode (f : FloatFmt) : Nat :=
  match f.kind with
  | .ieee | .e5m2 => ffTop f * 2 ^ f.m - 1
  | .e4m3 => 0x7E
  | .e2m1 => 7

/-- The canonical NaN (R109, R178); 0 for the format without one (R118). -/
def ffNan (f : FloatFmt) : Nat :=
  match f.kind with
  | .ieee | .e5m2 => ffTop f * 2 ^ f.m + 2 ^ (f.m - 1)
  | .e4m3 => 0x7F
  | .e2m1 => 0

/-- The magnitude of a finite code without its sign (R105). -/
def ffMag (f : FloatFmt) (c : Nat) : Nat × Nat :=
  let e := c / 2 ^ f.m
  let m := c % 2 ^ f.m
  if e = 0 then fracScale m 1 (1 - (f.bias : Int) - f.m)
  else fracScale (2 ^ f.m + m) 1 ((e : Int) - f.bias - f.m)

/-- The value of a code of a binary format (R105, R109). -/
def ffDec (f : FloatFmt) (code : Nat) : Val :=
  let s := code / 2 ^ (f.bits - 1) % 2 = 1
  let c := code % 2 ^ (f.bits - 1)
  let e := c / 2 ^ f.m
  let m := c % 2 ^ f.m
  let special : Option Val :=
    match f.kind with
    | .ieee => if e = ffTop f then some (if m = 0 then .inf s else if m < 2 ^ (f.m - 1) then .snan else .nan) else none
    | .e5m2 => if e = ffTop f then some (if m = 0 then .inf s else .nan) else none
    | .e4m3 => if c = 0x7F then some .nan else none
    | .e2m1 => none
  match special with
  | some v => v
  | none => let (n, d) := ffMag f c; .fin s n d

/-- Rounding between the magnitudes next below and next above (R116, R119): true picks the larger magnitude. `r / den`
is the fraction of the step, `odd` bit 0 of the lower magnitude's code, `q` the hash of R119. -/
def pickHi (mode q : Nat) (neg odd : Bool) (r den : Nat) : Bool :=
  match mode with
  | 1 => false
  | 2 => neg
  | 3 => !neg
  | 4 => decide (den ≤ 2 * r)
  | 5 => if neg then !decide (q < (den - r) * 2 ^ 32 / den) else decide (q < r * 2 ^ 32 / den)
  | 6 => !odd
  | _ => decide (den < 2 * r) || (decide (2 * r = den) && odd)

/-- The rounding mode of a field, given RMODE (R116). -/
def rmOf (code rmode : Nat) : Nat :=
  if code = 7 then (if rmode = 7 then 0 else rmode) else code

/-- The hash of R119. -/
def srHash (seed index : Nat) : Nat :=
  let x0 : BitVec 32 := BitVec.ofNat 32 seed ^^^ BitVec.ofNat 32 index
  let x1 := x0 ^^^ (x0 >>> 16)
  let x2 := x1 * 0x7FEB352D#32
  let x3 := x2 ^^^ (x2 >>> 15)
  let x4 := x3 * 0x846CA68B#32
  (x4 ^^^ (x4 >>> 16)).toNat

/-- `n / d > n' / d'`. -/
def fracGt (n d n' d' : Nat) : Bool := decide (n' * d < n * d')

/-- `round_to` for a binary format (R116 to R119): the code and the flags. DESIGN CHOICE (log 51): of a value above the largest finite
one that rounds back to it without saturation below the next binade, the table of R118 says OF and NX, and the IEEE 754 overflow that it
names NX alone; the model raises NX alone. Unsafe. -/
def ffRound (f : FloatFmt) (mode q : Nat) (sat : Bool) (v : Val) : Nat × Nat :=
  let sgn (neg : Bool) (c : Nat) : Nat := if neg then c + 2 ^ (f.bits - 1) else c
  let clips : Bool := sat || f.kind != .ieee
  match v with
  | .nan => (ffNan f, if f.kind = .e2m1 then flNV else 0)
  | .snan => (ffNan f, flNV)
  | .inf neg =>
    match f.kind with
    | .ieee | .e5m2 => (sgn neg (if sat then ffMaxCode f else ffTop f * 2 ^ f.m), 0)
    | .e4m3 => (if sat then sgn neg (ffMaxCode f) else 0x7F, 0)
    | .e2m1 => (sgn neg (ffMaxCode f), flOF)
  | .fin neg n d =>
    if n = 0 then (sgn neg 0, 0) else
    let (mn, md) := ffMag f (ffMaxCode f)
    if clips && fracGt n d mn md then (sgn neg (ffMaxCode f), flOF ||| flNX) else
    let emin : Int := 1 - (f.bias : Int)
    let e := max (floorLog2 n d) emin
    let (a, b) := fracScale n d ((f.m : Int) - e)
    let lo := (e - emin).toNat * 2 ^ f.m + a / b
    let r := a % b
    let beyond := decide (ffMaxCode f ≤ lo)
    if decide (ffMaxCode f < lo) then
      -- beyond the next binade: overflow under every mode (R118)
      let toInf := match mode with
        | 1 | 6 => false
        | 2 => neg
        | 3 => !neg
        | _ => true
      (sgn neg (if toInf then ffMaxCode f + 1 else ffMaxCode f), flOF ||| flNX)
    else if r = 0 then (sgn neg lo, 0)
    else
      let hi := pickHi mode q (neg && !(beyond && mode == 5)) (lo % 2 = 1) r b
      let c := if hi then lo + 1 else lo
      let fl := flNX ||| (if c < 2 ^ f.m then flUF else 0) ||| (if ffMaxCode f < c then flOF else 0)
      (sgn neg c, fl)

/-- The signed numerator of a finite value. -/
def sgnNum (neg : Bool) (n : Nat) : Int := if neg then -(n : Int) else n

/-- Rounding of a finite value to the integers (R121): the integer, and whether it differs from the value. -/
def roundInt (mode q : Nat) (neg : Bool) (n d : Nat) : Int × Bool :=
  let k := n / d
  let r := n % d
  if r = 0 then (sgnNum neg k, false)
  else (sgnNum neg (if pickHi mode q neg (k % 2 = 1) r d then k + 1 else k), true)

/-- Conversion to an integer format of the given range (R121). -/
def intRound (lo hi : Int) (mode q : Nat) (v : Val) : Int × Nat :=
  match v with
  | .nan | .snan => (0, flNV)
  | .inf neg => (if neg then lo else hi, flNV)
  | .fin neg n d =>
    let (k, inexact) := roundInt mode q neg n d
    let nx := if inexact then flNX else 0
    if neg && n != 0 && lo == 0 then (0, flNV ||| nx)
    else if k < lo then (lo, flNV ||| nx)
    else if hi < k then (hi, flNV ||| nx)
    else (k, nx)

/-- A code of `w` bits for an integer. -/
def intCode (w : Nat) (k : Int) : Nat := (k % (2 ^ w : Nat)).toNat

/-- The integer of a two's-complement code. -/
def intOfCode (w c : Nat) : Int := if c < 2 ^ (w - 1) then (c : Int) else (c : Int) - (2 ^ w : Nat)

/-- `round_to` for HS4 (R106, R117): levels n + 1/2. -/
def hs4Round (mode q : Nat) (v : Val) : Nat × Nat :=
  match v with
  | .nan | .snan => (0, flNV)
  | .inf neg => (if neg then 8 else 7, flOF)
  | .fin neg n d =>
    if fracGt n d 15 2 then (if neg then 8 else 7, flOF ||| flNX) else
    let num : Int := 2 * sgnNum neg n - d
    let den : Int := 2 * d
    let lo := Int.fdiv num den
    let r := num - lo * den
    if r = 0 then (intCode 4 lo, 0) else
    let odd := lo % 2 = 1
    let mid := lo = -1
    let hi : Bool := match mode with
      | 1 => mid || decide (lo < 0)
      | 2 => false
      | 3 => true
      | 4 => decide (den < 2 * r) || (decide (2 * r = den) && (mid || decide (0 ≤ lo)))
      | 5 => decide ((q : Int) < r * 2 ^ 32 / den)
      | 6 => !odd
      | _ => decide (den < 2 * r) || (decide (2 * r = den) && odd)
    (intCode 4 (if hi then lo + 1 else lo), flNX)

/-- 128 times the value of a PP8 code (R107). -/
def pp8Num (c : Nat) : Int :=
  let t (s a : Nat) : Int := if s = 1 then -((2 ^ (7 - a) : Nat) : Int) else ((2 ^ (7 - a) : Nat) : Int)
  t (c / 128 % 2) (c / 16 % 8) + t (c / 8 % 2) (c % 8)

/-- The lowest PP8 code nearest to `num / den` among the codes from `c` on, `best` so far. -/
def pp8Near (num den : Int) : Nat → Nat → Nat → Nat
  | 0, _, best => best
  | k + 1, c, best =>
    let dist (x : Nat) : Nat := (num * 128 - pp8Num x * den).natAbs
    pp8Near num den k (c + 1) (if dist c < dist best then c else best)

/-- Conversion to PP8 (R120): the rounding field is ignored. -/
def pp8Round (v : Val) : Nat × Nat :=
  match v with
  | .nan | .snan => (8, flNV)
  | .inf neg => (if neg then 0x88 else 0, flOF)
  | .fin neg n d =>
    if fracGt n d 2 1 then (if neg then 0x88 else 0, flOF ||| flNX) else
    let c := pp8Near (sgnNum neg n) d 256 0 0
    (c, if sgnNum neg n * 128 = pp8Num c * d then 0 else flNX)

/-- An integer as a value. -/
def valOfInt (k : Int) : Val := .fin (decide (k < 0)) k.natAbs 1

/-- The value of an element code, before scales (R105 to R110). A complex element is decoded by its components. DESIGN CHOICE (log 51): a
signalling NaN of BF16 and FP16 stays one through the decoding, of which R110 says no flag, so that the operation that uses it raises NV
(R109). Unsafe. -/
def fmtDec (f : Fmt) (c : Nat) : Val :=
  match f with
  | .fp32 => ffDec ffF32 c | .bf16 => ffDec ffBF16 c | .fp16 => ffDec ffFP16 c
  | .e4m3 => ffDec ffE4M3 c | .e5m2 => ffDec ffE5M2 c | .e2m1 => ffDec ffE2M1 c
  | .hs4 => let k := 2 * intOfCode 4 c + 1; .fin (decide (k < 0)) k.natAbs 2
  | .pp8 => let k := pp8Num c; .fin (decide (k < 0)) k.natAbs 128
  | .int8 => valOfInt (intOfCode 8 c) | .int32 => valOfInt (intOfCode 32 c)
  | .ui8 | .ui16 | .ui32 | .mask1 => .fin false c 1
  | .cb16 => ffDec ffBF16 (c % 2 ^ 16) | .cf32 => ffDec ffF32 (c % 2 ^ 32)

/-- `round_to` for every element format (R116 to R121): the code and the flags. -/
def fmtRound (f : Fmt) (mode q : Nat) (sat : Bool) (v : Val) : Nat × Nat :=
  let int (w : Nat) (lo hi : Int) : Nat × Nat := let (k, fl) := intRound lo hi mode q v; (intCode w k, fl)
  match f with
  | .fp32 => ffRound ffF32 mode q sat v | .bf16 => ffRound ffBF16 mode q sat v | .fp16 => ffRound ffFP16 mode q sat v
  | .e4m3 => ffRound ffE4M3 mode q sat v | .e5m2 => ffRound ffE5M2 mode q sat v | .e2m1 => ffRound ffE2M1 mode q sat v
  | .hs4 => hs4Round mode q v | .pp8 => pp8Round v
  | .int8 => int 8 (-128) 127 | .int32 => int 32 (-2147483648) 2147483647
  | .ui8 => int 8 0 255 | .ui16 => int 16 0 65535 | .ui32 => int 32 0 4294967295 | .mask1 => int 1 0 1
  | .cb16 => ffRound ffBF16 mode q sat v | .cf32 => ffRound ffF32 mode q sat v

def valIsNan : Val → Bool
  | .nan | .snan => true
  | _ => false

def valIsZero : Val → Bool
  | .fin _ n _ => n == 0
  | _ => false

def valNeg : Val → Val
  | .inf s => .inf (!s)
  | .fin s n d => .fin (!s) n d
  | v => v

def valAbs : Val → Val
  | .inf _ => .inf false
  | .fin _ n d => .fin false n d
  | v => v

def valSign : Val → Bool
  | .inf s => s
  | .fin s _ _ => s
  | _ => false

/-- NV for the use of a signalling NaN (R109). -/
def snanFl (vs : List Val) : Nat := if vs.any (· == .snan) then flNV else 0

/-- The exact product, with NV for zero times infinity and for a signalling NaN (R111, R200). -/
def valMul (a b : Val) : Val × Nat :=
  if valIsNan a || valIsNan b then (.nan, snanFl [a, b]) else
  match a, b with
  | .fin s n d, .fin t m e => (.fin (s != t) (n * m) (d * e), 0)
  | a, b => if valIsZero a || valIsZero b then (.nan, flNV) else (.inf (valSign a != valSign b), 0)

/-- The exact sum; `rdn` gives the sign of an exact zero (R117). -/
def valAdd (rdn : Bool) (a b : Val) : Val × Nat :=
  if valIsNan a || valIsNan b then (.nan, snanFl [a, b]) else
  match a, b with
  | .inf s, .inf t => if s = t then (.inf s, 0) else (.nan, flNV)
  | .inf s, _ => (.inf s, 0)
  | _, .inf t => (.inf t, 0)
  | .fin s n d, .fin t m e =>
    let x := sgnNum s n * e + sgnNum t m * d
    if x = 0 then (.fin (if s = t then s else rdn) 0 1, 0)
    else (.fin (decide (x < 0)) x.natAbs (d * e), 0)
  | _, _ => (.nan, 0)

/-- The exact quotient (R200). -/
def valDiv (a b : Val) : Val × Nat :=
  if valIsNan a || valIsNan b then (.nan, snanFl [a, b]) else
  let s := valSign a != valSign b
  match a, b with
  | .inf _, .inf _ => (.nan, flNV)
  | .inf _, _ => (.inf s, 0)
  | _, .inf _ => (.fin s 0 1, 0)
  | .fin _ n d, .fin _ m e =>
    if m = 0 then (if n = 0 then (.nan, flNV) else (.inf s, flDZ)) else (.fin s (n * e) (d * m), 0)
  | _, _ => (.nan, 0)

/-- Integer square root by bits: the largest `r` below `2 ^ k` above `acc` with `r * r ≤ n`. -/
def isqrtAux (n : Nat) : Nat → Nat → Nat
  | 0, acc => acc
  | k + 1, acc => let t := acc + 2 ^ k; isqrtAux n k (if t * t ≤ n then t else acc)

def isqrt (n : Nat) : Nat := isqrtAux n (Nat.log2 n / 2 + 1) 0

/-- The square root of `n / d`, exact where it is a dyadic fraction of 200 bits, else the middle of an interval of that
width around it, which every format rounds as the root itself. -/
def fracSqrt (n d : Nat) : Nat × Nat :=
  if n = 0 then (0, 1) else
  let sh : Nat := 2 * (200 + Nat.log2 d)
  let q := n * 2 ^ sh / d
  let r := isqrt q
  if r * r = q && n * 2 ^ sh % d = 0 then (r, 2 ^ (sh / 2)) else (2 * r + 1, 2 ^ (sh / 2 + 1))

/-- The square root (R200). -/
def valSqrt (a : Val) : Val × Nat :=
  match a with
  | .nan => (.nan, 0)
  | .snan => (.nan, flNV)
  | .inf s => if s then (.nan, flNV) else (.inf false, 0)
  | .fin s n d => if n = 0 then (.fin s 0 1, 0) else if s then (.nan, flNV) else
    let (r, e) := fracSqrt n d; (.fin false r e, 0)

/-- `a < b`, neither being a NaN; zeros compare equal. -/
def valLt (a b : Val) : Bool :=
  match a, b with
  | .fin s n d, .fin t m e => decide (sgnNum s n * e < sgnNum t m * d)
  | .inf s, .inf t => s && !t
  | .inf s, _ => s
  | _, .inf t => !t
  | _, _ => false

/-- `a = b`, neither being a NaN; zeros compare equal. -/
def valEq (a b : Val) : Bool :=
  match a, b with
  | .fin s n d, .fin t m e => decide (sgnNum s n * e = sgnNum t m * d)
  | .inf s, .inf t => s == t
  | _, _ => false

/-- minimumNumber and maximumNumber (R200): a number beats a NaN, and -0 lies below +0. -/
def valMinMax (max : Bool) (a b : Val) : Val × Nat :=
  let fl := snanFl [a, b]
  if valIsNan a then (if valIsNan b then (.nan, fl) else (b, fl))
  else if valIsNan b then (a, fl)
  else
    let less := valLt a b || (valEq a b && valSign a && !valSign b)
    (if less != max then a else b, fl)

/-- `a * b + c` exactly (R202): NV for zero times infinity whatever `c` is. -/
def valFma (rdn : Bool) (a b c : Val) : Val × Nat :=
  let (p, f1) := valMul a b
  if valIsNan p then (.nan, f1 ||| snanFl [c]) else
  let (r, f2) := valAdd rdn p c
  (r, f1 ||| f2)

/-- A value times a power of two. -/
def valScale (v : Val) (e : Int) : Val :=
  match v with
  | .fin s n d => let (a, b) := fracScale n d e; .fin s a b
  | v => v

/-- The value of an E8M0 block scale (R111). -/
def e8m0 (e : Nat) : Val :=
  if e = 255 then .nan else let (n, d) := fracScale 1 1 ((e : Int) - 127); .fin false n d

/-- TSCALE as R111 reads it. -/
def tscaleVal (code : Nat) : Val := if code = 0 then .fin false 1 1 else ffDec ffF32 code

/-- Code value, block scale and TSCALE multiplied without rounding (R111). -/
def scaled (v : Val) (block : Option Nat) (tscale : Nat) : Val × Nat :=
  let (x, f1) := match block with
    | none => (v, 0)
    | some e => valMul v (e8m0 e)
  let (y, f2) := if tscale = 0 then (x, 0) else valMul x (tscaleVal tscale)
  (y, f1 ||| f2)

/-- EMAX and the clip bound C of a block-scaled format (R112). -/
def quantEmax : Fmt → Int
  | .e4m3 => 8 | .e5m2 => 15 | .e2m1 => 2 | .int8 => 6 | .pp8 => 0 | .hs4 => 2 | _ => 0

def quantClip : Fmt → Nat × Nat
  | .e4m3 => (448, 1) | .e5m2 => (57344, 1) | .e2m1 => (6, 1) | .int8 => (127, 1) | .pp8 => (3, 2) | .hs4 => (15, 2)
  | _ => (1, 1)

/-- The zero code that R113 writes. -/
def quantZero : Fmt → Nat
  | .pp8 => 8
  | _ => 0

/-- `|a| > |b|` for finite values; false otherwise. -/
def magGt : Val → Val → Bool
  | .fin _ n d, .fin _ m e => fracGt n d m e
  | _, _ => false

def magMax (vs : List Val) : Val := vs.foldl (fun m v => if magGt v m then valAbs v else m) (.fin false 0 1)

def valIsFinite : Val → Bool
  | .fin _ _ _ => true
  | _ => false

/-- `clip(v, -C, C)`, with OF and NX where it changes the value (R112, R118, R260). -/
def valClip (c : Nat × Nat) : Val → Val × Nat
  | .fin s n d => if fracGt n d c.1 c.2 then (.fin s c.1 c.2, flOF ||| flNX) else (.fin s n d, 0)
  | .inf s => (.fin s c.1 c.2, flOF ||| flNX)
  | v => (v, 0)

/-- The quantising write of one block (R112, R113): the scale byte, and the code and flags of each element. `xs` holds
each element's value with the hash of its index for SR. -/
def quantBlock (f : Fmt) (mode : Nat) (tscale : Nat) (xs : List (Val × Nat)) : Nat × List (Nat × Nat) :=
  let ys := xs.map fun (x, q) => (valDiv x (tscaleVal tscale), q)
  if ys.any fun y => !valIsFinite y.1.1 then (255, ys.map fun y => (quantZero f, flNV ||| y.1.2))
  else
    let e : Int := match magMax (ys.map (·.1.1)) with
      | .fin _ n d => if n = 0 then 127 else min 254 (max 0 (floorLog2 n d - quantEmax f + 127))
      | _ => 127
    (e.toNat, ys.map fun ((y, _), q) =>
      let (c, f1) := valClip (quantClip f) (valScale y (127 - e))
      let (code, f2) := fmtRound f mode q false c
      (code, f1 ||| f2))

/-- Bits `hi` to `lo` of a number. -/
def bitsOf (x hi lo : Nat) : Nat := x / 2 ^ lo % 2 ^ (hi + 1 - lo)

/-- The reflected CRC-32C of bytes, from the register value given (R167). -/
def crc32cByte (crc : BitVec 32) (b : Byte) : BitVec 32 :=
  (List.range 8).foldl (fun (c : BitVec 32) _ => if c.getLsbD 0 then (c >>> 1) ^^^ 0x82F63B78#32 else c >>> 1)
    (crc ^^^ b.zeroExtend 32)

def crc32c (init : BitVec 32) (bs : List Byte) : BitVec 32 := bs.foldl crc32cByte init

/-- The final CRC-32C of bytes (R167). -/
def crcOf (bs : List Byte) : Nat := (~~~(crc32c (BitVec.allOnes 32) bs)).toNat

/-- The low `n` bytes of a number, least significant first (R4). -/
def leBytes : Nat → Nat → List Byte
  | 0, _ => []
  | n + 1, x => BitVec.ofNat 8 x :: leBytes n (x / 256)

/-- The number of a list of bytes, least significant first. -/
def leNat : List Byte → Nat
  | [] => 0
  | b :: r => b.toNat + 256 * leNat r

end Sys2Proof.Machine
end

