-- ==== Sys2Proof/Config.lean ====
section
/-!
DEFINITION. What the spec fixes for the package and what it leaves open. A free value is an opaque constant: nothing can
evaluate it, and a statement about it holds for every value (log 3).
-/
namespace Sys2Proof.Config

/-- Dies, clusters per die, cores per cluster, strand slots per core (R17). -/
def dies : Nat := 8
def clusters : Nat := 6
def coresPerCluster : Nat := 8
def coresPerDie : Nat := 48
def cores : Nat := 384
def slots : Nat := 4

/-- Engine queue entries per strand and engine (R18), incomplete regions per strand (R62). -/
def queueDepth : Nat := 16
def maxRegions : Nat := 3

/-- A value the spec leaves undefined, as a fresh number of 256 bits for each draw; the argument counts the draws (log 3). -/
opaque freeBits : Nat → BitVec 256

/-- A choice the spec leaves open between `n` outcomes, taken modulo `n`; the argument counts the draws (log 4). -/
opaque freeChoice : Nat → Nat

end Sys2Proof.Config
end

