-- ==== Sys2Proof/Machine/State.lean ====
section
/-!
DEFINITION. The state of one TGM9-12H576 package: everything the spec gives the machine, as plain data. Each field's
docstring names the rule that gives it; INVENTORY.md, heading State, lists them with their reset values.
-/
namespace Sys2Proof.Machine

/-- Why the machine stops on a step with a fault. -/
inductive Fault where
  /-- raised by no instruction: the spec gives every fault a trap, a status or a counter; safe -/
  | none
deriving DecidableEq, Repr

/-- Why a step has no meaning. -/
inductive Refusal where
  /-- raised by an arm of exec whose instruction has no meaning yet; safe -/
  | notModelled (mnemonic : String)
deriving DecidableEq, Repr

/-- The registers of a strand that a bundle's slots read as they stood at issue (R18, R136, R232, R239). -/
structure Regs where
  /-- s1 to s63 (R18); s0 reads zero -/
  s : SMap Word := []
  /-- g1 to g7 in bits 1 to 7 (R18); g0 reads true -/
  g : BitVec 8 := 0
  /-- bt0 to bt3 (R18) -/
  bt : SMap Word := []
  /-- lc0 to lc3 (R18) -/
  lc : SMap (BitVec 32) := []
  /-- f0 to f31 (R18) -/
  f : SMap Byte := []
  /-- t0 to t63 (R18, R33) -/
  t : SMap Desc := []
  /-- the sticky flags of lanes 0 to 255 (R18) -/
  lanes : SMap (BitVec 5) := []
  /-- VFLAGS.SCALAR (R235) -/
  vflags : BitVec 5 := 0
  /-- MFLAGS (R232) -/
  mflags : BitVec 5 := 0
  /-- own class (R56, R226) -/
  cls : BitVec 2 := 0
  /-- RMODE (R232) -/
  rmode : BitVec 3 := 0
  /-- SR_SEED (R232) -/
  srSeed : BitVec 32 := 0
  /-- STATUS.SUP (R239) -/
  sup : Bool := false
  /-- STATUS.PSUP (R239) -/
  psup : Bool := false
  /-- STATUS.TRAPPED (R239) -/
  trapped : Bool := false
  /-- TRAP_CAUSE (R236) -/
  trapCause : Word := 0
  /-- TRAP_PC (R232) -/
  trapPc : Word := 0
  /-- TRAP_INFO (R232) -/
  trapInfo : Word := 0
  /-- TRAP_AUX (R232) -/
  trapAux : Word := 0
  /-- SSCRATCH (R238) -/
  sscratch : Word := 0
deriving DecidableEq, Repr, Inhabited

/-- The scratchpad copy attached to a sync slot (R23, R205, R211). -/
structure Attachment where
  /-- first scratchpad byte -/
  base : Nat
  /-- length in 4 KiB pages -/
  pages : Nat
  /-- virtual address of the bound range's first byte -/
  va : Nat
  /-- scratchpad addresses of the 128-byte lines filled so far -/
  filled : List Nat := []
  /-- scratchpad addresses of the dirty bytes -/
  dirty : List Nat := []
  /-- lines that another package or the host was asked for: scratchpad address and request number -/
  asked : List (Nat × Nat) := []
  /-- lines whose fill failed there: cause and TRAP_AUX for the access that comes next -/
  failed : List (Nat × Nat × Nat) := []
  /-- lines that an acquire in progress has still to fetch again (R80) -/
  refetch : List Nat := []
deriving DecidableEq, Repr, Inhabited

/-- A sync slot in use (R205). -/
structure SyncSlot where
  /-- virtual address of the sync object -/
  obj : Word
  /-- its physical address -/
  pa : Nat
  /-- the scratchpad attachment -/
  att : Option Attachment := none
  /-- registered as a barrier participant -/
  reg : Bool := false
  /-- PHASE of the last arrival -/
  phase : BitVec 32 := 0
deriving DecidableEq, Repr, Inhabited

/-- The inputs recorded at a region's opening (R63). -/
structure Inputs where
  s : SMap Word := []
  g : BitVec 8 := 0
  lc : SMap (BitVec 32) := []
  f : SMap Byte := []
  t : SMap Desc := []
  lanes : SMap (BitVec 5) := []
  vflags : BitVec 5 := 0
  mflags : BitVec 5 := 0
  cls : BitVec 2 := 0
  rmode : BitVec 3 := 0
  srSeed : BitVec 32 := 0
  sync : SMap SyncSlot := []
deriving DecidableEq, Repr, Inhabited

/-- An incomplete region of a strand (R59 to R63, R243, R464). -/
structure Region where
  /-- number of the region within the strand, rising with each opening -/
  rid : Nat := 0
  /-- N of the RGN word; 0xFFFF for an implicit region (R236) -/
  id : Nat := 0xFFFF
  /-- address of the opening bundle -/
  entry : Word := 0
  /-- work issued before the opening has a lower number than this -/
  openSeq : Nat := 0
  /-- bit k: s(k) is a live input (R147); every register of an implicit region (R59) -/
  mask : BitVec 64 := BitVec.allOnes 64
  inputs : Inputs := {}
  /-- expected engine cycles; 0 for an unchecked region (R243) -/
  expCycles : Nat := 0
  /-- expected control-word signature (R147) -/
  expSig : BitVec 32 := 0
  /-- CRC-32C register over the V and M words issued so far (R167, R243) -/
  sig : BitVec 32 := 0xFFFFFFFF
  /-- engine cycles reported so far (R468) -/
  cycles : Nat := 0
  /-- replays made (R464) -/
  replays : Nat := 0
  /-- a later region has opened, so no more work is issued in this one -/
  closed : Bool := false
  /-- the comparison of R468 has passed -/
  checked : Bool := false
  /-- accumulator cells that its work has written: first cell and count (R289) -/
  wrote : List (Nat × Nat) := []
  /-- a replay of this kind was made by the comparison (R468) -/
  sdcReplay : Bool := false
  /-- being entered again by a replay: the RGN bundle opens this same region (R464) -/
  reopen : Bool := false
  /-- virtual ranges that it has read before writing them, and ranges that it has written; tile k is 2^64 + k (R61) -/
  reads : List (Nat × Nat) := []
  writes : List (Nat × Nat) := []
  /-- branch targets that it has set (R61) -/
  bts : List Nat := []
  /-- it has changed what it had read, or depended on an older branch target, and it executes again after that: what it produces is undefined (R61) -/
  broken : Bool := false
  again : Bool := false
  /-- its first slot has been compared with the task's discarded regions (R61) -/
  seen : Bool := false
deriving DecidableEq, Repr, Inhabited

/-- A reported but not yet taken fault of a strand (R246). -/
structure Pending where
  cause : Nat
  info : Word
  aux : Word
  /-- issue number of the faulting work -/
  seq : Nat
  /-- its region -/
  rid : Nat
  /-- the region is to be replayed (R464), with a record of this kind: 3 REPLAY, 5 SDC_REPLAY; 0 for a trap -/
  replay : Nat := 0
deriving DecidableEq, Repr, Inhabited

/-- A fixed-latency result that has not landed (R151 to R153). -/
structure Late where
  /-- destination scalar register -/
  dst : Nat
  val : Word
  /-- bundle distance still to go -/
  left : Nat
  seq : Nat
  /-- another write to the register was issued meanwhile (R153) -/
  clash : Bool := false
deriving DecidableEq, Repr, Inhabited

/-- Where a scoreboarded value goes (R154). -/
inductive Dest where
  | s (n : Nat)
  | t (n : Nat)
deriving DecidableEq, Repr, Inhabited

/-- A scoreboarded operation that has not returned (R154). -/
structure Board where
  dst : Dest
  /-- the value, once it is on its way -/
  val : Option (BitVec 256)
  seq : Nat
  rid : Nat
  /-- number of the remote or host request it waits for -/
  req : Nat := 0
  /-- bytes of the value and sign extension, for a reply -/
  size : Nat := 8
  sext : Bool := false
  /-- virtual address, for a fault of the reply (R187) -/
  addr : Word := 0
  /-- the value is undefined (R61) -/
  undef : Bool := false
deriving DecidableEq, Repr, Inhabited

/-- An entry of an engine queue: the instruction and what R143 and R533 copy at issue. -/
structure Entry where
  instr : Instr
  /-- issuing strand's flat number; none for the aperture queue (R31) -/
  strand : Option Nat := none
  /-- the core whose engine or queue holds it -/
  core : Nat := 0
  seq : Nat := 0
  rid : Nat := 0
  /-- address of the issuing bundle -/
  addr : Word := 0
  /-- supervisor context (R533) -/
  sup : Bool := false
  /-- the guards hold (R157) -/
  runs : Bool := true
  /-- copies of the descriptors TD, TS1, TS2, TS3 or T1, T2, T3 -/
  d : SMap Desc := []
  /-- copies of the offset registers OD, OS or O1, O2, O3 -/
  o : SMap Word := []
  /-- count (R143) -/
  cnt : Nat := 0
  rmode : Nat := 0
  srSeed : Nat := 0
  /-- scheduled engine cycles (R157) -/
  cycles : Nat := 0
  /-- the region was already closed by the commit that issued it (R246) -/
  committed : Bool := false
  /-- bytes that remote and host reads have brought, by flit address (R252) -/
  got : SMap Byte := []
  /-- bytes whose read failed: cause and TRAP_AUX (R440, R489, R499), by flit address -/
  fails : SMap (Nat × Nat) := []
  /-- requests not yet answered -/
  waits : List Nat := []
  /-- the virtual ranges it writes, for the scalar loads that do not wait for it (R87) -/
  covers : List (Nat × Nat) := []
  /-- how far the command has come -/
  phase : Nat := 0
  /-- values the command keeps between its steps -/
  keep : List Nat := []
  /-- writes that are still to be made: virtual address of the first byte, bytes and their bit masks -/
  plan : List (Nat × List (Byte × Byte)) := []
  /-- group members it has heard from, or other part results -/
  parts : SMap (List Nat) := []
  /-- what it writes is undefined (R61) -/
  undef : Bool := false
  /-- a write of it has failed after its command had executed: cause and TRAP_AUX (R246, R363) -/
  failed : Option (Nat × Nat) := none
  /-- stores, posted writes and requests of its strand that come before it (R86): their numbers -/
  after : List Nat := []
deriving DecidableEq, Repr, Inhabited

/-- The bytes of a completed entry whose completion the strand has not observed (R87). -/
structure Unseen where
  /-- the engine that executed it -/
  engine : Nat := 0
  /-- its flag, and the flag's value after the increment -/
  flag : Option (Nat × Byte) := none
  /-- virtual ranges: first byte and length -/
  covers : List (Nat × Nat) := []
deriving DecidableEq, Repr, Inhabited

/-- A bundle whose slots are still executing. -/
structure Flight where
  /-- slots left, with their slot numbers of R150 -/
  left : List (Nat × Instr)
  /-- the registers as they stood at issue (R136) -/
  latch : Regs
  stall : Nat
  /-- bundle distances until the branch targets are ready, as they stood at issue (R136, R155) -/
  btWait : SMap Nat := []
  /-- work of earlier bundles has a lower issue number than this -/
  base : Nat := 0
deriving DecidableEq, Repr, Inhabited

/-- An element of a result FIFO (R220) with the bytes it covers (R88). -/
structure Elem where
  v : Word
  /-- virtual ranges: first byte and length -/
  cover : List (Nat × Nat) := []
deriving DecidableEq, Repr, Inhabited

/-- A strand slot (R18, R52). -/
structure Strand where
  /-- the slot holds a strand: false is EMPTY (R52) -/
  live : Bool := false
  /-- COMMIT (R52, R60) -/
  commit : Bool := false
  /-- TASK_ID (R38) -/
  task : Nat := 0
  /-- GANG_SIZE and GANG_RANK (R44, R232) -/
  gangSize : Nat := 0
  gangRank : Nat := 0
  /-- stage id of a stage task (R32) -/
  stage : Option Nat := none
  /-- address of the next bundle (R18) -/
  pc : Word := 0
  /-- address of the bundle that issued last -/
  addr : Word := 0
  /-- slot number of R150 of the executing slot -/
  slotNo : Nat := 0
  /-- the registers, with every landed write -/
  now : Regs := {}
  /-- the bundle whose slots are executing -/
  flight : Option Flight := none
  /-- why the executing slot waits to be tried again (R57): 0 it does not, 1 as on a scoreboarded register,
  2 on a copy watermark, 3 at a barrier, 4 in HALT, 5 in WFI, 6 in COMMIT, 7 for space -/
  blocked : Nat := 0
  /-- the executing slot has waited and is being tried again -/
  retry : Bool := false
  late : List Late := []
  board : List Board := []
  /-- bundle distance until a branch target is ready (R155) -/
  btWait : SMap Nat := []
  /-- engine queues by engine number: 0 VE, 1 ME, 2 CE, 3 KE, 4 stash, 5 OE, 6 MBS (R18, R232) -/
  queues : SMap (List Entry) := []
  /-- incomplete regions, oldest first (R62) -/
  regions : List Region := []
  nextRid : Nat := 1
  /-- completed entries whose completion has not been observed (R87) -/
  unseen : List Unseen := []
  /-- number of the next piece of work -/
  seq : Nat := 0
  /-- stall countdown (R54) -/
  stall : Nat := 0
  /-- watchdog count (R58) -/
  wdog : Nat := 0
  /-- BUNDLES (R232) -/
  bundles : Word := 0
  fault : Option Pending := none
  /-- sync slots 1 to 15 (R205) -/
  sync : SMap SyncSlot := []
  /-- scratchpad window in bytes (R20) -/
  spmBase : Nat := 0
  spmLen : Nat := 0
  /-- accumulator window (R21) -/
  accBase : Nat := 0
  accN : Nat := 0
  /-- cancellation has taken effect (R65) -/
  cancelling : Bool := false
  /-- halted by HALT (R229) -/
  halted : Bool := false
  /-- waiting in WFI (R229) -/
  wfi : Bool := false
  /-- input FIFOs of ports 0x10 to 0x13 (R222) -/
  inFifo : SMap (List Word) := []
  /-- shadow nest table: words of the rows and their descriptors (R280) -/
  nest : SMap Desc := []
  /-- physical address of the barrier object that the strand waits at (R56, R214) -/
  waitObj : Option Nat := none
  /-- transfers that an executing DRAIN waits for: kind and number (R85) -/
  drain : Option (List (Nat × Nat)) := none
  /-- an acquire that is fetching bound lines again: the value that it read, or the element that it is to pop (R80, R88) -/
  acq : Option Elem := none
  /-- instruction words are on their way from another package or the host -/
  fetching : Bool := false
  /-- request of a remote atomic that the strand waits for in COMMIT, and the old value it brought (R192) -/
  amo : Option Nat := none
  amoOld : Option Word := none
  /-- stream of posted writes to each destination package: last LSEQ issued (R492) -/
  lseq : SMap Nat := []
deriving DecidableEq, Repr, Inhabited

/-- A posted remote write not yet acknowledged (R90). -/
structure Posted where
  /-- number of its request -/
  id : Nat
  core : Nat
  strand : Nat
  /-- the window charged (R240) -/
  window : Option Nat
  /-- virtual address, for the coverage of a release (R79) and for a report (R499) -/
  va : Nat
  /-- destination address, which names the line (R90) -/
  pa : Nat
  /-- an engine entry's, which is in no strand's stream (R90, R479) -/
  engine : Bool := false
  /-- its number in the stream (R492) -/
  lseq : Nat := 0
  /-- issue number and region of the store -/
  seq : Nat := 0
  rid : Nat := 0
  task : Nat := 0
  bytes : List Byte := []
  /-- bits of `bytes` that are written; every bit where the list is empty -/
  mask : List Byte := []
deriving DecidableEq, Repr, Inhabited

/-- A parity update that a home has begun and not completed (R95): the line, and the core and strand whose write began it. -/
structure Parity where
  line : Nat
  core : Option Nat := none
  strand : Option Nat := none
deriving DecidableEq, Repr, Inhabited

/-- A store on its way to its home, or to the host (R73, R186). -/
structure Store where
  core : Nat
  strand : Nat
  /-- virtual address of the store, for the coverage of REL (R79) -/
  va : Nat
  /-- package-local physical address -/
  pa : Nat
  bytes : List Byte
  /-- its number -/
  id : Nat := 0
deriving DecidableEq, Repr, Inhabited

/-- A copy channel (R312). -/
structure Chan where
  d : Nat := 0
  e : Nat := 0
  wmark : Nat := 0
  active : Bool := false
  faulted : Bool := false
  ck : BitVec 32 := 0
deriving DecidableEq, Repr, Inhabited

/-- A core's own parts (R18). -/
structure Core where
  /-- L1: valid 16-byte sectors by sector number of the physical address (R24) -/
  l1 : SMap (BitVec 128) := []
  /-- scratchpad bytes (R20) -/
  spm : SMap Byte := []
  /-- syndromes of scratchpad words whose check bits do not match their data (R469), by offset div 8 -/
  spmSyn : SMap (BitVec 8) := []
  /-- accumulator cells by tile * 24576 + row * 192 + column (R21) -/
  acc : SMap (BitVec 32) := []
  /-- instruction memory: words fetched, by virtual address (R103) -/
  imem : SMap (BitVec 32) := []
  /-- sectors of the L1 that a load at the home has found older, so that no later load may return them (R75) -/
  stale : List Nat := []
  /-- aperture staging words by port * 4 + word (R30) -/
  staging : SMap Word := []
  /-- aperture queue (R31) -/
  apq : List Entry := []
  /-- result FIFOs by port, oldest first (R220) -/
  fifos : SMap (List Elem) := []
  /-- copy channels (R312) -/
  chans : SMap Chan := []
  /-- copy templates (R318) -/
  tmpl : SMap Word := []
  /-- TVEC (R238) -/
  tvec : Word := 0
  /-- WDOG_LIMIT (R238) -/
  wdogLimit : Nat := 0
  /-- WIN0 to WIN15 (R240) -/
  win : SMap Word := []
  /-- ALLOW and OUT of WALLOW0 to WALLOW15 (R240) -/
  allow : SMap Nat := []
  outst : SMap Nat := []
  /-- CYCLE (R232) -/
  cycle : Word := 0
  /-- check values injected into units 1, 2, 3 and 7: unit * 2^64 + granule (R519) -/
  inj : SMap Nat := []
  /-- slot that issued last, by class (R55) -/
  lastIssue : SMap Nat := []
  /-- strand served last, by engine (R19) -/
  lastServed : SMap Nat := []
deriving DecidableEq, Repr, Inhabited

/-- A pending head of a launch queue as the launch unit has read it, once (R43, R45). -/
structure HeadRead where
  /-- the record -/
  rec1 : Nat
  /-- its table and count have been read too -/
  ready : Bool := false
  /-- the status of a task that runs no strand -/
  status : Option Nat := none
  /-- flat cores of the gang -/
  gang : List Nat := []
  t : SMap Desc := []
deriving DecidableEq, Repr, Inhabited

/-- A launch queue (R40, R41). -/
structure LaunchQueue where
  base : Word := 0
  size : Nat := 4
  head : Nat := 0
  tail : Nat := 0
  cbase : Word := 0
  chead : Nat := 0
  ctail : Nat := 0
  /-- NCORE -/
  ncore : Nat := 0x3FF
  /-- STATE: 0 DISABLED, 1 ACTIVE, 2 DRAINING -/
  state : Nat := 0
  cancel : Bool := false
  destroy : Bool := false
  tenant : Nat := 0
  /-- the head, once the launch unit has begun to dispatch it -/
  read : Option HeadRead := none
  /-- translations that its rings use, which stay in force until it is DISABLED (R102): leaf and level by virtual page -/
  pins : SMap (Nat × Nat) := []
deriving DecidableEq, Repr, Inhabited

/-- Accesses that the launch unit or a stage scheduler has under way in other packages or in host memory (R533). -/
structure DevAcc where
  /-- the task whose completion record is being written -/
  task : Nat := 0
  /-- bytes that have come, and reads that failed, by flit address -/
  got : SMap Byte := []
  fails : SMap (Nat × Nat) := []
  /-- requests not yet answered -/
  waits : List Nat := []
  /-- it has waited for an answer or for a line that the host may hold -/
  blocked : Bool := false
deriving DecidableEq, Repr, Inhabited

/-- What a collective command sends to every member of its group (R331, R334, R339): the spec gives no bit layout for the
payload of a COLL flit, so it stands beside the header (log 22). -/
structure Packet where
  gid : Nat := 0
  /-- the sending member -/
  node : Nat := 0
  die : Nat := 0
  /-- its number among the group's commands -/
  seq : Nat := 0
  /-- an abort (R339) -/
  abort : Bool := false
  /-- the header of R331 -/
  hdr : List Nat := []
  /-- the member's format rule holds (R332) -/
  fok : Bool := true
  exact : Bool := false
  /-- flag word (R334) -/
  flag : Nat := 0
  /-- contributions: values, or codes and integers -/
  vals : List Val := []
  codes : List Int := []
deriving DecidableEq, Repr, Inhabited

/-- A flit (R479). -/
structure Flit where
  age : Nat := 0
  token : Word := 0
  addr : Nat := 0
  tenant : Nat := 0
  dnode : Nat := 0
  ddie : Nat := 0
  snode : Nat := 0
  sdie : Nat := 0
  msgid : Nat := 0
  fidx : Nat := 0
  flast : Nat := 0
  tc : Nat := 0
  rsv : Nat := 1
  chan : Nat := 0
  op : Nat := 0
  circ : Nat := 0
  sstr : Nat := 0x7FF
  lseq : Nat := 0
  prev : Nat := 0
  payload : List Byte := []
  /-- a collective packet (log 22) -/
  packet : Packet := {}
  /-- what a TENSOR flit says beside its data: peer stage, end, window, slot size, tag, slot, image bytes (R375, log 22) -/
  more : List Nat := []
deriving DecidableEq, Repr, Inhabited

/-- Who waits for a request's answer. -/
inductive ReqOwner where
  /-- a scalar access of a strand -/
  | strand (n : Nat)
  /-- a posted write of a strand -/
  | posted (n : Nat)
  /-- an engine entry, by core and engine entry number -/
  | entry (core id : Nat)
  /-- an instruction fetch of a strand: first virtual byte -/
  | fetch (n va : Nat)
  /-- a line of the bound copy in sync slot `k` of a strand: its scratchpad address (R23) -/
  | fill (n k line : Nat)
  /-- a host line for the L1 of a core (R189) -/
  | line (core : Nat)
  /-- a write or a read that host function `fn` makes through a page of another package (R92, R93) -/
  | hostAccess (fn : Nat)
  /-- a die's own traffic -/
  | die (d : Nat)
  /-- an access of the launch unit or a stage scheduler, by the number of `State.devAcc` -/
  | device (key : Nat)
  /-- a read of host memory that another package asked die `d` for -/
  | peer (d : Nat) (f : Flit)
deriving DecidableEq, Repr, Inhabited

/-- An outstanding request (R489): to another package, or to the host (R440). -/
structure Req where
  id : Nat
  /-- MSGID at its gateway -/
  msgid : Nat := 0
  die : Nat := 0
  op : Nat := 0
  addr : Nat := 0
  va : Word := 0
  tenant : Nat := 0
  len : Nat := 0
  owner : ReqOwner
  toHost : Bool := false
  /-- the flits, for a retry (R488), and the NAKs received, by flit index -/
  flits : List Flit := []
  naks : SMap Nat := []
  /-- flits that wait out a backoff, with its gateway cycles (R488) -/
  backoff : SMap Nat := []
  /-- data received, by flit index -/
  data : SMap (List Byte) := []
  /-- the core has written to the host line since, so its L1 does not take it (R75) -/
  nofill : Bool := false
deriving DecidableEq, Repr, Inhabited

/-- A fabric port of the package (R502 to R504, R478). -/
structure Port where
  inuse : Bool := false
  up : Bool := false
  kdata : SMap Word := []
  /-- transmit and receive keys by slot -/
  txKey : SMap (BitVec 256) := []
  rxKey : SMap (BitVec 256) := []
  /-- valid slots -/
  txV : BitVec 2 := 0
  rxV : BitVec 2 := 0
  txAct : Nat := 0
  rxAct : Nat := 0
  /-- counters by slot -/
  txic : SMap Nat := []
  rxic : SMap Nat := []
  afail : Nat := 0
  warned : Bool := false
  /-- retry buffer: unacknowledged flits with their LNSEQ (R504) -/
  retry : List (Nat × Flit) := []
  lnseq : Nat := 0
  lnack : Nat := 4095
  /-- LNAKs received in a row (R504) -/
  lnaks : Nat := 0
deriving DecidableEq, Repr, Inhabited

/-- A function of the host port: 0 the PF, 1 to 63 the VFs (R435 to R443, R517). -/
structure HostFn where
  refused : Nat := 0
  xlate : Nat := 0
  dropped : Nat := 0
  apert : Nat := 0
  poisoned : Nat := 0
  /-- HIRQ (R443) -/
  hirq : Word := 0
  /-- BAR2_BASE (R439) -/
  bar2 : Word := 0
  /-- VFMAP of the VF (R438) -/
  vfmap : Word := 0
  /-- the VF is enabled in its SR-IOV control (R438) -/
  enabled : Bool := false
  /-- MSI-X masks and pending bits (R443, log 28) -/
  mask : BitVec 32 := BitVec.allOnes 32
  pending : BitVec 32 := 0
  /-- a function-level reset is running (R447) -/
  flr : Bool := false
  mbSeq : Nat := 0
  mbStatus : Nat := 0
  mbDone : Bool := false
  mbBusy : Bool := false
  mbCmd : Nat := 0
  mbArg : SMap Word := []
  /-- MB_ARG as read at acceptance (R518) -/
  mbTaken : SMap Word := []
  mbOut : SMap Word := []
deriving DecidableEq, Repr, Inhabited

/-- A collective group of a die (R336). -/
structure Group where
  /-- members in rank order: node and die -/
  list : List (Nat × Nat) := []
  rank : Nat := 0
  hash : Nat := 0
  exact : Bool := false
  /-- commands that have begun (R331) -/
  seq : Nat := 0
  /-- a command of the group is being executed (R339) -/
  busy : Bool := false
deriving DecidableEq, Repr, Inhabited

/-- An entry of a die's stash (R344). -/
structure StashEntry where
  stage : Nat := 0
  tenant : Nat := 0
  tag : Nat := 0
  id : Nat := 0
  /-- 1 KEPT, 2 SPILLED, 3 DROPPED, 4 LOST -/
  state : Nat := 1
  /-- the area that holds its granules (R358): 0 none, 1 HBM, 2 LPDDR-6 -/
  tier : Nat := 1
  /-- stored under DROP (R349) -/
  elig : Bool := false
  /-- L (R347) -/
  len : Nat := 0
  /-- sub-streams -/
  ns : Nat := 1
  /-- its place in the order of STSH commands -/
  order : Nat := 0
  /-- granules of each chunk, as numbers within the part -/
  chunks : List (List Nat) := []
  /-- of a LOST entry: the reason and the failing granule's address (R352) -/
  why : Nat := 0
  lostAt : Nat := 0
deriving DecidableEq, Repr, Inhabited

/-- An arrival in a queue of a stage (R372): tag, and the channel end and slot of a delivered one. -/
structure Arrival where
  tag : Nat := 0
  via : Option (Nat × Nat) := none
deriving DecidableEq, Repr, Inhabited

/-- A tag in flight (R372): a kind's list holds its number, 0 F, 1 B, 2 W. -/
structure TagState where
  /-- which of the stage's bindings it is: a tag that comes again is another one -/
  birth : Nat := 0
  slot : Nat := 0
  ver : Nat := 0
  /-- kinds whose task runs, kinds dispatched, kinds finished -/
  running : List Nat := []
  sent : List Nat := []
  finished : List Nat := []
deriving DecidableEq, Repr, Inhabited

/-- The moving part of a channel end (R375, R494). -/
structure ChanState where
  /-- slots whose credit the sender has taken -/
  taken : List Nat := []
  /-- reserve credits of the sending end (R494) -/
  credits : Nat := 16
  /-- slots of the receiving end with an unreleased arrival -/
  filled : List Nat := []
  /-- image bytes received so far, by slot -/
  got : SMap Nat := []
deriving DecidableEq, Repr, Inhabited

/-- A stage on its scheduler (R366 to R377). -/
structure Stage where
  id : Nat := 0
  tenant : Nat := 0
  /-- the descriptor's words, by offset div 8 -/
  desc : SMap Word := []
  /-- 0 DISABLED, 1 ACTIVE, 2 DRAINING -/
  state : Nat := 0
  cancel : Bool := false
  warm : Nat := 0
  rows : SMap Nat := []
  fq : List Arrival := []
  bq : List Arrival := []
  wq : List Arrival := []
  /-- W postings held while WQ is full -/
  held : List Nat := []
  tags : SMap TagState := []
  /-- bindings so far -/
  births : Nat := 0
  /-- tags bound to each live version -/
  vers : SMap Nat := [(0, 0)]
  cur : Nat := 0
  /-- retirements since LOAD (R369) -/
  retired : Nat := 0
  chans : SMap ChanState := []
deriving DecidableEq, Repr, Inhabited

/-- A reassembly entry of a gateway (R490, R491). -/
structure Reasm where
  bitmap : Nat := 0
  addr : Nat := 0
  tenant : Nat := 0
  snode : Nat := 0
  sdie : Nat := 0
  msgid : Nat := 0
  flast : Nat := 0
  chan : Nat := 0
  tc : Nat := 0
  op : Nat := 0
  /-- reserve credits that its flits have spent (R494) -/
  credits : Nat := 0
  /-- a write of it has failed: the NAK code -/
  bad : Nat := 0
deriving DecidableEq, Repr, Inhabited

/-- A die's own parts (R22). -/
structure Die where
  /-- owning tenant (R17) -/
  tenant : Nat := 0
  /-- PTBASE (R238) -/
  ptbase : Word := 0
  /-- RAS_HEAD, RAS_TAIL, RAS_LOST (R461) -/
  rasHead : Nat := 0
  rasTail : Nat := 0
  rasLost : Nat := 0
  /-- RAS_CORR, by unit code (R461, R465) -/
  rasCorr : SMap Nat := []
  /-- RAS_CTL: CORRLOG and IE (R461) -/
  corrLog : Bool := false
  rasIe : Bool := false
  /-- gateway cycles since the die's last start (R7, R462) -/
  time : Word := 0
  /-- TC_AREA and TC_STATUS (R458) -/
  tcArea : Word := 0
  tcStatus : Word := 0
  /-- the command that TC_STATUS shows as BUSY (R458): OP and ID, for RESUME the strands that are to start,
  and for FAULT the trapped strands as the write finds them (R456) -/
  tcJob : Option (Nat × Nat) := none
  tcRecs : List (Nat × Strand) := []
  /-- DTPTB, DTENT, DTSTS (R522, R523) -/
  dtptb : Word := 0
  dtent : Word := 0
  dtsts : Word := 0
  /-- ALLOW, DEFL, POOL (R237, R495) and THROTTLE (R496): AMIN 16, STEP 16, DHI 64, DLO 32 -/
  allow : Nat := 255
  defl : Nat := 0
  pool : Nat := 0
  throttle : Word := 0x1010402000
  /-- FABCNT (R511) -/
  badFlit : Nat := 0
  tokFail : Nat := 0
  /-- token table (R497) and share table (R500) -/
  token : SMap Word := []
  share : SMap Nat := []
  /-- flits injected in this window by tenant * 16 + port (R500), request flits injected (R496) -/
  shareUsed : SMap Nat := []
  injected : Nat := 0
  /-- flits that wait at the injection port, and flits at the transit inputs by port (R483 to R485) -/
  inject : List Flit := []
  transit : SMap Flit := []
  /-- departures and deflected departures of this window (R495) -/
  depart : Nat := 0
  deflected : Nat := 0
  /-- monitor samples (R514): sensors, rail monitors, process monitors, MTIME -/
  therm : SMap (BitVec 16) := []
  volt : SMap (BitVec 16) := []
  proc : SMap (BitVec 16) := []
  mtime : Word := 0
  /-- CLKST: stretch level and windows with a level above 0 (R514) -/
  stretch : Nat := 0
  stretchWin : Nat := 0
  /-- THYST, TTRIP, THOT (R514) -/
  thyst : Nat := 5
  ttrip : Nat := 105
  thot : Nat := 95
  /-- THOT as the last window left it, which the next may still use (R521) -/
  thotOld : Nat := 95
  /-- VTRIPHI, VTRIPLO, VLOW by rail (R514) -/
  vrail : SMap Word := []
  /-- collective groups (R336) and the packets received for them (R331) -/
  groups : SMap Group := []
  collIn : List Packet := []
  /-- stash entries by number (R344) -/
  stash : SMap StashEntry := []
  /-- optimiser routines by slot: micro-instructions (R360) -/
  routines : SMap (List Nat) := []
  /-- stages of this die's scheduler, by place 0 and 1 (R32, R368) -/
  stages : SMap Stage := []
  /-- reassembly entries (R490), and the tenants whose entries are saved with their numbers (R460) -/
  reasm : List Reasm := []
  saved : SMap Nat := []
  /-- posted writes that wait for a predecessor, in receive space (R492), and the last write performed of each stream:
  source node * 2048 + strand -/
  waiting : List Flit := []
  streams : SMap (List Nat) := []
  /-- flits that a port handed back as it left use (R478) -/
  handed : List Flit := []
  /-- injected request flits that have not been answered (R485) -/
  inFlight : Nat := 0
deriving DecidableEq, Repr, Inhabited

/-- A cached translation (R101): core, tenant, page number at 4 KiB, and the leaf entry with the level it stood at. -/
structure Tlb where
  /-- the core that holds it -/
  core : Nat := 0
  tenant : Nat
  vpn : Nat
  pte : Nat
  level : Nat
deriving DecidableEq, Repr, Inhabited

/-- What an event brings with it, as its step reads it (spec 95): who makes it, the part it names, and its values. -/
structure Event where
  agent : Agent := .host 0
  /-- the part: a core, strand, die, queue, port, task or request number -/
  n : Nat := 0
  /-- a second number: an offset, a vector, a length, an index -/
  k : Nat := 0
  /-- a register value -/
  v : Word := 0
  /-- a status or choice -/
  status : Nat := 0
  path : HostPath := .bar0
  /-- bytes, each with its byte enable -/
  data : List (Option Byte) := []
  /-- a list of numbers: samples, failing parts -/
  list : List Nat := []
  /-- the tenant in whose name a register is accessed (R508) -/
  tenant : Nat := 0
  /-- a flit that arrives (R479) -/
  flit : Flit := {}
deriving DecidableEq, Repr, Inhabited

/-- A byte of the owner table that checks may still use after a write has replaced it (R512): its table offset, and who wrote. -/
structure OldOwner where
  granule : Nat
  byte : Byte
  writer : Agent
deriving DecidableEq, Repr, Inhabited

/-- Where a task comes from (R37, R39). -/
inductive Origin where
  | queue (q : Nat)
  | stage (die sel : Nat)
  | system (die : Nat)
deriving DecidableEq, Repr, Inhabited

/-- The states of a task that has been dispatched (R51). -/
inductive TaskState where
  | running | preempted
deriving DecidableEq, Repr, Inhabited

/-- A dispatched task (R38, R51). -/
structure Task where
  origin : Origin := .system 0
  tenant : Nat := 0
  state : TaskState := .running
  /-- USER of the launch record (R43) -/
  user : Word := 0
  /-- gang cores by rank (R44) -/
  gang : List Nat := []
  /-- STATUS, CAUSE, PC and INFO of the completion record so far (R68, R69) -/
  status : Nat := 0
  cause : Nat := 0
  pc : Word := 0
  info : Word := 0
  /-- tag and kind of a stage task (R48) -/
  tag : BitVec 32 := 0
  kind : Nat := 0
  /-- the binding of its tag -/
  birth : Nat := 0
  /-- the strands are in supervisor context outside traps (R39, R239) -/
  sup : Bool := false
  /-- ranks of the strands that a PREEMPT saved (R458) -/
  saved : List Nat := []
  /-- discarded regions that may execute again: rank, entry, and whether it had changed what it had read (R61) -/
  redo : List (Nat × Word × Bool) := []
deriving DecidableEq, Repr, Inhabited

/-- What the package sends out or signals: the host interface's record, oldest first. -/
inductive Out where
  /-- a flit that leaves through a port of the package: port, link word (R501) and flit (R479) -/
  | flit (port : Nat) (link : Nat) (f : Flit)
  /-- a write to host memory (R440): function, host address, PASID prefix, bytes, and the bits of each that are written (R94); every
  bit where that list is empty -/
  | hostWrite (fn addr : Nat) (pasid : Option Nat) (data : List Byte) (mask : List Byte := [])
  /-- a read of host memory (R440): request number, function, address, PASID prefix, length -/
  | hostRead (id fn addr : Nat) (pasid : Option Nat) (len : Nat)
  /-- a back-invalidate snoop of a line (R441) -/
  | snoop (line : Nat)
  /-- a vector of a function (R443) -/
  | msix (fn vec : Nat)
  /-- the value that a host read returns (R436) -/
  | hostData (fn : Nat) (data : List Byte)
  /-- an error that a function reports through AER (R434) -/
  | aer (fn : Nat)
  /-- an ATS Invalidate Request completes (R440) -/
  | atsDone (page : Nat)
  /-- a host line cached under CXL.cache is written back and dropped (R441) -/
  | cxlDrop (line : Nat)
deriving DecidableEq, Repr, Inhabited

/-- Starting the device and the Gumon controller's records (R445 to R454, R516, R519, R520). -/
structure Boot where
  /-- 0 WAITFW, 1 STARTING, 2 RUNNING, 3 RECOVERY -/
  state : Nat := 0
  detail : Nat := 0
  code : Nat := 0
  stage : Nat := 0
  /-- 0 cold, 1 warm: this start, and the next one (R447, R454) -/
  kind : Nat := 0
  nextKind : Nat := 0
  fails : Nat := 0
  req : Nat := 0
  skip : Nat := 0
  degr : Bool := false
  /-- FW_LEN and the bytes staged in FW_WIN -/
  fwLen : Word := 0
  fw : SMap Byte := []
  /-- CLEAN (R450) -/
  clean : Bool := false
  /-- training and equalisation values are retained, with the highest sensor of each die at training (R449) -/
  trained : Bool := false
  temps : SMap Int := []
  equalised : BitVec 64 := 0
  /-- PORTMAP of the image that started, and its SVN (R445, R519) -/
  portmap : BitVec 64 := 0
  svn : Nat := 0
  /-- fuses: hash of the public key, anti-rollback counter (R446) -/
  keyHash : Nat := 0
  counter : Nat := 0
  /-- a trip: die, and sensor or 0x80 + rail (R516) -/
  tripped : Option (Nat × Nat) := none
  /-- the event queue and the events lost (R520) -/
  events : List Word := []
  evLost : Nat := 0
deriving DecidableEq, Repr, Inhabited

/-- The whole machine. -/
structure State where
  /-- the package's node number in the pod (R27, R234) -/
  node : Nat := 0
  /-- strand slots by flat number (R17) -/
  strands : SMap Strand := []
  /-- cores by flat number -/
  cores : SMap Core := []
  dies : SMap Die := []
  /-- memory by package-local physical address (R22, R27); an unlisted byte reads zero -/
  mem : List Host.Cell := []
  /-- stores on their way (R73) -/
  stores : List Store := []
  /-- parity updates begun and not complete, oldest first (R95) -/
  parity : List Parity := []
  posted : List Posted := []
  nextId : Nat := 1
  /-- cached translations (R101) -/
  tlb : List Tlb := []
  /-- syndromes of memory words whose check bits do not match their data (R469), by address div 8 -/
  memSyn : SMap (BitVec 8) := []
  /-- poisoned lines and the lost stack each names (R474), by address div 128; 12 for a line of a lost stack that was written whole
  after a second loss poisoned them all (R475) -/
  poison : SMap Nat := []
  /-- the BARRIER and BND words of sync objects as the instructions on sync objects left them, by physical address; zero where it
  lists none, and 2 ^ 320 where an ordinary store has changed them since (R78) -/
  objs : SMap Nat := []
  /-- lost stacks (R473) -/
  lost : List Nat := []
  /-- check values injected into L2 granules, by address div 8 (R519) -/
  l2inj : SMap Nat := []
  boot : Boot := {}
  /-- owner bytes of the granules, by table offset (R512) -/
  owner : SMap Byte := []
  /-- bytes that checks use until the writes that replaced them have been copied to the home slices, oldest first (R512, R521) -/
  ownerOld : List OldOwner := []
  tasks : SMap Task := []
  /-- launch queues (R40) and the queue last served (R46) -/
  lqs : SMap LaunchQueue := []
  lqLast : Nat := 7
  /-- accesses that the device has under way on its own account -/
  devAcc : SMap DevAcc := []
  /-- images of tensor channels that a stage's end discarded part way: the sending package and its number (R66) -/
  closed : List (Nat × Nat) := []
  /-- SCRUBCTL: PERIOD and PASSES (R513) -/
  scrubPeriod : Nat := 336
  scrubPasses : Nat := 0
  /-- fabric ports by direction * 8 + die (R502) -/
  ports : SMap Port := []
  /-- host functions (R435) -/
  fns : SMap HostFn := []
  /-- the host link is up (R440) -/
  hostUp : Bool := true
  /-- the host link trained in CXL mode (R433), and the HDM decoder is committed (R441) -/
  cxl : Bool := false
  hdm : Bool := false
  /-- the sizes that the host has given BAR 2 of the PF, and of every VF: their logarithms (R435) -/
  bar2Pf : Nat := 40
  bar2Vf : Nat := 40
  /-- CXLM (R441), lines that the host may hold a copy of, and lines whose snoop awaits its answer -/
  cxlm : Word := 0
  held : List Nat := []
  snooped : List Nat := []
  /-- host lines that home slices cache under CXL.cache, oldest first (R441) -/
  cxlCache : List Nat := []
  /-- PASIDs set for tenants (R519, R440); bit 63 is V -/
  pasid : SMap Word := []
  /-- pages of host memory whose translation the host port caches (R440) -/
  ats : List Nat := []
  /-- outstanding requests (R489, R440) -/
  reqs : List Req := []
  /-- the counter of R38 -/
  nextTask : Nat := 1
  /-- what the package has sent out -/
  out : List Out := []
  /-- the strand on whose behalf exec runs -/
  cur : Nat := 0
  /-- the engine entry that exec runs (R19) -/
  engine : Option Entry := none
  /-- bytes that the executing engine entry still needs: flit address, length (R252) -/
  miss : List (Nat × Nat) := []
  /-- events that have not been taken, oldest first -/
  inbox : List (Instr × Event) := []
  /-- events that were taken and wait for something of the package -/
  later : List (Instr × Event) := []
  /-- an engine's turn makes all its writes, or with a number above 0 eight bytes of them (R64, log 17) -/
  pace : Nat := 0
  /-- what the executing event brings -/
  ev : Event := {}
  /-- draws of free values so far -/
  fresh : Nat := 0
deriving DecidableEq, Repr, Inhabited

/-- The machine right after reset. -/
def State.reset : State := {}

end Sys2Proof.Machine
end

