-- ==== Sys2Proof/Machine/Access.lean ====
section
/-!
DEFINITION. Access to the parts of the state by number, to the registers of the current strand, and to free values.
-/
namespace Sys2Proof.Machine

def dieOf (core : Nat) : Nat := core / Config.coresPerDie
def coreOf (strand : Nat) : Nat := strand / Config.slots

def State.strandAt (s : State) (n : Nat) : Strand := smGet {} s.strands n
def State.setStrand (s : State) (n : Nat) (x : Strand) : State := { s with strands := smPut s.strands n x }
def State.modStrand (s : State) (n : Nat) (f : Strand → Strand) : State := s.setStrand n (f (s.strandAt n))
def State.coreAt (s : State) (n : Nat) : Core := smGet {} s.cores n
def State.setCore (s : State) (n : Nat) (x : Core) : State := { s with cores := smPut s.cores n x }
def State.modCore (s : State) (n : Nat) (f : Core → Core) : State := s.setCore n (f (s.coreAt n))
def State.dieAt (s : State) (n : Nat) : Die := smGet {} s.dies n
def State.setDie (s : State) (n : Nat) (x : Die) : State := { s with dies := smPut s.dies n x }
def State.modDie (s : State) (n : Nat) (f : Die → Die) : State := s.setDie n (f (s.dieAt n))
def State.taskAt (s : State) (n : Nat) : Task := smGet {} s.tasks n
def State.modTask (s : State) (n : Nat) (f : Task → Task) : State :=
  match smFind s.tasks n with
  | some t => { s with tasks := smPut s.tasks n (f t) }
  | none => s

/-- Gateway cycles pass at die `d`: how many is a free value (R7, log 29). -/
def State.passTime (s : State) (d : Nat) : State :=
  ({ s with fresh := s.fresh + 1 } : State).modDie d fun x => { x with time := x.time + BitVec.ofNat 64 ((Config.freeBits s.fresh).toNat % 2 ^ 32) }

/-- The current strand, its core, its die. -/
def State.st (s : State) : Strand := s.strandAt s.cur
def State.setSt (s : State) (x : Strand) : State := s.setStrand s.cur x
def State.modSt (s : State) (f : Strand → Strand) : State := s.setSt (f s.st)
def State.curCore (s : State) : Nat := coreOf s.cur
def State.curDie (s : State) : Nat := dieOf (coreOf s.cur)
/-- The tenant of a core's die (R17). -/
def State.tenantOf (s : State) (core : Nat) : Nat := (s.dieAt (dieOf core)).tenant

/-- The next free value (log 3). -/
def State.draw (s : State) : BitVec 256 × State := (Config.freeBits s.fresh, { s with fresh := s.fresh + 1 })
/-- The next free choice among `n` outcomes (log 4). -/
def State.choose (s : State) (n : Nat) : Nat × State := (Config.freeChoice s.fresh % n, { s with fresh := s.fresh + 1 })

/-- The registers a slot reads: as they stood at issue while a bundle is executing (R136). -/
def Strand.src (x : Strand) : Regs :=
  match x.flight with
  | some f => f.latch
  | none => x.now

/-- Change the registers as they stand now. -/
def Strand.modNow (x : Strand) (f : Regs → Regs) : Strand := { x with now := f x.now }

/-- s(n); s0 reads zero (R18). -/
def Regs.getS (r : Regs) (n : Nat) : Word := if n = 0 then 0 else smGet 0 r.s n
/-- s(n) written; a write to s0 has no effect (R18, R176). -/
def Regs.setS (r : Regs) (n : Nat) (v : Word) : Regs := if n = 0 then r else { r with s := smSet 0 r.s n v }
/-- g(n); g0 reads true (R18). -/
def Regs.getG (r : Regs) (n : Nat) : Bool := n == 0 || r.g.getLsbD n
/-- g(n) written; a write to g0 has no effect (R18, R176). -/
def Regs.setG (r : Regs) (n : Nat) (b : Bool) : Regs :=
  if n = 0 then r
  else { r with g := if b then r.g ||| (1#8 <<< n) else r.g &&& ~~~(1#8 <<< n) }
/-- A guard code: bits 2 to 0 the guard, bit 3 inverts (R138). -/
def Regs.guard (r : Regs) (code : BitVec 4) : Bool :=
  (r.getG (code.toNat % 8)) != decide (8 ≤ code.toNat)
def Regs.getBt (r : Regs) (n : Nat) : Word := smGet 0 r.bt n
def Regs.setBt (r : Regs) (n : Nat) (v : Word) : Regs := { r with bt := smSet 0 r.bt n v }
def Regs.getLc (r : Regs) (n : Nat) : BitVec 32 := smGet 0 r.lc n
def Regs.setLc (r : Regs) (n : Nat) (v : BitVec 32) : Regs := { r with lc := smSet 0 r.lc n v }
def Regs.getF (r : Regs) (n : Nat) : Byte := smGet 0 r.f n
def Regs.setF (r : Regs) (n : Nat) (v : Byte) : Regs := { r with f := smSet 0 r.f n v }
def Regs.getT (r : Regs) (n : Nat) : Desc := smGet 0 r.t n
def Regs.setT (r : Regs) (n : Nat) (v : Desc) : Regs := { r with t := smSet 0 r.t n v }

/-- Source registers of the executing slot. -/
def State.rs (s : State) (r : BitVec 6) : Word := s.st.src.getS r.toNat
def State.rt (s : State) (r : BitVec 6) : Desc := s.st.src.getT r.toNat

/-- A write to s(n) marks an earlier fixed-latency write to it that has not landed (R153). -/
def markClash (n : Nat) (l : List Late) : List Late := l.map fun x => if x.dst = n then { x with clash := true } else x

/-- A result of bound 1: the next bundle reads it (R151, R176). -/
def Strand.putS (x : Strand) (n : Nat) (v : Word) : Strand :=
  { x.modNow (·.setS n v) with late := markClash n x.late }

/-- A fixed-latency result of bound `b` above 1 (R151, R152). -/
def Strand.putLate (x : Strand) (n : Nat) (v : Word) (b : Nat) : Strand :=
  if n = 0 then x else
  { x with late := markClash n x.late ++ [{ dst := n, val := v, left := b, seq := x.seq,
                                            clash := x.late.any (·.dst == n) }] }

def State.ws (s : State) (r : BitVec 6) (v : Word) : State := s.modSt (·.putS r.toNat v)
def State.wsLate (s : State) (r : BitVec 6) (v : Word) (bound : Nat) : State := s.modSt (·.putLate r.toNat v bound)
def State.wg (s : State) (r : BitVec 3) (b : Bool) : State := s.modSt (·.modNow (·.setG r.toNat b))

/-- The number of the strand's innermost open region. -/
def Strand.curRid (x : Strand) : Nat := (x.regions.getLast?.map (·.rid)).getD 0

/-- All pieces of work of a strand that have been issued and have not finished, other than stores (R60, R246). -/
def Strand.idle (x : Strand) : Bool := x.board.isEmpty && x.queues.all fun q => q.2.isEmpty

/-- A result FIFO's depth (R220). -/
def fifoDepth (port : Nat) : Nat := if port < 0x10 then 16 else 32
def State.fifo (s : State) (core port : Nat) : List Elem := smGet [] (s.coreAt core).fifos port
def State.setFifo (s : State) (core port : Nat) (l : List Elem) : State :=
  s.modCore core fun c => { c with fifos := smSet [] c.fifos port l }
/-- An element enters a result FIFO; strands of the core that wait in WFI wake (R229). -/
def State.pushFifo (s : State) (core port : Nat) (v : Word) (cover : List (Nat × Nat) := []) : State :=
  let s := s.setFifo core port (s.fifo core port ++ [{ v := v, cover := cover }])
  (List.range Config.slots).foldl (fun s k =>
    if (s.strandAt (core * Config.slots + k)).wfi then s.modStrand (core * Config.slots + k) ({ · with wfi := false })
    else s) s
def State.fifoFull (s : State) (core port : Nat) : Bool := decide (fifoDepth port ≤ (s.fifo core port).length)

end Sys2Proof.Machine
end

