-- ==== Sys2Proof/Machine/Memory.lean ====
section
/-!
DEFINITION. Memory: bytes at their homes and in scratchpads, stores on their way, check bits and poison (spec 21),
address classes (R27, R28), translation (R97 to R102), the owner check (R498), the L1 (R24) and bound copies (R23).
-/
namespace Sys2Proof.Machine

/-- The canonical form of memory: addresses rising, and no entry that holds what an unlisted byte reads as. -/
def Memory.wf (m : List Host.Cell) : Bool := smSorted m && m.all fun c => c.2 != 0

/-- A byte at its home; an unlisted byte reads zero (R449, log 5). -/
def State.memByte (s : State) (a : Nat) : Byte := smGet 0 s.mem a

/-- Write bytes at their homes, the first at `a`. -/
def memPut (m : List Host.Cell) (a : Nat) : List Byte → List Host.Cell
  | [] => m
  | b :: r => memPut (smSet 0 m a b) (a + 1) r

def State.putMem (s : State) (a : Nat) (bs : List Byte) : State := { s with mem := memPut s.mem a bs }

/-- `n` bytes at their homes. -/
def State.memBytes (s : State) (a n : Nat) : List Byte := (List.range n).map fun i => s.memByte (a + i)
/-- A little-endian number at its home. -/
def State.memNat (s : State) (a n : Nat) : Nat := leNat (s.memBytes a n)
def State.putMemNat (s : State) (a n v : Nat) : State := s.putMem a (leBytes n v)

def State.spmBytes (s : State) (core off n : Nat) : List Byte :=
  let c := s.coreAt core
  (List.range n).map fun i => smGet 0 c.spm (off + i)
def State.putSpm (s : State) (core off : Nat) (bs : List Byte) : State :=
  s.modCore core fun c => { c with spm := memPut c.spm off bs }

/-! ### Check bits (R465 to R469) -/

/-- The columns of the SECDED code: values of 8 bits with three bits set, rising, then the last eight (R469). -/
def secdedCols : List Nat :=
  ((List.range 256).filter fun v => ((List.range 8).filter fun i => v.testBit i).length == 3)
    ++ [0x1F, 0x2F, 0x37, 0x3B, 0x3D, 0x3E, 0x4F, 0x57]

/-- Check bits computed from a data word (R469). -/
def secdedBits (w : Nat) : Nat :=
  ((List.range 64).zip secdedCols).foldl (fun acc (j, c) => if w.testBit j then acc ^^^ c else acc) 0

/-- What a syndrome says (R469): none for uncorrectable, else the data bit to invert, if any. -/
def secdedRead (syn : Nat) : Option (Option Nat) :=
  if syn = 0 then some none
  else match secdedCols.findIdx? (· == syn) with
    | some j => some (some j)
    | none => if (List.range 8).any fun i => syn == 2 ^ i then some none else none

/-! ### Fault records (R461, R462) -/

/-- The address of die `d`'s record ring (R461). -/
def rasBase (d : Nat) : Nat := 0x10FFFFFF0000 + 0x2000 * d

/-- A fault record (R462). -/
structure RasRec where
  addr : Nat := 0
  info : Nat := 0
  kind : Nat
  tenant : Nat := 0
  unit : Nat := 0
  stack : Nat := 0xF
  task : Nat := 0
deriving DecidableEq, Repr

/-- A message of a function's vector is sent (R443). -/
def State.signal (s : State) (fn vec : Nat) : State := { s with out := s.out ++ [.msix fn vec] }

def State.fnAt (s : State) (n : Nat) : HostFn := smGet {} s.fns n
def State.modFn (s : State) (n : Nat) (f : HostFn → HostFn) : State := { s with fns := smPut s.fns n (f (s.fnAt n)) }

/-- A message of a function's vector (R443): pending while masked, none while the function is in reset (R455). -/
def State.vector (s : State) (fn vec : Nat) : State :=
  if (s.fnAt fn).flr then s
  else if (s.fnAt fn).mask.getLsbD vec then s.modFn fn fun f => { f with pending := f.pending ||| (1#32 <<< vec) }
  else s.signal fn vec

/-- Signal vector 11 for a record of a tenant (R461): on the PF, and on the VF bound to the tenant. -/
def State.rasVector (s : State) (tenant : Nat) : State :=
  (s.fns.filter fun (n, f) => n != 0 && f.vfmap.getLsbD 63 && f.vfmap.toNat % 256 == tenant).foldl
    (fun s (n, _) => s.vector n 11) (s.vector 0 11)

/-- Write a fault record to die `d`'s ring, or count it lost (R461). -/
def State.rasWrite (s : State) (d : Nat) (r : RasRec) : State :=
  let s := s.passTime d
  let x := s.dieAt d
  if (x.rasHead + 256 - x.rasTail) % 256 = 255 then s.setDie d { x with rasLost := x.rasLost + 1 }
  else
    let w3 := r.kind * 2 ^ 56 + r.tenant * 2 ^ 48 + r.unit * 2 ^ 40 + r.stack * 2 ^ 36 + r.task
    let a := rasBase d + 32 * x.rasHead
    let s := s.putMem a (leBytes 8 w3 ++ leBytes 8 x.time.toNat ++ leBytes 8 r.info ++ leBytes 8 r.addr)
    let s := s.setDie d { x with rasHead := (x.rasHead + 1) % 256 }
    if x.rasIe then s.rasVector r.tenant else s

/-- Count a corrected error of a unit, with a record where CORRLOG asks for one (R461, R465). -/
def State.corrected (s : State) (d unit addr syn tenant task : Nat) : State :=
  let x := s.dieAt d
  let n := smGet 0 x.rasCorr unit
  let s := s.setDie d { x with rasCorr := smSet 0 x.rasCorr unit (min 255 (n + 1)) }
  if x.corrLog then s.rasWrite d { addr, info := syn, kind := 1, tenant, unit, task } else s

/-- An HBM address (R27). -/
def isHbm (a : Nat) : Bool := decide (a < 528000000000)
def isLpddr (a : Nat) : Bool := decide (0x100000000000 ≤ a) && decide (a < 0x110000000000)
def isHostRange (a : Nat) : Bool := decide (0x200000000000 ≤ a) && decide (a < 0x300000000000)
def isDevReg (a : Nat) : Bool := decide (0x3FFF00000000 ≤ a) && decide (a < 0x400000000000)

/-- Die and slice of home_of, for an address of HBM, LPDDR-6 or the host range (R482). -/
def homeOf (a : Nat) : Nat × Nat :=
  let l := (if isHbm a then a else if isLpddr a then a - 0x100000000000 else a - 0x200000000000) / 128
  let i := l / 11
  let h := (i % 256) ^^^ (i / 2 ^ 8 % 256) ^^^ (i / 2 ^ 16 % 256) ^^^ (i / 2 ^ 24 % 256)
  (h / 32, h % 32)

/-- The stack of an HBM line and of its stripe's parity, and the stripe (R471). -/
def stackOf (a : Nat) : Nat := let l := a / 128; (l / 11 + 1 + l % 11) % 12
def stripeOf (a : Nat) : Nat := a / 128 / 11
def parityStackOf (a : Nat) : Nat := stripeOf a % 12

/-- The lost stack that a poisoned line names (R474, R475). -/
def State.poisonOf (s : State) (line : Nat) : Option Nat :=
  match smFind s.poison line with
  | some k => if k < 12 then some k else none
  | none => if 2 ≤ s.lost.length && isHbm (line * 128) && s.lost.contains (stackOf (line * 128)) then some (stackOf (line * 128)) else none

/-- A line that was written whole is no longer poisoned (R474). -/
def State.unpoison (s : State) (line : Nat) : State :=
  { s with poison := if 2 ≤ s.lost.length then smPut s.poison line 12 else smDel s.poison line }

/-! ### Reads that meet check bits and poison -/

/-- What a read of protected units obtains (R464, R469, R474). -/
inductive ReadFate where
  /-- the bytes -/
  | ok
  /-- a poisoned line: the lost stack it names -/
  | poison (addr stack : Nat)
  /-- an uncorrectable error of a unit is consumed -/
  | consumed (unit addr : Nat)
deriving DecidableEq, Repr

/-- A word of 8 bytes with bit `j` inverted where the syndrome says so. -/
def fixWord (w : Nat) (j : Option Nat) : Nat :=
  match j with
  | some j => if w.testBit j then w - 2 ^ j else w + 2 ^ j
  | none => w

/-- What a granule with an injected check value gives (R465, R519). The spec gives no code for these units, so the fate is a
free choice (log 32). -/
inductive InjFate where
  /-- the check value is the right one -/
  | agrees
  /-- one bit of the granule or of its check bits is corrected: the bits inverted -/
  | corrected (bits : Nat)
  | bad
deriving DecidableEq, Repr

def State.injFate (s : State) (width : Nat) : State × InjFate :=
  let (c, s) := s.choose 3
  if c = 0 then (s, .agrees)
  else if c = 1 then let (j, s) := s.choose (width + 1); (s, .corrected (if j < width then 2 ^ j else 0))
  else (s, .bad)

/-- A read of `n` bytes that meets injected L2 granules: an uncorrectable clean line is dropped, a dirty one stays bad. -/
def State.scanL2 (s : State) (tenant task a n : Nat) : State × ReadFate :=
  if s.l2inj.isEmpty then (s, .ok) else
  (List.range ((a + n + 7) / 8 - a / 8)).foldl (fun (s, f) i =>
    let g := a / 8 + i
    match smFind s.l2inj g with
    | none => (s, f)
    | some syn =>
      match s.injFate 64 with
      | (s, .agrees) => ({ s with l2inj := smDel s.l2inj g }, f)
      | (s, .corrected x) =>
        let s := s.putMemNat (g * 8) 8 (s.memNat (g * 8) 8 ^^^ x)
        (({ s with l2inj := smDel s.l2inj g } : State).corrected (homeOf (g * 8)).1 4 (g * 8) (syn % 256) tenant task, f)
      | (s, .bad) =>
        let (dirty, s) := s.choose 2
        let s := if dirty = 1 then s else { s with l2inj := smDel s.l2inj g }
        (s, if f = .ok then .consumed 4 (g * 8) else f)) (s, .ok)

/-- Injected L2 granules after a write: a whole granule is clean (R466). -/
def l2After (m : SMap Nat) (a n : Nat) : SMap Nat :=
  if m.isEmpty then m else m.filter fun p => !(decide (a ≤ p.1 * 8) && decide (p.1 * 8 + 8 ≤ a + n))

/-- An uncorrectable word in another line of the stripe of HBM line `line`: its reconstruction meets it (R471, R473). -/
def State.stripeBad (s : State) (line : Nat) : Option Nat :=
  (s.memSyn.find? fun (g, syn) => isHbm (g * 8) && stripeOf (g * 8) == line / 11 && g * 8 / 128 != line && (secdedRead syn.toNat).isNone).map
    fun p => p.1 * 8

/-- A line on the lost stack, which every read reconstructs (R473). -/
def State.onLost (s : State) (line : Nat) : Bool := isHbm (line * 128) && s.lost.contains (stackOf (line * 128))

/-- The repairs that a read of `n` bytes at memory address `a` makes (R465, R471, R473): corrected words are written
back, an uncorrectable word of a protected HBM stripe is reconstructed, and any other is consumed; so is one that the reconstruction
of a line of the lost stack meets. -/
def State.scanDram (s : State) (tenant task a n : Nat) : State × ReadFate :=
  if s.memSyn.isEmpty && s.poison.isEmpty && decide (s.lost.length < 2) then (s, .ok) else
  match (List.range ((a + n + 127) / 128 - a / 128)).findSome? fun i => (s.poisonOf (a / 128 + i)).map fun k => (i, k) with
  | some (i, k) => (s, .poison ((a / 128 + i) * 128) k)
  | none =>
    match (List.range ((a + n + 127) / 128 - a / 128)).findSome? fun i =>
        if s.onLost (a / 128 + i) then s.stripeBad (a / 128 + i) else none with
    | some bad => (s, .consumed 5 bad)
    | none =>
    (List.range ((a + n + 7) / 8 - a / 8)).foldl (fun (s, f) i =>
      let g := a / 8 + i
      match smFind s.memSyn g with
      | none => (s, f)
      | some syn =>
        let unit := if isHbm (g * 8) then 5 else 6
        let d := (homeOf (g * 8)).1
        match secdedRead syn.toNat with
        | some j =>
          let s := s.putMemNat (g * 8) 8 (fixWord (s.memNat (g * 8) 8) j)
          (({ s with memSyn := smDel s.memSyn g } : State).corrected d unit (g * 8) syn.toNat tenant task, f)
        | none =>
          if isHbm (g * 8) && s.lost.isEmpty && (s.stripeBad (g * 8 / 128)).isNone then
            (({ s with memSyn := smDel s.memSyn g } : State).rasWrite d
              { addr := g * 8, info := syn.toNat, kind := 2, tenant, unit := 5, stack := stackOf (g * 8), task }, f)
          else (s, if f = .ok then .consumed unit (g * 8) else f)) (s, .ok)

/-- A read at the home: the L2, then the memory behind it. -/
def State.scanMem (s : State) (tenant task a n : Nat) : State × ReadFate :=
  match s.scanL2 tenant task a n with
  | (s, .ok) => s.scanDram tenant task a n
  | r => r

/-- The same for a scratchpad (R465). -/
def State.scanSpm (s : State) (core tenant task off n : Nat) : State × ReadFate :=
  if (s.coreAt core).spmSyn.isEmpty then (s, .ok) else
  (List.range ((off + n + 7) / 8 - off / 8)).foldl (fun (s, f) i =>
    let g := off / 8 + i
    match smFind (s.coreAt core).spmSyn g with
    | none => (s, f)
    | some syn =>
      match secdedRead syn.toNat with
      | some j =>
        let w := fixWord (leNat (s.spmBytes core (g * 8) 8)) j
        let s := s.putSpm core (g * 8) (leBytes 8 w)
        let s := s.modCore core fun c => { c with spmSyn := smDel c.spmSyn g }
        (s.corrected (dieOf core) 0 (g * 8) syn.toNat tenant task, f)
      | none => (s, if f = .ok then .consumed 0 (g * 8) else f)) (s, .ok)

/-- Check bits after a write of the bytes from `a` to `a + n - 1` (R466): a whole word is clean, a part of an
uncorrectable word leaves it uncorrectable, a part of a correctable one leaves it clean. -/
def synAfter (m : SMap (BitVec 8)) (a n : Nat) : SMap (BitVec 8) :=
  if m.isEmpty then m else
  m.filterMap fun (g, syn) =>
    if g * 8 + 8 ≤ a || a + n ≤ g * 8 then some (g, syn)
    else if a ≤ g * 8 && decide (g * 8 + 8 ≤ a + n) then none
    else if secdedRead syn.toNat = none then some (g, 3) else none

/-- The repair of correctable words that a partial write makes before it stores (R466). -/
def State.fixBefore (s : State) (a n : Nat) : State :=
  s.memSyn.foldl (fun s (g, syn) =>
    if g * 8 + 8 ≤ a || a + n ≤ g * 8 then s
    else match secdedRead syn.toNat with
      | some (some j) => s.putMemNat (g * 8) 8 (fixWord (s.memNat (g * 8) 8) (some j))
      | _ => s) s

/-- The home of the lines of a write begins their parity updates (R95), for a write of a core and strand; every write begins
one, and when it completes is a free choice (log 55). -/
def State.beginParity (s : State) (a n : Nat) (core strand : Option Nat) : State :=
  let lines := ((List.range ((a + n + 127) / 128 - a / 128)).map (a / 128 + ·)).filter fun l => isHbm (l * 128)
  { s with parity := s.parity ++ lines.map fun line => { line, core, strand } }

/-- A write performed at its home: poison (R474), check bits (R466), data, and the parity update that it begins (R95). -/
def State.performMem (s : State) (tenant task a : Nat) (bs : List Byte) (core : Option Nat := none) (strand : Option Nat := none) : State :=
  let n := bs.length
  match s.poisonOf (a / 128) with
  | some k =>
    if a % 128 = 0 && n = 128 then
      { ((s.putMem a bs).unpoison (a / 128)).beginParity a n core strand with memSyn := synAfter s.memSyn a n }
    else s.rasWrite (homeOf a).1 { addr := a, info := 0, kind := 8, tenant, unit := 5, stack := k, task }
  | none =>
    let s := s.fixBefore a n
    { (s.putMem a bs).beginParity a n core strand with memSyn := synAfter s.memSyn a n, l2inj := l2After s.l2inj a n }

/-! ### Sync objects (R78) -/

/-- Physical addresses of the sync objects that strands hold in their slots. -/
def State.objects (s : State) : List Nat := s.strands.flatMap fun p => p.2.sync.map fun q => q.2.pa

/-- The BARRIER and BND words of the object at `pa`, as one number. -/
def State.objNow (s : State) (pa : Nat) : Nat := s.memNat (pa + 8) 8 + 2 ^ 64 * s.memNat (pa + 32) 32

/-- Its words are as the instructions on sync objects left them: no ordinary store has changed them (R78). -/
def State.objSound (s : State) (pa : Nat) : Bool := smGet 0 s.objs pa == s.objNow pa

/-- An instruction on sync objects writes bytes of the BARRIER or BND words of the object at `pa`, from offset `off` on. -/
def State.writeObj (s : State) (task pa off : Nat) (bs : List Byte) : State :=
  let sound := s.objSound pa
  let s := s.performMem 0 task (pa + off) bs
  if sound then { s with objs := smSet 0 s.objs pa (s.objNow pa) } else s

/-- What an instruction on a sync object finds in it (R78): undefined values in the BARRIER and BND words of one that an ordinary
store has changed. An object that no strand holds and whose words are zero is set up anew (log 34). -/
def State.unsure (s : State) (pa : Nat) : State :=
  if s.objSound pa then s
  else if !s.objects.contains pa && s.objNow pa == 0 then { s with objs := smDel s.objs pa }
  else
    let (v, s) := s.draw
    let (w, s) := s.draw
    { (s.putMem (pa + 8) (leBytes 8 v.toNat)).putMem (pa + 32) (leBytes 32 w.toNat) with objs := smPut s.objs pa (2 ^ 320) }

/-! ### The host port (R440, R442) -/

/-- The function on which a tenant's accesses leave through the host port (R440). -/
def State.hostFnOf (s : State) (tenant : Nat) : Nat :=
  match s.fns.find? fun (n, f) => n != 0 && f.vfmap.getLsbD 63 && f.vfmap.toNat % 256 == tenant with
  | some (n, _) => n
  | none => 0

/-- The PASID that a tenant's accesses carry (R440, R519). -/
def State.pasidOf (s : State) (tenant : Nat) : Option Nat :=
  let v := smGet 0 s.pasid tenant
  if v.getLsbD 63 then some (v.toNat % 2 ^ 20) else none

/-- Host errors of a function (R442): vector 9 is signalled when their sum leaves zero (R443). -/
def HostFn.errors (f : HostFn) : Nat := f.refused + f.xlate + f.dropped + f.apert + f.poisoned

/-- Count a host error: `f` raises one counter (R442, R443). -/
def State.hostErr (s : State) (fn : Nat) (f : HostFn → HostFn) : State :=
  let old := (s.fnAt fn).errors
  let s := s.modFn fn f
  if old = 0 && (s.fnAt fn).hirq.getLsbD 9 then s.vector fn 9 else s

def sat1 (n max : Nat) : Nat := if n < max then n + 1 else n
def State.countRefused (s : State) (fn : Nat) : State := s.hostErr fn fun f => { f with refused := sat1 f.refused 65535 }
def State.countXlate (s : State) (fn : Nat) : State := s.hostErr fn fun f => { f with xlate := sat1 f.xlate 65535 }
def State.countDropped (s : State) (fn : Nat) : State := s.hostErr fn fun f => { f with dropped := sat1 f.dropped 65535 }
def State.countApert (s : State) (fn : Nat) : State := s.hostErr fn fun f => { f with apert := sat1 f.apert 255 }

/-- A posted write to host memory, with the bits of each byte that it writes (R94, R440): dropped and counted while the link is
down. -/
def State.hostPost (s : State) (tenant pa : Nat) (bs : List Byte) (mask : List Byte := []) : State :=
  let fn := s.hostFnOf tenant
  if s.hostUp then { s with out := s.out ++ [.hostWrite fn (pa % 2 ^ 46 - 0x200000000000) (s.pasidOf tenant) bs mask] } else s.countDropped fn

/-! ### Stores on their way (R73 to R75, R82, R95) -/

/-- A store is applied at its home, or leaves for the host (R73, R186). -/
def State.performStore (s : State) (x : Store) : State :=
  if isHostRange x.pa then s.hostPost (s.tenantOf x.core) x.pa x.bytes
  else s.performMem (s.tenantOf x.core) 0 x.pa x.bytes (some x.core) (some x.strand)

/-- Perform the stores that `p` selects, in order of issue. A store to a line that the host may hold waits for the answer to its
snoop (R441). -/
def State.performWhere (s : State) (p : Store → Bool) : State :=
  if s.stores.isEmpty then s else
  s.stores.foldl (fun s x =>
    if p x && !(s.held.contains (x.pa / 128)) then s.performStore x
    else { s with stores := s.stores ++ [x] }) { s with stores := [] }

/-- The parity updates that `p` selects complete, and with each the earlier ones of its line (R95). -/
def State.completeWhere (s : State) (p : Parity → Bool) : State :=
  if s.parity.isEmpty then s else
  { s with parity := (s.parity.zipIdx.filter fun (x, i) => !(s.parity.drop i).any fun y => y.line == x.line && p y).map (·.1) }

/-- Stores that touch a line of 128 bytes. -/
def Store.touches (x : Store) (line : Nat) : Bool := x.pa / 128 == line || (x.pa + x.bytes.length - 1) / 128 == line

/-! ### Address classes (R27, R28) -/

/-- A trap to be raised: cause and TRAP_AUX (R244). -/
abbrev Trap := Nat × Nat

def causeIllegalBundle : Nat := 1
def causeIllegalOp : Nat := 2
def causeReserved : Nat := 3
def causeVcount : Nat := 4
def causeMisalign : Nat := 5
def causePageFault : Nat := 6
def causeAccess : Nat := 7
def causeTenantKey : Nat := 8
def causeAliased : Nat := 9
def causeValias : Nat := 10
def causeTdesc : Nat := 11
def causePoison : Nat := 12
def causeSdc : Nat := 13
def causeVersion : Nat := 14
def causeStashLost : Nat := 15
def causeWatchdog : Nat := 16
def causeBreak : Nat := 17
def causeTrapi : Nat := 18

/-- Where an access is performed (R186). -/
inductive Place where
  /-- a scratchpad byte: core and offset; `own` where the own window of R28 names it -/
  | spm (core off : Nat) (own : Bool)
  /-- remote window and offset (R29) -/
  | win (w off : Nat)
  /-- engine port aperture: port and offset (R30) -/
  | port (p off : Nat)
  /-- package-local HBM or LPDDR-6 -/
  | mem (pa : Nat)
  /-- memory of another package -/
  | remote (pa : Nat)
  /-- host memory through the host port -/
  | host (pa : Nat)
  /-- device register -/
  | dev (off : Nat)
deriving DecidableEq, Repr, Inhabited

/-- The place of a physical address (R27). -/
def placeOf (node pa : Nat) : Except Trap Place :=
  let n := pa / 2 ^ 46 % 1024
  let a := pa % 2 ^ 46
  if 576 ≤ n then .error (causeAccess, 5)
  else if isHbm a || isLpddr a then .ok (if n = node then .mem a else .remote pa)
  else if isHostRange a then .ok (if n = node then .host a else .remote pa)
  else if isDevReg a then .ok (if n = node then .dev (a - 0x3FFF00000000) else .remote pa)
  else .error (causeAccess, 5)

/-- First byte of the local window (R28). -/
def localBase : Nat := 0x00FFFF0000000000

def isLocal (va : Nat) : Bool := decide (localBase ≤ va) && decide (va < 0x0100000000000000)

/-- The place of a local-window offset for an access by `core` (R28). -/
def localPlace (core off : Nat) : Except Trap Place :=
  if off < 0x400000 then .ok (.spm core off true)
  else if 0x100000000 ≤ off && decide (off < 0x100000000 + 8 * 0x400000) then
    .ok (.spm (core / 8 * 8 + (off - 0x100000000) / 0x400000) (off % 0x400000) false)
  else if 0x200000000 ≤ off && decide (off < 0x200000000 + 16 * 0x400000) then
    .ok (.win ((off - 0x200000000) / 0x400000) (off % 0x400000))
  else if 0x8000000000 ≤ off && decide (off < 0x8000000000 + 0x15 * 0x1000) then
    .ok (.port ((off - 0x8000000000) / 0x1000) (off % 0x1000))
  else .error (causeAccess, 5)

/-! ### Translation (R97 to R102) -/

/-- What an access needs of its page (R100). -/
inductive Need where
  | rd | wr | ex
deriving DecidableEq, Repr, Inhabited

/-- The levels of the page table: level, lowest index bit, entries (R98). -/
def walkLevels : List (Nat × Nat × Nat) := [(4, 48, 256), (3, 39, 512), (2, 30, 512), (1, 21, 512), (0, 12, 512)]

/-- The walk from a table at `tbl` (R98 to R100): the leaf entry and its level, or the reason of R100. -/
def walk (s : State) (va : Nat) : Nat → List (Nat × Nat × Nat) → Except Nat (Nat × Nat)
  | _, [] => .error 4
  | tbl, (lvl, sh, n) :: rest =>
    let e := s.memNat (tbl + va / 2 ^ sh % n * 8) 8
    if e % 2 = 0 then .error 2
    else if bitsOf e 63 56 != 0 || bitsOf e 11 8 != 0 || bitsOf e 2 2 != 0 then .error 3
    else
      let leaf := bitsOf e 1 1 = 1
      let ppn := e / 2 ^ 12 % 2 ^ 44
      if (leaf && decide (3 ≤ lvl)) || (!leaf && lvl == 0) || (bitsOf e 6 6 == 1 && lvl != 0) then .error 4
      else if leaf then
        if ppn % 2 ^ (sh - 12) != 0 then .error 5 else .ok (e, lvl)
      else if ppn / 2 ^ 34 != s.node then .error 6
      else walk s va (ppn * 4096 % 2 ^ 46) rest

/-- The walk of a 4 KiB page in an aligned group of 16 of which one entry has CONTIG (R99, R100): where the entries do not form one
64 KiB page, any one of them may translate the access, a free choice (log 6). -/
def State.contigWalk (s : State) (tbl va : Nat) : State × Except Nat (Nat × Nat) :=
  let own := walk s va tbl walkLevels
  let near : Bool := match own with
    | .ok (_, l) => l == 0
    | .error _ => true
  if !near then (s, own) else
  let group := (List.range 16).map fun k => walk s (va / 65536 * 65536 + k * 4096) tbl walkLevels
  let contig (r : Except Nat (Nat × Nat)) : Bool := match r with
    | .ok (e, l) => l == 0 && bitsOf e 6 6 == 1
    | .error _ => false
  let fits (r : Except Nat (Nat × Nat)) (k : Nat) : Bool := match r, own with
    | .ok (e, 0), .ok (o, 0) => bitsOf e 15 12 == k && e - bitsOf e 15 12 * 4096 == o - bitsOf o 15 12 * 4096
    | _, _ => false
  if !group.any contig || group.zipIdx.all fun (r, k) => fits r k then (s, own)
  else
    let (c, s) := s.choose 16
    (s, ((group[c]?).getD own).map fun (e, l) => if l = 0 then (e - bitsOf e 15 12 * 4096 + va / 4096 % 16 * 4096, l) else (e, l))

/-- The physical address that a leaf gives (R98). -/
def leafPa (e lvl va : Nat) : Nat := (e / 2 ^ 12 % 2 ^ 44) * 4096 + va % 2 ^ (12 + 9 * lvl)

def Tlb.covers (t : Tlb) (core tenant va : Nat) : Bool := t.core == core && t.tenant == tenant && t.vpn == va / 4096

/-- Translate an address of the tenant of `core`'s die (R97, R101): the leaf and its level. A cached translation and the
walk may differ after a change of the table; which of the two is used is then a free choice (log 6). -/
def State.translate (s : State) (core va : Nat) : State × Except Trap (Nat × Nat) :=
  let d := s.dieAt (dieOf core)
  let (s, now) : State × Except Nat (Nat × Nat) :=
    if d.ptbase.toNat / 2 ^ 11 = 0 then (s, .error 2) else s.contigWalk (d.ptbase.toNat / 2 ^ 11 * 2 ^ 11 % 2 ^ 46) va
  let store (s : State) (r : Except Nat (Nat × Nat)) : State × Except Trap (Nat × Nat) :=
    match r with
    | .ok (e, l) => ({ s with tlb := { core, tenant := d.tenant, vpn := va / 4096, pte := e, level := l }
                                :: s.tlb.filter fun t => !t.covers core d.tenant va }, .ok (e, l))
    | .error r => (s, .error (causePageFault, r))
  match s.tlb.find? (·.covers core d.tenant va) with
  | none => store s now
  | some t =>
    match now with
    | .ok (e, l) =>
      if e = t.pte && l = t.level then (s, .ok (e, l))
      else let (c, s) := s.choose 2; if c = 0 then (s, .ok (t.pte, t.level)) else store s now
    | .error _ => let (c, s) := s.choose 2; if c = 0 then (s, .ok (t.pte, t.level)) else store s now

/-- The permission tests of R100, the supervisor test first. -/
def permTest (e : Nat) (sup : Bool) (need : Need) : Except Trap Unit :=
  let rd := bitsOf e 3 3 == 1
  let wr := bitsOf e 4 4 == 1
  let ex := bitsOf e 5 5 == 1
  if bitsOf e 7 7 = 1 && !sup then .error (causeAccess, 2)
  else
    let ok := match need with
      | .rd => rd
      | .wr => wr && rd
      | .ex => ex
    if ok then .ok () else .error (causeAccess, 1)

/-- The owner-table offset of a package-local address (R512). -/
def granule (a : Nat) : Nat :=
  if isHbm a then a / 2 ^ 21
  else if isLpddr a then 0x400000 + (a - 0x100000000000) / 2 ^ 21
  else 0x800000 + (a - 0x200000000000) / 2 ^ 21

/-- The owner of an address as the checks of R498 find it: the byte of the table, or one that a write has replaced and whose copies have
not all been changed (R512, R521). -/
def State.ownerOf (s : State) (a : Nat) : Nat :=
  match s.ownerOld.find? (·.granule == granule a) with
  | some o => o.byte.toNat
  | none => (smGet 0 s.owner (granule a)).toNat

/-- The home slice's test of an access from a die of this package (R498). -/
def State.ownerOk (s : State) (tenant a : Nat) : Bool := tenant == s.ownerOf a || tenant == 0

/-- TRAP_AUX of a token failure (R499). -/
def tokenAux (late kind die node : Nat) : Nat := late * 2 ^ 16 + kind * 2 ^ 13 + die * 2 ^ 10 + node

/-- The place of a translated access, after R97, R100 and R27. Device registers of another package are for supervisor context only, as
those of this one are (R27, R508). -/
def State.pagePlace (s : State) (core : Nat) (sup : Bool) (need : Need) (va : Nat) : State × Except Trap Place :=
  if 2 ^ 56 ≤ va then (s, .error (causePageFault, 1)) else
  let (s, r) := s.translate core va
  match r with
  | .error t => (s, .error t)
  | .ok (e, l) =>
    match permTest e sup need with
    | .error t => (s, .error t)
    | .ok () => (s, placeOf s.node (leafPa e l va))

/-- The tests of a place before the access is made there: the home slice's of the owner (R498), with the KIND of R499, and supervisor
context for device registers of another package (R27, R508). -/
def State.placeOk (s : State) (core : Nat) (sup : Bool) (kind : Nat) (p : Place) : Except Trap Place :=
  match p with
  | .mem a | .host a =>
    if s.ownerOk (s.tenantOf core) a then .ok p else .error (causeTenantKey, tokenAux 0 kind (homeOf a).1 s.node)
  | .remote pa => if isDevReg (pa % 2 ^ 46) && !sup then .error (causeAccess, 2) else .ok p
  | _ => .ok p

/-- The place of a translated access (R97, R100, R27, R498). -/
def State.globalPlace (s : State) (core : Nat) (sup : Bool) (need : Need) (kind va : Nat) : State × Except Trap Place :=
  match s.pagePlace core sup need va with
  | (s, .ok p) => (s, s.placeOk core sup kind p)
  | r => r

/-- The place of any access of `core` (R97, R186). -/
def State.place (s : State) (core : Nat) (sup : Bool) (need : Need) (kind : Nat) (va : Word) : State × Except Trap Place :=
  if isLocal va.toNat then (s, localPlace core (va.toNat - localBase))
  else s.globalPlace core sup need kind va.toNat

/-! ### The L1 (R24) -/

def sectorBytes (v : BitVec 128) : List Byte := leBytes 16 v.toNat

/-- Lines that an L1 of 256 KiB holds, and words of instruction memory (R18). -/
def l1Lines : Nat := 2048
def imemWords : Nat := 65536

/-- Room for one more line in the L1 (R24): where it is full, one that is held is dropped, by a free choice. -/
def State.l1Room (s : State) (core line : Nat) : State :=
  if (s.coreAt core).l1.length < l1Lines then s else
  let lines := ((s.coreAt core).l1.map fun p => p.1 / 8).eraseDups.filter (· != line)
  if lines.length < l1Lines then s
  else
    let (c, s) := s.choose lines.length
    s.modCore core fun x => { x with l1 := x.l1.filter fun p => some (p.1 / 8) != lines[c]? }

/-- The number of an injected granule of a unit of a core (R519). -/
def injKey (unit k : Nat) : Nat := unit * 2 ^ 64 + k

/-- The check values injected into granules of a unit that are written whole are replaced (R466). -/
def Core.rewritten (c : Core) (unit : Nat) (whole : Nat → Bool) : SMap Nat :=
  if c.inj.isEmpty then [] else c.inj.filter fun p => !(p.1 / 2 ^ 64 == unit && whole (p.1 % 2 ^ 64))

/-- A line of 128 bytes enters the L1 (R24). -/
def State.putLine (s : State) (core line : Nat) (sector : Nat → BitVec 128) : State :=
  (s.l1Room core line).modCore core fun c =>
    { c with l1 := (List.range 8).foldl (fun m i => smPut m (line * 8 + i) (sector i)) c.l1
             stale := c.stale.filter fun k => k / 8 != line
             inj := c.rewritten 2 fun g => g / 16 == line }

/-- The sectors of a line as they stand at the home. -/
def State.fillLine (s : State) (core line : Nat) : State :=
  s.putLine core line fun i => BitVec.ofNat 128 (s.memNat (line * 128 + i * 16) 16)

/-- Bytes under a bit mask: the new value where the mask has a one, else the old one (R94). -/
def maskByte (old new mask : Byte) : Byte := (old &&& ~~~mask) ||| (new &&& mask)
def maskBytes (old new mask : List Byte) : List Byte := (old.zip (new.zip mask)).map fun (o, n, m) => maskByte o n m

/-- Bytes of a store or of an engine's write, with their bit masks, update a present L1 copy (R24, R94). -/
def l1Update (l1 : SMap (BitVec 128)) (pa : Nat) (bs : List (Byte × Byte)) : SMap (BitVec 128) :=
  if l1.isEmpty then l1 else
  l1.map fun (n, v) =>
    if n * 16 + 16 ≤ pa || pa + bs.length ≤ n * 16 then (n, v)
    else (n, BitVec.ofNat 128 (leNat ((sectorBytes v).zipIdx.map fun (b, i) =>
      if pa ≤ n * 16 + i then match bs[n * 16 + i - pa]? with
        | some (x, m) => maskByte b x m
        | none => b
      else b)))

def State.updateL1 (s : State) (core pa : Nat) (bs : List (Byte × Byte)) : State :=
  let whole (g : Nat) : Bool := decide (pa ≤ g * 8) && decide (g * 8 + 8 ≤ pa + bs.length) && ((bs.drop (g * 8 - pa)).take 8).all (·.2 == 0xFF)
  if (s.coreAt core).l1.isEmpty then s else s.modCore core fun c => { c with l1 := l1Update c.l1 pa bs, inj := c.rewritten 2 whole }

/-- The same for whole bytes. -/
def State.updateBytes (s : State) (core pa : Nat) (bs : List Byte) : State := s.updateL1 core pa (bs.map fun b => (b, 0xFF))

/-- Drop the L1 sectors that touch the bytes from `pa` to `pa + n - 1`. -/
def State.dropL1 (s : State) (core pa n : Nat) : State :=
  if (s.coreAt core).l1.isEmpty then s else
  s.modCore core fun c => { c with l1 := c.l1.filter fun (k, _) => k * 16 + 16 ≤ pa || pa + n ≤ k * 16 }

/-- A load of `n` bytes, within one sector, of package memory (R24, R185): from the L1 or the home as the hint directs.
The core's own stores to the line are performed first (R75). Where a copy differs from the home, whether the line is
still in the L1 is a free choice, since nothing fixes when a line is replaced; a copy that a load at the home has found older has been
replaced when it is loaded next, since loads do not go back (R75, log 7). -/
def State.loadMem (s : State) (core pa n hint : Nat) : State × List Byte :=
  let s := s.performWhere fun x => x.core == core && x.touches (pa / 128)
  let home := s.memBytes pa n
  match smFind (s.coreAt core).l1 (pa / 16) with
  | none => (if hint = 0 then s.fillLine core (pa / 128) else s, home)
  | some v =>
    let cached := (sectorBytes v).drop (pa % 16) |>.take n
    if cached = home then (s, home)
    else if hint = 2 then (s.modCore core fun c => { c with stale := if c.stale.contains (pa / 16) then c.stale else pa / 16 :: c.stale }, home)
    else
      let (c, s) := s.choose 2
      if c = 0 && !(s.coreAt core).stale.contains (pa / 16) then (s, cached)
      else (if hint = 0 then s.fillLine core (pa / 128) else s.dropL1 core pa n, home)

/-- A load that meets injected L1 granules: an uncorrectable one invalidates its sector (R465). -/
def State.scanL1 (s : State) (core task pa n : Nat) : State × ReadFate :=
  if (s.coreAt core).inj.isEmpty then (s, .ok) else
  (List.range ((pa + n + 7) / 8 - pa / 8)).foldl (fun (s, f) i =>
    let g := pa / 8 + i
    let c := s.coreAt core
    match smFind c.inj (injKey 2 g), smFind c.l1 (g / 2) with
    | some syn, some v =>
      let s := s.modCore core fun c => { c with inj := smDel c.inj (injKey 2 g) }
      match s.injFate 64 with
      | (s, .agrees) => (s, f)
      | (s, .corrected x) =>
        let s := s.modCore core fun c => { c with l1 := smPut c.l1 (g / 2) (v ^^^ BitVec.ofNat 128 (x * 2 ^ (64 * (g % 2)))) }
        (s.corrected (dieOf core) 2 (g * 8) (syn % 256) (s.tenantOf core) task, f)
      | (s, .bad) => (s.dropL1 core (g * 8) 8, if f = .ok then .consumed 2 (g * 8) else f)
    | _, _ => (s, f)) (s, .ok)

end Sys2Proof.Machine
end

