-- ==== Sys2Proof/Machine/Gateway.lean ====
section
/-!
DEFINITION. What the accesses of a die need of its gateway and of the host port: requests to other packages (R480, R481, R489), host
reads (R440), back-invalidate snoops (R441), and the issue of posted remote writes (R90, R492).
-/
namespace Sys2Proof.Machine

/-- The physical address by which flits name a scratchpad byte (R481). -/
def spmFlitAddr (node core off : Nat) : Nat := node * 2 ^ 46 + 0x3FFE00000000 + core * 0x400000 + off


/-- The die that a flit address names (R481, R507). -/
def flitDie (addr : Nat) : Nat :=
  let a := addr % 2 ^ 46
  if isDevReg a then
    let o := a - 0x3FFF00000000
    if 0x10000 ≤ o && decide (o < 0x40000) then o / 0x1000 % 8
    else if 0x100000 ≤ o && decide (o < 0x120000) then (o - 0x100000) / 0x4000
    else 0
  else if 0x3FFE00000000 ≤ a then (a - 0x3FFE00000000) / 0x400000 / 48
  else (homeOf a).1

/-- Put flits before a die's injection port (R485); the gateway inserts the token (R497). -/
def State.inject (s : State) (die : Nat) (fs : List Flit) : State :=
  s.modDie die fun d => { d with inject := d.inject ++ fs.map fun f =>
    if f.tc = 0 then { f with token := smGet 0 d.token f.tenant } else f }

/-- The message number of the request numbered `id`: none of an unacknowledged message of its gateway (R479). -/
def State.freeMsg (s : State) (die id : Nat) : Nat :=
  let used := (s.reqs.filter fun r => r.die == die && !r.toHost).map (·.msgid)
  (((List.range (used.length + 1)).map fun k => (id + k) % 65536).find? fun m => !used.contains m).getD (id % 65536)

/-- SSTR of a request (R479): the strand that issues it, where it is a strand's own. -/
def ReqOwner.sstr : ReqOwner → Nat
  | .strand n | .fetch n _ => n
  | _ => 0x7FF

/-- A new request of a die (R479, R489), of these flits: its number. -/
def State.sendFlits (s : State) (die : Nat) (owner : ReqOwner) (f : Flit) (va : Word) (len : Nat) (fs : List Flit) : State × Nat :=
  let id := s.nextId
  let msgid := s.freeMsg die id
  let flits := fs.zipIdx.map fun (g, i) => { g with snode := s.node, sdie := die, msgid, flast := fs.length - 1, fidx := i }
  let r : Req := { id, msgid, die, op := f.op, addr := f.addr, va, tenant := f.tenant, len, owner, flits }
  (({ s with nextId := id + 1, reqs := s.reqs ++ [r] } : State).inject die flits, id)

/-- The same with one header for every payload. -/
def State.request (s : State) (die : Nat) (owner : ReqOwner) (f : Flit) (va : Word) (len : Nat) (payloads : List (List Byte)) :
    State × Nat :=
  s.sendFlits die owner f va len (payloads.map fun p => { f with payload := p })

/-- The header of a request to an address (R481). -/
def flitTo (op addr tenant : Nat) : Flit :=
  { op, addr, tenant, dnode := addr / 2 ^ 46 % 1024, ddie := flitDie addr }

/-- A READ request (R480). -/
def State.requestRead (s : State) (die : Nat) (owner : ReqOwner) (addr tenant len : Nat) (va : Word) : State × Nat :=
  s.request die owner { flitTo 3 addr tenant with sstr := owner.sstr } va len [leBytes 2 len]

/-- A read of host memory (R440): the request waits for a completion. -/
def State.requestHost (s : State) (die : Nat) (owner : ReqOwner) (addr tenant len : Nat) (va : Word) : State × Nat :=
  let id := s.nextId
  let r : Req := { id, die, op := 3, addr, va, tenant, len, owner, toHost := true }
  let a := addr % 2 ^ 46 - 0x200000000000
  ({ s with nextId := id + 1, reqs := s.reqs ++ [r], out := s.out ++ [.hostRead id (s.hostFnOf tenant) a (s.pasidOf tenant) len]
            ats := if s.ats.contains (a / 4096) then s.ats else s.ats ++ [a / 4096] }, id)

/-- Ask other packages and the host for bytes, one request for each line of 128 bytes (R480): flit address, and 0 for another package, 1
for a host line that enters the L1, so is asked for whole, 2 for the host. -/
def State.askLines (s : State) (die tenant : Nat) (owner : ReqOwner) (need : List (Nat × Nat)) : State × List Nat :=
  ((need.map fun p => (p.1 / 128, p.2)).eraseDups).foldl (fun (s, ids) (l, host) =>
    let mine := (need.filter fun p => p.1 / 128 == l).map (·.1)
    let lo := mine.foldl min (l * 128 + 127)
    let hi := mine.foldl max (l * 128)
    let (s, id) :=
      if host = 0 then s.requestRead die owner lo tenant (hi + 1 - lo) 0
      else if host = 1 then s.requestHost die owner (l * 128) tenant 128 0
      else
        let (s, id) := s.requestHost die owner lo tenant (hi + 1 - lo) 0
        ({ s with reqs := s.reqs.map fun r => if r.id = id then { r with nofill := true } else r }, id)
    (s, ids ++ [id])) (s, ([] : List Nat))

/-- A line of which the host may hold a modified copy must be snooped first (R441). -/
def State.snoopLine (s : State) (line : Nat) : State :=
  if s.snooped.contains line then s else { s with snooped := s.snooped ++ [line], out := s.out ++ [.snoop line] }

/-! ### Posted remote writes (R90, R492) -/

/-- A store of strand `n` to a line of package `node` must wait (R492). -/
def State.streamFull (s : State) (n node line : Nat) : Bool :=
  let mine := s.posted.filter fun p => p.strand == n && !p.engine && p.pa / 2 ^ 46 == node
  let lines := (mine.map fun p => p.pa / 128).eraseDups
  decide (128 ≤ mine.length) || (decide (16 ≤ lines.length) && !lines.contains line)

/-- The data and the mask of a WRITEM flit: one bit per data bit (R480). -/
def lineData (off : Nat) (bs mask : List Byte) : List Byte :=
  ((List.range 128).map fun i => if off ≤ i then (bs[i - off]?).getD 0 else 0) ++
  ((List.range 128).map fun i => if off ≤ i then (mask[i - off]?).getD 0 else 0)

/-- Issue a posted write of strand `n` to a flit address (R90, R480, R492): `q` names the store or the entry it belongs to. An engine's is
in no stream: SSTR 0x7FF, and no predecessor (R479). -/
def State.postFor (s : State) (n : Nat) (q : Posted) : State :=
  let x := s.strandAt n
  let node := q.pa / 2 ^ 46
  let lseq := if q.engine then 0 else (smGet 255 x.lseq node + 1) % 256
  let prev := match (s.posted.filter fun p => p.strand == n && !p.engine && p.pa / 128 == q.pa / 128).getLast? with
    | some p => if q.engine then lseq else p.lseq
    | none => lseq
  let s := if q.engine then s else s.setStrand n { x with lseq := smPut x.lseq node lseq }
  let mask := if q.mask.isEmpty then q.bytes.map fun _ => 0xFF else q.mask
  let (s, id) :=
    if node = s.node then (({ s with nextId := s.nextId + 1 } : State), s.nextId)
    else s.request (dieOf q.core) (.posted n)
      { flitTo 2 (q.pa / 128 * 128) (s.tenantOf q.core) with sstr := if q.engine then 0x7FF else n, lseq, prev } (BitVec.ofNat 64 q.va) q.bytes.length
      [lineData (q.pa % 128) q.bytes mask]
  let s := { s with posted := s.posted ++ [{ q with id, strand := n, lseq, task := x.task, mask }] }
  match q.window with
  | some w => s.modCore q.core fun c => { c with outst := smSet 0 c.outst w (smGet 0 c.outst w + 1) }
  | none => s

end Sys2Proof.Machine
end

