-- ==== Sys2Proof/Machine/Bound.lean ====
section
/-!
DEFINITION. Scratchpads and their bound copies (R20, R23): the filling of bound lines from their homes, reads and writes of
scratchpad bytes, and write-back.
-/
namespace Sys2Proof.Machine

/-- The package-local address of a virtual one, without permission tests; none where it does not translate or lies in
another package. -/
def State.paOf (s : State) (core va : Nat) : Option Nat :=
  match (s.translate core va).2 with
  | .ok (e, l) => if leafPa e l va / 2 ^ 46 = s.node then some (leafPa e l va % 2 ^ 46) else none
  | .error _ => none

/-- What stops an access to bound bytes. -/
inductive FillStop where
  /-- a line's page or home raises this -/
  | trap (t : Trap)
  | consumed (unit addr : Nat)
  /-- another package, the host or a snoop must answer first -/
  | wait
deriving DecidableEq, Repr

/-- Bytes of a line that are not dirty take what the home gave (R23, R80). -/
def State.putFill (s : State) (core : Nat) (a : Attachment) (line : Nat) (bs : List Byte) : State × Attachment :=
  (bs.zipIdx.foldl (fun s (b, i) => if a.dirty.contains (line + i) then s else s.putSpm core (line + i) [b]) s,
   { a with filled := a.filled ++ [line], refetch := a.refetch.filter (· != line), asked := a.asked.filter (·.1 != line) })

/-- Fill line `line` of the attachment in sync slot `k` of strand `n` from its home (R23), in the context of the access that needs
it (R533). -/
def State.fillOne (s : State) (n k : Nat) (sup : Bool) (task : Nat) (a : Attachment) (line : Nat) : State × Attachment × Option FillStop :=
  let core := coreOf n
  let va := a.va + (line - a.base)
  match a.failed.find? (·.1 == line) with
  | some (_, c, x) => (s, { a with failed := a.failed.filter (·.1 != line) }, some (.trap (c, x)))
  | none =>
    match s.globalPlace core sup .rd 0 va with
    | (s, .error t) => (s, a, some (.trap t))
    | (s, .ok (.mem pa)) =>
      if s.held.contains (pa / 128) then (s.snoopLine (pa / 128), a, some .wait)
      else
        let s := s.performWhere fun x => x.core == core && x.touches (pa / 128)
        match s.scanMem (s.tenantOf core) task pa 128 with
        | (s, .poison addr st) =>
          (s.rasWrite (homeOf addr).1 { addr, info := 0, kind := 7, tenant := s.tenantOf core, unit := 5, stack := st, task }, a,
           some (.trap (causePoison, st)))
        | (s, .consumed u addr) => (s, a, some (.consumed u addr))
        | (s, .ok) => let (s, a) := s.putFill core a line (s.memBytes pa 128); (s, a, none)
    | (s, .ok (.remote pa)) =>
      if a.asked.any (·.1 == line) then (s, a, some .wait)
      else
        let (s, id) := s.requestRead (dieOf core) (.fill n k line) pa (s.tenantOf core) 128 (BitVec.ofNat 64 va)
        (s, { a with asked := a.asked ++ [(line, id)] }, some .wait)
    | (s, .ok (.host pa)) =>
      if a.asked.any (·.1 == line) then (s, a, some .wait)
      else
        let s := s.performWhere fun x => x.core == core && x.touches (pa / 128)
        let (s, id) := s.requestHost (dieOf core) (.fill n k line) pa (s.tenantOf core) 128 (BitVec.ofNat 64 va)
        (s, { a with asked := a.asked ++ [(line, id)] }, some .wait)
    | (s, .ok _) => (s, a, some (.trap (causeAccess, 5)))

/-- Fill lines in order until one stops. -/
def State.fillLines (s : State) (n k : Nat) (sup : Bool) (task : Nat) (a : Attachment) : List Nat → State × Attachment × Option FillStop
  | [] => (s, a, none)
  | l :: r =>
    match s.fillOne n k sup task a l with
    | (s, a, none) => s.fillLines n k sup task a r
    | x => x

/-- Run `f` on every attachment of the strands of `core`, with its strand and slot. -/
def State.mapBound (s : State) (core : Nat) (f : State → Nat → Nat → Attachment → State × Attachment) : State :=
  (List.range Config.slots).foldl (fun s i =>
    let n := core * Config.slots + i
    let x := s.strandAt n
    if x.sync.all fun p => p.2.att.isNone then s else
    x.sync.foldl (fun s (k, sl) =>
      match sl.att with
      | none => s
      | some a =>
        let (s, a) := f s n k a
        s.modStrand n fun x => { x with sync := smPut x.sync k { sl with att := some a } }) s) s

/-- Attachments of the strands of `core` that hold one of the bytes from `off` to `off + len - 1`: strand, slot, attachment. -/
def State.boundAt (s : State) (core off len : Nat) : List (Nat × Nat × SyncSlot × Attachment) :=
  (List.range Config.slots).flatMap fun i =>
    let n := core * Config.slots + i
    (s.strandAt n).sync.filterMap fun (k, sl) => sl.att.bind fun a =>
      if off + len ≤ a.base || decide (a.base + a.pages * 4096 ≤ off) then none else some (n, k, sl, a)

/-- An access touches scratchpad bytes: the bound lines that it touches for the first time fill (R23), in its context. -/
def State.touchSpm (s : State) (core off len : Nat) (sup : Bool) (task : Nat) : State × Option FillStop :=
  (s.boundAt core off len).foldl (fun (s, stop) (n, k, sl, a) =>
    if stop.isSome then (s, stop) else
    let lines := (List.range ((off + len + 127) / 128 - off / 128)).map fun i => (off / 128 + i) * 128
    let need := lines.filter fun l => decide (a.base ≤ l) && decide (l < a.base + a.pages * 4096) && !a.filled.contains l
    let (s, a, stop) := s.fillLines n k sup task a need
    (s.modStrand n fun x => { x with sync := smPut x.sync k { sl with att := some a } }, stop)) (s, none)

/-- Read scratchpad bytes for an agent that cannot fault or wait: bound lines that do not fill at once keep their bytes (log 49). -/
def State.readSpm (s : State) (core off n : Nat) : State × List Byte :=
  let s := (s.touchSpm core off n true 0).1
  (s, s.spmBytes core off n)

/-- Write scratchpad bytes: bound bytes become dirty, check bits follow R466. -/
def State.writeSpm (s : State) (core off : Nat) (bs : List Byte) : State :=
  let n := bs.length
  let s := if (s.coreAt core).spmSyn.isEmpty then s else
    let s := (s.coreAt core).spmSyn.foldl (fun s (g, syn) =>
      if g * 8 + 8 ≤ off || off + n ≤ g * 8 then s
      else match secdedRead syn.toNat with
        | some (some j) => s.putSpm core (g * 8) (leBytes 8 (fixWord (leNat (s.spmBytes core (g * 8) 8)) (some j)))
        | _ => s) s
    s.modCore core fun c => { c with spmSyn := synAfter c.spmSyn off n }
  let s := s.putSpm core off bs
  s.mapBound core fun s _ _ a =>
    if off + n ≤ a.base || decide (a.base + a.pages * 4096 ≤ off) then (s, a)
    else (s, { a with dirty := a.dirty ++ ((List.range n).map (off + ·)).filter fun b =>
                        decide (a.base ≤ b) && decide (b < a.base + a.pages * 4096) && !a.dirty.contains b })

/-- The dirty bytes of the 16-byte sector at `sec`, as runs: first byte and length. -/
def dirtyRuns (dirty : List Nat) (sec : Nat) : List (Nat × Nat) :=
  ((List.range 16).foldl (fun l i =>
    if !dirty.contains (sec + i) then l
    else match l with
      | (a, n) :: r => if a + n = sec + i then (a, n + 1) :: r else (sec + i, 1) :: l
      | [] => [(sec + i, 1)]) ([] : List (Nat × Nat))).reverse

/-- Write a run of dirty bytes back (R23): to a home of this package as a store on its way, to another package as a posted write, to
the host. With `skip`, what is impossible is discarded without fault, record or wait (R205). -/
def State.writeRun (s : State) (n : Nat) (sup skip : Bool) (a : Attachment) (run : Nat × Nat) : State × Option FillStop :=
  let core := coreOf n
  let va := a.va + (run.1 - a.base)
  let bs := s.spmBytes core run.1 run.2
  match s.globalPlace core sup .wr 1 va with
  | (s, .error t) => (s, if skip then none else some (.trap t))
  | (s, .ok (.mem pa)) | (s, .ok (.host pa)) =>
    if skip && (s.poisonOf (pa % 2 ^ 46 / 128)).isSome then (s, none)
    else
      let s := if s.held.contains (pa / 128) then s.snoopLine (pa / 128) else s
      ({ s with nextId := s.nextId + 1, stores := s.stores ++ [{ core, strand := n, va, pa, bytes := bs, id := s.nextId }] }, none)
  | (s, .ok (.remote pa)) =>
    if !skip && s.streamFull n (pa / 2 ^ 46) (pa / 128) then (s, some .wait)
    else
      let x := s.strandAt n
      (s.postFor n { id := 0, core, strand := n, window := none, va, pa, seq := x.seq, rid := x.curRid, bytes := bs }, none)
  | (s, .ok _) => (s, if skip then none else some (.trap (causeAccess, 5)))

/-- Write the dirty bytes of an attachment of strand `n` back to their homes, in 16-byte dirty sectors (R23, R79, R212). -/
def State.writeBack (s : State) (n : Nat) (sup skip : Bool) (a : Attachment) : State × Attachment × Option FillStop :=
  let runs := ((a.dirty.map (· / 16)).eraseDups).flatMap fun k => dirtyRuns a.dirty (k * 16)
  runs.foldl (fun (s, a, stop) run =>
    if stop.isSome then (s, a, stop) else
    match s.writeRun n sup skip a run with
    | (s, none) => (s, { a with dirty := a.dirty.filter fun b => !(decide (run.1 ≤ b) && decide (b < run.1 + run.2)) }, none)
    | (s, some x) => (s, a, some x)) (s, a, none)

/-- The invariant of R89: an access to a byte in [watermark, E) of an active range of the core waits. -/
def State.behindMark (s : State) (core off n : Nat) : Bool :=
  (s.coreAt core).chans.any fun (_, c) => c.active && decide (c.wmark < localBase + off + n) && decide (localBase + off < c.e)

end Sys2Proof.Machine
end

