-- ==== Sys2Proof/Machine/Ops.lean ====
section
/-!
DEFINITION. The named operations that the meanings share: regions and their inputs (spec 02, Regions), fixed-latency
results (spec 05), faults, trap entry and return (R230, R231, R246), replay (R464), a strand's leaving its slot (R205,
R65 to R67), and the scalar accesses of memory (R185 to R192).
-/
namespace Sys2Proof.Machine

/-- The end of every meaning: the next state. -/
abbrev Out1 := Host.Outcome State Fault Refusal
def done (s : State) : Out1 := .next s

/-! ### Region inputs (R63) -/

/-- The inputs as the strand's registers stand. -/
def Strand.capture (x : Strand) : Inputs :=
  { s := x.now.s, g := x.now.g, lc := x.now.lc, f := x.now.f, t := x.now.t, lanes := x.now.lanes,
    vflags := x.now.vflags, mflags := x.now.mflags, cls := x.now.cls, rmode := x.now.rmode, srSeed := x.now.srSeed,
    sync := x.sync }

/-- A slot's recorded state with the fill state that its attachment has now. -/
def keepFill (now : SMap SyncSlot) (k : Nat) (sl : SyncSlot) : SyncSlot :=
  match sl.att, (smFind now k).bind (·.att) with
  | some a, some b => if a.base = b.base && a.pages = b.pages && a.va = b.va then { sl with att := some b }
                      else { sl with att := some { a with filled := [], dirty := [] } }
  | some a, none => { sl with att := some { a with filled := [], dirty := [] } }
  | none, _ => sl

/-- The strand with a region's inputs restored: unselected registers and branch targets read zero (R63). -/
def Strand.restore (x : Strand) (mask : BitVec 64) (i : Inputs) : Strand :=
  { x with
    now := { x.now with
      s := i.s.filter fun p => mask.getLsbD p.1, g := i.g, bt := [], lc := i.lc, f := i.f, t := i.t, lanes := i.lanes,
      vflags := i.vflags, mflags := i.mflags, cls := i.cls, rmode := i.rmode, srSeed := i.srSeed }
    sync := i.sync.map fun (k, sl) => (k, keepFill x.sync k sl)
    btWait := [] }

/-- Whether work of region `rid` is outstanding. -/
def Strand.regionBusy (x : Strand) (rid : Nat) : Bool :=
  x.board.any (·.rid == rid) || x.queues.any fun q => q.2.any (·.rid == rid)

/-- Forget the regions that are complete (R62): closed, no work outstanding, and checked where a check is due. -/
def Strand.prune (x : Strand) : Strand :=
  { x with regions := x.regions.filter fun r => !r.closed || x.regionBusy r.rid || (r.expCycles != 0 && !r.checked) }

/-- Open a region at `entry` (R59); the innermost one before it closes. -/
def Strand.openRegion (x : Strand) (r : Region) : Strand :=
  let x := { x with
    regions := x.regions.map (fun (q : Region) => { q with closed := true }) ++
      [{ r with rid := x.nextRid, openSeq := x.seq, inputs := x.capture }]
    nextRid := x.nextRid + 1 }
  x.prune

/-- A commit-class instruction has executed: its region closes, earlier ones are complete, and an implicit region opens
at the next bundle (R59, R60). -/
def Strand.commitClose (x : Strand) : Strand :=
  let x := { x with seq := x.seq + 1, regions := [], commit := false, unseen := [] }
  x.openRegion { entry := x.pc }

/-! ### Landing of results (R151 to R156) -/

/-- A write lands in s(n), and in the inputs of every region opened after its issue (R63). -/
def Strand.landS (x : Strand) (seq n : Nat) (v : Word) : Strand :=
  { x with
    now := x.now.setS n v
    regions := x.regions.map fun r =>
      if seq < r.openSeq then { r with inputs := { r.inputs with s := if n = 0 then r.inputs.s else smSet 0 r.inputs.s n v } }
      else r }

def Strand.landT (x : Strand) (seq n : Nat) (v : Desc) : Strand :=
  { x with
    now := x.now.setT n v
    regions := x.regions.map fun r =>
      if seq < r.openSeq then { r with inputs := { r.inputs with t := smSet 0 r.inputs.t n v } } else r }

/-- One late result lands. After a clash either of the two results may remain (R153). -/
def State.landLate (s : State) (n : Nat) (l : Late) : State :=
  if l.clash then
    let (c, s) := s.choose 2
    if c = 0 then s.modStrand n (·.landS l.seq l.dst l.val) else s
  else s.modStrand n (·.landS l.seq l.dst l.val)

/-- `dist` bundle distances pass: the results whose bound is met land (R152), and branch targets become ready (R155). -/
def State.advance (s : State) (n dist : Nat) : State :=
  let x := s.strandAt n
  let due := x.late.filter (·.left ≤ dist)
  let s := s.setStrand n { x with
    late := (x.late.filter fun l => dist < l.left).map fun l => { l with left := l.left - dist }
    btWait := (x.btWait.map fun (k, d) => (k, d - dist)).filter (·.2 != 0) }
  due.foldl (fun s l => s.landLate n l) s

/-- Every outstanding fixed-latency result lands (R156). -/
def State.landAll (s : State) (n : Nat) : State :=
  let due := (s.strandAt n).late
  due.foldl (fun s l => s.landLate n l) (s.modStrand n ({ · with late := [] }))

/-- The registers that the slots of a bundle read: a register with a result still to land reads a free value (R151). -/
def State.latch (s : State) (n : Nat) : State × Regs :=
  let x := s.strandAt n
  x.late.foldl (fun (s, r) l => let (v, s) := s.draw; (s, r.setS l.dst (v.setWidth 64))) (s, x.now)

/-! ### Leaving a slot, cancelling and faulting a task (R65 to R67, R205) -/

/-- BARRIER of a sync object (R207): EXPECT, ARRIVED, PHASE. -/
structure Barrier where
  expect : Nat
  arrived : Nat
  phase : Nat
deriving DecidableEq, Repr

def State.barrier (s : State) (pa : Nat) : Barrier :=
  { expect := s.memNat (pa + 14) 2, arrived := s.memNat (pa + 12) 2, phase := s.memNat (pa + 8) 4 }

def State.setBarrier (s : State) (pa : Nat) (b : Barrier) : State :=
  s.writeObj 0 pa 8 (leBytes 4 b.phase ++ leBytes 2 b.arrived ++ leBytes 2 b.expect)

/-- Deregistration of a participant whose last arrival was `phase` (R212). -/
def deregister (b : Barrier) (phase : Nat) : Barrier :=
  let e := (b.expect + 65535) % 65536
  let a := if phase = b.phase then (b.arrived + 65535) % 65536 else b.arrived
  if 0 < e && a == e then { expect := e, arrived := 0, phase := (b.phase + 1) % 2 ^ 32 }
  else { expect := e, arrived := a, phase := b.phase }

/-- Release a sync slot as UNBIND with REG and SPM would, skipping what is impossible (R205). -/
def State.releaseSlot (s : State) (n : Nat) (sl : SyncSlot) : State :=
  let core := coreOf n
  let sup := (s.strandAt n).now.sup
  let s := match sl.att with
    | some a => (s.writeBack n sup true a).1
    | none => s
  if sl.reg then
    match (s.globalPlace core sup .wr 2 sl.obj.toNat).2 with
    | .ok (.mem pa) =>
      if (s.poisonOf (pa / 128)).isSome then s
      else let s := s.unsure pa; s.setBarrier pa (deregister (s.barrier pa) sl.phase.toNat)
    | _ => s
  else s

/-- Elements that a strand leaves in its input FIFOs, as the engines will take them (R222): EPUSH has executed. -/
def Strand.leftElems (x : Strand) (core : Nat) : List (Instr × Event) :=
  ((smGet [] x.inFifo 0x10).map fun v => (.cancelGroup, { agent := .host 0, n := dieOf core, k := v.toNat % 64 })) ++
  ((smGet [] x.inFifo 0x13).map fun v => (.newver, { agent := .host 0, n := dieOf core, v, status := core + 1 }))

/-- A strand leaves its slot for good: its sync slots are released and the slot becomes EMPTY (R52, R205). -/
def State.leaveSlot (s : State) (n : Nat) : State :=
  let s := (s.strandAt n).sync.foldl (fun s p => s.releaseSlot n p.2) s
  { (s.setStrand n { lseq := (s.strandAt n).lseq }) with later := s.later ++ (s.strandAt n).leftElems (coreOf n) }

/-- The strands of a task. -/
def State.strandsOf (s : State) (task : Nat) : List Nat :=
  (s.strands.filter fun p => p.2.live && p.2.task == task).map (·.1)

/-- The strand waits in one of the ways of R57 other than COMMIT, or in HALT (R229, log 38), on its executing slot. -/
def Strand.waitsNow (x : Strand) : Bool :=
  x.flight.isSome && (x.blocked == 1 || x.blocked == 2 || x.blocked == 3 || x.blocked == 4 || x.blocked == 5)

/-- Cancel one strand (R65): at once where it waits, else at its next region boundary. -/
def State.cancelStrand (s : State) (n : Nat) : State :=
  if (s.strandAt n).waitsNow then s.leaveSlot n else s.modStrand n ({ · with cancelling := true })

/-- Cancel a task (R65, R69): its status is CANCELLED unless a fault came first. -/
def State.cancelTask (s : State) (task : Nat) : State :=
  let s := s.modTask task fun t => if t.status = 0 then { t with status := 2 } else t
  (s.strandsOf task).foldl State.cancelStrand s

/-- Fault a task for strand `n` (R67): the first fault is recorded, the strand ends, and the others are cancelled. -/
def State.faultTask (s : State) (n cause : Nat) (pc info : Word) : State :=
  let task := (s.strandAt n).task
  let s := s.modTask task fun t => if t.status = 1 then t else { t with status := 1, cause, pc, info }
  let s := s.leaveSlot n
  (s.strandsOf task).foldl State.cancelStrand s

/-! ### Faults, trap entry, replay -/

/-- The region with a given number. -/
def Strand.region (x : Strand) (rid : Nat) : Region :=
  (x.regions.find? (·.rid == rid)).getD (x.regions.getLast?.getD { entry := x.pc })

/-- Everything the strand has in hand is dropped, as its regions are discarded (R62, R156). -/
def Strand.dropWork (x : Strand) : Strand :=
  { x with flight := none, blocked := 0, commit := false, board := [], queues := [], fault := none, stall := 0,
           wdog := 0, halted := false, wfi := false, waitObj := none, drain := none, acq := none, amo := none, amoOld := none, unseen := [] }

/-- The accumulator cells that discarded work wrote hold undefined values (R289). -/
def State.undefCells (s : State) (core : Nat) (rs : List (Nat × Nat)) : State :=
  rs.foldl (fun s (a, k) => (List.range k).foldl (fun s i =>
    let (v, s) := s.draw
    s.modCore core fun c => { c with acc := smSet 0 c.acc (a + i) (v.setWidth 32) }) s) s

/-- The cells written by region `rid` and the later ones (R62, R289). -/
def Strand.discards (x : Strand) (rid : Nat) : List (Nat × Nat) :=
  (x.regions.dropWhile (·.rid != rid)).flatMap (·.wrote)

/-- The regions of `l` are discarded. Where one has changed what it had read, they are remembered by rank and entry: executed
again, that one produces undefined values (R61). -/
def State.noteRedo (s : State) (n : Nat) (l : List Region) : State :=
  let x := s.strandAt n
  if (l.any fun r => r.broken || r.again) || (s.taskAt x.task).redo.any fun p => p.1 == x.gangRank then
    let mine := l.map fun r => (x.gangRank, r.entry, r.broken || r.again)
    s.modTask x.task fun t =>
      { t with redo := mine ++ t.redo.filter (fun p => !(mine.any fun q => q.1 == p.1 && q.2.1 == p.2.1)) }
  else s

/-- TAKING A TRAP (R230): restore the inputs of the faulting region, save cause, region entry, information and status,
enter supervisor context and continue at TVEC; or fault the task where no handler may take it. -/
def State.enterTrap (s : State) (n : Nat) (p : Pending) : State :=
  let s := s.landAll n
  let s := s.undefCells (coreOf n) ((s.strandAt n).discards p.rid)
  let x := s.strandAt n
  let r := x.region p.rid
  let tvec := (s.coreAt (coreOf n)).tvec
  if x.now.trapped || tvec = 0 then s.faultTask n p.cause r.entry p.info
  else
    let s := s.noteRedo n (x.regions.dropWhile (·.rid != p.rid))
    let x := (x.dropWork.restore r.mask r.inputs)
    let x := { x with
      now := { x.now with
        trapCause := BitVec.ofNat 64 (p.cause + r.id * 256), trapPc := r.entry, trapInfo := p.info, trapAux := p.aux,
        psup := x.now.sup, sup := true, trapped := true }
      pc := tvec, addr := tvec, regions := [] }
    s.setStrand n (x.openRegion { entry := tvec })

/-- Replay of a region that consumed an uncorrectable error (R464): it is entered again with its inputs, or the task is
faulted when its budget is spent. -/
def State.replayRegion (s : State) (n : Nat) (p : Pending) : State :=
  let s := s.landAll n
  let s := s.undefCells (coreOf n) ((s.strandAt n).discards p.rid)
  let x := s.strandAt n
  let r := x.region p.rid
  let d := dieOf (coreOf n)
  let unit := p.aux.toNat / 256 % 8
  let rec0 : RasRec := { addr := if p.replay = 3 then p.info.toNat else 0, info := r.entry.toNat, kind := p.replay, tenant := s.tenantOf (coreOf n), unit,
                         task := x.task }
  if r.replays < 2 then
    let s := (s.noteRedo n ((x.regions.dropWhile (·.rid != p.rid)).drop 1)).rasWrite d rec0
    let x := (x.dropWork.restore r.mask r.inputs)
    let r := { r with replays := r.replays + 1, closed := false, checked := false, sig := BitVec.allOnes 32, cycles := 0,
                      reopen := true, openSeq := x.seq, wrote := [], reads := [], writes := [], bts := [],
                      again := r.again || r.broken, broken := false, seen := true,
                      sdcReplay := r.sdcReplay || p.replay == 5 }
    s.setStrand n { x with pc := r.entry, regions := x.regions.takeWhile (·.rid != r.rid) ++ [r] }
  else (s.rasWrite d { rec0 with kind := 4 }).faultTask n causePoison r.entry p.info

/-- Nothing issued before the fault is outstanding, nor the check of an earlier region, so it can be reported (R246). -/
def Strand.faultReady (x : Strand) : Bool :=
  match x.fault with
  | none => false
  | some p => x.idle && x.flight.isNone && (x.regions.takeWhile (·.rid != p.rid)).all fun r => r.expCycles == 0 || r.checked

/-- Take the reported fault. -/
def State.takeFault (s : State) (n : Nat) : State :=
  match (s.strandAt n).fault with
  | none => s
  | some p => if p.replay ≠ 0 then s.replayRegion n p else s.enterTrap n p

/-- The issue number of slot `k` of a bundle (R136, R246): a commit-class instruction comes after the other slots (R60), and RGN
before them (R59). -/
def slotSeq (base k : Nat) (i : Instr) : Nat :=
  base + (if commitClass i then 5 else match i with
    | .rgn _ => 0
    | _ => k)

/-- The slots of a bundle that were issued before the work with number `seq`. -/
def Flight.before (f : Flight) (seq : Nat) : Option Flight :=
  match f.left.filter fun p => decide (slotSeq f.base p.1 p.2 < seq) with
  | [] => none
  | l => some { f with left := l }

/-- Work of strand `n` faults (R246): the strand stops issuing, later work is abandoned, the earliest fault is kept, and
it is taken as soon as earlier work has ended. -/
def State.recordFault (s : State) (n : Nat) (p : Pending) : State :=
  let x := s.strandAt n
  let keep := match x.fault with
    | some q => if q.seq ≤ p.seq then q else p
    | none => p
  let x := { x with
    fault := some keep, flight := x.flight.bind (·.before keep.seq), blocked := 0, commit := false
    queues := x.queues.map fun (k, l) => (k, l.filter fun e => decide (e.seq < keep.seq))
    board := x.board.filter fun b => decide (b.seq < keep.seq) }
  let s := s.setStrand n x
  if x.faultReady then s.takeFault n else s

/-- The executing slot of the current strand faults. -/
def State.raise (s : State) (t : Trap) (info : Word) : State :=
  s.recordFault s.cur { cause := t.1, info, aux := BitVec.ofNat 64 t.2, seq := s.st.seq, rid := s.st.curRid }

/-- The executing slot consumed an uncorrectable error of a unit (R464). -/
def State.consume (s : State) (unit : Nat) (addr : Word) : State :=
  s.recordFault s.cur { cause := causePoison, info := addr, aux := BitVec.ofNat 64 (0xF + unit * 256), seq := s.st.seq,
                        rid := s.st.curRid, replay := 3 }

/-- Return from a trap (R231): it reads STATUS and TRAP_PC as they stood at issue (R136), and the handler's regions that are incomplete
stay so. -/
def State.returnTrap (s : State) : State :=
  let x := s.st
  if !x.src.trapped then s.raise (causeAccess, 0x12) x.addr
  else
    let x := { x with now := { x.now with sup := x.src.psup, trapped := false }, pc := x.src.trapPc, nest := [] }
    s.setSt (x.openRegion { entry := x.pc })

/-- The executing slot waits, and is tried again (R57); `why` as in `Strand.blocked`. -/
def State.wait (s : State) (why : Nat) : State := s.modSt ({ · with blocked := why })

/-- The executing commit-class instruction waits in COMMIT (R52, R60). -/
def State.waitCommit (s : State) : State := s.modSt ({ · with commit := true, blocked := 6 })

/-- The executing slot's access to bound bytes stops: `info` is its address, and `wait` how it waits. -/
def State.fillStop (s : State) (x : FillStop) (info : Word) (wait : State → State := fun s => s.wait 1) : State :=
  match x with
  | .trap t => s.raise t info
  | .consumed u _ => s.consume u info
  | .wait => wait s

/-- A privileged encoding outside supervisor context (R141, R245). -/
def State.priv (s : State) (f : State → State) : State :=
  if s.st.src.sup then f s else s.raise (causeAccess, 0x10 + s.st.slotNo * 256) s.st.addr

/-- A taken branch (R132, R155, R198): the next bundle is the one at the target, and the strand is not ready until the
target is. -/
def State.branch (s : State) (bt : Nat) : State :=
  let x := s.st
  let t := x.src.getBt bt
  if t.toNat % 4 != 0 then s.raise (causeMisalign, 0) t
  else s.setSt { x with pc := t, stall := max x.stall (smGet 0 ((x.flight.map (·.btWait)).getD x.btWait) bt) }

/-! ### Commit-class instructions (R60) -/

/-- Every earlier piece of work has completed and the checks of the current region have passed. -/
def Strand.mayCommit (x : Strand) : Bool :=
  x.idle && x.regions.all fun r => r.expCycles == 0 || r.checked

/-- Run a commit-class instruction once earlier work has ended; until then the strand stands in COMMIT (R52, R60). A
cancelled strand does not execute it (R65). -/
def State.commit (s : State) (f : State → State) : State :=
  let x := s.st
  if x.cancelling then (if x.idle then s.leaveSlot s.cur else s.waitCommit)
  else if x.mayCommit then f s
  else s.waitCommit

/-- The instruction has executed: its region closes. -/
def State.committed (s : State) : State := s.modSt Strand.commitClose

/-! ### Scalar accesses (R185 to R189) -/

/-- A scoreboarded value for s(d) (R154). -/
def State.boardS (s : State) (d : Nat) (v : Word) : State :=
  s.modSt fun x => { x with board := x.board ++
    [{ dst := .s d, val := some (v.setWidth 256), seq := x.seq, rid := x.curRid }] }

/-- A scoreboarded value that a reply will bring (R154). -/
def State.boardReq (s : State) (dst : Dest) (req size : Nat) (sext : Bool) (addr : Word) : State :=
  s.modSt fun x => { x with board := x.board ++
    [{ dst, val := none, seq := x.seq, rid := x.curRid, req, size, sext, addr }] }

/-- The innermost region executes again after it has changed what it had read (R61). -/
def Strand.again (x : Strand) : Bool := (x.regions.getLast?.map (·.again)).getD false

/-- The bytes that a store of the current strand writes: undefined where its region executes again (R61). -/
def State.produced (s : State) (bs : List Byte) : State × List Byte :=
  if s.st.again then let (v, s) := s.draw; (s, leBytes bs.length v.toNat) else (s, bs)

/-- The value of `n` loaded bytes (R185). -/
def loadVal (sext : Bool) (bs : List Byte) : Word :=
  let v := leNat bs
  let w := 8 * bs.length
  BitVec.ofNat 64 (if sext && decide (2 ^ (w - 1) ≤ v) then v + (2 ^ 64 - 2 ^ w) else v)

/-- The own window of a strand (R20): the bytes from `off` to `off + n - 1` lie in it. -/
def Strand.inWindow (x : Strand) (off n : Nat) : Bool := decide (x.spmBase ≤ off) && decide (off + n ≤ x.spmBase + x.spmLen)

/-- The target of a remote window (R29, R240): node and flat core, or the trap. -/
def State.winTarget (s : State) (core w : Nat) (store : Bool) : Except Trap (Nat × Nat) :=
  let v := (smGet 0 (s.coreAt core).win w).toNat
  let node := bitsOf v 25 16
  let cl := bitsOf v 8 6
  if bitsOf v 31 31 = 0 then .error (causeAccess, 6)
  else if 576 ≤ node || 6 ≤ cl then .error (causeAccess, 5)
  else if store && smGet 0 (s.coreAt core).allow w == 0 then .error (causeAccess, 6)
  else .ok (node, bitsOf v 11 9 * 48 + cl * 8 + bitsOf v 5 3)

end Sys2Proof.Machine
end

