-- ==== Sys2Proof/Machine/DevRegs.lean ====
section
/-!
DEFINITION. The device register range (R507 to R514, R40, R458, R461, R522): which register an offset names, who may
reach it (R508), what a read returns and clears (R8), and which row of the opcode table a write is.
-/
namespace Sys2Proof.Machine

/-- A device register. -/
inductive DevReg where
  /-- launch queue and offset in its block (R40) -/
  | lq (q o : Nat)
  | scrub
  /-- handover register of a die: 0 DTPTB, 8 DTENT, 16 DTCMD, 24 DTSTS (R522) -/
  | hand (d o : Nat)
  /-- task-control block (R458, R461) -/
  | tc (d o : Nat)
  /-- CORECTL of a flat core (R510) -/
  | core (c : Nat)
  /-- monitor block (R514) -/
  | mon (d o : Nat)
  /-- fabric block (R511) -/
  | fab (d o : Nat)
  /-- eight bytes of the owner table (R512) -/
  | owner (g : Nat)
deriving DecidableEq, Repr

/-- The register at an offset of the range (R507). -/
def devReg (off : Nat) : Option DevReg :=
  if off % 8 ≠ 0 then none
  else if off < 0x8000 then (if off % 0x1000 ≤ 0x40 then some (.lq (off / 0x1000) (off % 0x1000)) else none)
  else if off = 0x8000 then some .scrub
  else if 0x8100 ≤ off && decide (off < 0x8200) then some (.hand ((off - 0x8100) / 0x20) (off % 0x20))
  else if 0x10000 ≤ off && decide (off < 0x18000) then
    let o := off % 0x1000
    if o ≤ 0x10 || (decide (0x40 ≤ o) && decide (o ≤ 0x68)) then some (.tc (off / 0x1000 - 0x10) o) else none
  else if 0x20000 ≤ off && decide (off < 0x28000) then
    if off % 0x1000 < 8 * 48 then some (.core ((off / 0x1000 - 0x20) * 48 + off % 0x1000 / 8)) else none
  else if 0x30000 ≤ off && decide (off < 0x38000) then
    let o := off % 0x1000
    if o ≤ 0x90 || (decide (0xA0 ≤ o) && decide (o ≤ 0xC0)) then some (.mon (off / 0x1000 - 0x30) o) else none
  else if 0x100000 ≤ off && decide (off < 0x120000) then
    let o := off % 0x4000
    if o ≤ 8 || (decide (0x200 ≤ o) && decide (o < 0x400) && decide (o % 0x40 ≤ 0x30))
        || (decide (0x800 ≤ o) && decide (o < 0x1000)) || decide (0x2000 ≤ o) then
      some (.fab ((off - 0x100000) / 0x4000) o)
    else none
  else if 0x1000000 ≤ off && decide (off < 0x2000000) then some (.owner (off - 0x1000000))
  else none

def State.lqAt (s : State) (q : Nat) : LaunchQueue := smGet {} s.lqs q
def State.modLq (s : State) (q : Nat) (f : LaunchQueue → LaunchQueue) : State := { s with lqs := smPut s.lqs q (f (s.lqAt q)) }
def State.portAt (s : State) (p : Nat) : Port := smGet {} s.ports p
def State.modPort (s : State) (p : Nat) (f : Port → Port) : State := { s with ports := smPut s.ports p (f (s.portAt p)) }

/-- R508: a supervisor of tenant `t` may reach the register. -/
def State.devMay (s : State) (t : Nat) (write : Bool) (r : DevReg) : Bool :=
  t == 0 || match r with
  | .lq q _ => (s.lqAt q).tenant == t
  | .tc d o => decide (o ≤ 0x10) && (s.dieAt d).tenant == t
  | .core c => s.tenantOf c == t
  | .mon d _ => !write && (s.dieAt d).tenant == t
  | _ => false

/-- 16-bit samples packed four to a word (R514). -/
def pack16 (m : SMap (BitVec 16)) (w : Nat) : Word :=
  BitVec.ofNat 64 ((List.range 4).foldl (fun a i => a + (smGet 0 m (4 * w + i)).toNat * 2 ^ (16 * i)) 0)

/-- Reset values of VRAIL come from fuses (R514, log 20). -/
def Die.vrailAt (d : Die) (v : Nat) : Word := smGet 0xFFFF00000000 d.vrail v

/-- A word of the monitor block (R514). -/
def Die.monWord (d : Die) (o : Nat) : Word :=
  if o < 0x40 then pack16 d.therm (o / 8)
  else if o < 0x80 then pack16 d.volt ((o - 0x40) / 8)
  else if o = 0x80 then pack16 d.proc 0
  else if o = 0x88 then d.mtime
  else if o = 0x90 then BitVec.ofNat 64 (d.stretchWin % 2 ^ 32 * 2 ^ 32 + d.stretch)
  else if o = 0xA0 then BitVec.ofNat 64 (d.thyst * 2 ^ 16 + d.ttrip * 2 ^ 8 + d.thot)
  else if 0xA8 ≤ o && o ≤ 0xC0 then d.vrailAt ((o - 0xA8) / 8)
  else 0

/-- LQ_CTL as it reads (R41). -/
def LaunchQueue.ctl (q : LaunchQueue) : Word :=
  BitVec.ofNat 64 (q.ncore * 2 ^ 32 + q.state * 2 ^ 6 + (if q.cancel then 8 else 0) + (if q.destroy then 4 else 0))

/-- LKSTS as it reads (R502). -/
def Port.sts (p : Port) : Word :=
  let ic := smGet 0 p.txic p.txAct
  BitVec.ofNat 64 (ic % 2 ^ 32 * 2 ^ 32 + p.afail * 2 ^ 16 + (if p.up then 2 ^ 9 else 0)
    + (if 2 ^ 32 - 2 ^ 20 ≤ ic then 2 ^ 8 else 0) + p.rxAct * 2 ^ 7 + p.txAct * 2 ^ 6 + p.rxV.toNat * 2 ^ 4
    + p.txV.toNat * 2 ^ 2)

/-- Bytes of the owner table that hold a granule (R512). -/
def ownerByte (g : Nat) : Bool :=
  decide (g ≤ 251770) || (decide (0x400000 ≤ g) && decide (g < 0x400000 + 2 ^ 19)) || decide (0x800000 ≤ g && g < 0x800000 + 2 ^ 23)

/-- A read of a device register: what it returns, and what it clears (R8). The reserved bits of DTPTB and DTENT are held for the test
of R523 and read as zero (R9, log 50); LKCTL.SWITCH starts its action at once, and what it reads as is a free value (R8, R502, log 50). -/
def State.devRead (s : State) (r : DevReg) : State × Word :=
  match r with
  | .lq q o =>
    let l := s.lqAt q
    (s, if o = 0 then l.base else if o = 8 then BitVec.ofNat 64 l.size else if o = 0x10 then BitVec.ofNat 64 l.head
      else if o = 0x18 then BitVec.ofNat 64 l.tail else if o = 0x20 then l.cbase
      else if o = 0x28 then BitVec.ofNat 64 l.chead else if o = 0x30 then BitVec.ofNat 64 l.ctail
      else if o = 0x38 then l.ctl else BitVec.ofNat 64 l.tenant)
  | .scrub => (s, BitVec.ofNat 64 (s.scrubPasses % 2 ^ 32 * 2 ^ 16 + s.scrubPeriod))
  | .hand d o =>
    let x := s.dieAt d
    (s, if o = 0 then x.dtptb &&& 0x00FFFFFFFFFFF800 else if o = 8 then x.dtent &&& 0x00FFFFFFFFFFFFFC else if o = 16 then 0
      else (x.dtsts &&& ~~~0xFF) ||| BitVec.ofNat 64 x.tenant)
  | .tc d o =>
    let x := s.dieAt d
    if o = 8 then (s, x.tcArea)
    else if o = 0x10 then (s, x.tcStatus)
    else if o = 0x40 then (s, BitVec.ofNat 64 (rasBase d))
    else if o = 0x48 then (s, BitVec.ofNat 64 x.rasHead)
    else if o = 0x50 then (s, BitVec.ofNat 64 x.rasTail)
    else if o = 0x58 then (s.setDie d { x with rasLost := 0 }, BitVec.ofNat 64 x.rasLost)
    else if o = 0x60 then
      (s.setDie d { x with rasCorr := [] },
       BitVec.ofNat 64 ((List.range 8).foldl (fun a u => a + smGet 0 x.rasCorr u * 2 ^ (8 * u)) 0))
    else if o = 0x68 then (s, (if x.corrLog then 1 else 0) + (if x.rasIe then 2 else 0))
    else (s, 0)
  | .core c =>
    let bit (k : Nat) (p : Strand → Bool) : Nat := if p (s.strandAt (c * 4 + k)) then 2 ^ k else 0
    (s, BitVec.ofNat 64 ((List.range 4).foldl (fun a k => a + bit k (·.live) * 2 ^ 8 + bit k (·.halted) * 2 ^ 4) 0))
  | .mon d o => (s, (s.dieAt d).monWord o)
  | .fab d o =>
    let x := s.dieAt d
    if o = 0 then (s, x.throttle)
    else if o = 8 then (s.setDie d { x with badFlit := 0, tokFail := 0 }, BitVec.ofNat 64 (x.badFlit * 2 ^ 32 + x.tokFail))
    else if o < 0x400 then
      let p := (o - 0x200) / 0x40 * 8 + d
      if o % 0x40 = 0x28 then
        let (c, s) := s.choose 2
        (s, (if (s.portAt p).inuse then 1 else 0) + BitVec.ofNat 64 (2 * c))
      else if o % 0x40 = 0x30 then (s.modPort p ({ · with afail := 0 }), (s.portAt p).sts)
      else (s, 0)
    else if o < 0x1000 then (s, 0)
    else
      let e := (o - 0x2000) / 2
      (s, BitVec.ofNat 64 ((List.range 4).foldl (fun a i =>
        a + (if (e + i) % 16 < 10 then smGet 0xFFFF x.share (e + i) else 0) * 2 ^ (16 * i)) 0))
  | .owner g => (s, BitVec.ofNat 64 ((List.range 8).foldl (fun a i => a + (smGet 0 s.owner (g + i)).toNat * 2 ^ (8 * i)) 0))

/-- The rows of the opcode table that a write of a device register is, in order. -/
def State.devWrites (s : State) (agent : Agent) (tenant off : Nat) (r : DevReg) (v : Word) : List (Instr × Event) :=
  let e : Event := { agent, tenant, n := off, v }
  match r with
  | .lq q o =>
    let e := { e with k := q }
    if o = 0x18 then [(.lqTail, e)]
    else if o = 0x30 then [(.lqCtail, e)]
    else if o = 0x38 then
      (.registerWrite, e) ::
        (match (s.lqAt q).state with
          | 0 => if v.getLsbD 1 then [(.lqCtlEnable, e)] else []
          | 1 => if v.getLsbD 2 then (if v.getLsbD 3 then [(.lqCtlDestroy, { e with status := 1 }), (.lqCtlCancel, e)] else [(.lqCtlDestroy, e)])
                 else []
          | _ => if v.getLsbD 3 then [(.lqCtlCancel, e)] else [])
    else [(.registerWrite, e)]
  | .hand d o => if o = 16 then [(.dtcmdGo, { e with k := d })] else [(.registerWrite, e)]
  | .tc d o =>
    if o = 0 then
      let e := { e with k := d }
      if (s.dieAt d).tcStatus.toNat % 8 = 1 then [(.tcCmd, e)] else
      match bitsOf v.toNat 34 32 with
      | 1 => [(.preempt, e)]
      | 2 => [(.resume, e)]
      | 3 => [(.discard, e)]
      | 4 => [(.fault, e)]
      | 5 => [(.gwsave, e)]
      | 6 => [(.gwrestore, e)]
      | _ => [(.tcCmd, e)]
    else [(.registerWrite, e)]
  | .core c => [(.corectlResume, { e with k := c })]
  | .fab d o =>
    let p := (o - 0x200) / 0x40 * 8 + d
    if 0x200 ≤ o && decide (o < 0x400) && o % 0x40 == 0x20 then [(.kload, { e with k := p })]
    else if 0x200 ≤ o && decide (o < 0x400) && o % 0x40 == 0x28 then
      (if v.getLsbD 0 != (s.portAt p).inuse then [(.lkctlInuse, { e with k := p })] else [])
        ++ (if v.getLsbD 1 then [(.lkctlSwitch, { e with k := p })] else [])
    else [(.registerWrite, e)]
  | .owner g => [(.ownerTableWrite, { e with k := g })]
  | _ => [(.registerWrite, e)]

/-- An access of a strand of this package (R508): the register, or the trap. -/
def State.devCheck (s : State) (sup : Bool) (tenant : Nat) (write : Bool) (off size : Nat) : Except Trap DevReg :=
  if !sup then .error (causeAccess, 2)
  else if size ≠ 8 then .error (causeAccess, 5)
  else match devReg off with
    | none => .error (causeAccess, 5)
    | some r => if s.devMay tenant write r then .ok r else .error (causeAccess, 5)

/-- The event waits and is taken again later. -/
def State.postpone (s : State) (i : Instr) : State := { s with later := s.later ++ [(i, s.ev)] }

/-- Post events to be taken before those that have arrived: what a host access is (R92). -/
def State.postFirst (s : State) (es : List (Instr × Event)) : State := { s with inbox := es ++ s.inbox }

/-- Post events to be taken after those that have arrived. -/
def State.post (s : State) (es : List (Instr × Event)) : State := { s with inbox := s.inbox ++ es }

end Sys2Proof.Machine
end

