-- ==== Sys2Proof/Machine/Send.lean ====
section
/-!
DEFINITION. Flits that a die sends back (R479, R480, R498), and posted remote writes: their issue by a strand, their
acknowledgement and their failure (R90, R492, R499).
-/
namespace Sys2Proof.Machine

/-- The header of a flit as a number of 256 bits (R479). -/
def Flit.header (f : Flit) : Nat :=
  f.age * 2 ^ 224 + f.token.toNat * 2 ^ 160 + f.addr * 2 ^ 104 + f.tenant * 2 ^ 96 + f.dnode * 2 ^ 86 + f.ddie * 2 ^ 83 + f.snode * 2 ^ 73
    + f.sdie * 2 ^ 70 + f.msgid * 2 ^ 54 + f.fidx * 2 ^ 48 + f.flast * 2 ^ 42 + f.tc * 2 ^ 40 + f.rsv * 2 ^ 39 + f.chan * 2 ^ 35
    + f.op * 2 ^ 28 + f.circ * 2 ^ 27 + f.sstr * 2 ^ 16 + f.lseq * 2 ^ 8 + f.prev

/-- Die `d` sends flits back to the source of `f` (R479, R480): class, operation, payloads. -/
def State.sendBack (s : State) (d : Nat) (f : Flit) (tc op : Nat) (payloads : List (List Byte)) : State :=
  s.inject d (payloads.zipIdx.map fun (p, i) =>
    { tc, op, tenant := f.tenant, dnode := f.snode, ddie := f.sdie, snode := s.node, sdie := d, msgid := f.msgid, fidx := i
      flast := payloads.length - 1, payload := p })

/-- An ACK (R480): byte 0, and the credits that it returns (R494). -/
def State.ack (s : State) (d : Nat) (f : Flit) (appended : Bool) (credits : Nat) : State :=
  s.sendBack d f 1 0x21 [leBytes 8 (if appended then 1 else 0) ++ leBytes 8 credits]

/-- A NAK with the header of the refused flit and a code (R480, R489). -/
def State.nak (s : State) (d : Nat) (f : Flit) (code : Nat) : State :=
  s.sendBack d f 2 0x40 [leBytes 32 f.header ++ [BitVec.ofNat 8 code]]

/-- What a flit address names on this package (R481). -/
inductive Target where
  | spm (core off : Nat)
  | mem (pa : Nat)
  | host (pa : Nat)
  | dev (off : Nat)
deriving DecidableEq, Repr

def State.target (s : State) (addr : Nat) : Option Target :=
  let a := addr % 2 ^ 46
  if addr / 2 ^ 46 % 1024 ≠ s.node then none
  else if 0x3FFE00000000 ≤ a && decide (a < 0x3FFE00000000 + Config.cores * 0x400000) then
    some (.spm ((a - 0x3FFE00000000) / 0x400000) ((a - 0x3FFE00000000) % 0x400000))
  else if isHbm a || isLpddr a then some (.mem a)
  else if isHostRange a then some (.host a)
  else if isDevReg a then some (.dev (a - 0x3FFF00000000))
  else none

/-- The owner of what a request touches (R498, R508). -/
def State.targetOwner (s : State) : Target → Nat
  | .spm core _ => s.tenantOf core
  | .mem a | .host a => s.ownerOf a
  | .dev _ => 0

/-- The receiving gateway's test of a request for something of `owner` (R498). -/
def State.tokenOk (s : State) (d : Nat) (f : Flit) (owner : Nat) : Bool :=
  let x := s.dieAt d
  f.token == smGet 0 x.token owner || (f.tenant == 0 && f.token == smGet 0 x.token 0)

/-- A request that fails the test (R498). -/
def State.nakToken (s : State) (d : Nat) (f : Flit) : State :=
  (s.modDie d fun x => { x with tokFail := min (x.tokFail + 1) (2 ^ 32 - 1) }).nak d f 2

/-- A flit is discarded and counted (R479, R480, R489). -/
def State.badFlit (s : State) (d : Nat) : State := s.modDie d fun x => { x with badFlit := min (x.badFlit + 1) (2 ^ 32 - 1) }

/-! ### Posted remote writes (R90, R492) -/

/-- Issue a posted write of the executing slot (R90). -/
def State.postWrite (s : State) (window : Option Nat) (va : Word) (pa : Nat) (bs : List Byte) : State :=
  let x := s.st
  s.postFor s.cur { id := 0, core := s.curCore, strand := s.cur, window, va := va.toNat, pa, seq := x.seq, rid := x.curRid, bytes := bs }

/-- A posted write is acknowledged (R90): its window's count falls. -/
def State.ackPosted (s : State) (id : Nat) : State :=
  match s.posted.find? (·.id == id) with
  | none => s
  | some p =>
    let s := { s with posted := s.posted.filter (·.id != id), reqs := s.reqs.filter (·.id != id) }
    match p.window with
    | some w => s.modCore p.core fun c => { c with outst := smSet 0 c.outst w (smGet 0 c.outst w - 1) }
    | none => s

/-- Fault a task whose strand can take no trap (R67, R499). -/
def State.faultTaskId (s : State) (task cause : Nat) (pc info : Word) : State :=
  let s := s.modTask task fun t => if t.status = 1 then t else { t with status := 1, cause, pc, info }
  (s.strandsOf task).foldl State.cancelStrand s

/-- A copy channel's entry stops at a fault (R312, R340). -/
def State.failChan (s : State) (core ch : Nat) : State :=
  s.modCore core fun c => { c with chans := smPut c.chans ch { (smGet {} c.chans ch) with active := false, faulted := true } }

/-- The queue entry that a posted write belongs to. -/
def State.entryOfPosted (s : State) (p : Posted) : Option Entry :=
  let l := if p.strand = 2047 then (s.coreAt p.core).apq else (s.strandAt p.strand).queues.flatMap (·.2)
  l.find? (·.seq == p.seq)

/-- A failed posted write is reported (R499): for its region, or late for the current one, or as a fault of the task. One of
a copy entry stops the entry (R340); one of the aperture queue faults nothing (R317); one of a command that has executed is for the
command's status (R246). -/
def State.reportPosted (s : State) (p : Posted) (cause aux lateBit : Nat) : State :=
  let entry := s.entryOfPosted p
  let s := match entry.bind fun e => mCode e.instr with
    | some (op, f) => if 0x40 ≤ op && op < 0x46 then s.failChan p.core (f.mode.toNat % 16) else s
    | none => s
  let late := entry.filter fun e => commitClass e.instr
  if late.isSome then s.modStrand p.strand fun x => { x with queues := x.queues.map fun (k, l) =>
      (k, l.map fun e => if e.seq = p.seq && late == some e then
        { e with failed := some (cause, if cause = causeTenantKey then aux % 2 ^ 13 + 3 * 2 ^ 13 else aux) } else e) }
  else
  let aux := if entry.isSome && cause == causeTenantKey then aux % 2 ^ 13 + 3 * 2 ^ 13 else aux
  if p.strand = 2047 then s.modCore p.core fun c => { c with apq := c.apq.filter (·.seq != p.seq) } else
  let x := s.strandAt p.strand
  if !x.live || x.task != p.task then s.faultTaskId p.task cause 0 (BitVec.ofNat 64 p.va)
  else if x.regions.any (·.rid == p.rid) && !x.now.trapped then
    s.recordFault p.strand { cause, info := BitVec.ofNat 64 p.va, aux := BitVec.ofNat 64 aux, seq := p.seq, rid := p.rid }
  else if x.now.trapped then s.faultTask p.strand cause (x.region x.curRid).entry (BitVec.ofNat 64 p.va)
  else s.recordFault p.strand
    { cause, info := BitVec.ofNat 64 p.va, aux := BitVec.ofNat 64 (aux + lateBit), seq := x.seq, rid := x.curRid }

/-- Perform a posted write of this package at its bank (R91), or refuse it by the test of R498. -/
def State.performPosted (s : State) (p : Posted) : State :=
  let off := p.pa % 2 ^ 46 - 0x3FFE00000000
  let core := off / 0x400000
  let s := s.ackPosted p.id
  if s.tenantOf p.core = s.tenantOf core || s.tenantOf p.core = 0 then
    let (s, old) := s.readSpm core (off % 0x400000) p.bytes.length
    s.writeSpm core (off % 0x400000) (maskBytes old p.bytes p.mask)
  else s.reportPosted p causeTenantKey (tokenAux 0 1 (dieOf core) s.node) (2 ^ 16)

/-- Perform the posted writes of a strand to a line of this package (R90). -/
def State.flushPosted (s : State) (n line : Nat) : State :=
  (s.posted.filter fun p => p.strand == n && p.pa / 128 == line && p.pa / 2 ^ 46 == s.node).foldl State.performPosted s

/-- REMOTE_WRITE_ACK (R90): a posted remote write is acknowledged to its core; one within the package is performed then,
in the order of its stream. -/
def execRemoteWriteAck (s : State) : Out1 :=
  done (match s.posted.find? (·.id == s.ev.n) with
    | none => s
    | some p => if p.pa / 2 ^ 46 = s.node then s.performPosted p else s.ackPosted p.id)

end Sys2Proof.Machine
end

