-- ==== Sys2Proof/Machine/Entries.lean ====
section
/-!
DEFINITION. Queue entries: the copies an entry takes at issue (R143, R533), the queue that receives it (R19, R146), and
commands pushed through the engine port aperture (R30, R31, R317).
-/
namespace Sys2Proof.Machine

/-- The count of a V entry (R142, R143): the register's value may exceed 65,535. -/
def vCount (r : Regs) (f : VFields) : Nat :=
  if f.ci = 1 then (r.getS (f.cnt.toNat % 64)).toNat else f.cnt.toNat

/-- The engine that an instruction's queue belongs to (R19, R146): 0 VE, 1 ME, 2 CE, 3 KE, 4 stash, 5 OE, 6 MBS. -/
def engineOf (i : Instr) : Option Nat :=
  match vCode i with
  | some _ => some 0
  | none =>
    match mCode i with
    | none => none
    | some (op, _) =>
      if op ≤ 9 then some 1 else if op < 0x47 then some 2 else if op < 0x50 then some 3 else if op < 0x54 then some 6
      else if op < 0x5D then some 4 else if op < 0x63 then some 5 else none

/-- The entry that an instruction makes, with its copies of the registers (R143) and its context (R533). -/
def makeEntry (r : Regs) (i : Instr) : Entry :=
  let base : Entry := { instr := i, sup := r.sup, rmode := r.rmode.toNat, srSeed := r.srSeed.toNat }
  match vCode i with
  | some (_, f) =>
    { base with
      runs := r.guard f.ga && r.guard f.gb
      d := [(0, r.getT f.td.toNat), (1, r.getT f.ts1.toNat), (2, r.getT f.ts2.toNat), (3, r.getT f.ts3.toNat)]
      o := [(0, r.getS f.od.toNat), (1, r.getS f.os.toNat)]
      cnt := vCount r f }
  | none =>
    match mCode i with
    | some (_, f) =>
      { base with
        runs := r.guard f.ga
        d := [(1, r.getT f.t1.toNat), (2, r.getT f.t2.toNat), (3, r.getT f.t3.toNat),
              (4, r.getT (f.imm.toNat / 2 ^ 22 % 64)), (5, r.getT (f.imm.toNat / 2 ^ 16 % 64))]
        o := [(1, r.getS f.o1.toNat), (2, r.getS f.o2.toNat), (3, r.getS f.o3.toNat)]
        cnt := f.n.toNat }
    | none => base

/-- The entry of the current strand. MNEST copies the strand's shadow nest table (R282). -/
def State.entryOf (s : State) (i : Instr) : Entry :=
  let x := s.st
  let e := { makeEntry x.src i with strand := some s.cur, core := s.curCore, seq := x.seq, rid := x.curRid, addr := x.addr }
  match i with
  | .mnest _ => { e with d := e.d ++ x.nest.map fun p => (p.1 + 8, p.2) }
  | _ => e

/-- A word assembled in the staging registers passes the checks made at the push: the MOP, the fields that R321 requires to be zero,
and R317 (R30). The push goes to the channel of its port; bits [118:96] and FL of a word with FE = 0, which no check reads, say
nothing, and a reserved selector is met by the CE (log 21). -/
def aperWord (port w : Nat) : Option Instr :=
  let mop := w / 2 ^ 184
  let w := if mop = 0x46 then w else w - bitsOf w 67 64 * 2 ^ 64 + port * 2 ^ 64
  if mop < 0x40 || decide (0x46 < mop) then none
  else
    let f := mFields w
    if f.fe = 1 || (lowBitOf w ((mZero mop f).filter (·.1 != 120))).isSome || bitsOf f.mode.toNat 16 13 != 0 && mop != 0x46
        || bitsOf f.mode.toNat 18 18 != 0 && mop != 0x46 then none
    else (mInstr mop (w / 2 ^ 64)).map fun mk => mk f

/-- A store, a posted write or a request that has not been performed or answered. -/
def State.outstanding (s : State) (id : Nat) : Bool := s.stores.any (·.id == id) || s.posted.any (·.id == id) || s.reqs.any (·.id == id)

/-- The scalar posted writes of strand `n`: those of no entry (R90). -/
def State.scalarPosted (s : State) (n : Nat) : List Posted := s.posted.filter fun p => p.strand == n && (s.entryOfPosted p).isNone

/-- The strand's scalar accesses so far come before what it does next, as a push or a fence orders them (R83, R86): its stores and its
posted writes within the package are performed, and the numbers of those that must still be performed or answered are listed. -/
def State.earlier (s : State) (n : Nat) : State × List Nat :=
  let s := s.performWhere fun x => x.strand == n
  let s := ((s.scalarPosted n).filter fun p => p.pa / 2 ^ 46 == s.node).foldl State.performPosted s
  (s, (s.stores.filter (·.strand == n)).map (·.id) ++ (s.scalarPosted n).map (·.id)
    ++ (s.strandAt n).board.filterMap fun b => if b.req != 0 && b.val.isNone then some b.req else none)

/-- What becomes of a store to an engine port page (R30, R31). -/
inductive AperFate where
  | accepted | refused | full
deriving DecidableEq, Repr

/-- A store to offset 0, 8 or 0x10 of port `port` of `core` (R30). The command's registers are those of the strand that
pushes; a host push has none (log 21). A push of strand `pusher` releases its earlier stores, as an M slot's does (R31, R86). -/
def State.aperture (s : State) (core port off : Nat) (v : Word) (r : Regs) (pusher : Option Nat := none) : State × AperFate :=
  let put (s : State) : State := s.modCore core fun c => { c with staging := smSet 0 c.staging (port * 4 + off / 8) v }
  if off ≠ 0x10 then (put s, .accepted)
  else
    let c := s.coreAt core
    let w := v.toNat * 2 ^ 128 + (smGet 0 c.staging (port * 4 + 1)).toNat * 2 ^ 64 + (smGet 0 c.staging (port * 4)).toNat
    match aperWord port w with
    | none => (put s, .refused)
    | some i =>
      if 16 ≤ c.apq.length then (s, .full)
      else
        let (s, after) := match pusher with
          | some n => (put s).earlier n
          | none => (put s, [])
        let e := { makeEntry r i with core, sup := true, seq := s.nextId, cycles := 16, after }
        (({ s with nextId := s.nextId + 1 } : State).modCore core fun c => { c with apq := c.apq ++ [e] }, .accepted)

/-- APERTURE_PUSH (R30, R31) by the host: core `n`, port page and offset `k`, value `v`. A refused push is counted in
APERT; an access of another kind is refused as R11 states. -/
def execAperturePush (s : State) : Out1 :=
  let e := s.ev
  let fn := match e.agent with
    | .host f => f
    | _ => 0
  let port := e.k / 0x1000
  let off := e.k % 0x1000
  done (if 16 ≤ port || !(off == 0 || off == 8 || off == 0x10) then s.countRefused fn
    else match s.aperture e.n port off e.v {} with
      | (s, .accepted) => s
      | (s, _) => s.countApert fn)

end Sys2Proof.Machine
end

