-- ==== Sys2Proof/Machine/Operands.lean ====
section
/-!
DEFINITION. Scalar operand forms: sign extension of immediates, the .W views of R177, bit fields (R182, R183), and the
forms of address (R185).
-/
namespace Sys2Proof.Machine

/-- A signed immediate (R139). -/
def simm {n : Nat} (i : BitVec n) : Word := i.signExtend 64

/-- The low 32 bits of a source (R177). -/
def lowW (a : Word) : BitVec 32 := a.setWidth 32

/-- A 32-bit result sign-extended to the register (R177). -/
def extW (v : BitVec 32) : Word := v.signExtend 64

/-- An operation of two sources in its 64-bit form and its .W form (R177, R180). -/
def byW (w : BitVec 1) (f64 : Word → Word → Word) (f32 : BitVec 32 → BitVec 32 → BitVec 32) (a b : Word) : Word :=
  if w = 1 then extW (f32 (lowW a) (lowW b)) else f64 a b

/-- Leading zero bits (R180). -/
def clzBits {n : Nat} (a : BitVec n) : Nat := if a.toNat = 0 then n else n - 1 - Nat.log2 a.toNat

/-- The lowest set bit, among `k` bits from `i` on. -/
def ctzFrom {n : Nat} (a : BitVec n) : Nat → Nat → Nat
  | 0, i => i
  | k + 1, i => if a.getLsbD i then i else ctzFrom a k (i + 1)

/-- Trailing zero bits (R180). -/
def ctzBits {n : Nat} (a : BitVec n) : Nat := ctzFrom a n 0

/-- One bits (R180). -/
def popBits {n : Nat} (a : BitVec n) : Nat := ((List.range n).filter fun i => a.getLsbD i).length

/-- Bit i moved to bit n - 1 - i (R180). -/
def revBits {n : Nat} (a : BitVec n) : BitVec n :=
  BitVec.ofNat n ((List.range n).foldl (fun acc i => if a.getLsbD i then acc + 2 ^ (n - 1 - i) else acc) 0)

/-- Sign or zero extension from bit `k` of a value of `n` bits (R180): 0 for k = 0, the whole value for k of n or more. -/
def extFrom {n : Nat} (sign : Bool) (a : BitVec n) (k : Nat) : BitVec n :=
  if k = 0 then 0 else if n ≤ k then a
  else
    let v := a.toNat % 2 ^ k
    BitVec.ofNat n (if sign && decide (2 ^ (k - 1) ≤ v) then v + (2 ^ n - 2 ^ k) else v)

/-- Signed and unsigned smaller and larger (R180). -/
def pickMin {n : Nat} (sign : Bool) (a b : BitVec n) : BitVec n := if (if sign then a.slt b else a.ult b) then a else b
def pickMax {n : Nat} (sign : Bool) (a b : BitVec n) : BitVec n := if (if sign then b.slt a else b.ult a) then a else b

/-- Division by zero gives all ones, and the remainder the dividend (R180). -/
def divS {n : Nat} (a b : BitVec n) : BitVec n := if b = 0 then BitVec.allOnes n else a.sdiv b
def divU {n : Nat} (a b : BitVec n) : BitVec n := if b = 0 then BitVec.allOnes n else a / b
def remS {n : Nat} (a b : BitVec n) : BitVec n := if b = 0 then a else a.srem b
def remU {n : Nat} (a b : BitVec n) : BitVec n := if b = 0 then a else a % b

/-- High half of a product (R180). -/
def mulHi {n : Nat} (sign : Bool) (a b : BitVec n) : BitVec n :=
  if sign then BitVec.ofInt n (a.toInt * b.toInt / (2 ^ n : Nat)) else BitVec.ofNat n (a.toNat * b.toNat / 2 ^ n)

def boolWord {n : Nat} (b : Bool) : BitVec n := if b then 1 else 0

/-- A bit field cut at bit 63 (R182). -/
def bitField (sign : Bool) (x : Word) (off width : Nat) : Word :=
  let w := min width (64 - off)
  extFrom sign (x >>> off &&& BitVec.ofNat 64 (2 ^ w - 1)) w

/-- Bit-field insertion cut at bit 63 (R183). -/
def bitInsert (d v : Word) (off width : Nat) : Word :=
  let w := min width (64 - off)
  let m : Word := BitVec.ofNat 64 (2 ^ w - 1) <<< off
  (d &&& ~~~m) ||| ((v <<< off) &&& m)

/-- Offset and width that BEXTR and BINSR take from s(rb) (R182). -/
def fieldOf (b : Word) : Nat × Nat := (b.toNat % 64, min (b.toNat / 256 % 256) 64)

/-- The format M address (R139, R185). -/
def addrM (base : Word) (i : BitVec 10) (z : BitVec 2) : Word := base + (simm i <<< z.toNat)

/-- The format X address (R185). -/
def addrX (base : Word) (x : BitVec 14) : Word := base + (x.setWidth 64 <<< 3)

/-- Access bytes of a size field (R139). -/
def sizeOf2 (z : BitVec 2) : Nat := 2 ^ z.toNat

/-- A compare's condition (R194). -/
inductive Cond where
  | eq | ne | lt | ge | ltu | geu | tst | ntst
deriving DecidableEq, Repr

def condHolds {n : Nat} (c : Cond) (a b : BitVec n) : Bool :=
  match c with
  | .eq => a == b
  | .ne => a != b
  | .lt => a.slt b
  | .ge => !a.slt b
  | .ltu => a.ult b
  | .geu => !a.ult b
  | .tst => a &&& b != 0
  | .ntst => a &&& b == 0

end Sys2Proof.Machine
end

