-- ==== Sys2Proof/Machine/ScalarMem.lean ====
section
/-!
DEFINITION. Majors 0x10 to 0x15: loads, stores and prefetch (R185 to R189), with the reads and writes of every place
(R186) that other instructions and the engines share.
-/
namespace Sys2Proof.Machine

/-- What a read obtains. -/
inductive Fetch where
  | bytes (l : List Byte)
  | trap (t : Trap)
  /-- an uncorrectable error of a unit would be consumed (R464) -/
  | consumed (unit addr : Nat)
  /-- the access waits; the code of `Strand.blocked` -/
  | wait (why : Nat)
  /-- a reply from another package or the host must bring the bytes: flit address -/
  | need (addr : Nat)
deriving DecidableEq, Repr

/-- Whose access it is: the core, the strand whose window and stores count, and whether it waits on watermarks (R89). -/
structure Who where
  core : Nat
  strand : Option Nat := none
  marks : Bool := true
  /-- its context (R533), for the lines that a bound copy fills -/
  sup : Bool := false
  task : Nat := 0
  /-- KIND of R499 for a failed owner check -/
  kind : Nat := 0

/-- A read of a poisoned line (R474): the record and the trap. -/
def State.poisonRead (s : State) (w : Who) (addr stack : Nat) : State × Fetch :=
  (s.rasWrite (homeOf addr).1 { addr, info := 0, kind := 7, tenant := s.tenantOf w.core, unit := 5, stack, task := w.task },
   .trap (causePoison, stack))

/-- Bytes of a scratchpad (R20, R23, R89, R465). -/
def State.fetchSpm (s : State) (w : Who) (core off n : Nat) (own : Bool) : State × Fetch :=
  let inWin := match w.strand with
    | some k => !own || (s.strandAt k).inWindow off n
    | none => true
  if !inWin then (s, .trap (causeAccess, 3))
  else if core = w.core && w.marks && s.behindMark core off n then (s, .wait 2)
  else match s.touchSpm core off n w.sup w.task with
    | (s, some (.trap t)) => (s, .trap t)
    | (s, some (.consumed u a)) => (s, .consumed u a)
    | (s, some .wait) => (s, .wait 1)
    | (s, none) =>
      match s.scanSpm core (s.tenantOf w.core) w.task off n with
      | (s, .consumed u a) => (s, .consumed u a)
      | (s, _) => (s, .bytes (s.spmBytes core off n))

/-- Bytes of package memory (R24, R185, R465, R474), in pieces of at most 8 bytes (R74). -/
def State.fetchMem (s : State) (w : Who) (pa n hint : Nat) : State × Fetch :=
  if s.held.any fun l => l == pa / 128 then (s.snoopLine (pa / 128), .wait 1)
  else match (match if hint = 2 then (s, ReadFate.ok) else s.scanL1 w.core w.task pa n with
      | (s, .ok) => s.scanMem (s.tenantOf w.core) w.task pa n
      | r => r) with
    | (s, .poison a k) => s.poisonRead w a k
    | (s, .consumed u a) => (s, .consumed u a)
    | (s, .ok) =>
      let k := min n 8
      let (s, l) := (List.range (n / k)).foldl (fun (s, l) i =>
        let (s, b) := s.loadMem w.core (pa + i * k) k hint
        (s, l ++ b)) (s, ([] : List Byte))
      (s, .bytes l)

/-- A read of host memory by core `w.core` (R24, R185): from a present L1 copy that no load has found older, or by the host, after the
core's own stores to the line. -/
def State.fetchHost (s : State) (w : Who) (pa n hint : Nat) : State × Fetch :=
  let s := s.performWhere fun x => x.core == w.core && x.touches (pa % 2 ^ 46 / 128)
  if hint = 2 then (s, .need pa)
  else match s.scanL1 w.core w.task (pa % 2 ^ 46) n with
    | (s, .ok) =>
      match smFind (s.coreAt w.core).l1 (pa % 2 ^ 46 / 16) with
      | some v =>
        if (s.coreAt w.core).stale.contains (pa % 2 ^ 46 / 16) then (s, .need pa)
        else (s, .bytes ((sectorBytes v).drop (pa % 16) |>.take n))
      | none => (s, .need pa)
    | (s, .consumed u a) => (s, .consumed u a)
    | (s, .poison a k) => s.poisonRead w a k

/-- A read of `n` bytes at a place (R186). -/
def State.fetchPlace (s : State) (w : Who) (p : Place) (n hint : Nat) : State × Fetch :=
  match p with
  | .spm core off own => s.fetchSpm w core off n own
  | .win i off =>
    match s.winTarget w.core i false with
    | .error t => (s, .trap t)
    | .ok (node, core) =>
      let addr := spmFlitAddr node core off
      if node ≠ s.node then (s, .need addr)
      else if !(s.tenantOf w.core == s.tenantOf core || s.tenantOf w.core == 0) then
        (s, .trap (causeTenantKey, tokenAux 0 w.kind (dieOf core) s.node))
      else
        let s := match w.strand with
          | some k => s.flushPosted k (addr / 128)
          | none => s
        s.fetchSpm { w with strand := none } core off n false
  | .port _ _ => (s, .trap (causeAccess, 7))
  | .mem pa => s.fetchMem w pa n hint
  | .remote pa => (s, .need pa)
  | .host pa => s.fetchHost w pa n hint
  | .dev _ => (s, .trap (causeAccess, 5))

/-- The current strand as the agent of an access. -/
def State.who (s : State) : Who := { core := s.curCore, strand := some s.cur, sup := s.st.src.sup, task := s.st.task }

/-- Where a loaded value goes (R154). -/
def State.landLoad (s : State) (d : Dest) (sext : Bool) (l : List Byte) : State :=
  s.modSt fun x => { x with board := x.board ++
    [{ dst := d, val := some (if l.length ≤ 8 then (loadVal sext l).setWidth 256 else BitVec.ofNat 256 (leNat l)), seq := x.seq,
       rid := x.curRid, size := l.length }] }

/-- Virtual ranges touch [a, a + n): the core's own peer window is its own scratchpad (R28). -/
def touchesRange (core a n : Nat) (l : List (Nat × Nat)) : Bool :=
  let own := localBase + 0x100000000 + core % 8 * 0x400000
  let a := if own ≤ a && decide (a < own + 0x400000) then a - own + localBase else a
  l.any fun p => decide (p.1 < a + n) && decide (a < p.1 + p.2)

/-- The load touches a byte that an entry of the strand writes, pending or completed, whose completion the strand has not
observed (R87). A copy that has begun is ordered by its watermark (R89). -/
def Strand.unordered (x : Strand) (core a n : Nat) : Bool :=
  (x.queues.any fun q => q.2.any fun e =>
    !(q.1 == 2 && e.phase != 0 && decide (localBase ≤ a) && decide (a < localBase + 0x400000)) && touchesRange core a n e.covers)
  || x.unseen.any fun m => touchesRange core a n m.covers

/-- A posted write of strand `n` to the line of a flit address has not been acknowledged: a read of the line comes after it (R90). -/
def State.postedTo (s : State) (n addr : Nat) : Bool := s.posted.any fun p => p.strand == n && p.pa / 128 == addr / 128

/-- A load of `n` bytes (R185 to R187): a device register is read at once, and another package or the host is asked. -/
def State.loadAt (s : State) (d : Dest) (va : Word) (n : Nat) (sext : Bool) (hint : Nat) : State :=
  if va.toNat % n ≠ 0 then s.raise (causeMisalign, 0) va
  else
    let sup := s.st.src.sup
    match s.place s.curCore sup .rd 0 va with
    | (s, .error t) => s.raise t va
    | (s, .ok (.dev off)) =>
      match s.devCheck sup (s.tenantOf s.curCore) false off n with
      | .error t => s.raise t va
      | .ok r => let (s, v) := s.devRead r; s.landLoad d sext (leBytes 8 v.toNat)
    | (s, .ok p) =>
      match s.fetchPlace s.who p n hint with
      | (s, .bytes l) =>
        if s.st.unordered s.curCore va.toNat n then let (v, s) := s.draw; s.landLoad d sext (leBytes n v.toNat)
        else s.landLoad d sext l
      | (s, .trap t) => s.raise t va
      | (s, .consumed u _) => s.consume u va
      | (s, .wait why) => s.wait why
      | (s, .need addr) =>
        let tenant := s.tenantOf s.curCore
        if s.postedTo s.cur addr then s.wait 1 else
        let (s, id) :=
          match p with
          | .host _ =>
            if hint = 0 then s.requestHost s.curDie (.strand s.cur) (addr / 128 * 128) tenant 128 va
            else s.requestHost s.curDie (.strand s.cur) addr tenant n va
          | _ => s.requestRead s.curDie (.strand s.cur) addr tenant n va
        s.boardReq d id n sext va

/-- A store of package memory leaves the core (R24, R73): a present L1 copy is updated, and the home applies it later. -/
def State.storeMem (s : State) (core strand va pa : Nat) (bs : List Byte) : State :=
  let s := if s.held.any fun l => l == pa / 128 then s.snoopLine (pa / 128) else s
  { (s.updateBytes core pa bs) with nextId := s.nextId + 1, stores := s.stores ++ [{ core, strand, va, pa, bytes := bs, id := s.nextId }] }

/-- Bytes on their way from core `core` to host memory, with their bit masks: a present L1 copy takes them, and a line that the core
has asked the host for does not enter the L1 (R24, R75, R94). -/
def State.hostLeaves (s : State) (core pa : Nat) (bs : List (Byte × Byte)) : State :=
  let s := s.updateL1 core (pa % 2 ^ 46) bs
  { s with reqs := s.reqs.map fun r =>
      let mine := match r.owner with
        | .strand n => coreOf n == core
        | .line c | .entry c _ => c == core
        | _ => false
      if r.toHost && mine && r.addr % 2 ^ 46 / 128 == pa % 2 ^ 46 / 128 then { r with nofill := true } else r }

/-- A store to host memory leaves the core (R73, R186). -/
def State.storeHost (s : State) (core strand va pa : Nat) (bs : List Byte) : State :=
  { (s.hostLeaves core pa (bs.map fun b => (b, 0xFF))) with
    nextId := s.nextId + 1, stores := s.stores ++ [{ core, strand, va, pa := pa % 2 ^ 46, bytes := bs, id := s.nextId }] }

/-- A store of the current strand (R185 to R187). -/
def State.storeAt (s : State) (va : Word) (bs : List Byte) : State :=
  let n := bs.length
  if va.toNat % n ≠ 0 then s.raise (causeMisalign, 0) va
  else
    let x := s.st
    let core := s.curCore
    match s.place core x.src.sup .wr 1 va with
    | (s, .error t) => s.raise t va
    | (s, .ok p) =>
      match p with
      | .spm c off own =>
        if own && !x.inWindow off n then s.raise (causeAccess, 3) va
        else if c = core && s.behindMark c off n then s.wait 2
        else match s.touchSpm c off n x.src.sup x.task with
          | (s, some (.trap t)) => s.raise t va
          | (s, some (.consumed u _)) => s.consume u va
          | (s, some .wait) => s.wait 1
          | (s, none) => let (s, bs) := s.produced bs; s.writeSpm c off bs
      | .win w off =>
        match s.winTarget core w true with
        | .error t => s.raise t va
        | .ok (node, c) =>
          let addr := spmFlitAddr node c off
          if node = s.node && c == core && s.behindMark c off n then s.wait 2
          else if smGet 0 (s.coreAt core).allow w ≤ smGet 0 (s.coreAt core).outst w || s.streamFull s.cur node (addr / 128) then s.wait 7
          else let (s, bs) := s.produced bs; s.postWrite (some w) va addr bs
      | .port p off =>
        if n = 8 && p < 16 && (off == 0 || off == 8 || off == 0x10) then
          let (s, bs) := s.produced bs
          match s.aperture core p off (BitVec.ofNat 64 (leNat bs)) x.src (some s.cur) with
          | (s, .accepted) => s
          | (s, .refused) => s.raise (causeAccess, 7) va
          | (s, .full) => s.wait 7
        else s.raise (causeAccess, 7) va
      | .mem pa => let (s, bs) := s.produced bs; s.storeMem core s.cur va.toNat pa bs
      | .remote pa =>
        if s.streamFull s.cur (pa / 2 ^ 46) (pa / 128) then s.wait 7
        else let (s, bs) := s.produced bs; s.postWrite none va pa bs
      | .host pa => let (s, bs) := s.produced bs; s.storeHost core s.cur va.toNat pa bs
      | .dev off =>
        match s.devCheck x.src.sup (s.tenantOf core) true off n with
        | .error t => s.raise t va
        | .ok r =>
          let (s, bs) := s.produced bs
          s.post (s.devWrites (.strand s.cur) (s.tenantOf core) off r (BitVec.ofNat 64 (leNat bs)))

/-- LD (R185). -/
def execLd (d a : BitVec 6) (i : BitVec 10) (z h : BitVec 2) (s : State) : Out1 :=
  done (s.loadAt (.s d.toNat) (addrM (s.rs a) i z) (sizeOf2 z) false h.toNat)

/-- LDS (R185). -/
def execLds (d a : BitVec 6) (i : BitVec 10) (z h : BitVec 2) (s : State) : Out1 :=
  done (s.loadAt (.s d.toNat) (addrM (s.rs a) i z) (sizeOf2 z) true h.toNat)

/-- ST (R185). -/
def execSt (r a : BitVec 6) (i : BitVec 10) (z : BitVec 2) (s : State) : Out1 :=
  done (s.storeAt (addrM (s.rs a) i z) (leBytes (sizeOf2 z) (s.rs r).toNat))

/-- LDX (R185). -/
def execLdx (d a : BitVec 6) (x : BitVec 14) (s : State) : Out1 :=
  done (s.loadAt (.s d.toNat) (addrX (s.rs a) x) 8 false 0)

/-- STX (R185). -/
def execStx (r a : BitVec 6) (x : BitVec 14) (s : State) : Out1 :=
  done (s.storeAt (addrX (s.rs a) x) (leBytes 8 (s.rs r).toNat))

/-- PRF (R189): with hint 00 an absent line of the package's memory is filled into the L1, after the core's own stores to it (R75), and
one of host memory is asked for. It never faults, it orders nothing, and hint 10 changes no value. -/
def execPrf (a : BitVec 6) (i : BitVec 10) (h : BitVec 2) (s : State) : Out1 :=
  let va := addrM (s.rs a) i 0
  let core := s.curCore
  let absent (s : State) (pa : Nat) : Bool := h = 0 && (smFind (s.coreAt core).l1 (pa % 2 ^ 46 / 16)).isNone
  let own (s : State) (pa : Nat) : State := s.performWhere fun x => x.core == core && x.touches (pa % 2 ^ 46 / 128)
  done (if isLocal va.toNat then s
    else match s.globalPlace core s.st.src.sup .rd 0 va.toNat with
      | (s, .ok (.mem pa)) => if absent s pa && !s.held.contains (pa / 128) then (own s pa).fillLine core (pa / 128) else s
      | (s, .ok (.host pa)) =>
        if absent s pa && !s.reqs.any fun r => r.owner == .line core && r.addr / 128 == pa / 128 then
          ((own s pa).requestHost s.curDie (.line core) (pa / 128 * 128) (s.tenantOf core) 128 va).1
        else s
      | (s, _) => s)

end Sys2Proof.Machine
end

