-- ==== Sys2Proof/Machine/Sync.lean ====
section
/-!
DEFINITION. Majors 0x32 to 0x34: sync objects (R78 to R81, R205 to R214), FENCE (R83, R216) and DRAIN (R85, R217).
-/
namespace Sys2Proof.Machine

/-- The bound regions of an object: virtual base and bytes (R78). -/
def State.boundRegions (s : State) (pa : Nat) : List (Nat × Nat) :=
  ((List.range 4).map fun i => s.memNat (pa + 32 + 8 * i) 8).filterMap fun w =>
    if w % 2 ^ 20 = 0 then none else some (w / 2 ^ 20 * 4096, w % 2 ^ 20 * 4096)

/-- A byte lies in a region. -/
def inRegions (rs : List (Nat × Nat)) (va : Nat) : Bool := rs.any fun (b, n) => decide (b ≤ va) && decide (va < b + n)

/-- Run `f` on the physical address of the object that s(ra) names (R208). -/
def State.withObject (s : State) (y : Word) (need : Need) (f : State → Nat → State) : State :=
  if y.toNat % 64 ≠ 0 then s.raise (causeMisalign, 0) y
  else match s.place s.curCore s.st.src.sup need 2 y with
    | (s, .error t) => s.raise t y
    | (s, .ok (.mem pa)) =>
      let s := s.performWhere fun x => x.core == s.curCore && x.touches (pa / 128)
      match s.fetchMem s.who pa 64 2 with
      | (s, .bytes _) => f (s.unsure pa) pa
      | (s, .trap t) => s.raise t y
      | (s, .consumed u _) => s.consume u y
      | (s, .wait why) => s.wait why
      | (s, .need _) => s.raise (causeAccess, 0x34) y
    | (s, .ok _) => s.raise (causeAccess, 0x34) y

/-- An acquire of byte ranges begins (R80, R88): the core's L1 gives up every sector that holds a byte of them, and the lines of the
strand's bound copies that hold one are to be fetched again; their dirty bytes are kept. -/
def State.acquireRanges (s : State) (rs : List (Nat × Nat)) : State :=
  let core := s.curCore
  let s := if (s.coreAt core).l1.isEmpty then s else
    rs.foldl (fun s (b, n) => (List.range ((b + n + 4095) / 4096 - b / 4096)).foldl (fun s i =>
      let lo := max b ((b / 4096 + i) * 4096)
      let hi := min (b + n) ((b / 4096 + i + 1) * 4096)
      match s.paOf core lo with
      | some p => s.dropL1 core p (hi - lo)
      | none => s) s) s
  let touches (a : Attachment) (l : Nat) : Bool :=
    rs.any fun (b, n) => decide (b < a.va + (l - a.base) + 128) && decide (a.va + (l - a.base) < b + n)
  s.modSt fun x => { x with sync := x.sync.map fun (k, sl) => (k, match sl.att with
    | some a => { sl with att := some { a with filled := a.filled.filter fun l => !touches a l
                                               refetch := a.refetch ++ a.filled.filter (touches a) } }
    | none => sl) }

/-- The bound lines that an acquire in progress has still to fetch are fetched (R80): the state, and why it stops. -/
def State.refetch (s : State) : State × Option FillStop :=
  s.st.sync.foldl (fun (s, stop) (k, sl) =>
    match stop, sl.att with
    | none, some a =>
      if a.refetch.isEmpty then (s, none) else
      let (s, a, stop) := s.fillLines s.cur k s.st.src.sup s.st.task a a.refetch
      (s.modSt fun x => { x with sync := smPut x.sync k { sl with att := some a } }, stop)
    | _, _ => (s, stop)) (s, none)

/-- The acquire in progress goes on: `f` runs when every line has been fetched; `e` is what it read, and `info` its address. -/
def State.acquireEnd (s : State) (e : Elem) (info : Word) (wait : State → State) (f : State → State) : State :=
  match s.refetch with
  | (s, none) => f (s.modSt ({ · with acq := none }))
  | (s, some x) => (s.modSt ({ · with acq := some e })).fillStop x info wait

/-- The effect of an acquire of an object that read `v` (R80), and what follows it. -/
def State.acquire (s : State) (pa : Nat) (v info : Word) (f : State → State) : State :=
  (s.acquireRanges (s.boundRegions pa)).acquireEnd { v } info (fun s => s.wait 1) f

/-- Write back the strand's bound copies of the regions (R79): the state, and why it stops. -/
def State.writeBackRegions (s : State) (rs : List (Nat × Nat)) : State × Option FillStop :=
  s.st.sync.foldl (fun (s, stop) (k, sl) =>
    match stop, sl.att with
    | none, some a =>
      if rs.any fun (b, n) => decide (b < a.va + a.pages * 4096) && decide (a.va < b + n) then
        let (s, a, stop) := s.writeBack s.cur s.st.src.sup false a
        (s.modSt fun x => { x with sync := smPut x.sync k { sl with att := some a } }, stop)
      else (s, none)
    | _, _ => (s, stop)) (s, none)

/-- Every store of the current strand reaches its home and completes its parity (R79, R95); with `host` those to host memory are
performed there too (R77). -/
def State.flushStrand (s : State) (host : Bool := true) : State :=
  let n := s.cur
  (s.performWhere fun x => x.strand == n && (host || !isHostRange x.pa)).completeWhere fun p => p.strand == some n

/-- The release of R79 has nothing left to wait for: posted writes of the regions at pod and system scope, stores to host memory at
system scope (R77), and stores that a snoop still holds. -/
def State.releaseReady (s : State) (rs : List (Nat × Nat)) (scope : BitVec 3) : Bool :=
  (decide (scope.toNat < 4) || !(s.posted.any fun p => p.strand == s.cur && inRegions rs p.va))
  && !(s.stores.any fun x => x.strand == s.cur && inRegions rs x.va && (!isHostRange x.pa || scope == 5))

/-- REL's effect on the object that lies at `pa` and that `y` names (R79): `f` runs with RELSEQ after the increment, or the strand waits
in COMMIT. -/
def State.release (s : State) (y : Word) (pa : Nat) (scope : BitVec 3) (f : State → Word → State) : State :=
  let rs := s.boundRegions pa
  match s.writeBackRegions rs with
  | (s, some x) => s.fillStop x y State.waitCommit
  | (s, none) =>
    let s := s.flushStrand (scope == 5)
    let s := if scope.toNat < 4 then s else
      (s.posted.filter fun p => p.strand == s.cur && inRegions rs p.va && p.pa / 2 ^ 46 == s.node).foldl State.performPosted s
    if s.releaseReady rs scope then
      let v := BitVec.ofNat 64 (s.memNat pa 8 + 1)
      f (s.performMem 0 s.st.task pa (leBytes 8 v.toNat)) v
    else s.waitCommit

/-- ACQ (R209): with a wait value it waits until RELSEQ has passed it. -/
def execAcq (d a b : BitVec 6) (_ : BitVec 3) (s : State) : Out1 :=
  let y := s.rs a
  let fin (v : Word) (s : State) : State := s.boardS d.toNat v
  done (match s.st.acq with
    | some e => s.acquireEnd e y (fun s => s.wait 1) (fin e.v)
    | none => s.withObject y .rd fun s pa =>
      let v := BitVec.ofNat 64 (s.memNat pa 8)
      if b ≠ 0 && decide (2 ^ 63 ≤ (v - s.rs b).toNat) then s.wait 1 else s.acquire pa v y (fin v))

/-- REL (R79, R209): commit-class. -/
def execRel (d a _ : BitVec 6) (scope : BitVec 3) (s : State) : Out1 :=
  done (s.commit fun s => s.withObject (s.rs a) .wr fun s pa =>
    s.release (s.rs a) pa scope fun s v => (s.boardS d.toNat v).committed)

/-- The registered slot that holds an object. -/
def Strand.slotOf (x : Strand) (y : Word) : Option (Nat × SyncSlot) := x.sync.find? fun (_, sl) => sl.reg && sl.obj == y

/-- An arrival of the current strand through slot `k` (R213): the last one ends the phase. -/
def State.arriveAt (s : State) (pa k : Nat) (sl : SyncSlot) : State :=
  let b := s.barrier pa
  let a := b.arrived + 1
  let s := s.modSt fun x => { x with sync := smPut x.sync k { sl with phase := BitVec.ofNat 32 b.phase } }
  s.setBarrier pa (if a = b.expect then { b with arrived := 0, phase := (b.phase + 1) % 2 ^ 32 }
                   else { b with arrived := a % 65536 })

/-- ARV (R213): commit-class. -/
def execArv (d a _ : BitVec 6) (scope : BitVec 3) (s : State) : Out1 :=
  let y := s.rs a
  done (s.commit fun s => s.withObject y .wr fun s pa =>
    match s.st.slotOf y with
    | none => s.raise (causeAccess, 0x33) y
    | some (k, sl) =>
      if sl.phase.toNat = (s.barrier pa).phase then s.raise (causeAccess, 0x33) y
      else s.release y pa scope fun s _ =>
        let p := (s.barrier pa).phase
        ((s.arriveAt pa k sl).boardS d.toNat (BitVec.ofNat 64 p)).committed)

/-- WAITB (R214). -/
def execWaitb (d a b : BitVec 6) (_ : BitVec 3) (s : State) : Out1 :=
  let y := s.rs a
  let fin (v : Word) (s : State) : State := s.boardS d.toNat v
  done (match s.st.acq with
    | some e => s.acquireEnd e y (fun s => s.wait 1) (fin e.v)
    | none => s.withObject y .rd fun s pa =>
      let p := (s.barrier pa).phase
      let diff := (BitVec.ofNat 32 p - (s.rs b).setWidth 32).toNat
      if 1 ≤ diff && decide (diff < 2 ^ 31) then
        (s.modSt ({ · with waitObj := none })).acquire pa (BitVec.ofNat 64 p) y (fin (BitVec.ofNat 64 p))
      else (s.modSt ({ · with waitObj := some pa })).wait 3)

/-- The control word has no reserved bit set and names a slot (R210). -/
def controlOk (c : Word) : Bool := c &&& 0xFFFFFFFFC00FFEE0 == 0 && c &&& 15 != 0

/-- BIND (R211). -/
def execBind (d a b : BitVec 6) (_ : BitVec 3) (s : State) : Out1 :=
  let y := s.rs a
  let c := s.rs d
  let w := (s.rs b).toNat
  let k := c.toNat % 16
  let base := bitsOf c.toNat 29 20 * 4096
  let pages := w % 2 ^ 20
  let spm := c.getLsbD 8
  done (s.withObject y .wr fun s pa =>
    let x := s.st
    let sl : SyncSlot := smGet { obj := y, pa } x.sync k
    let att : Attachment := { base, pages, va := w / 2 ^ 20 * 4096 }
    let overlaps := x.sync.any fun (j, o) => j != k && match o.att with
      | some t => decide (t.base < base + pages * 4096) && decide (base < t.base + t.pages * 4096)
      | none => false
    let differs := match sl.att with
      | some t => !(t.base == base && t.pages == pages && t.va == att.va)
      | none => false
    if !controlOk c then s.raise (causeAccess, 0x30) y
    else if sl.obj ≠ y then s.raise (causeAccess, 0x32) y
    else if spm && pages == 0 then s.raise (causeAccess, 0x30) y
    else if spm && (differs || overlaps) then s.raise (causeAccess, 0x32) y
    else if spm && !x.inWindow base (pages * 4096) then s.raise (causeAccess, 3) y
    else
      let reg := c.getLsbD 4 && !sl.reg
      let bnd (i : Nat) : Nat := s.memNat (pa + 32 + 8 * i) 8
      let newb := pages != 0 && !((List.range 4).any fun i => bnd i == w)
      let free := (List.range 4).find? fun i => bnd i % 2 ^ 20 == 0
      let bar := s.barrier pa
      if newb && free.isNone then s.raise (causeAccess, 0x31) y
      else if reg && bar.expect == 65535 then s.raise (causeAccess, 0x30) y
      else
        let s := if newb then s.writeObj x.task pa (32 + 8 * free.getD 0) (leBytes 8 w) else s
        let s := if reg then s.setBarrier pa { bar with expect := bar.expect + 1 } else s
        let sl := { sl with att := if spm && sl.att.isNone then some att else sl.att }
        let sl := if reg then { sl with reg := true, phase := BitVec.ofNat 32 bar.phase - 1 } else sl
        s.modSt fun x => { x with sync := smPut x.sync k sl })

/-- Slot `k` of the strand as an UNBIND leaves it (R212). -/
def Strand.putSlot (x : Strand) (k : Nat) (sl : SyncSlot) : Strand :=
  { x with sync := if sl.att.isNone && !sl.reg then smDel x.sync k else smPut x.sync k sl }

/-- UNBIND (R212): the write-back of the attachment's dirty bytes may fault, or wait for a stream of posted writes. -/
def execUnbind (d a b : BitVec 6) (_ : BitVec 3) (s : State) : Out1 :=
  let y := s.rs a
  let c := s.rs d
  let w := (s.rs b).toNat
  let k := c.toNat % 16
  done (s.withObject y .wr fun s pa =>
    if !controlOk c then s.raise (causeAccess, 0x30) y
    else match smFind s.st.sync k with
    | none => s.raise (causeAccess, 0x32) y
    | some sl =>
      if sl.obj ≠ y then s.raise (causeAccess, 0x32) y
      else
        let back : State × Option Attachment × Option FillStop := match sl.att with
          | some t =>
            if c.getLsbD 8 then
              let (s, t, stop) := s.writeBack s.cur s.st.src.sup false t
              (s, if stop.isSome then some t else none, stop)
            else (s, some t, none)
          | none => (s, none, none)
        match back with
        | (s, t, some x) => (s.modSt fun z => { z with sync := smPut z.sync k { sl with att := t } }).fillStop x y
        | (s, t, none) =>
          let sl := { sl with att := t }
          let (s, sl) := if c.getLsbD 4 && sl.reg then
              (s.setBarrier pa (deregister (s.barrier pa) sl.phase.toNat), { sl with reg := false })
            else (s, sl)
          let s := if w % 2 ^ 20 = 0 then s else (List.range 4).foldl (fun s i =>
            if s.memNat (pa + 32 + 8 * i) 8 = w then s.writeObj s.st.task pa (32 + 8 * i) (leBytes 8 0) else s) s
          s.modSt (·.putSlot k sl))

/-- FENCE (R83, R216): the strand's scalar stores are performed, and its remote accesses answered, before it goes on. -/
def execFence (_ : BitVec 3) (s : State) : Out1 :=
  let (s, left) := s.earlier s.cur
  done (if left.isEmpty then s else s.wait 7)

/-- A copy entry's destination is a scratchpad, or memory or another package (R85). -/
def copyDest (e : Entry) : Bool × Bool :=
  let kind := bitsOf (smGet 0 e.d 2).toNat 255 252
  match e.instr with
  | .cpy _ | .cpyi _ | .cpyk _ => (kind != 1, decide (kind = 1 ∨ kind = 2))
  | .cpyrs _ => (false, true)
  | .cpymc _ => (true, true)
  | _ => (false, false)

/-- The transfers that a DRAIN path covers (R85): queue and number of each. -/
def State.drainSet (s : State) (p : Nat) : List (Nat × Nat) :=
  let core := s.curCore
  let spm := p == 0 || p == 5
  let mem := p == 1 || p == 5
  let covers (e : Entry) : Bool := let (a, b) := copyDest e; (a && spm) || (b && mem)
  let strands := (List.range Config.slots).map fun k => core * Config.slots + k
  let ce := strands.flatMap fun n => ((smGet [] (s.strandAt n).queues 2).filter covers).map fun e => (n * 8 + 2, e.seq)
  let ap := ((s.coreAt core).apq.filter covers).map fun e => (100000, e.seq)
  let rem := if p = 2 || p = 5 then (s.posted.filter (·.core == core)).map fun q => (100001, q.id) else []
  let stash := if p = 4 || p = 5 then
      strands.flatMap fun n => (smGet [] (s.strandAt n).queues 4).map fun e => (n * 8 + 4, e.seq) else []
  let l2 := if p = 3 || p = 5 then (s.stores.filter fun x => x.core == core && !isHostRange x.pa).map fun x => (100002, x.id) else []
  ce ++ ap ++ rem ++ stash ++ l2

/-- A transfer is still outstanding. -/
def State.drainLeft (s : State) (k : Nat × Nat) : Bool :=
  if k.1 = 100001 then s.posted.any (·.id == k.2)
  else if k.1 = 100002 then s.stores.any (·.id == k.2)
  else if k.1 = 100000 then (s.coreAt s.curCore).apq.any (·.seq == k.2)
  else (smGet [] (s.strandAt (k.1 / 8)).queues (k.1 % 8)).any (·.seq == k.2)

/-- The transfers that a DRAIN waited for are observed (R85, R87). -/
def drainSeen (p : Nat) (m : Unseen) : Unseen :=
  let seen (a : Nat) : Bool :=
    p == 5 && (m.engine == 2 || m.engine == 4) || m.engine == 4 && p == 4 ||
      m.engine == 2 && (p == 0 && isLocal a || p == 1 && !isLocal a)
  { m with covers := m.covers.filter fun c => !seen c.1 }

/-- Every check from now on uses a strand's writes of the owner table, or later ones (R512). -/
def State.settleOwner (s : State) (n : Nat) : State :=
  { s with ownerOld := (s.ownerOld.zipIdx.filter fun (o, k) =>
      !(s.ownerOld.drop k).any fun q => q.granule == o.granule && q.writer == .strand n).map (·.1) }

/-- DRAIN (R85, R217): it waits for the transfers of the path that the core's strands had issued when it began, and the lines that they
wrote are then parity-complete (R95). DRAIN L2 makes the strand's writes of the owner table hold (R512). -/
def execDrain (p : BitVec 3) (s : State) : Out1 :=
  let core := s.curCore
  let todo := (s.st.drain.getD (s.drainSet p.toNat))
  let s := s.performWhere fun x => todo.contains (100002, x.id)
  let s := if p = 1 || p = 3 || p = 5 then s.completeWhere fun x => x.core == some core else s
  let s := (s.posted.filter fun q => todo.contains (100001, q.id) && q.pa / 2 ^ 46 == s.node).foldl State.performPosted s
  let todo := todo.filter s.drainLeft
  done (if todo.isEmpty then
      (if p = 3 || p = 5 then s.settleOwner s.cur else s).modSt fun x => { x with drain := none, unseen := x.unseen.map (drainSeen p.toNat) }
    else (s.modSt ({ · with drain := some todo })).wait 1)

end Sys2Proof.Machine
end

