-- ==== Sys2Proof/Machine/TensorOps.lean ====
section
/-!
DEFINITION. Tensor descriptors (R33 to R35) and major 0x38, TDOP (R224, R225).
-/
namespace Sys2Proof.Machine

/-- Lowest bit and width of a descriptor field code (R33, R225). -/
def tdField (f : Nat) : Nat × Nat :=
  match f with
  | 0 => (0, 64) | 1 => (64, 16) | 2 => (80, 16) | 3 => (96, 16) | 4 => (112, 24) | 5 => (136, 4) | 6 => (140, 2)
  | 7 => (143, 1) | 8 => (144, 32) | 9 => (176, 48) | 10 => (224, 24) | 11 => (248, 4) | 12 => (252, 4) | 13 => (64, 64)
  | 14 => (128, 64) | _ => (192, 64)

/-- A field of a descriptor, zero-extended. -/
def descField (d : Desc) (f : Nat) : Nat := d.toNat / 2 ^ (tdField f).1 % 2 ^ (tdField f).2

/-- A descriptor with one field replaced by the low bits of a value (R224). -/
def descSet (d : Desc) (f v : Nat) : Desc :=
  let (lo, w) := tdField f
  BitVec.ofNat 256 (d.toNat - descField d f * 2 ^ lo + v % 2 ^ w * 2 ^ lo)

/-- A field as TDGET returns it: ESTR and RSTR sign-extended (R224). -/
def descGet (d : Desc) (f : Nat) : Word :=
  let v := descField d f
  let w := (tdField f).2
  BitVec.ofNat 64 (if (f == 3 || f == 4) && decide (2 ^ (w - 1) ≤ v) then v + (2 ^ 64 - 2 ^ w) else v)

/-- TDLD (R224). -/
def execTdld (_ a t : BitVec 6) (s : State) : Out1 := done (s.loadAt (.t t.toNat) (s.rs a) 32 false 0)

/-- TDST (R224). -/
def execTdst (_ a t : BitVec 6) (s : State) : Out1 := done (s.storeAt (s.rs a) (leBytes 32 (s.rt t).toNat))

/-- TDSET (R224). -/
def execTdset (_ a t : BitVec 6) (f : BitVec 5) (s : State) : Out1 :=
  done (s.modSt (·.modNow (·.setT t.toNat (descSet (s.rt t) f.toNat (s.rs a).toNat))))

/-- TDGET (R224). -/
def execTdget (d _ t : BitVec 6) (f : BitVec 5) (s : State) : Out1 := done (s.ws d (descGet (s.rt t) f.toNat))

/-- TDCPY (R224). -/
def execTdcpy (_ m t : BitVec 6) (s : State) : Out1 := done (s.modSt (·.modNow (·.setT t.toNat (s.rt m))))

end Sys2Proof.Machine
end

