-- ==== Sys2Proof/Machine/Elem.lean ====
section
/-!
DEFINITION. Elements of tensors (R33 to R36, R248): where an element's bits and its block scale lie, the checks of a
descriptor, the extents an entry touches (R254), and an entry's reads and writes of its operands (R252).
-/
namespace Sys2Proof.Machine

/-- A descriptor's fields (R33). -/
structure View where
  base : Nat
  cols : Nat
  rows : Nat
  estr : Int
  rstr : Int
  fmt : Fmt
  blk : Nat
  tr : Bool
  tscale : Nat
  /-- first byte of the scale array -/
  scales : Nat
  ver : Nat
  sync : Nat
  kind : Nat
deriving DecidableEq, Repr

def viewOf (d : Desc) : View :=
  { base := descField d 0, cols := descField d 1, rows := descField d 2, estr := (descGet d 3).toInt, rstr := (descGet d 4).toInt
    fmt := fmtOf (descField d 5), blk := descField d 6, tr := descField d 7 = 1, tscale := descField d 8
    scales := descField d 9 * 256, ver := descField d 10, sync := descField d 11, kind := descField d 12 }

/-- Rows and columns of the view (R35). -/
def View.vr (v : View) : Nat := if v.tr then v.cols else v.rows
def View.vc (v : View) : Nat := if v.tr then v.rows else v.cols

/-- The stored row and column of view element (r, c) (R35). -/
def View.stored (v : View) (rc : Nat × Nat) : Nat × Nat := if v.tr then (rc.2, rc.1) else rc

/-- The view element of a flat index (R248). -/
def View.flat (v : View) (j : Nat) : Nat × Nat := (j / v.vc, j % v.vc)

/-- First bit of view element (r, c) (R35). -/
def View.bit (v : View) (rc : Nat × Nat) : Int :=
  let (sr, sc) := v.stored rc
  (v.base : Int) * 8 + sr * v.rstr * 8 + sc * v.estr * fmtBits v.fmt

/-- The index of the element's block scale (R35). -/
def View.scaleIx (v : View) (rc : Nat × Nat) : Nat :=
  let (sr, sc) := v.stored rc
  let w := (v.cols + 31) / 32
  if v.blk = 1 then sr * w + sc / 32 else if v.blk = 2 then sr / 32 * v.cols + sc else sr / 32 * w + sc / 32

/-- Units that an access touches: first bit and number of bits. -/
abbrev Span := Int × Nat

def View.span (v : View) (rc : Nat × Nat) : Span := (v.bit rc, fmtBits v.fmt)
def View.scaleSpan (v : View) (i : Nat) : Span := (((v.scales + i : Nat) : Int) * 8, 8)

/-- Every element of a view, in flat order. -/
def View.all (v : View) : List (Nat × Nat) := (List.range (v.vr * v.vc)).map v.flat

/-- Neighbouring units joined, in order. -/
def joinSpans : List Span → List Span
  | [] => []
  | a :: r =>
    match joinSpans r with
    | [] => [a]
    | b :: t => if a.1 + a.2 = b.1 then (a.1, a.2 + b.2) :: t else a :: b :: t

/-- Spans share a unit. -/
def spansMeet (a b : List Span) : Bool := a.any fun x => b.any fun y => decide (x.1 < y.1 + y.2) && decide (y.1 < x.1 + x.2)

/-- A span of the core's own peer window, as one of the own scratchpad (R28, R254). -/
def ownSpan (core : Nat) (x : Span) : Span :=
  let lo : Int := ((localBase + 0x100000000 + core % 8 * 0x400000 : Nat) : Int) * 8
  if lo ≤ x.1 && decide (x.1 < lo + 0x400000 * 8) then (x.1 - lo + (localBase : Int) * 8, x.2) else x

/-! ### The checks of a descriptor (R36) -/

/-- The parts of the address space by the class that a KIND allows: first byte, end, class. Class 0 is the own and peer scratchpads, 1
global, 2 remote windows, 3 anything else. -/
def addrParts : List (Int × Int × Nat) :=
  let b : Int := (localBase : Nat)
  [(0, b, 1), (b, b + 0x400000, 0), (b + 0x400000, b + 0x100000000, 3), (b + 0x100000000, b + 0x100000000 + 8 * 0x400000, 0),
   (b + 0x100000000 + 8 * 0x400000, b + 0x200000000, 3), (b + 0x200000000, b + 0x200000000 + 16 * 0x400000, 2),
   (b + 0x200000000 + 16 * 0x400000, 2 ^ 56, 3), (2 ^ 56, 2 ^ 64, 1)]

def addrClass (a : Int) : Nat := ((addrParts.find? fun p => decide (p.1 ≤ a) && decide (a < p.2.1)).map (·.2.2)).getD 3

def kindClass (k : Nat) : Nat := if k = 3 then 0 else k

/-- First and last byte of a span. -/
def spanBytes (x : Span) : Int × Int := (Int.fdiv x.1 8, Int.fdiv (x.1 + x.2 - 1) 8)

/-- Every byte of a span is of a class that `ok` admits. -/
def spanIn (ok : Nat → Bool) (x : Span) : Bool :=
  let (lo, hi) := spanBytes x
  (decide (0 ≤ lo) && decide (hi < 2 ^ 64) || ok 3) && addrParts.all fun (a, b, c) => decide (hi < a) || decide (b ≤ lo) || ok c

/-- The bytes from `lo` to `hi` lie in the ranges together: first byte and end. -/
def inRanges (l : List (Int × Int)) (hi : Int) : Nat → Int → Bool
  | 0, _ => false
  | k + 1, lo =>
    if hi < lo then true
    else match l.find? fun p => decide (p.1 ≤ lo) && decide (lo < p.2) with
      | some p => inRanges l hi k p.2
      | none => false

/-- The touched bytes lie in regions that are bound to slot `k`'s object, or in the slot's scratchpad copy of one. -/
def State.spanBound (s : State) (n k : Nat) (x : Span) : Bool :=
  match smFind (s.strandAt n).sync k with
  | none => false
  | some sl =>
    let (lo, hi) := spanBytes x
    let att : List (Int × Int) := match sl.att with
      | some a => [(((localBase + a.base : Nat) : Int), ((localBase + a.base + a.pages * 4096 : Nat) : Int))]
      | none => []
    inRanges (att ++ (s.boundRegions sl.pa).map fun (b, len) => ((b : Int), ((b + len : Nat) : Int))) hi 8 lo

/-- The first failing condition of R36, 1 to 7, for an entry of strand `n` (none: the aperture queue) that touches these
elements and block scales. -/
def State.tdesc (s : State) (n : Option Nat) (d : Desc) (elems scales : List Span) : Option Nat :=
  let v := viewOf d
  let bytes := fmtBits v.fmt / 8
  if 4 ≤ v.kind || addrClass v.base != kindClass v.kind then some 1
  else if d.getLsbD 142 then some 2
  else if v.rows = 0 || v.cols = 0 then some 3
  else if v.blk ≠ 0 && !fmtBlockable v.fmt then some 4
  else if 1 < bytes && v.base % bytes != 0 then some 5
  else if !elems.all (spanIn (· == kindClass v.kind)) || !scales.all (spanIn (· ≤ 1)) then some 6
  else if v.sync ≠ 0 && !elems.all (fun x => match n with
      | some n => s.spanBound n v.sync x
      | none => false) then some 7
  else none

/-! ### Reads -/

/-- Why an entry's operand accesses stop. -/
inductive Stop where
  | trap (t : Trap) (va : Nat)
  | consumed (unit va : Nat)
  /-- it is tried again later: a watermark, a window without allowance, a line the host may hold -/
  | wait
deriving DecidableEq, Repr

/-- An entry's reads: the machine so far, the first stop, and the bytes that a reply must bring: flit address, and 0 for another
package, 1 for the host through the L1, 2 for the host. -/
structure Rd where
  s : State
  stop : Option Stop := none
  need : List (Nat × Nat) := []

/-- The entry waits on copy watermarks (R89): a core has one active range at most, that of the copy entry in service (R19), which
does not wait on its own. -/
def Entry.marks (e : Entry) : Bool := engineOf e.instr != some 2

/-- Whose access it is. -/
def Entry.who (e : Entry) (s : State) : Who :=
  { core := e.core, strand := e.strand, marks := e.marks, sup := e.sup, kind := 3, task := match e.strand with
    | some n => (s.strandAt n).task
    | none => 0 }

/-- The entry belongs to an engine of the die, whose writes change no L1 (R24). -/
def Entry.dieEngine (e : Entry) : Bool := decide (3 ≤ (engineOf e.instr).getD 0)

/-- Bytes with free values. -/
def State.freeBytes (s : State) : Nat → State × List Byte
  | 0 => (s, [])
  | n + 1 => let (v, s) := s.draw; let (s, l) := s.freeBytes n; (s, v.setWidth 8 :: l)

/-- Bytes that an earlier entry of the strand in another engine's queue still has to write: nothing orders the two, so what the entry
reads there is undefined (R86, R425). A copy that has begun is ordered by its watermark (R89). -/
def Entry.races (e : Entry) (s : State) (va n : Nat) : Bool :=
  match e.strand with
  | none => false
  | some k => (s.strandAt k).queues.any fun q => some q.1 != engineOf e.instr && q.2.any fun o =>
      decide (o.seq < e.seq) && !(q.1 == 2 && o.phase != 0 && decide (localBase ≤ va) && decide (va < localBase + 0x400000))
        && touchesRange e.core va n o.covers

/-- Read `n` bytes at a virtual address for an entry (R252), the whole within one aligned unit. What an entry of a region that executes
again sends or stashes is undefined (R61). -/
def Rd.unit (r : Rd) (e : Entry) (va n hint : Nat) : Rd × List Byte :=
  let none0 := List.replicate n (0 : Byte)
  if r.stop.isSome then (r, none0) else
  match r.s.place e.core e.sup .rd 3 (BitVec.ofNat 64 va) with
  | (s, .error t) => ({ r with s, stop := some (.trap t va) }, none0)
  | (s, .ok p) =>
    let sends := e.undef && [some 3, some 4, some 6].contains (engineOf e.instr)
    let given (s : State) (l : List Byte) : State × List Byte := if sends || e.races s va n then s.freeBytes n else (s, l)
    match s.fetchPlace (e.who s) p n hint with
    | (s, .bytes l) => let (s, l) := given s l; ({ r with s }, l)
    | (s, .trap t) => ({ r with s, stop := some (.trap t va) }, none0)
    | (s, .consumed u _) => ({ r with s, stop := some (.consumed u va) }, none0)
    | (s, .wait _) => ({ r with s, stop := some .wait }, none0)
    | (s, .need addr) =>
      let host : Nat := match p with
        | .host _ => if hint = 0 && !e.dieEngine then 1 else 2
        | _ => 0
      match (List.range n).findSome? fun i => (smFind e.fails (addr + i)).map fun t => (i, t) with
      | some (i, c, a) => ({ r with s, stop := some (.trap (c, a) (if host = 0 then va + i else addr + i)) }, none0)
      | none =>
      let have1 := (List.range n).map fun i => smFind e.got (addr + i)
      let (s, l) := given s (have1.map (·.getD 0))
      ({ r with s, need := r.need ++ ((List.range n).filter fun i => (smFind e.got (addr + i)).isNone).map fun i => (addr + i, host) }, l)

/-- Read `n` bytes at any virtual address. -/
def Rd.bytes (r : Rd) (e : Entry) (va n hint : Nat) : Rd × List Byte :=
  if va % n = 0 && n ≤ 8 then r.unit e va n hint
  else (List.range n).foldl (fun (r, l) i => let (r, b) := r.unit e (va + i) 1 hint; (r, l ++ b)) (r, [])

/-- Read the bits of a span. -/
def Rd.span (r : Rd) (e : Entry) (x : Span) (hint : Nat) : Rd × Nat :=
  let (lo, hi) := spanBytes x
  let (r, l) := r.bytes e lo.toNat (hi - lo + 1).toNat hint
  (r, leNat l / 2 ^ (x.1 - lo * 8).toNat % 2 ^ x.2)

/-- The raw code of view element (r, c) (R250). -/
def Rd.code (r : Rd) (e : Entry) (v : View) (rc : Nat × Nat) (hint : Nat) : Rd × Nat := r.span e (v.span rc) hint

/-- A raw code as the integer of 64 bits that R250 makes of it. -/
def rawInt (f : Fmt) (c : Nat) : Int :=
  match f with
  | .int8 => intOfCode 8 c
  | .int32 => intOfCode 32 c
  | _ => c

/-- Components of an element (R108): one, or the real and imaginary part. -/
def fmtComplex : Fmt → Bool
  | .cb16 | .cf32 => true
  | _ => false

/-- The format of a component. -/
def fmtPart : Fmt → Fmt
  | .cb16 => .bf16
  | .cf32 => .fp32
  | f => f

/-- The codes of an element's components. -/
def codeParts (f : Fmt) (c : Nat) : List Nat :=
  if fmtComplex f then [c % 2 ^ (fmtBits f / 2), c / 2 ^ (fmtBits f / 2)] else [c]

/-- The value of each component of an element, with its block scale and TSCALE (R111), and the flags. -/
def elemVal (v : View) (code : Nat) (scale : Option Nat) : List Val × Nat :=
  let l := (codeParts v.fmt code).map fun c => scaled (fmtDec (fmtPart v.fmt) c) scale v.tscale
  (l.map (·.1), l.foldl (fun a x => a ||| x.2) 0)

/-- The code of view element (r, c) and its block scale. -/
def Rd.codeScale (r : Rd) (e : Entry) (v : View) (rc : Nat × Nat) (hint : Nat) : Rd × Nat × Option Nat :=
  let (r, c) := r.code e v rc hint
  if v.blk = 0 then (r, c, none)
  else
    let (r, k) := r.span e (v.scaleSpan (v.scaleIx rc)) hint
    (r, c, some k)

/-- View element (r, c) read as a value (R250): the components and the flags. -/
def Rd.value (r : Rd) (e : Entry) (v : View) (rc : Nat × Nat) (hint : Nat) : Rd × List Val × Nat :=
  let (r, c, k) := r.codeScale e v rc hint
  (r, elemVal v c k)

/-! ### Writes -/

/-- A code written at a span. -/
abbrev Put := Span × Nat

/-- The bytes of a write with their bit masks. -/
def putBytes (p : Put) : Nat × List (Byte × Byte) :=
  let (lo, hi) := spanBytes p.1
  let n := (hi - lo + 1).toNat
  let sh := 2 ^ (p.1.1 - lo * 8).toNat
  (lo.toNat, (leBytes n (p.2 * sh)).zip (leBytes n ((2 ^ p.1.2 - 1) * sh)))

/-- The later of two writes to one byte. -/
def overByte (a b : Byte × Byte) : Byte × Byte := (maskByte a.1 b.1 b.2, a.2 ||| b.2)

/-- Put a write after a list of writes: it joins the last one where it continues it within a line of 128 bytes. -/
def joinWrite (l : List (Nat × List (Byte × Byte))) (w : Nat × List (Byte × Byte)) : List (Nat × List (Byte × Byte)) :=
  match l with
  | [] => [w]
  | (a, bs) :: r =>
    if a / 128 = (w.1 + w.2.length - 1) / 128 && a + bs.length == w.1 then (a, bs ++ w.2) :: r
    else if a / 128 = (w.1 + w.2.length - 1) / 128 && w.2.length == 1 && !bs.isEmpty && a + bs.length - 1 == w.1 then
      (a, bs.dropLast ++ [overByte (bs.getLast?.getD (0, 0)) (w.2.headD (0, 0))]) :: r
    else w :: (a, bs) :: r

/-- A write in pieces that stay within a line and, where they are not aligned, of one byte (R94). -/
def splitWrite (w : Nat × List (Byte × Byte)) : List (Nat × List (Byte × Byte)) :=
  if w.1 / 128 = (w.1 + w.2.length - 1) / 128 then [w] else w.2.zipIdx.map fun (b, i) => (w.1 + i, [b])

/-- The writes of an entry, in order. -/
def writePlan (l : List Put) : List (Nat × List (Byte × Byte)) := (l.foldl (fun a p => (splitWrite (putBytes p)).foldl joinWrite a) []).reverse

/-- A write of an entry to another package waits until one of its own to the same bytes has been acknowledged. -/
def State.rewrites (s : State) (e : Entry) (pa n : Nat) : Bool :=
  s.posted.any fun p => p.engine && p.core == e.core && p.strand == e.strand.getD 2047 && p.seq == e.seq && decide (p.pa < pa + n)
    && decide (pa < p.pa + p.bytes.length)

/-- Write masked bytes at a virtual address for an entry (R252, R94): the next state, or why it stops. -/
def State.writeVa (s : State) (e : Entry) (w : Nat × List (Byte × Byte)) : State × Option Stop :=
  let (va, bm) := w
  let (s, new) := if e.undef then s.freeBytes bm.length else (s, bm.map (·.1))
  let mask := bm.map (·.2)
  let n := bm.length
  match s.place e.core e.sup .wr 3 (BitVec.ofNat 64 va) with
  | (s, .error t) => (s, some (.trap t va))
  | (s, .ok p) =>
    let post (s : State) (window : Option Nat) (pa : Nat) : State :=
      s.postFor (e.strand.getD 2047) { id := 0, core := e.core, strand := 0, window, va, pa, seq := e.seq, rid := e.rid, bytes := new, mask, engine := true }
    match p with
    | .spm c off own =>
      if own && !(match e.strand with
          | some k => (s.strandAt k).inWindow off n
          | none => true) then (s, some (.trap (causeAccess, 3) va))
      else if c = e.core && e.marks && s.behindMark c off n then (s, some .wait)
      else match s.touchSpm c off n e.sup (e.who s).task with
        | (s, some (.trap t)) => (s, some (.trap t va))
        | (s, some (.consumed u _)) => (s, some (.consumed u va))
        | (s, some .wait) => (s, some .wait)
        | (s, none) => (s.writeSpm c off (maskBytes (s.spmBytes c off n) new mask), none)
    | .win i off =>
      match s.winTarget e.core i true with
      | .error t => (s, some (.trap t va))
      | .ok (node, c) =>
        let pa := spmFlitAddr node c off
        if node = s.node && c == e.core && e.marks && s.behindMark c off n then (s, some .wait)
        else if smGet 0 (s.coreAt e.core).allow i ≤ smGet 0 (s.coreAt e.core).outst i || s.rewrites e pa n then
          (s, some .wait)
        else (post s (some i) pa, none)
    | .port _ _ => (s, some (.trap (causeAccess, 7) va))
    | .mem pa =>
      if s.held.contains (pa / 128) then (s.snoopLine (pa / 128), some .wait)
      else
        let s := s.performWhere fun x => x.core == e.core && x.touches (pa / 128)
        let s := s.performMem (s.tenantOf e.core) (e.who s).task pa (maskBytes (s.memBytes pa n) new mask) (some e.core) e.strand
        (if e.dieEngine then s else s.updateL1 e.core pa (new.zip mask), none)
    | .remote pa =>
      if s.rewrites e pa n then (s, some .wait) else (post s none pa, none)
    | .host pa =>
      let s := s.performWhere fun x => x.core == e.core && x.touches (pa / 128)
      let s := if e.dieEngine then s else s.hostLeaves e.core pa (new.zip mask)
      (s.hostPost (s.tenantOf e.core) pa new (if mask.all (· == 0xFF) then [] else mask), none)
    | .dev _ => (s, some (.trap (causeAccess, 5) va))

/-- Make writes in order until one stops: the writes left. -/
def State.writeEach (s : State) (e : Entry) : List (Nat × List (Byte × Byte)) → State × List (Nat × List (Byte × Byte)) × Option Stop
  | [] => (s, [], none)
  | w :: r =>
    match s.writeVa e w with
    | (s, none) => s.writeEach e r
    | (s, some x) => (s, w :: r, some x)

/-- The first of the writes, or for a copy any one that comes after no write to its bytes (R89). -/
def State.pickWrite (s : State) (e : Entry) (l : List (Nat × List (Byte × Byte))) : State × Nat :=
  if engineOf e.instr = some 2 then
    let (c, s) := s.choose l.length
    let w := (l[c]?).getD (0, [])
    (s, if (l.take c).any fun q => decide (q.1 < w.1 + w.2.length) && decide (w.1 < q.1 + q.2.length) then 0 else c)
  else (s, 0)

/-- A write in the pieces of 8 aligned bytes that are each performed as a whole (R74); `n` bounds their number. -/
def splitEight : Nat → Nat × List (Byte × Byte) → List (Nat × List (Byte × Byte))
  | 0, w => [w]
  | n + 1, (a, bs) =>
    let k := 8 - a % 8
    if bs.length ≤ k then [(a, bs)] else (a, bs.take k) :: splitEight n (a + k, bs.drop k)

/-- The writes of an entry's turn: all of them until one stops, or at a pace of its own 8 aligned bytes of them at most (R64, R74, R89):
the writes left. -/
def State.writeAll (s : State) (e : Entry) (l : List (Nat × List (Byte × Byte))) : State × List (Nat × List (Byte × Byte)) × Option Stop :=
  if s.pace = 0 || l.isEmpty then s.writeEach e l
  else
    let l := l.flatMap (splitEight 16)
    let (s, c) := s.pickWrite e l
    match s.writeVa e ((l[c]?).getD (0, [])) with
    | (s, none) => if l.length = 1 then (s, [], none) else (s, l.eraseIdx c, some .wait)
    | (s, some x) => (s, l, some x)

/-! ### Aliases that are not detected (R254) -/

/-- The storage behind a byte, by its flit address; none where it has none. -/
def State.storage (s : State) (e : Entry) (va : Nat) : Option Nat :=
  match (s.place e.core e.sup .rd 0 (BitVec.ofNat 64 va)).2 with
  | .ok (.spm c off _) => some (spmFlitAddr s.node c off)
  | .ok (.win w off) => match s.winTarget e.core w false with
    | .ok (node, c) => some (spmFlitAddr node c off)
    | .error _ => none
  | .ok (.mem pa) | .ok (.host pa) => some (s.node * 2 ^ 46 + pa)
  | .ok (.remote pa) => some pa
  | _ => none

def spanVas (l : List Span) : List Nat :=
  l.flatMap fun x => let (lo, hi) := spanBytes x; (List.range (hi - lo + 1).toNat).map (lo.toNat + ·)

/-- Writes and reads meet in storage, through a remote window or a second mapping, where their addresses do not. -/
def State.hiddenAlias (s : State) (e : Entry) (writes reads : List Span) : Bool :=
  let plain (l : List Span) : Bool := l.all fun x => addrClass (Int.fdiv x.1 8) == 0
  if plain writes && plain reads then false
  else
    let rd := (spanVas reads).map fun a => (a, s.storage e a)
    (spanVas writes).any fun a => match s.storage e a with
      | none => false
      | some k => rd.any fun (b, q) => b != a && q == some k

/-- Writes of free values at the spans given. -/
def State.freePuts (s : State) : List Put → State × List Put
  | [] => (s, [])
  | (x, _) :: r =>
    let (v, s) := s.draw
    let (s, l) := s.freePuts r
    (s, (x, v.toNat % 2 ^ x.2) :: l)

/-! ### Bytes that a pending entry may write (R87) -/

/-- The bytes between the first and the last element of a descriptor's view, and of its scales. -/
def descBounds (core : Nat) (d : Desc) : List Span :=
  let v := viewOf d
  let corners := [v.bit (0, 0), v.bit (0, v.vc - 1), v.bit (v.vr - 1, 0), v.bit (v.vr - 1, v.vc - 1)]
  let lo := corners.foldl min (v.bit (0, 0))
  let hi := corners.foldl max (v.bit (0, 0))
  (ownSpan core (lo, (hi - lo).toNat + fmtBits v.fmt)) ::
    (if v.blk = 0 then [] else [ownSpan core ((v.scales : Int) * 8, 8 * (v.scaleIx (v.vr - 1, v.vc - 1) + 1))])

end Sys2Proof.Machine
end

