-- ==== Sys2Proof/Machine/Flags.lean ====
section
/-!
DEFINITION. Flags: VFLAGS of the scalar floating-point instructions (R179), MFLAGS (R232), the lanes' sticky flags
(R122), and the strand's counters f0 to f31 (R218, R219).
-/
namespace Sys2Proof.Machine

/-- Raised flags are ORed into VFLAGS.SCALAR (R179). -/
def State.orVflags (s : State) (fl : Nat) : State :=
  s.modSt (·.modNow fun r => { r with vflags := r.vflags ||| BitVec.ofNat 5 fl })

/-- Flags of ME entries are ORed into the strand's MFLAGS (R232, R283). -/
def State.orMflags (s : State) (n fl : Nat) : State :=
  s.modStrand n (·.modNow fun r => { r with mflags := r.mflags ||| BitVec.ofNat 5 fl })

/-- Flags of one lane of a strand (R18, R122). -/
def Regs.orLane (r : Regs) (lane fl : Nat) : Regs :=
  if fl % 32 = 0 then r else { r with lanes := smSet 0 r.lanes lane (smGet 0 r.lanes lane ||| BitVec.ofNat 5 fl) }

/-- LANEOR (R235). -/
def Regs.laneOr (r : Regs) : BitVec 5 := r.lanes.foldl (fun a p => a ||| p.2) 0

/-- VFLAGS as it reads (R235). -/
def Regs.vflagsWord (r : Regs) : Word := (r.laneOr.setWidth 64 <<< 5) ||| r.vflags.setWidth 64

/-- A flag counter rises by `v` modulo 256 (R218); a strand in WFI wakes (R229). -/
def Strand.addFlag (x : Strand) (f : Nat) (v : Byte) : Strand :=
  { x.modNow (fun r => r.setF f (r.getF f + v)) with wfi := false }

def Strand.putFlag (x : Strand) (f : Nat) (v : Byte) : Strand := { x.modNow (·.setF f v) with wfi := false }

end Sys2Proof.Machine
end

