-- ==== Sys2Proof/Machine/Recovery.lean ====
section
/-!
DEFINITION. Regions and recovery: RGN (R59, R147, R243) and the events of a strand's outstanding work: results that return
(R154), stores that reach their homes (R73, R95), the watchdog (R58), the check of a region (R468), traps (R230) and
replays (R464).
-/
namespace Sys2Proof.Machine

/-- RGN (R59, R243): opens its region, or opens the same region again on a replay (R464). -/
def execRgn (f : MFields) (s : State) : Out1 :=
  let x := s.st
  let imm := f.imm.toNat
  let r : Region := { id := f.n.toNat, entry := x.addr, mask := BitVec.ofNat 64 (imm % 2 ^ 32 / 2 * 2),
                      expCycles := f.mode.toNat, expSig := BitVec.ofNat 32 (imm / 2 ^ 32) }
  done (match x.regions.getLast? with
    | some q =>
      if q.reopen && q.id != 0xFFFF && q.entry == x.addr then
        s.setSt { x with regions := x.regions.dropLast ++ [{ q with reopen := false, id := r.id, mask := r.mask,
                                                                    expCycles := r.expCycles, expSig := r.expSig }] }
      else s.setSt (x.openRegion r)
    | none => s.setSt (x.openRegion r))

/-- A V or M word of `n` bytes joins the signature of the current region (R167, R468). -/
def Strand.addSig (x : Strand) (w n : Nat) : Strand :=
  match x.regions.getLast? with
  | some r => { x with regions := x.regions.dropLast ++ [{ r with sig := crc32c r.sig (leBytes n w) }] }
  | none => x

/-- An engine reports the cycles of an entry (R468). -/
def Strand.addCycles (x : Strand) (rid k : Nat) : Strand :=
  { x with regions := x.regions.map fun r => if r.rid = rid then { r with cycles := r.cycles + k } else r }

/-- SCOREBOARD_RETURN (R154): the value of strand `n`'s operation number `k` is written and its register released. -/
def execScoreboardReturn (s : State) : Out1 :=
  let n := s.ev.n
  let x := s.strandAt n
  done (match x.board[s.ev.k]? with
    | none => s
    | some b =>
      match b.val with
      | none => s
      | some v =>
        let (v, s) := if b.undef then s.draw else (v, s)
        let x := { x with board := x.board.eraseIdx s.ev.k }
        let x := match b.dst with
          | .s d => x.landS b.seq d (v.setWidth 64)
          | .t d => x.landT b.seq d v
        s.setStrand n x.prune)

/-- WRITE_PERFORMED (R73, R95): store number `n` is applied at its home or leaves for the host, unless the host may hold its line
(R441); the numbers above those of the stores name the parity updates, and one of them completes, with the earlier ones of its line. -/
def execWritePerformed (s : State) : Out1 :=
  let n := s.ev.n
  done (match s.stores[n]? with
    | some x =>
      if s.held.contains (x.pa / 128) then s else ({ s with stores := s.stores.eraseIdx n } : State).performStore x
    | none =>
      match s.parity[n - s.stores.length]? with
      | none => s
      | some p =>
        let k := n - s.stores.length
        { s with parity := (s.parity.zipIdx.filter fun (q, i) => !(decide (i ≤ k) && q.line == p.line)).map (·.1) })

/-- WATCHDOG (R58): the count of strand `n` has reached the limit. -/
def execWatchdog (s : State) : Out1 :=
  let n := s.ev.n
  let x := s.strandAt n
  let limit := (s.coreAt (coreOf n)).wdogLimit
  done (if x.live && limit != 0 && decide (limit ≤ x.wdog) && x.fault.isNone then
      (s.modStrand n ({ · with wdog := 0 })).recordFault n
        { cause := causeWatchdog, info := if x.flight.isSome then x.addr else x.pc, aux := BitVec.ofNat 64 limit,
          seq := x.seq, rid := x.curRid }
    else s)

/-- A strand takes its reported fault when all earlier work has ended (R246). -/
def State.faultEvent (s : State) (replay : Bool) : State :=
  let x := s.strandAt s.ev.n
  match x.fault with
  | some p => if x.faultReady && (p.replay != 0) == replay then s.takeFault s.ev.n else s
  | none => s

/-- TRAP_ENTRY (R230, R246). -/
def execTrapEntry (s : State) : Out1 := done (s.faultEvent false)

/-- REGION_REPLAY (R464). -/
def execRegionReplay (s : State) : Out1 := done (s.faultEvent true)

/-- The region of a strand whose comparison is due (R468): its last entry has reported, and it is closed or a commit waits
for it. -/
def Strand.dueCheck (x : Strand) : Option Region :=
  x.regions.find? fun r => r.expCycles != 0 && !r.checked && (r.closed || x.commit) && !x.regionBusy r.rid

/-- REGION_CHECK (R243, R468) of strand `n`. -/
def execRegionCheck (s : State) : Out1 :=
  let n := s.ev.n
  let x := s.strandAt n
  done (match x.dueCheck with
    | none => s
    | some r =>
      let sig := ~~~r.sig
      if r.cycles = r.expCycles && sig = r.expSig then
        let mark (q : Region) : Region := if q.rid = r.rid then { q with checked := true } else q
        s.setStrand n (Strand.prune { x with regions := x.regions.map mark })
      else if r.replays < 2 && !r.sdcReplay then
        s.recordFault n { cause := causeSdc, info := 0, aux := 0, seq := r.openSeq, rid := r.rid, replay := 5 }
      else
        let rec0 : RasRec := { info := r.entry.toNat, kind := 6, tenant := s.tenantOf (coreOf n), task := x.task }
        (s.rasWrite (dieOf (coreOf n)) rec0).recordFault n
          { cause := causeSdc, info := BitVec.ofNat 64 r.cycles, aux := sig.setWidth 64, seq := r.openSeq, rid := r.rid })

end Sys2Proof.Machine
end

