-- ==== Sys2Proof/Machine/Push.lean ====
section
/-!
DEFINITION. Queue entries from their push to their end (R19, R54, R86, R143, R157, R246): the push of a V or M slot, an
entry's progress, its completion, and its faults.
-/
namespace Sys2Proof.Machine

/-- FL of a word with FE = 1 (R142, R145). -/
def entryFlag (i : Instr) : Option Nat :=
  match vCode i with
  | some (_, f) => if f.fe = 1 then some f.fl.toNat else none
  | none =>
    match mCode i with
    | some (_, f) => if f.fe = 1 then some f.fl.toNat else none
    | none => none

/-- The word of a V or M instruction and its bytes (R167). -/
def entryWord (i : Instr) : Nat × Nat :=
  match vCode i with
  | some (op, f) => (encodeV op f, 12)
  | none =>
    match mCode i with
    | some (op, f) => (encodeM op f, 24)
    | none => (0, 0)

/-- Spans as virtual ranges: first byte and length. -/
def spanRanges (l : List Span) : List (Nat × Nat) := l.map fun x => let (lo, hi) := spanBytes x; (lo.toNat, (hi - lo + 1).toNat)

/-- The units that a command's entry may write (R87): the view of its second descriptor, for those that write one. -/
def commandWrites (i : Instr) (e : Entry) : List Span :=
  match i with
  | .cpy _ | .cpyi _ | .cpyk _ | .cpymc _ | .cpyrs _ | .clar _ | .clrs _ | .clag _ | .clbc _ | .clxr _ | .stft _ =>
    descBounds e.core (smGet 0 e.d 2)
  | _ => []

/-- The slot's entry enters its queue (R19, R143): the strand's scalar accesses so far come before it (R86). -/
def State.pushEntry (s : State) (i : Instr) (cycles : Nat) (writes : Entry → List Span) : State :=
  let (s, after) := s.earlier s.cur
  let e := s.entryOf i
  let e := { e with cycles, after, covers := if e.runs then spanRanges (writes e) else [] }
  let q := (engineOf i).getD 0
  s.modSt fun x => { x with queues := smPut x.queues q (smGet [] x.queues q ++ [e]) }

/-- The slot pushes its entry, and its word joins the signature of the current region (R468). -/
def State.push (s : State) (i : Instr) (cycles : Nat) (writes : Entry → List Span := fun _ => []) : State :=
  let (w, k) := entryWord i
  (s.pushEntry i cycles writes).modSt (·.addSig w k)

/-- A commit-class M slot (R60): when it first stands at its turn, its word and its scheduled time join the signature and the sum of the
region that it closes, before they are compared (R167, R243, R468). -/
def State.commitPush (s : State) (i : Instr) (cycles : Nat) (f : State → State) : State :=
  let (w, k) := entryWord i
  (if s.st.retry || s.st.cancelling then s else s.modSt fun x => (x.addSig w k).addCycles x.curRid cycles).commit f

/-- VCOUNT (R143): a count register's value above 65,535. -/
def State.pushV (s : State) (i : Instr) (cycles : Entry → Nat) (writes : Entry → List Span) : State :=
  let e := s.entryOf i
  match vCode i with
  | some (_, f) =>
    if 65535 < e.cnt then s.raise (causeVcount, f.cnt.toNat % 64) s.st.addr else s.push i (cycles e) writes
  | none => s

/-- Change the entries with number `seq` of a queue. -/
def modEntries (seq : Nat) (f : Entry → Entry) (l : List Entry) : List Entry := l.map fun e => if e.seq = seq then f e else e

/-- The entry as it stands now replaces itself in its queue. -/
def State.putEntry (s : State) (e : Entry) : State :=
  match e.strand with
  | some n => s.modStrand n fun x => { x with queues := x.queues.map fun (k, l) =>
      (k, if some k = engineOf e.instr then modEntries e.seq (fun _ => e) l else l) }
  | none => s.modCore e.core fun c => { c with apq := modEntries e.seq (fun _ => e) c.apq }

/-- The entry leaves its queue. -/
def State.dropEntry (s : State) (e : Entry) : State :=
  match e.strand with
  | some n => s.modStrand n fun x => { x with queues := x.queues.map fun (k, l) =>
      (k, if some k = engineOf e.instr then l.filter (·.seq != e.seq) else l) }
  | none => s.modCore e.core fun c => { c with apq := c.apq.filter (·.seq != e.seq) }

/-- The number under which an engine remembers the queue it served last: a strand slot of its core, 4 for the aperture
queue, or a strand of its die. -/
def Entry.queueNo (e : Entry) (engine : Nat) : Nat :=
  match e.strand with
  | some n => if engine ≤ 2 then n % Config.slots else n % (Config.coresPerDie * Config.slots)
  | none => 4

/-- The core in whose record a die engine keeps what it served last. -/
def servedCore (engine core : Nat) : Nat := if engine ≤ 2 then core else dieOf core * Config.coresPerDie

/-- An address of the own scratchpad, where a finished copy's bytes are below its watermark (R89). -/
def ownBytes (a : Nat) : Bool := decide (localBase ≤ a) && decide (a < localBase + 0x400000)

/-- The entry completes (R19, R87): its flag rises, its cycles are reported, and its region may be complete (R62). -/
def State.endEntry (s : State) (e : Entry) : State :=
  let k := (engineOf e.instr).getD 0
  let s := (s.dropEntry e).modCore (servedCore k e.core) fun c => { c with lastServed := smPut c.lastServed k (e.queueNo k) }
  match e.strand with
  | none => s
  | some n => s.modStrand n fun x =>
      let x := match entryFlag e.instr with
        | some f => x.addFlag f 1
        | none => x
      let mark : Unseen := { engine := k, flag := (entryFlag e.instr).map fun f => (f, x.now.getF f),
                             covers := if k = 2 then e.covers.filter fun p => !ownBytes p.1 else e.covers }
      let x := if mark.covers.isEmpty then x else { x with unseen := x.unseen ++ [mark] }
      (x.addCycles e.rid e.cycles).prune

/-- The entry of strand `n` faults (R246). -/
def State.entryFault (s : State) (e : Entry) (cause aux : Nat) (info : Word) : State :=
  match e.strand with
  | none => s.endEntry e
  | some n => s.recordFault n { cause, info, aux := BitVec.ofNat 64 aux, seq := e.seq, rid := e.rid }

/-- The entry consumed an uncorrectable error (R464). -/
def State.entryConsumed (s : State) (e : Entry) (unit va : Nat) : State :=
  match e.strand with
  | none => s.endEntry e
  | some n => s.recordFault n { cause := causePoison, info := BitVec.ofNat 64 va, aux := BitVec.ofNat 64 (0xF + unit * 256), seq := e.seq,
                                rid := e.rid, replay := 3 }

/-- The entry's operand access stops. -/
def State.entryStop (s : State) (e : Entry) (x : Stop) : State :=
  match x with
  | .trap t va => s.entryFault e t.1 t.2 (BitVec.ofNat 64 va)
  | .consumed u va => s.entryConsumed e u va
  | .wait => s.putEntry { e with phase := max e.phase 1 }

/-- Ask for the bytes that an entry still needs. A host line that is read through the L1 is asked for whole, and enters it (R24, R252). -/
def State.ask (s : State) (e : Entry) (need : List (Nat × Nat)) : State :=
  let (s, ids) := s.askLines (dieOf e.core) (s.tenantOf e.core) (.entry e.core e.seq) need
  s.putEntry { e with waits := e.waits ++ ids, phase := max e.phase 1 }

/-- After the reads of an entry: go on with `f`, or stop, or wait for replies. -/
def Rd.done (r : Rd) (e : Entry) (f : State → State) : State :=
  match r.stop with
  | some x => r.s.entryStop e x
  | none => if r.need.isEmpty then f r.s else r.s.ask e r.need

/-- Phase 2 of an entry: make the writes that are left; when all are made and acknowledged (R87), `fin` runs and the entry
completes. -/
def State.drainPlan (s : State) (e : Entry) (fin : State → Entry → State) : State :=
  match s.writeAll e e.plan with
  | (s, rest, some .wait) => s.putEntry { e with phase := 2, plan := rest }
  | (s, _, some x) => s.entryStop e x
  | (s, _, none) =>
    let e := { e with phase := 2, plan := [] }
    if s.posted.any fun p => p.strand == e.strand.getD 2047 && p.seq == e.seq && p.core == e.core then s.putEntry e
    else (fin s e).endEntry e

/-- The turn of an entry of engine `k` of a core: an injected parity error of its buffers is consumed by the entry read next
(R465, R519). -/
def State.engineTurn (s : State) (k : Nat) (e : Entry) (run : State → Entry → State) : State :=
  if e.phase = 0 && (smFind (s.coreAt e.core).inj (injKey 7 k)).isSome then
    (s.modCore e.core fun c => { c with inj := smDel c.inj (injKey 7 k) }).entryConsumed e 7 0
  else run s e

/-- TRAP_AUX of TDESC (R244). -/
def tdescAux (desc cond : Nat) : Nat := cond * 256 + desc

end Sys2Proof.Machine
end

