-- ==== Sys2Proof/Machine/Transc.lean ====
section
/-!
DEFINITION. The transcendental functions of the vector engine (R259): the exact real value, given as a fraction that lies
within 2 to the power -300 of it, relatively, and on the same side of every rounding boundary (log 8). Where the value is
rational, the fraction is exact.
-/
namespace Sys2Proof.Machine

/-- Fraction bits of the fixed-point numbers below. -/
def fxBits : Nat := 1000
def fxOne : Int := 2 ^ fxBits

/-- A product of fixed-point numbers. -/
def fxMul (a b : Int) : Int := Int.fdiv (a * b) fxOne

/-- A fraction as a fixed-point number, rounded down. -/
def fxOf (neg : Bool) (n d : Nat) : Int := Int.fdiv (sgnNum neg n * fxOne) d

/-- `t + t z / (j + 2) + ...`: `k` terms of the odd series with coefficients `1 / j`, for atanh (z = x * x) and atan
(z = - x * x). -/
def fxOdd (z : Int) : Nat → Nat → Int → Int
  | 0, _, _ => 0
  | k + 1, j, t => Int.fdiv t j + fxOdd z k (j + 2) (fxMul t z)

/-- The sum of `k` terms of an exponential series: each term is the one before times `z`, divided by `j (j + 1)` or `j`. -/
def fxExp (z : Int) (step : Nat) : Nat → Nat → Int → Int
  | 0, _, _ => 0
  | k + 1, j, t =>
    let u := fxMul t z
    t + fxExp z step k (j + step) (if step = 1 then Int.fdiv u j else Int.fdiv u (j * (j + 1)))

def fxAtanh (x : Int) : Int := fxOdd (fxMul x x) 700 1 x
def fxAtanInv (n : Nat) : Int := let x := Int.fdiv fxOne n; fxOdd (-(fxMul x x)) 700 1 x

/-- ln 2 = 2 atanh (1/3). -/
def fxLn2 : Int := 2 * fxAtanh (Int.fdiv fxOne 3)

/-- pi = 16 atan (1/5) - 4 atan (1/239). -/
def fxPi : Int := 16 * fxAtanInv 5 - 4 * fxAtanInv 239

/-- The middle of the unit step above a fixed-point number, as a value: never a representable number. -/
def fxMid (a : Int) (e : Int) : Val :=
  let k := 2 * a + 1
  let (n, d) := fracScale k.natAbs 1 (e - fxBits - 1)
  .fin (decide (k < 0)) n d

/-- 2 ^ x. An exponent beyond 4096 in magnitude stands for every larger one: all lie beyond or below every format. -/
def valExp2 (v : Val) : Val :=
  match v with
  | .nan | .snan => .nan
  | .inf neg => if neg then .fin false 0 1 else .inf false
  | .fin neg n d =>
    let x := sgnNum neg n
    let k := max (-4097) (min 4096 (Int.fdiv x d))
    let f := x - k * d
    if f = 0 then let (a, b) := fracScale 1 1 k; .fin false a b
    else if k = 4096 || k = -4097 then fxMid fxOne k
    else fxMid (fxExp (fxMul (fxOf false f.toNat d) fxLn2) 1 200 1 fxOne) k

/-- log2 x and ln x / ln 2, for x above 0: the exponent and the logarithm of the mantissa between 3/4 and 3/2. -/
def log2Frac (n d : Nat) : Val :=
  let e0 := floorLog2 n d
  let e := let (a, b) := fracScale n d (-e0); if 3 * b ≤ 2 * a then e0 + 1 else e0
  let (a, b) := fracScale n d (-e)
  if a = b then .fin (decide (e < 0)) e.natAbs 1
  else
    let m := fxAtanh (Int.fdiv (((a : Int) - b) * fxOne) ((a : Int) + b))
    fxMid (e * fxOne + Int.fdiv (2 * m * fxOne) fxLn2) 0

/-- log2 (R259): NV below -0, DZ at zero. -/
def valLog2 (v : Val) : Val × Nat :=
  match v with
  | .nan => (.nan, 0)
  | .snan => (.nan, flNV)
  | .inf neg => if neg then (.nan, flNV) else (.inf false, 0)
  | .fin neg n d => if n = 0 then (.inf true, flDZ) else if neg then (.nan, flNV) else (log2Frac n d, 0)

/-- A value times a constant in fixed point (log2 e, ln 2, 2 pi). -/
def valTimes (v : Val) (c : Int) : Val :=
  match v with
  | .fin neg n d => if n = 0 then v else .fin neg (n * (2 * c.natAbs + 1)) (d * 2 ^ (fxBits + 1))
  | v => v

def valLog2e (v : Val) : Val := valTimes v (Int.fdiv (fxOne * fxOne) fxLn2)
def valLn2 (v : Val) : Val := valTimes v fxLn2

/-- x - 2 pi m, m the integer nearest x / 2 pi (R259). -/
def valMod2Pi (neg : Bool) (n d : Nat) : Val :=
  let x := sgnNum neg n * fxOne
  let p := 2 * fxPi * d
  let m := Int.fdiv (2 * x + p) (2 * p)
  if m = 0 then .fin neg n d
  else
    let r := 2 * (x - m * p) + 1
    .fin (decide (r < 0)) r.natAbs (d * 2 ^ (fxBits + 1))

/-- The sine and the cosine of a value of magnitude below 4. -/
def valSinCos (cos : Bool) (v : Val) : Val :=
  match v with
  | .fin neg n d =>
    if n = 0 then (if cos then .fin false 1 1 else v)
    else
      let x := fxOf neg n d
      let z := -(fxMul x x)
      if cos then fxMid (fxExp z 2 150 1 fxOne) 0 else fxMid (fxExp z 2 150 2 x) 0
  | _ => .nan

/-- r(): rounded to FP32 to nearest; the flags are the overflow of a finite value alone (R253, R259). -/
def valR (v : Val) : Val × Nat :=
  let (c, fl) := ffRound ffF32 0 0 false v
  (ffDec ffF32 c, if valIsFinite v && fl &&& flOF != 0 then flOF ||| flNX else 0)

/-- E(w) = r(2 ^ r(w log2 e)) (R259). -/
def valE (w : Val) : Val × Nat :=
  let (a, f1) := valR (valLog2e w)
  let (b, f2) := valR (valExp2 a)
  (b, f1 ||| f2)

def valOne : Val := .fin false 1 1

/-- G(w) = r(1 / (1 + E(-w))) (R259). -/
def valG (w : Val) : Val × Nat :=
  let (e, f1) := valE (valNeg w)
  let (g, f2) := valR (valDiv valOne (valAdd false valOne e).1).1
  (g, f1 ||| f2)

/-- The sign of a value replaced. -/
def valWithSign (v : Val) (neg : Bool) : Val :=
  match v with
  | .fin _ n d => .fin neg n d
  | .inf _ => .inf neg
  | v => v

/-- The operations of R259 on a value: the exact value that put rounds, and the flags before put. -/
def transc (vop : Nat) (x : Val) : Val × Nat :=
  match x with
  | .nan => (.nan, 0)
  | .snan => (.nan, flNV)
  | x =>
    let (a, fa) := valR (valLog2e x)
    match vop with
    | 0x20 => (valExp2 a, fa)
    | 0x21 => (valExp2 x, 0)
    | 0x22 =>
      let (l, f) := valLog2 x
      let (r, f2) := valR l
      (valLn2 r, f ||| f2)
    | 0x23 => valLog2 x
    | 0x24 =>
      let (e, f1) := valE (valMul (.fin true 2 1) (valAbs x)).1
      let (t, f2) := valR (valDiv (valAdd false valOne (valNeg e)).1 (valAdd false valOne e).1).1
      (valWithSign t (valSign x), f1 ||| f2)
    | 0x25 =>
      let (e, f) := valE (valNeg x)
      ((valDiv valOne (valAdd false valOne e).1).1, f)
    | 0x26 =>
      let (w, f1) := valR (valMul x (ffDec ffF32 0x3FD9DB23)).1
      let (g, f2) := valG w
      let (v, f3) := valMul x g
      (v, f1 ||| f2 ||| f3)
    | 0x27 =>
      let (g, f1) := valG x
      let (v, f2) := valMul x g
      (v, f1 ||| f2)
    | _ =>
      match x with
      | .fin neg n d =>
        let (w, f) := valR (valMod2Pi neg n d)
        (valSinCos (vop == 0x29) w, f)
      | _ => (.nan, flNV)

end Sys2Proof.Machine
end

