-- ==== Sys2Proof/Machine/VectorOps.lean ====
section
/-!
DEFINITION. What every V operation shares: scheduled time (R256), the checks of an entry and its reads (R248 to R250, R254,
R255, R268), put (R251), lane flags (R253), and the writes.
-/
namespace Sys2Proof.Machine

/-! ### Scheduled time (R256) -/

/-- The pass factor P. -/
def vPass (vop : Nat) : Nat :=
  if vop = 6 || (0x0B ≤ vop && vop ≤ 0x0D) || vop = 0x54 || vop = 0x72 || vop = 0x77 then 2
  else if 0x20 ≤ vop && vop ≤ 0x29 then 4
  else if vop = 0x58 then 6
  else 1

/-- Segment length of a reduction (R262, R265). -/
def vSegLen (vop : Nat) (f : VFields) (ts1 : Desc) (n : Nat) : Nat :=
  if !f.mod.getLsbD 5 then n
  else if vop = 0x55 && f.mod.getLsbD 4 then 256
  else max 1 (viewOf ts1).vc

/-- Number of results S (R256). -/
def vResults (vop : Nat) (f : VFields) (ts1 : Desc) (n : Nat) : Nat :=
  if (0x50 ≤ vop && vop ≤ 0x53) || vop = 0x55 || vop = 0x57 || vop = 0x58 then
    if n = 0 then 0 else (n + vSegLen vop f ts1 n - 1) / max 1 (vSegLen vop f ts1 n)
  else 0

/-- An operand runs at the full rate (R256). -/
def fullRate (d : Desc) (off : Nat) : Bool :=
  let v := viewOf d
  !v.tr && decide (v.estr = 1) && decide (v.rstr * 8 = v.cols * fmtBits v.fmt) &&
    decide (v.bit (if v.vc = 0 then (0, 0) else v.flat off) % 512 = 0)

/-- Source positions that an operation lists and does not broadcast. -/
def vBroadcast (vop : Nat) (f : VFields) (pos : Nat) : Bool :=
  (vUses vop f.mod.toNat).mod.testBit (pos - 1) && f.mod.getLsbD (pos - 1)

/-- Scheduled core cycles of an entry (R256): the count of VCMPR (R266) and the scale bytes of VQNT and VDQNT (R260) have a first element of
their own. -/
def vCycles (vop : Nat) (f : VFields) (e : Entry) : Nat :=
  let d (k : Nat) : Desc := smGet 0 e.d k
  let off (k : Nat) : Nat := (smGet 0 e.o (if k = 0 then 0 else 1)).toNat % 2 ^ 32
  let first (k : Nat) : Nat :=
    let block (p : Nat) : Nat := let v := viewOf (d p); if v.blk = 0 || v.vc = 0 then off k else v.scaleIx (v.flat (off p))
    if vop = 0x66 && k == 3 then 0 else if vop = 0x31 && k == 2 then block 0 else if vop = 0x32 && k == 2 then block 1 else off k
  let ts := (vUses vop f.mod.toNat).ts
  let ops := 0 :: ([1, 2, 3].filter fun k => ts.testBit (k - 1))
  let rate :=
    if vop = 0x62 || vop = 0x63 || vop = 0x64 || ops.any fun k => !vBroadcast vop f k && !fullRate (d k) (first k) then 16
    else 8192 / max 4 (ops.foldl (fun m k => max m (fmtBits (viewOf (d k)).fmt)) 1)
  let s := vResults vop f (d 1) e.cnt
  8 + (e.cnt * vPass vop + rate - 1) / rate + 8 * s + (if vop = 0x58 then 16 * s else 0)

/-! ### Operands -/

/-- A source operand of an entry: position 1 to 3, the flat indices it reads, how, and whether its extent is its view. -/
structure Src where
  pos : Nat
  ix : List Nat
  raw : Bool := false
  bcast : Bool := false
  whole : Bool := false
  /-- the operation itself reads those of its elements that it needs (R266) -/
  late : Bool := false

/-- A destination: position 0, or 3 for VCMPR's count. -/
structure Dst where
  pos : Nat := 0
  ix : List Nat
  /-- it is written through put, so block scales are written too -/
  put : Bool := true
  whole : Bool := false

/-- One element as read. -/
structure Got where
  code : Nat
  vals : List Val
  fl : Nat
deriving Inhabited

def Entry.desc (e : Entry) (pos : Nat) : Desc := smGet 0 e.d pos
def Entry.view (e : Entry) (pos : Nat) : View := viewOf (e.desc pos)
/-- od and os (R248). -/
def Entry.od (e : Entry) : Nat := (smGet 0 e.o 0).toNat % 2 ^ 32
def Entry.os (e : Entry) : Nat := (smGet 0 e.o 1).toNat % 2 ^ 32

/-- Elements and block scales that indices touch. -/
def touched (v : View) (ix : List Nat) (whole scales : Bool) : List Span × List Span :=
  if v.vc = 0 then ([], []) else
  let rcs := if whole then v.all ++ (ix.map v.flat).filter (fun rc => !(decide (rc.1 < v.vr))) else ix.map v.flat
  (joinSpans (rcs.map v.span),
   if scales && v.blk != 0 then ((rcs.map v.scaleIx).eraseDups).map v.scaleSpan else [])

/-- The number of the descriptor at a position. -/
def vReg (f : VFields) (pos : Nat) : Nat :=
  (if pos = 0 then f.td else if pos = 1 then f.ts1 else if pos = 2 then f.ts2 else f.ts3).toNat

/-- A source that equals the destination exactly (R254). -/
def sameOperand (e : Entry) (x : Src) : Bool :=
  let a := e.view 0
  let b := e.view x.pos
  !x.bcast && a.base == b.base && decide (a.estr = b.estr) && decide (a.rstr = b.rstr) && a.tr == b.tr && a.rows == b.rows
    && a.cols == b.cols && fmtBits a.fmt == fmtBits b.fmt && e.od == e.os

/-- Extents as R254 compares them: elements, then scales; those of a block-scaled destination are part of it always. -/
def srcExtent (e : Entry) (x : Src) : List Span × List Span :=
  let (a, b) := touched (e.view x.pos) x.ix x.whole (!x.raw)
  (a.map (ownSpan e.core), b.map (ownSpan e.core))
def dstExtent (e : Entry) (x : Dst) : List Span × List Span :=
  let (a, b) := touched (e.view x.pos) x.ix x.whole true
  (a.map (ownSpan e.core), b.map (ownSpan e.core))

/-- VALIAS of a destination against a source (R254, R255): whether a scale array is one of the overlapping extents. -/
def aliasPair (e : Entry) (d : Dst) (x : Src) : Option Bool :=
  let (de, ds) := dstExtent e d
  let (se, ss) := srcExtent e x
  if spansMeet de ss || spansMeet ds se || spansMeet ds ss then some true
  else if spansMeet de se then some false
  else none

/-- The first overlap: TRAP_AUX of R255. -/
def valias (e : Entry) (f : VFields) (inPlace : Bool) (ds : List Dst) (xs : List Src) : Option Nat :=
  ds.findSome? fun d => xs.findSome? fun x =>
    if d.pos = 0 && inPlace && sameOperand e x then none
    else (aliasPair e d x).map fun sc =>
      let p := if d.pos = 3 then 3 else x.pos
      (if sc then 1024 else 0) + p * 256 + vReg f p

/-- The first TDESC of an entry (R36, R268), in the order TD, TS1, TS2, TS3. -/
def State.vTdesc (s : State) (e : Entry) (f : VFields) (ds : List Dst) (xs : List Src) : Option Nat :=
  [0, 1, 2, 3].findSome? fun p =>
    let t := match ds.find? (·.pos == p), xs.find? (·.pos == p) with
      | some d, _ => some (touched (e.view p) d.ix d.whole d.put)
      | none, some x => some (touched (e.view p) x.ix x.whole (!x.raw))
      | none, none => none
    t.bind fun (a, b) => (s.tdesc e.strand (e.desc p) a b).map (tdescAux (vReg f p))

/-! ### Reads -/

/-- Read the elements of a source (R250, R252). -/
def Rd.src (r : Rd) (e : Entry) (x : Src) (hint : Nat) : Rd × List Got :=
  if x.late then (r, []) else
  let v := e.view x.pos
  let (r, l) := x.ix.foldl (fun (r, l) j =>
    if x.raw then let (r, c) := r.code e v (v.flat j) hint; (r, { code := c, vals := [], fl := 0 } :: l)
    else let (r, vs, fl) := r.value e v (v.flat j) hint; (r, { code := 0, vals := vs, fl } :: l)) (r, ([] : List Got))
  (r, l.reverse)

/-- Read all sources. -/
def Rd.srcs (r : Rd) (e : Entry) (hint : Nat) : List Src → Rd × List (List Got)
  | [] => (r, [])
  | x :: xs =>
    let (r, a) := r.src e x hint
    let (r, b) := r.srcs e hint xs
    (r, a :: b)

/-- The element of a source for position `i`: a broadcast source has one (R249). -/
def gotAt (x : Src) (l : List Got) (i : Nat) : Got := if x.bcast then l.headD default else (l[i]?).getD default

/-- The hint of a V word's reads (R252): the home with HINT = 10, else as a load with hint 00. -/
def vHint (f : VFields) : Nat := if f.hint = 2 then 2 else 0

/-! ### put and the lane flags (R251, R253) -/

/-- A value for put: the destination's flat index, its components, the index of R119, and the lane of its flags. -/
structure PutVal where
  j : Nat
  vals : List Val
  ix : Nat
  lane : Nat

/-- NV for a signalling NaN that put converts (R109). -/
def snanOf (v : Val) : Nat := if v = .snan then flNV else 0

/-- The code of one component, and its flags. -/
def putCode (v : View) (rm q : Nat) (sat : Bool) (x : Val) : Nat × Nat :=
  let (y, f1) := valDiv x (tscaleVal v.tscale)
  let (c, f2) := fmtRound (fmtPart v.fmt) rm q sat y
  (c, f1 ||| f2)

/-- put into a destination without block scales: codes and lane flags. A real result leaves the imaginary part of a complex
destination a free value (log 9). -/
def State.putPlain (s : State) (e : Entry) (v : View) (rm : Nat) (sat : Bool) :
    List PutVal → State × List Put × List (Nat × Nat)
  | [] => (s, [], [])
  | p :: r =>
    let q := srHash e.srSeed p.ix
    let (c, fl) := putCode v rm q sat (p.vals.headD (.fin false 0 1))
    let w := fmtBits v.fmt
    let (s, code, fl) :=
      if fmtComplex v.fmt then
        match p.vals with
        | [_, y] => let (c2, f2) := putCode v rm q sat y; (s, c + c2 * 2 ^ (w / 2), fl ||| f2)
        | _ => let (z, s) := s.draw; (s, c + z.toNat % 2 ^ (w / 2) * 2 ^ (w / 2), fl)
      else (s, c, fl)
    let (s, ps, fs) := s.putPlain e v rm sat r
    (s, ((v.span (v.flat p.j)), code) :: ps, (p.lane, fl) :: fs)

/-- put into a block-scaled destination: the quantising write of R112 on each block the entry touches. -/
def putBlocks (e : Entry) (v : View) (rm : Nat) (l : List PutVal) : List Put × List (Nat × Nat) :=
  let blocks := (l.map fun p => v.scaleIx (v.flat p.j)).eraseDups
  blocks.foldl (fun (ps, fs) b =>
    let mine := l.filter fun p => v.scaleIx (v.flat p.j) == b
    let (k, cs) := quantBlock v.fmt rm v.tscale (mine.map fun p => (p.vals.headD (.fin false 0 1), srHash e.srSeed p.ix))
    (ps ++ [(v.scaleSpan b, k)] ++ (mine.zip cs).map (fun (p, c) => (v.span (v.flat p.j), c.1)),
     fs ++ (mine.zip cs).map fun (p, c) => (p.lane, c.2))) (([] : List Put), ([] : List (Nat × Nat)))

/-- put a list of values (R251). -/
def State.putAll (s : State) (e : Entry) (v : View) (rm : Nat) (sat : Bool) (l : List PutVal) : State × List Put × List (Nat × Nat) :=
  if v.blk = 0 then s.putPlain e v rm sat l
  else let (a, b) := putBlocks e v rm l; (s, a, b)

/-- The flags that an entry raises, by lane (R253). -/
def laneFlags (l : List (Nat × Nat)) : SMap (List Nat) :=
  l.foldl (fun m x => if x.2 = 0 then m else smPut m (x.1 % 256) [(smGet [] m (x.1 % 256)).headD 0 ||| x.2]) []

/-- What an entry does when its writes are made: the flags that it has raised go to the lanes of its strand (R253, R269), and VFLGC with
clr clears the lanes it read (R265). -/
def State.vFin (s : State) (e : Entry) : State :=
  let s := match e.strand with
    | none => s
    | some n => s.modStrand n (·.modNow fun r => e.parts.foldl (fun r x => r.orLane x.1 (x.2.headD 0)) r)
  match e.strand, e.keep with
  | some n, k :: _ => s.modStrand n (·.modNow fun r => { r with lanes := r.lanes.filter fun x => decide (k ≤ x.1) })
  | _, _ => s

/-- Write the results of an entry, which keeps the flags of its lanes until then: free values where a hidden alias leaves them
undefined. -/
def State.vWrite (s : State) (e : Entry) (xs : List Src) (puts : List Put) (fl : List (Nat × Nat)) : State :=
  let reads := xs.flatMap fun x => if sameOperand e x then [] else let (a, b) := touched (e.view x.pos) x.ix x.whole (!x.raw); a ++ b
  let (s, puts) := if s.hiddenAlias e (puts.map (·.1)) reads then s.freePuts puts else (s, puts)
  let e := { e with phase := 2, plan := writePlan puts, parts := laneFlags fl }
  (s.putEntry e).drainPlan e State.vFin

/-- The turn of a V entry: nullified, or its writes are under way, or the checks, the reads, and then `go` (R268). A count of
0 moves nothing, but for `zeroToo` (R143). -/
def State.vRun (s : State) (e : Entry) (f : VFields) (inPlace : Bool) (ds : List Dst) (xs : List Src)
    (zeroToo : Bool) (go : State → List (List Got) → State) : State :=
  if !e.runs then s.endEntry e
  else if e.phase = 2 then s.drainPlan e State.vFin
  else match s.vTdesc e f ds xs with
    | some aux => s.entryFault e causeTdesc aux e.addr
    | none =>
      if e.cnt = 0 && !zeroToo then s.endEntry e
      else match valias e f inPlace ds xs with
        | some aux => s.entryFault e causeValias aux e.addr
        | none =>
          let (r, l) := ({ s } : Rd).srcs e (vHint f) xs
          r.done e fun s => go s l

/-- The units that an entry may write (R87). -/
def vWrites (vop : Nat) (f : VFields) (e : Entry) : List Span :=
  let v := e.view 0
  if vop = 0x63 then descBounds e.core (e.desc 0)
  else
    let s := vResults vop f (e.desc 1) e.cnt
    let n := if vop = 0x55 then max 1 s else if (0x50 ≤ vop && vop ≤ 0x53) || vop = 0x57 || vop = 0x58 then s else e.cnt
    let (a, b) := touched v ((List.range n).map (e.od + ·)) false true
    let c := if vop = 0x66 then (touched (e.view 3) [0] false true).1 else []
    (a ++ b ++ c).map (ownSpan e.core)

/-- A V instruction: its slot pushes an entry, and the engine's turn runs it (R19). -/
def State.vInstr (s : State) (i : Instr) (run : State → Entry → State) : Out1 :=
  done (match s.engine with
    | none => (match vCode i with
      | some (op, f) => s.pushV i (vCycles op f) (vWrites op f)
      | none => s)
    | some e => s.engineTurn 0 e run)

/-- Flat indices of `n` positions from `o` on. -/
def ixFrom (o n : Nat) : List Nat := (List.range n).map (o + ·)

/-- Source operands at the positions given, as R248 and R249 index them. -/
def Entry.src (e : Entry) (vop : Nat) (f : VFields) (pos : Nat) (raw : Bool) : Src :=
  let b := vBroadcast vop f pos
  { pos, raw, bcast := b, ix := if b then (if e.cnt = 0 then [] else [e.os]) else ixFrom e.os e.cnt }

/-- The rounding mode of an entry (R116). -/
def Entry.rm (e : Entry) (f : VFields) : Nat := rmOf f.rm.toNat e.rmode

/-- One value put for each position (R251): `op i gs` gives the components and the flags of position `i`. -/
def State.putResults (s : State) (e : Entry) (f : VFields) (xs : List Src) (l : List (List Got)) (op : Nat → List Got → List Val × Nat) : State :=
  let rs := (List.range e.cnt).map fun i =>
    let gs := (xs.zip l).map fun (x, g) => gotAt x g i
    let (vs, fl) := op i gs
    (i, vs, gs.foldl (fun a (g : Got) => a ||| g.fl) fl)
  let (s, ps, fs) := s.putAll e (e.view 0) (e.rm f) (f.mod.getLsbD 3) (rs.map fun (i, vs, _) => { j := e.od + i, vals := vs, ix := i, lane := i })
  s.vWrite e xs ps (fs ++ rs.map fun (i, _, fl) => (i, fl))

/-- An operation that puts one value for each position. -/
def State.vPut (s : State) (e : Entry) (f : VFields) (xs : List Src) (op : Nat → List Got → List Val × Nat) : State :=
  s.vRun e f true [{ ix := ixFrom e.od e.cnt }] xs false fun s l => s.putResults e f xs l op

/-- One raw code written for each position (R250): `op i gs` gives the code and the flags. -/
def State.codeResults (s : State) (e : Entry) (xs : List Src) (l : List (List Got)) (op : Nat → List Got → Nat × Nat) : State :=
  let v := e.view 0
  let w := fmtBits v.fmt
  let rs := (List.range e.cnt).map fun i => (i, op i ((xs.zip l).map fun (x, g) => gotAt x g i))
  s.vWrite e xs (rs.map fun (i, c, _) => (v.span (v.flat (e.od + i)), c % 2 ^ w)) (rs.map fun (i, _, fl) => (i, fl))

/-- An operation that writes one raw code for each position. -/
def State.vCode (s : State) (e : Entry) (f : VFields) (xs : List Src) (op : Nat → List Got → Nat × Nat) : State :=
  s.vRun e f true [{ ix := ixFrom e.od e.cnt, put := false }] xs false fun s l => s.codeResults e xs l op

/-- An operation on values, component by component (R250): a real operand combines with both components. -/
def partsOf (op : List Val → Val × Nat) (xs : List (List Val)) : List Val × Nat :=
  let part (k : Nat) : Val × Nat := op (xs.map fun l => (l[k]?).getD (l.headD (.fin false 0 1)))
  let (a, fa) := part 0
  if xs.any fun l => decide (2 ≤ l.length) then let (b, fb) := part 1; ([a, b], fa ||| fb) else ([a], fa)

/-- The same over elements that have been read. -/
def byParts (op : List Val → Val × Nat) (gs : List Got) : List Val × Nat := partsOf op (gs.map (·.vals))

end Sys2Proof.Machine
end

