-- ==== Sys2Proof/Machine/MatrixOps.lean ====
section
/-!
DEFINITION. What the ME's commands share: fields and origins (R270, R273), scheduled times (R276, R278, R282 to R285, R307),
accumulator cells (R21, R289), the checks of an entry (R271, R279, R286 to R288), operand reads (R272) and MFLAGS.
-/
namespace Sys2Proof.Machine

/-! ### Fields -/

end Sys2Proof.Machine
namespace Sys2Proof

/-- Rows M and columns C of IMM[15:0] (R273): 0 stands for the largest. -/
def MFields.rows (f : MFields) : Nat := let m := f.imm.toNat % 256; if m = 0 then 128 else m
def MFields.cols (f : MFields) (cplx : Bool) : Nat :=
  let c := f.imm.toNat / 256 % 256
  if c = 0 then (if cplx then 96 else 192) else c
def MFields.sparse (f : MFields) : Bool := f.mode.toNat % 4 == 1
def MFields.cplx (f : MFields) : Bool := f.mode.getLsbD 2
def MFields.init (f : MFields) : Bool := f.mode.getLsbD 3
def MFields.sig (f : MFields) : Bool := f.mode.getLsbD 4
/-- B hyperplanes, REP and W (R292). -/
def MFields.bits (f : MFields) : Nat := f.mode.toNat / 32 % 8 + 4
def MFields.rep (f : MFields) : Nat := f.mode.toNat / 256 % 4
def MFields.win (f : MFields) : Nat := 128 * 2 ^ (f.mode.toNat / 65536 % 4)
/-- Descriptor numbers in IMM: hyperplanes and sparsity metadata (R273). -/
def MFields.hyper (f : MFields) : Nat := f.imm.toNat / 2 ^ 16 % 64
def MFields.metaReg (f : MFields) : Nat := f.imm.toNat / 2 ^ 22 % 64

end Sys2Proof
namespace Sys2Proof.Machine

/-- An origin: row and column (R270). -/
abbrev Org := Nat × Nat
def orgOf (w : Word) : Org := (w.toNat % 2 ^ 32, w.toNat / 2 ^ 32)
def Entry.org (e : Entry) (k : Nat) : Org := orgOf (smGet 0 e.o k)

/-- The element at (i, k) from an origin, where it lies in the view (R270). -/
def View.at (v : View) (o : Org) (i k : Nat) : Option (Nat × Nat) :=
  if o.1 + i < v.vr && o.2 + k < v.vc then some (o.1 + i, o.2 + k) else none

/-- The elements of a block of rows and columns that lie in the view. -/
def View.block (v : View) (o : Org) (rows cols : Nat) : List (Nat × Nat) :=
  (List.range (min rows (v.vr - o.1))).flatMap fun i => (List.range (min cols (v.vc - o.2))).map fun k => (o.1 + i, o.2 + k)

/-! ### Scheduled times -/

/-- Bits of the value that the ME reads (R276). -/
def meWidth (cplx : Bool) (v : View) : Nat := if fmtComplex v.fmt && !cplx then fmtBits v.fmt / 2 else fmtBits v.fmt

def isPair : Fmt → Bool
  | .e2m1 | .hs4 | .pp8 => true
  | _ => false

/-- Twice the core cycles of one step (R276). -/
def stepCycles2 (cplx sparse : Bool) (a b : View) : Nat :=
  let part (v : View) : Nat := if fmtComplex v.fmt then fmtBits v.fmt / 2 else fmtBits v.fmt
  let w := if cplx then max (part a) (part b) else max (meWidth false a) (meWidth false b)
  if cplx then (if 32 ≤ w then 32 else if 16 ≤ w then 8 else 4)
  else if w ≤ 8 then (if isPair a.fmt || isPair b.fmt || sparse then 1 else 2)
  else if w ≤ 16 then (if sparse then 2 else 4)
  else (if sparse then 8 else 16)

def ceilDiv (a b : Nat) : Nat := (a + b - 1) / b

/-- Cycles of K steps. -/
def kCycles (k c2 : Nat) : Nat := ceilDiv (k * c2) 2

/-! ### Cells (R21, R289) -/

def tileCells : Nat := 24576
/-- The number of a cell: tile, row, column. -/
def cellNo (tile i j : Nat) : Nat := tile * tileCells + i * 192 + j

def Core.cell (c : Core) (tile i j : Nat) : BitVec 32 := smGet 0 c.acc (cellNo tile i j)

/-- Free values for cells (R61). -/
def State.freeCells (s : State) : List (Nat × BitVec 32) → State × List (Nat × BitVec 32)
  | [] => (s, [])
  | c :: r => let (v, s) := s.draw; let (s, l) := s.freeCells r; (s, (c.1, v.setWidth 32) :: l)

/-- Write cells, and remember them as work of the entry's region (R289). -/
def State.putCells (s : State) (e : Entry) (cells : List (Nat × BitVec 32)) (spans : List (Nat × Nat)) : State :=
  let (s, cells) := if e.undef then s.freeCells cells else (s, cells)
  let s := s.modCore e.core fun c => { c with
    acc := cells.foldl (fun m x => smSet 0 m x.1 x.2) c.acc
    inj := if c.inj.isEmpty then [] else c.inj.filter fun p => !(cells.any fun x => injKey 1 x.1 == p.1) }
  match e.strand with
  | none => s
  | some n => s.modStrand n fun x =>
      let add (r : Region) : Region := if r.rid = e.rid then { r with wrote := r.wrote ++ spans.filter fun q => !r.wrote.contains q } else r
      { x with regions := x.regions.map add }

/-- The cells of rows 0 to M - 1 and columns 0 to C - 1 of a tile. -/
def rowSpans (tile m c : Nat) : List (Nat × Nat) := (List.range m).map fun i => (cellNo tile i 0, c)

/-- The physical tile of `acc k` in the strand's window (R21). -/
def State.tileOf (s : State) (e : Entry) (k : Nat) : Option Nat :=
  match e.strand with
  | none => none
  | some n => let x := s.strandAt n; if k < x.accN then some (x.accBase + k) else none

def State.tileFault (s : State) (e : Entry) : State := s.entryFault e causeAccess 4 e.addr

/-! ### Checks -/

/-- An ME source must lie in the own or a peer's scratchpad, and under AREM or BREM in another core's (R271, R279). -/
def meSourceOk (core : Nat) (remote : Bool) (v : View) : Bool :=
  v.kind == 0 && addrClass v.base == 0 &&
    (!remote || (isLocal v.base && decide (0x100000000 ≤ v.base - localBase) && decide ((v.base - localBase - 0x100000000) / 0x400000 ≠ core % 8)))

/-- TDESC of an operand: a failing condition number for `ok = false` is the first. -/
def State.meTdesc (s : State) (e : Entry) (d : Desc) (ok : Bool) (rcs : List (Nat × Nat)) (scales : Bool) : Option Nat :=
  let v := viewOf d
  if !ok then some 1
  else s.tdesc e.strand d (joinSpans (rcs.map v.span)) (if scales && v.blk != 0 then ((rcs.map v.scaleIx).eraseDups).map v.scaleSpan else [])

/-- The first failing descriptor of a list of numbers and conditions. -/
def firstDesc (l : List (Nat × Option Nat)) : Option Nat := l.findSome? fun (reg, c) => c.map (tdescAux reg)

/-- An extent of R286: the descriptor's number, elements, scales. -/
structure Ext where
  reg : Nat
  elems : List Span
  scales : List Span

/-- The extent of elements of a view. -/
def extOf (core reg : Nat) (v : View) (rcs : List (Nat × Nat)) (scales : Bool) : Ext :=
  { reg, elems := (joinSpans (rcs.map v.span)).map (ownSpan core),
    scales := if scales && v.blk != 0 then (((rcs.map v.scaleIx).eraseDups).map v.scaleSpan).map (ownSpan core) else [] }

def Ext.spans (x : Ext) : List Span := x.elems ++ x.scales

/-- Bytes that a command wrote, as ranges for an acquire (R88, R316, R335); with `scales` those of its block scales too. -/
def coverOf (core : Nat) (v : View) (rcs : List (Nat × Nat)) (scales : Bool) : List (Nat × Nat) :=
  let x := extOf core 0 v rcs scales
  spanRanges (x.elems ++ joinSpans x.scales)

/-- Overlap of a written extent and a source: whether a scale array takes part (R287). -/
def extMeet (w x : Ext) : Option Bool :=
  if spansMeet w.elems x.scales || spansMeet w.scales x.elems || spansMeet w.scales x.scales then some true
  else if spansMeet w.elems x.elems then some false
  else none

/-- Keep the lower of two ALIAS reports: DST, then SRC (R287). -/
def lowerAlias (a b : Option (Nat × Nat × Bool)) : Option (Nat × Nat × Bool) :=
  match a, b with
  | some x, some y => if y.1 < x.1 || (y.1 == x.1 && decide (y.2.1 < x.2.1)) then some y else some x
  | none, y => y
  | x, none => x

/-- TRAP_AUX of the ALIAS of a command, if any (R286, R287). -/
def meAlias (writes reads : List Ext) : Option Nat :=
  let all := writes.flatMap fun w => reads.map fun x => (extMeet w x).map fun sc => (w.reg, x.reg, sc)
  (all.foldl lowerAlias none).map fun (d, r, sc) => (if sc then 65536 else 0) + r * 256 + d

/-- An entry's turn meets injected cells of its strand's tiles (R465, R519): whether it reads such a cell is a free choice
(log 32). True where an uncorrectable one is consumed. -/
def State.scanCells (s : State) (e : Entry) : State × Bool :=
  match e.strand with
  | none => (s, false)
  | some n =>
    let x := s.strandAt n
    (s.coreAt e.core).inj.foldl (fun (s, bad) (key, syn) =>
      let k := key - injKey 1 0
      if key / 2 ^ 64 ≠ 1 || k / tileCells < x.accBase || x.accBase + x.accN ≤ k / tileCells then (s, bad)
      else
        match s.choose 2 with
        | (0, s) => (s, bad)
        | (_, s) =>
          match s.injFate 32 with
          | (s, .agrees) => (s.modCore e.core fun c => { c with inj := smDel c.inj key }, bad)
          | (s, .corrected b) =>
            let s := s.modCore e.core fun c =>
              { c with inj := smDel c.inj key, acc := smSet 0 c.acc k (smGet 0 c.acc k ^^^ BitVec.ofNat 32 b) }
            (s.corrected (dieOf e.core) 1 0 (syn % 128) (s.tenantOf e.core) x.task, bad)
          | (s, .bad) => (s, true)) (s, false)

/-- The instructions that read accumulator cells. -/
def readsTile : Instr → Bool
  | .mstep f => !f.init
  | .mnest _ | .mwb _ => true
  | _ => false

/-- What an entry writes meets what it reads in storage, where the check of R286 does not see it: its results are undefined. -/
def State.aliased (s : State) (e : Entry) (x : List Ext × List Ext) : Bool :=
  !x.1.isEmpty && s.hiddenAlias e (x.1.flatMap Ext.spans) (x.2.flatMap Ext.spans)

/-- An M instruction of the ME: the alias check and the push at its issue, or the engine's turn (R286, R288). -/
def State.meInstr (s : State) (i : Instr) (cycles : Entry → Nat) (exts : Entry → List Ext × List Ext) (run : State → Entry → State) : Out1 :=
  done (match s.engine with
    | none =>
      let e := s.entryOf i
      match (if e.runs then (let (w, r) := exts e; meAlias w r) else none) with
      | some aux => s.raise (causeAliased, aux) s.st.addr
      | none => s.push i (cycles e) fun e => (exts e).1.flatMap Ext.spans
    | some e => s.engineTurn 1 e fun s e =>
      if !e.runs then s.endEntry e
      else
        let e := if e.phase = 0 && s.aliased e (exts e) then { e with undef := true } else e
        match (if e.phase = 0 && readsTile i then s.scanCells e else (s, false)) with
        | (s, true) => s.entryConsumed e 1 0
        | (s, false) => run s e)

/-! ### Reads -/

def valZero : Val := .fin false 0 1

/-- An operand element as the ME reads it: its real and imaginary value; without `cplx` the real one alone is read (R272). A position
outside the view reads +0. -/
def Rd.meVal (r : Rd) (e : Entry) (v : View) (p : Option (Nat × Nat)) (cplx : Bool) : Rd × (Val × Val) × Nat :=
  match p with
  | none => (r, (valZero, valZero), 0)
  | some rc =>
    let (r, c, k) := r.codeScale e v rc 0
    if cplx then
      let (vs, fl) := elemVal v c k
      (r, (vs.headD valZero, (vs[1]?).getD valZero), fl)
    else
      let (x, fl) := scaled (fmtDec (fmtPart v.fmt) ((codeParts v.fmt c).headD 0)) k v.tscale
      (r, (x, valZero), fl)

/-- The elements at (i, k), i below `rows` and k below `cols`, row by row; flags ORed. -/
def Rd.meBlock (r : Rd) (e : Entry) (v : View) (o : Org) (rows cols : Nat) (cplx : Bool := false) : Rd × List (List (Val × Val)) × Nat :=
  (List.range rows).foldl (fun (r, l, fl) i =>
    let (r, row, f2) := (List.range cols).foldl (fun (r, row, fl) k =>
      let (r, x, f) := Rd.meVal r e v (v.at o i k) cplx
      (r, row ++ [x], fl ||| f)) (r, ([] : List (Val × Val)), fl)
    (r, l ++ [row], f2)) (r, ([] : List (List (Val × Val))), 0)

/-- The raw codes of a block as integers (R125, R250); +0 outside the view. -/
def Rd.meRaw (r : Rd) (e : Entry) (v : View) (o : Org) (rows cols : Nat) : Rd × List (List Int) :=
  (List.range rows).foldl (fun (r, l) i =>
    let (r, row) := (List.range cols).foldl (fun (r, row) k =>
      match v.at o i k with
      | none => (r, row ++ [0])
      | some rc => let (r, c) := Rd.code r e v rc 0; (r, row ++ [rawInt v.fmt c])) (r, ([] : List Int))
    (r, l ++ [row])) (r, ([] : List (List Int)))

def at2 {α : Type} (d : α) (l : List (List α)) (i k : Nat) : α := ((l[i]?).getD [])[k]?.getD d

/-- The entry of an ME command completes: flags go to MFLAGS (R275). -/
def State.meEnd (s : State) (e : Entry) : State :=
  let s := match e.strand, e.keep with
    | some n, fl :: _ => s.orMflags n fl
    | _, _ => s
  s.endEntry e

/-- An MSTEP that a read stops may have made some of its steps by then (R288, R289): with INIT its cells are written; without it, whether
one of several steps was made is a free choice. Its cells then hold undefined values. -/
def State.spoilStep (s : State) (e : Entry) (init : Bool) (spans : List (Nat × Nat)) : State :=
  let (c, s) := if init then (1, s) else if e.cnt ≤ 1 then (0, s) else s.choose 2
  if c = 0 then s else (s.putCells e [] spans).undefCells e.core spans

/-- After the reads of an MSTEP that writes the cells of `spans`: go on with `f`, or stop, or wait for replies. At a pace of its own it may
have made a part of its steps: what it has not finished is undefined where its region is discarded then (R64, R289, log 17). -/
def Rd.stepDone (r : Rd) (e : Entry) (init : Bool) (spans : List (Nat × Nat)) (f : State → State) : State :=
  match r.stop with
  | some .wait => r.s.entryStop e .wait
  | some x => (r.s.spoilStep e init spans).entryStop e x
  | none =>
    if !r.need.isEmpty then r.s.ask e r.need
    else if r.s.pace = 0 || !init && e.cnt ≤ 1 then f r.s
    else
      let (c, s) := r.s.choose 2
      if c = 0 then (s.putCells e [] spans).putEntry e else f s

/-- Writes of an ME entry, which then completes with its flags. -/
def State.meWrite (s : State) (e : Entry) (plan : List (Nat × List (Byte × Byte))) (fl : Nat) : State :=
  let e := { e with phase := 2, plan, keep := [fl] }
  (s.putEntry e).drainPlan e fun s e => match e.strand, e.keep with
    | some n, fl :: _ => s.orMflags n fl
    | _, _ => s

end Sys2Proof.Machine
end

