-- ==== Sys2Proof/Machine/VectorRed.lean ====
section
/-!
DEFINITION. VOP 0x50 to 0x58: reductions in the fixed order of R262 (R262 to R265), VSCAN, VLSE, VVOTE and VFLGC.
-/
namespace Sys2Proof.Machine

/-- The operation of a reduction: first, step and merge (R263). -/
inductive RedOp where
  | sum | ssq
  | ext (max abs : Bool)
deriving DecidableEq, Repr

/-- A value rounded to FP32 with its flags (R263). -/
def roundR (v : Val) (fl : Nat) : Val × Nat :=
  let (c, f) := ffRound ffF32 0 0 false v
  (ffDec ffF32 c, f ||| fl)

def RedOp.pre (o : RedOp) (x : Val) : Val :=
  match o with
  | .ext _ true => valAbs x
  | _ => x

def RedOp.first (o : RedOp) (x : Val) : Val × Nat :=
  match o with
  | .ssq => let (p, f) := valMul x x; roundR p f
  | o => roundR (o.pre x) 0

def RedOp.step (o : RedOp) (a x : Val) : Val × Nat :=
  match o with
  | .sum => let (v, f) := valAdd false a x; roundR v f
  | .ssq => let (p, f) := valMul x x; let (v, g) := valAdd false a p; roundR v (f ||| g)
  | .ext m _ => valMinMax m a (o.pre x)

def RedOp.merge (o : RedOp) (a b : Val) : Val × Nat :=
  match o with
  | .ext m _ => valMinMax m a b
  | _ => let (v, f) := valAdd false a b; roundR v f

/-- The lanes after their positions (R262): values by lane, and the flags of each step. -/
def redLanes (o : RedOp) (xs : List (Nat × Val)) : SMap Val × List (Nat × Nat) :=
  xs.foldl (fun (m, fl) (p, x) =>
    let l := p % 256
    let (v, f) := match smFind m l with
      | none => o.first x
      | some a => o.step a x
    (smPut m l v, (l, f) :: fl)) ([], [])

/-- One level of the tree: lanes `2 ^ k` apart merge; an empty operand returns the other. -/
def redLevel (o : RedOp) (k : Nat) : SMap Val → SMap Val × List (Nat × Nat)
  | [] => ([], [])
  | (l, a) :: r =>
    let base := l / 2 ^ (k + 1) * 2 ^ (k + 1)
    match r with
    | (m, b) :: t =>
      if m = base + 2 ^ k && l = base then
        let (v, f) := o.merge a b
        let (t, fl) := redLevel o k t
        ((base, v) :: t, (base, f) :: fl)
      else
        let (t, fl) := redLevel o k ((m, b) :: t)
        ((base, a) :: t, fl)
    | [] => ([(base, a)], [])

/-- The result of a segment in the order of R262, with the flags by lane; none for a segment without elements. -/
def redTree (o : RedOp) (xs : List (Nat × Val)) : Option Val × List (Nat × Nat) :=
  let (m, fl) := redLanes o xs
  let (m, fl) := (List.range 8).foldl (fun (m, fl) k => let (m, f) := redLevel o k m; (m, f ++ fl)) (m, fl)
  (m.head?.map (·.2), fl)

/-- The segments of `n` positions: pairs of a segment's number and its first position. -/
def segments (n len : Nat) : List (Nat × Nat) := (List.range ((n + len - 1) / max 1 len)).map fun k => (k, k * len)

/-- The components of a list of elements, as positions within the segment and values. -/
def segPart (k : Nat) (gs : List Got) : List (Nat × Val) :=
  gs.zipIdx.map fun (g, i) => (i, (g.vals[k]?).getD (g.vals.headD .nan))

/-- A reduction by segment: `op` takes the position-and-value list of one component and gives a value and lane flags. -/
def segResult (gs : List Got) (op : List (Nat × Val) → Val × List (Nat × Nat)) : List Val × List (Nat × Nat) :=
  let (a, fa) := op (segPart 0 gs)
  if gs.any fun g => decide (2 ≤ g.vals.length) then let (b, fb) := op (segPart 1 gs); ([a, b], fa ++ fb) else ([a], fa)

/-- One value put for each segment (R262): `op` takes the positions of a segment and their values. -/
def State.segResults (s : State) (e : Entry) (f : VFields) (x : Src) (gs : List Got) (len : Nat)
    (op : List (Nat × Val) → Val × List (Nat × Nat)) : State :=
  let rs := (segments e.cnt len).map fun (k, lo) =>
    let g := (gs.drop lo).take len
    let (vs, fl) := segResult g op
    (k, vs, fl ++ g.zipIdx.map fun (x : Got × Nat) => (x.2, x.1.fl))
  let (s, ps, fs) := s.putAll e (e.view 0) (e.rm f) false (rs.map fun (k, vs, _) => { j := e.od + k, vals := vs, ix := k, lane := 0 })
  s.vWrite e [x] ps (rs.flatMap (fun (_, _, fl) => fl) ++ fs)

/-- A V entry that writes one value for each segment (R262). -/
def State.vReduce (s : State) (vop : Nat) (f : VFields) (e : Entry) (op : List (Nat × Val) → Val × List (Nat × Nat)) : State :=
  let x := e.src vop f 1 false
  let len := vSegLen vop f (e.desc 1) e.cnt
  s.vRun e f false [{ ix := ixFrom e.od (segments e.cnt len).length }] [x] false fun s l => s.segResults e f x (l.headD []) len op

/-- The result of the tree as a value for put. -/
def redValue (o : RedOp) (xs : List (Nat × Val)) : Val × List (Nat × Nat) :=
  let (v, fl) := redTree o xs
  (v.getD .nan, fl)

/-- VRSUM (R263). -/
def execVrsum (f : VFields) (s : State) : Out1 := s.vInstr (.vrsum f) fun s e => s.vReduce 0x50 f e (redValue .sum)

/-- VRMAX (R263). -/
def execVrmax (f : VFields) (s : State) : Out1 := s.vInstr (.vrmax f) fun s e =>
  s.vReduce 0x51 f e (redValue (.ext true (f.mod.getLsbD 4)))

/-- VRMIN (R263). -/
def execVrmin (f : VFields) (s : State) : Out1 := s.vInstr (.vrmin f) fun s e =>
  s.vReduce 0x52 f e (redValue (.ext false (f.mod.getLsbD 4)))

/-- VRSSQ (R263). -/
def execVrssq (f : VFields) (s : State) : Out1 := s.vInstr (.vrssq f) fun s e => s.vReduce 0x57 f e (redValue .ssq)

/-- The smallest position of the maximum (R263, VRAMX): -0 lies below +0; `len` where every element is a NaN. -/
def argMax (abs : Bool) (len : Nat) (xs : List (Nat × Val)) : Val × List (Nat × Nat) :=
  let ys := xs.map fun (i, x) => (i, if abs then valAbs x else x)
  let fl := ys.map fun (i, x) => (i % 256, snanOf x)
  let m := ys.foldl (fun m y => (valMinMax true m y.2).1) .nan
  if valIsNan m then (.fin false len 1, fl)
  else (.fin false ((ys.find? fun y => !valIsNan y.2 && valEq y.2 m && (!valIsZero m || valSign y.2 == valSign m)).map (·.1) |>.getD len) 1, fl)

/-- VRAMX (R263). -/
def execVramx (f : VFields) (s : State) : Out1 := s.vInstr (.vramx f) fun s e =>
  s.vReduce 0x53 f e (argMax (f.mod.getLsbD 4) (vSegLen 0x53 f (e.desc 1) e.cnt))

/-- Running sums of one segment (R263, VSCAN): the value to write and the flags of the step at each position. -/
def scanSums (excl : Bool) : Option Val → List Val → List (Val × Nat)
  | _, [] => []
  | c, x :: r =>
    let (n, fl) := match c with
      | none => RedOp.sum.first x
      | some a => RedOp.sum.step a x
    (if excl then c.getD (.fin false 0 1) else n, fl) :: scanSums excl (some n) r

/-- VSCAN (R263): it may run in place, and writes every position. -/
def execVscan (f : VFields) (s : State) : Out1 := s.vInstr (.vscan f) fun s e =>
  let x := e.src 0x54 f 1 false
  let len := vSegLen 0x54 f (e.desc 1) e.cnt
  s.vRun e f true [{ ix := ixFrom e.od e.cnt }] [x] false fun s l =>
    let gs := l.headD []
    let rs := (segments e.cnt len).flatMap fun (_, lo) =>
      let g := (gs.drop lo).take len
      let a := scanSums (f.mod.getLsbD 4) none ((segPart 0 g).map (·.2))
      let b := scanSums (f.mod.getLsbD 4) none ((segPart 1 g).map (·.2))
      let cplx := g.any fun g => decide (2 ≤ g.vals.length)
      (g.zip (a.zip b)).zipIdx.map fun ((g, x, y), i) =>
        (lo + i, i, if cplx then [x.1, y.1] else [x.1], g.fl ||| x.2 ||| (if cplx then y.2 else 0))
    let (s, ps, fs) := s.putAll e (e.view 0) (e.rm f) false (rs.map fun (p, i, vs, _) => { j := e.od + p, vals := vs, ix := p, lane := i % 256 })
    s.vWrite e [x] ps (rs.map (fun (_, i, _, fl) => (i % 256, fl)) ++ fs)

/-- Flags of the intermediate steps: the overflow of a finite value alone (R253). -/
def onlyOverflow (fl : Nat) : Nat := if fl &&& flOF != 0 then flOF ||| flNX else 0

/-- The log of a sum of exponentials (R264); `rdn` gives the sign of an exact zero sum (R117). -/
def lseValue (rdn : Bool) (xs : List (Nat × Val)) : Val × List (Nat × Nat) :=
  if xs.any fun x => valIsNan x.2 then (.nan, xs.map fun (i, x) => (i % 256, snanOf x))
  else
    let (m, f1) := redValue (.ext true false) xs
    let f1 := f1.map fun (l, fl) => (l, onlyOverflow fl)
    match m with
    | .fin _ _ _ =>
      let es := xs.map fun (i, x) =>
        let (d, fa) := valR (valAdd false x (valNeg m)).1
        let (v, fb) := valE d
        (i, v, fa ||| fb)
      let (sum, f2) := redValue .sum (es.map fun (i, v, _) => (i, v))
      let (lg, _) := valR (valLog2 sum).1
      let (t, _) := valR (valLn2 lg)
      ((valAdd rdn m t).1, f1 ++ es.map (fun (i, _, fl) => (i % 256, fl)) ++ f2.map fun (l, fl) => (l, onlyOverflow fl))
    | m => (m, f1)

/-- VLSE (R264). -/
def execVlse (f : VFields) (s : State) : Out1 := s.vInstr (.vlse f) fun s e => s.vReduce 0x58 f e (lseValue (e.rm f == 2))

/-- What VVOTE writes for a segment (R265). -/
def voteValue (sel : Nat) (bs : List Bool) : Nat :=
  let k := (bs.filter id).length
  if sel = 0 then (if k = 0 then 0 else 1) else if sel = 1 then (if k = bs.length then 1 else 0) else k

/-- The sticky flags of the lanes of an entry's strand. -/
def State.lanesOf (s : State) (e : Entry) : SMap (BitVec 5) :=
  match e.strand with
  | some n => (s.strandAt n).now.lanes
  | none => []

/-- VVOTE (R265). -/
def execVvote (f : VFields) (s : State) : Out1 := s.vInstr (.vvote f) fun s e =>
  let lanef := f.mod.getLsbD 4
  let xs := if lanef then [] else [e.src 0x55 f 1 true]
  let len := vSegLen 0x55 f (e.desc 1) e.cnt
  let segs := if !f.mod.getLsbD 5 then [(0, 0)] else segments e.cnt len
  s.vRun e f false [{ ix := ixFrom e.od segs.length }] xs (!f.mod.getLsbD 5) fun s l =>
    let lanes := s.lanesOf e
    let bit := f.imm8.toNat / 16 % 8
    let all := if lanef then (List.range e.cnt).map fun i => (smGet 0 lanes (i % 256)).getLsbD bit else (l.headD []).map fun g => g.code != 0
    let (s, ps, fs) := s.putAll e (e.view 0) (e.rm f) false (segs.map fun (k, lo) =>
      { j := e.od + k, vals := [.fin false (voteValue (f.imm8.toNat % 4) ((all.drop lo).take len)) 1], ix := k, lane := 0 })
    s.vWrite e xs ps fs

/-- VFLGC (R265): it raises no flag; with clr the lanes read are cleared at completion. -/
def execVflgc (f : VFields) (s : State) : Out1 := s.vInstr (.vflgc f) fun s e =>
  s.vRun e f false [{ ix := ixFrom e.od e.cnt }] [] false fun s _ =>
    let lanes := s.lanesOf e
    let (s, ps, _) := s.putAll e (e.view 0) (e.rm f) false ((List.range e.cnt).map fun i =>
      { j := e.od + i, vals := [.fin false (if i < 256 then (smGet 0 lanes i).toNat else 0) 1], ix := i, lane := i })
    s.vWrite { e with keep := if f.mod.getLsbD 4 then [e.cnt] else [] } [] ps []

end Sys2Proof.Machine
end

