-- ==== Sys2Proof/Machine/Collective.lean ====
section
/-!
DEFINITION. MOP 0x48 to 0x4D: collective groups, commands, aborts and cancellation (R330 to R341), and the exact reduction
format (R128 to R130).
-/
namespace Sys2Proof

/-- Fields of MODE in a KE command (R330). -/
def MFields.gid (f : MFields) : Nat := f.mode.toNat % 64
def MFields.kop (f : MFields) : Nat := f.mode.toNat / 64 % 4
def MFields.krm (f : MFields) : Nat := f.mode.toNat / 256 % 8
def MFields.ksat (f : MFields) : Bool := f.mode.getLsbD 11
def MFields.kint (f : MFields) : Bool := f.mode.getLsbD 12
def MFields.root (f : MFields) : Nat := f.imm.toNat % 65536

end Sys2Proof
namespace Sys2Proof.Machine

/-! ### The exact reduction format -/

/-- The block word of R128 for one member's elements. -/
def blockWord (vs : List Val) : Nat :=
  let bit (p : Val → Bool) (k : Nat) : Nat := if vs.any p then 2 ^ k else 0
  let exps : List Nat := vs.filterMap fun v => match v with
    | .fin _ n d => if n = 0 then none else some (floorLog2 n d + 150).toNat
    | _ => none
  bit valIsNan 15 + bit (· == .inf false) 14 + bit (· == .inf true) 13 + exps.foldl max 0

/-- Two block words combined (R128). -/
def joinWords (a b : Nat) : Nat :=
  let flag (k : Nat) : Nat := if a.testBit k || b.testBit k then 2 ^ k else 0
  flag 15 + flag 14 + flag 13 + max (a % 512) (b % 512)

/-- The integer of an element under the exponent `e` (R129). -/
def exactInt (e : Int) (v : Val) : Int :=
  match v with
  | .fin neg n d => let (a, b) := fracScale n d (52 - e); if neg then -((a / b : Nat) : Int) else (a / b : Nat)
  | _ => 0

/-- round_to(FP32, S × 2^(e − 52), RNE), +0 for S = 0 (R129, R338). -/
def exactRound (sum e : Int) : Nat :=
  let (a, b) := fracScale sum.natAbs 1 (e - 52)
  if sum = 0 then 0 else (fmtRound .fp32 0 0 false (.fin (decide (sum < 0)) a b)).1

/-- The final element of R129. -/
def exactFinal (word : Nat) (sum : Int) : Nat :=
  if word.testBit 15 || (word.testBit 14 && word.testBit 13) then 0x7FC00000
  else if word.testBit 14 then 0x7F800000
  else if word.testBit 13 then 0xFF800000
  else if word % 512 = 0 then 0
  else exactRound sum (((word % 512 : Nat) : Int) - 150)

/-- CLXR's results from the members' values (R338): blocks of 32, pass one, pass two. -/
def exactResults (n : Nat) (xs : List (List Val)) : List Nat :=
  (List.range n).map fun i =>
    let blk := xs.map fun l => (l.drop (i / 32 * 32)).take (min 32 (n - i / 32 * 32))
    let w := (blk.map blockWord).foldl joinWords 0
    let e := ((w % 512 : Nat) : Int) - 150
    exactFinal w (if w % 512 = 0 then 0 else (xs.map fun l => exactInt e ((l[i]?).getD valZero)).foldl (· + ·) 0)

/-! ### Groups -/

def State.groupAt (s : State) (d gid : Nat) : Option Group := smFind (s.dieAt d).groups gid
def State.modGroup (s : State) (d gid : Nat) (f : Group → Group) : State :=
  match s.groupAt d gid with
  | some g => s.modDie d fun x => { x with groups := smPut x.groups gid (f g) }
  | none => s

/-- The group becomes undefined, and what its members have sent is dropped (R336). -/
def State.undefGroup (s : State) (d gid : Nat) : State :=
  s.modDie d fun x => { x with groups := smDel x.groups gid, collIn := x.collIn.filter fun p => p.gid != gid }

/-- A command of the KE and its group. -/
def keGroup (e : Entry) : Option Nat :=
  match mCode e.instr with
  | some (op, f) => if 0x48 ≤ op && op ≤ 0x4C then some f.gid else none
  | none => none

/-- Every pending and running command of the group at the die will complete with a status (R339); the number of members and the
own rank are kept with it. -/
def State.doomGroup (s : State) (d gid status : Nat) (g : Group) : State :=
  let doom (e : Entry) : Entry :=
    if keGroup e = some gid && e.parts.isEmpty && e.phase != 5 then
      { e with parts := [(0, [status, g.list.length, g.rank])], waits := [] } else e
  s.strands.foldl (fun s p =>
    if dieOf (coreOf p.1) ≠ d then s
    else s.modStrand p.1 fun x => { x with queues := x.queues.map fun (k, l) => (k, if k = 3 then l.map doom else l) }) s

/-- Send something to a member (R331, R339, R481): a COLL flit, or directly within the package. A member in another tenant's
die is refused (R336, R498): the number of the request, or the refusal. -/
def State.sendMember (s : State) (d : Nat) (owner : ReqOwner) (m : Nat × Nat) (p : Packet) : State × Option Nat × Bool :=
  let tenant := (s.dieAt d).tenant
  if m.1 = s.node then
    if tenant = (s.dieAt m.2).tenant || tenant = 0 then
      (if p.abort then { s with inbox := s.inbox ++ [(.groupAbort, { n := m.2, k := p.gid, status := 2, list := p.hdr })] }
       else s.modDie m.2 fun x => { x with collIn := x.collIn ++ [p] }, none, true)
    else (s, none, false)
  else
    let (s, id) := s.request d owner { op := 6, tenant, dnode := m.1, ddie := m.2, packet := p } 0 0 [[]]
    (s, some id, true)

/-- An abort or a cancellation at die `d` (R339): its commands complete with the status, the group becomes undefined, and
every member is told. -/
def State.abortGroup (s : State) (d gid status : Nat) : State :=
  match s.groupAt d gid with
  | none => s.doomGroup d gid status {}
  | some g =>
    let s := (s.undefGroup d gid).doomGroup d gid status g
    (g.list.filter (· != (s.node, d))).foldl (fun s m =>
      (s.sendMember d (.die d) m { gid, node := s.node, die := d, abort := true, hdr := [g.hash] }).1) s

/-- An engine takes the oldest element of the input FIFO of the strand that the event names (R222). -/
def State.popInput (s : State) (port : Nat) : State :=
  match s.ev.agent with
  | .strand n => s.modStrand n fun x => { x with inFifo := smSet [] x.inFifo port ((smGet [] x.inFifo port).drop 1) }
  | _ => s

/-- CANCEL_GROUP (R339): the KE of die `n` takes an element of port 0x10 that names group `k`. -/
def execCancelGroup (s : State) : Out1 := done ((s.popInput 0x10).abortGroup s.ev.n s.ev.k 3)

/-- GROUP_ABORT (R339): an abort reaches die `n` for group `k`: the commands there that name it complete ABORTED, whether or not the
group is defined, and a defined group becomes undefined (log 22: the hash that the abort carries selects nothing). -/
def execGroupAbort (s : State) : Out1 :=
  done (match s.groupAt s.ev.n s.ev.k with
    | some g => (s.undefGroup s.ev.n s.ev.k).doomGroup s.ev.n s.ev.k 2 g
    | none => s.doomGroup s.ev.n s.ev.k 2 {})

/-- COLL (R331, R480): a packet of a member reaches die `n`. -/
def execColl (s : State) : Out1 :=
  let d := s.ev.n
  let f := s.ev.flit
  let p := f.packet
  if !s.tokenOk d f (s.dieAt d).tenant then done (s.nakToken d f) else
  let s := s.ack d f false 0
  done (if p.abort then s.post [(.groupAbort, { n := s.ev.n, k := p.gid, status := 2, list := p.hdr })]
    else s.modDie s.ev.n fun x => { x with collIn := x.collIn ++ [p] })

/-- Groups whose command has been abandoned, with their dies (R339). -/
def State.lostGroups (s : State) : List (Nat × Nat) :=
  s.dies.flatMap fun (d, x) => x.groups.filterMap fun (gid, g) =>
    if g.busy && !(s.strands.any fun (n, y) => dieOf (coreOf n) == d &&
        (match smGet [] y.queues 3 with
          | e :: _ => (e.phase != 0 || !e.waits.isEmpty) && keGroup e == some gid
          | [] => false)) then some (d, gid) else none

/-! ### Completion -/

/-- The result element (R335). -/
def keElem (kind status gid rank flagw : Nat) : Word :=
  BitVec.ofNat 64 (kind * 2 ^ 60 + status * 2 ^ 52 + gid * 2 ^ 46 + rank % 8192 * 2 ^ 32 + flagw % 2 ^ 32)

def keKind (i : Instr) : Nat := match mCode i with
  | some (op, _) => op - 0x48
  | none => 0

/-- The entry completes when port 0x10 has space (R313, R341). -/
def State.keFinish (s : State) (e : Entry) (f : MFields) (status rank flagw : Nat) (cover : List (Nat × Nat)) : State :=
  if s.fifoFull e.core 0x10 then
    s.putEntry { e with phase := 5, plan := [], waits := [], keep := [status, rank, flagw], parts := cover.map fun x => (x.1, [x.2]) }
  else
    let s := s.modGroup (dieOf e.core) f.gid ({ · with busy := false })
    (s.pushFifo e.core 0x10 (keElem (keKind e.instr) status f.gid rank (if status = 0 then flagw else 0)) cover).endEntry e

/-! ### A member's command (R331 to R338) -/

/-- What a command works on. -/
structure Coll where
  e : Entry
  f : MFields
  g : Group

def Coll.p (c : Coll) : Nat := c.g.list.length
def Coll.n (c : Coll) : Nat := c.f.n.toNat
/-- 0 CLAR, 1 CLRS, 2 CLAG, 3 CLBC, 4 CLXR (R335). -/
def Coll.kind (c : Coll) : Nat := keKind c.e.instr
def Coll.int (c : Coll) : Bool := c.kind == 4 && c.f.kint
/-- The command reduces values of its source (R332, R338). -/
def Coll.value (c : Coll) : Bool := c.kind ≤ 1 || (c.kind == 4 && !c.f.kint)
/-- The member reads T1 (R333). -/
def Coll.reads (c : Coll) : Bool := c.kind != 3 || c.f.root == c.g.rank
def Coll.os (c : Coll) : Nat := (smGet 0 c.e.o 1).toNat % 2 ^ 32
def Coll.od (c : Coll) : Nat := (smGet 0 c.e.o 2).toNat % 2 ^ 32
def Coll.srcCount (c : Coll) : Nat := if c.kind = 1 then c.p * c.n else if c.int then 2 * c.n else c.n
def Coll.dstCount (c : Coll) : Nat := if c.kind = 2 then c.p * c.n else c.n
def Coll.src (c : Coll) : List (Nat × Nat) := let v := c.e.view 1; (ixFrom c.os c.srcCount).map v.flat
def Coll.dst (c : Coll) : List (Nat × Nat) := let v := c.e.view 2; (ixFrom c.od c.dstCount).map v.flat

def fmtReal : Fmt → Bool
  | .fp32 | .bf16 | .fp16 => true
  | _ => false

/-- The member's format rule (R331 to R333, R338). -/
def Coll.fok (c : Coll) : Bool :=
  let a := (c.e.view 1).fmt
  let b := (c.e.view 2).fmt
  (if c.value then fmtReal a else if c.int then a == .int32 else if c.kind = 2 then a == b else !c.reads || a == b)
    && (c.kind != 4 || b == .fp32)

/-- The header of R331: kind, OP, n, FMT, root, INT, e, list hash. -/
def Coll.hdr (c : Coll) : List Nat :=
  [c.kind, c.f.kop, c.n, descField (c.e.desc (if c.kind = 3 then 2 else 1)) 5, if c.kind = 3 then c.f.root else 0,
   if c.int then 1 else 0, if c.int then c.f.imm.toNat % 65536 else 0, c.g.hash]

/-- The first failing descriptor, T1 and then T2 (R36, R340). -/
def State.keTdesc (s : State) (c : Coll) : Option Nat :=
  let ok (v : View) : Bool := decide (v.kind ≤ 1)
  firstDesc ((if c.reads then [(c.f.t1.toNat, s.meTdesc c.e (c.e.desc 1) (ok (c.e.view 1)) c.src c.value)] else []) ++
    [(c.f.t2.toNat, s.meTdesc c.e (c.e.desc 2) (ok (c.e.view 2)) c.dst (decide (c.kind ≤ 1)))])

/-- The source equals the destination exactly, where the command may run in place (R333). -/
def Coll.inPlace (c : Coll) : Bool :=
  let a := c.e.view 1
  let b := c.e.view 2
  (c.kind == 0 || c.kind == 4) && c.os == c.od && a.base == b.base && decide (a.estr = b.estr) && decide (a.rstr = b.rstr)
    && a.tr == b.tr && a.rows == b.rows && a.cols == b.cols && fmtBits a.fmt == fmtBits b.fmt

/-- The extents that the command writes and reads. -/
def Coll.dstExt (c : Coll) : Ext := extOf c.e.core c.f.t2.toNat (c.e.view 2) c.dst (decide (c.kind ≤ 1))
def Coll.srcExt (c : Coll) : Ext := extOf c.e.core c.f.t1.toNat (c.e.view 1) c.src c.value

/-- TRAP_AUX of VALIAS (R255, R333). -/
def Coll.clash (c : Coll) : Option Nat :=
  if !c.reads || c.inPlace then none
  else (extMeet c.dstExt c.srcExt).map fun sc => (if sc then 1024 else 0) + 256 + c.f.t1.toNat

/-- The member's contribution: values, or codes and integers (R332, R333, R338). -/
def Rd.coll (r : Rd) (c : Coll) : Rd × List Val × List Int :=
  let v := c.e.view 1
  if !c.fok || !c.reads then (r, [], [])
  else if c.value then
    let (r, l) := c.src.foldl (fun (r, l) rc => let (r, vs, _) := Rd.value r c.e v rc 2; (r, vs.headD valZero :: l)) (r, ([] : List Val))
    (r, l.reverse, [])
  else
    let (r, l) := c.src.foldl (fun (r, l) rc => let (r, k) := Rd.code r c.e v rc 2; (r, (k : Int) :: l)) (r, ([] : List Int))
    let l := l.reverse
    (r, [], if c.int then (List.range c.n).map fun i =>
        intOfCode 64 (((l[2 * i]?).getD 0).toNat + ((l[2 * i + 1]?).getD 0).toNat * 2 ^ 32) else l)

/-- The packets that are there for a command, by rank (R331). -/
def State.packets (s : State) (c : Coll) (seq : Nat) : List (Option Packet) :=
  let l := (s.dieAt (dieOf c.e.core)).collIn.filter fun p => p.gid == c.f.gid && p.seq == seq
  c.g.list.map fun m => l.find? fun p => p.node == m.1 && p.die == m.2

/-- The status of a command whose packets are all there (R331 to R333, R337, R338). -/
def Coll.status (c : Coll) (ps : List Packet) : Nat :=
  if !c.fok then 8
  else if ps.any fun p => p.hdr != c.hdr || !p.fok then 1
  else if c.kind == 4 && ps.any fun p => !p.exact then 5
  else if c.kind == 3 && decide (c.p ≤ c.f.root) then 1
  else 0

/-- One step of an ordinary reduction (R332). -/
def reduceStep (op : Nat) (a x : Val) : Val :=
  if op = 0 then (roundR (valAdd false a x).1 0).1 else (valMinMax (op == 1) a x).1

/-- The reduction over the ranks in list order (R332). -/
def reduceRanks (op : Nat) : List Val → Val
  | [] => valZero
  | x :: r => r.foldl (reduceStep op) x

/-- The writes of a command (R332, R333, R338). -/
def State.collPuts (s : State) (c : Coll) (ps : List Packet) : State × List Put :=
  let v := c.e.view 2
  let w := fmtBits v.fmt
  let raw (l : List Int) : List Put := l.zipIdx.map fun (k, i) => (v.span (v.flat (c.od + i)), k.toNat % 2 ^ w)
  if c.kind ≤ 1 then
    let off := if c.kind = 1 then c.g.rank * c.n else 0
    let (s, puts, _) := s.putAll c.e v (rmOf c.f.krm c.e.rmode) c.f.ksat ((List.range c.n).map fun i =>
      { j := c.od + i, vals := [reduceRanks c.f.kop (ps.map fun p => (p.vals[off + i]?).getD valZero)], ix := i, lane := 0 })
    (s, puts)
  else if c.kind = 2 then (s, raw (ps.flatMap (·.codes)))
  else if c.kind = 3 then (s, raw (((ps[c.f.root]?).getD {}).codes))
  else if c.int then
    (s, raw ((List.range c.n).map fun i =>
      let sum := (ps.map fun p => (p.codes[i]?).getD 0).foldl (· + ·) 0
      exactRound (intOfCode 64 (intCode 64 sum)) (intOfCode 16 (c.f.imm.toNat % 65536))))
  else (s, raw ((exactResults c.n (ps.map fun p => p.vals)).map Int.ofNat))

/-- All packets are there: the result is formed and written (R331). -/
def State.collMeet (s : State) (c : Coll) (seq : Nat) : State :=
  let ps := (s.packets c seq).filterMap id
  let status := c.status ps
  let flagw := ps.foldl (fun a p => a ||| p.flag) 0
  let s := s.modDie (dieOf c.e.core) fun x => { x with collIn := x.collIn.filter fun p => !(p.gid == c.f.gid && p.seq == seq) }
  if status ≠ 0 then s.keFinish c.e c.f status c.g.rank 0 []
  else
    let (s, puts) := s.collPuts c ps
    let (s, puts) := if c.reads && !c.inPlace && s.hiddenAlias c.e (puts.map (·.1)) c.srcExt.spans
      then s.freePuts puts else (s, puts)
    s.putEntry { c.e with phase := 4, plan := writePlan puts, keep := [seq, c.g.rank, flagw] }

/-- Whether every packet that a command of the KE waits for is there. -/
def State.keReady (s : State) (e : Entry) : Bool :=
  match e.phase, keGroup e with
  | 2, some gid =>
    match s.groupAt (dieOf e.core) gid, mCode e.instr with
    | some g, some (_, f) => !e.parts.isEmpty || (s.packets { e, f, g } ((e.keep[0]?).getD 0)).all (·.isSome)
    | _, _ => true
  | _, _ => true

/-- Read the member's own contribution and send it to every member (R331, R334). -/
def State.collSend (s : State) (c : Coll) (seq : Nat) : State :=
  let d := dieOf c.e.core
  let e := { c.e with phase := 1, keep := [seq, c.g.rank] }
  let c := { c with e }
  let (r, vals, codes) := ({ s } : Rd).coll c
  r.done e fun s =>
    let flag := (smGet 0 e.o 3).toNat % 2 ^ 32
    let flag := if vals.any (!valIsFinite ·) then flag ||| 2 ^ 31 else flag
    let p : Packet := { gid := c.f.gid, node := s.node, die := d, seq, hdr := c.hdr, fok := c.fok, exact := c.g.exact, flag, vals, codes }
    let (s, ids, bad) := c.g.list.foldl (fun (s, ids, bad) m =>
      if m = (s.node, d) then (s.modDie d fun x => { x with collIn := x.collIn ++ [p] }, ids, bad)
      else
        let (s, id, ok) := s.sendMember d (.entry e.core e.seq) m p
        (s, ids ++ id.toList, if ok then bad else bad ++ [m])) (s, ([] : List Nat), ([] : List (Nat × Nat)))
    match bad with
    | m :: _ => s.entryFault e causeTenantKey (tokenAux 0 3 m.2 m.1) e.addr
    | [] => s.putEntry { e with phase := 2, waits := ids, got := [] }

/-- A command begins: the checks of R340, then it takes its place in the group's order (R331). -/
def State.collBegin (s : State) (c : Coll) : State :=
  let s := s.modGroup (dieOf c.e.core) c.f.gid ({ · with busy := true })
  match s.keTdesc c with
  | some aux => s.entryFault c.e causeTdesc aux c.e.addr
  | none =>
    match c.clash with
    | some aux => s.entryFault c.e causeValias aux c.e.addr
    | none =>
      let seq := c.g.seq + 1
      (s.modGroup (dieOf c.e.core) c.f.gid ({ · with seq })).collSend c seq

/-- ABORTED and CANCELLED leave the bytes that the command covers undefined (R335). -/
def State.undefColl (s : State) (c : Coll) : State :=
  if (s.keTdesc c).isSome then s else
  let (s, ps) := s.freePuts (c.dst.map fun rc => ((c.e.view 2).span rc, 0))
  ps.foldl (fun s p => (s.writeVa c.e (putBytes p)).1) s

/-- A turn of a collective command. -/
def State.collRun (s : State) (f : MFields) (e : Entry) : State :=
  if e.phase = 5 then
    match e.keep with
    | [status, rank, flagw] =>
      s.keFinish e f status rank flagw (e.parts.map fun x => (x.1, x.2.headD 0))
    | _ => s.endEntry e
  else
    match e.parts with
    | (_, [st, p, rank]) :: _ => (s.undefColl { e, f, g := { list := List.replicate p (0, 0), rank } }).keFinish e f st rank 0 []
    | _ =>
      match s.groupAt (dieOf e.core) f.gid with
      | none => s.keFinish e f 4 0 0 []
      | some g =>
        let c : Coll := { e, f, g }
        match e.phase with
        | 0 => s.collBegin c
        | 1 => s.collSend c ((e.keep[0]?).getD 0)
        | 2 => if s.keReady e then s.collMeet c ((e.keep[0]?).getD 0) else s
        | _ =>
          match s.writeAll e e.plan with
          | (s, rest, some .wait) => s.putEntry { e with plan := rest }
          | (s, _, some x) => s.entryStop e x
          | (s, _, none) =>
            let e := { e with plan := [] }
            if s.posted.any fun p => p.strand == e.strand.getD 2047 && p.seq == e.seq && p.core == e.core then s.putEntry e
            else s.keFinish e f 0 g.rank ((e.keep[2]?).getD 0) (coverOf e.core (e.view 2) c.dst (decide (c.kind ≤ 1)))

/-- A KE instruction: its slot pushes an entry of 16 cycles (R314), and the engine's turn runs it. -/
def State.keInstr (s : State) (i : Instr) (run : State → Entry → State) : Out1 :=
  done (match s.engine with
    | none => s.push i 16 (commandWrites i)
    | some e => if e.runs then run s e else s.endEntry e)

/-- CLAR (R332, R333). -/
def execClar (f : MFields) (s : State) : Out1 := s.keInstr (.clar f) fun s e => s.collRun f e
/-- CLRS (R332, R333). -/
def execClrs (f : MFields) (s : State) : Out1 := s.keInstr (.clrs f) fun s e => s.collRun f e
/-- CLAG (R333). -/
def execClag (f : MFields) (s : State) : Out1 := s.keInstr (.clag f) fun s e => s.collRun f e
/-- CLBC (R333). -/
def execClbc (f : MFields) (s : State) : Out1 := s.keInstr (.clbc f) fun s e => s.collRun f e
/-- CLXR (R337, R338). -/
def execClxr (f : MFields) (s : State) : Out1 := s.keInstr (.clxr f) fun s e => s.collRun f e

/-! ### CLGRP (R336) -/

/-- Why a member list defines no group: 6 BADLIST, 7 BIG. -/
def listStatus (me : Nat) (exact : Bool) (l : List Nat) : Nat :=
  if l.isEmpty || decide (4608 < l.length) || l.any (fun x => decide (8192 ≤ x) || decide (576 ≤ x / 8)) || l.eraseDups.length != l.length
    || (l.filter (· == me)).length != 1 then 6
  else if exact && decide (1024 < l.length) then 7 else 0

/-- Define the group from its list (R336). -/
def State.defineGroup (s : State) (e : Entry) (f : MFields) (l : List Nat) : State :=
  let d := dieOf e.core
  let me := s.node * 8 + d
  let exact := f.mode.getLsbD 13
  let st := listStatus me exact l
  if st ≠ 0 then s.keFinish e f st 0 0 []
  else
    let rank := (l.findIdx? (· == me)).getD 0
    let g : Group := { list := l.map fun x => (x / 8, x % 8), rank, exact,
                       hash := (~~~(crc32c 0xFFFFFFFF (l.flatMap (leBytes 2)))).toNat }
    let s := if (s.groupAt d f.gid).isSome then s.undefGroup d f.gid else s
    (s.modDie d fun x => { x with groups := smPut x.groups f.gid g }).keFinish e f 0 rank 0 []

/-- A turn of CLGRP. -/
def State.grpRun (s : State) (f : MFields) (e : Entry) : State :=
  match e.phase, e.keep with
  | 5, [status, rank, flagw] => s.keFinish e f status rank flagw []
  | _, _ =>
    if f.mode.getLsbD 14 then (s.undefGroup (dieOf e.core) f.gid).keFinish e f 0 0 0 []
    else if f.n = 0 || 4608 < f.n.toNat then s.keFinish e f 6 0 0 []
    else
      let v := e.view 1
      let os := (smGet 0 e.o 1).toNat % 2 ^ 32
      let rcs := (ixFrom os f.n.toNat).map v.flat
      match firstDesc [(f.t1.toNat, s.meTdesc e (e.desc 1) (decide (v.kind ≤ 1)) rcs false)] with
      | some aux => s.entryFault e causeTdesc aux e.addr
      | none =>
        let (r, l) := rcs.foldl (fun (r, l) rc => let (r, k) := Rd.code r e v rc 2; (r, k :: l)) (({ s } : Rd), ([] : List Nat))
        r.done e fun s => s.defineGroup e f l.reverse

/-- CLGRP (R336). -/
def execClgrp (f : MFields) (s : State) : Out1 := s.keInstr (.clgrp f) fun s e => s.grpRun f e

end Sys2Proof.Machine
end

