-- ==== Sys2Proof/Machine/Atomics.lean ====
section
/-!
DEFINITION. Majors 0x16 and 0x17: atomics on 8 bytes and on 32-bit floating-point words (R84, R190 to R192).
-/
namespace Sys2Proof.Machine

/-- The operations of AMO and AMOF, in the order of their codes (R190, R191). -/
inductive AmoOp where
  | add | and | or | xor | min | max | swap | cas | faddF32 | faddBf16x2 | fminF32 | fmaxF32
deriving DecidableEq, Repr

/-- Bytes of the operand: 8 for AMO, 4 for AMOF. -/
def AmoOp.size : AmoOp → Nat
  | .faddF32 | .faddBf16x2 | .fminF32 | .fmaxF32 => 4
  | _ => 8

/-- Major and aop, as bytes 0 and 1 of an ATOMIC request (R480). -/
def AmoOp.code : AmoOp → Nat × Nat
  | .add => (0x16, 0) | .and => (0x16, 1) | .or => (0x16, 2) | .xor => (0x16, 3) | .min => (0x16, 4) | .max => (0x16, 5)
  | .swap => (0x16, 6) | .cas => (0x16, 7) | .faddF32 => (0x17, 0) | .faddBf16x2 => (0x17, 1) | .fminF32 => (0x17, 2)
  | .fmaxF32 => (0x17, 3)

/-- The operation of a code. -/
def amoOfCode (major aop : Nat) : Option AmoOp :=
  [AmoOp.add, .and, .or, .xor, .min, .max, .swap, .cas, .faddF32, .faddBf16x2, .fminF32, .fmaxF32].find? (·.code == (major, aop))

/-- A rounded sum in a format, without flags (R191). -/
def fsumCode (f : FloatFmt) (a b : Nat) : Nat := (ffRound f 0 0 false (valAdd false (ffDec f a) (ffDec f b)).1).1

/-- The new word, or none where a CAS fails and writes nothing (R190, R191): old value, value operand, expected value. -/
def AmoOp.new (o : AmoOp) (old v expect : Word) : Option Word :=
  let lo (x : Word) : Nat := x.toNat % 2 ^ 32
  let mm (max : Bool) : Word :=
    BitVec.ofNat 64 (ffRound ffF32 0 0 false (valMinMax max (ffDec ffF32 (lo old)) (ffDec ffF32 (lo v))).1).1
  match o with
  | .add => some (old + v)
  | .and => some (old &&& v)
  | .or => some (old ||| v)
  | .xor => some (old ^^^ v)
  | .min => some (if old.slt v then old else v)
  | .max => some (if v.slt old then old else v)
  | .swap => some v
  | .cas => if old = expect then some v else none
  | .faddF32 => some (BitVec.ofNat 64 (fsumCode ffF32 (lo old) (lo v)))
  | .faddBf16x2 =>
    some (BitVec.ofNat 64 (fsumCode ffBF16 (lo old % 65536) (lo v % 65536) + fsumCode ffBF16 (lo old / 65536) (lo v / 65536) * 65536))
  | .fminF32 => some (mm false)
  | .fmaxF32 => some (mm true)

/-- Perform an atomic on a scratchpad bank (R192): the old value, or why not. -/
def State.amoSpm (s : State) (w : Who) (o : AmoOp) (core off : Nat) (own : Bool) (v expect : Word) : State × Fetch :=
  match s.fetchSpm w core off o.size own with
  | (s, .bytes l) =>
    match o.new (BitVec.ofNat 64 (leNat l)) v expect with
    | some x => (s.writeSpm core off (leBytes o.size x.toNat), .bytes l)
    | none => (s, .bytes l)
  | r => r

/-- Perform an atomic at a home of this package for a core (R84, R192): its earlier stores to the line come first, and its L1 copy takes
the new value. -/
def State.amoMem (s : State) (w : Who) (o : AmoOp) (pa : Nat) (v expect : Word) : State × Fetch :=
  let s := s.performWhere fun x => x.core == w.core && x.touches (pa / 128)
  match s.fetchMem w pa o.size 2 with
  | (s, .bytes l) =>
    match o.new (BitVec.ofNat 64 (leNat l)) v expect with
    | some x =>
      let bs := leBytes o.size x.toNat
      ((s.performMem (s.tenantOf w.core) w.task pa bs (some w.core) w.strand).updateBytes w.core pa bs, .bytes l)
    | none => (s, .bytes l)
  | r => r

/-- D + v in a format, one RNE rounding, no flag (R326). -/
def reduceCode (f : Fmt) (old : Nat) (v : Val) : Nat := (fmtRound f 0 0 false (valAdd false (fmtDec f old) v).1).1

/-- A read-modify-write of `n` bytes at a home for another package (R192, R326): it meets no L1. -/
def State.homeRmw (s : State) (tenant pa n : Nat) (g : Nat → Option Nat) : State × Fetch :=
  if s.held.contains (pa / 128) then (s.snoopLine (pa / 128), .wait 1)
  else match s.scanMem tenant 0 pa n with
    | (s, .poison addr k) => (s.rasWrite (homeOf addr).1 { addr, kind := 7, tenant, unit := 5, stack := k }, .trap (causePoison, k))
    | (s, .consumed u a) => (s, .consumed u a)
    | (s, .ok) =>
      let old := s.memBytes pa n
      match g (leNat old) with
      | some x => (s.performMem tenant 0 pa (leBytes n x), .bytes old)
      | none => (s, .bytes old)

/-- The atomic has executed: its old value is scoreboarded, and its region closes (R60, R190). -/
def State.amoDone (s : State) (d : Nat) (old : Word) : State :=
  ((s.modSt ({ · with amo := none, amoOld := none })).boardS d old).committed

/-- The place of an atomic (R192): host memory, the aperture and the device registers of any package take none, ahead of the tests
of the place itself. -/
def State.amoPlace (s : State) (a : Word) : State × Except Trap Place :=
  let core := s.curCore
  let sup := s.st.src.sup
  match (if isLocal a.toNat then (s, localPlace core (a.toNat - localBase)) else s.pagePlace core sup .wr a.toNat) with
  | (s, .ok p) =>
    (s, match p with
      | .host _ | .dev _ | .port _ _ => .error (causeAccess, 8)
      | .remote pa => if isHostRange (pa % 2 ^ 46) || isDevReg (pa % 2 ^ 46) then .error (causeAccess, 8) else .ok p
      | _ => s.placeOk core sup 2 p)
  | r => r

/-- Perform or send the atomic of the current strand. A release order fences first (R84); in a region that executes again the value is
undefined (R61). -/
def State.amoRun (s : State) (o : AmoOp) (d : Nat) (a v expect : Word) (order : BitVec 2) : State :=
  let x := s.st
  match x.amoOld with
  | some old => s.amoDone d old
  | none =>
  if x.amo.isSome then s.waitCommit
  else if a.toNat % o.size ≠ 0 then s.raise (causeMisalign, 0) a
  else
    let core := s.curCore
    let (s, left) := if 2 ≤ order.toNat then s.earlier s.cur else (s, [])
    if !left.isEmpty then s.waitCommit else
    match s.amoPlace a with
    | (s, .error t) => s.raise t a
    | (s, .ok p) =>
      let (s, v) : State × Word := if s.st.again then let (u, s) := s.draw; (s, u.setWidth 64) else (s, v)
      let finish (r : State × Fetch) : State :=
        match r with
        | (s, .bytes l) => s.amoDone d (BitVec.ofNat 64 (leNat l))
        | (s, .trap t) => s.raise t a
        | (s, .consumed u _) => s.consume u a
        | (s, .wait why) => if why = 2 then s.wait 2 else s.waitCommit
        | (s, .need addr) =>
          if s.postedTo s.cur addr then s.waitCommit else
          let (maj, aop) := o.code
          let payload := [BitVec.ofNat 8 maj, BitVec.ofNat 8 aop, 0, 0, 0, 0, 0, 0] ++ leBytes 8 v.toNat ++ leBytes 8 expect.toNat
          let (s, id) := s.request s.curDie (.strand s.cur) { flitTo 4 addr (s.tenantOf core) with sstr := s.cur } a o.size [payload]
          (s.modSt ({ · with amo := some id })).waitCommit
      match p with
      | .spm c off own => finish (s.amoSpm s.who o c off own v expect)
      | .mem pa => finish (s.amoMem s.who o pa v expect)
      | .win w off =>
        match s.winTarget core w false with
        | .error t => s.raise t a
        | .ok (node, c) =>
          if node ≠ s.node then finish (s, .need (spmFlitAddr node c off))
          else if !(s.tenantOf core == s.tenantOf c || s.tenantOf core == 0) then
            s.raise (causeTenantKey, tokenAux 0 2 (dieOf c) s.node) a
          else
            let s := s.flushPosted s.cur (spmFlitAddr node c off / 128)
            finish (s.amoSpm { s.who with strand := none } o c off false v expect)
      | .remote pa => finish (s, .need pa)
      | _ => s.raise (causeAccess, 8) a

/-- A commit-class atomic (R60, R190). For CAS the destination register holds the expected value. -/
def State.amo (s : State) (o : AmoOp) (d a b : BitVec 6) (order : BitVec 2) : State :=
  s.commit fun s => s.amoRun o d.toNat (s.rs a) (s.rs b) (s.rs d) order

/-- AMO_ADD (R190). -/
def execAmoAdd (d a b : BitVec 6) (_ : BitVec 3) (o : BitVec 2) (s : State) : Out1 := done (s.amo .add d a b o)

/-- AMO_AND (R190). -/
def execAmoAnd (d a b : BitVec 6) (_ : BitVec 3) (o : BitVec 2) (s : State) : Out1 := done (s.amo .and d a b o)

/-- AMO_OR (R190). -/
def execAmoOr (d a b : BitVec 6) (_ : BitVec 3) (o : BitVec 2) (s : State) : Out1 := done (s.amo .or d a b o)

/-- AMO_XOR (R190). -/
def execAmoXor (d a b : BitVec 6) (_ : BitVec 3) (o : BitVec 2) (s : State) : Out1 := done (s.amo .xor d a b o)

/-- AMO_MIN (R190). -/
def execAmoMin (d a b : BitVec 6) (_ : BitVec 3) (o : BitVec 2) (s : State) : Out1 := done (s.amo .min d a b o)

/-- AMO_MAX (R190). -/
def execAmoMax (d a b : BitVec 6) (_ : BitVec 3) (o : BitVec 2) (s : State) : Out1 := done (s.amo .max d a b o)

/-- AMO_SWAP (R190). -/
def execAmoSwap (d a b : BitVec 6) (_ : BitVec 3) (o : BitVec 2) (s : State) : Out1 := done (s.amo .swap d a b o)

/-- AMO_CAS (R190). -/
def execAmoCas (d a b : BitVec 6) (_ : BitVec 3) (o : BitVec 2) (s : State) : Out1 := done (s.amo .cas d a b o)

/-- AMOF.FADD.F32 (R191). -/
def execAmofFaddF32 (d a b : BitVec 6) (_ : BitVec 3) (o : BitVec 2) (s : State) : Out1 := done (s.amo .faddF32 d a b o)

/-- AMOF.FADD.BF16X2 (R191). -/
def execAmofFaddBf16x2 (d a b : BitVec 6) (_ : BitVec 3) (o : BitVec 2) (s : State) : Out1 := done (s.amo .faddBf16x2 d a b o)

/-- AMOF.FMIN.F32 (R191). -/
def execAmofFminF32 (d a b : BitVec 6) (_ : BitVec 3) (o : BitVec 2) (s : State) : Out1 := done (s.amo .fminF32 d a b o)

/-- AMOF.FMAX.F32 (R191). -/
def execAmofFmaxF32 (d a b : BitVec 6) (_ : BitVec 3) (o : BitVec 2) (s : State) : Out1 := done (s.amo .fmaxF32 d a b o)

end Sys2Proof.Machine
end

