-- ==== Sys2Proof/Machine/Copy.lean ====
section
/-!
DEFINITION. MOP 0x40 to 0x46: the copy engine's channels, templates and commands (R312 to R329, R340).
-/
namespace Sys2Proof

/-- Fields of MODE in a CE command (R321). -/
def MFields.ch (f : MFields) : Nat := f.mode.toNat % 16
def MFields.tmpl (f : MFields) : Nat := f.mode.toNat / 16 % 256
def MFields.res (f : MFields) : Bool := f.mode.getLsbD 12
def MFields.slot (f : MFields) : Nat := f.mode.toNat / 2 ^ 13 % 16

end Sys2Proof
namespace Sys2Proof.Machine

/-- A copy template (R318). -/
structure Template where
  rows : Nat
  cols : Nat
  conv : Nat
  rm : Nat
  sat : Bool
  trs : Bool
deriving DecidableEq, Repr

def templateOf (w : Word) : Template :=
  let v := w.toNat
  { rows := bitsOf v 15 0, cols := bitsOf v 31 16, conv := bitsOf v 33 32, rm := bitsOf v 37 35, sat := w.getLsbD 38, trs := w.getLsbD 39 }

/-- Which CE command an entry is: the KIND of R315. -/
inductive CeKind where
  | cpy | cpyi | cpyrs | cpyk | cpymc
deriving DecidableEq, Repr

def CeKind.code : CeKind → Nat
  | .cpy => 0 | .cpyi => 1 | .cpyrs => 2 | .cpyk => 3 | .cpymc => 4

/-- The template fails (R319, R326): element widths of source and destination. -/
def templateBad (k : CeKind) (w : Word) (ws wd : Nat) : Bool :=
  let t := templateOf w
  t.rows == 0 || t.cols == 0 || bitsOf w.toNat 63 40 != 0 || w.getLsbD 34 || decide (2 ≤ t.conv) ||
  match k with
  | .cpyrs => t.conv != 0 || t.rm != 0 || t.sat || t.trs
  | .cpyi => (t.conv == 0 && ws != wd) || t.trs
  | .cpyk => t.conv != 0 || ws != wd || decide (wd < 8)
  | _ => t.conv == 0 && ws != wd

/-- What a CE command works on: views, origins, template. -/
structure Job where
  k : CeKind
  f : MFields
  e : Entry
  t : Template
  s : View
  d : View

def Job.exact (j : Job) : Bool := j.k == .cpyrs && j.f.mode.getLsbD 17
def Job.value (j : Job) : Bool := j.k == .cpyrs || j.t.conv == 1
def Job.versioned (j : Job) : Bool := (j.k == .cpy || j.k == .cpyi) && (j.f.mode.getLsbD 18 || j.f.mode.getLsbD 19)

def jobOf (s : State) (k : CeKind) (f : MFields) (e : Entry) : Job :=
  { k, f, e, t := templateOf (smGet 0 (s.coreAt e.core).tmpl f.tmpl), s := e.view 1, d := e.view 2 }

/-- Elements of the source, the destination and the index tensor that the command touches (R322, R323, R326). -/
def Job.srcElems (j : Job) : List (Nat × Nat) :=
  if j.k = .cpyi then j.s.all
  else if j.t.trs then j.s.block (j.e.org 1) j.t.cols j.t.rows else j.s.block (j.e.org 1) j.t.rows j.t.cols
def Job.dstElems (j : Job) : List (Nat × Nat) := j.d.block (j.e.org 2) j.t.rows (if j.exact then 2 * j.t.cols else j.t.cols)
def Job.ixElems (j : Job) : List (Nat × Nat) :=
  let v := j.e.view 3
  if v.vc = 0 then [] else (List.range j.t.rows).map fun r => v.flat ((smGet 0 j.e.o 3).toNat % 2 ^ 32 + r)

/-- A CE operand's kind: scratchpad, memory or remote window (R322). -/
def ceKindOk (v : View) : Bool := decide (v.kind ≤ 2)

/-- T1 meets what the command asks of it (R325). -/
def Job.srcOk (j : Job) : Bool := ceKindOk j.s && (!j.versioned || ((j.s.kind == 1 || j.s.kind == 2) && j.s.base % 64 == 0))

/-- T2 and the template meet what the command asks of them (R319, R326, R328). -/
def Job.dstOk (j : Job) (raw : Word) : Bool :=
  ceKindOk j.d && !templateBad j.k raw (fmtBits j.s.fmt) (fmtBits j.d.fmt) &&
  match j.k with
  | .cpyrs =>
    j.d.kind == 1 && (if j.exact then j.d.fmt == .int32 && j.d.base % 8 == 0 && decide (j.d.estr = 1) && decide (j.d.rstr % 8 = 0)
                      else j.d.fmt == .fp32 || j.d.fmt == .bf16)
  | .cpymc => j.d.kind == 2
  | _ => true

/-- T3 meets what CPYI asks of it (R323). -/
def ixOk (v : View) : Bool := ceKindOk v && (v.fmt == .int32 || v.fmt == .ui32 || v.fmt == .ui16)

/-- The first failing descriptor (R36, R319, R340). -/
def State.ceTdesc (s : State) (j : Job) : Option Nat :=
  let raw := smGet 0 (s.coreAt j.e.core).tmpl j.f.tmpl
  firstDesc ([(j.f.t1.toNat, s.meTdesc j.e (j.e.desc 1) j.srcOk j.srcElems j.value),
              (j.f.t2.toNat, s.meTdesc j.e (j.e.desc 2) (j.dstOk raw) j.dstElems (j.t.conv == 1))] ++
             (if j.k = .cpyi then [(j.f.t3.toNat, s.meTdesc j.e (j.e.desc 3) (ixOk (j.e.view 3)) j.ixElems false)] else []))

/-- TRAP_AUX of VALIAS, if a source meets the destination (R254, R255). -/
def Job.clash (j : Job) : Option Nat :=
  let w := extOf j.e.core j.f.t2.toNat j.d j.dstElems (j.t.conv == 1)
  let xs := (1, extOf j.e.core j.f.t1.toNat j.s j.srcElems j.value) ::
    (if j.k = .cpyi then [(3, extOf j.e.core j.f.t3.toNat (j.e.view 3) j.ixElems false)] else [])
  xs.findSome? fun (pos, x) => (extMeet w x).map fun sc => (if sc then 1024 else 0) + pos * 256 + x.reg

/-- CPYMC's windows (R328). -/
def windowsOf (f : MFields) : List Nat := (List.range 16).filter fun w => f.imm.getLsbD w

/-! ### Channel state (R89, R312) -/

def State.modChan (s : State) (core ch : Nat) (g : Chan → Chan) : State :=
  s.modCore core fun c => { c with chans := smPut c.chans ch (g (smGet {} c.chans ch)) }

/-- D and E of the elements written, and whether they are one contiguous range. -/
def destRange (core : Nat) (v : View) (rcs : List (Nat × Nat)) : Nat × Nat × Bool :=
  match joinSpans (rcs.map v.span) with
  | [] => (v.base, v.base, true)
  | x :: r =>
    let l := (x :: r).map (ownSpan core)
    let lo := (l.foldl (fun m y => min m (spanBytes y).1) (spanBytes (ownSpan core x)).1).toNat
    let hi := (l.foldl (fun m y => max m (spanBytes y).2) (spanBytes (ownSpan core x)).2).toNat + 1
    (lo, hi, l.foldl (fun n y => n + y.2) 0 == (hi - lo) * 8)

/-- The entry begins on its channel: the new range, its watermark at D (R89). -/
def State.openChan (s : State) (j : Job) : State :=
  let (d, e, _) := destRange j.e.core j.d j.dstElems
  s.modChan j.e.core j.f.ch fun c => { c with d, e, wmark := d, active := decide (localBase ≤ d) && decide (e ≤ localBase + 0x400000) }

/-- Where a byte that the copy writes lies in the range of its channel: the window number of T2 stands for that of every window of CPYMC
(R328). -/
def Job.rangeAddrs (j : Job) (a : Nat) : List Nat :=
  if j.k = .cpymc then
    let own := (j.d.base - localBase - 0x200000000) / 0x400000
    (windowsOf j.f).map fun w => a + own * 0x400000 - w * 0x400000
  else [(spanBytes (ownSpan j.e.core ((a : Int) * 8, 8))).1.toNat]

/-- The filled prefix (R89): one past the highest byte below which every byte of the range has been performed. -/
def State.moveMark (s : State) (j : Job) (left : List (Nat × List (Byte × Byte))) : State :=
  let (d, e, one) := destRange j.e.core j.d j.dstElems
  let sent := (s.posted.filter fun p => p.seq == j.e.seq && p.core == j.e.core && p.strand == j.e.strand.getD 2047).map fun p => (p.va, p.bytes.length)
  let open1 := ((left.map fun w => (w.1, w.2.length)) ++ sent).flatMap fun (a, n) =>
    (j.rangeAddrs a).filterMap fun b => if b < e && decide (d < b + n) then some (max b d) else none
  s.modChan j.e.core j.f.ch fun c => { c with wmark := if one then open1.foldl min e else if open1.isEmpty then e else d }

/-- The entry ends on its channel (R89). -/
def State.closeChan (s : State) (j : Job) : State := s.modChan j.e.core j.f.ch ({ · with active := false })

/-! ### Turns -/

/-- A CE instruction: its slot pushes an entry of 16 cycles (R314), and the engine's turn runs it. -/
def State.ceInstr (s : State) (i : Instr) (run : State → Entry → State) : Out1 :=
  done (match s.engine with
    | none => s.push i 16 (commandWrites i)
    | some e => s.engineTurn 2 e fun s e => if e.runs then run s e else s.endEntry e)

/-- After a fault of a copy that was running, the destination bytes from the watermark on hold undefined values (R89, R329): in the
own scratchpad the bytes of [watermark, E), elsewhere the elements that lie there. -/
def State.undefDest (s : State) (j : Job) : State :=
  if j.k = .cpyrs || j.k = .cpymc || j.e.phase = 0 then s else
  let (d, e, _) := destRange j.e.core j.d j.dstElems
  let mark := (smGet {} (s.coreAt j.e.core).chans j.f.ch).wmark
  if localBase ≤ d && e ≤ localBase + 0x400000 then
    let (s, l) := s.freeBytes (e - max d mark)
    s.writeSpm j.e.core (max d mark - localBase) l
  else
    let (s, ps) := s.freePuts ((j.dstElems.map fun rc => (j.d.span rc, 0)).filter fun p => decide ((mark : Int) ≤ (spanBytes p.1).1))
    ps.foldl (fun s p => (s.writeVa j.e (putBytes p)).1) s

/-- The entry stops at a fault: FAULTED is set (R312, R340). -/
def State.ceFault (s : State) (j : Job) (cause aux : Nat) (info : Word) : State :=
  (s.failChan j.e.core j.f.ch).entryFault j.e cause aux info

/-- An access of the entry stops it or makes it wait. -/
def State.ceStop (s : State) (j : Job) (x : Stop) : State :=
  match x with
  | .wait => s.putEntry j.e
  | _ => ((s.undefDest j).failChan j.e.core j.f.ch).entryStop j.e x

/-- After reads of a CE entry: go on, or stop, or wait for replies. -/
def Rd.ce (r : Rd) (j : Job) (g : State → State) : State :=
  match r.stop with
  | some x => r.s.ceStop j x
  | none => if r.need.isEmpty then g r.s else r.s.ask j.e r.need

/-- The result element (R315). -/
def ceElem (kind status tmpl flg value : Nat) : Word :=
  BitVec.ofNat 64 (kind * 2 ^ 60 + status * 2 ^ 56 + tmpl * 2 ^ 48 + flg * 2 ^ 32 + value % 2 ^ 32)

/-- The arrival of an engine command through the slot it names (R215): none of it while the release must wait. -/
def State.engineArrive (s : State) (e : Entry) (k : Nat) : State × Option Stop :=
  match e.strand.bind fun n => (smFind (s.strandAt n).sync k).map fun sl => (n, sl) with
  | none => (s, some (.trap (causeAccess, 0x33) 0))
  | some (n, sl) =>
    let s := { s with cur := n }
    match s.globalPlace e.core e.sup .wr 3 sl.obj.toNat with
    | (s, .error t) => (s, some (.trap t sl.obj.toNat))
    | (s, .ok (.mem pa)) =>
      let s := s.performWhere fun x => x.core == e.core && x.touches (pa / 128)
      match s.fetchMem (e.who s) pa 64 2 with
      | (s, .trap t) => (s, some (.trap t sl.obj.toNat))
      | (s, .consumed u _) => (s, some (.consumed u sl.obj.toNat))
      | (s, .bytes _) =>
        let s := s.unsure pa
        if !sl.reg || sl.phase.toNat = (s.barrier pa).phase then (s, some (.trap (causeAccess, 0x33) sl.obj.toNat))
        else
          let rs := s.boundRegions pa
          match s.writeBackRegions rs with
          | (s, some (.trap t)) => (s, some (.trap t sl.obj.toNat))
          | (s, some (.consumed u _)) => (s, some (.consumed u sl.obj.toNat))
          | (s, some .wait) => (s, some .wait)
          | (s, none) =>
            let s := s.flushStrand false
            if !s.releaseReady rs 3 then (s, some .wait)
            else
              let s := s.performMem 0 (s.strandAt n).task pa (leBytes 8 (s.memNat pa 8 + 1))
              (s.arriveAt pa k sl, none)
      | (s, _) => (s, some .wait)
    | (s, .ok _) => (s, some (.trap (causeAccess, 0x34) sl.obj.toNat))

/-- The entry completes (R313, R341): space for its element, then its arrival, its element, its flag. -/
def State.ceFinish (s : State) (j : Job) (status flg value : Nat) (cover : List (Nat × Nat)) : State :=
  let e := { j.e with phase := 5, plan := [], keep := [status, flg, value] }
  let j := { j with e }
  let s := s.closeChan j
  if j.f.res && s.fifoFull e.core j.f.ch then s.putEntry e
  else
    let slot := if j.k = .cpyrs || j.k = .cpymc then j.f.slot else 0
    match (if slot = 0 then (s, none) else s.engineArrive e slot) with
    | (s, some .wait) => s.putEntry e
    | (s, some x) => s.ceStop j x
    | (s, none) =>
      let s := if j.f.res then s.pushFifo e.core j.f.ch (ceElem j.k.code status j.f.tmpl flg value) cover else s
      s.endEntry e

/-- The entry's posted writes that are not yet acknowledged. -/
def State.unacked (s : State) (e : Entry) : Bool :=
  s.posted.any fun p => p.seq == e.seq && p.core == e.core && p.strand == e.strand.getD 2047

/-- Make the writes that are left; when all are performed and acknowledged, `fin` runs (R313). -/
def State.ceDrain (s : State) (j : Job) (fin : State → Job → State) : State :=
  let (s, rest, x) := s.writeAll j.e j.e.plan
  let e := { j.e with phase := 4, plan := rest }
  let j := { j with e }
  let s := s.moveMark j rest
  match x with
  | some x => s.ceStop j x
  | none => if s.unacked e then s.putEntry e else fin s j

/-! ### CPY, CPYI, CPYK, CPYMC (R322 to R325, R327, R328) -/

/-- A position that the copy moves: row and column of the template, destination element, source element if it lies in its view. -/
structure Cell where
  r : Nat
  c : Nat
  dst : Nat × Nat
  src : Option (Nat × Nat)
  /-- the source row is out of range, so code 0 is written (R323) -/
  zero : Bool := false

/-- The cells of a copy in order, for the source rows given by `row` (R322, R323). -/
def Job.cells (j : Job) (row : Nat → Option Nat) : List Cell :=
  let (p, q) := j.e.org 2
  let (_, b) := j.e.org 1
  let src (x y : Nat) : Option (Nat × Nat) := if x < j.s.vr && y < j.s.vc then some (x, y) else none
  (List.range (min j.t.rows (j.d.vr - p))).flatMap fun r =>
    (List.range (min j.t.cols (j.d.vc - q))).map fun c =>
      match row r with
      | none => { r, c, dst := (p + r, q + c), src := none, zero := true }
      | some x => { r, c, dst := (p + r, q + c), src := if j.t.trs then src ((j.e.org 1).1 + c) (b + r) else src x (b + c) }

/-- The index values of CPYI: the source row of each template row, none where it is out of range (R323). -/
def Rd.rows (r : Rd) (j : Job) : Rd × List (Option Nat) :=
  let a := (j.e.org 1).1
  let v := j.e.view 3
  j.ixElems.foldl (fun (r, l) rc =>
    let (r, c) := Rd.code r j.e v rc 2
    let x := rawInt v.fmt c
    (r, l ++ [if 0 ≤ x && decide (x + a < (j.s.vr : Int)) then some (x.toNat + a) else none])) (r, ([] : List (Option Nat)))

/-- Read the source codes or values of the cells at their homes (R322). -/
def Rd.cells (r : Rd) (j : Job) (cs : List Cell) : Rd × List (Cell × Nat × List Val) :=
  let (r, l) := cs.foldl (fun (r, l) (x : Cell) =>
    match x.src with
    | none => (r, (x, 0, if fmtComplex j.s.fmt then [valZero, valZero] else [valZero]) :: l)
    | some rc =>
      if j.value then let (r, vs, _) := Rd.value r j.e j.s rc 2; (r, (x, 0, vs) :: l)
      else let (r, c) := Rd.code r j.e j.s rc 2; (r, (x, c, []) :: l)) (r, ([] : List (Cell × Nat × List Val)))
  (r, l.reverse)

/-- The codes that the copy writes (R322); VALUE raises no flag. -/
def State.copyPuts (s : State) (j : Job) (l : List (Cell × Nat × List Val)) : State × List Put :=
  let w := fmtBits j.d.fmt
  if j.value then
    let zs := l.filter fun x => x.1.zero
    let (s, ps, _) := s.putAll j.e j.d (rmOf j.t.rm j.e.rmode) j.t.sat ((l.filter fun x => !x.1.zero).map fun (x, _, vs) =>
      { j := x.dst.1 * j.d.vc + x.dst.2, vals := vs, ix := x.r * j.t.cols + x.c, lane := 0 })
    (s, ps ++ zs.map fun (x, _) => (j.d.span x.dst, 0))
  else (s, l.map fun (x, c, _) => (j.d.span x.dst, c % 2 ^ w))

/-- The bytes that CPYK sums: codes of the cells written, in order (R327). -/
def copyBytes (v : View) (l : List (Cell × Nat × List Val)) : List Byte := l.flatMap fun (_, c, _) => leBytes (fmtBits v.fmt / 8) c

/-- Little-endian 32-bit words of a byte stream, the last one padded with zeros, added up (R327). -/
def addWords : List Byte → Nat
  | a :: b :: c :: d :: r => leNat [a, b, c, d] + addWords r
  | l => leNat l

/-- CPYK's checksum (R327): algorithm, seed, stream. -/
def checksum (alg seed : Nat) (bs : List Byte) : Nat :=
  if alg = 0 then (~~~(crc32c (BitVec.ofNat 32 seed ^^^ 0xFFFFFFFF) bs)).toNat else (seed + addWords bs) % 2 ^ 32

/-- The stamp of a versioned shard (R324). -/
def Rd.stamp (r : Rd) (j : Job) : Rd × Nat :=
  let (r, l) := Rd.unit r j.e (j.s.base - 64) 8 2
  (r, leNat l % 2 ^ 24)

/-- TRAP_AUX of VERSION_SKEW, if the two stamps call for it (R325). -/
def Job.skew (j : Job) (a b : Nat) : Option Nat :=
  let aux (why : Nat) : Nat := b + j.s.ver * 2 ^ 24 + why * 2 ^ 48
  if a % 2 = 1 || b % 2 == 1 then some (aux 1)
  else if a ≠ b then some (aux 2)
  else if j.f.mode.getLsbD 19 && b != j.s.ver then some (aux 0)
  else none

/-- The writes of CPYMC: the plan once for every window of the mask, at the same offset (R328). -/
def windowPlan (f : MFields) (v : View) (plan : List (Nat × List (Byte × Byte))) : List (Nat × List (Byte × Byte)) :=
  let own := (v.base - localBase - 0x200000000) / 0x400000
  (windowsOf f).flatMap fun w => plan.map fun (a, bs) => (a + w * 0x400000 - own * 0x400000, bs)

/-- All writes are performed: CK and the element (R315, R327, R328). -/
def State.copyEnd (s : State) (j : Job) : State :=
  let cover := coverOf j.e.core j.d j.dstElems j.value
  let v := (j.e.keep[1]?).getD 0
  match j.k with
  | .cpyk =>
    let bad := j.f.mode.getLsbD 23 && v != j.f.imm.toNat / 2 ^ 32
    (s.modChan j.e.core j.f.ch fun c => { c with ck := BitVec.ofNat 32 v }).ceFinish j (if bad then 1 else 0) 0 v cover
  | .cpymc => s.ceFinish j 0 0 (windowsOf j.f).length []
  | _ => s.ceFinish j 0 0 (if j.f.mode.getLsbD 18 then v else 0) cover

/-- The second stamp (R325), then the writes. -/
def State.copyStamp2 (s : State) (j : Job) : State :=
  let j := { j with e := { j.e with phase := 3 } }
  if !j.versioned then s.ceDrain j State.copyEnd
  else
    let (r, b) := ({ s } : Rd).stamp j
    r.ce j fun s => match j.skew ((j.e.keep[0]?).getD 0) b with
      | some aux => (s.undefDest j).ceFault j causeVersion aux (BitVec.ofNat 64 j.s.base)
      | none => s.ceDrain { j with e := { j.e with keep := [b, b], got := [] } } State.copyEnd

/-- The data reads (R322, R323). -/
def State.copyData (s : State) (j : Job) : State :=
  let j := { j with e := { j.e with phase := 2 } }
  let (r, rows) := if j.k = .cpyi then ({ s } : Rd).rows j else ({ s }, (List.range j.t.rows).map fun r => some ((j.e.org 1).1 + r))
  let (r, l) := if r.need.isEmpty then r.cells j (j.cells fun i => (rows[i]?).getD none) else (r, [])
  r.ce j fun s =>
    let (s, ps) := s.copyPuts j l
    let (s, ps) := if s.hiddenAlias j.e (ps.map (·.1)) ((extOf j.e.core 0 j.s j.srcElems j.value).spans ++ (extOf j.e.core 0 (j.e.view 3) (if j.k = .cpyi then j.ixElems else []) false).spans) then s.freePuts ps else (s, ps)
    let plan := if j.k = .cpymc then windowPlan j.f j.d (writePlan ps) else writePlan ps
    let seed := if j.f.mode.getLsbD 22 then (smGet {} (s.coreAt j.e.core).chans j.f.ch).ck.toNat else j.f.imm.toNat % 2 ^ 32
    let v := if j.k = .cpyk then checksum (bitsOf j.f.mode.toNat 21 20) seed (copyBytes j.d l) else 0
    let e := { j.e with plan, keep := [(j.e.keep[0]?).getD 0, v], got := [] }
    (s.putEntry e).copyStamp2 { j with e }

/-- The first stamp (R325), then the data. -/
def State.copyStamp1 (s : State) (j : Job) : State :=
  let j := { j with e := { j.e with phase := 1 } }
  if !j.versioned then s.copyData j
  else
    let (r, a) := ({ s } : Rd).stamp j
    r.ce j fun s => s.copyData { j with e := { j.e with keep := [a], got := [] } }

/-- The checks made when an entry begins (R340). -/
def State.ceBegin (s : State) (j : Job) (go : State → State) : State :=
  let s := s.modChan j.e.core j.f.ch ({ · with faulted := false })
  match s.ceTdesc j with
  | some aux => s.ceFault j causeTdesc aux j.e.addr
  | none =>
    match j.clash with
    | some aux => s.ceFault j causeValias aux j.e.addr
    | none =>
      match (if j.k = .cpymc then (windowsOf j.f).findSome? fun w => match s.winTarget j.e.core w true with
          | .error t => some (t, localBase + 0x200000000 + w * 0x400000 + (j.d.base - localBase - 0x200000000) % 0x400000)
          | .ok _ => none else none) with
      | some (t, va) => s.ceFault j t.1 t.2 (BitVec.ofNat 64 va)
      | none => go s

/-- A turn of CPY, CPYI, CPYK or CPYMC. -/
def State.copyRun (s : State) (k : CeKind) (f : MFields) (e : Entry) : State :=
  let j := jobOf s k f e
  match e.phase with
  | 0 => s.ceBegin j fun s => (s.openChan j).copyStamp1 j
  | 1 => s.copyStamp1 j
  | 2 => s.copyData j
  | 3 => s.copyStamp2 j
  | 4 => s.ceDrain j State.copyEnd
  | _ => match e.keep with
    | [a, b, c] => s.ceFinish j a b c (if k = .cpymc then [] else coverOf e.core j.d j.dstElems j.value)
    | _ => s.endEntry e

/-- CPY (R322). -/
def execCpy (f : MFields) (s : State) : Out1 := s.ceInstr (.cpy f) fun s e => s.copyRun .cpy f e
/-- CPYI (R323). -/
def execCpyi (f : MFields) (s : State) : Out1 := s.ceInstr (.cpyi f) fun s e => s.copyRun .cpyi f e
/-- CPYK (R327). -/
def execCpyk (f : MFields) (s : State) : Out1 := s.ceInstr (.cpyk f) fun s e => s.copyRun .cpyk f e
/-- CPYMC (R328). -/
def execCpymc (f : MFields) (s : State) : Out1 := s.ceInstr (.cpymc f) fun s e => s.copyRun .cpymc f e

/-! ### CPYRS (R326) -/

/-- trunc(v × 2^(52 − e)), or why the element contributes nothing: 1 NONFIN, 2 RANGE (R326). -/
def exactTerm (e : Int) (v : Val) : Except Nat Int :=
  match v with
  | .fin neg n d =>
    let (a, b) := fracScale n d (-(e + 1))
    if b ≤ a then .error 2
    else
      let (a, b) := fracScale n d (52 - e)
      .ok (if neg then -((a / b : Nat) : Int) else (a / b : Nat))
  | _ => .error 1

/-- A read-modify-write of `n` bytes at a home of this package for an entry (R84, R326). -/
def State.rmwMem (s : State) (e : Entry) (pa n : Nat) (g : Nat → Nat) : State × Option Stop :=
  let s := s.performWhere fun x => x.core == e.core && x.touches (pa / 128)
  match s.fetchMem (e.who s) pa n 2 with
  | (s, .bytes l) =>
    let bs := leBytes n (g (leNat l))
    let (s, bs) := if e.undef then s.freeBytes n else (s, bs)
    ((s.performMem (s.tenantOf e.core) (e.who s).task pa bs (some e.core) e.strand).updateBytes e.core pa bs, none)
  | (s, .trap t) => (s, some (.trap t pa))
  | (s, .consumed u _) => (s, some (.consumed u pa))
  | (s, _) => (s, some .wait)

/-- One addition at the home of a destination element (R326): done here, or sent as an ATOMIC request, whose number comes
back. -/
def State.reduceAt (s : State) (j : Job) (va : Nat) (v : Val) (term : Int) : State × Option Stop × Option Nat :=
  let e := j.e
  let n := if j.exact then 8 else fmtBits j.d.fmt / 8
  match s.place e.core e.sup .wr 3 (BitVec.ofNat 64 va) with
  | (s, .error t) => (s, some (.trap t va), none)
  | (s, .ok (.mem pa)) =>
    let (s, x) := s.rmwMem e pa n fun old =>
      if j.exact then ((old : Int) + term).toNat % 2 ^ 64 + (if (old : Int) + term < 0 then (2 ^ 64 - ((-((old : Int) + term)).toNat % 2 ^ 64)) % 2 ^ 64 else 0)
      else reduceCode j.d.fmt old v
    (s, x.map fun y => match y with
      | .trap t _ => .trap t va
      | .consumed u _ => .consumed u va
      | .wait => .wait, none)
  | (s, .ok (.remote pa)) =>
    if isHostRange (pa % 2 ^ 46) then (s, some (.trap (causeAccess, 8) va), none) else
    if isDevReg (pa % 2 ^ 46) then (s, some (.trap (causeAccess, 5) va), none) else
    let tenant := s.tenantOf e.core
    let base : List Byte := if j.exact then [0x16, 0, 0, 0, 0, 0, 0, 0] else [0x17, 0, 0, 0, 0, 0, 0, 0]
    let payload := base ++ leBytes 8 (term % (2 ^ 64 : Nat)).toNat ++ leBytes 8 0
    let f := flitTo 4 pa tenant
    let f := if j.exact then f else { f with packet := { vals := [v] }, more := [descField (e.desc 2) 5] }
    let (s, id) := s.request (dieOf e.core) (.entry e.core e.seq) f (BitVec.ofNat 64 va) n [payload]
    (s, none, some id)
  | (s, .ok (.dev _)) => (s, some (.trap (causeAccess, 5) va), none)
  | (s, .ok _) => (s, some (.trap (causeAccess, 8) va), none)

/-- The additions from element number `i` on; `flg` gathers NONFIN and RANGE. -/
def State.reduceAll (s : State) (j : Job) (l : List (Cell × Nat × List Val)) : Nat → Nat → List Nat → State × Nat × Nat × List Nat × Option Stop
  | i, flg, ids =>
    match l with
    | [] => (s, i, flg, ids, none)
    | (x, _, vs) :: r =>
      let v := vs.headD valZero
      let term := if j.exact then exactTerm (intOfCode 16 (j.f.imm.toNat % 2 ^ 16)) v else .ok 0
      match term with
      | .error b => s.reduceAll j r (i + 1) (flg ||| b) ids
      | .ok k =>
        match s.reduceAt j (spanBytes (j.d.span x.dst)).1.toNat v k with
        | (s, some y, _) => (s, i, flg, ids, some y)
        | (s, none, id) => s.reduceAll j r (i + 1) flg (ids ++ id.toList)

/-- The cells of a reduce-store: in exact mode each takes two destination elements, which both lie in the view. -/
def Job.reduceCells (j : Job) : List Cell :=
  let (p, q) := j.e.org 2
  let (a, b) := j.e.org 1
  let w := if j.exact then 2 else 1
  (List.range (min j.t.rows (j.d.vr - p))).flatMap fun r =>
    (List.range (min j.t.cols ((j.d.vc - q) / w))).map fun c =>
      { r, c, dst := (p + r, q + w * c), src := if a + r < j.s.vr && b + c < j.s.vc then some (a + r, b + c) else none }

/-- The additions that are left, `keep` holding the number made and the flags; then the completion. -/
def State.reduceRun (s : State) (j : Job) : State :=
  let i := (j.e.keep[0]?).getD 0
  let flg := (j.e.keep[1]?).getD 0
  let j := { j with e := { j.e with phase := 2 } }
  let (r, l) := ({ s } : Rd).cells j (j.reduceCells.drop i)
  r.ce j fun s =>
    let (s, i, flg, ids, x) := s.reduceAll j (if s.pace = 0 then l else l.take 1) i flg []
    let e := { j.e with keep := [i, flg], waits := j.e.waits ++ ids }
    let j := { j with e }
    match x with
    | some x => s.ceStop j x
    | none =>
      if s.pace ≠ 0 && 1 < l.length then s.putEntry e
      else if e.waits.isEmpty then s.ceFinish j 0 flg 0 [] else s.putEntry { e with phase := 4 }

/-- CPYRS (R326). -/
def execCpyrs (f : MFields) (s : State) : Out1 := s.ceInstr (.cpyrs f) fun s e =>
  let j := jobOf s .cpyrs f e
  match e.phase with
  | 0 => s.ceBegin j fun s => s.reduceRun { j with e := { e with keep := [0, 0] } }
  | 4 => s.ceFinish j 0 ((e.keep[1]?).getD 0) 0 []
  | 5 => s.ceFinish j 0 ((e.keep[1]?).getD 0) 0 []
  | _ => s.reduceRun j

/-! ### CWMK and CTPL (R320, R329) -/

/-- CWMK (R329): the element waits for space; then the channel's state is reported and, with CLR, cleared. -/
def execCwmk (f : MFields) (s : State) : Out1 := s.ceInstr (.cwmk f) fun s e =>
  let c : Chan := smGet {} (s.coreAt e.core).chans f.ch
  if s.fifoFull e.core f.ch then s.putEntry { e with phase := 5 }
  else
    let flg := (if c.active then 1 else 0) + (if c.faulted then 2 else 0)
    let s := s.pushFifo e.core f.ch (ceElem 5 0 0 flg (c.wmark - c.d))
    let s := if f.mode.getLsbD 24 then s.modCore e.core fun x => { x with chans := smDel x.chans f.ch } else s
    s.endEntry e

/-- CTPL (R320). -/
def execCtpl (f : MFields) (s : State) : Out1 := s.ceInstr (.ctpl f) fun s e =>
  (s.modCore e.core fun c => { c with tmpl := smSet 0 c.tmpl f.tmpl f.imm }).endEntry e

end Sys2Proof.Machine
end

