-- ==== Sys2Proof/Machine/Stages.lean ====
section
/-!
DEFINITION. Stages (R32, R366 to R378): a stage's descriptor fields, where it is served, its tags, versions and arrival queues.
-/
namespace Sys2Proof.Machine

/-! ### Descriptor fields (R366, R367) -/

/-- The descriptor's word at a byte offset. -/
def Stage.word (g : Stage) (off : Nat) : Nat := (smGet 0 g.desc (off / 8)).toNat
def Stage.cls (g : Stage) : Nat := bitsOf (g.word 0) 9 8
def Stage.limit (g : Stage) : Nat := bitsOf (g.word 0) 22 16
def Stage.warmup (g : Stage) : Nat := bitsOf (g.word 0) 30 24
def Stage.sthr (g : Stage) : Nat := bitsOf (g.word 0) 39 32
def Stage.nfmode (g : Stage) : Nat := bitsOf (g.word 0) 41 40
def Stage.clmask (g : Stage) : Nat := g.word 8 % 2 ^ 48
def Stage.cmask (g : Stage) : Nat := bitsOf (g.word 8) 55 48
/-- The entry address of a kind: 0 F, 1 B, 2 W. -/
def Stage.entry (g : Stage) (kind : Nat) : Nat := g.word (0x10 + 8 * kind)
def Stage.nfmask (g : Stage) : Nat := g.word 0x38 / 2 ^ 32
def Stage.skipaddr (g : Stage) : Nat := g.word 0x40

/-- The cores that masks name, in rising order (R43, R44). -/
def maskCores (clmask cmask : Nat) : List Nat :=
  (List.range 48).flatMap fun b =>
    if clmask.testBit b then (List.range 8).filterMap fun k => if cmask.testBit k then some (b / 6 * 48 + b % 6 * 8 + k) else none
    else []

def Stage.cores (g : Stage) : List Nat := maskCores g.clmask g.cmask
def Stage.dies (g : Stage) : List Nat := (g.cores.map dieOf).eraseDups

/-- A channel end (R374). -/
structure ChanEnd where
  v : Bool
  recv : Bool
  bq : Bool
  pstage : Nat
  pnode : Nat
  win : Nat
  slotBytes : Nat
  rbase : Nat
deriving DecidableEq, Repr

def Stage.chanEnd (g : Stage) (k : Nat) : ChanEnd :=
  let lo := g.word (0x80 + 16 * k)
  { v := lo.testBit 63, recv := lo.testBit 62, bq := lo.testBit 61, pstage := bitsOf lo 60 53, pnode := bitsOf lo 52 43,
    win := bitsOf lo 41 36 + 1, slotBytes := (bitsOf lo 35 28 + 1) * 4096, rbase := g.word (0x88 + 16 * k) }

/-! ### Where a stage is served (R32) -/

/-- The die and place of a tenant's stage. -/
def State.findStage (s : State) (tenant id : Nat) : Option (Nat × Nat × Stage) :=
  s.dies.findSome? fun (d, x) => (x.stages.find? fun p => p.2.id == id && p.2.tenant == tenant).map fun p => (d, p.1, p.2)

/-- The same on one die's scheduler. -/
def State.stageOn (s : State) (d tenant id : Nat) : Option (Nat × Stage) :=
  (s.dieAt d).stages.find? fun p => p.2.id == id && p.2.tenant == tenant

def State.setStage (s : State) (d sel : Nat) (g : Stage) : State := s.modDie d fun x => { x with stages := smPut x.stages sel g }

/-- A strand's own stage (R343). -/
def State.ownStage (s : State) (n : Nat) : Option (Nat × Nat × Stage) :=
  (s.strandAt n).stage.bind fun id => s.findStage (s.tenantOf (coreOf n)) id

/-! ### Tags and versions (R372, R376) -/

def Stage.tag (g : Stage) (tag : Nat) : Option TagState := smFind g.tags tag

/-- The last kind of a tag: W where WENTRY is not 0, else B. -/
def Stage.lastKind (g : Stage) : Nat := if g.entry 2 ≠ 0 then 2 else 1

/-- A count of a version changes; one that reaches 0 and is not current is freed (R376). -/
def Stage.dropVer (g : Stage) (v : Nat) : Stage :=
  let n := smGet 0 g.vers v - 1
  { g with vers := if n = 0 && v != g.cur then smDel g.vers v else smPut g.vers v n }

/-- Held W postings enter WQ as it has room (R372). -/
def Stage.refillW (g : Stage) : Stage :=
  let k := 64 - g.wq.length
  { g with wq := g.wq ++ (g.held.take k).map fun t => { tag := t }, held := g.held.drop k }

/-- A kind of a tag finishes (R372): B posts W, and the last kind takes the tag out of flight. -/
def Stage.finishKind (g : Stage) (tag kind : Nat) : Stage :=
  match g.tag tag with
  | none => g
  | some t =>
    let g := if kind = 1 && g.entry 2 ≠ 0 then
        (if g.state = 2 then g else { g with held := g.held ++ [tag] }.refillW) else g
    if kind = g.lastKind then ({ g with tags := smDel g.tags tag } : Stage).dropVer t.ver
    else { g with tags := smPut g.tags tag { t with finished := kind :: t.finished } }

/-- The queue of a kind. -/
def Stage.queue (g : Stage) (kind : Nat) : List Arrival := if kind = 0 then g.fq else if kind = 1 then g.bq else g.wq
def Stage.setQueue (g : Stage) (kind : Nat) (l : List Arrival) : Stage :=
  if kind = 0 then { g with fq := l } else if kind = 1 then { g with bq := l } else { g with wq := l }

end Sys2Proof.Machine
end

