-- ==== Sys2Proof/Machine/Tasks.lean ====
section
/-!
DEFINITION. Tasks (R37 to R53, R68, R69): starting strands, the launch queues and their records, system tasks, the device's
own reads and writes (R533), and retirement.
-/
namespace Sys2Proof.Machine

/-! ### Accesses that the device makes on its own account (R97, R533) -/

/-- What such a read brings: bytes, a failure (cause, TRAP_AUX, address), or it must wait for an answer. -/
inductive DevGot where
  | bytes (l : List Byte)
  | fail (cause aux va : Nat)
  | wait
deriving DecidableEq, Repr

/-- The numbers of such accesses in `State.devAcc`: the head of a launch queue, its completion record, a stage's table, a stage's
completion record. -/
def headKey (q : Nat) : Nat := q
def cplKey (q : Nat) : Nat := 8 + q
def tableKey (d sel : Nat) : Nat := 16 + 2 * (d * 2 ^ 16 + sel)
def stageKey (d sel : Nat) : Nat := 17 + 2 * (d * 2 ^ 16 + sel)

/-- The place of such an access, in supervisor context (R533). A translation that a ring of launch queue `ring` uses stays in force (R102). -/
def State.devPlace (s : State) (ring : Option Nat) (core : Nat) (need : Need) (kind va : Nat) : State × Except Trap Place :=
  match ring with
  | none => s.place core true need kind (BitVec.ofNat 64 va)
  | some q =>
    if isLocal va || 2 ^ 56 ≤ va then s.place core true need kind (BitVec.ofNat 64 va)
    else
      let r : State × Except Trap (Nat × Nat) := match smFind (s.lqAt q).pins (va / 4096) with
        | some p => (s, .ok p)
        | none => match s.translate core va with
          | (s, .ok p) => (s.modLq q fun l => { l with pins := smPut l.pins (va / 4096) p }, .ok p)
          | (s, .error t) => (s, .error t)
      match r with
      | (s, .error t) => (s, .error t)
      | (s, .ok (e, l)) => match permTest e true need with
        | .error t => (s, .error t)
        | .ok () => match placeOf s.node (leafPa e l va) with
          | .error t => (s, .error t)
          | .ok p => (s, s.placeOk core true kind p)

/-- Read `n` bytes for access number `key`, through the page table of `core`'s die. What another package or the host holds is asked for. -/
def State.devGet (s : State) (key : Nat) (ring : Option Nat) (core va n : Nat) : State × DevGot :=
  let acc : DevAcc := smGet {} s.devAcc key
  if !acc.waits.isEmpty then (s, .wait)
  else
    let (s, r, need) := (List.range (n / 8)).foldl (fun (s, r, need) i =>
      match r with
      | .bytes l =>
        let a := va + 8 * i
        (match s.devPlace ring core .rd 0 a with
        | (s, .error t) => (s, DevGot.fail t.1 t.2 a, need)
        | (s, .ok p) =>
          match s.fetchPlace { core } p 8 2 with
          | (s, .bytes b) => (s, .bytes (l ++ b), need)
          | (s, .trap t) => (s, .fail t.1 t.2 a, need)
          | (s, .consumed _ _) => (s, .fail causePoison 0xF a, need)
          | (s, .wait _) => (s, .wait, need)
          | (s, .need x) =>
            let host : Nat := match p with
              | .host _ => 2
              | _ => 0
            match (List.range 8).findSome? fun k => smFind acc.fails (x + k) with
            | some (c, aux) => (s, .fail c aux a, need)
            | none => (s, .bytes (l ++ (List.range 8).map fun k => smGet 0 acc.got (x + k)),
                need ++ ((List.range 8).filter fun k => (smFind acc.got (x + k)).isNone).map fun k => (x + k, host)))
      | r => (s, r, need)) (s, DevGot.bytes [], ([] : List (Nat × Nat)))
    match r with
    | .wait => ({ s with devAcc := smPut s.devAcc key { acc with blocked := true } }, .wait)
    | .fail .. => ({ s with devAcc := smDel s.devAcc key }, r)
    | .bytes _ =>
      if need.isEmpty then ({ s with devAcc := smDel s.devAcc key }, r)
      else
        let (s, ids) := s.askLines (dieOf core) (s.tenantOf core) (.device key) need
        ({ s with devAcc := smPut s.devAcc key { acc with waits := ids, blocked := true } }, .wait)

/-- Write bytes within a line for access number `key`, of task `task`; false until they are performed: the host must give up the line
first, or another package has not acknowledged them (R68, R444). What cannot be written is not (R68). -/
def State.devPut (s : State) (key task : Nat) (ring : Option Nat) (core va : Nat) (bs : List Byte) : State × Bool :=
  match smFind s.devAcc key with
  | some a => if a.task ≠ task || !a.waits.isEmpty then (s, false) else ({ s with devAcc := smDel s.devAcc key }, true)
  | none =>
    match s.devPlace ring core .wr 1 va with
    | (s, .ok (.mem pa)) =>
      if s.held.contains (pa / 128) then (s.snoopLine (pa / 128), false)
      else ((s.performWhere fun x => x.touches (pa / 128)).performMem (s.tenantOf core) 0 pa bs, true)
    | (s, .ok (.host pa)) => (s.hostPost (s.tenantOf core) pa bs, true)
    | (s, .ok (.remote pa)) =>
      let (s, id) := s.request (dieOf core) (.device key) (flitTo 2 (pa / 128 * 128) (s.tenantOf core)) (BitVec.ofNat 64 va) bs.length
        [lineData (pa % 128) bs (bs.map fun _ => 0xFF)]
      ({ s with devAcc := smPut s.devAcc key { task, waits := [id] } }, false)
    | (s, _) => (s, true)

/-- Change such an access. -/
def State.modDev (s : State) (key : Nat) (f : DevAcc → DevAcc) : State :=
  match smFind s.devAcc key with
  | some a => { s with devAcc := smPut s.devAcc key (f a) }
  | none => s

/-- An address is mapped (R47). -/
def State.mapped (s : State) (core va : Nat) : Bool :=
  decide (va < 2 ^ 56) && !isLocal va && match (s.translate core va).2 with
    | .ok _ => true
    | .error _ => false

/-- The core through whose die a tenant's queue is served: the first of its lowest die (log 25). -/
def State.tenantCore (s : State) (tenant : Nat) : Option Nat :=
  ((List.range Config.dies).find? fun d => (s.dieAt d).tenant == tenant).map (· * Config.coresPerDie)

/-- A table of 64 descriptors (R43). -/
def tableOf (l : List Byte) : SMap Desc :=
  (List.range 64).foldl (fun m i => smSet 0 m i (BitVec.ofNat 256 (leNat ((l.drop (32 * i)).take 32)))) []

/-! ### Starting strands (R46, R49) -/

/-- The lowest free strand slot of a core. -/
def State.freeSlot (s : State) (core : Nat) : Option Nat :=
  ((List.range Config.slots).find? fun k => !(s.strandAt (core * Config.slots + k)).live).map (core * Config.slots + ·)

/-- A template installation waits in a core's aperture queue (R174). -/
def Core.installs (c : Core) : Bool := c.apq.any fun e => match e.instr with
  | .ctpl _ => true
  | _ => false

/-- A strand may start on a core (R46, R174): a slot is free, and no template installation waits. -/
def State.coreFree (s : State) (core : Nat) : Bool := (s.freeSlot core).isSome && !(s.coreAt core).installs

/-- A core without a strand has counted core cycles too (R232): how many is a free value (log 45). -/
def State.idleCycles (s : State) (core : Nat) : State :=
  if (List.range Config.slots).any fun k => (s.strandAt (core * Config.slots + k)).live then s
  else let (v, s) := s.draw; s.modCore core fun c => { c with cycle := c.cycle + v.setWidth 64 }

/-- The strand starts in its slot, in an implicit region (R49). -/
def State.startStrand (s : State) (n : Nat) (x : Strand) : State :=
  (s.idleCycles (coreOf n)).setStrand n ({ x with live := true, lseq := (s.strandAt n).lseq }.openRegion { entry := x.pc })

/-- The next TASK_ID (R38). -/
def State.newTask (s : State) (t : Task) : State × Nat :=
  let id := s.nextTask
  ({ s with nextTask := if id = 0xFFFFFFFF then 1 else id + 1, tasks := smPut s.tasks id t }, id)

/-- What a gang's strands have in common (R49). -/
structure Start where
  pc : Nat
  s1 : Word
  s2 : Word := 0
  s3 : Word := 0
  s4 : Word
  t : SMap Desc := []
  cls : Nat
  /-- SR_SEED of a stage task; TASK_ID otherwise -/
  seed : Option Nat := none
  stage : Option Nat := none
  spmBase : Nat := 0
  spmLen : Nat := 0x400000
  accBase : Nat := 0
  accN : Nat := 8

/-- The strand of a task's rank (R38, R39, R49, R239). -/
def Start.strand (a : Start) (task size rank : Nat) : Strand :=
  let regs := [(1, a.s1), (2, a.s2), (3, a.s3), (4, a.s4)].foldl (fun m p => smSet (0 : Word) m p.1 p.2) []
  { task, gangSize := size, gangRank := rank, stage := a.stage, pc := BitVec.ofNat 64 a.pc
    now := { s := regs, t := a.t, cls := BitVec.ofNat 2 a.cls, sup := a.cls == 3, srSeed := BitVec.ofNat 32 (a.seed.getD task) }
    spmBase := a.spmBase, spmLen := a.spmLen, accBase := a.accBase, accN := a.accN }

/-- All strands of a gang start in one step (R46). -/
def State.startGang (s : State) (task : Nat) (cores : List Nat) (a : Start) : State :=
  cores.zipIdx.foldl (fun s (c, rank) =>
    match s.freeSlot c with
    | some n => s.startStrand n (a.strand task cores.length rank)
    | none => s) s

/-- A system task starts on a die (R39). -/
def State.startSystem (s : State) (d : Nat) (a : Start) : State :=
  let (s, id) := s.newTask { origin := .system d, tenant := (s.dieAt d).tenant, gang := [d * Config.coresPerDie], sup := true }
  s.startStrand (d * Config.coresPerDie * Config.slots) (a.strand id 1 0)

/-! ### Launch records (R43 to R47) -/

/-- The fields of a launch record (R43). -/
structure LaunchRec where
  user : Word
  arg : Word
  syncobj : Nat
  counta : Nat
  tdtab : Nat
  spmLen : Nat
  spmBase : Nat
  accN : Nat
  accB : Nat
  reserved : Bool
  cmask : Nat
  clmask : Nat
  gang : Nat
  acq : Bool
  indirect : Bool
  cls : Nat
  entry : Nat
deriving DecidableEq, Repr

def launchRec (w : Nat) : LaunchRec :=
  { user := BitVec.ofNat 64 (w / 2 ^ 448), arg := BitVec.ofNat 64 (bitsOf w 447 384), syncobj := bitsOf w 383 320
    counta := bitsOf w 319 256, tdtab := bitsOf w 255 192, spmLen := bitsOf w 191 176, spmBase := bitsOf w 175 160
    accN := bitsOf w 159 156, accB := bitsOf w 155 152, reserved := bitsOf w 151 144 != 0 || bitsOf w 71 68 != 0
    cmask := bitsOf w 143 136, clmask := bitsOf w 135 88, gang := bitsOf w 87 72, acq := w.testBit 67, indirect := w.testBit 66
    cls := bitsOf w 65 64, entry := w % 2 ^ 64 }

/-- The windows keep the bounds of R43. -/
def windowsOk (spmBase spmLen accB accN : Nat) : Bool :=
  decide (1 ≤ spmLen) && decide (spmBase + spmLen ≤ 1024) && decide (accN ≤ 8) && (accN == 0 || decide (accB + accN ≤ 8))

/-- The record is malformed by its fields alone, or names an address that is not mapped (R47). -/
def State.recordBad (s : State) (tenant core : Nat) (r : LaunchRec) : Bool :=
  let el := maskCores r.clmask r.cmask
  r.reserved || r.syncobj % 64 != 0 || r.counta % 8 != 0 || r.tdtab % 32 != 0 || r.entry % 4 != 0
  || !windowsOk r.spmBase r.spmLen r.accB r.accN
  || r.clmask == 0 || (List.range 48).any (fun b => r.clmask.testBit b && (s.dieAt (b / 6)).tenant != tenant)
  || r.cmask == 0 || (r.cls == 3 && tenant != 0) || (!r.indirect && decide (el.length < r.gang))
  || !s.mapped core r.entry || (r.tdtab != 0 && !s.mapped core r.tdtab)
  || (r.indirect && (!s.mapped core r.counta || (r.acq && !s.mapped core r.syncobj)))

/-- The reads that precede a gang's start (R45, R47), each made once; the head stays unready while one must wait. -/
def State.launchReads (s : State) (q core : Nat) (h : HeadRead) : State × HeadRead :=
  let r := launchRec h.rec1
  let el := maskCores r.clmask r.cmask
  let get (s : State) (va n : Nat) : State × DevGot := s.devGet (headKey q) none core va n
  let bad (s : State) : State × HeadRead := (s, { h with ready := true, status := some 4 })
  let go (s : State) (t : SMap Desc) : State × HeadRead :=
    if !r.indirect then (s, { h with ready := true, gang := el.take (if r.gang = 0 then el.length else r.gang), t })
    else
      match (if r.acq then get s r.syncobj 64 else (s, .bytes [])) with
      | (s, .fail _ _ _) => bad s
      | (s, .wait) => (s, h)
      | (s, .bytes _) =>
        match get s r.counta 8 with
        | (s, .fail _ _ _) => bad s
        | (s, .wait) => (s, h)
        | (s, .bytes l) =>
          let n := leNat l
          (s, if n = 0 then { h with ready := true, status := some 0 } else if el.length < n then { h with ready := true, status := some 3 }
              else { h with ready := true, gang := el.take n, t })
  if r.tdtab = 0 then go s []
  else match get s r.tdtab 2048 with
    | (s, .fail _ _ _) => bad s
    | (s, .wait) => (s, h)
    | (s, .bytes l) => go s (tableOf l)

/-- Tasks of a queue that have not retired (R68). -/
def State.liveOf (s : State) (q : Nat) : Nat := (s.tasks.filter fun p => p.2.origin == .queue q).length

/-- The head of a queue that can be dispatched, which the launch unit reads once, at the moment it starts to dispatch it (R43, R46). A
head that cannot be read retires with status RECORD (log 54). -/
def State.launchHead (s : State) (q : Nat) : State × Option HeadRead :=
  let l := s.lqAt q
  let n := 2 ^ l.size
  if l.state ≠ 1 || l.head = l.tail || n - 1 ≤ s.liveOf q + (l.chead + n - l.ctail) % n then (s, none)
  else match s.tenantCore l.tenant with
    | none => (s, none)
    | some core =>
      let (s, h) : State × Option HeadRead := match l.read with
        | some h => (s, some h)
        | none => match s.devGet (headKey q) (some q) core (l.base.toNat + 64 * l.head) 64 with
          | (s, .wait) => (s, none)
          | (s, .fail _ _ _) => (s, some { rec1 := 0, ready := true, status := some 4 })
          | (s, .bytes b) =>
            let bad := s.recordBad l.tenant core (launchRec (leNat b))
            (s, some { rec1 := leNat b, ready := bad, status := if bad then some 4 else none })
      match h with
      | none => (s, none)
      | some h =>
        let (s, h) := if h.ready then (s, h) else s.launchReads q core h
        (s.modLq q ({ · with read := some h }), if h.ready then some h else none)

/-- The gang can start: every core has a free slot (R46). -/
def HeadRead.fits (a : HeadRead) (s : State) : Bool := a.gang.all s.coreFree

/-- The queue that is served next (R46): the highest CLASS, then the first after the queue last served. -/
def State.launchPick (s : State) : State × Option (Nat × HeadRead) :=
  ((List.range 8).map fun i => (s.lqLast + 1 + i) % 8).foldl (fun (s, best) q =>
    match s.launchHead q with
    | (s, some a) =>
      if !a.fits s then (s, best)
      else (s, match best with
        | some (_, b) => if (launchRec b.rec1).cls < (launchRec a.rec1).cls then some (q, a) else best
        | none => some (q, a))
    | (s, none) => (s, best)) (s, none)

/-- LAUNCH_DISPATCH (R46, R51): the record leaves the ring; its strands start, or its task is left to retire with a status. -/
def execLaunchDispatch (s : State) : Out1 :=
  done (match s.launchPick with
    | (s, none) => s
    | (s, some (q, a)) =>
      let l := s.lqAt q
      let r := launchRec a.rec1
      let s := { s.modLq q ({ · with head := (l.head + 1) % 2 ^ l.size, read := none }) with lqLast := q }
      let (s, id) := s.newTask { origin := .queue q, tenant := l.tenant, user := r.user, gang := a.gang, sup := r.cls == 3, status := a.status.getD 0 }
      s.startGang id a.gang
        { pc := r.entry, s1 := r.arg, s4 := 3, t := a.t, cls := r.cls, spmBase := r.spmBase * 4096
          spmLen := r.spmLen * 4096, accBase := r.accB, accN := r.accN })

/-! ### Retirement (R68, R69) -/

/-- A vector of the functions that enable it: the PF, and the VF bound to a tenant (R443). -/
def State.hirqSignal (s : State) (tenant vec : Nat) : State :=
  (s.fns.filter fun (n, f) => f.hirq.getLsbD vec && !f.flr && (n == 0 || (f.vfmap.getLsbD 63 && f.vfmap.toNat % 256 == tenant))).foldl
    (fun s p => s.vector p.1 vec) s

/-- The completion record (R68). -/
def Task.record (t : Task) (id : Nat) : List Byte :=
  leBytes 32 (t.user.toNat + id * 2 ^ 64 + t.status * 2 ^ 96 + t.cause * 2 ^ 104 + t.gang.length * 2 ^ 112 + t.pc.toNat * 2 ^ 128
    + t.info.toNat * 2 ^ 192)

/-- A draining queue without tasks is disabled (R53). -/
def State.drainQueue (s : State) (q : Nat) : State :=
  let l := s.lqAt q
  if l.state = 2 && s.liveOf q == 0 then
    { s.modLq q ({ · with state := 0, cancel := false, destroy := false, read := none, pins := [] }) with devAcc := smDel s.devAcc (headKey q) }
  else s

/-- Tasks of a stage that have not retired. -/
def State.stageTasks (s : State) (d sel : Nat) : List Nat := (s.tasks.filter fun p => p.2.origin == .stage d sel).map (·.1)

/-- A stage is removed from its scheduler, with its stash entries (R368). -/
def State.removeStage (s : State) (d sel : Nat) (g : Stage) : State :=
  let s := { s.modDie d fun x => { x with stages := smDel x.stages sel } with devAcc := smDel s.devAcc (tableKey d sel) }
  (List.range Config.dies).foldl (fun s k =>
    if (s.dieAt k).stash.any fun p => p.2.stage == g.id && p.2.tenant == g.tenant then
      s.modDie k fun x => { x with stash := x.stash.filter fun p => !(p.2.stage == g.id && p.2.tenant == g.tenant) }
    else s) s

/-- A draining stage without tasks is removed (R53). -/
def State.drainStage (s : State) (d sel : Nat) : State :=
  match smFind (s.dieAt d).stages sel with
  | some g => if g.state = 2 && (s.stageTasks d sel).isEmpty then s.removeStage d sel g else s
  | none => s

/-- A task can retire (R68): its strands have gone, its stores are performed and acknowledged, and its USER word has room. -/
def State.canRetire (s : State) (id : Nat) (t : Task) : Bool :=
  t.state == .running && (s.strandsOf id).isEmpty && !(s.posted.any fun p => p.task == id)
  && !(s.stores.any fun x => t.gang.contains x.core && s.held.contains (x.pa / 128))
  && match t.origin with
    | .queue q => let nc := (s.lqAt q).ncore; !(decide (nc < Config.cores) && s.tenantOf nc == (s.lqAt q).tenant && s.fifoFull nc 0x14)
    | _ => true

/-- A launched task's record and, once it is performed, its consequences (R68). -/
def State.retireQueue (s : State) (q id : Nat) (t : Task) : State :=
  let l := s.lqAt q
  let put := match s.tenantCore l.tenant with
    | some core => s.devPut (cplKey q) id (some q) core (l.cbase.toNat + 32 * l.chead) (t.record id)
    | none => (s, true)
  match put with
  | (s, false) => s
  | (s, true) =>
    let s := s.modLq q ({ · with chead := (l.chead + 1) % 2 ^ l.size })
    let s := if l.ncore < Config.cores && s.tenantOf l.ncore == l.tenant then s.pushFifo l.ncore 0x14 t.user else s
    ({ s with tasks := smDel s.tasks id } : State).hirqSignal l.tenant q |>.drainQueue q

/-- A stage task's record, and its kind's end (R369, R372). -/
def State.retireStage (s : State) (d sel id : Nat) (t : Task) : State :=
  match smFind (s.dieAt d).stages sel with
  | none => { s with tasks := smDel s.tasks id }
  | some g =>
    let n := g.retired % 2 ^ (g.word 0x68 % 32)
    match s.devPut (stageKey d sel) id none (d * Config.coresPerDie) (g.word 0x60 + 32 * n) ({ t with user := 0 }.record id) with
    | (s, false) => s
    | (s, true) =>
      let g := { g with retired := g.retired + 1 }
      let g := match g.tag t.tag.toNat with
        | some y =>
          if y.birth ≠ t.birth then g
          else
            let g := { g with tags := smPut g.tags t.tag.toNat { y with running := y.running.erase t.kind } }
            if t.status = 0 && !y.finished.contains t.kind then g.finishKind t.tag.toNat t.kind else g
        | none => g
      (({ s with tasks := smDel s.tasks id } : State).setStage d sel g).drainStage d sel

/-- TASK_RETIRE (R68) of task `n`. -/
def execTaskRetire (s : State) : Out1 :=
  let id := s.ev.n
  done (match smFind s.tasks id with
    | none => s
    | some t =>
      if !s.canRetire id t then s
      else
        let s1 := (s.performWhere fun x => t.gang.contains x.core).completeWhere fun x => x.core.any t.gang.contains
        match t.origin with
        | .queue q => s1.retireQueue q id t
        | .stage d sel => s1.retireStage d sel id t
        | .system _ => { s1 with tasks := smDel s1.tasks id })

end Sys2Proof.Machine
end

