-- ==== Sys2Proof/Machine/Registers.lean ====
section
/-!
DEFINITION. Writes of device registers: launch queues (R40 to R42, R53, R66), the registers without a row of their own (R8, R9), the
owner table (R512), core control (R510), and the reads that clear (R442, R452, R461, R502, R511).
-/
namespace Sys2Proof.Machine

/-- The function whose access the event is. -/
def State.evFn (s : State) : Option Nat :=
  match s.ev.agent with
  | .host f => some f
  | _ => none

/-- An ignored write is counted where the host made it (R42). -/
def State.ignored (s : State) : State :=
  match s.evFn with
  | some f => s.countRefused f
  | none => s

/-- The release at package scope that a strand's store to LQ_TAIL makes (R40): false while a snoop holds a store of it. -/
def State.agentRelease (s : State) : State × Bool :=
  match s.ev.agent with
  | .strand n =>
    let s := (s.performWhere fun x => x.strand == n).completeWhere fun x => x.strand == n
    (s, !(s.stores.any fun x => x.strand == n))
  | _ => (s, true)

/-! ### Launch queues -/

/-- LQ_TAIL (R40, R42): queue `k`, value `v`. -/
def execLqTail (s : State) : Out1 :=
  let q := s.ev.k
  let v := s.ev.v.toNat
  done (match s.agentRelease with
    | (s, false) => s.postpone .lqTail
    | (s, true) => if v < 2 ^ (s.lqAt q).size then s.modLq q ({ · with tail := v }) else s.ignored)

/-- LQ_CTAIL (R42). -/
def execLqCtail (s : State) : Out1 :=
  let q := s.ev.k
  let v := s.ev.v.toNat
  let l := s.lqAt q
  let n := 2 ^ l.size
  done (if v < n && decide ((v + n - l.ctail) % n ≤ (l.chead + n - l.ctail) % n) then s.modLq q ({ · with ctail := v }) else s.ignored)

/-- ENABLE (R53). -/
def execLqCtlEnable (s : State) : Out1 :=
  let q := s.ev.k
  done (if (s.lqAt q).state = 0 then s.modLq q ({ · with state := 1, head := 0, tail := 0, chead := 0, ctail := 0 }) else s.ignored)

/-- DESTROY (R53, R66); `status` is 1 where the same write holds CANCEL, which then ends the queue. -/
def execLqCtlDestroy (s : State) : Out1 :=
  let q := s.ev.k
  done (match (s.lqAt q).state with
    | 0 => s.ignored
    | 1 =>
      let s1 := s.modLq q ({ · with state := 2, destroy := true })
      if s.ev.status = 1 then s1 else s1.drainQueue q
    | _ => s.ignored)

/-- The running tasks of a queue are cancelled (R65, R66); a pre-empted one is left to the supervisor (R51). -/
def State.cancelQueue (s : State) (q : Nat) : State :=
  ((s.tasks.filter fun p => p.2.origin == .queue q && p.2.state == .running).foldl (fun s p => s.cancelTask p.1)
    (s.modLq q ({ · with cancel := true }))).drainQueue q

/-- CANCEL (R42, R66): it has its effect while the queue is DRAINING. -/
def execLqCtlCancel (s : State) : Out1 := done (if (s.lqAt s.ev.k).state = 2 then s.cancelQueue s.ev.k else s.ignored)

/-- A write of LQ_CTL asks for something that R42 and R53 ignore. -/
def ctlIgnored (state : Nat) (v : Word) : Bool :=
  match state with
  | 0 => v.getLsbD 2 || v.getLsbD 3
  | 1 => v.getLsbD 1 || (v.getLsbD 3 && !v.getLsbD 2)
  | _ => v.getLsbD 1 || (v.getLsbD 2 && !v.getLsbD 3)

/-- A write of a launch queue's register other than the indices (R40 to R42). -/
def State.writeLq (s : State) (q o : Nat) (v : Word) : State :=
  let l := s.lqAt q
  if o = 0x38 then
    let s := s.modLq q ({ · with ncore := bitsOf v.toNat 41 32 })
    if ctlIgnored l.state v then s.ignored else s
  else if l.state ≠ 0 then s.ignored
  else if o = 0 && v.toNat % 4096 == 0 then s.modLq q ({ · with base := v })
  else if o = 0x20 && v.toNat % 4096 == 0 then s.modLq q ({ · with cbase := v })
  else if o = 8 && decide (4 ≤ v.toNat) && decide (v.toNat ≤ 16) then s.modLq q ({ · with size := v.toNat })
  else if o = 0x40 && s.ev.tenant == 0 then s.modLq q ({ · with tenant := v.toNat % 256 })
  else s.ignored

/-! ### Registers without a row of their own (R8, R9) -/

/-- Bits [hi:lo] of a register take those of the value written. -/
def putField (old v : Word) (hi lo : Nat) : Word :=
  let m : Word := BitVec.ofNat 64 ((2 ^ (hi + 1 - lo) - 1) * 2 ^ lo)
  (old &&& ~~~m) ||| (v &&& m)

/-- A write of a fabric block's register (R496, R497, R500, R502, R511). -/
def State.writeFab (s : State) (d o : Nat) (v : Word) : State :=
  if o = 0 then s.modDie d fun x => { x with throttle := putField x.throttle v 39 8 }
  else if 0x200 ≤ o && decide (o < 0x400) then
    let k := o % 0x40 / 8
    if k < 4 then s.modPort ((o - 0x200) / 0x40 * 8 + d) fun p => { p with kdata := smSet 0 p.kdata k v } else s
  else if 0x800 ≤ o && decide (o < 0x1000) then s.modDie d fun x => { x with token := smSet 0 x.token ((o - 0x800) / 8) v }
  else if 0x2000 ≤ o then
    let e := (o - 0x2000) / 2
    s.modDie d fun x => { x with share := (List.range 4).foldl (fun m i =>
      if (e + i) % 16 < 10 then smSet 0xFFFF m (e + i) (bitsOf v.toNat (16 * i + 15) (16 * i)) else m) x.share }
  else s

/-- A write of a device register without a row of its own. -/
def State.writeReg (s : State) (r : DevReg) (v : Word) : State :=
  match r with
  | .lq q o => s.writeLq q o v
  | .scrub => { s with scrubPeriod := v.toNat % 65536 }
  | .hand d o =>
    if o = 0 then s.modDie d ({ · with dtptb := v }) else if o = 8 then s.modDie d ({ · with dtent := v }) else s
  | .tc d o =>
    if o = 8 then s.modDie d ({ · with tcArea := v &&& ~~~0xFFF })
    else if o = 0x50 then s.modDie d ({ · with rasTail := v.toNat % 256 })
    else if o = 0x68 then s.modDie d ({ · with corrLog := v.getLsbD 0, rasIe := v.getLsbD 1 })
    else s
  | .mon d o =>
    if o = 0xA0 then s.modDie d ({ · with thot := v.toNat % 256, thyst := bitsOf v.toNat 23 16 })
    else if 0xA8 ≤ o then s.modDie d fun x =>
      let k := (o - 0xA8) / 8
      { x with vrail := smPut x.vrail k (putField (x.vrailAt k) v 15 0) }
    else s
  | .fab d o => s.writeFab d o v
  | _ => s

/-- Offsets of the host port registers and of the mailbox page, as REGISTER_WRITE names them: beyond every device register. -/
def hostRegBase : Nat := 0x40000000
def mailBase : Nat := 0x40001000

/-- A write of a host port register (R436 to R439, R441, R443, R448) by function `fn`. -/
def State.writeHostReg (s : State) (fn o : Nat) (v : Word) : State :=
  if o = 0x20 then s.modFn fn ({ · with hirq := v &&& 0x7FF })
  else if o = 0x28 then s.modFn fn fun f => { f with bar2 := putField 0 v 55 30 }
  else if fn ≠ 0 then s
  else if o = 0x10 then { s with boot := { s.boot with fwLen := v &&& 0x1FFFFFF } }
  else if o = 0x30 then
    let w := putField (putField 0 v 42 32) v 13 0
    { s with cxlm := if s.hdm then putField w s.cxlm 63 63 else putField w v 63 63 }
  else if 0x108 ≤ o && decide (o ≤ 0x100 + 8 * 63) && o % 8 == 0 then
    let n := (o - 0x100) / 8
    if (s.fnAt n).enabled || (v.getLsbD 63 && v.toNat % 256 == 0) then s
    else s.modFn n ({ · with vfmap := v &&& 0x80000000000000FF })
  else s

/-- A write of a mailbox page (R517). -/
def State.writeMail (s : State) (fn o : Nat) (v : Word) : State :=
  if 0x100 ≤ o && decide (o ≤ 0x1F8) && o % 8 == 0 then s.modFn fn fun f => { f with mbArg := smSet 0 f.mbArg ((o - 0x100) / 8) v } else s

/-- REGISTER_WRITE (R8): offset `n`, value `v`. -/
def execRegisterWrite (s : State) : Out1 :=
  let fn := s.evFn.getD 0
  done (if mailBase ≤ s.ev.n then s.writeMail fn (s.ev.n - mailBase) s.ev.v
    else if hostRegBase ≤ s.ev.n then s.writeHostReg fn (s.ev.n - hostRegBase) s.ev.v
    else match devReg s.ev.n with
      | some r => s.writeReg r s.ev.v
      | none => s)

/-- A byte of the owner table is written (R512). Bytes that hold no granule, and another tenant for the granule of the fault records,
are ignored. -/
def State.putOwner (s : State) (g : Nat) (b : Byte) : State :=
  if !ownerByte g || (g == 0x400000 + 2 ^ 19 - 1 && b != 0) then s
  else { s with owner := smSet 0 s.owner g b, ownerOld := s.ownerOld ++ [{ granule := g, byte := smGet 0 s.owner g, writer := s.ev.agent }] }

/-- The home slices come to hold the write that replaced the old byte numbered `i`, and the earlier ones of its granule. -/
def State.copyOwner (s : State) (i : Nat) : State :=
  { s with ownerOld := (s.ownerOld.zipIdx.filter fun (o, k) => !(decide (k ≤ i) && (s.ownerOld[i]?).any (·.granule == o.granule))).map (·.1) }

/-- OWNER_TABLE_WRITE (R512): eight bytes at table offset `k`. With status 1 the home slices copy the write of old byte `k`. -/
def execOwnerTableWrite (s : State) : Out1 :=
  done (if s.ev.status = 1 then s.copyOwner s.ev.k
    else (List.range 8).foldl (fun s i => s.putOwner (s.ev.k + i) (BitVec.ofNat 8 (bitsOf s.ev.v.toNat (8 * i + 7) (8 * i)))) s)

/-- CORECTL (R510): the halted strands that bits [3:0] name resume at the bundle after their HALT. -/
def execCorectlResume (s : State) : Out1 :=
  done ((List.range Config.slots).foldl (fun s k =>
    let n := s.ev.k * Config.slots + k
    if s.ev.v.getLsbD k && (s.strandAt n).halted then s.modStrand n ({ · with halted := false }) else s) s)

/-! ### Reads that clear (R8) -/

/-- What a host's read returns. -/
def State.answer (s : State) (v : Word) : State :=
  match s.evFn with
  | some f => { s with out := s.out ++ [.hostData f (leBytes 8 v.toNat)] }
  | none => s

/-- A read of a device register by the host. -/
def State.readReg (s : State) (r : DevReg) : State := let (s, v) := s.devRead r; s.answer v

/-- HOST_ERR of a function (R442). -/
def execHostErr (s : State) : Out1 :=
  let fn := s.evFn.getD 0
  let f := s.fnAt fn
  let v := BitVec.ofNat 64 (f.refused * 2 ^ 48 + f.xlate * 2 ^ 32 + f.dropped * 2 ^ 16 + f.apert * 2 ^ 8 + f.poisoned)
  done ((s.modFn fn ({ · with refused := 0, xlate := 0, dropped := 0, apert := 0, poisoned := 0 })).answer v)

/-- RAS_LOST of die `n` (R461). -/
def execRasLost (s : State) : Out1 := done (s.readReg (.tc s.ev.n 0x58))
/-- RAS_CORR of die `n` (R461). -/
def execRasCorr (s : State) : Out1 := done (s.readReg (.tc s.ev.n 0x60))
/-- FABCNT of die `n` (R511). -/
def execFabcnt (s : State) : Out1 := done (s.readReg (.fab s.ev.n 8))
/-- LKSTS of port `k`, direction times 8 plus die (R502). -/
def execLksts (s : State) : Out1 := done (s.readReg (.fab (s.ev.k % 8) (0x200 + s.ev.k / 8 * 0x40 + 0x30)))

/-- BOOT_STATUS (R452). -/
def Boot.status (b : Boot) : Word :=
  BitVec.ofNat 64 (b.detail * 2 ^ 32 + b.code * 2 ^ 24 + b.stage * 2 ^ 20 + b.kind * 2 ^ 18 + b.fails * 2 ^ 16 + b.req * 2 ^ 8
    + b.skip * 2 ^ 4 + (if b.degr then 8 else 0) + b.state)

/-- A read of BOOT_STATUS clears REQ (R452); on a VF's page the register is read-only, and its read clears nothing (R437, log 50). -/
def execBootStatus (s : State) : Out1 :=
  done ((if s.evFn.getD 0 = 0 then { s with boot := { s.boot with req := 0 } } else s).answer s.boot.status)

end Sys2Proof.Machine
end

