-- ==== Sys2Proof/Machine/Stash.lean ====
section
/-!
DEFINITION. MOP 0x58 to 0x5C: the stash engine (R344 to R352, R358, R359) and the split-stream block coder (R353 to R357).
-/
namespace Sys2Proof.Machine

/-! ### The coder (R353 to R357) -/

/-- Leading zero bytes. -/
def zeroRun : List Byte → Nat
  | [] => 0
  | b :: r => if b = 0 then zeroRun r + 1 else 0

/-- Literal bytes that follow the first one: until two zeros begin, at most `k` (R355). -/
def litRun : Nat → List Byte → Nat
  | 0, _ => 0
  | _, [] => 0
  | k + 1, b :: r => if b = 0 && r.head? == some 0 then 0 else litRun k r + 1

/-- ZRL coding (R355). -/
def zrlCode : Nat → List Byte → List Byte
  | 0, _ => []
  | _, [] => []
  | f + 1, x =>
    let z := zeroRun x
    if 2 ≤ z then
      let n := min z 128
      BitVec.ofNat 8 (0x7F + n) :: zrlCode f (x.drop n)
    else
      let n := 1 + litRun 127 (x.drop 1)
      BitVec.ofNat 8 (n - 1) :: x.take n ++ zrlCode f (x.drop n)

/-- ZRL decoding; none where the tokens end inside a literal run. -/
def zrlDecode : Nat → List Byte → Option (List Byte)
  | 0, _ => none
  | _, [] => some []
  | f + 1, t :: r =>
    let k := t.toNat
    if k < 128 then
      if r.length ≤ k then none else (zrlDecode f (r.drop (k + 1))).map fun l => r.take (k + 1) ++ l
    else (zrlDecode f r).map fun l => List.replicate (k - 0x7F) 0 ++ l

/-- Values packed from the least significant bit, `w` bits each. -/
def packBits (w : Nat) : List Nat → Nat
  | [] => 0
  | v :: r => v + 2 ^ w * packBits w r

/-- EXPB coding (R355). -/
def expbCode (x : List Byte) : List Byte :=
  let b := x.foldl (fun m v => min m v.toNat) 255
  let d := x.foldl (fun m v => max m v.toNat) 0 - b
  let w := if d = 0 then 0 else Nat.log2 d + 1
  BitVec.ofNat 8 b :: BitVec.ofNat 8 w :: leBytes ((x.length * w + 7) / 8) (packBits w (x.map fun v => v.toNat - b))

/-- EXPB decoding to `u` bytes (R357). -/
def expbDecode (u : Nat) : List Byte → Option (List Byte)
  | b :: w :: r =>
    let w := w.toNat
    let v := leNat r
    let xs := (List.range u).map fun i => b.toNat + v / 2 ^ (i * w) % 2 ^ w
    if 8 < w || r.length != (u * w + 7) / 8 || v / 2 ^ (u * w) != 0 || xs.any fun x => decide (255 < x) then none
    else some (xs.map (BitVec.ofNat 8))
  | _ => none

/-- Sub-stream `k` of `n` (R355). -/
def subStream (n k : Nat) (x : List Byte) : List Byte := x.zipIdx.filterMap fun (b, i) => if i % n = k then some b else none

/-- The method and coded bytes of a sub-stream (R356): 0 RAW, 1 ZRL, 2 EXPB. -/
def subCode (comp : Bool) (x : List Byte) : Nat × List Byte :=
  if !comp || x.isEmpty then (0, x)
  else
    let z := zrlCode (x.length + 1) x
    let e := expbCode x
    if x.length ≤ z.length && x.length ≤ e.length then (0, x) else if z.length ≤ e.length then (1, z) else (2, e)

/-- A coded chunk (R353, R354). -/
def codeChunk (comp : Bool) (n : Nat) (x : List Byte) : List Byte :=
  let subs := (List.range n).map fun k => subCode comp (subStream n k x)
  let words := packBits 16 (subs.map fun (m, l) => m * 2 ^ 13 + l.length)
  leBytes 32 (words + x.length * 2 ^ 128 + (n - 1) * 2 ^ 144 + crcOf x * 2 ^ 152) ++ subs.flatMap (·.2)

/-- The sub-streams of a body, by the header's words (R357). -/
def decodeSubs (ulen n words : Nat) : List Nat → List Byte → Option (List (List Byte))
  | [], _ => some []
  | k :: ks, body =>
    let w := words / 2 ^ (16 * k) % 2 ^ 16
    let len := w % 2 ^ 13
    let u := if k < ulen then (ulen - k + n - 1) / n else 0
    let x := body.take len
    let out := match w / 2 ^ 13 with
      | 0 => some x
      | 1 => zrlDecode (len + 1) x
      | 2 => expbDecode u x
      | _ => none
    match out with
    | some l => if l.length = u && x.length == len then (decodeSubs ulen n words ks (body.drop len)).map (l :: ·) else none
    | none => none

/-- The bytes of a chunk (R357); none where the check fails. `n` and `ulen` are the entry's. -/
def decodeChunk (n ulen : Nat) (c : List Byte) : Option (List Byte) :=
  let h := leNat (c.take 32)
  let words := h % 2 ^ 128
  if bitsOf h 255 184 != 0 || bitsOf h 151 147 != 0 || bitsOf h 143 141 != 0 || words / 2 ^ (16 * n) != 0
      || bitsOf h 146 144 + 1 != n || bitsOf h 140 128 != ulen then none
  else match decodeSubs ulen n words (List.range n) (c.drop 32) with
    | none => none
    | some subs =>
      let x := (List.range ulen).map fun i => ((subs[i % n]?).getD [])[i / n]?.getD 0
      if crcOf x = bitsOf h 183 152 then some x else none

/-- A list cut into pieces of `n`. -/
def chunksOf (n : Nat) (x : List Byte) : List (List Byte) := (List.range ((x.length + n - 1) / n)).map fun i => (x.drop (i * n)).take n

/-! ### Areas and entries (R344, R345) -/

/-- First byte and granules of die `d`'s part of an area: HBM, or LPDDR-6. -/
def Stage.part (g : Stage) (d : Nat) (hbm : Bool) : Nat × Nat :=
  let size := (if hbm then g.word 0x50 % 2 ^ 32 else g.word 0x50 / 2 ^ 32) / 8 * 4096
  (g.word (if hbm then 0x48 else 0x58) + d * size, size / 256)

/-- Granules in use in a part. -/
def State.partUsed (s : State) (d : Nat) (g : Stage) (hbm : Bool) : List Nat :=
  (s.dieAt d).stash.flatMap fun (_, x) =>
    if x.stage = g.id && x.tenant == g.tenant && x.tier == (if hbm then 1 else 2) then x.chunks.flatMap id else []

/-- HBM occupancy (R345). -/
def State.occupancy (s : State) (d : Nat) (g : Stage) : Nat :=
  let n := (g.part d true).2
  if n = 0 then 255 else min 255 (256 * (s.partUsed d g true).length / n)

/-- `k` free granules of a part, lowest first (R353). -/
def freeGranules (used : List Nat) (total k : Nat) : Option (List Nat) :=
  let l := ((List.range (min total (used.length + k))).filter fun i => !used.contains i).take k
  if l.length = k then some l else none

def State.stashFind (s : State) (d : Nat) (g : Stage) (tag id : Nat) : Option (Nat × StashEntry) :=
  (s.dieAt d).stash.find? fun p => p.2.stage == g.id && p.2.tenant == g.tenant && p.2.tag == tag && p.2.id == id

def State.modStash (s : State) (d no : Nat) (f : StashEntry → StashEntry) : State :=
  s.modDie d fun x => { x with stash := match smFind x.stash no with
    | some y => smPut x.stash no (f y)
    | none => x.stash }

/-- The oldest drop-eligible entry of the stage on the die (R349). -/
def State.eligible (s : State) (d : Nat) (g : Stage) : Option Nat :=
  (((s.dieAt d).stash.filter fun p => p.2.stage == g.id && p.2.tenant == g.tenant && p.2.elig && p.2.state == 1).foldl
    (fun m p => match m with
      | some q => if p.2.order < q.2.order then some p else some q
      | none => some p) (none : Option (Nat × StashEntry))).map (·.1)

/-- Room for `k` granules in the HBM part, after discards (R349). -/
def State.makeRoom (s : State) (d : Nat) (g : Stage) (k : Nat) : Nat → State × Option (List Nat)
  | 0 => (s, freeGranules (s.partUsed d g true) (g.part d true).2 k)
  | fuel + 1 =>
    match freeGranules (s.partUsed d g true) (g.part d true).2 k with
    | some l => (s, some l)
    | none =>
      match s.eligible d g with
      | some no => (s.modStash d no fun x => { x with state := 3, tier := 0, elig := false, chunks := [] }).makeRoom d g k fuel
      | none => (s, none)

/-- A list of numbers cut into groups of the sizes given. -/
def splitBy : List Nat → List Nat → List (List Nat)
  | [], _ => []
  | k :: r, l => l.take k :: splitBy r (l.drop k)

/-! ### A command's turns -/

/-- What a stash command works on. -/
structure StashJob where
  e : Entry
  f : MFields
  g : Stage

def StashJob.d (j : StashJob) : Nat := dieOf j.e.core
def StashJob.tag (j : StashJob) : Nat := (smGet 0 j.e.o 1).toNat % 2 ^ 32
def StashJob.id (j : StashJob) : Nat := j.f.imm.toNat % 65536
/-- 0 STSH, 1 STFT, 2 STPF, 3 STDR, 4 STQY (R358). -/
def StashJob.kind (j : StashJob) : Nat := match mCode j.e.instr with
  | some (op, _) => op - 0x58
  | none => 0

/-- The bytes of a view's image (R347). -/
def View.imageLen (v : View) : Nat := (v.vr * v.vc * fmtBits v.fmt + 7) / 8

/-- The result element (R358). -/
def stashElem (kind status : Nat) (x : Option StashEntry) : Word :=
  BitVec.ofNat 64 (kind * 2 ^ 60 + status * 2 ^ 56 + match x with
    | some x => x.state * 2 ^ 53 + x.tier * 2 ^ 51
        + min 65535 (x.chunks.foldl (fun n l => n + l.length) 0) * 2 ^ 32 + x.len
    | none => 0)

/-- The change that completes a command: `keep` is status, change (0 none, 1 a new entry, 2 its key is freed, 3 its tag is
freed, 4 it moves to HBM), state, length, sub-streams, eligibility. -/
def State.stashCommit (s : State) (j : StashJob) : State :=
  let d := j.d
  let x := s.dieAt d
  match j.e.keep with
  | [_, 1, state, len, ns, elig] =>
    let no := ((List.range 4096).find? fun i => (smFind x.stash i).isNone).getD 0
    let y : StashEntry := { stage := j.g.id, tenant := j.g.tenant, tag := j.tag, id := j.id, state, tier := if state = 3 then 0 else state, elig := elig == 1, len, ns,
                            order := s.nextId, chunks := j.e.parts.map (·.2) }
    { (s.setDie d { x with stash := smPut x.stash no y }) with nextId := s.nextId + 1 }
  | _ :: 2 :: _ =>
    match s.stashFind d j.g j.tag j.id with
    | some (no, _) => s.setDie d { x with stash := smDel x.stash no }
    | none => s
  | _ :: 3 :: _ =>
    s.setDie d { x with stash := x.stash.filter fun p => !(p.2.stage == j.g.id && p.2.tenant == j.g.tenant && p.2.tag == j.tag) }
  | _ :: 4 :: _ =>
    match s.stashFind d j.g j.tag j.id with
    | some (no, y) => s.setDie d { x with stash := smPut x.stash no { y with state := 1, tier := 1, chunks := j.e.parts.map (·.2) } }
    | none => s
  | _ => s

/-- The command completes (R342, R359): space for its element, its change, its element. -/
def State.stashFinish (s : State) (j : StashJob) : State :=
  let push := j.kind = 4 || j.f.mode.getLsbD 24
  if push && s.fifoFull j.e.core 0x11 then s.putEntry { j.e with phase := 5, plan := [] }
  else
    let status := (j.e.keep[0]?).getD 0
    let s := s.stashCommit j
    let v := j.e.view 2
    let cover := if j.kind = 1 && status = 0 then coverOf j.e.core v v.all false else []
    let s := if push then s.pushFifo j.e.core 0x11 (stashElem j.kind status ((s.stashFind j.d j.g j.tag j.id).map (·.2))) cover else s
    s.endEntry j.e

def State.stashEnd (s : State) (j : StashJob) (status change : Nat) : State := s.stashFinish { j with e := { j.e with keep := [status, change] } }

/-- The writes that are left; when they are parity-complete (R348), the completion. The stash areas are reached in supervisor context (R533). -/
def State.stashDrain (s : State) (j : StashJob) : State :=
  match s.writeAll { j.e with sup := j.e.sup || j.kind != 1 } j.e.plan with
  | (s, rest, some .wait) => s.putEntry { j.e with phase := 4, plan := rest }
  | (s, _, some x) => s.entryStop j.e x
  | (s, _, none) =>
    let e := { j.e with phase := 4, plan := [] }
    if s.posted.any fun p => p.strand == e.strand.getD 2047 && p.seq == e.seq && p.core == e.core then s.putEntry e
    else (s.completeWhere fun p => p.strand == e.strand).stashFinish { j with e }

/-- The writes of coded chunks to their granules. -/
def granuleWrites (base : Nat) (cs : List (List Nat × List Byte)) : List (Nat × List (Byte × Byte)) :=
  cs.flatMap fun (gs, c) => (gs.zip (chunksOf 256 c)).flatMap fun (n, b) =>
    (chunksOf 128 b).zipIdx.map fun (l, i) => (base + n * 256 + i * 128, l.map fun y => (y, 0xFF))

/-- Read `n` bytes from an 8-byte aligned address at their homes. -/
def Rd.block (r : Rd) (e : Entry) (va n : Nat) : Rd × List Byte :=
  (List.range (n / 8)).foldl (fun (r, l) i => let (r, b) := r.unit e (va + 8 * i) 8 2; (r, l ++ b)) (r, [])

/-- Read an entry's stored chunks, each with the address of its first granule. -/
def Rd.chunks (r : Rd) (j : StashJob) (x : StashEntry) : Rd × List (Nat × List Byte) :=
  let base := (j.g.part j.d (x.tier == 1)).1
  x.chunks.foldl (fun (r, l) gs =>
    let (r, c) := gs.foldl (fun (r, c) n => let (r, b) := r.block { j.e with sup := true } (base + n * 256) 256; (r, c ++ b))
      (r, ([] : List Byte))
    (r, l ++ [(base + gs.headD 0 * 256, c)])) (r, ([] : List (Nat × List Byte)))

/-- Why a read of stored data loses the entry: reason and address (R352). -/
def lostBy : Stop → Option (Nat × Nat)
  | .trap t va => if t.1 = causePoison then some (0, va / 256 * 256) else none
  | .consumed _ va => some (1, va / 256 * 256)
  | .wait => none

/-- STASH_LOST of an entry (R352). -/
def State.stashLost (s : State) (j : StashJob) (no : Nat) (x : StashEntry) : State :=
  s.entryFault j.e causeStashLost (no + x.why * 4096) (BitVec.ofNat 64 x.lostAt)

/-- STSH (R348): checks, then read, code and place the data. -/
def State.stsh (s : State) (j : StashJob) : State :=
  let v := j.e.view 1
  let d := j.d
  let l := v.imageLen
  if l = 0 || 1048576 < l then s.stashEnd j 5 0
  else if (s.stashFind d j.g j.tag j.id).isSome then s.stashEnd j 2 0
  else if 4096 ≤ (s.dieAt d).stash.length then s.stashEnd j 1 0
  else
    let (r, cs) := v.all.foldl (fun (r, cs) rc => let (r, c) := Rd.code r j.e v rc 2; (r, c :: cs)) (({ s } : Rd), ([] : List Nat))
    r.done j.e fun s =>
      let comp := j.f.mode.getLsbD 2
      let ns := if comp then j.f.mode.toNat / 8 % 8 + 1 else 1
      let chunks := (chunksOf 4096 (leBytes l (packBits (fmtBits v.fmt) cs.reverse))).map (codeChunk comp ns)
      let sizes := chunks.map fun c => (c.length + 255) / 256
      let g := sizes.foldl (· + ·) 0
      let store (s : State) (hbm elig : Bool) (gs : List Nat) : State :=
        let parts := splitBy sizes gs
        let e := { j.e with phase := 4, got := [], plan := granuleWrites (j.g.part d hbm).1 (parts.zip chunks),
                            parts := parts.zipIdx.map fun (p, i) => (i, p),
                            keep := [0, 1, if hbm then 1 else 2, l, ns, if elig then 1 else 0] }
        s.stashDrain { j with e }
      let spill (s : State) : State :=
        match freeGranules (s.partUsed d j.g false) (j.g.part d false).2 g with
        | some gs => store s false false gs
        | none => s.stashEnd j 1 0
      match j.f.mode.toNat % 4 with
      | 0 => match s.makeRoom d j.g g 4096 with
        | (s, some gs) => store s true false gs
        | (s, none) => spill s
      | 1 => spill s
      | _ => match freeGranules (s.partUsed d j.g true) (j.g.part d true).2 g with
        | some gs => store s true true gs
        | none => s.stashFinish { j with e := { j.e with parts := [], keep := [0, 1, 3, l, ns, 0] } }

/-- The writes of an image into the destination view (R350). -/
def imagePuts (v : View) (x : List Byte) : List Put :=
  let w := fmtBits v.fmt
  let n := leNat x
  v.all.zipIdx.map fun (rc, i) => (v.span rc, n / 2 ^ (i * w) % 2 ^ w)

/-- STFT (R350, R352). -/
def State.stft (s : State) (j : StashJob) : State :=
  let v := j.e.view 2
  let change := if j.f.mode.getLsbD 8 then 0 else 2
  match s.stashFind j.d j.g j.tag j.id with
  | none => s.stashEnd j 3 0
  | some (no, x) =>
    if x.state = 3 then s.stashEnd j 4 change
    else if x.state = 4 then s.stashLost j no x
    else if x.len ≠ v.imageLen then s.stashEnd j 5 0
    else
      let (r, cs) := ({ s } : Rd).chunks j x
      let lose (s : State) (why at1 : Nat) : State :=
        let y := { x with state := 4, why, lostAt := at1, elig := false }
        (s.modStash j.d no fun _ => y).stashLost j no y
      match r.stop.bind lostBy with
      | some (why, at1) => lose r.s why at1
      | none => r.done j.e fun s =>
          let outs := cs.zipIdx.map fun (c, i) => (c.1, decodeChunk x.ns (min 4096 (x.len - 4096 * i)) c.2)
          match outs.find? fun o => o.2.isNone with
          | some (a, _) => lose s 2 a
          | none =>
            let e := { j.e with phase := 4, got := [], keep := [0, change],
                                plan := writePlan (imagePuts v (outs.flatMap fun o => o.2.getD [])) }
            s.stashDrain { j with e }

/-- STPF (R351). -/
def State.stpf (s : State) (j : StashJob) : State :=
  match s.stashFind j.d j.g j.tag j.id with
  | none => s.stashEnd j 3 0
  | some (no, x) =>
    if x.state ≠ 2 then s.stashEnd j 0 0
    else
      let (r, cs) := ({ s } : Rd).chunks j x
      match r.stop.bind lostBy with
      | some (why, at1) => (r.s.modStash j.d no fun x => { x with state := 4, why, lostAt := at1 }).stashEnd j 0 0
      | none => r.done j.e fun s =>
          let sizes := x.chunks.map List.length
          match s.makeRoom j.d j.g (sizes.foldl (· + ·) 0) 4096 with
          | (s, none) => s.stashEnd j 1 0
          | (s, some gs) =>
            let parts := splitBy sizes gs
            let e := { j.e with phase := 4, got := [], keep := [0, 4], parts := parts.zipIdx.map fun (p, i) => (i, p),
                                plan := granuleWrites (j.g.part j.d true).1 (parts.zip (cs.map (·.2))) }
            s.stashDrain { j with e }

/-- STDR (R351). -/
def State.stdr (s : State) (j : StashJob) : State :=
  let all := j.f.mode.getLsbD 9
  let any := (s.dieAt j.d).stash.any fun p => p.2.stage == j.g.id && p.2.tenant == j.g.tenant && p.2.tag == j.tag && (all || p.2.id == j.id)
  s.stashEnd j (if any then 0 else 3) (if all then 3 else 2)

/-- The descriptor check of a stash command (R36, R346). -/
def State.stashTdesc (s : State) (j : StashJob) : Option Nat :=
  let check (pos reg : Nat) : Option Nat :=
    let v := j.e.view pos
    firstDesc [(reg, s.meTdesc j.e (j.e.desc pos) (decide (v.kind ≤ 1)) v.all false)]
  if j.kind = 0 then check 1 j.f.t1.toNat else if j.kind = 1 then check 2 j.f.t2.toNat else none

/-- A turn of a stash command (R343). -/
def State.stashRun (s : State) (f : MFields) (e : Entry) (go : State → StashJob → State) : State :=
  match e.strand.bind s.ownStage with
  | none => s.entryFault e causeAccess 0x40 e.addr
  | some (_, _, g) =>
    let j : StashJob := { e, f, g }
    match e.phase with
    | 0 => (match s.stashTdesc j with
      | some aux => s.entryFault e causeTdesc aux e.addr
      | none => go s j)
    | 4 => s.stashDrain j
    | 5 => s.stashFinish j
    | _ => go s j

/-- The units that a command of a die engine may write (R87): the die's parts of the stage's stash areas, its skip word, or a
destination. -/
def State.dieWrites (s : State) (i : Instr) (e : Entry) : List Span :=
  match i, e.strand.bind s.ownStage with
  | .stsh _, some (_, _, g) | .stpf _, some (_, _, g) =>
    [true, false].map fun hbm => let (a, n) := g.part (dieOf e.core) hbm; ((a : Int) * 8, n * 2048)
  | .opsk _, some (_, _, g) => if g.skipaddr = 0 then [] else [((g.skipaddr : Int) * 8, 64)]
  | _, _ => commandWrites i e

/-- A command of a die engine: its slot pushes an entry of 16 cycles (R342), and the engine's turn runs it. -/
def State.dieInstr (s : State) (i : Instr) (run : State → Entry → State) : Out1 :=
  done (match s.engine with
    | none => s.push i 16 (s.dieWrites i)
    | some e => if e.runs then run s e else s.endEntry e)

/-- STSH (R348). -/
def execStsh (f : MFields) (s : State) : Out1 := s.dieInstr (.stsh f) fun s e => s.stashRun f e State.stsh
/-- STFT (R350). -/
def execStft (f : MFields) (s : State) : Out1 := s.dieInstr (.stft f) fun s e => s.stashRun f e State.stft
/-- STPF (R351). -/
def execStpf (f : MFields) (s : State) : Out1 := s.dieInstr (.stpf f) fun s e => s.stashRun f e State.stpf
/-- STDR (R351). -/
def execStdr (f : MFields) (s : State) : Out1 := s.dieInstr (.stdr f) fun s e => s.stashRun f e State.stdr
/-- STQY (R351). -/
def execStqy (f : MFields) (s : State) : Out1 := s.dieInstr (.stqy f) fun s e => s.stashRun f e fun s j => s.stashEnd j 0 0

end Sys2Proof.Machine
end

