-- ==== Sys2Proof/Machine/Sched.lean ====
section
/-!
DEFINITION. Priority classes (R56, R226): the class a strand owns and what it inherits from strands that wait at a barrier.
-/
namespace Sys2Proof.Machine

/-- The strands that wait at a barrier, with the object (R56). -/
def State.waiters (s : State) : List (Nat × Nat) :=
  s.strands.filterMap fun (n, x) => if x.live && x.blocked == 3 then x.waitObj.map fun o => (n, o) else none

/-- Strand `n` is a registered participant of the object at `pa` and has not arrived in its current phase (R207). -/
def State.outstandingAt (s : State) (x : Strand) (pa : Nat) : Bool :=
  x.live && x.sync.any fun (_, sl) => sl.reg && sl.pa == pa && decide (sl.phase.toNat ≠ (s.barrier pa).phase)

/-- One round of inheritance: each strand's class against those of the strands that wait for it. -/
def inheritOnce (s : State) (ws : List (Nat × Nat)) (m : SMap Nat) : SMap Nat :=
  m.map fun (n, c) => (n, ws.foldl (fun c (w, o) =>
    if w != n && s.outstandingAt (s.strandAt n) o then max c (smGet 0 m w) else c) c)

/-- The effective classes of all strands (R56): inheritance is transitive. -/
def State.classes (s : State) : SMap Nat :=
  let own : SMap Nat := s.strands.map fun (n, x) => (n, x.now.cls.toNat)
  let ws := s.waiters
  ws.foldl (fun m _ => inheritOnce s ws m) own

def State.effClass (s : State) (n : Nat) : Nat :=
  if s.waiters.isEmpty then (s.strandAt n).now.cls.toNat else smGet 0 s.classes n

end Sys2Proof.Machine
end

