-- ==== Sys2Proof/Machine/SysRegs.lean ====
section
/-!
DEFINITION. System registers (R232 to R240): MFS and MTS; FLAG (R218, R219) and PRIO (R226).
-/
namespace Sys2Proof.Machine

/-- STRAND_ID of a flat strand number (R234). -/
def strandId (node n : Nat) : Word :=
  let core := coreOf n
  BitVec.ofNat 64 (node * 2 ^ 16 + dieOf core * 2 ^ 9 + core % 48 / 8 * 2 ^ 6 + core % 8 * 2 ^ 3 + n % 4)

/-- ENGQ (R232): occupancy of the seven queues, five bits each. -/
def Strand.engq (x : Strand) : Word :=
  BitVec.ofNat 64 ((List.range 7).foldl (fun a k => a + (smGet [] x.queues k).length * 2 ^ (5 * k)) 0)

/-- FAB_PRESSURE (R237). -/
def Die.pressure (d : Die) : Word := BitVec.ofNat 64 (d.pool * 2 ^ 16 + d.defl * 2 ^ 8 + d.allow)

/-- STATUS (R239). -/
def Regs.status (r : Regs) : Word :=
  (if r.trapped then 4 else 0) + (if r.psup then 2 else 0) + (if r.sup then 1 else 0)

/-- The value of a system register for the current strand (R232, R238). -/
def State.sysRead (s : State) (i : Nat) : Word :=
  let x := s.st
  let r := x.src
  let c := s.coreAt s.curCore
  if i = 0 then strandId s.node s.cur
  else if i = 1 then BitVec.ofNat 64 x.task
  else if i = 2 then BitVec.ofNat 64 x.gangSize
  else if i = 3 then BitVec.ofNat 64 x.gangRank
  else if i = 4 then (match x.stage with
    | some g => BitVec.ofNat 64 g
    | none => BitVec.allOnes 64)
  else if i = 5 then BitVec.ofNat 64 (s.tenantOf s.curCore)
  else if i = 0x10 then BitVec.ofNat 64 (s.effClass s.cur * 4 + r.cls.toNat)
  else if i = 0x20 then r.rmode.setWidth 64
  else if i = 0x21 then r.vflagsWord
  else if i = 0x22 then r.mflags.setWidth 64
  else if i = 0x23 then r.srSeed.setWidth 64
  else if i = 0x30 then r.trapCause
  else if i = 0x31 then r.trapPc
  else if i = 0x32 then r.trapInfo
  else if i = 0x33 then r.trapAux
  else if i = 0x40 then c.cycle
  else if i = 0x41 then x.bundles
  else if i = 0x50 then (s.dieAt s.curDie).pressure
  else if i = 0x51 then x.engq
  else if i = 0x60 then c.tvec
  else if i = 0x61 then r.status
  else if i = 0x62 then r.sscratch
  else if i = 0x63 then BitVec.ofNat 64 c.wdogLimit
  else if i = 0x64 then (s.dieAt s.curDie).ptbase
  else if 0x70 ≤ i && i < 0x80 then smGet 0 c.win (i - 0x70)
  else if 0x80 ≤ i && i < 0x90 then
    BitVec.ofNat 64 (smGet 0 c.outst (i - 0x80) * 2 ^ 16 + smGet 0 c.allow (i - 0x80))
  else 0

/-- Registers that MTS may not write in this context (R232, R233). -/
def sysReadOnly (sup : Bool) (i : Nat) : Bool :=
  decide (i ≤ 0x10) || i == 0x40 || i == 0x41 || i == 0x50 || i == 0x51 || (decide (0x30 ≤ i) && decide (i ≤ 0x33) && !sup)

/-- A write to a system register; unused bits are ignored (R232 to R240). -/
def State.sysWrite (s : State) (i : Nat) (v : Word) : State :=
  let now (f : Regs → Regs) : State := s.modSt (·.modNow f)
  let core (f : Core → Core) : State := s.modCore s.curCore f
  if i = 0x20 then now fun r => { r with rmode := v.setWidth 3 }
  else if i = 0x21 then now fun r =>
    { r with vflags := v.setWidth 5, lanes := if v.getLsbD 10 then [] else r.lanes }
  else if i = 0x22 then now fun r => { r with mflags := v.setWidth 5 }
  else if i = 0x23 then now fun r => { r with srSeed := v.setWidth 32 }
  else if i = 0x30 then now fun r => { r with trapCause := v &&& 0xFFFFFF }
  else if i = 0x31 then now fun r => { r with trapPc := v }
  else if i = 0x32 then now fun r => { r with trapInfo := v }
  else if i = 0x33 then now fun r => { r with trapAux := v }
  else if i = 0x60 then core fun c => { c with tvec := v &&& ~~~3 }
  else if i = 0x61 then now fun r => { r with trapped := v.getLsbD 2, psup := v.getLsbD 1 }
  else if i = 0x62 then now fun r => { r with sscratch := v }
  else if i = 0x63 then core fun c => { c with wdogLimit := v.toNat % 2 ^ 32 }
  else if i = 0x64 then s.modDie s.curDie fun d => { d with ptbase := v &&& 0x00FFFFFFFFFFF800 }
  else if 0x70 ≤ i && i < 0x80 then core fun c => { c with win := smSet 0 c.win (i - 0x70) (v &&& 0x83FF0FF8) }
  else if 0x80 ≤ i && i < 0x90 then core fun c => { c with allow := smSet 0 c.allow (i - 0x80) (v.toNat % 256) }
  else s

/-- MFS (R233): engine status is scoreboarded (R154). -/
def execMfs (d : BitVec 6) (i : BitVec 14) (s : State) : Out1 :=
  let read (s : State) : State :=
    if i = 0x50 || i = 0x51 then s.boardS d.toNat (s.sysRead i.toNat) else s.ws d (s.sysRead i.toNat)
  done (if 0x60 ≤ i.toNat then s.priv read else read s)

/-- MTS (R233). -/
def execMts (a : BitVec 6) (i : BitVec 14) (s : State) : Out1 :=
  let write (s : State) : State :=
    if sysReadOnly s.st.src.sup i.toNat then s.raise (causeAccess, 0x11) s.st.addr else s.sysWrite i.toNat (s.rs a)
  done (if 0x60 ≤ i.toNat then s.priv write else write s)

/-- The operand of SETF and ADDF (R218). -/
def State.flagOperand (s : State) (a : BitVec 6) (i : BitVec 1) (v : BitVec 6) : Byte :=
  if i = 1 then v.setWidth 8 else (s.rs a).setWidth 8

/-- SETF (R218). -/
def execSetf (a : BitVec 6) (f : BitVec 5) (i : BitVec 1) (v : BitVec 6) (s : State) : Out1 :=
  done (s.modSt (·.putFlag f.toNat (s.flagOperand a i v)))

/-- ADDF (R218). -/
def execAddf (a : BitVec 6) (f : BitVec 5) (i : BitVec 1) (v : BitVec 6) (s : State) : Out1 :=
  done (s.modSt (·.addFlag f.toNat (s.flagOperand a i v)))

/-- GETF (R218): the value at the start of the cycle (R219). -/
def execGetf (d : BitVec 6) (f : BitVec 5) (s : State) : Out1 :=
  done (s.ws d ((s.st.src.getF f.toNat).setWidth 64))

/-- PRIO (R226): class 3 is privileged (R141). -/
def execPrio (c : BitVec 2) (s : State) : Out1 :=
  let put (s : State) : State := s.modSt (·.modNow fun r => { r with cls := c })
  done (if c = 3 then s.priv put else put s)

end Sys2Proof.Machine
end

