-- ==== Sys2Proof/Machine/TaskCtl.lean ====
section
/-!
DEFINITION. Task control (R64, R67, R458, R459), the saving of reassembly entries (R460, R491), and the handover of a die (R523).
-/
namespace Sys2Proof.Machine

/-! ### Save records (R459) -/

/-- What a save record holds. -/
structure SaveRec where
  entry : Nat
  mask : Nat
  implicit : Bool
  s : SMap Word
  g : Nat
  lc : SMap (BitVec 32)
  f : SMap Byte
  cls : Nat
  rmode : Nat
  srSeed : Nat
  vflags : Nat
  mflags : Nat
  /-- WINDOWS: pages and tiles -/
  spmBase : Nat
  spmLen : Nat
  accBase : Nat
  accN : Nat
  task : Nat
  rank : Nat
  size : Nat
  ident : Nat
  lanes : SMap (BitVec 5)
  /-- sync slots, as their 16 bytes -/
  slots : SMap Nat
  t : SMap Desc
deriving DecidableEq, Repr

/-- A register is in a region's live set (R147, R459). -/
def SaveRec.live (r : SaveRec) (k : Nat) : Bool := r.implicit || (decide (k < 32) && r.mask.testBit k)

/-- The bytes of a record; every byte that the layout does not list is zero. -/
def SaveRec.bytes (r : SaveRec) : List Byte :=
  let words (l : List (Nat × Nat)) : List Byte := l.flatMap fun p => leBytes p.1 p.2
  words [(8, r.entry), (8, r.mask % 2 ^ 32 + (if r.implicit then 2 ^ 32 else 0))]
  ++ ((List.range 63).flatMap fun i => leBytes 8 (if r.live (i + 1) then (smGet 0 r.s (i + 1)).toNat else 0))
  ++ leBytes 8 (r.g % 256 / 2 * 2)
  ++ ((List.range 4).flatMap fun i => leBytes 4 (smGet 0 r.lc i).toNat)
  ++ ((List.range 32).map fun i => smGet 0 r.f i)
  ++ words [(8, r.cls % 4 + r.rmode % 8 * 2 ^ 8 + r.srSeed % 2 ^ 32 * 2 ^ 32), (8, r.vflags % 32 + r.mflags % 32 * 2 ^ 8),
      (8, r.spmBase % 65536 + r.spmLen % 65536 * 2 ^ 16 + r.accBase % 16 * 2 ^ 32 + r.accN % 16 * 2 ^ 36),
      (8, r.task % 2 ^ 32 + r.rank % 512 * 2 ^ 32 + r.size % 512 * 2 ^ 48), (8, r.ident), (24, 0)]
  ++ leBytes 160 (packBits5 ((List.range 256).map fun i => (smGet 0 r.lanes i).toNat))
  ++ ((List.range 15).flatMap fun i => leBytes 16 (smGet 0 r.slots (i + 1)))
  ++ List.replicate 0x3F0 0
  ++ ((List.range 64).flatMap fun i => leBytes 32 (smGet 0 r.t i).toNat)
where
  packBits5 : List Nat → Nat
    | [] => 0
    | v :: l => v + 32 * packBits5 l

/-- A map of `n` values read from equal pieces of a block. -/
def pieces {α : Type} [DecidableEq α] (d : α) (k first n : Nat) (mk : Nat → α) (l : List Byte) : SMap α :=
  (List.range n).foldl (fun m i => smSet d m (first + i) (mk (leNat ((l.drop (k * i)).take k)))) []

/-- A record as its bytes say. -/
def saveRec (l : List Byte) : SaveRec :=
  let n (off k : Nat) : Nat := leNat ((l.drop off).take k)
  let lanes := n 0x280 160
  { entry := n 0 8, mask := n 8 4, implicit := (n 12 4).testBit 0
    s := pieces 0 8 1 63 (BitVec.ofNat 64) (l.drop 0x10)
    g := n 0x208 1, lc := pieces 0 4 0 4 (BitVec.ofNat 32) (l.drop 0x210), f := pieces 0 1 0 32 (BitVec.ofNat 8) (l.drop 0x220)
    cls := n 0x240 1 % 4, rmode := n 0x241 1 % 8, srSeed := n 0x244 4, vflags := n 0x248 1 % 32, mflags := n 0x249 1 % 32
    spmBase := n 0x250 2, spmLen := n 0x252 2, accBase := n 0x254 1 % 16, accN := n 0x254 1 / 16
    task := n 0x258 4, rank := n 0x25C 2 % 512, size := n 0x25E 2 % 512, ident := n 0x260 8
    lanes := (List.range 256).foldl (fun m i => smSet 0 m i (BitVec.ofNat 5 (lanes / 2 ^ (5 * i)))) []
    slots := pieces 0 16 1 15 id (l.drop 0x320), t := pieces 0 32 0 64 (BitVec.ofNat 256) (l.drop 0x800) }

/-- A sync slot in a record: object, phase, SPMB, SPM, REG, length (R459). -/
def slotWord (sl : SyncSlot) : Nat :=
  sl.obj.toNat + sl.phase.toNat * 2 ^ 64 + (if sl.reg then 2 ^ 107 else 0) + match sl.att with
    | some a => a.base / 4096 * 2 ^ 96 + 2 ^ 106 + a.pages * 2 ^ 108
    | none => 0

/-- The record of a strand: the inputs of its oldest incomplete region (R63, R64). -/
def State.recordOf (s : State) (n : Nat) : SaveRec :=
  let x := s.strandAt n
  let r := x.regions.headD { entry := x.pc }
  let i := r.inputs
  { entry := r.entry.toNat, mask := r.mask.toNat % 2 ^ 32, implicit := r.id == 0xFFFF && r.mask == BitVec.allOnes 64
    s := i.s, g := i.g.toNat, lc := i.lc, f := i.f, cls := i.cls.toNat, rmode := i.rmode.toNat, srSeed := i.srSeed.toNat
    vflags := i.vflags.toNat, mflags := i.mflags.toNat, spmBase := x.spmBase / 4096, spmLen := x.spmLen / 4096, accBase := x.accBase
    accN := x.accN, task := x.task, rank := x.gangRank, size := x.gangSize, ident := (strandId s.node n).toNat, lanes := i.lanes
    slots := i.sync.map fun (k, sl) => (k, slotWord sl), t := i.t }

/-- The flat core that a record's strand identity names. -/
def SaveRec.core (r : SaveRec) : Nat := bitsOf r.ident 11 9 * 48 + bitsOf r.ident 8 6 * 8 + bitsOf r.ident 5 3

/-- RESUME refuses the record with reason 4 (R459). -/
def State.recordRefused (s : State) (t : Task) (l : List Byte) : Bool :=
  let r := saveRec l
  r.bytes != l || !windowsOk r.spmBase r.spmLen r.accBase r.accN
  || bitsOf r.ident 25 16 != s.node || decide (6 ≤ bitsOf r.ident 8 6) || !t.gang.contains r.core

/-- The attachment of a restored slot (R459): its range is that of the object's bound region of the same length. -/
def State.restoreSlot (s : State) (core : Nat) (w : Nat) : State × SyncSlot :=
  let obj := w % 2 ^ 64
  let pa := (s.paOf core obj).getD 0
  let sl : SyncSlot := { obj := BitVec.ofNat 64 obj, pa, reg := w.testBit 107, phase := BitVec.ofNat 32 (w / 2 ^ 64) }
  if !w.testBit 106 then (s, sl)
  else
    let pages := w / 2 ^ 108 % 2 ^ 20
    match (s.boundRegions pa).filter fun r => r.2 == pages * 4096 with
    | [] => (s, sl)
    | [(va, _)] => (s, { sl with att := some { base := bitsOf w 105 96 * 4096, pages, va } })
    | l =>
      let (c, s) := s.choose l.length
      (s, { sl with att := some { base := bitsOf w 105 96 * 4096, pages, va := ((l[c]?).getD (0, 0)).1 } })

/-- The strand that a record restores (R63, R64). The registers of a trap and SSCRATCH are in no record: they hold free values. A task
whose cancellation has begun stays under it (R65). -/
def State.restored (s : State) (id : Nat) (t : Task) (l : List Byte) : State × Nat × Strand :=
  let r := saveRec l
  let core := r.core
  let (s, sync) := (r.slots.filter (·.2 != 0)).foldl (fun (s, m) (k, w) => let (s, sl) := s.restoreSlot core w; (s, smPut m k sl)) (s, ([] : SMap SyncSlot))
  let (a, s) := s.draw
  let (b, s) := s.draw
  let regs : Regs :=
    { s := r.s.filter fun p => r.live p.1, g := BitVec.ofNat 8 r.g, lc := r.lc, f := r.f, t := r.t, lanes := r.lanes
      vflags := BitVec.ofNat 5 r.vflags, mflags := BitVec.ofNat 5 r.mflags, cls := BitVec.ofNat 2 r.cls, rmode := BitVec.ofNat 3 r.rmode
      srSeed := BitVec.ofNat 32 r.srSeed, sup := t.sup, psup := b.getLsbD 64
      trapCause := a.extractLsb' 0 64, trapPc := a.extractLsb' 64 64, trapInfo := a.extractLsb' 128 64, trapAux := a.extractLsb' 192 64
      sscratch := b.extractLsb' 0 64 }
  let stage := match t.origin with
    | .stage d sel => (smFind (s.dieAt d).stages sel).map (·.id)
    | _ => none
  (s, core, { task := id, cancelling := t.status != 0, gangSize := r.size, gangRank := r.rank, stage, pc := BitVec.ofNat 64 r.entry, now := regs, sync
              spmBase := r.spmBase * 4096, spmLen := r.spmLen * 4096, accBase := r.accBase, accN := r.accN })

/-! ### Commands (R458) -/

def tcStatus (value reason state : Nat) : Word := BitVec.ofNat 64 (value * 2 ^ 32 + reason * 2 ^ 8 + state)

def State.tcSet (s : State) (d value reason state : Nat) : State :=
  s.modDie d fun x => { x with tcStatus := tcStatus value reason state, tcJob := none, tcRecs := [] }
def State.tcRefuse (s : State) (d reason : Nat) : State := s.tcSet d 0 reason 3
def State.tcDone (s : State) (d value : Nat) : State := s.tcSet d value 0 2

/-- Lines of the save area that the host may hold, and that it must give up first (R441). -/
def State.areaHeld (s : State) (a n : Nat) : List Nat := s.held.filter fun l => decide (a < l * 128 + 128) && decide (l * 128 < a + n)

/-- The writer may use the whole area (R458, R512); memory that does not exist is nobody's. -/
def State.areaOk (s : State) (tenant a n : Nat) : Bool :=
  ((isHbm a && isHbm (a + n - 1)) || (isLpddr a && isLpddr (a + n - 1)))
  && (tenant == 0 || (List.range ((a % 2 ^ 21 + n + 2 ^ 21 - 1) / 2 ^ 21)).all fun i => s.ownerOf (a / 2 ^ 21 * 2 ^ 21 + i * 2 ^ 21) == tenant)

/-- Bytes of the save area. -/
def State.putArea (s : State) (a : Nat) (l : List Byte) : State :=
  (List.range ((l.length + 127) / 128)).foldl (fun s i =>
    (s.performWhere fun x => x.touches (a / 128 + i)).performMem 0 0 (a + 128 * i) ((l.drop (128 * i)).take 128)) s
def State.getArea (s : State) (a n : Nat) : State × List Byte :=
  let s := s.performWhere fun x => decide (a < x.pa + x.bytes.length) && decide (x.pa < a + n)
  (s, s.memBytes a n)

/-- The strands of a task that stand in a trap. -/
def State.trappedOf (s : State) (id : Nat) : List Nat := (s.strandsOf id).filter fun n => (s.strandAt n).now.trapped

/-- Why a task command is refused (R458), tested in the order 1, 5, 3, 2, 6 (log 26): 0 where it is not. -/
def State.tcReason (s : State) (d op id tenant : Nat) : Nat :=
  match smFind s.tasks id with
  | none => 1
  | some t =>
    let bad : Bool := match op with
      | 1 => t.state != .running
      | 4 => t.state != .running || (s.trappedOf id).isEmpty
      | _ => t.state != .preempted
    if tenant ≠ 0 && tenant ≠ t.tenant then 5
    else if bad then 3
    else if op = 1 && !(s.trappedOf id).isEmpty then 2
    else if (op = 1 || op = 2) && !s.areaOk tenant (s.dieAt d).tcArea.toNat (4096 * max 1 t.gang.length) then 6
    else 0

/-- The pre-emption of one strand (R64): its work is dropped, bound ranges are written back, its record is written. -/
def State.preemptStrand (s : State) (area n : Nat) : State :=
  let s := s.landAll n
  let x := s.strandAt n
  let core := coreOf n
  let s := s.undefCells core (x.regions.flatMap (·.wrote))
  let s := s.noteRedo n x.regions
  let s := x.sync.foldl (fun s p => match p.2.att with
    | some a => (s.writeBack n x.now.sup true a).1
    | none => s) s
  let s := s.putArea (area + 4096 * x.gangRank) (s.recordOf n).bytes
  let s := { s with later := s.later ++ x.leftElems core }
  s.setStrand n { lseq := x.lseq }

/-- PREEMPT (R64, R458). -/
def State.tcPreempt (s : State) (d id : Nat) : State :=
  let ns := s.strandsOf id
  let ranks := ns.map fun n => (s.strandAt n).gangRank
  let s := ns.foldl (fun s n => s.preemptStrand (s.dieAt d).tcArea.toNat n) s
  (s.modTask id fun t => { t with state := .preempted, saved := ranks }).tcDone d 0

/-- RESUME reads its records once: the strands that will start, or the refusal (R459). -/
def State.tcRead (s : State) (d id : Nat) (t : Task) : List Nat → State × Option (List (Nat × Strand))
  | [] => (s, some [])
  | r :: rest =>
    let (s, l) := s.getArea ((s.dieAt d).tcArea.toNat + 4096 * r) 4096
    if s.recordRefused t l then (s, none)
    else
      let (s, core, x) := s.restored id t l
      match s.tcRead d id t rest with
      | (s, some xs) => (s, some ((core, x) :: xs))
      | (s, none) => (s, none)

/-- Every core of the strands has a free slot (R46). -/
def State.recsFit (s : State) (xs : List (Nat × Strand)) : Bool := xs.all fun p => (s.freeSlot p.1).isSome

/-- The strands of a RESUME start, each on its own core in the lowest free slot (R46, R50). -/
def State.tcStart (s : State) (d id : Nat) (xs : List (Nat × Strand)) : State :=
  let s := xs.foldl (fun s (core, x) => match s.freeSlot core with
    | some n => s.startStrand n x
    | none => s) s
  (s.modTask id fun t => { t with state := .running, saved := [] }).tcDone d 0

/-- FAULT's trapped strand waits in HALT: it ends, and R67 applies to the rest, with the cause, TRAP_PC and TRAP_INFO that the strand
held when the command was written (R456, R458). -/
def State.tcFault (s : State) (d n : Nat) : State :=
  let r := (((s.dieAt d).tcRecs.find? (·.1 == n)).map (·.2)).getD (s.strandAt n) |>.now
  (s.faultTask n (r.trapCause.toNat % 256) r.trapPc r.trapInfo).tcDone d 0

/-- The strand of a task in HALT for which FAULT waits. -/
def State.haltedOf (s : State) (id : Nat) : Option Nat := (s.trappedOf id).find? fun n => (s.strandAt n).halted

/-- A command that is BUSY goes on where it can. -/
def State.tcRun (s : State) (d : Nat) : State :=
  let x := s.dieAt d
  match x.tcJob with
  | none => s
  | some (op, id) =>
    match smFind s.tasks id with
    | none => s.tcDone d 0
    | some t =>
      let area := s.areaHeld x.tcArea.toNat (4096 * t.gang.length)
      match op with
      | 1 => if area.isEmpty then s.tcPreempt d id else area.foldl State.snoopLine s
      | 2 =>
        if !x.tcRecs.isEmpty then (if s.recsFit x.tcRecs then s.tcStart d id x.tcRecs else s)
        else if !area.isEmpty then area.foldl State.snoopLine s
        else (match s.tcRead d id t t.saved with
          | (s, none) => s.tcRefuse d 4
          | (s, some xs) =>
            if s.recsFit xs then s.tcStart d id xs
            else s.modDie d fun x => { x with tcRecs := xs })
      | _ => (match s.haltedOf id with
        | some n => s.tcFault d n
        | none => if (s.trappedOf id).isEmpty && (s.strandsOf id).isEmpty then s.tcDone d 0 else s)

/-- A BUSY command can go on (R458). -/
def State.tcReady (s : State) (d : Nat) : Bool :=
  let x := s.dieAt d
  match x.tcJob with
  | none => false
  | some (op, id) =>
    match smFind s.tasks id with
    | none => true
    | some t =>
      let free := (s.areaHeld x.tcArea.toNat (4096 * t.gang.length)).isEmpty
      match op with
      | 1 => free
      | 2 => if x.tcRecs.isEmpty then free else s.recsFit x.tcRecs
      | _ => (s.haltedOf id).isSome || (s.strandsOf id).isEmpty

/-- A command on a task: its refusal, or its start. An event of status 1 is the turn of a command that is BUSY. -/
def State.tcTask (s : State) (op : Nat) : State :=
  let d := s.ev.k
  let id := s.ev.v.toNat % 2 ^ 32
  if s.ev.status = 1 then s.tcRun d
  else if (s.dieAt d).tcJob.isSome then s
  else match s.tcReason d op id s.ev.tenant with
    | 0 => (s.modDie d fun x => { x with tcStatus := tcStatus 0 0 1, tcJob := some (op, id), tcRecs := if op = 4 then (s.trappedOf id).map fun n => (n, s.strandAt n) else [] }).tcRun d
    | r => s.tcRefuse d r

/-- PREEMPT (R458). -/
def execPreempt (s : State) : Out1 := done (s.tcTask 1)
/-- RESUME (R458). -/
def execResume (s : State) : Out1 := done (s.tcTask 2)
/-- DISCARD (R458): the task is left to retire with status CANCELLED. -/
def execDiscard (s : State) : Out1 :=
  let d := s.ev.k
  let id := s.ev.v.toNat % 2 ^ 32
  done (if (s.dieAt d).tcJob.isSome then s
    else match s.tcReason d 3 id s.ev.tenant with
      | 0 => (s.modTask id fun t => { t with state := .running, status := 2, saved := [] }).tcDone d 0
      | r => s.tcRefuse d r)
/-- FAULT (R458). -/
def execFault (s : State) : Out1 := done (s.tcTask 4)
/-- TC_CMD with OP 000 or 111: refused with reason 1, or ignored while STATE is BUSY (R458). -/
def execTcCmd (s : State) : Out1 := done (if (s.dieAt s.ev.k).tcJob.isSome then s else s.tcRefuse s.ev.k 1)

/-! ### Reassembly entries (R460, R491) -/

/-- A saved entry (R491). -/
def Reasm.record (r : Reasm) : List Byte :=
  leBytes 64 (r.bitmap * 2 ^ 448 + r.addr % 2 ^ 56 * 2 ^ 392 + r.tenant * 2 ^ 384 + r.snode * 2 ^ 374 + r.sdie * 2 ^ 371 + r.msgid * 2 ^ 355
    + r.flast * 2 ^ 349 + r.chan * 2 ^ 345 + r.tc * 2 ^ 343 + r.op * 2 ^ 336)

/-- A record as its bytes say. -/
def reasmOf (l : List Byte) : Reasm :=
  let w := leNat l
  { bitmap := bitsOf w 511 448, addr := bitsOf w 447 392, tenant := bitsOf w 391 384, snode := bitsOf w 383 374, sdie := bitsOf w 373 371
    msgid := bitsOf w 370 355, flast := bitsOf w 354 349, chan := bitsOf w 348 345, tc := bitsOf w 344 343, op := bitsOf w 342 336 }

/-- The tests that GWSAVE and GWRESTORE share (R458): the reason, 0 for none. -/
def State.gwReason (s : State) (d : Nat) : Nat :=
  if s.ev.tenant ≠ 0 then 5
  else if s.ev.v.toNat % 2 ^ 32 / 256 ≠ 0 then 1
  else if !s.areaOk 0 (s.dieAt d).tcArea.toNat 65536 then 6
  else 0

/-- GWSAVE (R460): the entries of a tenant leave the gateway for the save area, and its flits are NAKed from now on. -/
def execGwsave (s : State) : Out1 :=
  let d := s.ev.k
  let x := s.dieAt d
  let tenant := s.ev.v.toNat % 256
  let held := s.areaHeld x.tcArea.toNat 65536
  done (if x.tcJob.isSome then s
    else match s.gwReason d with
      | 0 =>
        if !held.isEmpty then (held.foldl State.snoopLine s).postpone .gwsave
        else
          let mine := x.reasm.filter (·.tenant == tenant)
          let s := s.putArea x.tcArea.toNat (mine.flatMap Reasm.record)
          (s.modDie d fun x => { x with reasm := x.reasm.filter (·.tenant != tenant), saved := smPut x.saved tenant mine.length }).tcDone d mine.length
      | r => s.tcRefuse d r)

/-- GWRESTORE (R460): as many records as GWSAVE reported are reloaded, and the NAKs stop. -/
def execGwrestore (s : State) : Out1 :=
  let d := s.ev.k
  let x := s.dieAt d
  let tenant := s.ev.v.toNat % 256
  let n := smGet 0 x.saved tenant
  let held := s.areaHeld x.tcArea.toNat 65536
  done (if x.tcJob.isSome then s
    else match s.gwReason d with
      | 0 =>
        if !held.isEmpty then (held.foldl State.snoopLine s).postpone .gwrestore
        else if 1024 - x.reasm.length < n then s.tcRefuse d 3
        else
          let (s, l) := s.getArea x.tcArea.toNat (64 * n)
          let rs := (List.range n).map fun i => (l.drop (64 * i)).take 64
          if rs.any fun b => (reasmOf b).record != b then s.tcRefuse d 4
          else (s.modDie d fun x => { x with reasm := x.reasm ++ rs.map reasmOf, saved := smDel x.saved tenant }).tcDone d 0
      | r => s.tcRefuse d r)

/-! ### Handing a die to a tenant (R522, R523) -/

/-- Why a handover is refused (R523): 0 where it is not. -/
def State.handoverReason (s : State) (d tenant : Nat) : Nat :=
  let x := s.dieAt d
  if s.ev.v.toNat / 512 ≠ 0 || x.dtptb.toNat / 2 ^ 56 ≠ 0 || x.dtptb.toNat % 2 ^ 11 ≠ 0 || x.dtent.toNat / 2 ^ 56 ≠ 0 || x.dtent.toNat % 4 ≠ 0 then 5
  else if s.strands.any fun p => p.2.live && dieOf (coreOf p.1) == d then 1
  else if (x.stages.any fun p => p.2.state != 0)
      || s.dies.any (fun p => p.2.stages.any fun q => q.2.state != 0 && q.2.dies.contains d) then 2
  else if x.reasm.any (·.tenant == x.tenant) then 3
  else if tenant = x.tenant then 4
  else 0

/-- A core as a handover leaves it (R523). -/
def Core.cleared (c : Core) : Core :=
  { cycle := c.cycle, lastIssue := c.lastIssue, lastServed := c.lastServed, apq := c.apq, outst := c.outst
    inj := c.inj.filter (·.1 / 2 ^ 64 == 7) }

/-- DTCMD (R523): die `k` is given to a tenant; a write with GO = 0 is ignored. -/
def execDtcmdGo (s : State) : Out1 :=
  let d := s.ev.k
  let tenant := s.ev.v.toNat % 256
  done (if !s.ev.v.getLsbD 8 then s
    else match s.handoverReason d tenant with
      | 0 =>
        let x := s.dieAt d
        let s := { s with cores := s.cores.map fun (p : Nat × Core) => (p.1, if dieOf p.1 = d then p.2.cleared else p.2), tlb := s.tlb.filter fun t => dieOf t.core != d }
        let s := s.setDie d { x with routines := [], groups := [], collIn := [], tenant, ptbase := x.dtptb, dtsts := 0x200 }
        s.startSystem d { pc := x.dtent.toNat, s1 := BitVec.ofNat 64 x.tenant, s4 := 4, cls := 3 }
      | r => s.modDie d fun x => { x with dtsts := BitVec.ofNat 64 (r * 2 ^ 16 + 0x300) })

end Sys2Proof.Machine
end

