-- ==== Sys2Proof/Machine/Boot.lean ====
section
/-!
DEFINITION. Resets (R447, R450, R454), the stages of a start (R445, R446, R449, R451), the loading of the supervisor image (R170 to
R175), and the boot registers that start them (R448).
-/
namespace Sys2Proof.Machine

/-! ### What a reset leaves -/

/-- A change of the boot record; vector 10 where STATE changes (R443). -/
def State.setBoot (s : State) (b : Boot) : State :=
  let old := s.boot.state
  let s := { s with boot := b }
  if b.state = old then s else (s.fns.filter fun p => p.2.hirq.getLsbD 10).foldl (fun s p => s.vector p.1 10) s

/-- A die after a reset: its monitors go on, and its fuses are what they are (R514). -/
def Die.blank (x : Die) : Die :=
  { therm := x.therm, volt := x.volt, proc := x.proc, ttrip := x.ttrip, vrail := x.vrail.map fun (k, v) => (k, v &&& 0xFFFFFFFF0000) }

/-- A port after a reset: out of use, with its key slots and counters, which only a cold start clears (R449, R502). -/
def Port.blank (p : Port) : Port :=
  { txKey := p.txKey, rxKey := p.rxKey, txV := p.txV, rxV := p.rxV, txAct := p.txAct, rxAct := p.rxAct, txic := p.txic, rxic := p.rxic }

/-- Events that reach the device from the host, which no reset of the device removes. -/
def fromHost : Instr → Bool
  | .hostWrite | .hostRead | .fwWinWrite | .bootCtlGo | .bootCtlWarm | .powerOn | .perst | .hotReset | .dlDown | .pfFlr | .bootStatus => true
  | _ => false

/-- A reset of the device (R447): everything but memory and what is retained returns to its reset value. -/
def State.blank (s : State) : State :=
  { node := s.node, mem := s.mem, objs := s.objs, memSyn := s.memSyn, poison := s.poison, lost := s.lost, boot := s.boot, cxl := s.cxl, out := s.out
    fresh := s.fresh, nextId := s.nextId, inbox := s.inbox.filter fun p => fromHost p.1
    dies := s.dies.map (fun (p : Nat × Die) => (p.1, p.2.blank)), ports := s.ports.map (fun (p : Nat × Port) => (p.1, p.2.blank)) }

/-- The event word of the event queue (R520). -/
def eventWord (kind die port value : Nat) (mtime : Word) : Word :=
  BitVec.ofNat 64 (kind * 2 ^ 56 + die * 2 ^ 48 + port * 2 ^ 40 + value * 2 ^ 32 + mtime.toNat % 2 ^ 32)

/-- An event enters the queue of 256, or is lost (R520). -/
def State.event (s : State) (w : Word) : State :=
  if 256 ≤ s.boot.events.length then { s with boot := { s.boot with evLost := s.boot.evLost + 1 } }
  else { s with boot := { s.boot with events := s.boot.events ++ [w] } }

/-- A reset (R447): `kind` of the next start, 0 cold or 1 warm. -/
def State.deviceReset (s : State) (kind : Nat) (on : Bool) : State :=
  let b := s.boot
  let state := if b.state = 3 && !on then 3 else 0
  let s1 := s.blank
  let b1 : Boot :=
    { state, fails := if on then 0 else b.fails, nextKind := kind, degr := kind == 1 && !s.lost.isEmpty, clean := b.clean, trained := b.trained
      temps := b.temps, equalised := b.equalised, keyHash := b.keyHash, counter := b.counter }
  match b.tripped with
  | some (d, v) => ({ s1 with boot := b1 } : State).event (eventWord 4 d 0xFF v (s.dieAt d).mtime)
  | none => { s1 with boot := b1 }

/-- The host link trains again, in CXL mode where the host offers it: the event's status is then 1 (R433). -/
def State.retrainHost (s : State) (status : Nat) : State := if s.boot.tripped.isSome then s else { s with cxl := status == 1 }

/-- A reset that is not taken after a trip (R516). -/
def State.warmReset (s : State) : State := if s.boot.tripped.isSome then s else s.deviceReset 1 false

/-- POWER_ON (R447). -/
def execPowerOn (s : State) : Out1 := done ((s.deviceReset 0 true).retrainHost s.ev.status)
/-- PERST (R447). -/
def execPerst (s : State) : Out1 := done ((s.deviceReset 0 false).retrainHost s.ev.status)
/-- HOT_RESET (R447). -/
def execHotReset (s : State) : Out1 := done (s.warmReset.retrainHost s.ev.status)
/-- DL_DOWN (R447): the reads of host memory that are lost are those of tasks that the reset loses (R455). -/
def execDlDown (s : State) : Out1 := done (s.warmReset.retrainHost s.ev.status)
/-- PF_FLR (R447). -/
def execPfFlr (s : State) : Out1 := done s.warmReset

/-- Every queue and every stage is DISABLED and no task is resident (R450). -/
def State.quiesced (s : State) : Bool :=
  (s.lqs.all fun p => p.2.state == 0) && (s.dies.all fun p => p.2.stages.all fun q => q.2.state == 0)
  && s.tasks.isEmpty && !(s.strands.any fun p => p.2.live)

/-- BOOT_CTL.WARM (R448, R450): with nothing resident, memory is first made clean, and a store to a line that the host may hold waits
for its snoop. -/
def execBootCtlWarm (s : State) : Out1 :=
  done (match s.boot.state with
    | 2 =>
      if s.quiesced then
        let s := (s.performWhere fun _ => true).completeWhere fun _ => true
        if s.stores.isEmpty then ({ s with boot := { s.boot with clean := true } } : State).warmReset
        else (s.stores.foldl (fun s x => s.snoopLine (x.pa / 128)) s).postpone .bootCtlWarm
      else s.warmReset
    | 1 => { s with boot := { s.boot with req := 2 } }
    | _ => s)

/-- BOOT_CTL.GO (R448, R454): a start with the staged image, of the kind that earlier failures fix. -/
def execBootCtlGo (s : State) : Out1 :=
  let b := s.boot
  done (if b.tripped.isSome then s
    else match b.state with
    | 0 =>
      let kind := if b.fails = 1 then 1 else if b.fails = 2 then 0 else b.nextKind
      let b := { b with state := 1, stage := 1, kind, code := 0, detail := 0, skip := 0, req := 1, svn := 0 }
      let s := { s with ports := s.ports.map (fun (p : Nat × Port) => (p.1, p.2.blank)) }
      if kind = 1 then s.setBoot b
      else ({ s with lost := [], poison := [] } : State).setBoot { b with trained := false, temps := [], equalised := 0, degr := false }
    | 3 => { s with boot := { b with req := 3 } }
    | _ => { s with boot := { b with req := 2 } })

/-! ### Starting (R449) -/

/-- A start fails (R454). -/
def State.failStart (s : State) (code detail : Nat) : State :=
  let b := s.boot
  s.setBoot { b with code, detail := detail % 65536, fails := b.fails + 1, state := if 3 ≤ b.fails + 1 then 3 else 0, fw := [], svn := 0 }

/-- Run a step of a start in its own stage only. -/
def State.inStage (s : State) (n : Nat) (f : State → State) : Out1 := done (if s.boot.state = 1 && s.boot.stage = n then f s else s)

/-- The next stage. -/
def State.stage (s : State) (n : Nat) : State := { s with boot := { s.boot with stage := n } }

/-- Staged bytes. -/
def Boot.bytes (b : Boot) (off n : Nat) : List Byte := (List.range n).map fun i => smGet 0 b.fw (off + i)
def Boot.num (b : Boot) (off n : Nat) : Nat := leNat (b.bytes off n)

/-- Check 1 of R446: lengths, MAGIC, HVER and the zero fields of R445. -/
def Boot.imageOk (b : Boot) : Bool :=
  decide (b.fwLen.toNat ≤ 16777216) && b.fwLen.toNat == 512 + b.num 16 8 && b.num 0 4 == 0x464D5547 && b.num 4 2 == 1
  && b.num 6 2 == 0 && b.num 12 4 == 0 && b.num 184 200 == 0 && b.num 480 32 == 0 && b.num 24 4 + b.num 28 4 == b.num 16 8

/-- The checks of the mask ROM in their order (R446): code and detail of the first that fails. -/
def Boot.check (b : Boot) : Option (Nat × Nat) :=
  let len := b.num 16 8
  if !b.imageOk then some (0x01, 0)
  else if sha384 (b.bytes 32 96) ≠ b.keyHash then some (0x02, 0)
  else if !ecdsaOk (beNat (b.bytes 32 48), beNat (b.bytes 80 48)) (sha384 (b.bytes 0 384)) (beNat (b.bytes 384 48)) (beNat (b.bytes 432 48)) then
    some (0x03, 0)
  else if b.num 8 4 < b.counter then some (0x04, b.counter)
  else if sha384 (b.bytes 512 len) ≠ beNat (b.bytes 128 48) then some (0x03, 1)
  else none

/-- FIRMWARE_CHECK (R446): stage 1. -/
def execFirmwareCheck (s : State) : Out1 :=
  s.inStage 1 fun s =>
    let b := s.boot
    match b.check with
    | some (c, d) => s.failStart c d
    | none => ({ s with boot := { b with portmap := BitVec.ofNat 64 (b.num 176 8), svn := b.num 8 4 } } : State).stage 2

/-- The highest sensor of a die (R449, R514), in sixteenths of a degree. -/
def Die.hottest (x : Die) : Int := (x.therm.map fun p => p.2.toInt).foldl max (if x.therm.length < 32 then 0 else -32768)

/-- A warm start needs no training (R449): the values are retained and no die's highest sensor has moved by more than 10 degrees. -/
def State.keepsTraining (s : State) : Bool :=
  s.boot.kind == 1 && s.boot.trained && s.ev.k == 0
  && (List.range Config.dies).all fun d => ((s.dieAt d).hottest - smGet 0 s.boot.temps d).natAbs ≤ 160

/-- A bit mask of a list of numbers. -/
def maskOf (l : List Nat) : Nat := l.eraseDups.foldl (fun m i => m + 2 ^ i) 0

/-- The die whose controllers drive a stack's first half (R482). -/
def stackDie (k : Nat) : Nat := 2 * k / 3

/-- HBM_TRAINING (R449, R451): stage 2. `list` holds the stacks that fail, `status` one more than an LPDDR-6 channel that
fails, and `k` is not 0 where the retained values fail their CRC. -/
def execHbmTraining (s : State) : Out1 :=
  s.inStage 2 fun s =>
    let b := s.boot
    if s.keepsTraining then ({ s with boot := { b with skip := b.skip ||| 1, degr := !s.lost.isEmpty } } : State).stage 3
    else
      let fails := (s.ev.list.filter fun k => decide (k < 12) && !s.lost.contains k).eraseDups
      let lost := s.lost ++ fails
      if 2 ≤ lost.length then s.failStart 0x10 (maskOf lost)
      else if s.ev.status ≠ 0 then s.failStart 0x11 (s.ev.status - 1)
      else
        let temps := (List.range Config.dies).map fun d => (d, (s.dieAt d).hottest)
        let s : State := { s with lost := lost, boot := { b with trained := true, temps, degr := !lost.isEmpty }
                                  memSyn := s.memSyn.filter fun (p : Nat × BitVec 8) => !(isHbm (p.1 * 8) && fails.contains (stackOf (p.1 * 8))) }
        let s := fails.foldl (fun s k => s.rasWrite (stackDie k) { kind := 9, unit := 5, stack := k }) s
        s.stage 3

/-- The ports in use come from PORTMAP, and a cold start clears every key slot, as stage 4 begins (R449, R502). -/
def State.enterLinks (s : State) : State :=
  let start := fun (i : Nat) =>
    let p := if s.boot.kind = 0 then ({} : Port) else (s.portAt i).blank
    (i, { p with inuse := s.boot.portmap.getLsbD i })
  ({ s with ports := (List.range 64).map start } : State).stage 4

/-- ZERO_FILL (R449, R450): stage 3. `list` holds the stacks whose parity fails. -/
def execZeroFill (s : State) : Out1 :=
  s.inStage 3 fun s =>
    let b := s.boot
    if b.kind = 1 && b.clean then ({ s with boot := { b with skip := b.skip ||| 2 } } : State).enterLinks
    else match s.ev.list with
      | k :: _ => s.failStart 0x20 k
      | [] => ({ s with mem := [], objs := [], memSyn := [], poison := [], boot := { b with clean := true } } : State).enterLinks

/-- Every port in use is up and holds a valid key in each direction (R519). -/
def State.linksReady (s : State) : Bool :=
  (List.range 64).all fun i => !s.boot.portmap.getLsbD i || ((s.portAt i).up && (s.portAt i).txV != 0 && (s.portAt i).rxV != 0)

/-- LINK_EQUALISATION (R449): stage 4. With status 0 the ports are equalised: `list` holds the ports that fail, and bit n of `v` says
that port n does not train on its retained values. With status 1 the wait for the keys is over. -/
def execLinkEqualisation (s : State) : Out1 :=
  s.inStage 4 fun s =>
    if s.ev.status ≠ 0 then (if s.linksReady then s.stage 5 else s)
    else
      let b := s.boot
      let used := (List.range 64).filter fun i => b.portmap.getLsbD i
      let retained := b.kind = 1 && used.all fun i => b.equalised.getLsbD i && !s.ev.v.getLsbD i
      match used.find? fun i => s.ev.list.contains i with
      | some i => s.failStart 0x30 i
      | none =>
        let s := { s with ports := s.ports.map (fun (p : Nat × Port) => (p.1, { p.2 with up := p.2.inuse })), boot := { b with equalised := b.portmap, skip := if retained then b.skip ||| 4 else b.skip } }
        if s.linksReady then s.stage 5 else s

/-- CORE_SELF_TEST (R449): stage 5. `list` holds the cores that fail. -/
def execCoreSelfTest (s : State) : Out1 :=
  s.inStage 5 fun s =>
    match (List.range Config.cores).find? fun c => s.ev.list.contains c with
    | some c => s.failStart 0x40 c
    | none => ({ s with cores := [] } : State).stage 6

/-- START_TIMEOUT (R449): a stage exceeds its limit. -/
def execStartTimeout (s : State) : Out1 := done (if s.boot.state = 1 then s.failStart 0x60 s.boot.stage else s)

/-! ### The supervisor image (R170 to R175, R449) -/

/-- A section entry (R171). -/
structure Sect where
  kind : Nat
  reserved : Bool
  off : Nat
  size : Nat
  addr : Nat
deriving DecidableEq, Repr

def imgNum (img : List Byte) (off n : Nat) : Nat := leNat ((img.drop off).take n)

def sections (img : List Byte) : List Sect :=
  (List.range (imgNum img 6 2)).map fun i =>
    let o := 64 + 32 * i
    { kind := imgNum img o 1, reserved := imgNum img (o + 1) 7 != 0, off := imgNum img (o + 8) 8, size := imgNum img (o + 16) 8, addr := imgNum img (o + 24) 8 }

/-- Two ranges share a byte. -/
def rangesMeet (a n b m : Nat) : Bool := decide (a < b + m) && decide (b < a + n) && n != 0 && m != 0

/-- Some two of a list are related. -/
def anyPair {α : Type} (p : α → α → Bool) : List α → Bool
  | [] => false
  | x :: r => r.any (p x) || anyPair p r

/-- The condition of R175 that an image started without a launch record fails, counted from 1. -/
def imageFault (img : List Byte) : Option Nat :=
  let ss := sections img
  let entry := imgNum img 16 8
  let crc := crcOf (img.take 12 ++ [0, 0, 0, 0] ++ img.drop 16)
  if imgNum img 0 4 ≠ 0x54524550 || imgNum img 4 2 ≠ 1 || imgNum img 12 4 ≠ crc then some 1
  else if anyPair (fun a b => rangesMeet a.off a.size b.off b.size || (a.kind != 6 && b.kind != 6 && rangesMeet a.addr a.size b.addr b.size)) ss then some 2
  else if ss.any (fun x => x.kind == 0 || decide (7 < x.kind)) then some 3
  else if imgNum img 10 2 ≠ 0 || imgNum img 24 40 ≠ 0 || ss.any (·.reserved) then some 4
  else if entry = 0 || entry % 4 ≠ 0 || !(ss.any fun x => x.kind == 1 && decide (x.addr ≤ entry) && decide (entry < x.addr + x.size)) then some 5
  else none

/-- Enter one page in a page table at `tbl` (R98); `next` is where the next table goes. -/
def ptEnter (s : State) (next tbl va leaf : Nat) : List (Nat × Nat × Nat) → State × Nat
  | [] => (s, next)
  | (_, sh, n) :: rest =>
    let a := tbl + va / 2 ^ sh % n * 8
    if rest.isEmpty then (s.putMemNat a 8 leaf, next)
    else
      let e := s.memNat a 8
      if e % 2 = 1 then ptEnter s next (e / 2 ^ 12 % 2 ^ 44 * 4096 % 2 ^ 46) va leaf rest
      else
        let s := (s.putMem next (List.replicate 4096 0)).putMemNat a 8 (1 + (s.node * 2 ^ 34 + next / 4096) * 4096)
        ptEnter s (next + 4096) next va leaf rest

/-- Place a section's bytes at the next 4 KiB boundary (R449): the pages that it maps, and the boundary after it. -/
def State.placeSection (s : State) (img : List Byte) (x : Sect) (at0 : Nat) : State × List (Nat × Nat × Nat) × Nat :=
  let off := x.addr % 4096
  let pages := (off + x.size + 4095) / 4096
  let flags := if x.kind = 1 then 1 + 2 + 8 + 32 + 128 else 1 + 2 + 8 + 16 + 128
  let maps := if x.kind = 6 then [] else (List.range pages).map fun i => (x.addr / 4096 * 4096 + i * 4096, at0 + i * 4096, flags)
  (s.putMem (at0 + off) ((List.range x.size).map fun i => (img[x.off + i]?).getD 0), maps, at0 + pages * 4096)

/-- The whole image is placed, and its page table built after it: the table's address (R449). -/
def State.placeImage (s : State) (img : List Byte) : State × Nat :=
  let (s, maps, root) := (sections img).foldl (fun (s, ms, a) x => let (s, m, a) := s.placeSection img x a; (s, ms ++ m, a)) (s, ([] : List (Nat × Nat × Nat)), 0)
  let s := s.putMem root (List.replicate 4096 0)
  let (s, _) := maps.foldl (fun (s, next) (va, pa, fl) => ptEnter s next root va (fl + (s.node * 2 ^ 34 + pa / 4096) * 4096) walkLevels) (s, root + 4096)
  (s, root)

/-- The image's t0 to t63 (R39, R171). -/
def imageTable (img : List Byte) : SMap Desc :=
  match (sections img).find? (·.kind == 3) with
  | some x => tableOf ((img.drop x.off).take 2048)
  | none => []

/-- A template record as the firmware installs it: a CTPL command pushed through the aperture, at a port of its choice, which has executed
before a task starts (R30, R174). The staging words of the port keep the word. -/
def State.pushTemplate (s : State) (core index : Nat) (entry : Word) : State :=
  let w := encodeM 0x46 { mode := BitVec.ofNat 32 (index * 16), imm := entry }
  let (port, s) := s.choose 16
  s.modCore core fun c =>
    { c with tmpl := smSet 0 c.tmpl index entry
             staging := (List.range 3).foldl (fun m k => smSet 0 m (port * 4 + k) (BitVec.ofNat 64 (w / 2 ^ (64 * k)))) c.staging }

/-- The image's templates are installed where its tasks run (R174). -/
def State.installTemplates (s : State) (img : List Byte) (core : Nat) : State :=
  ((sections img).filter (·.kind == 4)).foldl (fun s x => (List.range (x.size / 16)).foldl (fun s i =>
    s.pushTemplate core (imgNum img (x.off + 16 * i) 1) (BitVec.ofNat 64 (imgNum img (x.off + 16 * i + 8) 8))) s) s

/-- SUPERVISOR_LOAD (R449): stage 6, after which the device runs. -/
def execSupervisorLoad (s : State) : Out1 :=
  s.inStage 6 fun s =>
    let b := s.boot
    let img := b.bytes (512 + b.num 24 4) (b.num 28 4)
    match imageFault img with
    | some c => s.failStart 0x50 c
    | none =>
      let (s, root) := s.placeImage img
      let s := (List.range Config.dies).foldl (fun s d =>
        (s.modDie d fun x => { x with tenant := 0, ptbase := BitVec.ofNat 64 (s.node * 2 ^ 46 + root) }).installTemplates img (d * Config.coresPerDie)) s
      let s := (List.range Config.dies).foldl (fun s d =>
        s.startSystem d { pc := imgNum img 16 8, s1 := BitVec.ofNat 64 d, s2 := b.status, s4 := 4, t := imageTable img, cls := 3 }) s
      s.setBoot { b with state := 2, stage := 7, fails := 0, clean := false, fw := [] }

/-- FW_WIN_WRITE (R436): bytes at offset `n`, in WAITFW only. -/
def execFwWinWrite (s : State) : Out1 :=
  let put := fun (m : SMap Byte) (p : Option Byte × Nat) => match p.1 with
    | some v => smSet 0 m (s.ev.n + p.2) v
    | none => m
  let fw := s.ev.data.zipIdx.foldl put s.boot.fw
  done (if s.boot.state ≠ 0 || s.boot.tripped.isSome then s.ignored else { s with boot := { s.boot with fw } })

/-! ### Function-level resets of VFs (R447, R455) -/

/-- VF_FLR (R447): VF `n`. -/
def execVfFlr (s : State) : Out1 :=
  let f := s.fnAt s.ev.n
  let tenant := f.vfmap.toNat % 256
  let s := s.modFn s.ev.n fun f => { vfmap := f.vfmap, enabled := f.enabled, flr := true }
  done (if !f.vfmap.getLsbD 63 then s
    else (List.range 8).foldl (fun s q =>
      let l := s.lqAt q
      if l.tenant = tenant && l.state != 0 then (s.modLq q ({ · with state := 2, destroy := true })).cancelQueue q else s) s)

/-- VF_FLR_COMPLETE (R447): the VF leaves reset. -/
def execVfFlrComplete (s : State) : Out1 := done (s.modFn s.ev.n ({ · with flr := false }))

/-- MSIX_VECTOR_UNMASK (R443): vector `k` of function `n`; a pending message is sent. With status 1 the vector is masked. -/
def execMsixVectorUnmask (s : State) : Out1 :=
  let bit : BitVec 32 := 1#32 <<< s.ev.k
  let f := s.fnAt s.ev.n
  done (if s.ev.status = 1 then s.modFn s.ev.n fun f => { f with mask := f.mask ||| bit }
    else
      let s := s.modFn s.ev.n fun f => { f with mask := f.mask &&& ~~~bit, pending := f.pending &&& ~~~bit }
      if f.pending.getLsbD s.ev.k then s.signal s.ev.n s.ev.k else s)

end Sys2Proof.Machine
end

