-- ==== Sys2Proof/Machine/Links.lean ====
section
/-!
DEFINITION. The links of the scale-up ports (R478, R501 to R504, R529): keys, counters, the retry buffer, and ports that come into use
and leave it. Encryption itself is seen only on the link (NOTES.md, Scope): a link carries the link word and the flit.
-/
namespace Sys2Proof.Machine

/-- The port is in use (R478). -/
def Port.inUse (p : Port) : Bool := p.inuse && p.up

/-- The counter of the active transmit slot. -/
def Port.ic (p : Port) : Nat := smGet 0 p.txic p.txAct

/-- The transmit slot that is not active is valid. -/
def Port.spare (p : Port) : Bool := p.txV.getLsbD (1 - p.txAct)

/-- The router may choose the port (R478, R503, R504). -/
def Port.free (p : Port) : Bool := p.inUse && p.txV.getLsbD p.txAct && decide (p.retry.length < 32) && decide (p.ic < 2 ^ 32 - 1)

/-- The link word of a flit (R501). -/
def Port.word (p : Port) (seq : Nat) : Nat := p.ic * 2 ^ 32 + seq * 2 ^ 20 + p.lnack * 2 ^ 8 + p.txAct * 2 ^ 7

/-- A flit goes out on port `i` under the next counter value (R501), with its link number. -/
def State.putLink (s : State) (i seq : Nat) (f : Flit) : State :=
  let p := s.portAt i
  ({ s with out := s.out ++ [.flit i (p.word seq) f] } : State).modPort i fun p => { p with txic := smPut p.txic p.txAct (p.ic + 1) }

/-- A flit leaves by port `i`, which keeps it until it is acknowledged (R504). -/
def State.sendLink (s : State) (i : Nat) (f : Flit) : State :=
  let seq := (s.portAt i).lnseq
  (s.putLink i seq f).modPort i fun p => { p with lnseq := (seq + 1) % 4096, retry := p.retry ++ [(seq, f)] }

/-- Link-local flits (R480). -/
def Flit.linkLocal (f : Flit) : Bool := f.tc == 2 && (f.op == 0x41 || f.op == 0x42)
def markerFlit : Flit := { tc := 2, op := 0x41 }
def lnakFlit : Flit := { tc := 2, op := 0x42 }

/-- A port that was in use has left it (R478): its kept flits go back to the gateway, and an event of a kind is queued (R520). -/
def State.leaveUse (s : State) (i kind : Nat) : State :=
  let p := s.portAt i
  let d := i % 8
  let s := s.modDie d fun x => { x with handed := x.handed ++ (p.retry.map (·.2)).filter (!·.linkLocal) }
  (s.modPort i fun p => { p with retry := [], lnseq := 0, lnack := 4095, lnaks := 0 }).event (eventWord kind d i 0 (s.dieAt d).mtime)

/-- Switch transmission to the other slot where that is valid (R503): a MARKER is the last flit of the old one. -/
def State.switchKey (s : State) (i : Nat) : State :=
  let p := s.portAt i
  if !p.spare then s
  else
    let s := if p.inUse then s.sendLink i markerFlit else s
    s.modPort i fun p => { p with txAct := 1 - p.txAct, txV := p.txV &&& ~~~(1#2 <<< p.txAct), warned := false }

/-- A load of a slot is ignored: the slot is active (R502). `v` is the value of KLOAD. -/
def Port.loadIgnored (p : Port) (v : Word) : Bool :=
  let slot := if v.getLsbD 0 then 1 else 0
  if v.getLsbD 1 then p.rxAct == slot && p.rxV.getLsbD slot else p.txAct == slot && p.txV.getLsbD slot

/-- Load the staged key (R502). -/
def Port.loadKey (p : Port) (v : Word) : Port :=
  let slot := if v.getLsbD 0 then 1 else 0
  let key := BitVec.ofNat 256 ((List.range 4).foldl (fun a k => a + (smGet 0 p.kdata k).toNat * 2 ^ (64 * k)) 0)
  if p.loadIgnored v then p
  else if v.getLsbD 1 then { p with rxKey := smPut p.rxKey slot key, rxV := p.rxV ||| (1#2 <<< slot), rxic := smPut p.rxic slot 0 }
  else { p with txKey := smPut p.txKey slot key, txV := p.txV ||| (1#2 <<< slot), txic := smPut p.txic slot 0 }

/-- KLOAD (R502) of port `k`. -/
def execKload (s : State) : Out1 := done (s.modPort s.ev.k (·.loadKey s.ev.v))

/-- LKCTL.SWITCH (R503) of port `k`. -/
def execLkctlSwitch (s : State) : Out1 := done (s.switchKey s.ev.k)

/-- LKCTL.INUSE (R478, R529) of port `k`: clearing it clears the port's key slots and counters. -/
def execLkctlInuse (s : State) : Out1 :=
  let i := s.ev.k
  done (if s.ev.v.getLsbD 0 then s.modPort i ({ · with inuse := true })
    else
      let s1 := if (s.portAt i).inUse then s.leaveUse i 5 else s
      s1.modPort i fun p => { p with inuse := false, txKey := [], rxKey := [], txV := 0, rxV := 0, txAct := 0, rxAct := 0, txic := [], rxic := [],
                                     warned := false })

/-- WARN is set and has not been reported (R502, R503). -/
def Port.warnDue (p : Port) : Bool := p.inUse && !p.warned && decide (2 ^ 32 - 2 ^ 20 ≤ p.ic)

/-- KEY_WARN (R503, R520) of port `k`. -/
def execKeyWarn (s : State) : Out1 :=
  let i := s.ev.k
  let d := i % 8
  done (if !(s.portAt i).warnDue then s
    else ((s.modPort i ({ · with warned := true })).event (eventWord 1 d i 0 (s.dieAt d).mtime)).switchKey i)

/-- The counter has come to its end and no other slot is valid (R503). -/
def Port.exhausted (p : Port) : Bool := p.inUse && decide (2 ^ 32 - 1 ≤ p.ic) && !p.spare

/-- KEY_EXHAUSTED (R503, R520) of port `k`. -/
def execKeyExhausted (s : State) : Out1 :=
  let i := s.ev.k
  done (if (s.portAt i).exhausted then (s.leaveUse i 2).modPort i ({ · with up := false }) else s)

/-- LINK_DOWN (R478, R504): the link of port `k` is lost, or fails to retrain. -/
def execLinkDown (s : State) : Out1 :=
  let i := s.ev.k
  let p := s.portAt i
  done (let s1 := if p.inuse && (p.up || !p.retry.isEmpty) then s.leaveUse i 5 else s
        s1.modPort i ({ · with up := false }))

/-- Every kept flit is sent again (R504). -/
def State.resend (s : State) (i : Nat) : State := (s.portAt i).retry.foldl (fun s (q : Nat × Flit) => s.putLink i q.1 q.2) s

/-- LINK_TRAINED (R478): port `k` has trained, or trained again. -/
def execLinkTrained (s : State) : Out1 :=
  let i := s.ev.k
  done (if (s.portAt i).up then s else (s.modPort i ({ · with up := true, lnaks := 0 })).resend i)

/-- MARKER (R503): port `n` receives with the other slot from now on. -/
def execMarker (s : State) : Out1 :=
  done (s.modPort s.ev.n fun p => { p with rxAct := 1 - p.rxAct, rxV := p.rxV &&& ~~~(1#2 <<< p.rxAct) })

/-- LNAK (R504): port `n` sends its kept flits again; after sixteen in a row its link trains again. -/
def execLnak (s : State) : Out1 :=
  let i := s.ev.n
  done (if 15 ≤ (s.portAt i).lnaks then s.modPort i ({ · with up := false, lnaks := 0 })
    else (s.modPort i fun p => { p with lnaks := p.lnaks + 1 }).resend i)

/-- The kept flits that an LNACK leaves (R504). -/
def dropAcked (ack : Nat) (l : List (Nat × Flit)) : List (Nat × Flit) :=
  if l.any (·.1 == ack) then (l.dropWhile (·.1 != ack)).drop 1 else l

/-- A flit reaches port `i` with a link word (R504): whether it is accepted, and the machine after its link has dealt with it. -/
def State.receiveLink (s : State) (i : Nat) (w : Word) (authentic : Bool) (f : Flit) : State × Bool :=
  let p := s.portAt i
  let seq := bitsOf w.toNat 31 20
  let slot := bitsOf w.toNat 7 7
  let ic := bitsOf w.toNat 63 32
  if !authentic || !p.rxV.getLsbD slot || seq != (p.lnack + 1) % 4096 || decide (ic < smGet 0 p.rxic slot) then
    ((s.modPort i fun p => { p with afail := min (p.afail + 1) 65535 }).sendLink i lnakFlit, false)
  else
    (s.modPort i fun p => { p with lnack := seq, rxic := smPut p.rxic slot (ic + 1), retry := dropAcked (bitsOf w.toNat 19 8) p.retry
                                   lnaks := if f.tc == 2 && f.op == 0x42 then p.lnaks else 0 }, true)

end Sys2Proof.Machine
end

