-- ==== Sys2Proof/Machine/Router.lean ====
section
/-!
DEFINITION. The routers of the package's eight gateways (R483 to R486, R489, R493, R496, R500): one cycle moves every flit, and the
measuring windows of the gateways (R495).
-/
namespace Sys2Proof.Machine

/-! ### Where a flit goes (R483) -/

/-- The two ways along a ring of `n`: forward for distances 1 to `n / 2`, backward for `n - n / 2` and more. -/
def ways (dist n fwd back : Nat) : List Nat :=
  (if 1 ≤ dist && decide (dist ≤ n / 2) then [fwd] else []) ++ (if n - n / 2 ≤ dist && decide (dist < n) then [back] else [])

/-- The productive transit outputs of a flit at die `d` of node `n` (R483, R486). -/
def productive (n d : Nat) (f : Flit) : List Nat :=
  if f.dnode ≠ n then
    if f.op = 6 && f.tc = 0 then ways ((f.dnode + 576 - n) % 576) 576 6 7
    else
      ways ((f.dnode % 8 + 8 - n % 8) % 8) 8 0 1 ++ ways ((f.dnode / 8 % 8 + 8 - n / 8 % 8) % 8) 8 2 3
        ++ ways ((f.dnode / 64 + 9 - n / 64) % 9) 9 4 5
  else if f.ddie = d then []
  else if f.circ = 1 then [8]
  else ways ((f.ddie + 8 - d) % 8) 8 8 9

/-- One flit goes before another (R484). -/
def Flit.before (a b : Flit) : Bool :=
  let ka := [2 ^ 32 - a.age, a.snode, a.sdie, a.msgid, a.fidx]
  let kb := [2 ^ 32 - b.age, b.snode, b.sdie, b.msgid, b.fidx]
  match (ka.zip kb).find? fun p => p.1 != p.2 with
  | some (x, y) => decide (x < y)
  | none => true

/-- Flits in the order of R484. -/
def insertFlit (f : Flit) : List Flit → List Flit
  | [] => [f]
  | g :: r => if f.before g then f :: g :: r else g :: insertFlit f r
def sortFlits (l : List Flit) : List Flit := l.foldr insertFlit []

/-! ### Acceptance (R486, R489, R490, R493) -/

/-- Pool flits in use at die `d`: writes that wait (R492), and accepted flits whose step is still to come. -/
def State.poolUsed (s : State) (d : Nat) : Nat :=
  let pend (l : List (Instr × Event)) : Nat := (l.filter fun p => p.2.n == d && p.2.flit.tc == 0 && p.2.flit.rsv == 1 && p.2.flit.op != 0).length
  (s.dieAt d).waiting.length + pend s.inbox + pend s.later

/-- A request flit is accepted (R486, R490, R493). -/
def State.accepts (s : State) (d : Nat) (f : Flit) : Bool :=
  let x := s.dieAt d
  (f.rsv == 0 || decide (s.poolUsed d < 8192))
  && (f.flast == 0 || x.reasm.any (fun r => r.snode == f.snode && r.sdie == f.sdie && r.msgid == f.msgid) || decide (x.reasm.length < 1024))

/-- A request flit is one of a tenant whose reassembly entries are saved, or for that tenant's memory (R460, R490). -/
def State.savedFor (s : State) (d : Nat) (f : Flit) : Bool :=
  let held (tenant : Nat) : Bool := (smFind (s.dieAt d).saved tenant).isSome
  held f.tenant || (decide (f.op < 5) && (s.target (f.addr + 256 * f.fidx)).any fun t => held (s.targetOwner t))

/-- The row of the opcode table that a flit is at its destination (R480). -/
def flitRow (f : Flit) : Option Instr :=
  match f.tc, f.op with
  | 0, 1 => some .write
  | 0, 2 => some .writem
  | 0, 3 => some .read
  | 0, 4 => some .atomic
  | 0, 5 => some .tensor
  | 0, 6 => some .coll
  | 1, 0x20 => some .data
  | 1, 0x21 => some .ack
  | 2, 0x40 => some .nak
  | _, _ => none

/-- A flit is ejected at die `d`. -/
def State.eject (s : State) (d : Nat) (f : Flit) : State :=
  match flitRow f with
  | some i => s.post [(i, { agent := .remote f.snode, n := d, flit := f })]
  | none => s.badFlit d

/-! ### One cycle -/

/-- A gateway in the course of a cycle: outputs left, ejection ports left, and what leaves by which output. -/
structure Hop where
  s : State
  free : List Nat
  ports : Nat := 2
  sent : List (Nat × Flit) := []

/-- The flit leaves by an output (R484). -/
def Hop.leave (h : Hop) (d o : Nat) (f : Flit) (deflected : Bool) : Hop :=
  { h with
    free := h.free.filter (· != o), sent := h.sent ++ [(o, { f with age := min (f.age + 1) (2 ^ 32 - 1) })]
    s := h.s.modDie d fun x => { x with depart := x.depart + 1, deflected := x.deflected + if deflected then 1 else 0 } }

/-- A transit flit takes its lowest free productive output, or else the lowest free one (R484). With no output free it is handed
back to the gateway. -/
def Hop.route (h : Hop) (d : Nat) (f : Flit) (prods : List Nat) : Hop :=
  match prods.find? (h.free.contains ·) with
  | some o => h.leave d o f false
  | none => match h.free with
    | o :: _ => h.leave d o f true
    | [] => { h with s := h.s.modDie d fun x => { x with handed := x.handed ++ [f] } }

/-- One transit flit of die `d` (R479, R484, R486). -/
def Hop.transit (h : Hop) (d : Nat) (f : Flit) : Hop :=
  let s := h.s
  if f.tc = 3 then { h with s := s.badFlit d }
  else if f.dnode ≠ s.node || f.ddie ≠ d then h.route d f (productive s.node d f)
  else if h.ports = 0 then h.route d f []
  else
    let out (s : State) : Hop := { h with s, ports := h.ports - 1 }
    if f.tc ≠ 0 || (flitRow f).isNone then out (s.eject d f)
    else if s.savedFor d f then out (s.nak d f 1)
    else if s.accepts d f then out (s.eject d f)
    else if f.circ = 0 then h.route d { f with circ := 1 } [8]
    else out (s.nak d f 1)

/-- Flits of the reply that a request reserves room for (R489). -/
def Req.replyFlits (r : Req) : Nat := if r.op = 3 then (r.len + 255) / 256 else 1

/-- The reply reserve of die `d` has room for the reply to a flit's request (R489). -/
def State.replyRoom (s : State) (d : Nat) (f : Flit) : Bool :=
  let x := s.dieAt d
  let begun (r : Req) : Bool := decide ((x.inject.filter fun g => g.tc == 0 && g.msgid == r.msgid).length < r.flits.length)
  let mine := s.reqs.filter fun r => r.die == d && !r.toHost
  match mine.find? (·.msgid == f.msgid) with
  | none => true
  | some r =>
    begun r || decide ((((mine.filter begun).map Req.replyFlits).foldl (· + ·) 0) + r.replyFlits ≤ 1024)

/-- The flit may be injected in this cycle (R485, R489, R496). -/
def State.mayInject (s : State) (d : Nat) (f : Flit) : Bool :=
  let x := s.dieAt d
  decide (x.inFlight < 256) && (f.tc != 0 || (decide (x.injected < 4 * x.allow) && s.replyRoom d f))

/-- The productive outputs that the share table leaves a flit (R500). -/
def State.shareOutputs (s : State) (d : Nat) (f : Flit) : List Nat :=
  let x := s.dieAt d
  (productive s.node d f).filter fun o =>
    let e := f.tenant * 16 + o
    f.tc != 0 || smGet 0xFFFF x.share e == 0xFFFF || decide (smGet 0 x.shareUsed e < smGet 0xFFFF x.share e)

/-- The injection port of die `d` places at most one flit, the oldest that may go, in a free productive output (R485); flits that a
port handed back count against no limit. -/
def Hop.inject (h : Hop) (d : Nat) : Hop :=
  let s := h.s
  let x := s.dieAt d
  let mine := x.inject.filter fun f => s.mayInject d f && !(s.shareOutputs d f).isEmpty
  match sortFlits (x.handed ++ mine) with
  | [] => h
  | f :: _ =>
    let back := x.handed.contains f
    let outs := if back then productive s.node d f else s.shareOutputs d f
    match outs.find? (h.free.contains ·) with
    | none => h
    | some o =>
      let e := f.tenant * 16 + o
      let req := if f.tc = 0 then 1 else 0
      { h with
        free := h.free.filter (· != o), sent := h.sent ++ [(o, f)]
        s := s.modDie d fun x =>
          let x := { x with depart := x.depart + 1 }
          if back then { x with handed := x.handed.erase f }
          else { x with inject := x.inject.erase f, injected := x.injected + req, inFlight := x.inFlight + req
                        shareUsed := smPut x.shareUsed e (smGet 0 x.shareUsed e + 1) } }

/-- A cycle of the router of die `d`: what leaves by which output. -/
def State.routeDie (s : State) (d : Nat) : State × List (Nat × Flit) :=
  let flits := sortFlits ((s.dieAt d).transit.map (·.2))
  let s := s.modDie d ({ · with transit := [] })
  let free := ((List.range 8).filter fun o => (s.portAt (o * 8 + d)).free) ++ [8, 9]
  let h := (flits.foldl (fun h f => h.transit d f) ({ s, free } : Hop)).inject d
  (h.s, h.sent)

/-- A flit leaves die `d` by an output: a link, or the ring road, where it comes in at the neighbour. -/
def State.carry (s : State) (d : Nat) (q : Nat × Flit) : State :=
  let (o, f) := q
  if o < 8 then s.sendLink (o * 8 + d) f
  else
    let k := if o = 8 then (d + 1) % 8 else (d + 7) % 8
    s.modDie k fun x => { x with transit := smPut x.transit (17 - o) f }

/-- Dies whose router has something to move. -/
def Die.moving (x : Die) : Bool := !x.transit.isEmpty || !x.inject.isEmpty || !x.handed.isEmpty

/-- One router cycle of every gateway. -/
def State.routerCycle (s : State) : State :=
  let (s, sent) := ((s.dies.filter fun (p : Nat × Die) => p.2.moving).map (·.1)).foldl (fun (s, l) d =>
    let (s, o) := s.routeDie d
    (s, l ++ [(d, o)])) (s, ([] : List (Nat × List (Nat × Flit))))
  sent.foldl (fun s (d, o) => o.foldl (fun s q => s.carry d q) s) s

/-- ROUTER_CYCLE (R484). With status 1 or 2 a flit reaches port `k` with link word `v`: 1 where it authenticates (R504). -/
def execRouterCycle (s : State) : Out1 :=
  let i := s.ev.k
  let f := s.ev.flit
  done (if s.ev.status = 0 then s.routerCycle
    else if !(s.portAt i).inUse then s
    else if !f.linkLocal && (smFind (s.dieAt (i % 8)).transit (i / 8)).isSome then s.postpone .routerCycle
    else match s.receiveLink i s.ev.v (s.ev.status == 1) f with
      | (s, false) => s
      | (s, true) =>
        if f.linkLocal then s.post [(if f.op = 0x41 then .marker else .lnak, { n := i, flit := f })]
        else s.modDie (i % 8) fun x => { x with transit := smPut x.transit (i / 8) f })

/-- THROTTLE_WINDOW (R495, R496, R500): the window of die `n` ends. -/
def execThrottleWindow (s : State) : Out1 :=
  let d := s.ev.n
  let used := s.poolUsed d
  done (s.modDie d fun x =>
    let t := x.throttle.toNat
    let amin := max 1 (bitsOf t 39 32)
    let defl := if x.depart = 0 then 0 else min 255 (256 * x.deflected / x.depart)
    let allow := if bitsOf t 23 16 < defl then max (x.allow / 2) amin
      else if defl < bitsOf t 15 8 then min (x.allow + bitsOf t 31 24) 255 else x.allow
    { x with defl, pool := min 255 (256 * used / 8192), allow, depart := 0, deflected := 0, injected := 0, shareUsed := [] })

end Sys2Proof.Machine
end

