-- ==== Sys2Proof/Machine/Mail.lean ====
section
/-!
DEFINITION. The mailbox of a function (R517 to R521). A request is accepted in one step and completes in another: a row's event has
status 0 for the write of MB_REQ, with its value in `v`, and status 1 for the completion.
-/
namespace Sys2Proof.Machine

/-- The function whose mailbox the event is. -/
def State.mailFn (s : State) : Nat := s.evFn.getD 0

/-- The argument of an accepted request (R518). -/
def HostFn.arg (f : HostFn) (k : Nat) : Word := smGet 0 f.mbTaken k

/-- A request completes (R518): results, STATUS, DONE, and vector 8. A request that does not complete OK leaves MB_OUT. -/
def State.mailDone (s : State) (fn status : Nat) (outs : List Word) : State :=
  let put (m : SMap Word) : SMap Word := outs.zipIdx.foldl (fun m (p : Word × Nat) => smSet 0 m p.2 p.1) m
  let s := s.modFn fn fun f =>
    { f with mbOut := if status = 0 then put f.mbOut else f.mbOut, mbStatus := status, mbBusy := false, mbDone := true }
  if (s.fnAt fn).hirq.getLsbD 8 then s.vector fn 8 else s

/-- What a command makes of a request: STATUS, results, and the machine when STATUS is OK. -/
abbrev Mailed := Nat × List Word × State

/-- The two steps of a request: accepted or discarded, and completed by `run` (R518). -/
def State.mail (s : State) (i : Instr) (run : State → HostFn → Mailed) : Out1 :=
  let fn := s.mailFn
  let f := s.fnAt fn
  let v := s.ev.v
  done (if s.ev.status = 0 then
      if f.mbBusy || v.toNat / 2 ^ 32 ≠ 0 then s.countRefused fn
      else (s.modFn fn fun f => { f with mbSeq := bitsOf v.toNat 31 16, mbCmd := v.toNat % 65536, mbBusy := true, mbDone := false, mbTaken := f.mbArg }).post
        [(i, { s.ev with status := 1 })]
    else if !f.mbBusy then s
    else match run s f with
      | (0, outs, t) => t.mailDone fn 0 outs
      | (st, _, t) => t.mailDone fn st [])

/-- A command that the PF alone may use, in the boot states that `ok` names (R519). -/
def State.pfMail (s : State) (i : Instr) (ok : Boot → Bool) (run : State → HostFn → Mailed) : Out1 :=
  s.mail i fun s f => if s.mailFn ≠ 0 then (3, [], s) else if !ok s.boot then (4, [], s) else run s f

def Boot.running (b : Boot) : Bool := b.state == 2

/-- MB_REQ (R518): discarded, or accepted with an unlisted CMD. -/
def execMbReq (s : State) : Out1 := s.mail .mbReq fun s _ => (1, [], s)

/-- VERSION (R519). -/
def execVersion (s : State) : Out1 :=
  s.mail .version fun s _ => (0, [BitVec.ofNat 64 s.boot.svn, BitVec.ofNat 64 s.boot.counter, s.boot.status], s)

/-- TELEMETRY (R519): a VF reads only the dies of its tenant. -/
def execTelemetry (s : State) : Out1 :=
  s.mail .telemetry fun s f =>
    let d := (f.arg 0).toNat % 8
    if s.mailFn ≠ 0 && !(f.vfmap.getLsbD 63 && (s.dieAt d).tenant == f.vfmap.toNat % 256) then (3, [], s)
    else if !(s.boot.state == 2 || (s.boot.state == 1 && decide (2 ≤ s.boot.stage))) then (4, [], s)
    else (0, (List.range 19).map fun i => (s.dieAt d).monWord (8 * i), s)

/-- LOADKEY (R502, R519). -/
def execLoadkey (s : State) : Out1 :=
  s.pfMail .loadkey (fun b => b.state == 2 || (b.state == 1 && b.stage == 4)) fun s f =>
    let i := (f.arg 0).toNat % 64
    let p := s.portAt i
    if !p.inuse || p.loadIgnored (f.arg 1) then (2, [], s)
    else (0, [], s.modPort i fun p => ({ p with kdata := (List.range 4).foldl (fun m k => smSet 0 m k (f.arg (2 + k))) p.kdata }).loadKey (f.arg 1))

/-- SETPASID (R440, R519). -/
def execSetpasid (s : State) : Out1 :=
  s.pfMail .setpasid Boot.running fun s f =>
    (0, [], { s with pasid := smSet 0 s.pasid ((f.arg 0).toNat % 256) (f.arg 1 &&& 0x80000000000FFFFF) })

/-- RAISESVN (R519). -/
def execRaisesvn (s : State) : Out1 :=
  s.pfMail .raisesvn Boot.running fun s f =>
    let v := (f.arg 0).toNat % 2 ^ 32
    if s.boot.counter < v && decide (v ≤ s.boot.svn) && decide (v ≤ 255) then (0, [], { s with boot := { s.boot with counter := v } }) else (2, [], s)

/-- RECEXIT (R454, R519). -/
def execRecexit (s : State) : Out1 :=
  s.pfMail .recexit (fun b => b.state == 3) fun s _ => (0, [], s.setBoot { s.boot with state := 0, fails := 0, nextKind := 0 })

/-- INJECT (R465, R519): the unit's check value, or an entry of engine `target` that is read next. Whether a home slice holds an L2
granule is a free choice (log 31). -/
def execInject (s : State) : Out1 :=
  s.pfMail .inject Boot.running fun s f =>
    let unit := (f.arg 0).toNat % 256
    let core := (f.arg 1).toNat % 8 * Config.coresPerDie + bitsOf (f.arg 1).toNat 8 3
    let t := (f.arg 2).toNat
    let c := s.coreAt core
    let set (k : Nat) : Mailed := (0, [], s.modCore core fun c => { c with inj := smPut c.inj (injKey unit k) (f.arg 3).toNat })
    if Config.coresPerDie ≤ bitsOf (f.arg 1).toNat 8 3 then (2, [], s)
    else match unit with
      | 1 => if t < 8 * 24576 then set t else (2, [], s)
      | 2 => if (smFind c.l1 (t / 16)).isSome then set (t / 8) else (2, [], s)
      | 3 => if (smFind c.imem (t / 8 * 8)).isSome || (smFind c.imem (t / 8 * 8 + 4)).isSome then set (t / 8) else (2, [], s)
      | 4 =>
        let (k, s) := s.choose 2
        if k = 0 || !(isHbm t || isLpddr t) then (2, [], s) else (0, [], { s with l2inj := smPut s.l2inj (t / 8) (f.arg 3).toNat })
      | 7 => if t % 8 < 3 then set (t % 8) else (2, [], s)
      | _ => (2, [], s)

/-- EVENTS (R519, R520). -/
def execEvents (s : State) : Out1 :=
  s.pfMail .events (fun b => b.state == 1 || b.state == 2) fun s _ =>
    let l := s.boot.events.take 31
    (0, BitVec.ofNat 64 (s.boot.evLost % 2 ^ 32 * 2 ^ 32 + l.length) :: l, { s with boot := { s.boot with events := s.boot.events.drop 31, evLost := 0 } })

/-- The row of a request (R519). -/
def mailRow (cmd : Nat) : Instr :=
  match cmd with
  | 1 => .version | 2 => .telemetry | 3 => .loadkey | 4 => .setpasid | 5 => .raisesvn | 6 => .recexit | 7 => .inject | 8 => .events
  | _ => .mbReq

/-- A write of MB_REQ is the row of its command, or MB_REQ where it is discarded (R518). -/
def State.mailWrite (s : State) (fn : Nat) (v : Word) : List (Instr × Event) :=
  let bad := (s.fnAt fn).mbBusy || v.toNat / 2 ^ 32 != 0
  [(if bad then .mbReq else mailRow (v.toNat % 65536), { agent := .host fn, v })]

/-- A read of a mailbox page (R517): none where the page has no register. -/
def State.mailRead (s : State) (fn o : Nat) : Option Word :=
  let f := s.fnAt fn
  if o = 0 then some 0
  else if o = 8 then some (BitVec.ofNat 64 (f.mbSeq * 2 ^ 16 + f.mbStatus * 2 ^ 8 + (if fn = 0 && !s.boot.events.isEmpty then 4 else 0)
    + (if f.mbDone then 2 else 0) + (if f.mbBusy then 1 else 0)))
  else if 0x100 ≤ o && decide (o ≤ 0x1F8) && o % 8 == 0 then some (smGet 0 f.mbArg ((o - 0x100) / 8))
  else if 0x200 ≤ o && decide (o ≤ 0x2F8) && o % 8 == 0 then some (smGet 0 f.mbOut ((o - 0x200) / 8))
  else none

end Sys2Proof.Machine
end

