-- ==== Sys2Proof/Machine/VectorArith.lean ====
section
/-!
DEFINITION. VOP 0x01 to 0x11, elementwise arithmetic (R258), and VOP 0x20 to 0x29, the transcendental operations (R259).
-/
namespace Sys2Proof.Machine

/-- `x` rounded to an integer (R258, VRND): NX where it differs; a zero keeps the sign of `x`. -/
def valRnd (mode q : Nat) (x : Val) : Val × Nat :=
  match x with
  | .fin neg n d =>
    let (k, inexact) := roundInt mode q neg n d
    (.fin neg k.natAbs 1, if inexact then flNX else 0)
  | v => (v, snanOf v)

/-- The exact result of an elementwise operation on one component (R258). -/
def arith (vop imm mode q : Nat) (l : List Val) : Val × Nat :=
  let rdn := mode == 2
  let x := l.headD (.fin false 0 1)
  let y := (l[1]?).getD (.fin false 0 1)
  let z := (l[2]?).getD (.fin false 0 1)
  match vop with
  | 0x01 => valAdd rdn x y
  | 0x02 => valAdd rdn x (valNeg y)
  | 0x03 => valMul x y
  | 0x04 => valFma rdn x y z
  | 0x05 => valFma rdn x y (valNeg z)
  | 0x06 => valDiv x y
  | 0x07 => valMinMax false x y
  | 0x08 => valMinMax true x y
  | 0x09 => (valAbs x, 0)
  | 0x0A => (valNeg x, 0)
  | 0x0B => valSqrt x
  | 0x0C => valDiv valOne x
  | 0x0D =>
    let (r, f) := valSqrt x
    let (v, g) := valDiv valOne r
    (v, f ||| g)
  | 0x0E => (valScale x (intOfCode 8 imm), 0)
  | 0x0F => valFma rdn z x y
  | 0x10 =>
    if valIsNan x then (.nan, snanFl [x, y, z])
    else
      let (m, f) := valMinMax true x y
      let (v, g) := valMinMax false m z
      (v, f ||| g)
  | _ => valRnd mode q x

/-- A V entry of the elementwise group. -/
def State.vArith (s : State) (vop : Nat) (f : VFields) (e : Entry) : State :=
  let ts := (vUses vop f.mod.toNat).ts
  let xs := ([1, 2, 3].filter fun k => ts.testBit (k - 1)).map fun k => e.src vop f k false
  s.vPut e f xs fun i gs => byParts (arith vop f.imm8.toNat (e.rm f) (srHash e.srSeed i)) gs

/-- VABS and VNEG change only sign bits where the formats allow it (R258). -/
def signForm (a b : View) : Bool :=
  a.fmt == b.fmt && a.blk == 0 && b.blk == 0 && a.tscale == b.tscale &&
    match a.fmt with
    | .fp32 | .bf16 | .fp16 | .e4m3 | .e5m2 | .e2m1 | .cb16 | .cf32 => true
    | _ => false

/-- A code with its sign bits cleared (VABS) or inverted (VNEG). -/
def signCode (neg : Bool) (v : View) (c : Nat) : Nat :=
  let w := fmtBits v.fmt
  let h := if fmtComplex v.fmt then w / 2 else w
  (codeParts v.fmt c).zipIdx.foldl (fun a (p, k) =>
    let m := p % 2 ^ (h - 1)
    let b := if neg then 1 - p / 2 ^ (h - 1) % 2 else 0
    a + (m + b * 2 ^ (h - 1)) * 2 ^ (h * k)) 0

def State.vSign (s : State) (neg : Bool) (vop : Nat) (f : VFields) (e : Entry) : State :=
  if signForm (e.view 0) (e.view 1) then
    s.vCode e f [e.src vop f 1 true] fun _ gs => (signCode neg (e.view 0) (gs.headD default).code, 0)
  else s.vArith vop f e

/-- A V entry of the transcendental group. -/
def State.vTransc (s : State) (vop : Nat) (f : VFields) (e : Entry) : State :=
  s.vPut e f [e.src vop f 1 false] fun _ gs => byParts (fun l => transc vop (l.headD .nan)) gs

/-- VADD (R258). -/
def execVadd (f : VFields) (s : State) : Out1 := s.vInstr (.vadd f) fun s e => s.vArith 0x01 f e

/-- VSUB (R258). -/
def execVsub (f : VFields) (s : State) : Out1 := s.vInstr (.vsub f) fun s e => s.vArith 0x02 f e

/-- VMUL (R258). -/
def execVmul (f : VFields) (s : State) : Out1 := s.vInstr (.vmul f) fun s e => s.vArith 0x03 f e

/-- VFMA (R258). -/
def execVfma (f : VFields) (s : State) : Out1 := s.vInstr (.vfma f) fun s e => s.vArith 0x04 f e

/-- VFMS (R258). -/
def execVfms (f : VFields) (s : State) : Out1 := s.vInstr (.vfms f) fun s e => s.vArith 0x05 f e

/-- VDIV (R258). -/
def execVdiv (f : VFields) (s : State) : Out1 := s.vInstr (.vdiv f) fun s e => s.vArith 0x06 f e

/-- VMIN (R258). -/
def execVmin (f : VFields) (s : State) : Out1 := s.vInstr (.vmin f) fun s e => s.vArith 0x07 f e

/-- VMAX (R258). -/
def execVmax (f : VFields) (s : State) : Out1 := s.vInstr (.vmax f) fun s e => s.vArith 0x08 f e

/-- VSQRT (R258). -/
def execVsqrt (f : VFields) (s : State) : Out1 := s.vInstr (.vsqrt f) fun s e => s.vArith 0x0B f e

/-- VRCP (R258). -/
def execVrcp (f : VFields) (s : State) : Out1 := s.vInstr (.vrcp f) fun s e => s.vArith 0x0C f e

/-- VRSQ (R258). -/
def execVrsq (f : VFields) (s : State) : Out1 := s.vInstr (.vrsq f) fun s e => s.vArith 0x0D f e

/-- VSCL (R258). -/
def execVscl (f : VFields) (s : State) : Out1 := s.vInstr (.vscl f) fun s e => s.vArith 0x0E f e

/-- VAXPY (R258). -/
def execVaxpy (f : VFields) (s : State) : Out1 := s.vInstr (.vaxpy f) fun s e => s.vArith 0x0F f e

/-- VCLMP (R258). -/
def execVclmp (f : VFields) (s : State) : Out1 := s.vInstr (.vclmp f) fun s e => s.vArith 0x10 f e

/-- VRND (R258). -/
def execVrnd (f : VFields) (s : State) : Out1 := s.vInstr (.vrnd f) fun s e => s.vArith 0x11 f e

/-- VABS (R258). -/
def execVabs (f : VFields) (s : State) : Out1 := s.vInstr (.vabs f) fun s e => s.vSign false 0x09 f e

/-- VNEG (R258). -/
def execVneg (f : VFields) (s : State) : Out1 := s.vInstr (.vneg f) fun s e => s.vSign true 0x0A f e

/-- VEXP (R259). -/
def execVexp (f : VFields) (s : State) : Out1 := s.vInstr (.vexp f) fun s e => s.vTransc 0x20 f e

/-- VEXP2 (R259). -/
def execVexp2 (f : VFields) (s : State) : Out1 := s.vInstr (.vexp2 f) fun s e => s.vTransc 0x21 f e

/-- VLOG (R259). -/
def execVlog (f : VFields) (s : State) : Out1 := s.vInstr (.vlog f) fun s e => s.vTransc 0x22 f e

/-- VLOG2 (R259). -/
def execVlog2 (f : VFields) (s : State) : Out1 := s.vInstr (.vlog2 f) fun s e => s.vTransc 0x23 f e

/-- VTANH (R259). -/
def execVtanh (f : VFields) (s : State) : Out1 := s.vInstr (.vtanh f) fun s e => s.vTransc 0x24 f e

/-- VSIGM (R259). -/
def execVsigm (f : VFields) (s : State) : Out1 := s.vInstr (.vsigm f) fun s e => s.vTransc 0x25 f e

/-- VGELU (R259). -/
def execVgelu (f : VFields) (s : State) : Out1 := s.vInstr (.vgelu f) fun s e => s.vTransc 0x26 f e

/-- VSILU (R259). -/
def execVsilu (f : VFields) (s : State) : Out1 := s.vInstr (.vsilu f) fun s e => s.vTransc 0x27 f e

/-- VSIN (R259). -/
def execVsin (f : VFields) (s : State) : Out1 := s.vInstr (.vsin f) fun s e => s.vTransc 0x28 f e

/-- VCOS (R259). -/
def execVcos (f : VFields) (s : State) : Out1 := s.vInstr (.vcos f) fun s e => s.vTransc 0x29 f e

end Sys2Proof.Machine
end

