-- ==== Sys2Proof/Machine/Optimiser.lean ====
section
/-!
DEFINITION. MOP 0x60 to 0x62: the optimiser engine's routines, job cards and skip word (R148, R360 to R365).
-/
namespace Sys2Proof.Machine

/-! ### Routines (R148, R360) -/

/-- A micro-instruction's fields (R148). -/
structure Micro where
  opc : Nat
  d : Nat
  a : Nat
  b : Nat
  c : Nat
  x : Nat
deriving DecidableEq, Repr

def microOf (w : Nat) : Micro :=
  { opc := bitsOf w 31 28, d := bitsOf w 27 24, a := bitsOf w 23 20, b := bitsOf w 19 16, c := bitsOf w 15 12, x := w % 4096 }

/-- The fields that an operation uses: d, a, b, c, x. -/
def microUses (opc : Nat) : Bool × Bool × Bool × Bool × Bool :=
  match opc with
  | 0x0 => (true, false, false, false, true)
  | 0x4 | 0xB | 0xC => (true, true, true, true, false)
  | 0x6 | 0x7 | 0xA => (true, true, false, false, false)
  | 0xD | 0xE => (false, true, false, false, true)
  | 0xF => (false, false, false, false, false)
  | _ => (true, true, true, false, false)

/-- A micro-instruction with its unused fields zero (R148, R362). -/
def microOk (m : Micro) : Bool :=
  let (d, a, b, c, x) := microUses m.opc
  (d || m.d == 0) && (a || m.a == 0) && (b || m.b == 0) && (c || m.c == 0) && (x || m.x == 0) && (m.opc != 0 || decide (m.x < 16))

/-- The words up to the first WEND, if the routine is accepted (R148). -/
def checkRoutine (ws : List Nat) : Option (List Nat) :=
  match ws with
  | [] => none
  | w :: r =>
    if !microOk (microOf w) then none
    else if w / 2 ^ 28 = 15 then some [w]
    else (checkRoutine r).map (w :: ·)

/-! ### Completion -/

/-- The result element (R365). -/
def oeElem (kind status cause flags value : Nat) : Word :=
  BitVec.ofNat 64 (kind * 2 ^ 60 + status * 2 ^ 56 + cause % 256 * 2 ^ 48 + flags % 32 * 2 ^ 32 + value % 2 ^ 32)

/-- The command completes with its element, when port 0x12 has space (R342). `keep` is then kind, status, cause, flags, value. -/
def State.oeFinish (s : State) (e : Entry) (f : MFields) (kind status cause flags value : Nat) (cover : List (Nat × Nat)) : State :=
  if !f.mode.getLsbD 24 then s.endEntry e
  else if s.fifoFull e.core 0x12 then
    s.putEntry { e with phase := 5, plan := [], keep := [kind, status, cause, flags, value]
                        parts := cover.zipIdx.map fun (x, i) => (i, [x.1, x.2]) }
  else (s.pushFifo e.core 0x12 (oeElem kind status cause flags value) cover).endEntry e

/-- OPRT (R360): read 16 words at s(O1), check them, install them. -/
def State.oprt (s : State) (f : MFields) (e : Entry) : State :=
  match e.phase, e.keep with
  | 5, [k, st, c, fl, v] => s.oeFinish e f k st c fl v []
  | _, _ =>
    let va := (smGet 0 e.o 1).toNat
    if va % 64 ≠ 0 then s.entryFault e causeMisalign 0 (smGet 0 e.o 1)
    else
      let (r, l) := ({ s } : Rd).block e va 64
      r.done e fun s =>
        match checkRoutine ((List.range 16).map fun i => leNat ((l.drop (4 * i)).take 4)) with
        | none => s.oeFinish e f 1 2 0 0 0 []
        | some ws => (s.modDie (dieOf e.core) fun x => { x with routines := smPut x.routines (f.mode.toNat % 16) ws }).oeFinish e f 1 0 0 0 0 []

/-- OPRT. -/
def execOprt (f : MFields) (s : State) : Out1 := s.dieInstr (.oprt f) fun s e => s.oprt f e

/-! ### The skip word (R364) -/

/-- OPSK: an atomic OR or clear of the stage's skip word at its home. -/
def State.opsk (s : State) (f : MFields) (e : Entry) : State :=
  let clr := f.mode.getLsbD 0
  let op : AmoOp := if clr then .and else .or
  let v : Word := if clr then 0 else BitVec.ofNat 64 (f.imm.toNat % 2 ^ 32)
  match e.phase, e.keep with
  | 5, [k, st, c, fl, w] => s.oeFinish e f k st c fl w []
  | 2, [addr] => s.oeFinish e f 2 0 0 0 (leNat ((List.range 8).map fun i => smGet 0 e.got (addr + i))) []
  | _, _ =>
    match e.strand.bind s.ownStage with
    | none => s.oeFinish e f 2 3 0 0 0 []
    | some (_, _, g) =>
      let va := g.skipaddr
      if va = 0 then s.oeFinish e f 2 3 0 0 0 []
      else
        let fault (s : State) (t : Trap) : State := s.entryFault e t.1 t.2 (BitVec.ofNat 64 va)
        let got (r : State × Fetch) : State :=
          match r with
          | (s, .bytes l) => s.oeFinish e f 2 0 0 0 (leNat l) []
          | (s, .trap t) => fault s t
          | (s, .consumed u _) => s.entryConsumed e u va
          | (s, _) => s.putEntry { e with phase := 1 }
        let send (s : State) (pa : Nat) : State :=
          let payload := [BitVec.ofNat 8 op.code.1, BitVec.ofNat 8 op.code.2, 0, 0, 0, 0, 0, 0] ++ leBytes 8 v.toNat ++ leBytes 8 0
          let (s, id) := s.request (dieOf e.core) (.entry e.core e.seq) (flitTo 4 pa (s.tenantOf e.core)) (BitVec.ofNat 64 va) 8 [payload]
          s.putEntry { e with phase := 2, waits := [id], keep := [pa] }
        match s.place e.core true .wr 3 (BitVec.ofNat 64 va) with
        | (s, .error t) => fault s t
        | (s, .ok (.mem pa)) => got (s.amoMem (e.who s) op pa v 0)
        | (s, .ok (.spm c off own)) => got (s.amoSpm (e.who s) op c off own v 0)
        | (s, .ok (.win w off)) =>
          (match s.winTarget e.core w true with
          | .error t => fault s t
          | .ok (node, c) => if node = s.node then got (s.amoSpm (e.who s) op c off false v 0) else send s (spmFlitAddr node c off))
        | (s, .ok (.remote pa)) =>
          if isHostRange (pa % 2 ^ 46) then fault s (causeAccess, 8)
          else if isDevReg (pa % 2 ^ 46) then fault s (causeAccess, 5)
          else send s pa
        | (s, .ok (.dev _)) => fault s (causeAccess, 5)
        | (s, .ok _) => fault s (causeAccess, 8)

/-- OPSK (R364). -/
def execOpsk (f : MFields) (s : State) : Out1 := s.dieInstr (.opsk f) fun s e => s.opsk f e

/-! ### Job cards (R361 to R363) -/

/-- A card: its first 512 bits and its streams. -/
structure Card where
  head : Nat
  streams : List Desc
  /-- the routine in its slot -/
  prog : List Micro

def Card.nstr (c : Card) : Nat := bitsOf c.head 14 12 + 1
def Card.rout (c : Card) : Nat := c.head % 16
def Card.rm (c : Card) : Nat := bitsOf c.head 10 8
def Card.sat (c : Card) : Bool := c.head.testBit 11
def Card.flagw (c : Card) : Nat := bitsOf c.head 63 32
def Card.syncobj (c : Card) : Nat := bitsOf c.head 127 64
def Card.const (c : Card) (j : Nat) : Val := ffDec ffF32 (c.head / 2 ^ (128 + 32 * j) % 2 ^ 32)
def Card.view (c : Card) (x : Nat) : View := viewOf ((c.streams[x]?).getD 0)

/-- The card in the words that an entry keeps (R361). -/
def cardOf (s : State) (die : Nat) (ws : List Nat) : Card :=
  let head := packBits 64 (ws.take 8)
  { head, streams := (List.range 8).map fun i => BitVec.ofNat 256 (packBits 64 ((ws.drop (8 + 4 * i)).take 4))
    prog := (smGet [] (s.dieAt die).routines (head % 16)).map microOf }

/-- Streams that the routine reads, writes straight, and writes transposed. -/
def Card.reads (c : Card) : List Nat := (c.prog.filterMap fun m => if m.opc = 0 && m.x < 8 then some m.x else none).eraseDups
def Card.puts (c : Card) : List Nat := (c.prog.filterMap fun m => if m.opc = 13 || m.opc = 14 then some m.x else none).eraseDups
def Card.pairs (c : Card) : List Nat := (c.prog.filterMap fun m => if m.opc = 14 then some m.x else none).eraseDups

/-- Elements of a stream that the card touches. -/
def Card.touched (c : Card) (x : Nat) : List (Nat × Nat) :=
  if c.reads.contains x then ((c.view 0).all ++ (if c.puts.contains x || c.pairs.contains (x - 1) && x != 0 then (c.view x).all else [])).eraseDups
  else (c.view x).all

/-- Two streams name the same elements exactly (R254). -/
def sameStream (a b : View) : Bool :=
  a.base == b.base && decide (a.estr = b.estr) && decide (a.rstr = b.rstr) && a.tr == b.tr && a.rows == b.rows && a.cols == b.cols
    && fmtBits a.fmt == fmtBits b.fmt

/-- The card is refused with status CARD (R362). -/
def State.cardBad (s : State) (e : Entry) (c : Card) : Bool :=
  let n := c.nstr
  let used := c.reads ++ c.puts ++ c.pairs.map (· + 1)
  let v0 := c.view 0
  let ext (x : Nat) : Ext := extOf e.core x (c.view x) (c.view x).all true
  bitsOf c.head 511 384 != 0 || bitsOf c.head 31 15 != 0 || bitsOf c.head 7 4 != 0 || used.any (fun x => decide (n ≤ x))
  || (List.range n).any (fun x => (s.meTdesc e ((c.streams[x]?).getD 0) true (c.touched x) true).isSome)
  || c.puts.any (fun x => (c.view x).vr != v0.vr || (c.view x).vc != v0.vc)
  || c.pairs.any (fun x => (c.view (x + 1)).vr != (c.view x).vc || (c.view (x + 1)).vc != (c.view x).vr
      || (((c.view x).blk != 0 || (c.view (x + 1)).blk != 0) && ((c.view x).blk != 3 || (c.view (x + 1)).blk != 3)))
  || (List.range n).any (fun x => (List.range x).any fun y => !sameStream (c.view x) (c.view y) && (extMeet (ext x) (ext y)).isSome)

/-- What a routine has done: operand registers of the element, values put so far by stream, flags of the element. -/
structure MicroState where
  q : SMap (List Val) := []
  puts : List (Nat × PutVal) := []
  flags : Nat := 0

/-- The sign of a value as a value (R362, WSGN), and NV for a signalling NaN (R109). -/
def valSgn (v : Val) : Val × Nat :=
  (match v with
  | .inf neg => .fin neg 1 1
  | .fin neg n _ => if n = 0 then valZero else .fin neg 1 1
  | _ => .nan, snanOf v)

/-- A micro-instruction at element (r, c), the `i`-th that is processed; `vals` gives each stream's value there (R362). A complex value
is worked on component by component (R250). DESIGN CHOICE (log 53): stochastic rounding takes the flat index in the view that is put to, for
the transposed put of WPST that of stream X + 1 (R119). Unsafe. -/
def microStep (cd : Card) (i : Nat) (rc : Nat × Nat) (vals : SMap (List Val)) (st : MicroState) (m : Micro) : MicroState :=
  let q (k : Nat) : List Val := smGet [valZero] st.q k
  let at1 (l : List Val) (k : Nat) : Val := (l[k]?).getD valZero
  let put (op : List Val → Val × Nat) (xs : List (List Val)) : MicroState :=
    let (v, fl) := partsOf op xs
    { st with q := smPut st.q m.d v, flags := st.flags ||| fl }
  let round (op : List Val → Val × Nat) (xs : List (List Val)) : MicroState := put (fun l => let x := op l; roundR x.1 x.2) xs
  let a := q m.a
  let ab := [q m.a, q m.b]
  let abc := [q m.a, q m.b, q m.c]
  let putVal (x : Nat) (p : Nat × Nat) : Nat × PutVal :=
    let j := p.1 * (cd.view x).vc + p.2
    (x, { j, vals := a, ix := j, lane := i })
  match m.opc with
  | 0x0 => { st with q := smPut st.q m.d (if m.x < 8 then smGet [valZero] vals m.x else [cd.const (m.x - 8)]) }
  | 0x1 => round (fun l => valAdd false (at1 l 0) (at1 l 1)) ab
  | 0x2 => round (fun l => valAdd false (at1 l 0) (valNeg (at1 l 1))) ab
  | 0x3 => round (fun l => valMul (at1 l 0) (at1 l 1)) ab
  | 0x4 => round (fun l => valFma false (at1 l 0) (at1 l 1) (at1 l 2)) abc
  | 0x5 => round (fun l => valDiv (at1 l 0) (at1 l 1)) ab
  | 0x6 => round (arith 0x0D 0 0 0) [a]
  | 0x7 => round (fun l => valSqrt (at1 l 0)) [a]
  | 0x8 => put (fun l => valMinMax true (at1 l 0) (at1 l 1)) ab
  | 0x9 => put (fun l => valMinMax false (at1 l 0) (at1 l 1)) ab
  | 0xA => put (fun l => valSgn (at1 l 0)) [a]
  | 0xB => put (fun l =>
      let (y, f1) := valMinMax true (at1 l 0) (at1 l 1)
      let (z, f2) := valMinMax false y (at1 l 2)
      (z, f1 ||| f2)) abc
  | 0xC => round (fun l =>
      let (d, f1) := valAdd false (at1 l 1) (valNeg (at1 l 0))
      let (p, f2) := valMul (at1 l 2) d
      let (v, f3) := valAdd false (at1 l 0) p
      (v, f1 ||| f2 ||| f3)) abc
  | 0xD => { st with puts := st.puts ++ [putVal m.x rc] }
  | 0xE => { st with puts := st.puts ++ [putVal m.x rc, putVal (m.x + 1) (rc.2, rc.1)] }
  | _ => st

/-- A put to the element that a later WLD reads: what WLD then finds (R362). A block-scaled stream's code is not known before its block
is whole, so its value is free. -/
def State.readBack (s : State) (e : Entry) (cd : Card) (rc : Nat × Nat) (puts : List (Nat × PutVal)) (x : Nat) :
    State × Option (List Val) :=
  let v := cd.view x
  let at1 (p : Nat × PutVal) : Bool := sameStream (cd.view p.1) v && (cd.view p.1).span ((cd.view p.1).flat p.2.j) == v.span rc
  match (puts.filter at1).getLast? with
  | none => (s, none)
  | some (y, p) =>
    if v.blk ≠ 0 || (cd.view y).blk ≠ 0 then let (k, s) := s.draw; (s, some [ffDec ffF32 (k.toNat % 2 ^ 32)])
    else
      let (s, ps, _) := s.putPlain e (cd.view y) (rmOf cd.rm e.rmode) cd.sat [p]
      (s, some (elemVal v ((ps.head?.map (·.2)).getD 0) none).1)

/-- The routine at one element. -/
def runMicro (e : Entry) (cd : Card) (i : Nat) (rc : Nat × Nat) : List Micro → State → SMap (List Val) → MicroState → State × MicroState
  | [], s, _, st => (s, st)
  | m :: r, s, vals, st =>
    let (s, vals) := if m.opc = 0 && m.x < 8 then
        match s.readBack e cd rc st.puts m.x with
        | (s, some v) => (s, smPut vals m.x v)
        | (s, none) => (s, vals)
      else (s, vals)
    runMicro e cd i rc r s vals (microStep cd i rc vals st m)

/-- A list in an order that is left open. -/
def State.shuffle {α : Type} (s : State) : List α → State × List α
  | [] => (s, [])
  | a :: r =>
    let (s, l) := s.shuffle r
    let (c, s) := s.choose (l.length + 1)
    (s, l.insertIdx c a)

/-- The values of the streams at the elements, in order, up to one that stops or is not there yet. -/
def Rd.streams (r : Rd) (e : Entry) (cd : Card) (rcs : List (Nat × Nat)) : Rd × List ((Nat × Nat) × SMap (List Val)) :=
  let (r, l) := rcs.foldl (fun (r, l) rc =>
    let (r, m) := cd.reads.foldl (fun (r, m) x => let (r, vs, _) := Rd.value r e (cd.view x) rc 2; (r, smPut m x vs)) (r, ([] : SMap (List Val)))
    (r, if r.stop.isSome || !r.need.isEmpty then l else (rc, m) :: l)) (r, ([] : List ((Nat × Nat) × SMap (List Val))))
  (r, l.reverse)

/-- A transposed copy lies where the routine reads or puts another element, so that the order of the elements shows. -/
def Card.crosses (c : Card) : Bool := c.pairs.any fun x => (c.reads ++ c.puts).any fun y => sameStream (c.view (x + 1)) (c.view y)

/-- Of several puts to one element of a block-scaled view, the last; and of them those whose block is whole. -/
def blockPuts (v : View) (l : List PutVal) : List PutVal :=
  let l := (l.foldl (fun m p => smPut m p.j p) ([] : SMap PutVal)).map (·.2)
  l.filter fun p => v.all.all fun rc => v.scaleIx rc != v.scaleIx (v.flat p.j) || l.any (·.j == rc.1 * v.vc + rc.2)

/-- The card's work on elements in their order: its writes, in the order in which they are made, and each element's flags (R362). A block
is written when all of its elements have been put. -/
def State.cardWork (s : State) (e : Entry) (cd : Card) (l : List ((Nat × Nat) × SMap (List Val))) : State × List Put × List Nat :=
  let rm := rmOf cd.rm e.rmode
  let (s, puts, fls) := l.zipIdx.foldl (fun (s, ps, fls) (x, i) =>
    let (s, st) := runMicro e cd i x.1 cd.prog s x.2 { puts := if cd.crosses then ps else [] }
    (s, if cd.crosses then st.puts else ps ++ st.puts, fls ++ [st.flags])) (s, ([] : List (Nat × PutVal)), ([] : List Nat))
  let isBlock (p : Nat × PutVal) : Bool := (cd.view p.1).blk != 0
  let (s, ps, fs) := (puts.filter fun p => !isBlock p).foldl (fun (s, ps, fs) p =>
    let (s, a, b) := s.putPlain e (cd.view p.1) rm cd.sat [p.2]
    (s, ps ++ a, fs ++ b)) (s, ([] : List Put), ([] : List (Nat × Nat)))
  let blocks := puts.filter isBlock
  let views := (blocks.map fun p => cd.view p.1).reverse.eraseDups.reverse
  let (ps, fs) := views.foldl (fun (ps, fs) v =>
    let (a, b) := putBlocks e v rm (blockPuts v ((blocks.filter fun p => cd.view p.1 == v).map (·.2)))
    (ps ++ a, fs ++ b)) (ps, fs)
  (s, ps, fls.zipIdx.map fun (fl, i) => fs.foldl (fun f y => if y.1 = i then f ||| y.2 else f) fl)

/-- The cause of a stop that a card reports (R363). -/
def stopCause : Stop → Option Nat
  | .trap t _ => some t.1
  | .consumed _ _ => some causePoison
  | .wait => none

/-- The flags of the first `k` elements that the card has processed. -/
def Entry.cardFlags (e : Entry) (k : Nat) : Nat := (e.parts.take k).foldl (fun f p => f ||| p.2.headD 0) 0

/-- A card stops at a fault, `k` elements having been processed (R363, R365). -/
def State.cardFault (s : State) (e : Entry) (f : MFields) (cause k : Nat) : State := s.oeFinish e f 0 4 cause (e.cardFlags k) k []

/-- A read of a card's engine before its first element: go on, stop with a status, or wait. -/
def Rd.card (r : Rd) (e : Entry) (f : MFields) (g : State → State) : State :=
  match r.stop with
  | some x => (match stopCause x with
    | some c => r.s.cardFault e f c 0
    | none => r.s.putEntry e)
  | none => if r.need.isEmpty then g r.s else r.s.ask e r.need

/-- The release of the card's object at package scope (R79, R363): the strand's bound copies of its regions are written back, the
writes are parity-complete, RELSEQ advances; then the element. -/
def State.cardRelease (s : State) (e : Entry) (f : MFields) (obj status : Nat) (cover : List (Nat × Nat)) : State :=
  let n := e.parts.length
  let fin (s : State) : State := s.oeFinish e f 0 status 0 (e.cardFlags n) n cover
  if obj = 0 then fin s
  else if obj % 64 ≠ 0 then s.cardFault e f causeMisalign n
  else match s.place e.core e.sup .wr 3 (BitVec.ofNat 64 obj) with
    | (s, .error t) => s.cardFault e f t.1 n
    | (s, .ok (.mem pa)) =>
      let s := s.performWhere fun x => x.core == e.core && x.touches (pa / 128)
      (match s.fetchMem (e.who s) pa 64 2 with
      | (s, .bytes _) =>
        let s := { s.unsure pa with cur := e.strand.getD s.cur }
        let rs := s.boundRegions pa
        (match ((if e.strand.isSome then s.writeBackRegions rs else (s, none)) : State × Option FillStop) with
        | (s, some (.trap t)) => s.cardFault e f t.1 n
        | (s, some (.consumed _ _)) => s.cardFault e f causePoison n
        | (s, some .wait) => s.putEntry e
        | (s, none) =>
          let s := if e.strand.isSome then s.flushStrand false else s
          if e.strand.isSome && !s.releaseReady rs 3 then s.putEntry e
          else fin (s.performMem 0 (e.who s).task pa (leBytes 8 (s.memNat pa 8 + 1))))
      | (s, .trap t) => s.cardFault e f t.1 n
      | (s, .consumed _ _) => s.cardFault e f causePoison n
      | (s, _) => s.putEntry e)
    | (s, .ok _) => s.cardFault e f causeAccess n

/-- The streams that the card writes. -/
def Card.written (c : Card) : List Nat := (c.puts ++ c.pairs.map (· + 1)).eraseDups

/-- The bytes that a card writes, as ranges for an acquire (R365). -/
def cardCover (core : Nat) (cd : Card) : List (Nat × Nat) :=
  cd.written.flatMap fun x => coverOf core (cd.view x) (cd.view x).all true

/-- Elements have been worked on: their writes follow, and `phase` says what after them. -/
def State.cardStart (s : State) (e : Entry) (cd : Card) (l : List ((Nat × Nat) × SMap (List Val))) (phase : Nat) (keep : List Nat) : State :=
  let (s, puts, fls) := s.cardWork e cd l
  let read := cd.reads.flatMap fun x => (extOf e.core x (cd.view x) (cd.touched x) true).spans
  let (s, puts) := if s.hiddenAlias e (puts.map (·.1)) read then s.freePuts puts else (s, puts)
  s.putEntry { e with phase, keep, got := [], plan := writePlan puts, parts := fls.zipIdx.map fun (fl, i) => (i, [fl]) }

/-- The card is whole and its routine is there: the stage's rule for non-finite gradients (R364), then its work, in an order of the
elements that is left open. Where a read stops it, some of the elements before that one have been processed. -/
def State.cardRun (s : State) (e : Entry) (f : MFields) (cd : Card) : State :=
  let g := (e.strand.bind s.ownStage).map (·.2.2)
  let mode := (g.map (·.nfmode)).getD 0
  let (r, word) := match g with
    | some g => if mode = 2 && g.skipaddr != 0 then
        let (r, l) := ({ s } : Rd).unit { e with sup := true } g.skipaddr 8 2; (r, leNat l) else (({ s } : Rd), 0)
    | none => ({ s }, 0)
  r.card e f fun s =>
    let skip := (mode = 1 && Nat.land cd.flagw ((g.map (·.nfmask)).getD 0) != 0) || word != 0
    if skip then s.cardRelease { e with phase := 6 } f cd.syncobj 1 []
    else
      let (s, order) := s.shuffle (cd.view 0).all
      let (r, l) := ({ s } : Rd).streams e cd order
      match r.stop.bind stopCause with
      | some c =>
        let (k, s) := r.s.choose (l.length + 1)
        s.cardStart e cd (l.take k) 8 (e.keep.take 40 ++ [c])
      | none => r.card e f fun s => s.cardStart e cd l 4 (e.keep.take 40)

/-- The writes that are left; `fin` runs when all are performed, parity-complete and acknowledged. A write that fails stops the card (R363), when a
number of elements had been processed that is left open (log 23). -/
def State.cardDrain (s : State) (e : Entry) (f : MFields) (fin : State → Entry → State) : State :=
  let fault (s : State) (c : Nat) : State :=
    let (k, s) := s.choose (e.parts.length + 1)
    s.cardFault e f c k
  match e.failed with
  | some (c, _) => fault s c
  | none =>
    match s.writeAll e e.plan with
    | (s, rest, some .wait) => s.putEntry { e with plan := rest }
    | (s, _, some x) => fault s ((stopCause x).getD 0)
    | (s, _, none) =>
      let e := { e with plan := [] }
      if s.posted.any fun p => p.strand == e.strand.getD 2047 && p.seq == e.seq && p.core == e.core then s.putEntry e
      else fin (s.completeWhere fun p => p.strand == e.strand) e

/-- A turn of OPJ once its card has been read. -/
def State.cardTurn (s : State) (e : Entry) (f : MFields) : State :=
  let cd := cardOf s (dieOf e.core) e.keep
  match e.phase with
  | 4 => s.cardDrain e f fun s e => s.cardRelease { e with phase := 7 } f cd.syncobj 0 (cardCover e.core cd)
  | 6 => s.cardRelease e f cd.syncobj 1 []
  | 7 => s.cardRelease e f cd.syncobj 0 (cardCover e.core cd)
  | 8 => s.cardDrain e f fun s e => s.cardFault e f ((e.keep[40]?).getD 0) e.parts.length
  | _ =>
    if s.cardBad e cd then s.oeFinish e f 0 3 0 0 0 []
    else if cd.prog.isEmpty then s.oeFinish e f 0 2 0 0 0 []
    else s.cardRun e f cd

/-- A turn of OPJ: the card is read once (R362). -/
def State.opj (s : State) (f : MFields) (e : Entry) : State :=
  match e.phase, e.keep with
  | 5, [k, st, c, fl, v] => s.oeFinish e f k st c fl v (e.parts.map fun p => ((p.2[0]?).getD 0, (p.2[1]?).getD 0))
  | _, _ =>
    if 40 ≤ e.keep.length then s.cardTurn e f
    else
      let va := (smGet 0 e.o 1).toNat
      if va % 64 ≠ 0 then s.oeFinish e f 0 3 0 0 0 []
      else
        let (r, l) := ({ s } : Rd).block e va 320
        r.card { e with phase := 1 } f fun s =>
          let keep := (List.range 40).map fun i => leNat ((l.drop (8 * i)).take 8)
          let e := { e with phase := 1, got := [], keep, covers := cardCover e.core (cardOf s (dieOf e.core) keep) }
          (s.putEntry e).cardTurn e f

/-- The units that a card may write (R87), by the card as it stands in memory when it is pushed. -/
def State.cardWrites (s : State) (e : Entry) : List Span :=
  let va := (smGet 0 e.o 1).toNat
  let words := (List.range 40).map fun i => match (s.place e.core e.sup .rd 3 (BitVec.ofNat 64 (va + 8 * i))).2 with
    | .ok (.mem pa) => s.memNat pa 8
    | _ => 0
  let cd := cardOf s (dieOf e.core) words
  cd.written.flatMap fun x => descBounds e.core ((cd.streams[x]?).getD 0)

/-- OPJ (R362): commit-class; its slot pushes the card once earlier work has ended, and closes the region. -/
def execOpj (f : MFields) (s : State) : Out1 :=
  match s.engine with
  | none => done (s.commitPush (.opj f) 16 fun s => (s.pushEntry (.opj f) 0 (s.earlier s.cur).1.cardWrites).committed)
  | some e => done (if e.runs then s.opj f e else s.endEntry e)

end Sys2Proof.Machine
end

