-- ==== Sys2Proof/Machine/StageSched.lean ====
section
/-!
DEFINITION. The stage scheduler: MB (R227), MOP 0x50 to 0x53 (R368, R371, R374, R375), NEWVER (R377) and the dispatch of stage
tasks (R48, R370 to R373).
-/
namespace Sys2Proof.Machine

/-! ### Arrivals, ends and versions (R227, R372, R376) -/

/-- A release at package scope of the strand's own stores (R79, R227); a store that a snoop still holds makes it wait. -/
def State.packageRelease (s : State) (why : Nat) (f : State → State) : State :=
  let s := s.flushStrand
  if s.stores.any fun x => x.strand == s.cur then s.modSt ({ · with blocked := why }) else f s

/-- MBPOST's status and effect (R227). -/
def State.postArrival (s : State) (tenant id kind tag : Nat) : State × Nat :=
  match s.findStage tenant id with
  | none => (s, 3)
  | some (d, sel, g) =>
    if kind = 3 then (s, 4)
    else if g.state ≠ 1 then (s, 2)
    else if 64 ≤ (g.queue kind).length then (s, 1)
    else (s.setStage d sel (g.setQueue kind (g.queue kind ++ [{ tag }])), 0)

/-- MBPOST (R227): an arrival without payload; a release at package scope. -/
def execMbpost (d a b : BitVec 6) (s : State) : Out1 :=
  let v := (s.rs a).toNat
  let tag := (s.rs b).toNat % 2 ^ 32
  done (s.packageRelease 1 fun s =>
    let (s, r) := s.postArrival (s.tenantOf s.curCore) (v % 256) (bitsOf v 9 8) tag
    s.boardS d.toNat (BitVec.ofNat 64 r))

/-- MBFIN (R227): commit-class; it finishes a kind of a tag of the strand's own stage. -/
def execMbfin (d a b : BitVec 6) (s : State) : Out1 :=
  let tag := (s.rs a).toNat % 2 ^ 32
  let kind := (s.rs b).toNat % 4
  done (s.commit fun s =>
    if s.st.stage.isNone then s.raise (causeAccess, 0x40) s.st.addr
    else s.packageRelease 6 fun s =>
      let (s, r) := match s.ownStage s.cur with
        | none => (s, 2)
        | some (die, sel, g) =>
          match g.tag tag with
          | none => (s, 2)
          | some t =>
            if t.finished.contains kind then (s, 1)
            else if !t.sent.contains kind then (s, 2)
            else (s.setStage die sel (g.finishKind tag kind), 0)
      (s.boardS d.toNat (BitVec.ofNat 64 r)).committed)

/-- MBVER (R227): the version that a tag of the strand's own stage is bound to. -/
def execMbver (d a _ : BitVec 6) (s : State) : Out1 :=
  let tag := (s.rs a).toNat % 2 ^ 32
  done (if s.st.stage.isNone then s.raise (causeAccess, 0x40) s.st.addr
    else s.boardS d.toNat (match (s.ownStage s.cur).bind fun p => p.2.2.tag tag with
      | some t => BitVec.ofNat 64 t.ver
      | none => BitVec.allOnes 64))

/-! ### Result elements (R378) -/

def mbsElem (kind status stage cause value : Nat) : Word :=
  BitVec.ofNat 64 (kind * 2 ^ 60 + status * 2 ^ 56 + stage % 256 * 2 ^ 48 + cause % 256 * 2 ^ 40 + value % 2 ^ 32)

/-- A command completes, when port 0x13 has space for its element (R342). -/
def State.mbsFinish (s : State) (e : Entry) (f : MFields) (kind status stage cause value : Nat) : State :=
  if !f.mode.getLsbD 24 then s.endEntry e
  else if s.fifoFull e.core 0x13 then s.putEntry { e with phase := 5, plan := [], keep := [kind, status, stage, cause, value] }
  else (s.pushFifo e.core 0x13 (mbsElem kind status stage cause value)).endEntry e

/-- A turn of an MBS command: an element that waits for space, or the command. -/
def State.mbsRun (s : State) (f : MFields) (e : Entry) (go : State → State) : State :=
  match e.phase, e.keep with
  | 5, [k, st, g, c, v] => s.mbsFinish e f k st g c v
  | _, _ => go s

/-- NEWVER (R377): the MBS of die `n` takes an element of port 0x13, when there is space for its result. An element that a
strand left behind names its core in `status`. -/
def execNewver (s : State) : Out1 :=
  let core := match s.ev.agent with
    | .strand n => coreOf n
    | _ => s.ev.status - 1
  let id := bitsOf s.ev.v.toNat 39 32
  let ver := s.ev.v.toNat % 2 ^ 32
  done (if s.fifoFull core 0x13 then (match s.ev.agent with
      | .strand _ => s
      | _ => s.postpone .newver)
    else
      let s := s.popInput 0x13
      let (s, status) := match s.stageOn s.ev.n (s.tenantOf core) id with
        | none => (s, 6)
        | some (sel, g) =>
          if (smFind g.vers ver).isNone && decide (8 ≤ g.vers.length) && g.vers.all fun p => p.2 != 0 then (s, 4)
          else
            let vers := if g.cur ≠ ver && smGet 0 g.vers g.cur = 0 then smDel g.vers g.cur else g.vers
            (s.setStage s.ev.n sel { g with cur := ver, vers := smPut vers ver (smGet 0 vers ver) }, 0)
      s.pushFifo core 0x13 (mbsElem 4 status id 0 ver))

/-! ### MBPOL and MBSTG (R368, R371) -/

/-- MBPOL (R371): a row of the policy table is replaced whole. -/
def State.mbpol (s : State) (f : MFields) (e : Entry) : State :=
  let id := f.mode.toNat % 256
  let v := f.imm.toNat % 2 ^ 32
  let bad := v % 128 != 0 || [7, 9, 11, 13, 15, 17, 19].any fun i => bitsOf v (i + 1) i == 3
  let d := dieOf e.core
  if bad then s.mbsFinish e f 2 7 id 0 0
  else match s.stageOn d (s.tenantOf e.core) id with
    | none => s.mbsFinish e f 2 6 id 0 0
    | some (sel, g) => (s.setStage d sel { g with rows := smPut g.rows (bitsOf f.mode.toNat 11 8) v }).mbsFinish e f 2 0 id 0 0

def execMbpol (f : MFields) (s : State) : Out1 := s.dieInstr (.mbpol f) fun s e => s.mbsRun f e fun s => s.mbpol f e

/-- The stage of a descriptor (R366, R368): DISABLED, with empty queues, no rows, no open channels and version 0. -/
def stageOf (tenant : Nat) (l : List Byte) : Stage :=
  let desc := (List.range 32).foldl (fun m i => smSet (0 : Word) m i (BitVec.ofNat 64 (leNat ((l.drop (8 * i)).take 8)))) []
  { id := (smGet 0 desc 0).toNat % 256, tenant, desc }

/-- A channel end's zero fields and alignment (R374). -/
def chanBad (g : Stage) (k : Nat) : Bool :=
  let lo := g.word (0x80 + 16 * k)
  lo.testBit 42 || lo % 2 ^ 28 != 0 || g.word (0x88 + 16 * k) % 4096 != 0

/-- A field breaks R366 or R367. -/
def stageBad (g : Stage) : Bool :=
  let ctl := g.word 0
  let w := g.word 0x30
  ([0x70, 0x78] ++ (List.range 8).map fun i => 0xC0 + 8 * i).any (fun o => g.word o != 0)
  || ctl / 2 ^ 42 != 0 || ctl.testBit 31 || ctl.testBit 23 || bitsOf ctl 15 10 != 0
  || g.cls == 3 || g.limit == 0 || decide (64 < g.limit) || g.nfmode == 3
  || g.word 8 / 2 ^ 56 != 0 || g.clmask == 0 || g.cmask == 0
  || g.entry 0 == 0 || [0, 1, 2].any (fun k => g.entry k % 4 != 0) || g.word 0x28 % 32 != 0
  || w / 2 ^ 40 != 0 || !windowsOk (w % 65536) (bitsOf w 31 16) (bitsOf w 35 32) (bitsOf w 39 36)
  || g.skipaddr % 8 != 0 || g.word 0x48 % 4096 != 0 || g.word 0x58 % 4096 != 0
  || g.word 0x50 % 8 != 0 || g.word 0x50 / 2 ^ 32 % 8 != 0 || g.word 0x60 % 4096 != 0
  || decide (g.word 0x68 < 4) || decide (16 < g.word 0x68) || [0, 1, 2, 3].any (chanBad g)

/-- The placement names a cluster of another stage, or of a die of another tenant (R32, R368). -/
def State.placeTaken (s : State) (g : Stage) : Bool :=
  s.dies.any (fun p => p.2.stages.any fun q => Nat.land q.2.clmask g.clmask != 0)
  || (List.range 48).any fun b => g.clmask.testBit b && (s.dieAt (b / 6)).tenant != g.tenant

/-- MBSTG.load (R368). -/
def State.mbstgLoad (s : State) (f : MFields) (e : Entry) : State :=
  let a := smGet 0 e.o 1
  let d := dieOf e.core
  let tenant := s.tenantOf e.core
  if !e.sup then s.mbsFinish e f 3 8 (bitsOf f.mode.toNat 15 8) 0 0
  else if a.toNat % 256 ≠ 0 then s.mbsFinish e f 3 10 0 0 0
  else
    let (r, l) := ({ s } : Rd).block e a.toNat 256
    match r.stop with
    | some (.trap t va) =>
      if t.1 = causeTenantKey then r.s.entryStop e (.trap t va) else r.s.mbsFinish e f 3 12 0 t.1 0
    | _ => r.done e fun s =>
      let g := stageOf tenant l
      let x := s.dieAt d
      match [0, 1].find? fun k => (smFind x.stages k).isNone with
      | none => s.mbsFinish e f 3 4 g.id 0 0
      | some sel =>
        if (s.findStage tenant g.id).isSome then s.mbsFinish e f 3 1 g.id 0 0
        else if s.placeTaken g then s.mbsFinish e f 3 9 g.id 0 0
        else if stageBad g then s.mbsFinish e f 3 10 g.id 0 0
        else (s.setStage d sel g).mbsFinish e f 3 0 g.id 0 0

/-- The other operations name a stage of this die's scheduler (R368). -/
def State.mbstgNamed (s : State) (f : MFields) (e : Entry) (op : State → Nat → Nat → Stage → State) : State :=
  let id := bitsOf f.mode.toNat 15 8
  let d := dieOf e.core
  if !e.sup then s.mbsFinish e f 3 8 id 0 0
  else match s.stageOn d (s.tenantOf e.core) id with
    | none => s.mbsFinish e f 3 6 id 0 0
    | some (sel, g) => (op s d sel g).mbsFinish e f 3 0 id 0 0

/-- ENABLE (R53, R368): a DISABLED stage starts with empty queues and its warm-up count. -/
def State.stageEnable (s : State) (d sel : Nat) (g : Stage) : State :=
  if g.state = 0 then s.setStage d sel { g with state := 1, fq := [], bq := [], wq := [], held := [], warm := g.warmup } else s

/-- Arrivals that are only partly there are discarded, and each of their senders is sent a channel-closed NAK (R66): at once where a
gateway is reassembling one of its messages, else when its next flit comes. -/
def State.dropArrivals (s : State) (d sel : Nat) (g : Stage) : State :=
  let ends := [0, 1, 2, 3].filter fun k => (g.chanEnd k).v && (g.chanEnd k).recv
  let mine (r : Reasm) : Bool := r.op == 5 && r.tenant == g.tenant && r.bad == 0 && ends.any fun k =>
    let c := g.chanEnd k; decide (c.rbase ≤ r.addr) && decide (r.addr < c.rbase + c.win * c.slotBytes)
  let parts := ends.flatMap fun k => (smGet {} g.chans k).got.map fun p => ((g.chanEnd k).pnode, p.2 / 2 ^ 24)
  let s := { s.setStage d sel { g with chans := g.chans.map fun (k, c) => (k, { c with got := [] }) } with closed := s.closed ++ parts }
  s.dies.foldl (fun s (k, x) => (x.reasm.filter mine).foldl (fun s r =>
    (s.modDie k fun y => { y with reasm := y.reasm.filter (· != r) }).nak k
      { op := 5, tc := r.tc, addr := r.addr, tenant := r.tenant, snode := r.snode, sdie := r.sdie, msgid := r.msgid, flast := r.flast
        chan := r.chan, dnode := s.node, ddie := k } 4) s) s

/-- DESTROY, with CANCEL where `cancel` (R53, R66, R368). -/
def State.stageDestroy (cancel : Bool) (s : State) (d sel : Nat) (g : Stage) : State :=
  if g.state = 0 then s.removeStage d sel g
  else
    let s := s.dropArrivals d sel { g with state := 2, cancel := g.cancel || cancel }
    let s := if !cancel then s else
      (s.tasks.filter fun p => p.2.origin == .stage d sel && p.2.state == .running).foldl (fun s p => s.cancelTask p.1) s
    s.drainStage d sel

/-- MBSTG.load (R368). -/
def execMbstgLoad (f : MFields) (s : State) : Out1 := s.dieInstr (.mbstgLoad f) fun s e => s.mbsRun f e fun s => s.mbstgLoad f e
/-- MBSTG.enable (R368). -/
def execMbstgEnable (f : MFields) (s : State) : Out1 :=
  s.dieInstr (.mbstgEnable f) fun s e => s.mbsRun f e fun s => s.mbstgNamed f e State.stageEnable
/-- MBSTG.destroy (R368). -/
def execMbstgDestroy (f : MFields) (s : State) : Out1 :=
  s.dieInstr (.mbstgDestroy f) fun s e => s.mbsRun f e fun s => s.mbstgNamed f e (State.stageDestroy false)
/-- MBSTG.cancel (R368). -/
def execMbstgCancel (f : MFields) (s : State) : Out1 :=
  s.dieInstr (.mbstgCancel f) fun s e => s.mbsRun f e fun s => s.mbstgNamed f e (State.stageDestroy true)

/-! ### Tensor channels (R374, R375, R493, R494) -/

/-- What a tensor message says of its channel and of the image it belongs to (log 22). -/
structure TensorMsg where
  /-- the stage it goes to, the stage and the package it comes from -/
  peer : Nat
  own : Nat
  node : Nat
  win : Nat
  rbase : Nat
  slotBytes : Nat
  slot : Nat
  tag : Nat := 0
  /-- bytes of the whole image, and a number that all messages of one image share -/
  len : Nat := 0
  image : Nat := 0
  sup : Bool := false
  /-- MBRLS: a credit that comes back, and no data -/
  release : Bool := false
deriving DecidableEq, Repr

def TensorMsg.toList (m : TensorMsg) : List Nat :=
  [m.peer, m.own, m.node, m.win, m.rbase, m.slotBytes, m.slot, m.tag, m.len, m.image, if m.sup then 1 else 0, if m.release then 1 else 0]

def TensorMsg.ofList : List Nat → Option TensorMsg
  | [peer, own, node, win, rbase, slotBytes, slot, tag, len, image, sup, rel] =>
    some { peer, own, node, win, rbase, slotBytes, slot, tag, len, image, sup := sup == 1, release := rel == 1 }
  | _ => none

/-- The end that pairs with a message's (R374): die, place, stage and end. Of several, the one with the same RBASE. -/
def State.tensorEnd (s : State) (tenant : Nat) (m : TensorMsg) : Option (Nat × Nat × Stage × Nat) :=
  (s.findStage tenant m.peer).bind fun (d, sel, g) =>
    let ks := [0, 1, 2, 3].filter fun k =>
      let c := g.chanEnd k
      c.v && c.recv == !m.release && c.pstage == m.own && c.pnode == m.node && c.win == m.win
    ((ks.find? fun k => (g.chanEnd k).rbase == m.rbase).or ks.head?).map fun k => (d, sel, g, k)

def Stage.modChan (g : Stage) (k : Nat) (f : ChanState → ChanState) : Stage := { g with chans := smPut g.chans k (f (smGet {} g.chans k)) }

/-- Write bytes of a tensor message in the receiving tenant's space, through the page table of `core`'s die (R375): a NAK code,
0 for none; or none while the host must give up a line. The bytes are then parity-complete. -/
def State.tensorPut (s : State) (core : Nat) (sup : Bool) (va : Nat) (bs : List Byte) : State × Option Nat :=
  let parts := (List.range ((va % 128 + bs.length + 127) / 128)).map fun i =>
    let lo := max va (va / 128 * 128 + i * 128)
    let hi := min (va + bs.length) (va / 128 * 128 + (i + 1) * 128)
    (lo, (bs.drop (lo - va)).take (hi - lo))
  let (s, ps) := parts.foldl (fun (s, ps) (a, b) => let (s, p) := s.place core sup .wr 4 (BitVec.ofNat 64 a); (s, ps ++ [(p, b)])) (s, [])
  match ps.findSome? fun p => match p.1 with
      | .error t => some (if t.1 = causeTenantKey then 2 else 3)
      | .ok (.mem _) | .ok (.host _) => none
      | _ => some 3 with
  | some c => (s, some c)
  | none =>
    let wait := ps.filterMap fun p => match p.1 with
      | .ok (.mem pa) => if s.held.contains (pa / 128) then some (pa / 128) else none
      | _ => none
    if !wait.isEmpty then (wait.foldl State.snoopLine s, none)
    else (ps.foldl (fun s p => match p.1 with
      | .ok (.mem pa) =>
        ((s.performWhere fun x => x.touches (pa / 128)).performMem (s.tenantOf core) 0 pa p.2).completeWhere fun q => q.line == pa / 128
      | .ok (.host pa) => s.hostPost (s.tenantOf core) pa p.2
      | _ => s) s, some 0)

/-- `n` more bytes of an image are written: the receiver's tests and, once every byte is there, the arrival (R375). -/
def State.tensorAppend (s : State) (tenant : Nat) (m : TensorMsg) (n : Nat) : State × Nat :=
  match s.tensorEnd tenant m with
  | none => (s, 5)
  | some (d, sel, g, k) =>
    let kind := if (g.chanEnd k).bq then 1 else 0
    let old := smGet 0 (smGet {} g.chans k).got m.slot
    let got := (if old / 2 ^ 24 = m.image then old % 2 ^ 24 else 0) + n
    if g.state ≠ 1 then (s, 4)
    else if got < m.len then (s.setStage d sel (g.modChan k fun c => { c with got := smPut c.got m.slot (m.image * 2 ^ 24 + got) }), 0)
    else if 64 ≤ (g.queue kind).length then (s, 6)
    else
      let g := g.modChan k fun c => { c with got := smDel c.got m.slot, filled := m.slot :: c.filled.filter (· != m.slot) }
      (s.setStage d sel (g.setQueue kind (g.queue kind ++ [{ tag := m.tag, via := some (k, m.slot) }])), 0)

/-- A slot's credit comes back to the end that sends on it (R375). -/
def State.creditBack (s : State) (tenant : Nat) (m : TensorMsg) : State :=
  match s.tensorEnd tenant { m with release := true } with
  | none => s
  | some (d, sel, g, k) => s.setStage d sel (g.modChan k fun c => { c with taken := c.taken.filter (· != m.slot) })

/-- MBSEND's status for a NAK code (R375, R489, R499): status and cause. -/
def nakStatus (code : Nat) : Nat × Nat :=
  match code with
  | 0 => (0, 0)
  | 2 => (12, causeTenantKey)
  | 3 => (12, causeAccess)
  | 4 => (2, 0)
  | 5 => (3, 0)
  | _ => (4, 0)

/-- MBSEND and MBRLS: the strand's own stage, its end and the message they make (R375). -/
structure ChanJob where
  d : Nat
  sel : Nat
  g : Stage
  k : Nat
  tag : Nat

def State.chanJob (s : State) (f : MFields) (e : Entry) : Option ChanJob :=
  (e.strand.bind s.ownStage).map fun (d, sel, g) =>
    { d, sel, g, k := f.mode.toNat % 4, tag := (smGet 0 e.o 1).toNat % 2 ^ 32 }

def ChanJob.c (j : ChanJob) : ChanEnd := j.g.chanEnd j.k
def ChanJob.slot (j : ChanJob) : Nat := j.tag % j.c.win
def ChanJob.msg (j : ChanJob) (node : Nat) : TensorMsg :=
  { peer := j.c.pstage, own := j.g.id, node, win := j.c.win, rbase := j.c.rbase, slotBytes := j.c.slotBytes, slot := j.slot, tag := j.tag }

/-- The flits of a message, the first ones on reserve credits (R494). -/
def tensorFlits (f : Flit) (chan credits : Nat) (bs : List Byte) : List Flit :=
  (chunksOf 256 bs).zipIdx.map fun (b, i) =>
    { f with payload := b, rsv := if i < credits then 0 else 1, chan := if i < credits then chan else 0 }

/-- The image leaves for another package in messages of at most 16 KiB (R375, R490). -/
def State.tensorSend (s : State) (e : Entry) (j : ChanJob) (image : List Byte) : State :=
  let tenant := s.tenantOf e.core
  let m := { j.msg s.node with len := image.length, image := s.nextId, sup := e.sup }
  let base := j.c.rbase + j.slot * j.c.slotBytes
  let (s, ids, left) := (chunksOf 16384 image).zipIdx.foldl (fun (s, ids, left) (b, i) =>
    let fs := tensorFlits { op := 5, addr := base + i * 16384, tenant, dnode := j.c.pnode, more := m.toList } (4 * j.sel + j.k) left b
    let (s, id) := s.sendFlits (dieOf e.core) (.entry e.core e.seq) { op := 5, addr := base + i * 16384, tenant } 0 b.length fs
    (s, ids ++ [id], left - fs.length)) (s, ([] : List Nat), (smGet {} j.g.chans j.k).credits)
  let s := s.setStage j.d j.sel (j.g.modChan j.k fun c => { c with taken := j.slot :: c.taken, credits := left })
  s.putEntry { e with phase := 2, got := [], waits := ids, parts := [] }

/-- The image is delivered within the package (R375). -/
def State.tensorLocal (s : State) (e : Entry) (f : MFields) (j : ChanJob) (image : List Byte) : State :=
  let tenant := s.tenantOf e.core
  let m := { j.msg s.node with len := image.length, image := s.nextId, sup := e.sup }
  let end1 (s : State) (code : Nat) : State :=
    let (st, cause) := nakStatus code
    s.mbsFinish e f 0 st j.g.id cause j.tag
  match s.tensorEnd tenant m with
  | none => end1 s 5
  | some (d, _, _, _) =>
    match s.tensorPut (d * Config.coresPerDie) e.sup (j.c.rbase + j.slot * j.c.slotBytes) image with
    | (s, none) => s.putEntry { e with phase := 1 }
    | (s, some 0) =>
      let (s, code) := s.tensorAppend tenant m image.length
      if code ≠ 0 then end1 s code
      else match s.chanJob f e with
        | some j => end1 (s.setStage j.d j.sel (j.g.modChan j.k fun c => { c with taken := j.slot :: c.taken })) 0
        | none => end1 s 0
    | (s, some code) => end1 s code

/-- A turn of MBSEND (R375): its answers are in, or its tests and its image. -/
def State.mbsend (s : State) (f : MFields) (e : Entry) : State :=
  match s.chanJob f e with
  | none => s.mbsFinish e f 0 3 0 0 0
  | some j =>
    if e.phase = 2 then
      let code := smGet [] e.parts 0 |>.headD 0
      let (st, cause) := nakStatus code
      let s := if code = 0 then s else
        s.setStage j.d j.sel (j.g.modChan j.k fun c => { c with taken := c.taken.filter (· != j.slot) })
      s.mbsFinish e f 0 st j.g.id cause j.tag
    else
      let v := e.view 1
      if !j.c.v || j.c.recv then s.mbsFinish e f 0 3 j.g.id 0 j.tag
      else if j.c.slotBytes < v.imageLen then s.mbsFinish e f 0 5 j.g.id 0 j.tag
      else if (smGet {} j.g.chans j.k).taken.contains j.slot then s.mbsFinish e f 0 1 j.g.id 0 j.tag
      else
        let (r, cs) := v.all.foldl (fun (r, cs) rc => let (r, c) := Rd.code r e v rc 2; (r, c :: cs)) (({ s } : Rd), ([] : List Nat))
        match r.stop with
        | some x => (match stopCause x with
          | some c => r.s.mbsFinish e f 0 12 j.g.id c j.tag
          | none => r.s.putEntry { e with phase := 1 })
        | none =>
          if !r.need.isEmpty then r.s.ask e r.need
          else
            let image := leBytes v.imageLen (packBits (fmtBits v.fmt) cs.reverse)
            if j.c.pnode = s.node then r.s.tensorLocal e f j image else r.s.tensorSend e j image

/-- The checks of MBSEND that precede its commit (R36, R343, R375): the trap they raise. -/
def State.sendCheck (s : State) (f : MFields) : Option Trap :=
  let e := s.entryOf (.mbsend f)
  let v := e.view 1
  if s.st.stage.isNone then some (causeAccess, 0x40)
  else (firstDesc [(f.t1.toNat, s.meTdesc e (e.desc 1) (decide (v.kind ≤ 2)) v.all false)]).map fun aux => (causeTdesc, aux)

/-- The units that MBSEND may write on this package (R87): the slot of a receive ring here. -/
def State.sendWrites (s : State) (f : MFields) (e : Entry) : List Span :=
  match s.chanJob f e with
  | some j => if j.c.pnode = s.node then [(((j.c.rbase + j.slot * j.c.slotBytes : Nat) : Int) * 8, (e.view 1).imageLen * 8)] else []
  | none => []

/-- MBSEND (R375): commit-class; its slot makes the precise checks, pushes the entry and closes the region. -/
def execMbsend (f : MFields) (s : State) : Out1 :=
  match s.engine with
  | none => done (s.commitPush (.mbsend f) 16 fun s =>
      match (if s.st.src.guard f.ga then s.sendCheck f else none) with
      | some t => s.raise t s.st.addr
      | none => (s.pushEntry (.mbsend f) 0 (s.sendWrites f)).committed)
  | some e => done (if e.runs then s.mbsRun f e fun s => s.mbsend f e else s.endEntry e)

/-- A turn of MBRLS (R375): the receive slot is freed and its credit goes back. -/
def State.mbrls (s : State) (f : MFields) (e : Entry) : State :=
  match s.chanJob f e with
  | none => s.entryFault e causeAccess 0x40 e.addr
  | some j =>
    if !j.c.v || !j.c.recv then s.mbsFinish e f 1 3 j.g.id 0 j.tag
    else if !(smGet {} j.g.chans j.k).filled.contains j.slot then s.mbsFinish e f 1 11 j.g.id 0 j.tag
    else
      let tenant := s.tenantOf e.core
      let m := { j.msg s.node with release := true }
      let s := s.setStage j.d j.sel (j.g.modChan j.k fun c => { c with filled := c.filled.filter (· != j.slot) })
      let s := if j.c.pnode = s.node then s.creditBack tenant m
        else (s.sendFlits (dieOf e.core) (.die (dieOf e.core)) { op := 5, tenant } 0 0
          [{ op := 5, addr := 0, tenant, dnode := j.c.pnode, more := m.toList }]).1
      s.mbsFinish e f 1 0 j.g.id 0 j.tag

/-- MBRLS (R375). -/
def execMbrls (f : MFields) (s : State) : Out1 := s.dieInstr (.mbrls f) fun s e => s.mbsRun f e fun s => s.mbrls f e

/-! ### Evaluation and dispatch (R48, R370 to R373) -/

/-- An arrival may be dispatched (R372). -/
def Stage.dispatchable (g : Stage) (kind : Nat) (a : Arrival) : Bool :=
  match g.tag a.tag with
  | none => kind == 0 && decide (g.tags.length < g.limit)
  | some t => !t.running.contains kind && !t.finished.contains kind && (kind == 0 || t.finished.contains (kind - 1))

/-- Arrivals of a kind that has finished for a tag in flight leave the queues (R372). -/
def Stage.purge (g : Stage) : Stage :=
  let old (kind : Nat) (a : Arrival) : Bool := match g.tag a.tag with
    | some t => t.finished.contains kind
    | none => false
  { g with fq := g.fq.filter fun a => !old 0 a, bq := g.bq.filter fun a => !old 1 a, wq := g.wq.filter fun a => !old 2 a }.refillW

/-- A two-bit predicate of a row. -/
def predHolds (row at1 : Nat) (c : Bool) : Bool :=
  let v := bitsOf row (at1 + 1) at1
  v == 0 || (v == 1 && c) || (v == 2 && !c)

/-- A row's predicates hold (R370). -/
def State.rowHolds (s : State) (d : Nat) (g : Stage) (row : Nat) : Bool :=
  let occ := (g.dies.map fun k => s.occupancy k g).foldl max 0
  row.testBit 31 && predHolds row 19 (decide (bitsOf row 28 21 ≤ (s.dieAt d).allow)) && predHolds row 17 (g.warm != 0)
  && predHolds row 15 (decide (occ < g.sthr)) && predHolds row 13 (decide (g.tags.length < g.limit))
  && predHolds row 11 (!g.wq.isEmpty) && predHolds row 9 (!g.bq.isEmpty) && predHolds row 7 (!g.fq.isEmpty)

/-- The first row that matches, and the kind and arrival it picks (R370, R372). -/
def State.stagePick (s : State) (d : Nat) (g : Stage) : List Nat → Option (Nat × Arrival)
  | [] => none
  | r :: rest =>
    let row := smGet 0 g.rows r
    if !s.rowHolds d g row then s.stagePick d g rest
    else match bitsOf row 30 29 with
      | 0 => none
      | k + 1 => match (g.queue k).find? (g.dispatchable k) with
        | some a => some (k, a)
        | none => s.stagePick d g rest

/-- The scheduler evaluates the stage's table now (R373). -/
def State.stageOpen (s : State) (g : Stage) : Bool := g.state == 1 && g.cores.all s.coreFree

/-- An evaluation would change something. -/
def State.stageReady (s : State) (d : Nat) (g : Stage) : Bool :=
  s.stageOpen g && (g.purge != g || (s.stagePick d g.purge (List.range 16)).isSome)

/-- The tag in flight of an arrival that is dispatched: an F of a new tag takes the lowest slot and the current version. -/
def Stage.bindTag (g : Stage) (kind tag : Nat) : Stage × TagState :=
  match g.tag tag with
  | some t => (g, t)
  | none =>
    if kind ≠ 0 then (g, {}) else
    let slot := ((List.range 64).find? fun i => !g.tags.any fun p => p.2.slot == i).getD 0
    let t : TagState := { birth := g.births, slot, ver := g.cur }
    ({ g with births := g.births + 1, tags := smPut g.tags tag t, vers := smPut g.vers g.cur (smGet 0 g.vers g.cur + 1) }, t)

/-- The stage after an arrival of a kind is dispatched (R372, R376). -/
def Stage.dispatch (g : Stage) (kind : Nat) (a : Arrival) : Stage × TagState :=
  let g := (g.setQueue kind ((g.queue kind).erase a)).refillW
  let (g, t) := g.bindTag kind a.tag
  let g := if kind = 0 then { g with warm := g.warm - 1 } else g
  let t := { t with sent := if t.sent.contains kind then t.sent else kind :: t.sent
                    running := if g.entry kind = 0 then t.running else kind :: t.running }
  ({ g with tags := smPut g.tags a.tag t }, t)

/-- The gang cores' L1 sectors with bytes of the arrival's receive slot are invalidated (R373). -/
def State.dropSlot (s : State) (g : Stage) (a : Arrival) : State :=
  match a.via with
  | none => s
  | some (k, slot) =>
    let c := g.chanEnd k
    g.cores.foldl (fun s core => (List.range (c.slotBytes / 4096)).foldl (fun s i =>
      match s.paOf core (c.rbase + slot * c.slotBytes + i * 4096) with
      | some pa => s.dropL1 core pa 4096
      | none => s) s) s

/-- A stage task starts, or is left to retire FAULTED where its table cannot be read (R48). -/
def State.startStage (s : State) (d sel : Nat) (g : Stage) (kind : Nat) (a : Arrival) (t : TagState) (tab : Except (Nat × Nat) (SMap Desc)) : State :=
  let task : Task := { origin := .stage d sel, tenant := g.tenant, tag := BitVec.ofNat 32 a.tag, kind, birth := t.birth }
  match tab with
  | .error (cause, va) => (s.newTask { task with status := 1, cause, info := BitVec.ofNat 64 va }).1
  | .ok tab =>
    let w := g.word 0x30
    let (s, id) := s.newTask { task with gang := g.cores }
    s.startGang id g.cores
      { pc := g.entry kind, s1 := BitVec.ofNat 64 a.tag, s2 := BitVec.ofNat 64 t.ver, s3 := BitVec.ofNat 64 t.slot, s4 := BitVec.ofNat 64 kind
        t := tab, cls := g.cls, seed := some (g.word 0x38 % 2 ^ 32), stage := some g.id
        spmBase := w % 65536 * 4096, spmLen := bitsOf w 31 16 * 4096, accBase := bitsOf w 35 32, accN := bitsOf w 39 36 }

/-- One dispatch of a stage's pick (R48, R372, R373), unless the host must give up a line of the table first. -/
def State.stageDispatch (s : State) (d sel : Nat) (g : Stage) (kind : Nat) (a : Arrival) : State :=
  let (g, t) := g.dispatch kind a
  if g.entry kind = 0 then s.setStage d sel (g.finishKind a.tag kind)
  else
    let go (s : State) (tab : Except (Nat × Nat) (SMap Desc)) : State :=
      ((s.setStage d sel g).dropSlot g a).startStage d sel g kind a t tab
    let tdtab := g.word 0x28
    if tdtab = 0 then go s (.ok [])
    else match s.devGet (tableKey d sel) none (d * Config.coresPerDie) tdtab 2048 with
      | (s, .wait) => s
      | (s, .fail c _ va) => go s (.error (c, va))
      | (s, .bytes l) => go s (.ok (tableOf l))

/-- STAGE_DISPATCH (R48, R373): the scheduler of die `n` evaluates the table of its stage `k`. -/
def execStageDispatch (s : State) : Out1 :=
  let d := s.ev.n
  let sel := s.ev.k
  done (match smFind (s.dieAt d).stages sel with
    | none => s
    | some g0 =>
      if !s.stageOpen g0 then s
      else
        let g := g0.purge
        let s := s.setStage d sel g
        match s.stagePick d g (List.range 16) with
        | none => s
        | some (kind, a) => s.stageDispatch d sel g kind a)

end Sys2Proof.Machine
end

