-- ==== Sys2Proof/Machine/Requests.lean ====
section
/-!
DEFINITION. Request flits at their destination die (R480, R481, R490, R492, R498): WRITE, WRITEM, READ, ATOMIC and TENSOR. The router
has accepted them (R486); each answers with an ACK, DATA or a NAK (R489).
-/
namespace Sys2Proof.Machine

/-- The runs of bytes that a mask selects, with the number of the first. -/
def maskRuns (i : Nat) : List (Byte × Byte) → List (Nat × List (Byte × Byte)) → List (Nat × List (Byte × Byte))
  | [], acc => acc
  | p :: r, acc =>
    maskRuns (i + 1) r (if p.2 = 0 then acc
      else match acc with
        | (a, l) :: t => if a + l.length = i then (a, l ++ [p]) :: t else (i, [p]) :: acc
        | [] => [(i, [p])])

/-- Write a run at its place, on behalf of a tenant (R91, R94). -/
def State.putRun (s : State) (tenant : Nat) (t : Target) (run : Nat × List (Byte × Byte)) : State :=
  let (off, l) := run
  let bs := l.map (·.1)
  let ms := l.map (·.2)
  match t with
  | .spm core o =>
    let (s, old) := s.readSpm core (o + off) l.length
    s.writeSpm core (o + off) (maskBytes old bs ms)
  | .mem a => s.performMem tenant 0 (a + off) (maskBytes (s.memBytes (a + off) l.length) bs ms)
  | .host a => s.hostPost tenant (a + off) bs (if ms.all (· == 0xFF) then [] else ms)
  | .dev _ => s

def State.putTarget (s : State) (tenant : Nat) (t : Target) (l : List (Byte × Byte)) : State :=
  ((maskRuns 0 l []).reverse).foldl (fun s r => s.putRun tenant t r) s

/-- The lines of a target that the host must give up first (R441). -/
def State.heldLines (s : State) (t : Target) (n : Nat) : List Nat :=
  match t with
  | .mem a => ((List.range ((a + n + 127) / 128 - a / 128)).map (a / 128 + ·)).filter (s.held.contains ·)
  | _ => []

/-! ### Reassembly (R490) -/

def Reasm.isOf (r : Reasm) (f : Flit) : Bool := r.snode == f.snode && r.sdie == f.sdie && r.msgid == f.msgid

/-- The parity updates of the lines of a target complete, before its write is acknowledged (R95). -/
def State.settleLines (s : State) (t : Target) (n : Nat) : State :=
  match t with
  | .mem a => s.completeWhere fun p => decide (a / 128 ≤ p.line) && decide (p.line ≤ (a + n - 1) / 128)
  | _ => s

/-- A flit of a message that has come before. -/
def State.duplicate (s : State) (d : Nat) (f : Flit) : Bool := (s.dieAt d).reasm.any fun r => r.isOf f && r.bitmap.testBit f.fidx

/-- The entry of a flit's message, a new one if there is none. -/
def State.reasmFor (s : State) (d : Nat) (f : Flit) : Reasm :=
  ((s.dieAt d).reasm.find? (·.isOf f)).getD
    { addr := f.addr, tenant := f.tenant, snode := f.snode, sdie := f.sdie, msgid := f.msgid, flast := f.flast, chan := f.chan, tc := f.tc, op := f.op }

/-- A flit of a message is performed, or refused with a NAK code: the message's entry once every flit has come. -/
def State.assemble (s : State) (d : Nat) (f : Flit) (bad : Nat) : State × Option Reasm :=
  let r := s.reasmFor d f
  let r := { r with
    bitmap := r.bitmap ||| 2 ^ f.fidx, credits := r.credits + (1 - f.rsv)
    bad := if r.bad = 0 then bad else r.bad }
  let rest := (s.dieAt d).reasm.filter fun q => !q.isOf f
  if r.bitmap = 2 ^ (r.flast + 1) - 1 then (s.modDie d ({ · with reasm := rest }), some r)
  else (s.modDie d ({ · with reasm := rest ++ [r] }), none)

/-- A flit is refused with a code: it counts as come, and its message is not acknowledged. -/
def State.refuseFlit (s : State) (d : Nat) (f : Flit) (code : Nat) : State :=
  let s := (s.assemble d f code).1
  if code = 2 then s.nakToken d f else s.nak d f code

/-- Every flit of a message has been performed: one ACK, unless one was refused. -/
def State.endMessage (s : State) (d : Nat) (f : Flit) : State :=
  match s.assemble d f 0 with
  | (s, some r) => if r.bad = 0 then s.ack d f false r.credits else s
  | (s, none) => s

/-! ### WRITE and WRITEM -/

/-- WRITE (R480, R490): a flit at die `n`. -/
def execWrite (s : State) : Out1 :=
  let d := s.ev.n
  let f := s.ev.flit
  done (if s.duplicate d f then s
    else match s.target (f.addr + 256 * f.fidx) with
      | none | some (.dev _) => s.refuseFlit d f 3
      | some t =>
        if !s.tokenOk d f (s.targetOwner t) then s.refuseFlit d f 2
        else match s.heldLines t f.payload.length with
          | [] => ((s.putTarget f.tenant t (f.payload.map fun b => (b, 0xFF))).settleLines t f.payload.length).endMessage d f
          | l => (l.foldl State.snoopLine s).postpone .write)

/-- The stream of a posted write (R492). -/
def streamKey (f : Flit) : Nat := f.snode * 2048 + f.sstr

/-- The predecessor of a posted write has been performed (R492). -/
def State.streamReady (s : State) (d : Nat) (f : Flit) : Bool :=
  f.prev == f.lseq || (smGet [] (s.dieAt d).streams (streamKey f)).contains f.prev

/-- A posted write has been performed: writes that waited for it go on (R492), and it is acknowledged. -/
def State.endWritem (s : State) (d : Nat) (f : Flit) : State :=
  let k := streamKey f
  let s := s.modDie d fun x => { x with streams := smPut x.streams k ((f.lseq :: smGet [] x.streams k).take 128) }
  let next := (s.dieAt d).waiting.filter fun g => streamKey g == k && g.prev == f.lseq
  let s := s.modDie d fun x => { x with waiting := x.waiting.filter fun g => !(streamKey g == k && g.prev == f.lseq) }
  (s.post (next.map fun g => (.writem, { agent := .remote g.snode, n := d, flit := g }))).ack d f false 0

/-- The register that a line's mask names: eight whole bytes, and no others (R508). -/
def lineReg (off : Nat) (l : List (Byte × Byte)) : Option (Nat × Word) :=
  match maskRuns 0 l [] with
  | [(i, run)] =>
    if run.length = 8 && i % 8 == 0 && run.all (·.2 == 0xFF) then some (off + i, BitVec.ofNat 64 (leNat (run.map (·.1)))) else none
  | _ => none

/-- WRITEM (R480, R492): one masked line at die `n`. -/
def execWritem (s : State) : Out1 :=
  let d := s.ev.n
  let f := s.ev.flit
  let l := (f.payload.take 128).zip (f.payload.drop 128)
  done (match s.target f.addr with
    | none => s.nak d f 3
    | some t =>
      if !s.tokenOk d f (s.targetOwner t) then s.nakToken d f
      else if !s.streamReady d f then s.modDie d fun x => { x with waiting := x.waiting ++ [f] }
      else match t with
        | .dev off =>
          (match lineReg off l with
            | some (o, v) => match devReg o with
              | some r => (s.post (s.devWrites (.remote f.snode) 0 o r v)).endWritem d f
              | none => s.nak d f 3
            | none => s.nak d f 3)
        | t => match s.heldLines t 128 with
          | [] => ((s.putTarget f.tenant t l).settleLines t 128).endWritem d f
          | h => (h.foldl State.snoopLine s).postpone .writem)

/-! ### READ and ATOMIC -/

/-- The bytes that a request from another package reads: none where they cannot be delivered (log 30). -/
def State.serveRead (s : State) (tenant : Nat) (t : Target) (n : Nat) : State × Option (List Byte) :=
  match t with
  | .spm core off =>
    if 0x400000 < off + n then (s, none)
    else match s.scanSpm core tenant 0 off n with
      | (s, .ok) => let (s, l) := s.readSpm core off n; (s, some l)
      | (s, _) => (s, none)
  | .mem a =>
    (match s.scanMem tenant 0 a n with
      | (s, .ok) => (s, some (s.memBytes a n))
      | (s, .poison addr k) => (s.rasWrite (homeOf addr).1 { addr, kind := 7, tenant, unit := 5, stack := k }, none)
      | (s, .consumed _ _) => (s, none))
  | .dev off =>
    if n ≠ 8 then (s, none)
    else match devReg off with
      | some r => let (s, v) := s.devRead r; (s, some (leBytes 8 v.toNat))
      | none => (s, none)
  | .host _ => (s, none)

/-- READ (R480): a request at die `n`. A read of this package's host memory is asked of the host first. -/
def execRead (s : State) : Out1 :=
  let d := s.ev.n
  let f := s.ev.flit
  let n := leNat (f.payload.take 2)
  done (match s.target f.addr, s.target (f.addr + (n - 1)) with
    | some t, some u =>
      if n = 0 || 16384 < n then s.nak d f 3
      else if !(s.tokenOk d f (s.targetOwner t) && s.tokenOk d f (s.targetOwner u)) then s.nakToken d f
      else match t with
        | .host _ => (s.requestHost d (.peer d f) f.addr f.tenant n 0).1
        | t => match s.heldLines t n with
          | [] => (match s.serveRead f.tenant t n with
            | (s, some l) => s.sendBack d f 1 0x20 (chunksOf 256 l)
            | (s, none) => s.nak d f 3)
          | h => (h.foldl State.snoopLine s).postpone .read
    | _, _ => s.nak d f 3)

/-- ATOMIC (R192, R480): performed at its home on this package; a reduce-store's adds its value to one element (R326, log 22). -/
def execAtomic (s : State) : Out1 :=
  let d := s.ev.n
  let f := s.ev.flit
  let arg (k : Nat) : Word := BitVec.ofNat 64 (leNat ((f.payload.drop k).take 8))
  done (match s.target f.addr, amoOfCode (leNat (f.payload.take 1)) (leNat ((f.payload.drop 1).take 1)) with
    | some t, some o =>
      let rmw : Nat × (Nat → Option Nat) := match f.more, f.packet.vals with
        | [c], [v] => (fmtBits (fmtOf c) / 8, fun old => some (reduceCode (fmtOf c) old v))
        | _, _ => (o.size, fun old => (o.new (BitVec.ofNat 64 old) (arg 8) (arg 16)).map (·.toNat))
      if !s.tokenOk d f (s.targetOwner t) then s.nakToken d f
      else
        let finish (r : State × Fetch) : State :=
          match r with
          | (s, .bytes l) => s.sendBack d f 1 0x20 [l]
          | (s, .wait _) => s.postpone .atomic
          | (s, _) => s.nak d f 3
        match t with
        | .spm core off => finish (s.amoSpm { core } o core off false (arg 8) (arg 16))
        | .mem a => finish (s.homeRmw f.tenant a rmw.1 rmw.2)
        | _ => s.nak d f 3
    | _, _ => s.nak d f 3)

/-! ### TENSOR (R375, R493, R494) -/

/-- Arrivals that wait in the queue that a message's end feeds. -/
def State.arrivals (s : State) (tenant : Nat) (m : TensorMsg) : Nat :=
  match s.tensorEnd tenant m with
  | some (_, _, g, k) => (g.queue (if (g.chanEnd k).bq then 1 else 0)).length
  | none => 0

/-- Image bytes of the message at an address: at most 16 KiB of the image (R375, R490). -/
def TensorMsg.part (m : TensorMsg) (addr : Nat) : Nat := min 16384 (m.len - (addr - (m.rbase + m.slot * m.slotBytes)))

/-- Every flit of a tensor message has come: the arrival is appended, or the message refused. -/
def State.tensorDone (s : State) (d : Nat) (f : Flit) (m : TensorMsg) : State :=
  match s.assemble d f 0 with
  | (s, none) => s
  | (s, some r) =>
    if r.bad ≠ 0 then s
    else
      let before := s.arrivals f.tenant m
      match s.tensorAppend f.tenant m (m.part f.addr) with
      | (s, 0) => s.ack d f (decide (before < s.arrivals f.tenant m)) r.credits
      | (s, code) => s.nak d f (if code = 5 && s.closed.contains (m.node, m.image) then 4 else code)

/-- TENSOR (R375): a flit at die `n`. -/
def execTensor (s : State) : Out1 :=
  let d := s.ev.n
  let f := s.ev.flit
  done (if s.duplicate d f then s
    else match TensorMsg.ofList f.more with
      | none => s.refuseFlit d f 5
      | some m =>
        if !s.tokenOk d f (s.dieAt d).tenant then s.refuseFlit d f 2
        else if m.release then (s.creditBack f.tenant m).ack d f false 0
        else match s.tensorEnd f.tenant m with
          | none => s.refuseFlit d f (if s.closed.contains (m.node, m.image) then 4 else 5)
          | some (k, _, _, _) =>
            match s.tensorPut (k * Config.coresPerDie) m.sup (f.addr + 256 * f.fidx) f.payload with
            | (s, none) => s.postpone .tensor
            | (s, some 0) => s.tensorDone d f m
            | (s, some code) => s.refuseFlit d f code)

end Sys2Proof.Machine
end

