-- ==== Sys2Proof/Machine/Host.lean ====
section
/-!
DEFINITION. Host accesses (R11, R92, R93, R433 to R444): the maps of BAR 0, device memory through BAR 2, and CXL.mem.
-/
namespace Sys2Proof.Machine

/-- A poisoned TLP: it is counted and reported (R434). -/
def State.countPoisoned (s : State) (fn : Nat) : State :=
  let s := s.hostErr fn fun f => { f with poisoned := sat1 f.poisoned 255 }
  { s with out := s.out ++ [.aer fn] }

/-! ### BAR 0 (R436, R437) -/

/-- A register of a function's BAR 0. -/
inductive HostReg where
  /-- a device register, reached as a tenant -/
  | dev (r : DevReg) (off tenant : Nat)
  | port (o : Nat)
  | mail (o : Nat)
deriving DecidableEq, Repr

/-- Offsets of the mailbox page that hold a register (R517). -/
def mailOffset (o : Nat) : Bool :=
  o % 8 == 0 && (decide (o ≤ 8) || (decide (0x100 ≤ o) && decide (o ≤ 0x1F8)) || (decide (0x200 ≤ o) && decide (o ≤ 0x2F8)))

/-- Offsets of the PF's host port registers (R436). -/
def portOffset (o : Nat) : Bool := o % 8 == 0 && (decide (o ≤ 0x30) || (decide (0x108 ≤ o) && decide (o ≤ 0x2F8)))

/-- In RECOVERY only BOOT_STATUS and BOOT_CTL of these answer (R454). -/
def State.portReg (s : State) (o : Nat) : Option HostReg :=
  if s.boot.state = 3 && decide (8 < o) then none else some (.port o)

/-- The register at an offset of a function's BAR 0, if it answers now. -/
def State.hostReg (s : State) (fn o : Nat) : Option HostReg :=
  let f := s.fnAt fn
  let tenant := f.vfmap.toNat % 256
  if fn = 0 then
    if o < 0x1000000 then (if s.boot.running then (devReg o).map fun r => .dev r o 0 else none)
    else if 0x2000000 ≤ o && decide (o < 0x2001000) && portOffset (o - 0x2000000) then s.portReg (o - 0x2000000)
    else if 0x2001000 ≤ o && decide (o < 0x2002000) && mailOffset (o - 0x2001000) then some (.mail (o - 0x2001000))
    else none
  else if !f.vfmap.getLsbD 63 then none
  else if o < 0x8000 then
    (if s.boot.running && (s.lqAt (o / 0x1000)).tenant == tenant then (devReg o).map fun r => .dev r o tenant else none)
  else if [0x8000, 0x8018, 0x8020, 0x8028].contains o then s.portReg (o - 0x8000)
  else if 0x9000 ≤ o && decide (o < 0xA000) && mailOffset (o - 0x9000) then some (.mail (o - 0x9000))
  else none

/-- The value of an aligned write of eight bytes (R8, R11). -/
def wordWrite (o : Nat) (l : List (Option Byte)) : Option Word :=
  if o % 8 = 0 && l.length == 8 && l.all (·.isSome) then some (BitVec.ofNat 64 (leNat (l.map (·.getD 0)))) else none

/-- The rows that a write of a register is. -/
def State.regWrite (s : State) (fn : Nat) (r : HostReg) (v : Word) : List (Instr × Event) :=
  let e : Event := { agent := .host fn, v }
  match r with
  | .dev r o tenant => s.devWrites (.host fn) tenant o r v
  | .port o =>
    if o = 8 then (if v.getLsbD 0 then [(.bootCtlGo, e)] else []) ++ (if v.getLsbD 1 then [(.bootCtlWarm, e)] else [])
    else if o = 0 || o = 0x18 then []
    else [(.registerWrite, { e with n := hostRegBase + o })]
  | .mail o =>
    if o = 0 then s.mailWrite fn v else if 0x100 ≤ o && decide (o < 0x200) then [(.registerWrite, { e with n := mailBase + o })] else []

/-- The row that a read of a register is, where its reading clears something (R8). -/
def readRow (fn : Nat) (r : HostReg) : Option (Instr × Event) :=
  let e : Event := { agent := .host fn }
  match r with
  | .port 0 => some (.bootStatus, e)
  | .port 0x18 => some (.hostErr, e)
  | .dev (.tc d 0x58) _ _ => some (.rasLost, { e with n := d })
  | .dev (.tc d 0x60) _ _ => some (.rasCorr, { e with n := d })
  | .dev (.fab d o) _ _ =>
    if o = 8 then some (.fabcnt, { e with n := d })
    else if 0x200 ≤ o && decide (o < 0x400) && o % 0x40 == 0x30 then some (.lksts, { e with k := (o - 0x200) / 0x40 * 8 + d })
    else none
  | _ => none

/-- What a register of the host port reads as (R438, R439, R441, R443, R448). How long GO and WARM of BOOT_CTL stand after a 1 has been
written is not stated: they read as free values (R8, log 50). -/
def State.portRead (s : State) (fn o : Nat) : State × Word :=
  let f := s.fnAt fn
  if o = 8 then let (c, s) := s.choose 4; (s, BitVec.ofNat 64 c)
  else (s, if o = 0x10 then s.boot.fwLen else if o = 0x20 then f.hirq else if o = 0x28 then f.bar2 else if o = 0x30 then s.cxlm
    else if 0x108 ≤ o then (s.fnAt ((o - 0x100) / 8)).vfmap else 0)

/-! ### Device memory (R439, R441) -/

/-- An access in pieces that stay within a line: number of the first byte, and length. -/
def linePieces (a n : Nat) : List (Nat × Nat) :=
  ((List.range ((a % 128 + n + 127) / 128)).map fun i =>
    let lo := max a (a / 128 * 128 + 128 * i)
    (lo - a, min (a + n) (a / 128 * 128 + 128 * (i + 1)) - lo)).filter fun p => p.2 != 0

/-- Where a byte of BAR 2 or CXL.mem is, for a function's access: none where it is refused. -/
def State.hostPlace (s : State) (fn : Nat) (path : HostPath) (need : Need) (o : Nat) : State × Option Place :=
  match path with
  | .cxlMem =>
    let w := s.cxlm.toNat
    let a := w % 2 ^ 14 * 2 ^ 28 + o
    (s, if fn = 0 && s.cxl && s.cxlm.getLsbD 63 && o < min (bitsOf w 42 32) 1907 * 2 ^ 28 && isHbm a then some (.mem a) else none)
  | _ =>
    let f := s.fnAt fn
    let a := f.bar2.toNat + o
    if fn = 0 then (s, if isHbm a || isLpddr a then some (.mem a) else none)
    else match s.tenantCore (f.vfmap.toNat % 256) with
      | none => (s, none)
      | some core =>
        if !f.vfmap.getLsbD 63 || isLocal a then (s, none)
        else match s.globalPlace core false need 0 a with
          | (s, .ok (.dev _)) | (s, .error _) => (s, none)
          | (s, .ok p) => (s, some p)

/-- The places of an access's pieces, or none. -/
def State.hostPlaces (s : State) (fn : Nat) (path : HostPath) (need : Need) (o : Nat) : List (Nat × Nat) → State × Option (List (Nat × Nat × Place))
  | [] => (s, some [])
  | (i, n) :: r =>
    match s.hostPlace fn path need (o + i) with
    | (s, none) => (s, none)
    | (s, some p) => match s.hostPlaces fn path need o r with
      | (s, none) => (s, none)
      | (s, some l) => (s, some ((i, n, p) :: l))

/-- A memory access is refused (R11): for a VF by translation or permission (R439). -/
def State.refuseMem (s : State) (fn : Nat) : State := if fn ≠ 0 && (s.fnAt fn).vfmap.getLsbD 63 then s.countXlate fn else s.countRefused fn

/-- Write bytes with their byte enables (R92, R94). The later accesses of the function wait for the answer of another package. -/
def State.hostPut (s : State) (fn tenant : Nat) (l : List (Byte × Byte)) (x : Nat × Nat × Place) : State :=
  let (i, n, p) := x
  let part := (l.drop i).take n
  match p with
  | .mem a => s.putTarget tenant (.mem a) part
  | .host a => s.putTarget tenant (.host a) part
  | .remote a =>
    (s.request 0 (.hostAccess fn) (flitTo 2 (a / 128 * 128) tenant) 0 n [lineData (a % 128) (part.map (·.1)) (part.map (·.2))]).1
  | _ => s.countRefused fn

/-- A write of device memory. -/
def State.memWrite (s : State) (fn : Nat) (path : HostPath) (o : Nat) (data : List (Option Byte)) : State :=
  let l : List (Byte × Byte) := data.map fun b => (b.getD 0, if b.isSome then 0xFF else 0)
  let tenant := if fn = 0 then 0 else (s.fnAt fn).vfmap.toNat % 256
  let used := (linePieces o l.length).filter fun p => ((l.drop p.1).take p.2).any (·.2 != 0)
  match s.hostPlaces fn path .wr o used with
  | (s, none) => s.refuseMem fn
  | (s, some ps) =>
    let s := ps.foldl (fun s x => s.hostPut fn tenant l x) s
    if path = .cxlMem && s.ev.status ≠ 2 then
      { s with held := s.held.filter fun line => !ps.any fun x => match x.2.2 with
          | .mem a => a / 128 == line
          | _ => false }
    else s

/-- Read bytes at their homes (R93): what another package or the host holds is asked for, with the number of its first byte. The
bytes that have come, none for one that cannot be read (log 24, log 30), and the request. -/
def State.hostGet (s : State) (fn tenant : Nat) (x : Nat × Nat × Place) : State × List (Option Byte) × List Nat :=
  let (i, n, p) := x
  let none1 : List (Option Byte) := List.replicate n none
  match p with
  | .mem a => (match s.serveRead tenant (.mem a) n with
    | (s, some l) => (s, l.map some, [])
    | (s, none) => (s, none1, []))
  | .remote a => let (s, id) := s.requestRead 0 (.hostAccess fn) a tenant n (BitVec.ofNat 64 i); (s, none1, [id])
  | .host a => let (s, id) := s.requestHost 0 (.hostAccess fn) a tenant n (BitVec.ofNat 64 i); (s, none1, [id])
  | _ => (s, none1, [])

/-- Bytes in hand, with a free value for each that could not be read (log 24, log 30). -/
def State.fillFree (s : State) (l : List (Option Byte)) : State × List Byte :=
  l.foldl (fun (s, r) b => match b with
    | some b => (s, r ++ [b])
    | none => let (v, s) := s.draw; (s, r ++ [v.setWidth 8])) (s, [])

/-- A host read of CXL.mem may leave the host a copy of the line (R441); with status 2 it keeps none. A store on its way to the line
waits for the snoop. -/
def State.lend (s : State) (a : Nat) : State :=
  let line := a / 128
  let s := if s.held.contains line then s else { s with held := s.held ++ [line] }
  if s.stores.any fun x => x.touches line then s.snoopLine line else s

/-- A read of device memory; where answers are awaited, the event waits with their numbers and the bytes in hand. -/
def State.memRead (s : State) (fn : Nat) (path : HostPath) (o n : Nat) : State :=
  let tenant := if fn = 0 then 0 else (s.fnAt fn).vfmap.toNat % 256
  match s.hostPlaces fn path .rd o (linePieces o n) with
  | (s, none) => let s := s.refuseMem fn; { s with out := s.out ++ [.hostData fn (List.replicate n 0xFF)] }
  | (s, some ps) =>
    let (s, l, ids) := ps.foldl (fun (s, l, ids) x =>
      let (s, b, i) := s.hostGet fn tenant x
      (s, l ++ b, ids ++ i)) (s, ([] : List (Option Byte)), ([] : List Nat))
    let s := if path = .cxlMem && s.ev.status ≠ 2 then ps.foldl (fun s x => match x.2.2 with
        | .mem a => s.lend a
        | _ => s) s
      else s
    if !ids.isEmpty then ({ s with ev := { s.ev with list := ids, data := l } } : State).postpone .hostRead
    else let (s, l) := s.fillFree l; { s with out := s.out ++ [.hostData fn l] }

/-! ### The events -/

/-- A write of the function's configuration: number 0 enables VF `n` in its SR-IOV control (R438), number 1 commits the HDM decoder
(R441), and number 2 gives BAR 2 of the PF, or of every VF where `n` is not 0, one of its sizes (R435). -/
def State.configWrite (s : State) (k n : Nat) (v : Word) : State :=
  match k with
  | 0 => s.modFn n ({ · with enabled := v.getLsbD 0 })
  | 1 => { s with hdm := v.getLsbD 0 }
  | 2 => if v.toNat < 30 || 40 < v.toNat then s else if n = 0 then { s with bar2Pf := v.toNat } else { s with bar2Vf := v.toNat }
  | _ => s

/-- The host port supports the access to bytes `o` to `o + n - 1` of its window (R433, R435): a status of 3 is a feature that its table
does not list, `most` is the longest payload, VFs carry no CXL.mem, and BAR 2 has the size that it was given. -/
def State.supports (s : State) (o n most : Nat) : Bool :=
  s.ev.status != 3 && decide (n ≤ most) && match s.ev.path with
    | .cxlMem => s.mailFn == 0
    | .bar2 => decide (o + n ≤ 2 ^ (if s.mailFn = 0 then s.bar2Pf else s.bar2Vf))
    | _ => true

/-- A write of function `fn` to another package has not been acknowledged, or waits for one (R92). -/
def State.hostBusy (s : State) (fn : Nat) : Bool := s.reqs.any fun r => r.owner == .hostAccess fn && r.op != 3
def State.hostWaits (s : State) (fn : Nat) : Bool :=
  s.hostBusy fn || s.later.any fun p => p.1 == .hostWrite && p.2.agent == .host fn

/-- A host access takes its turn behind the writes of its function (R92); it waits with a list, which is [0] until its reads are under
way. -/
def State.inTurn (s : State) (i : Instr) (run : State → State) : Out1 :=
  done (if s.ev.list.isEmpty && s.hostWaits s.mailFn then ({ s with ev := { s.ev with list := [0] } } : State).postpone i else run s)

/-- HOST_WRITE (R92, R433, R434, R436, R437, R439): function, window, offset `n` and bytes with their enables; status 1 is a poisoned TLP,
and a request that is not supported is refused. -/
def execHostWrite (s : State) : Out1 :=
  let fn := s.mailFn
  let o := s.ev.n
  if !s.hostUp then done s else
  s.inTurn .hostWrite fun s =>
    (if s.ev.status = 1 then s.countPoisoned fn
    else if !s.supports o s.ev.data.length 512 then s.countRefused fn
    else match s.ev.path with
      | .config => s.configWrite s.ev.k o s.ev.v
      | .bar0 =>
        if fn = 0 && 0x1000000 ≤ o && decide (o < 0x2000000) then s.postFirst [(.fwWinWrite, { s.ev with n := o - 0x1000000 })]
        else (match s.hostReg fn o, wordWrite o s.ev.data with
          | some r, some v => s.postFirst (s.regWrite fn r v)
          | _, _ => s.countRefused fn)
      | p => if s.boot.running then s.memWrite fn p o s.ev.data else s.countRefused fn)

/-- HOST_READ (R93, R433, R436, R437, R439): offset `n`, length `k`. A refused read returns ones (R11); the write-only FW_WIN reads as zero
while it answers (R8). -/
def execHostRead (s : State) : Out1 :=
  let fn := s.mailFn
  let o := s.ev.n
  let n := s.ev.k
  let refused (s : State) : State := let s := s.countRefused fn; { s with out := s.out ++ [.hostData fn (List.replicate n 0xFF)] }
  if !s.hostUp then done s
  else if s.ev.list.any (· != 0) then
    let (s, l) := s.fillFree s.ev.data
    done { s with out := s.out ++ [.hostData fn l] }
  else s.inTurn .hostRead fun s =>
    (if !s.supports o n 4096 then refused s
    else match s.ev.path with
      | .config => s
      | .bar0 =>
        if fn = 0 && 0x1000000 ≤ o && decide (o + n ≤ 0x2000000) && s.boot.state == 0 then
          { s with out := s.out ++ [.hostData fn (List.replicate n 0)] }
        else (match s.hostReg fn o with
          | some r =>
            if n ≠ 8 || o % 8 ≠ 0 then refused s
            else match readRow fn r with
              | some p => s.postFirst [p]
              | none => match r with
                | .dev r _ _ => s.readReg r
                | .port q => let (s, v) := s.portRead fn q; s.answer v
                | .mail q => (match s.mailRead fn q with
                  | some v => s.answer v
                  | none => refused s)
          | none => refused s)
      | p => if s.boot.running then s.memRead fn p o n else refused s)

end Sys2Proof.Machine
end

