-- ==== Sys2Proof/Machine/SigStage.lean ====
section
/-!
DEFINITION. The signature stage (spec 11): codes, buckets and representatives (R294 to R297), and membership maps (R299 to
R303).
-/
namespace Sys2Proof.Machine

/-- The map selector (R293). -/
def selRec (w : Word) : Nat := w.toNat % 2 ^ 32
def selReuse (w : Word) : Bool := w.getLsbD 35
def selWin (w : Word) : Nat := 128 * 2 ^ (w.toNat / 2 ^ 32 % 8)

/-- A product added with one rounding to FP32 (R123): the new code and the flags. -/
def mac32 (c : Nat) (p : Val) : Nat × Nat :=
  let (s, f) := valAdd false (ffDec ffF32 c) p
  let (r, g) := ffRound ffF32 0 0 false s
  (r, f ||| g)

/-- The code of a row (R295): bit h is set where the projection on hyperplane h is negative. -/
def sigCode (row : List Val) (h : List (List (Val × Val))) (bits : Nat) : Nat :=
  (List.range bits).foldl (fun acc b =>
    let p := row.zipIdx.foldl (fun c (x, k) => (mac32 c (valMul x (at2 (valZero, valZero) h k b).1).1).1) 0
    match ffDec ffF32 p with
    | .fin neg n _ => if neg && n != 0 then acc + 2 ^ b else acc
    | .inf neg => if neg then acc + 2 ^ b else acc
    | _ => acc) 0

def bitDiff (a b : Nat) : Nat := ((List.range 11).filter fun i => a.testBit i != b.testBit i).length

/-- Buckets (R296): the members so far, the bucket codes, and the count of rows placed by the third branch. -/
structure Buckets where
  member : List (Option Nat) := []
  codes : List Nat := []
  ovf : Nat := 0
deriving DecidableEq, Repr

/-- The bucket whose code differs least, the lowest of equals. -/
def nearest (c : Nat) (codes : List Nat) : Nat :=
  (codes.zipIdx.foldl (fun (best : Nat × Nat) (x, i) => if bitDiff x c < best.1 then (bitDiff x c, i) else best) (64, 0)).2

/-- Assign the rows' codes in order; an absent row has none. -/
def assign (m : Nat) (rows : List (Option Nat)) : Buckets :=
  rows.foldl (fun b r =>
    match r with
    | none => { b with member := b.member ++ [none] }
    | some c =>
      match b.codes.findIdx? (· == c) with
      | some i => { b with member := b.member ++ [some i] }
      | none =>
        if b.codes.length < m then { b with member := b.member ++ [some b.codes.length], codes := b.codes ++ [c] }
        else { b with member := b.member ++ [some (nearest c b.codes)], ovf := b.ovf + 1 }) {}

/-- A record as R300 and R301 lay it out. -/
structure MapRec where
  wrows : Nat
  present : Nat
  nbkt : Nat
  nbits : Nat
  rep : Nat
  valid : Bool := true
  ovf : Nat := 0
  k : Nat := 0
  ver : Nat := 0
  /-- 1,024 entries; 0xFFFF for none -/
  member : List Nat
  repidx : List Nat
  count : List Nat
deriving DecidableEq, Repr

def MapRec.bucket (r : MapRec) (i : Nat) : Option Nat := let m := (r.member[i]?).getD 0xFFFF; if m = 0xFFFF then none else some m

/-- Rows of a bucket, rising. -/
def MapRec.rowsOf (r : MapRec) (b : Nat) : List Nat := (List.range r.wrows).filter fun i => r.bucket i == some b

/-- A list of 16-bit entries, filled to `n` with `d`. -/
def u16List (l : List Nat) (n d : Nat) : List Byte := (List.range n).flatMap fun i => leBytes 2 ((l[i]?).getD d)

/-- Bytes 0x40 to 0xA3F of a record. -/
def MapRec.tables (r : MapRec) : List Byte := u16List r.member 1024 0xFFFF ++ u16List r.repidx 128 0xFFFF ++ u16List r.count 128 0

/-- The header (R301). -/
def MapRec.header (r : MapRec) (valid : Bool) : List Byte :=
  leBytes 64 (r.wrows + r.present * 2 ^ 16 + r.nbkt * 2 ^ 32 + r.nbits * 2 ^ 40 + r.rep * 2 ^ 44 + (if valid then 2 ^ 46 else 0) + r.ovf * 2 ^ 48
    + r.k * 2 ^ 64 + r.ver * 2 ^ 80 + crcOf r.tables * 2 ^ 128)

/-- The writes of a record at an address, in the three steps of R302, a line at a time. -/
def MapRec.plan (r : MapRec) (va : Nat) : List (Nat × List (Byte × Byte)) :=
  let full (bs : List Byte) : List (Byte × Byte) := bs.map fun b => (b, 0xFF)
  let h := r.header true
  let body := r.tables ++ List.replicate (0x1000 - 0xA40) (0 : Byte)
  [(va, full ((r.header false).take 8)), (va + 0x40, full (body.take 64))]
    ++ ((List.range 31).map fun i => (va + 128 + 128 * i, full ((body.drop (64 + 128 * i)).take 128)))
    ++ [(va + 8, full (h.drop 8)), (va, full (h.take 8))]

/-- The record in 4,096 bytes and its CHK field. -/
def recOf (bs : List Byte) : MapRec × Nat :=
  let h := leNat (bs.take 64)
  let u (off i : Nat) : Nat := leNat ((bs.drop (off + 2 * i)).take 2)
  ({ wrows := h % 2 ^ 16, present := h / 2 ^ 16 % 2 ^ 16, nbkt := h / 2 ^ 32 % 256, nbits := h / 2 ^ 40 % 16, rep := h / 2 ^ 44 % 4,
     valid := h.testBit 46, ovf := h / 2 ^ 48 % 2 ^ 16, k := h / 2 ^ 64 % 2 ^ 16, ver := h / 2 ^ 80 % 2 ^ 24,
     member := (List.range 1024).map (u 0x40), repidx := (List.range 128).map (u 0x840), count := (List.range 128).map (u 0x940) },
   h / 2 ^ 128 % 2 ^ 32)

/-- The tests of R303; `reuse` holds the command's REP and M for an MSTEP that reads the record. -/
def recOk (bs : List Byte) (ver w : Nat) (reuse : Option (Nat × Nat)) : Bool :=
  let (r, chk) := recOf bs
  r.valid && r.ver == ver && r.wrows == w && chk == crcOf ((bs.drop 0x40).take 0xA00)
    && decide (r.nbkt ≤ 128) && decide (4 ≤ r.nbits) && decide (r.nbits ≤ 11) && r.rep != 3
    && ((r.member.zipIdx).all fun (m, i) => m == 0xFFFF || (decide (i < w) && decide (m < r.nbkt)))
    && ((List.range r.nbkt).all fun b => decide ((r.repidx[b]?).getD 0xFFFF < w) && decide (1 ≤ (r.count[b]?).getD 0))
    && match reuse with
      | some (rep, m) => r.rep == rep && decide (r.nbkt ≤ m)
      | none => true

/-- The failing condition of a map descriptor, with the record it is to hold (R36, R299). -/
def State.mapTdesc (s : State) (e : Entry) (d : Desc) (rec : Nat) : Option Nat :=
  let v := viewOf d
  if v.kind ≠ 3 || v.fmt ≠ .ui8 || v.cols ≠ 4096 || v.estr ≠ 1 || v.rstr ≠ 4096 || v.tr || v.blk ≠ 0 || v.tscale ≠ 0 || v.sync ≠ 0
      || v.base % 4096 ≠ 0 || addrClass v.base ≠ 0 then some 1
  else if d.getLsbD 142 then some 2
  else if v.rows = 0 then some 3
  else if v.rows ≤ rec then some 6
  else s.tdesc e.strand d [(((v.base + rec * 4096 : Nat) : Int) * 8, 32768)] []

/-- The extent of a record (R308). -/
def recExt (core reg : Nat) (v : View) (rec : Nat) : Ext :=
  { reg, elems := [ownSpan core (((v.base + rec * 4096 : Nat) : Int) * 8, 32768)], scales := [] }

/-- Read a record: its header and tables (R300). -/
def Rd.record (r : Rd) (e : Entry) (v : View) (rec : Nat) : Rd × List Byte :=
  (List.range 328).foldl (fun (r, l) i => let (r, b) := Rd.bytes r e (v.base + rec * 4096 + 8 * i) 8 0; (r, l ++ b)) (r, [])

/-- Rows of A in a window that are present (R294). -/
def presentRow (v : View) (o : Org) (i : Nat) : Bool := decide (o.1 + i < v.vr)

/-- The norm of MAXNORM (R297). -/
def normOf (row : List Val) : Val := ffDec ffF32 (row.foldl (fun c x => (mac32 c (valMul x x).1).1) 0)

/-- `a` ranks above `b`: NaN above every number. -/
def normAbove (a b : Val) : Bool := if valIsNan b then false else valIsNan a || valLt b a

/-- q(b) of a building command (R297). -/
def repIndex (rep : Nat) (rows : List (List Val)) (members : List Nat) : Nat :=
  let first := members.headD 0
  if rep ≠ 2 then first
  else members.foldl (fun q i => if normAbove (normOf ((rows[i]?).getD [])) (normOf ((rows[q]?).getD [])) then i else q) first

/-- The window rows whose values a product with representatives uses (R297). -/
def MapRec.used (r : MapRec) (rep : Nat) : List Nat :=
  (List.range r.nbkt).flatMap fun b => if rep ≠ 1 then [(r.repidx[b]?).getD 0] else r.rowsOf b

/-- What an entry keeps of a record between its turns, and the record again. -/
def MapRec.parts (r : MapRec) : SMap (List Nat) := [(0, r.member), (1, r.repidx), (2, r.count), (3, [r.wrows, r.nbkt, r.rep])]
def Entry.mapRec (e : Entry) : MapRec :=
  let h := smGet [] e.parts 3
  { wrows := h.headD 0, present := 0, nbkt := (h[1]?).getD 0, nbits := 0, rep := (h[2]?).getD 0, member := smGet [] e.parts 0,
    repidx := smGet [] e.parts 1, count := smGet [] e.parts 2 }

/-- The record that a building command writes (R296, R297, R301). -/
def buildRec (v : View) (o : Org) (w m k bits rep ver : Nat) (rows : List (List Val)) (h : List (List (Val × Val))) : MapRec :=
  let b := assign m ((List.range w).map fun i => if presentRow v o i then some (sigCode ((rows[i]?).getD []) h bits) else none)
  let rowsOf (x : Nat) : List Nat := (List.range w).filter fun i => (b.member[i]?).getD none == some x
  let nb := b.codes.length
  { wrows := w, present := (b.member.filter (·.isSome)).length, nbkt := nb, nbits := bits, rep, ovf := b.ovf, k, ver,
    member := b.member.map (·.getD 0xFFFF), repidx := (List.range nb).map fun x => repIndex rep rows (rowsOf x),
    count := (List.range nb).map fun x => (rowsOf x).length }

/-- A sum of values in the order given, rounded at each step after the first (R297, R306); none for no value. -/
def sumRows (l : List Val) : Option (Val × Nat) :=
  match l with
  | [] => none
  | x :: r => some (r.foldl (fun (s, f) v =>
      let (t, g) := valAdd false s v
      let (c, h) := ffRound ffF32 0 0 false t
      (ffDec ffF32 c, f ||| g ||| h)) (x, 0))

/-- rep(b, k) and its flags (R297); none where the record names no member. -/
def repVal (r : MapRec) (rep : Nat) (rows : List (List Val)) (b k : Nat) : Option (Val × Nat) :=
  let x (i : Nat) : Val := ((rows[i]?).getD [])[k]?.getD valZero
  if rep ≠ 1 then some (x ((r.repidx[b]?).getD 0), 0)
  else (sumRows ((r.rowsOf b).map x)).map fun (s, f) =>
    let (q, g) := valDiv s (.fin false ((r.count[b]?).getD 1) 1)
    let (c, h) := ffRound ffF32 0 0 false q
    (ffDec ffF32 c, f ||| g ||| h)

end Sys2Proof.Machine
end

