-- ==== Sys2Proof/Machine/Matrix.lean ====
section
/-!
DEFINITION. The matrix engine: MSTEP (R273 to R277, R298), MNSET and MNEST (R280 to R282), MWB (R283, R305), MZERO and MLDA
(R285), MSPC (R278), and the signature stage's MSIG (R304) and MSCAT (R306).
-/
namespace Sys2Proof.Machine

/-! ### Accumulation (R123 to R126) -/

/-- The steps of one cell: products in order, paired where R124 asks for it. -/
def accPlain (c : Nat) (l : List (Val × Val)) : Nat × Nat :=
  l.foldl (fun (c, f) (a, b) =>
    let (p, g) := valMul a b
    let (r, h) := mac32 c p
    (r, f ||| g ||| h)) (c, 0)

def accPaired : Nat → List (Val × Val) → Nat × Nat
  | c, [] => (c, 0)
  | c, [x] => accPlain c [x]
  | c, (a, b) :: (a2, b2) :: r =>
    let (p, f1) := valMul a b
    let (q, f2) := valMul a2 b2
    let (s, f3) := valAdd false p q
    let (c, f4) := mac32 c s
    let (c, f5) := accPaired c r
    (c, f1 ||| f2 ||| f3 ||| f4 ||| f5)

/-- The steps of one complex cell (R126): real and imaginary part. -/
def accComplex (re im : Nat) (l : List ((Val × Val) × (Val × Val))) : (Nat × Nat) × Nat :=
  l.foldl (fun ((re, im), f) ((ar, ai), (br, bi)) =>
    let (p1, g1) := valMul ar br
    let (p2, g2) := valMul ai bi
    let (p3, g3) := valMul ar bi
    let (p4, g4) := valMul ai br
    let (re, h1) := mac32 re p1
    let (re, h2) := mac32 re (valNeg p2)
    let (im, h3) := mac32 im p3
    let (im, h4) := mac32 im p4
    ((re, im), f ||| g1 ||| g2 ||| g3 ||| g4 ||| h1 ||| h2 ||| h3 ||| h4)) ((re, im), 0)

/-- An MSTEP without the signature stage (R275, R277). -/
structure StepArgs where
  a : Org
  b : Org
  tile : Nat
  init : Bool

/-- Both operands are INT8, so the raw codes are used (R125), but not under the signature stage (R298). -/
def intStep (f : MFields) (e : Entry) : Bool := (e.view 1).fmt == .int8 && (e.view 2).fmt == .int8 && !f.sig

/-- Pairs of a dense k and the row of B that holds it, in the order of accumulation: for a sparse B, by the metadata codes
of column `j` (R277). -/
def kOrder (k : Nat) (sparse : Bool) (codes : List (List Int)) (j : Nat) : List (Nat × Nat) :=
  if !sparse then (List.range k).map fun i => (i, i)
  else (List.range (ceilDiv k 4)).flatMap fun g =>
    let c := (at2 0 codes g j % 16).toNat
    ([(4 * g + c % 4, 2 * g), (4 * g + c / 4 % 4, 2 * g + 1)]).filter fun x => decide (x.1 < k)

/-- The cells that a step writes (R275, R289): none where it has neither INIT nor a k. -/
def stepSpans (f : MFields) (init : Bool) (tile k : Nat) : List (Nat × Nat) :=
  if !init && k == 0 then [] else rowSpans tile f.rows (if f.cplx then 2 * f.cols true else f.cols false)

/-- The reads of a step and the cells it leaves, with the flags. Under CPLX two INT8 operands sum their raw codes into the real cell, and
their imaginary parts of 0 leave the imaginary cell (R125, R272, log 52). -/
def Rd.mstep (r : Rd) (e : Entry) (f : MFields) (x : StepArgs) : Rd × List (Nat × BitVec 32) × Nat :=
  let k := e.cnt
  let m := f.rows
  let c := f.cols f.cplx
  let va := e.view 1
  let vb := e.view 2
  let vm := e.view 4
  let kb := if f.sparse then 2 * ceilDiv k 4 else k
  let (r, codes) := if f.sparse then Rd.meRaw r e vm (x.b.1 / 2, x.b.2) (ceilDiv k 4) c else (r, [])
  let core := r.s.coreAt e.core
  let cell (i j : Nat) : Nat := if x.init then 0 else (core.cell x.tile i j).toNat
  let ij := (List.range m).flatMap fun i => ((List.range c).filter fun j => x.init || !(kOrder k f.sparse codes j).isEmpty).map fun j => (i, j)
  if intStep f e then
    let (r, a) := Rd.meRaw r e va x.a m k
    let (r, b) := Rd.meRaw r e vb x.b kb c
    let sum (i j : Nat) (c0 : Nat) : BitVec 32 :=
      BitVec.ofInt 32 ((kOrder k f.sparse codes j).foldl (fun s (p, q) => s + at2 0 a i p * at2 0 b q j) (c0 : Int))
    (r, if f.cplx then
        ij.flatMap fun (i, j) => [(cellNo x.tile i (2 * j), sum i j (cell i (2 * j))), (cellNo x.tile i (2 * j + 1), BitVec.ofNat 32 (cell i (2 * j + 1)))]
      else ij.map fun (i, j) => (cellNo x.tile i j, sum i j (cell i j)), 0)
  else
    let (r, a, fa) := Rd.meBlock r e va x.a m k f.cplx
    let (r, b, fb) := Rd.meBlock r e vb x.b kb c f.cplx
    let z := (valZero, valZero)
    let ops (i j : Nat) : List ((Val × Val) × (Val × Val)) := (kOrder k f.sparse codes j).map fun (p, q) => (at2 z a i p, at2 z b q j)
    if f.cplx then
      let out := ij.map fun (i, j) => (i, j, accComplex (cell i (2 * j)) (cell i (2 * j + 1)) (ops i j))
      (r, out.flatMap (fun (i, j, (re, im), _) => [(cellNo x.tile i (2 * j), BitVec.ofNat 32 re), (cellNo x.tile i (2 * j + 1), BitVec.ofNat 32 im)]),
       out.foldl (fun g (_, _, _, h) => g ||| h) (fa ||| fb))
    else
      let pair := (isPair va.fmt || isPair vb.fmt) && !f.sparse
      let out := ij.map fun (i, j) =>
        let l := (ops i j).map fun (x : (Val × Val) × (Val × Val)) => (x.1.1, x.2.1)
        (cellNo x.tile i j, if pair then accPaired (cell i j) l else accPlain (cell i j) l)
      (r, out.map (fun (n, v, _) => (n, BitVec.ofNat 32 v)), out.foldl (fun g (_, _, h) => g ||| h) (fa ||| fb))

/-- TDESC of A, B and the metadata for the steps of a command (R36, R271, R279). -/
def State.stepTdesc (s : State) (e : Entry) (f : MFields) (steps : List (Org × Org)) (m : Nat) : List (Nat × Option Nat) :=
  let k := e.cnt
  let c := f.cols f.cplx
  let kb := if f.sparse then 2 * ceilDiv k 4 else k
  let g := ceilDiv k 4
  let ok (p : Nat) (rem : Bool) : Bool := meSourceOk e.core rem (e.view p)
  [(f.t1.toNat, s.meTdesc e (e.desc 1) (ok 1 (f.mode.getLsbD 10)) (steps.flatMap fun x => (e.view 1).block x.1 m k) (!intStep f e)),
   (f.t2.toNat, s.meTdesc e (e.desc 2) (ok 2 (f.mode.getLsbD 11)) (steps.flatMap fun x => (e.view 2).block x.2 kb c) (!intStep f e))]
  ++ (if f.sparse then [(f.metaReg, s.meTdesc e (e.desc 4) (ok 4 false) (steps.flatMap fun x => (e.view 4).block (x.2.1 / 2, x.2.2) g c) false)] else [])

/-- Source extents of the steps of a command (R286). -/
def stepExts (e : Entry) (f : MFields) (steps : List (Org × Org)) (m : Nat) : List Ext :=
  let k := e.cnt
  let c := f.cols f.cplx
  let kb := if f.sparse then 2 * ceilDiv k 4 else k
  [extOf e.core f.t1.toNat (e.view 1) (steps.flatMap fun x => (e.view 1).block x.1 m k) (!intStep f e),
   extOf e.core f.t2.toNat (e.view 2) (steps.flatMap fun x => (e.view 2).block x.2 kb c) (!intStep f e)]
  ++ (if f.sparse then [extOf e.core f.metaReg (e.view 4) (steps.flatMap fun x => (e.view 4).block (x.2.1 / 2, x.2.2) (ceilDiv k 4) c) false] else [])

/-! ### MSTEP -/

/-- Rows of A that an MSTEP may read: M, or the window W (R294). -/
def stepRows (f : MFields) : Nat := if f.sig then f.win else f.rows

/-- Scheduled time of MSTEP (R276, R307). -/
def mstepCycles (f : MFields) (e : Entry) : Nat :=
  let kc := kCycles e.cnt (stepCycles2 f.cplx f.sparse (e.view 1) (e.view 2))
  let w := f.win
  if !f.sig then 16 + kc
  else if selReuse (smGet 0 e.o 3) then 16 + kc + 8 + (if f.rep = 1 then ceilDiv (w * e.cnt) 256 else 0)
  else 16 + kc + ceilDiv w 128 * kc + w / 8 + (if f.rep ≠ 0 then ceilDiv (w * e.cnt) 256 else 0)

/-- The rows of a window that `use` selects as values, each with its flags (R294, R295); the others are not read. -/
def Rd.window (r : Rd) (e : Entry) (v : View) (o : Org) (use : Nat → Bool) (w k : Nat) : Rd × List (List Val × Nat) :=
  (List.range (min w (v.vr - o.1))).foldl (fun (r, l) i =>
    if use i then
      let (r, rows, fl) := Rd.meBlock r e v (o.1 + i, o.2) 1 k
      (r, l ++ [((rows.headD []).map Prod.fst, fl)])
    else (r, l ++ [([], 0)])) (r, ([] : List (List Val × Nat)))

/-- The flags that the reads of some rows of a window have raised. -/
def rowFlags (rows : List (List Val × Nat)) (used : List Nat) : Nat := used.foldl (fun g i => g ||| ((rows[i]?).getD ([], 0)).2) 0

/-- The reads of a building command, the window and the hyperplanes, and the record it writes; projections raise no flag (R295). -/
def Rd.build (r : Rd) (e : Entry) (f : MFields) : Rd × MapRec :=
  let (r, rows) := Rd.window r e (e.view 1) (e.org 1) (fun _ => true) f.win e.cnt
  let (r, h, _) := Rd.meBlock r e (e.view 5) (0, 0) e.cnt f.bits
  (r, buildRec (e.view 1) (e.org 1) f.win f.rows e.cnt f.bits f.rep (e.view 3).ver (rows.map (·.1)) h)

/-- A command reads a record as it begins (R303): one that fails the check is a TDESC, else `f` goes on with it. -/
def State.withRecord (s : State) (e : Entry) (reg w : Nat) (reuse : Option (Nat × Nat)) (f : State → MapRec → State) : State :=
  let (r, bs) := Rd.record { s } e (e.view 3) (selRec (smGet 0 e.o 3))
  if r.stop.isNone && !recOk bs (e.view 3).ver w reuse then r.s.entryFault e causeTdesc (tdescAux reg 1) e.addr
  else r.done e fun s => f s (recOf bs).1

/-- The cells of a product with representatives (R298); a bucket whose representative the record does not give leaves free
values. -/
def State.repCells (s : State) (e : Entry) (f : MFields) (tile : Nat) (r : MapRec) (rows : List (List Val)) (b : List (List (Val × Val))) :
    State × List (Nat × BitVec 32) × Nat :=
  let c := f.cols false
  let core := s.coreAt e.core
  let clear := if f.init then (List.range f.rows).flatMap fun i => (List.range c).map fun j => (cellNo tile i j, (0 : BitVec 32)) else []
  let pair := isPair (e.view 1).fmt || isPair (e.view 2).fmt
  let ij := (List.range r.nbkt).flatMap fun i => (List.range c).map fun j => (i, j)
  ij.foldl (fun (s, l, fl) (i, j) =>
    let reps := (List.range e.cnt).map (repVal r f.rep rows i)
    if reps.any (·.isNone) then let (v, s) := State.draw s; (s, l ++ [(cellNo tile i j, v.setWidth 32)], fl)
    else
      let ops := reps.zipIdx.map fun (x, k) => ((x.getD (valZero, 0)).1, (at2 (valZero, valZero) b k j).1)
      let fr := reps.foldl (fun g x => g ||| (x.getD (valZero, 0)).2) 0
      let c0 := if f.init then 0 else (core.cell tile i j).toNat
      let (v, g) := if pair then accPaired c0 ops else accPlain c0 ops
      (s, l ++ [(cellNo tile i j, BitVec.ofNat 32 v)], fl ||| fr ||| g)) (s, clear, 0)

/-- The product of an MSTEP with the signature stage (R298), for the record `m`: it reads the rows that its representatives come from,
and B where there is a bucket. -/
def State.sigProduct (s : State) (e : Entry) (f : MFields) (m : MapRec) (tile : Nat) : State :=
  let e := { e with phase := 5, parts := m.parts, plan := [] }
  let used := m.used f.rep
  let spans := if f.init then rowSpans tile (max f.rows m.nbkt) (f.cols false) else if e.cnt = 0 then [] else rowSpans tile m.nbkt (f.cols false)
  let (r, rows) := Rd.window { s } e (e.view 1) (e.org 1) used.contains f.win e.cnt
  let (r, b, fb) := Rd.meBlock r e (e.view 2) (e.org 2) (if m.nbkt = 0 then 0 else e.cnt) (f.cols false)
  r.stepDone e f.init spans fun s =>
    let (s, cells, fl) := s.repCells e f tile m (rows.map (·.1)) b
    (s.putCells e (if spans.isEmpty then [] else cells) spans).meEnd { e with keep := [rowFlags rows used ||| fb ||| fl] }

/-- A building MSTEP writes its record (R302), and then forms the product (R298). -/
def State.sigWrite (s : State) (e : Entry) (f : MFields) (tile : Nat) : State :=
  match s.writeAll e e.plan with
  | (s, left, some .wait) => s.putEntry { e with plan := left }
  | (s, _, some x) => s.entryStop e x
  | (s, _, none) => s.sigProduct { e with got := [] } f e.mapRec tile

/-- An MSTEP with the signature stage builds its record (R298). -/
def State.sigBuild (s : State) (e : Entry) (f : MFields) (tile : Nat) : State :=
  let (r, m) := Rd.build { s } e f
  r.done e fun s =>
    let e := { e with phase := 4, parts := m.parts, plan := m.plan ((e.view 3).base + selRec (smGet 0 e.o 3) * 4096) }
    (s.putEntry e).sigWrite e f tile

/-- The tile that an entry names, or its fault (R21, R288). -/
def State.withTile (s : State) (e : Entry) (k : Nat) (f : State → Nat → State) : State :=
  match s.tileOf e k with
  | none => s.tileFault e
  | some tile => f s tile

/-- MSTEP (R273 to R277, R298). -/
def execMstep (f : MFields) (s : State) : Out1 :=
  let reuse (e : Entry) : Bool := selReuse (smGet 0 e.o 3)
  let hyper (e : Entry) : List (Nat × Nat) := (e.view 5).block (0, 0) e.cnt f.bits
  s.meInstr (.mstep f) (mstepCycles f)
    (fun e =>
      let a := stepExts e f [(e.org 1, e.org 2)] (stepRows f)
      if !f.sig then ([], a)
      else if reuse e then ([], a)
      else ([recExt e.core f.t3.toNat (e.view 3) (selRec (smGet 0 e.o 3))], a ++ [extOf e.core f.hyper (e.view 5) (hyper e) true]))
    fun s e =>
      let acc := f.acc.toNat
      if e.phase = 4 then s.withTile e acc fun s => s.sigWrite e f
      else if e.phase = 5 then s.withTile e acc fun s => s.sigProduct e f e.mapRec
      else
        let ab := s.stepTdesc e f [(e.org 1, e.org 2)] (stepRows f)
        let sg := if !f.sig then [] else
          [(f.t3.toNat, s.mapTdesc e (e.desc 3) (selRec (smGet 0 e.o 3)))]
            ++ (if reuse e then [] else [(f.hyper, s.meTdesc e (e.desc 5) (meSourceOk e.core false (e.view 5)) (hyper e) true)])
        match firstDesc (ab.take 2 ++ sg.take 1 ++ ab.drop 2 ++ sg.drop 1) with
        | some aux => s.entryFault e causeTdesc aux e.addr
        | none =>
          if f.sig && reuse e then
            s.withRecord e f.t3.toNat f.win (some (f.rep, f.rows)) fun s m => s.withTile e acc fun s => s.sigProduct e f m
          else s.withTile e acc fun s tile =>
            if f.sig then s.sigBuild e f tile
            else
              let spans := stepSpans f f.init tile e.cnt
              let (r, cells, fl) := Rd.mstep { s } e f { a := e.org 1, b := e.org 2, tile, init := f.init }
              r.stepDone e f.init spans fun s => (s.putCells e cells spans).meEnd { e with keep := [fl] }

/-! ### Write-back (R283) -/

/-- The fields of a write-back: descriptor number and view, multiplier, rounding, SAT, CPLX, ITILE. -/
structure WbArgs where
  reg : Nat
  d : Desc
  mul : Nat
  rm : Nat
  sat : Bool
  cplx : Bool
  itile : Bool

def mulOf (imm : Nat) : Nat := imm / 2 ^ 32 % 2 ^ 32

/-- A cell as MWB reads it; a column that the tile does not have holds a free value. -/
def State.readCell (s : State) (core tile i j : Nat) : State × Nat :=
  if j < 192 then (s, ((s.coreAt core).cell tile i j).toNat) else let (v, s) := s.draw; (s, v.toNat % 2 ^ 32)

/-- The value that MWB converts (R127, R283): the cell or pair times m. -/
def State.wbVal (s : State) (core tile i j : Nat) (w : WbArgs) : State × List Val × Nat :=
  let m := tscaleVal w.mul
  let times (v : Val) : Val × Nat := valMul v m
  if w.itile then
    let (s, c) := s.readCell core tile i j
    let (v, f) := times (valOfInt (intOfCode 32 c))
    (s, [v], f)
  else if w.cplx then
    let (s, c) := s.readCell core tile i (2 * j)
    let (s, d) := s.readCell core tile i (2 * j + 1)
    let (a, f) := times (ffDec ffF32 c)
    let (b, g) := times (ffDec ffF32 d)
    (s, [a, b], f ||| g)
  else
    let (s, c) := s.readCell core tile i j
    let (a, f) := times (ffDec ffF32 c)
    (s, [a], f)

/-- The writes of tile rows to a destination: pairs of a destination row and the tile row (R283, R305). The index of R119 is that of the
cell, so that the members of a bucket receive the same bits. -/
def State.wbPuts (s : State) (e : Entry) (w : WbArgs) (o : Org) (tile c : Nat) (rows : List (Nat × Nat)) : State × List Put × Nat :=
  let v := viewOf w.d
  let ijs := rows.flatMap fun (i, b) => (List.range c).filterMap fun j => (v.at o i j).map fun rc => (rc, b, j)
  let (s, ps, fl) := ijs.foldl (fun (s, ps, fl) (rc, b, j) =>
    let (s, vs, f) := s.wbVal e.core tile b j w
    (s, ps ++ [({ j := rc.1 * v.vc + rc.2, vals := vs, ix := b * c + j, lane := 0 } : PutVal)], fl ||| f)) (s, ([] : List PutVal), 0)
  let (s, puts, fs) := s.putAll e v w.rm w.sat ps
  (s, puts, fs.foldl (fun a x => a ||| x.2) fl)

/-- An MWB destination is of kind 0 or 1 (R271). -/
def wbKind (v : View) : Bool := v.kind ≤ 1

/-- Rows that a scatter of window `w` may write. -/
def wbRows (f : MFields) (e : Entry) : Nat := if f.sig then selWin (smGet 0 e.o 3) else f.rows

def wbOf (f : MFields) (e : Entry) : WbArgs :=
  { reg := f.t1.toNat, d := e.desc 1, mul := mulOf f.imm.toNat, rm := rmOf (f.mode.toNat % 8) e.rmode, sat := f.mode.getLsbD 3,
    cplx := f.mode.getLsbD 5, itile := f.mode.getLsbD 6 }

/-- MWB (R283, R305): bit 4 of MODE is SCAT. -/
def execMwb (f : MFields) (s : State) : Out1 :=
  let c := f.cols (f.mode.getLsbD 5)
  let block (e : Entry) : List (Nat × Nat) := (e.view 1).block (e.org 1) (wbRows f e) c
  s.meInstr (.mwb f) (fun e => 16 + ceilDiv (wbRows f e * (if f.mode.getLsbD 5 then 2 * c else c)) 256)
    (fun e => ([extOf e.core f.t1.toNat (e.view 1) (block e) true],
               if f.sig then [recExt e.core f.t3.toNat (e.view 3) (selRec (smGet 0 e.o 3))] else []))
    fun s e =>
      if e.phase = 2 then s.meWrite e e.plan (e.keep.headD 0)
      else
        let rno := selRec (smGet 0 e.o 3)
        let t1 := (f.t1.toNat, s.meTdesc e (e.desc 1) (wbKind (e.view 1)) (block e) true)
        match firstDesc (t1 :: if f.sig then [(f.t3.toNat, s.mapTdesc e (e.desc 3) rno)] else []) with
        | some aux => s.entryFault e causeTdesc aux e.addr
        | none =>
          let go (s : State) (rows : List (Nat × Nat)) : State := s.withTile e f.acc.toNat fun s tile =>
            let (s, puts, fl) := s.wbPuts e (wbOf f e) (e.org 1) tile c rows
            s.meWrite e (writePlan puts) fl
          if f.sig then s.withRecord e f.t3.toNat (selWin (smGet 0 e.o 3)) none fun s m =>
            go s ((List.range m.wrows).filterMap fun i => (m.bucket i).map fun b => (i, b))
          else go s ((List.range f.rows).map fun i => (i, i))

/-! ### MZERO and MLDA (R285) -/

/-- MZERO (R285). -/
def execMzero (f : MFields) (s : State) : Out1 :=
  s.meInstr (.mzero f) (fun _ => 8) (fun _ => ([], [])) fun s e => s.withTile e f.acc.toNat fun s tile =>
    let cells := (List.range f.rows).flatMap fun i => (List.range (f.cols false)).map fun j => (cellNo tile i j, (0 : BitVec 32))
    (s.putCells e cells (rowSpans tile f.rows (f.cols false))).meEnd e

/-- A value rounded to FP32 (R285). -/
def f32Of (v : Val) : BitVec 32 × Nat := let (c, f) := ffRound ffF32 0 0 false v; (BitVec.ofNat 32 c, f)

/-- The reads of row `i` of an MLDA and the cells it gives, with the flags (R285): bits 5 and 6 of MODE are CPLX and ITILE. -/
def Rd.ldaRow (r : Rd) (e : Entry) (f : MFields) (tile i : Nat) : Rd × List (Nat × BitVec 32) × Nat :=
  let v := e.view 1
  let cplx := f.mode.getLsbD 5
  let c := f.cols cplx
  let o : Org := ((e.org 1).1 + i, (e.org 1).2)
  if f.mode.getLsbD 6 then
    let (r, l) := Rd.meRaw r e v o 1 c
    (r, (List.range c).map fun j => (cellNo tile i j, BitVec.ofInt 32 (at2 0 l 0 j)), 0)
  else
    let (r, l, fl) := Rd.meBlock r e v o 1 c cplx
    let out := (List.range c).map fun j => let x := at2 (valZero, valZero) l 0 j; (j, f32Of x.1, f32Of x.2)
    if cplx then
      (r, out.flatMap (fun (j, a, b) => [(cellNo tile i (2 * j), a.1), (cellNo tile i (2 * j + 1), b.1)]), out.foldl (fun g (_, a, b) => g ||| a.2 ||| b.2) fl)
    else (r, out.map (fun (j, a, _) => (cellNo tile i j, a.1)), out.foldl (fun g (_, a, _) => g ||| a.2) fl)

/-- The rows of an MLDA that are left, `n` of them from row `i` on, with the flags so far: each is read and then written, and at a pace of
its own the entry makes one in a turn (R288, R289, log 17). -/
def State.ldaGo (s : State) (e : Entry) (f : MFields) (tile : Nat) : Nat → Nat → Nat → State
  | 0, _, fl => s.meEnd { e with keep := [fl] }
  | n + 1, i, fl =>
    let e := { e with phase := 3, keep := [fl, i] }
    let (r, cells, g) := Rd.ldaRow { s } e f tile i
    match r.stop with
    | some x => r.s.entryStop e x
    | none =>
      if !r.need.isEmpty then r.s.ask e r.need
      else
        let s := r.s.putCells e cells [(cellNo tile i 0, cells.length)]
        let e := { e with got := [] }
        if s.pace ≠ 0 && n ≠ 0 then s.putEntry { e with keep := [fl ||| g, i + 1] }
        else State.ldaGo s e f tile n (i + 1) (fl ||| g)

/-- MLDA (R285). -/
def execMlda (f : MFields) (s : State) : Out1 :=
  let cplx := f.mode.getLsbD 5
  let c := f.cols cplx
  s.meInstr (.mlda f) (fun _ => 16 + ceilDiv (f.rows * (if cplx then 2 * c else c)) 256) (fun _ => ([], [])) fun s e =>
    let v := e.view 1
    if e.phase = 3 then
      let i := (e.keep[1]?).getD 0
      s.withTile e f.acc.toNat fun s tile => s.ldaGo e f tile (f.rows - i) i (e.keep.headD 0)
    else match firstDesc [(f.t1.toNat, s.meTdesc e (e.desc 1) (meSourceOk e.core false v) (v.block (e.org 1) f.rows c) (!f.mode.getLsbD 6))] with
      | some aux => s.entryFault e causeTdesc aux e.addr
      | none => s.withTile e f.acc.toNat fun s tile => s.ldaGo e f tile f.rows 0 0

/-! ### The loop nest (R280 to R282) -/

/-- A row of the shadow nest table as State holds it: N, IMM, MODE and T1 of the MNSET. -/
def nestWord (f : MFields) : Desc := BitVec.ofNat 256 (f.n.toNat + f.imm.toNat * 2 ^ 16 + f.mode.toNat * 2 ^ 80 + f.t1.toNat * 2 ^ 112)
def nestN (d : Desc) : Nat := d.toNat % 2 ^ 16
def nestImm (d : Desc) : Nat := d.toNat / 2 ^ 16 % 2 ^ 64
def nestMode (d : Desc) : Nat := d.toNat / 2 ^ 80 % 2 ^ 32

/-- MNSET (R280, R281): writes its row at its issue when the guard holds; row 6 also keeps the destination descriptor. -/
def execMnset (f : MFields) (s : State) : Out1 :=
  done (match s.engine with
    | none =>
      let s' := s.push (.mnset f) 2
      if s.st.src.guard f.ga then
        s'.modSt fun x =>
          let n := smPut x.nest (f.mode.toNat % 8) (nestWord f)
          { x with nest := if f.mode.toNat % 8 = 6 then smPut n 7 (s.rt f.t1) else n }
      else s'
    | some e => s.endEntry e)

/-- A level row of an entry's copy of the table. -/
structure Level where
  count : Nat
  dar : Int
  dac : Int
  dbr : Int
  dbc : Int
  dacc : Nat
  kl : Bool
  wb : Bool

def Entry.level (e : Entry) (k : Nat) : Level :=
  let d : Desc := smGet 0 e.d (8 + k)
  let i (n : Nat) : Int := intOfCode 16 (nestImm d / 2 ^ (16 * n) % 2 ^ 16)
  { count := nestN d, dar := i 0, dac := i 1, dbr := i 2, dbc := i 3, dacc := nestMode d / 8 % 8, kl := (nestMode d).testBit 6,
    wb := (nestMode d).testBit 7 }

/-- What a nest does, in order (R282). -/
inductive NestAct where
  | step (a b : Org) (tile : Nat) (init : Bool)
  | wb (tile : Nat) (d : Org)
deriving DecidableEq, Repr

/-- An origin moved by `x` increments, modulo 2 ^ 32. -/
def moveOrg (o : Org) (x : Nat) (dr dc : Int) : Org := (((o.1 + x * dr) % (2 ^ 32 : Nat)).toNat, ((o.2 + x * dc) % (2 ^ 32 : Nat)).toNat)

/-- The procedure of R282: `n` levels are left. -/
def nestRun (e : Entry) : Nat → Org → Org → Org → Nat → Bool → List NestAct
  | 0, a, b, _, t, first => [.step a b t first]
  | n + 1, a, b, d, t, first =>
    let l := e.level n
    if l.count = 0 then nestRun e n a b d t first
    else (List.range l.count).flatMap fun x =>
      let a2 := moveOrg a x l.dar l.dac
      let b2 := moveOrg b x l.dbr l.dbc
      let d2 := if l.kl then d else moveOrg d x l.dar l.dbc
      let t2 := (t + x * l.dacc) % 8
      nestRun e n a2 b2 d2 t2 (first && (x == 0 || !l.kl)) ++ (if l.wb then [.wb t2 d2] else [])

def nestActs (f : MFields) (e : Entry) : List NestAct := nestRun e 6 (e.org 1) (e.org 2) (e.org 3) f.acc.toNat true

def nestSteps (l : List NestAct) : List (Org × Org) := l.filterMap fun x => match x with
  | .step a b _ _ => some (a, b)
  | .wb _ _ => none
def nestWbs (l : List NestAct) : List Org := l.filterMap fun x => match x with
  | .wb _ d => some d
  | .step _ _ _ _ => none

/-- The write-back row of an entry's copy (R281). -/
def nestWb (e : Entry) : WbArgs :=
  let d : Desc := smGet 0 e.d 14
  let m := nestMode d
  { reg := 0, d := smGet 0 e.d 15, mul := nestImm d / 2 ^ 32, rm := rmOf (m / 256 % 8) e.rmode, sat := m.testBit 11, cplx := m.testBit 12,
    itile := m.testBit 13 }

/-- Scheduled time of MNEST (R282). -/
def mnestCycles (f : MFields) (e : Entry) : Nat :=
  let ls := ((List.range 6).map e.level).reverse.filter fun l => l.count != 0
  let (outer, w) := ls.foldl (fun (p, w) l => (p * l.count, if l.wb then w + p * l.count else w)) (1, 0)
  let c := f.cols f.cplx
  16 + outer * (kCycles e.cnt (stepCycles2 f.cplx f.sparse (e.view 1) (e.view 2)) + 4)
    + w * (ceilDiv (f.rows * (if f.cplx then 2 * c else c)) 256 + 4)

/-- Run the actions of a nest from number `i` on, with the flags so far (R282): a step that waits is tried again later, and at a pace of
its own the entry takes one action in a turn (R64, log 17). -/
def State.nestGo (s : State) (e : Entry) (f : MFields) : List NestAct → Nat → Nat → State
  | [], _, fl =>
    if s.posted.any fun p => p.strand == e.strand.getD 2047 && p.seq == e.seq && p.core == e.core then s.putEntry { e with phase := 3, keep := [fl, 0, 1] }
    else s.meEnd { e with keep := [fl] }
  | a :: rest, i, fl =>
    let e := { e with phase := 3, keep := [fl, i], plan := [] }
    let next (s : State) (g : Nat) : State :=
      let e := { e with got := [] }
      if s.pace ≠ 0 && !rest.isEmpty then s.putEntry { e with keep := [fl ||| g, i + 1] } else State.nestGo s e f rest (i + 1) (fl ||| g)
    match a with
    | .step oa ob t init =>
      match s.tileOf e t with
      | none => s.tileFault e
      | some tile =>
        let spans := stepSpans f (f.init && init) tile e.cnt
        let (r, cells, g) := Rd.mstep { s } e f { a := oa, b := ob, tile, init := f.init && init }
        r.stepDone e (f.init && init) spans fun s => next (s.putCells e cells spans) g
    | .wb t d =>
      match s.tileOf e t with
      | none => s.tileFault e
      | some tile =>
        let (s, puts, g) := s.wbPuts e (nestWb e) d tile (f.cols f.cplx) ((List.range f.rows).map fun i => (i, i))
        match s.writeAll e (writePlan puts) with
        | (s, left, some .wait) => s.putEntry { e with keep := [fl ||| g, i + 1], plan := left }
        | (s, _, some x) => s.entryStop e x
        | (s, _, none) => next s g

/-- Number of the write-back row's descriptor, which reports name (R287). -/
def nestWbReg (e : Entry) : Nat := let d : Desc := smGet 0 e.d 14; d.toNat / 2 ^ 112 % 64

/-- MNEST (R282): the nest runs on its copy of the table. -/
def execMnest (f : MFields) (s : State) : Out1 :=
  let c := f.cols f.cplx
  let dst (e : Entry) (l : List NestAct) : List (Nat × Nat) := (nestWbs l).flatMap fun d => (viewOf (nestWb e).d).block d f.rows c
  s.meInstr (.mnest f) (mnestCycles f)
    (fun e =>
      let l := nestActs f e
      (if (nestWbs l).isEmpty then [] else [extOf e.core (nestWbReg e) (viewOf (nestWb e).d) (dst e l) true],
       stepExts e f (nestSteps l) f.rows))
    fun s e =>
      let l := nestActs f e
      if e.phase = 3 then
        match s.writeAll e e.plan with
        | (s, left, some .wait) => s.putEntry { e with plan := left }
        | (s, _, some x) => s.entryStop e x
        | (s, _, none) => s.nestGo { e with plan := [] } f (if e.keep.length = 3 then [] else l.drop ((e.keep[1]?).getD 0)) ((e.keep[1]?).getD 0) (e.keep.headD 0)
      else
        let wb := nestWb e
        match firstDesc (s.stepTdesc e f (nestSteps l) f.rows ++
            (if (nestWbs l).isEmpty then [] else [(nestWbReg e, s.meTdesc e wb.d (wbKind (viewOf wb.d)) (dst e l) true)])) with
        | some aux => s.entryFault e causeTdesc aux e.addr
        | none =>
          s.withTile e f.acc.toNat fun s _ => s.nestGo e f l 0 0

/-! ### 2:4 compression (R278) -/

/-- `a` ranks above `b` in magnitude: NaN above every number. -/
def rankAbove (a b : Val) : Bool := normAbove (valAbs a) (valAbs b)

/-- The two positions kept in a group of values, rising; the second is none where only one exists. -/
def keepTwo (l : List Val) : Nat × Option Nat :=
  let best (skip : Option Nat) : Option Nat :=
    l.zipIdx.foldl (fun (m : Option Nat) (v, p) => if some p = skip then m else match m with
      | none => some p
      | some q => if rankAbove v ((l[q]?).getD valZero) then some p else some q) none
  match best none with
  | none => (0, none)
  | some p => match best (some p) with
    | none => (p, none)
    | some q => (min p q, some (max p q))

/-- The values of T1 are copied bit for bit (R278). -/
def spcRaw (a b : View) : Bool := a.fmt == b.fmt && a.tscale == b.tscale && a.blk == 0 && b.blk == 0

/-- The code of +0 in a format, or of what is nearest to it. -/
def zeroCode (f : Fmt) : Nat := (fmtRound (fmtPart f) 0 0 false valZero).1

/-- MSPC (R278). -/
def execMspc (f : MFields) (s : State) : Out1 :=
  let c := f.imm.toNat % 2 ^ 16
  let g (e : Entry) : Nat := ceilDiv e.cnt 4
  let dst (e : Entry) : List (Nat × Nat) := (e.view 2).block (e.org 2) (2 * g e) c
  let mdst (e : Entry) : List (Nat × Nat) := (e.view 3).block (e.org 3) (g e) c
  let src (e : Entry) : List (Nat × Nat) := (e.view 1).block (e.org 1) e.cnt c
  s.meInstr (.mspc f) (fun e => 16 + g e * ceilDiv c 64)
    (fun e => ([extOf e.core f.t2.toNat (e.view 2) (dst e) true, extOf e.core f.t3.toNat (e.view 3) (mdst e) false],
               [extOf e.core f.t1.toNat (e.view 1) (src e) true]))
    fun s e =>
      if e.phase = 2 then s.meWrite e e.plan (e.keep.headD 0)
      else
        let v1 := e.view 1
        let v2 := e.view 2
        let v3 := e.view 3
        match firstDesc [(f.t1.toNat, s.meTdesc e (e.desc 1) (meSourceOk e.core false v1) (src e) true),
            (f.t2.toNat, s.meTdesc e (e.desc 2) (meSourceOk e.core false v2) (dst e) true),
            (f.t3.toNat, s.meTdesc e (e.desc 3) (meSourceOk e.core false v3) (mdst e) false)] with
        | some aux => s.entryFault e causeTdesc aux e.addr
        | none =>
          s.withTile e f.acc.toNat fun s _ =>
          let (r, vals, fl) := Rd.meBlock { s } e v1 (e.org 1) e.cnt c true
          let (r, raws) := if spcRaw v1 v2 then Rd.meRaw r e v1 (e.org 1) e.cnt c else (r, [])
          r.done e fun s =>
            let z := (valZero, valZero)
            let gj := (List.range (g e)).flatMap fun k => (List.range c).map fun j => (k, j)
            let picks := gj.map fun (k, j) =>
              let (p, q) := keepTwo ((List.range (min 4 (e.cnt - 4 * k))).map fun p => (at2 z vals (4 * k + p) j).1)
              (k, j, p, q)
            let out := picks.flatMap fun (k, j, p, q) => [(2 * k, j, some (4 * k + p)), (2 * k + 1, j, q.map (4 * k + ·))]
            let inside := out.filterMap fun (i, j, x) => (v2.at (e.org 2) i j).map fun rc => (rc, i, j, x)
            let puts1 : State × List Put × List (Nat × Nat) :=
              if spcRaw v1 v2 then (s, inside.map fun (rc, _, j, x) => (v2.span rc, match x with
                | some i => if (v1.at (e.org 1) i j).isSome then intCode (fmtBits v1.fmt) (at2 0 raws i j) else zeroCode v2.fmt
                | none => zeroCode v2.fmt), [])
              else s.putAll e v2 (rmOf (f.mode.toNat % 8) e.rmode) (f.mode.getLsbD 3) (inside.map fun (rc, i, j, x) =>
                { j := rc.1 * v2.vc + rc.2, ix := i * c + j, lane := 0, vals := match x with
                  | some i => let a := at2 z vals i j; if fmtComplex v1.fmt then [a.1, a.2] else [a.1]
                  | none => [valZero] })
            let (s, ps, fs) := puts1
            let codes := picks.filterMap fun (k, j, p, q) => (v3.at (e.org 3) k j).map fun rc =>
              (v3.span rc, (p + 4 * q.getD (p + 1)) % 2 ^ fmtBits v3.fmt)
            s.meWrite e (writePlan (ps ++ codes)) (fs.foldl (fun a x => a ||| x.2) fl)

/-! ### MSIG and MSCAT (R304, R306) -/

/-- MSIG (R304): builds a record and leaves every tile. -/
def execMsig (f : MFields) (s : State) : Out1 :=
  let hyper (e : Entry) : List (Nat × Nat) := (e.view 5).block (0, 0) e.cnt f.bits
  let src (e : Entry) : List (Nat × Nat) := (e.view 1).block (e.org 1) f.win e.cnt
  let rno (e : Entry) : Nat := selRec (smGet 0 e.o 3)
  s.meInstr (.msig f)
    (fun e => 16 + ceilDiv f.win 128 * kCycles e.cnt (stepCycles2 false false (e.view 1) (e.view 5)) + f.win / 8
      + (if f.rep = 2 then ceilDiv (f.win * e.cnt) 256 else 0))
    (fun e => ([recExt e.core f.t3.toNat (e.view 3) (rno e)],
               [extOf e.core f.t1.toNat (e.view 1) (src e) true, extOf e.core f.hyper (e.view 5) (hyper e) true]))
    fun s e =>
      if e.phase = 2 then s.meWrite e e.plan (e.keep.headD 0)
      else match firstDesc [(f.t1.toNat, s.meTdesc e (e.desc 1) (meSourceOk e.core false (e.view 1)) (src e) true),
          (f.t3.toNat, s.mapTdesc e (e.desc 3) (rno e)),
          (f.hyper, s.meTdesc e (e.desc 5) (meSourceOk e.core false (e.view 5)) (hyper e) true)] with
        | some aux => s.entryFault e causeTdesc aux e.addr
        | none =>
          let (r, m) := Rd.build { s } e f
          r.done e fun s => s.meWrite e (m.plan ((e.view 3).base + rno e * 4096)) 0

/-- The value that MSCAT puts for bucket `b` and column `j` (R306), with flags; none where the record names no member. -/
def mscatVal (op : Nat) (m : MapRec) (rows : List (List Val)) (b j : Nat) : Option (Val × Nat) :=
  let x (i : Nat) : Val := ((rows[i]?).getD [])[j]?.getD valZero
  match op with
  | 2 => repVal m m.rep rows b j
  | _ => (sumRows ((m.rowsOf b).map x)).map fun (v, f) =>
    if op = 1 then let (q, g) := valDiv v (.fin false ((m.count[b]?).getD 1) 1); (q, f ||| g) else (v, f)

/-- MSCAT (R306). -/
def execMscat (f : MFields) (s : State) : Out1 :=
  let c := f.imm.toNat % 2 ^ 16
  let src (e : Entry) : List (Nat × Nat) := (e.view 1).block (e.org 1) f.win c
  let dst (e : Entry) : List (Nat × Nat) := (e.view 2).block (e.org 2) 128 c
  let rno (e : Entry) : Nat := selRec (smGet 0 e.o 3)
  s.meInstr (.mscat f) (fun _ => 16 + ceilDiv (f.win * c) 256)
    (fun e => ([extOf e.core f.t2.toNat (e.view 2) (dst e) true],
               [extOf e.core f.t1.toNat (e.view 1) (src e) true, recExt e.core f.t3.toNat (e.view 3) (rno e)]))
    fun s e =>
      if e.phase = 2 then s.meWrite e e.plan (e.keep.headD 0)
      else match firstDesc [(f.t1.toNat, s.meTdesc e (e.desc 1) (meSourceOk e.core false (e.view 1)) (src e) true),
          (f.t2.toNat, s.meTdesc e (e.desc 2) (wbKind (e.view 2)) (dst e) true), (f.t3.toNat, s.mapTdesc e (e.desc 3) (rno e))] with
        | some aux => s.entryFault e causeTdesc aux e.addr
        | none =>
          s.withRecord e f.t3.toNat f.win none fun s m =>
            let used := m.used (if f.mode.toNat % 4 = 2 then m.rep else 1)
            let (r, rows) := Rd.window { s } e (e.view 1) (e.org 1) used.contains f.win c
            r.done e fun s =>
              let v := e.view 2
              let bj := (List.range m.nbkt).flatMap fun b => (List.range c).filterMap fun j => (v.at (e.org 2) b j).map fun rc => (rc, b, j)
              let vals : List ((Nat × Nat) × Nat × Nat × Option (Val × Nat)) := bj.map fun (rc, b, j) => (rc, b, j, mscatVal (f.mode.toNat % 4) m (rows.map (·.1)) b j)
              let (s, puts, fs) := s.putAll e v (rmOf (f.mode.toNat / 4 % 8) e.rmode) (f.mode.getLsbD 5) (vals.filterMap fun (rc, b, j, x) =>
                x.map fun y => { j := rc.1 * v.vc + rc.2, vals := [y.1], ix := b * c + j, lane := 0 })
              let (s, free) := s.freePuts (vals.filterMap fun (rc, _, _, x) => if x.isNone then some (v.span rc, 0) else none)
              let fv := vals.foldl (fun g (_, _, _, x) => g ||| (x.map (·.2)).getD 0) (rowFlags rows used)
              s.meWrite e (writePlan (puts ++ free)) (fs.foldl (fun a x => a ||| x.2) fv)

end Sys2Proof.Machine
end

