-- ==== Sys2Proof/Machine/Operation.lean ====
section
/-!
DEFINITION. What the slots of a bundle name: destinations (R137), sources (R154), and the order in which a bundle's slots
take effect (R136, R60).
-/
namespace Sys2Proof.Machine

/-- A register that a slot reads or writes. -/
inductive Name where
  | s (n : Nat) | g (n : Nat) | bt (n : Nat) | lc (n : Nat) | f (n : Nat) | t (n : Nat) | sys (n : Nat)
deriving DecidableEq, Repr

/-- The scalar destination register of an instruction with one (R139, R208, R218 to R233). -/
def scalarDest : Instr → Option (BitVec 6)
  | .add d .. | .sub d .. | .and d .. | .or d .. | .xor d .. | .andn d .. | .sll d .. | .srl d .. | .sra d .. | .mul d ..
  | .mulhs d .. | .mulhu d .. | .divs d .. | .divu d .. | .rems d .. | .remu d .. | .min d .. | .minu d .. | .max d ..
  | .maxu d .. | .slt d .. | .sltu d .. | .clz d .. | .ctz d .. | .popc d .. | .brev d .. | .sext d .. | .zext d ..
  | .addi d .. | .andi d .. | .ori d .. | .xori d .. | .muli d .. | .slli d .. | .srli d .. | .srai d .. | .lui d ..
  | .auipc d .. | .bext d .. | .bins d .. | .bextr d .. | .binsr d .. | .sel d .. | .ld d .. | .lds d .. | .ldx d ..
  | .amoAdd d .. | .amoAnd d .. | .amoOr d .. | .amoXor d .. | .amoMin d .. | .amoMax d .. | .amoSwap d .. | .amoCas d ..
  | .amofFaddF32 d .. | .amofFaddBf16x2 d .. | .amofFminF32 d .. | .amofFmaxF32 d .. | .fadd d .. | .fsub d .. | .fmul d ..
  | .fdiv d .. | .fsqrt d .. | .fmin d .. | .fmax d .. | .fabs d .. | .fneg d .. | .fsgnj d .. | .fclass d .. | .fma d ..
  | .fms d .. | .fnma d .. | .fnms d .. | .fcvt d .. | .mfs d _ | .acq d .. | .rel d .. | .arv d .. | .waitb d .. | .getf d _
  | .epop d _ | .epopt d _ | .tdget d .. | .mbpost d .. | .mbfin d .. | .mbver d .. => some d
  | .brl _ _ => some 63
  | _ => none

/-- The guard that an instruction writes (R194 to R196, R221, R241). -/
def guardDest : Instr → Option (BitVec 3)
  | .cmpEq g .. | .cmpNe g .. | .cmpLt g .. | .cmpGe g .. | .cmpLtu g .. | .cmpGeu g .. | .cmpTst g .. | .cmpNtst g ..
  | .cmpiEq g .. | .cmpiNe g .. | .cmpiLt g .. | .cmpiGe g .. | .cmpiLtu g .. | .cmpiGeu g .. | .cmpiTst g .. | .cmpiNtst g ..
  | .gopAnd g .. | .gopOr g .. | .gopXor g .. | .gopAndn g .. | .fcmpFeq g .. | .fcmpFlt g .. | .fcmpFle g ..
  | .fcmpFun g .. => some g
  | .epopt .. | .tlbiPage _ | .tlbiTenant _ | .tlbiAll _ => some 7
  | _ => none

/-- The destinations that R137 counts. -/
def dests (i : Instr) : List Name :=
  (match scalarDest i with
    | some d => if d = 0 then [] else [.s d.toNat]
    | none => []) ++
  (match guardDest i with
    | some g => if g = 0 then [] else [.g g.toNat]
    | none => []) ++
  (match i with
    | .pbr t _ | .mtbt t _ => [.bt t.toNat]
    | .loop _ c | .lset c _ => [.lc c.toNat]
    | .setf _ f .. | .addf _ f .. => [.f f.toNat]
    | .tdld _ _ t | .tdset _ _ t _ | .tdcpy _ _ t => [.t t.toNat]
    | .mts _ i => [.sys i.toNat]
    | .prio _ => [.sys 0x10]
    | _ => [])

/-- The s registers that a scalar instruction reads. -/
def scalarSrcs : Instr → List (BitVec 6)
  | .add _ a b _ | .sub _ a b _ | .and _ a b _ | .or _ a b _ | .xor _ a b _ | .andn _ a b _ | .sll _ a b _ | .srl _ a b _
  | .sra _ a b _ | .mul _ a b _ | .mulhs _ a b _ | .mulhu _ a b _ | .divs _ a b _ | .divu _ a b _ | .rems _ a b _
  | .remu _ a b _ | .min _ a b _ | .minu _ a b _ | .max _ a b _ | .maxu _ a b _ | .slt _ a b _ | .sltu _ a b _
  | .sext _ a b _ | .zext _ a b _ | .bextr _ a b _ | .sel _ a b _ | .cmpEq _ a b _ | .cmpNe _ a b _ | .cmpLt _ a b _
  | .cmpGe _ a b _ | .cmpLtu _ a b _ | .cmpGeu _ a b _ | .cmpTst _ a b _ | .cmpNtst _ a b _ | .fcmpFeq _ a b _
  | .fcmpFlt _ a b _ | .fcmpFle _ a b _ | .fcmpFun _ a b _ | .fadd _ a b .. | .fsub _ a b .. | .fmul _ a b .. | .fdiv _ a b ..
  | .fmin _ a b _ | .fmax _ a b _ | .fsgnj _ a b _ | .amoAdd _ a b .. | .amoAnd _ a b .. | .amoOr _ a b .. | .amoXor _ a b ..
  | .amoMin _ a b .. | .amoMax _ a b .. | .amoSwap _ a b .. | .amofFaddF32 _ a b .. | .amofFaddBf16x2 _ a b ..
  | .amofFminF32 _ a b .. | .amofFmaxF32 _ a b .. | .acq _ a b _ | .waitb _ a b _ | .mbpost _ a b | .mbfin _ a b
  | .dstchk a b _ => [a, b]
  | .clz _ a _ | .ctz _ a _ | .popc _ a _ | .brev _ a _ | .addi _ a _ | .andi _ a _ | .ori _ a _ | .xori _ a _ | .muli _ a _
  | .slli _ a .. | .srli _ a .. | .srai _ a .. | .bext _ a .. | .ld _ a .. | .lds _ a .. | .ldx _ a _ | .prf a ..
  | .cmpiEq _ a _ | .cmpiNe _ a _ | .cmpiLt _ a _ | .cmpiGe _ a _ | .cmpiLtu _ a _ | .cmpiGeu _ a _ | .cmpiTst _ a _
  | .cmpiNtst _ a _ | .mtbt _ a | .lset _ a | .fsqrt _ a .. | .fabs _ a _ | .fneg _ a _ | .fclass _ a _ | .fcvt _ a ..
  | .mts a _ | .rel _ a .. | .arv _ a .. | .epush a _ | .tdld _ a _ | .tdst _ a _ | .tdset _ a .. | .mbver _ a _
  | .tlbiPage a | .tlbiTenant a | .cinv a _ | .cfls a _ => [a]
  | .bins d a .. | .st d a .. | .stx d a _ => [d, a]
  | .binsr d a b | .amoCas d a b .. | .bind d a b _ | .unbind d a b _ => [d, a, b]
  | .setf a _ i _ | .addf a _ i _ => if i = 0 then [a] else []
  | .fma _ a b c | .fms _ a b c | .fnma _ a b c | .fnms _ a b c => [a, b, c]
  | _ => []

/-- A field of an M word is used by its operation: it is not among those that must be zero. -/
def mUsed (op : Nat) (f : MFields) (lo : Nat) : Bool := !(mZero op f).any fun z => decide (z.1 ≤ lo) && decide (lo < z.1 + z.2)

/-- The s and t registers that a slot reads. -/
def srcs (i : Instr) : List Name :=
  (scalarSrcs i).map (fun r => Name.s r.toNat) ++
  (match i with
    | .tdst _ _ t | .tdget _ _ t _ | .tdset _ _ t _ => [.t t.toNat]
    | .tdcpy _ m _ => [.t m.toNat]
    | _ => []) ++
  (match vCode i with
    | some (op, f) =>
      let u := vUses op f.mod.toNat
      [.t f.td.toNat] ++ (if u.ts % 2 = 1 then [.t f.ts1.toNat] else []) ++ (if u.ts / 2 % 2 = 1 then [.t f.ts2.toNat] else [])
        ++ (if u.ts / 4 % 2 = 1 then [.t f.ts3.toNat] else []) ++ (if u.od then [.s f.od.toNat] else [])
        ++ (if u.os then [.s f.os.toNat] else []) ++ (if f.ci = 1 then [.s (f.cnt.toNat % 64)] else [])
    | none => []) ++
  (match mCode i with
    | some (op, f) =>
      (if mUsed op f 174 then [.t f.t1.toNat] else []) ++ (if mUsed op f 168 then [.t f.t2.toNat] else [])
        ++ (if mUsed op f 162 then [.t f.t3.toNat] else []) ++ (if mUsed op f 156 then [.s f.o1.toNat] else [])
        ++ (if mUsed op f 150 then [.s f.o2.toNat] else []) ++ (if mUsed op f 144 then [.s f.o3.toNat] else [])
        ++ (if op = 8 || (op = 1 && f.mode.getLsbD 4) then [.t (f.imm.toNat / 2 ^ 16 % 64)] else [])
        ++ (if (op = 1 || op = 2) && f.mode.toNat % 4 == 1 then [.t (f.imm.toNat / 2 ^ 22 % 64)] else [])
    | none => [])

/-- The register is held by a scoreboarded operation (R154). -/
def Strand.held (x : Strand) (n : Name) : Bool :=
  match n with
  | .s k => k != 0 && x.board.any (·.dst == .s k)
  | .t k => x.board.any (·.dst == .t k)
  | _ => false

/-- Instructions that may wait and are no access, so that the pushes of their bundle need not wait with them (R19, R83, R85). -/
def waitsAside : Instr → Bool
  | .fence _ | .drain _ => true
  | _ => false

/-- A slot that waits aside lets the pushes after it go first; a commit-class instruction stays last (R60). -/
def deferWait (l : List (Nat × Instr)) : List (Nat × Instr) :=
  match l with
  | (k, i) :: r =>
    if waitsAside i && r.all fun p => decide (3 ≤ p.1) then
      (r.filter fun p => !commitClass p.2) ++ (k, i) :: r.filter fun p => commitClass p.2
    else l
  | [] => []

def isLoad : Instr → Bool
  | .ld .. | .lds .. | .ldx .. | .tdld .. => true
  | _ => false

def isStore : Instr → Bool
  | .st .. | .stx .. | .tdst .. => true
  | _ => false

/-- When a slot takes effect among the slots of its bundle (R136): in the order S0, S1, V, M; but RGN opens the region first (R59), a
load in S1 does not see the store in S0 (R188), supervisor registers affect later bundles (R238), a change of control comes after the
other slots, and a commit-class instruction last (R60). -/
def slotRank (slots : List (Nat × Instr)) (k : Nat) (i : Instr) : Nat :=
  if commitClass i then 8
  else match i with
  | .rgn _ => 0
  | .mts _ n => if 0x60 ≤ n.toNat then 6 else k
  | .eret | .halt | .wfi => 7
  | _ => if k = 2 && isLoad i && slots.any fun p => p.1 == 1 && isStore p.2 then 0 else k

/-- Insert a slot in the order of ranks. -/
def insertSlot (r : Nat) (x : Nat × Instr) : List (Nat × Nat × Instr) → List (Nat × Nat × Instr)
  | [] => [(r, x)]
  | y :: l => if r < y.1 then (r, x) :: y :: l else y :: insertSlot r x l

/-- The slots of a bundle in the order in which they take effect. -/
def slotOrder (slots : List (Nat × Instr)) : List (Nat × Instr) :=
  (slots.foldl (fun l x => insertSlot (slotRank slots x.1 x.2) x l) []).map (·.2)

end Sys2Proof.Machine
end

