-- ==== Sys2Proof/Machine/Issue.lean ====
section
/-!
DEFINITION. Instruction fetch (R103, R132), the decode faults of a bundle (R137, R141, R149, R150), readiness (R54, R57,
R62, R65, R134, R154), the choice of a strand (R55), and a core cycle: BUNDLE_ISSUE.
-/
namespace Sys2Proof.Machine

/-- What a fetch of a word gives. -/
inductive FetchWord where
  | word (w : Nat)
  | trap (t : Trap)
  | consumed (unit : Nat)
  | pending
deriving DecidableEq, Repr

/-- Room for one more word of instruction memory (R18): where it is full, a word that is held is dropped, by a free choice. -/
def State.imemRoom (s : State) (core : Nat) : State :=
  let m := (s.coreAt core).imem
  if m.length < imemWords then s else
  let (c, s) := s.choose m.length
  s.modCore core fun x => { x with imem := m.eraseIdx c }

/-- Words of instruction memory, the first at `va`, as a home or a reply gives them (R103). -/
def State.fillImem (s : State) (core va : Nat) (bs : List Byte) : State :=
  (List.range (bs.length / 4)).foldl (fun s i =>
    (s.imemRoom core).modCore core fun c => { c with
      imem := smPut c.imem (va + 4 * i) (BitVec.ofNat 32 (leNat ((bs.drop (4 * i)).take 4)))
      inj := c.rewritten 3 (· == (va + 4 * i) / 8) }) s

/-- A fetch that meets an injected granule of instruction memory: the unit whose uncorrectable error it consumes, with the
contents discarded (R465). -/
def State.scanImem (s : State) (core task va : Nat) : State × Option Nat :=
  if (s.coreAt core).inj.isEmpty then (s, none) else
  let c := s.coreAt core
  match smFind c.inj (injKey 3 (va / 8)), smFind c.imem va with
  | some syn, some _ =>
    let s := s.modCore core fun c => { c with inj := smDel c.inj (injKey 3 (va / 8)) }
    match s.injFate 64 with
    | (s, .agrees) => (s, none)
    | (s, .corrected x) =>
      let s := s.modCore core fun c => { c with imem := c.imem.map fun (a, w) =>
        (a, if a / 8 = va / 8 then w ^^^ BitVec.ofNat 32 (x / 2 ^ (8 * (a % 8)) % 2 ^ 32) else w) }
      (s.corrected (dieOf core) 3 (va / 8 * 8) (syn % 256) (s.tenantOf core) task, none)
    | (s, .bad) => (s.modCore core ({ · with imem := [] }), some 3)
  | _, _ => (s, none)

/-- Fetch the word at `va` for strand `n` (R103, R132). Instruction memory may have dropped a word or still hold it, which
matters where the home has changed since: a free choice (log 7). -/
def State.fetchWord (s : State) (n va : Nat) : State × FetchWord :=
  let core := coreOf n
  let x := s.strandAt n
  let bad (t : Trap) : State × FetchWord := (s, .trap t)
  if isLocal va then bad (causeAccess, 1)
  else match s.globalPlace core x.now.sup .ex 0 va with
    | (s, .error t) => (s, .trap t)
    | (s, .ok p) =>
      match s.scanImem core x.task va with
      | (s, some u) => (s, .consumed u)
      | (s, none) =>
      let cached := smFind (s.coreAt core).imem va
      match p with
      | .mem pa =>
        let s := s.performWhere fun y => y.core == core && y.touches (pa / 128)
        match cached with
        | some w =>
          if s.memNat pa 4 = w.toNat then (s, .word w.toNat)
          else
            let (c, s) := s.choose 2
            if c = 0 then (s, .word w.toNat)
            else (s.fillImem core va (s.memBytes pa 4), .word (s.memNat pa 4))
        | none =>
          match s.scanMem (s.tenantOf core) x.task pa 4 with
          | (s, .poison a k) => match s.poisonRead { core, task := x.task } a k with
            | (s, .trap t) => (s, .trap t)
            | (s, _) => (s, .trap (causePoison, k))
          | (s, .consumed u _) => (s, .consumed u)
          | (s, .ok) => (s.fillImem core va (s.memBytes pa 4), .word (s.memNat pa 4))
      | .remote pa | .host pa =>
        match cached with
        | some w => (s, .word w.toNat)
        | none =>
          let remote := pa / 2 ^ 46 % 1024 != s.node
          let (s, _) := if remote then s.requestRead (dieOf core) (.fetch n va) pa (s.tenantOf core) 4 (BitVec.ofNat 64 va)
            else s.requestHost (dieOf core) (.fetch n va) pa (s.tenantOf core) 4 (BitVec.ofNat 64 va)
          (s.modStrand n ({ · with fetching := true }), .pending)
      | _ => (s, .trap (causeAccess, 1))

/-- Words from `va` on, least significant first, or the first failure with its address. -/
def State.fetchWords (s : State) (n : Nat) : Nat → Nat → State × Except (Nat × FetchWord) (List Nat)
  | _, 0 => (s, .ok [])
  | va, k + 1 =>
    match s.fetchWord n va with
    | (s, .word w) =>
      match s.fetchWords n (va + 4) k with
      | (s, .ok l) => (s, .ok (w :: l))
      | r => r
    | (s, r) => (s, .error (va, r))

/-- A bundle ready to issue: its header and its slots with their numbers of R150. -/
structure Bundle where
  hdr : Header
  slots : List (Nat × Instr)
deriving DecidableEq, Repr

/-- The number of a list of 32-bit words, least significant first (R4). -/
def wordsNat : List Nat → Nat
  | [] => 0
  | w :: r => w + 2 ^ 32 * wordsNat r

/-- TRAP_AUX of a decode fault (R150). -/
def decodeAux (bit slot code : Nat) : Nat := bit * 2 ^ 16 + slot * 2 ^ 8 + code

/-- The first decode fault of a slot (R149, R150). -/
def slotFault (sup : Bool) (slot : Nat) (d : Except Bad Instr) : Except Trap Instr :=
  match d with
  | .error .illegal => .error (causeIllegalOp, decodeAux 0 slot 0)
  | .error (.reserved b) => .error (causeReserved, decodeAux b slot 0)
  | .ok i => if privileged i && !sup then .error (causeAccess, decodeAux 0 slot 0x10) else .ok i

/-- The first pair of slots that satisfy `p`: the number of the later one. -/
def pairFault (p : Instr → Instr → Bool) : List (Nat × Instr) → Option Nat
  | [] => none
  | (_, i) :: r =>
    match r.find? fun x => p i x.2 with
    | some x => some x.1
    | none => pairFault p r

/-- The composition rules of R137, in their order. -/
def composeFault (slots : List (Nat × Instr)) : Option Trap :=
  match pairFault (fun i j => (dests i).any fun n => (dests j).contains n) slots with
  | some k => some (causeIllegalBundle, decodeAux 0 k 0x20)
  | none =>
    if slots.any fun x => x.1 == 1 && s1Only x.2 then some (causeIllegalBundle, decodeAux 0 1 0x21)
    else
      let closing (i : Instr) : Bool := commitClass i || match i with
        | .rgn _ => true
        | _ => false
      match pairFault (fun i j => closing i && closing j) slots with
      | some k => some (causeIllegalBundle, decodeAux 0 k 0x22)
      | none => none

/-- Decode the slots of a bundle from its words (R131, R149, R150). -/
def decodeBundle (sup : Bool) (hdr : Header) (ws : List Nat) : Except Trap Bundle :=
  let rec go : List (Nat × Nat × Nat) → Except Trap (List (Nat × Instr))
    | [] => .ok []
    | (k, off, nbits) :: r =>
      match slotFault sup k (decodeSlot nbits (wordsNat ((ws.drop (off / 4)).take (nbits / 32)))) with
      | .error t => .error t
      | .ok i =>
        match go r with
        | .error t => .error t
        | .ok l => .ok ((k, i) :: l)
  match go (slotsOf hdr.p) with
  | .error t => .error t
  | .ok slots =>
    match composeFault slots with
    | some t => .error t
    | none => .ok { hdr, slots }

/-- How a strand stands in a core cycle. -/
inductive Look where
  /-- not ready, and the watchdog does not count -/
  | idle
  /-- waits on its wait field or a scoreboarded register (R57) -/
  | waiting
  /-- cancelled, and its next bundle opens a region (R65) -/
  | boundary
  | ready (b : Bundle)
  /-- the next bundle faults: cause and TRAP_INFO -/
  | trap (t : Trap) (info : Nat)
  /-- an uncorrectable error of an instruction word would be consumed (R464) -/
  | consumed (unit info : Nat)
deriving DecidableEq, Repr

/-- The wait condition (R134). -/
def waitHolds (r : Regs) (h : Header) : Bool :=
  !h.we || (let f := (r.getF h.wf).toNat
            if h.wc = 0 then decide ((f + 256 - h.wv) % 256 < 128) else f == h.wv)

/-- Readiness of a decoded bundle (R54, R62, R65, R154). -/
def Strand.lookBundle (x : Strand) (b : Bundle) : Look :=
  let opens := b.slots.any fun p => match p.2 with
    | .rgn _ => true
    | _ => false
  let reopens := match x.regions.getLast? with
    | some r => r.reopen && r.id != 0xFFFF && r.entry == x.pc
    | none => false
  if b.slots.any fun p => (srcs p.2).any x.held || (dests p.2).any x.held then .waiting
  else if opens && x.cancelling then .boundary
  else if opens && !reopens && decide (Config.maxRegions ≤ x.prune.regions.length) then .idle
  else if b.slots.any fun p => match engineOf p.2 with
      | some k => decide (Config.queueDepth ≤ (smGet [] x.queues k).length)
      | none => false then .idle
  else .ready b

/-- The watchdog of strand `n` has counted to its limit: the strand traps, and does nothing else (R58). -/
def State.wdogDue (s : State) (n : Nat) : Bool :=
  let limit := (s.coreAt (coreOf n)).wdogLimit
  limit != 0 && decide (limit ≤ (s.strandAt n).wdog)

/-- How strand `n` stands in this core cycle. -/
def State.look (s : State) (n : Nat) : State × Look :=
  let x := s.strandAt n
  if !x.live || x.fault.isSome || x.flight.isSome || x.stall != 0 || x.fetching || s.wdogDue n then (s, .idle)
  else
    let pc := x.pc.toNat
    let fail (s : State) (r : Nat × FetchWord) : State × Look :=
      match r with
      | (va, .trap t) => (s, .trap t va)
      | (va, .consumed u) => (s, .consumed u va)
      | _ => (s, .idle)
    match s.fetchWord n pc with
    | (s, .word w) =>
      match decodeHeader w with
      | .error none => (s, .trap (causeIllegalBundle, 0) pc)
      | .error (some b) => (s, .trap (causeReserved, decodeAux b 0 0) pc)
      | .ok h =>
        if !waitHolds x.now h then (s, .waiting)
        else
          match s.fetchWords n (pc + 4) (bundleLen h.p / 4 - 1) with
          | (s, .error r) => fail s r
          | (s, .ok ws) =>
            match decodeBundle x.now.sup h (w :: ws) with
            | .error t => (s, .trap t pc)
            | .ok b => (s, x.lookBundle b)
    | (s, r) => fail s (pc, r)

/-- The slots of a core, in slot order after the last issuer of a class (R55). -/
def slotsAfter (last : Nat) : List Nat := (List.range Config.slots).map fun i => (last + 1 + i) % Config.slots

/-- The strand that issues (R55): the first ready one of the highest effective class. -/
def State.pick (s : State) (core : Nat) (ready : List Nat) : Option Nat :=
  let cls (k : Nat) : Nat := s.effClass (core * Config.slots + k)
  let top := ready.foldl (fun m k => max m (cls k)) 0
  (slotsAfter (smGet 3 (s.coreAt core).lastIssue top)).find? fun k => ready.contains k && cls k == top

/-- The bundle's wait condition observed the increment that ended an entry (R87, R134). -/
def observes (h : Header) (m : Unseen) : Bool :=
  match m.flag with
  | some (f, v) => h.we && h.wf == f && decide ((h.wv + 256 - v.toNat) % 256 < 128)
  | none => false

/-- Strand `n`'s bundle has executed: its bundle distance passes (R135, R152). -/
def State.endBundle (s : State) (n base stall : Nat) : State :=
  (s.modStrand n fun x => { x with flight := none, seq := max x.seq (base + 6), retry := false }).advance n (1 + stall)

/-- Issue a bundle of strand `n` (R54, R55, R131, R136): its slots read the registers as they stand now, and the stall countdown is
loaded. A bundle that is only a header ends at once (R133). -/
def State.issue (s : State) (n : Nat) (b : Bundle) : State :=
  let core := coreOf n
  let cls := s.effClass n
  let s := s.modCore core fun c => { c with lastIssue := smPut c.lastIssue cls (n % Config.slots) }
  let (s, latch) := s.latch n
  let x := s.strandAt n
  let s := s.setStrand n { x with
    addr := x.pc, pc := x.pc + BitVec.ofNat 64 (bundleLen b.hdr.p), bundles := x.bundles + 1, wdog := 0, blocked := 0
    retry := false, stall := b.hdr.stall
    unseen := x.unseen.filter fun m => !observes b.hdr m
    flight := some { left := slotOrder b.slots, latch, stall := b.hdr.stall, btWait := x.btWait, base := x.seq } }
  if b.slots.isEmpty then s.endBundle n x.seq b.hdr.stall else s

/-- What a core cycle does to a strand that does not issue (R57, R58, R65, R149). -/
def State.cycleStrand (s : State) (n : Nat) (l : Look) : State :=
  let x := s.strandAt n
  match l with
  | .trap t info =>
    s.recordFault n { cause := t.1, info := BitVec.ofNat 64 info, aux := BitVec.ofNat 64 t.2, seq := x.seq, rid := x.curRid }
  | .consumed u info =>
    s.recordFault n { cause := causePoison, info := BitVec.ofNat 64 info, aux := BitVec.ofNat 64 (0xF + u * 256), seq := x.seq,
                      rid := x.curRid, replay := 3 }
  | .boundary => if x.idle then s.leaveSlot n else s
  | .waiting => if x.cancelling then s.leaveSlot n else s.setStrand n { x with wdog := x.wdog + 1 }
  | _ =>
    if x.live && x.waitsNow then
      if x.cancelling then s.leaveSlot n
      else if x.blocked = 1 || x.blocked = 2 || x.blocked = 3 then s.setStrand n { x with wdog := x.wdog + 1 }
      else s
    else s

/-- BUNDLE_ISSUE (R55): one core cycle of core `n`. The slots of the issued bundle then take effect one by one. -/
def execBundleIssue (s : State) : Out1 :=
  let core := s.ev.n
  let strands := (List.range Config.slots).map fun k => (k, core * Config.slots + k)
  let (s, looks) := strands.foldl (fun (s, l) (k, n) =>
    let (s, r) := s.look n
    (s, l ++ [(k, n, r)])) (s, ([] : List (Nat × Nat × Look)))
  let ready := looks.filterMap fun (k, _, r) => match r with
    | .ready _ => some k
    | _ => none
  let chosen := s.pick core ready
  let s := strands.foldl (fun s (_, n) =>
    let x := s.strandAt n
    if x.stall = 0 then s else s.setStrand n { x with stall := x.stall - 1 }) s
  let s := s.modCore core fun c => { c with cycle := c.cycle + 1 }
  done (looks.foldl (fun s (k, n, r) =>
    match r with
    | .ready b => if chosen = some k then s.issue n b else s
    | r => s.cycleStrand n r) s)

/-! ### Running the slots of an issued bundle -/

/-- The next slot of strand `n`'s bundle, with the strand set to execute it (R136, R246): its issue number follows the
slot's place in the bundle. A strand whose watchdog is due does not try a slot again (R58). -/
def State.startSlot (s : State) (n : Nat) : Option (State × Instr) :=
  let x := s.strandAt n
  match x.flight with
  | some f =>
    match f.left with
    | (k, i) :: _ =>
      if x.blocked ≠ 0 && s.wdogDue n then none
      else some ({ (s.setStrand n { x with slotNo := k, retry := x.blocked != 0, blocked := 0, commit := false, seq := slotSeq f.base k i }) with cur := n }, i)
    | [] => none
  | none => none

/-- The slot has executed: it waits, or the next one follows, or the bundle ends (R135, R152). A slot that waits aside lets the
pushes of its bundle go first. -/
def State.endSlot (s : State) (n : Nat) : State :=
  let x := s.strandAt n
  match x.flight with
  | none => s
  | some f =>
    if x.blocked ≠ 0 then
      if (deferWait f.left).map (·.1) = f.left.map (·.1) then s
      else s.setStrand n { x with blocked := 0, flight := some { f with left := deferWait f.left } }
    else match f.left.filter (·.1 != x.slotNo) with
      | [] => s.endBundle n f.base f.stall
      | l => s.setStrand n { x with flight := some { f with left := l } }

end Sys2Proof.Machine
end

