-- ==== Sys2Proof/Machine/Replies.lean ====
section
/-!
DEFINITION. What comes back to a request: DATA, ACK and NAK flits (R480, R488, R489, R499), completions of host reads (R440), and the
host's part in the coherence of shared lines (R93, R440, R441).
-/
namespace Sys2Proof.Machine

/-! ### Answers and failures -/

/-- Change the queue entry of `core` that waits for a request. -/
def State.modWaiting (s : State) (core id : Nat) (f : Entry → Entry) : State :=
  let g (e : Entry) : Entry := if e.waits.contains id then f e else e
  let s := (List.range Config.slots).foldl (fun s k =>
    let n := core * Config.slots + k
    if (s.strandAt n).queues.isEmpty then s
    else s.modStrand n fun x => { x with queues := x.queues.map fun (q : Nat × List Entry) => (q.1, q.2.map g) }) s
  s.modCore core fun c => { c with apq := c.apq.map g }

/-- The queue entry that waits for a request. -/
def State.waitingEntry (s : State) (core id : Nat) : Option Entry :=
  (((List.range Config.slots).flatMap fun k => (s.strandAt (core * Config.slots + k)).queues.flatMap (·.2)) ++ (s.coreAt core).apq).find?
    (·.waits.contains id)

/-- The request is no longer awaited. -/
def Entry.heard (e : Entry) (id : Nat) : Entry := { e with waits := e.waits.filter (· != id) }

/-- Bytes put where an entry's reads find them (R252). -/
def gotPut (m : SMap Byte) (a : Nat) (bs : List Byte) : SMap Byte := bs.zipIdx.foldl (fun m (p : Byte × Nat) => smPut m (a + p.2) p.1) m

/-- The bytes of a host line's request enter the L1 of a core, where they are the whole line and the core has not written to it since
(R24, R75, R189). Bytes that the host gave and an L1 copy does not hold make the copy one that no later load may return (R75). -/
def State.fillHostLine (s : State) (core : Nat) (r : Req) (bs : List Byte) : State :=
  let a := r.addr % 2 ^ 46
  if !r.toHost || r.nofill then s
  else if r.len = 128 && a % 128 = 0 then s.putLine core (a / 128) fun i => BitVec.ofNat 128 (leNat ((bs.drop (16 * i)).take 16))
  else match smFind (s.coreAt core).l1 (a / 16) with
    | some v =>
      if ((sectorBytes v).drop (a % 16)).take r.len = bs then s
      else s.modCore core fun c => { c with stale := if c.stale.contains (a / 16) then c.stale else a / 16 :: c.stale }
    | none => s

/-- The value of a scalar load or atomic is there (R154, R192). -/
def State.deliverScalar (s : State) (n : Nat) (r : Req) (bs : List Byte) : State :=
  let x := s.strandAt n
  if x.amo = some r.id then s.setStrand n { x with amo := none, amoOld := some (BitVec.ofNat 64 (leNat bs)) }
  else
    let whole := r.len == 128 && r.toHost
    let s := s.fillHostLine (coreOf n) r bs
    let give (b : Board) : Board :=
      if b.req ≠ r.id then b
      else
        let l := if whole then (bs.drop (b.addr.toNat % 128)).take b.size else bs.take b.size
        { b with req := 0, val := some (if b.size ≤ 8 then (loadVal b.sext l).setWidth 256 else BitVec.ofNat 256 (leNat l)) }
    s.modStrand n fun x => { x with board := x.board.map give }

/-- Change the attachment that asked for the line of a request (R23). -/
def State.modFill (s : State) (n k line id : Nat) (f : State → Attachment → State × Attachment) : State :=
  match smFind (s.strandAt n).sync k with
  | some { att := some a, .. } =>
    if !a.asked.contains (line, id) then s
    else
      let (s, a) := f s { a with asked := a.asked.filter (·.1 != line) }
      s.modStrand n fun x => { x with sync := smPut x.sync k { (smGet default x.sync k) with att := some a } }
  | _ => s

/-- Bytes that a host's read through another package, or of host memory, was waiting for (R93). -/
def State.giveHost (s : State) (r : Req) (bs : List Byte) : State :=
  { s with later := s.later.map fun (i, e) =>
      if i = .hostRead && e.list.contains r.id then
        (i, { e with data := e.data.take r.va.toNat ++ bs.map some ++ e.data.drop (r.va.toNat + bs.length) })
      else (i, e) }

/-- A request's bytes are delivered to whoever asked for them. -/
def State.deliver (s : State) (r : Req) (bs : List Byte) : State :=
  match r.owner with
  | .strand n => s.deliverScalar n r bs
  | .entry core _ =>
    let s := match s.waitingEntry core r.id with
      | some e => if e.dieEngine then s else s.fillHostLine core r bs
      | none => s
    s.modWaiting core r.id fun e => { e.heard r.id with got := gotPut e.got r.addr bs }
  | .fetch n va => (s.fillImem (coreOf n) va bs).modStrand n ({ · with fetching := false })
  | .fill n k line => s.modFill n k line r.id fun s a => s.putFill (coreOf n) a line bs
  | .line core => s.fillHostLine core r bs
  | .hostAccess _ => s.giveHost r bs
  | .device key => s.modDev key fun a =>
    if a.waits.contains r.id then { a with waits := a.waits.erase r.id, got := gotPut a.got r.addr bs } else a
  | .peer d f => s.sendBack d f 1 0x20 (chunksOf 256 bs)
  | .posted _ | .die _ => s

/-- A failed request of the queue entry that it belongs to: a read faults when the entry comes to it, a collective packet faults the
entry, and MBSEND keeps the code for its status (R340, R375, R499). A copy entry's channel is then FAULTED (R312, R317). -/
def State.failEntry (s : State) (core : Nat) (r : Req) (t : Trap) (code : Nat) : State :=
  if r.op = 3 then
    s.modWaiting core r.id fun e => { e.heard r.id with fails := (List.range r.len).foldl (fun m i => smPut m (r.addr + i) t) e.fails }
  else if r.op = 5 then s.modWaiting core r.id fun e => { e.heard r.id with parts := [(0, [code])] }
  else match s.waitingEntry core r.id with
    | some e =>
      let s := match mCode e.instr with
        | some (op, f) => if 0x40 ≤ op && op < 0x46 then s.failChan core (f.mode.toNat % 16) else s
        | none => s
      s.entryFault e t.1 t.2 e.addr
    | none => s

/-- A scalar access or a fetch of strand `n` faults (R246, R440, R489, R499). -/
def State.failScalar (s : State) (n : Nat) (r : Req) (t : Trap) : State :=
  let x := s.strandAt n
  let info (va : Word) : Word := if r.toHost then BitVec.ofNat 64 (r.addr / r.len * r.len + va.toNat % r.len) else va
  let p : Pending := { cause := t.1, info := info r.va, aux := BitVec.ofNat 64 t.2, seq := x.seq, rid := x.curRid }
  if x.amo = some r.id then (s.setStrand n { x with amo := none }).recordFault n p
  else match x.board.find? (·.req == r.id) with
    | some b => s.recordFault n { p with info := info b.addr, seq := b.seq, rid := b.rid }
    | none => s

/-- A request fails: the trap, and the NAK code where there is one. -/
def State.failReq (s : State) (r : Req) (t : Trap) (code : Nat) : State :=
  match r.owner with
  | .strand n => s.failScalar n r t
  | .entry core _ => s.failEntry core r t code
  | .fetch n va =>
    let x := s.strandAt n
    if !x.fetching then s
    else (s.setStrand n { x with fetching := false }).recordFault n
      { cause := t.1, info := BitVec.ofNat 64 va, aux := BitVec.ofNat 64 t.2, seq := x.seq, rid := x.curRid }
  | .fill n k line => s.modFill n k line r.id fun s a => (s, { a with failed := a.failed ++ [(line, t.1, t.2)] })
  | .device key => s.modDev key fun a =>
    if !a.waits.contains r.id then a
    else { a with waits := a.waits.erase r.id
                  fails := if r.op = 3 then (List.range r.len).foldl (fun m i => smPut m (r.addr + i) t) a.fails else a.fails }
  | .peer d f => s.nak d f 3
  | .posted _ | .die _ | .line _ | .hostAccess _ => s

/-! ### Replies of other packages -/

/-- The request of die `d` that a reply from the fabric answers (R489). -/
def State.findReq (s : State) (d : Nat) (f : Flit) : Option Req :=
  s.reqs.find? fun r => !r.toHost && r.die == d && r.msgid == f.msgid && r.flits.any fun g => g.dnode == f.snode

/-- The request has been answered: its flits are no longer in flight (R485). -/
def State.closeReq (s : State) (r : Req) : State :=
  let s := { s with reqs := s.reqs.filter (·.id != r.id) }
  if r.toHost then s else s.modDie r.die fun x => { x with inFlight := x.inFlight - r.flits.length }

def State.putReq (s : State) (r : Req) : State := { s with reqs := s.reqs.map fun q => if q.id = r.id then r else q }

/-- Reserve credits come back to the channel end that spent them (R494). -/
def State.regain (s : State) (r : Req) (n : Nat) : State :=
  match r.flits.find? (·.rsv == 0) with
  | some f =>
    match smFind (s.dieAt r.die).stages (f.chan / 4) with
    | some g => s.setStage r.die (f.chan / 4) (g.modChan (f.chan % 4) fun c => { c with credits := min 16 (c.credits + n) })
    | none => s
  | none => s

/-- ACK (R480, R494): a reply at die `n`. -/
def execAck (s : State) : Out1 :=
  let d := s.ev.n
  let f := s.ev.flit
  done (match s.findReq d f with
    | none => s.badFlit d
    | some r =>
      let s := (s.closeReq r).regain r (leNat ((f.payload.drop 8).take 8))
      match r.owner with
      | .posted _ => s.ackPosted r.id
      | .entry core _ => s.modWaiting core r.id (·.heard r.id)
      | .device key => s.modDev key fun a => { a with waits := a.waits.erase r.id }
      | _ => s)

/-- DATA (R480): a flit of a reply at die `n`. -/
def execData (s : State) : Out1 :=
  let d := s.ev.n
  let f := s.ev.flit
  done (match s.findReq d f with
    | none => s.badFlit d
    | some r =>
      if r.op ≠ 3 && r.op ≠ 4 then s.badFlit d
      else
        let data := smPut r.data f.fidx f.payload
        if data.length ≤ f.flast then s.putReq { r with data }
        else (s.closeReq r).deliver r ((data.flatMap (·.2)).take r.len))

/-- The trap that a NAK code means for a request (R489, R499). -/
def nakTrap (r : Req) (f : Flit) (code : Nat) : Trap :=
  let kind := match r.owner with
    | .posted _ => 1
    | .entry _ _ => if r.op = 5 then 4 else 3
    | _ => if r.op = 4 then 2 else 0
  if code = 2 then (causeTenantKey, tokenAux 0 kind f.sdie f.snode) else (causeAccess, 5)

/-- A flit must be sent again after its backoff, with the age that the NAK brings (R488). -/
def State.retryFlit (s : State) (r : Req) (i age : Nat) : State :=
  let k := smGet 0 r.naks i + 1
  let flits := r.flits.map fun g => if g.fidx = i then { g with age, circ := 0 } else g
  (s.putReq { r with flits, naks := smPut r.naks i k, backoff := smPut r.backoff i (64 * 2 ^ min k 6) }).modDie r.die
    fun x => { x with inFlight := x.inFlight - 1 }

/-- NAK (R489): a refusal at die `n`. -/
def execNak (s : State) : Out1 :=
  let d := s.ev.n
  let f := s.ev.flit
  let hdr := leNat (f.payload.take 32)
  let code := leNat ((f.payload.drop 32).take 1)
  done (match s.findReq d f with
    | none => s.badFlit d
    | some r =>
      if code = 1 then s.retryFlit r (bitsOf hdr 53 48) (bitsOf hdr 255 224)
      else
        let s := (s.closeReq r).regain r (r.flits.filter (·.rsv == 0)).length
        let t := nakTrap r f code
        match r.owner with
        | .posted _ => (match s.posted.find? (·.id == r.id) with
          | some p => (s.ackPosted r.id).reportPosted p t.1 t.2 (if code = 2 then 2 ^ 16 else 0)
          | none => s)
        | _ => s.failReq r t code)

/-- RETRY_BACKOFF (R488): flit `k` of request `n` is sent again. -/
def execRetryBackoff (s : State) : Out1 :=
  done (match s.reqs.find? (·.id == s.ev.n) with
    | none => s
    | some r =>
      match smFind r.backoff s.ev.k with
      | none => s
      | some _ => (s.putReq { r with backoff := smDel r.backoff s.ev.k }).inject r.die (r.flits.filter (·.fidx == s.ev.k)))

/-! ### The host's answers (R440, R441) -/

/-- The host's lines that home slices cache, at most 131,072 (R441): the oldest is written back and dropped. -/
def State.cacheHostLine (s : State) (line : Nat) : State :=
  if !s.cxl || s.cxlCache.contains line then s
  else match s.cxlCache with
    | o :: rest =>
      if 131072 ≤ s.cxlCache.length then { s with cxlCache := rest ++ [line], out := s.out ++ [.cxlDrop o] }
      else { s with cxlCache := s.cxlCache ++ [line] }
    | [] => { s with cxlCache := [line] }

/-- HOST_COMPLETION (R440): request `n` completes with its data, or with a status: 1 UR, 2 CA, 3 poisoned data, 4 a translation that the
host denies. Status 4 for no request is a posted write of function `k` that the host denied. -/
def execHostCompletion (s : State) : Out1 :=
  done (match s.reqs.find? fun r => r.id == s.ev.n && r.toHost with
    | none => if s.ev.status = 4 then s.countDropped s.ev.k else s
    | some r =>
      let s1 := s.closeReq r
      if s.ev.status ≠ 0 || s.ev.data.length < r.len then s1.failReq r (causeAccess, 1) 3
      else (s1.cacheHostLine (r.addr / 128)).deliver r ((s.ev.data.take r.len).map (·.getD 0)))

/-- COMPLETION_TIMEOUT (R440): request `n` gets no completion. -/
def execCompletionTimeout (s : State) : Out1 :=
  done (match s.reqs.find? fun r => r.id == s.ev.n && r.toHost with
    | none => s
    | some r => (s.closeReq r).failReq r (causeAccess, 1) 3)

/-- Outstanding requests that use a page of host memory. -/
def State.usersOf (s : State) (page : Nat) : List Nat :=
  (s.reqs.filter fun r => r.toHost &&
    (let a := r.addr % 2 ^ 46 - 0x200000000000
     decide (a / 4096 ≤ page) && decide (page ≤ (a + r.len - 1) / 4096))).map (·.id)

/-- ATS_INVALIDATE (R440): the translation of host page `n` is removed, and the request completes once the accesses that used it have
ended; `list` holds those while it waits, with status 1. -/
def execAtsInvalidate (s : State) : Out1 :=
  let page := s.ev.n
  let s1 : State := if s.ev.status = 1 then s
    else { s with ats := s.ats.filter (· != page), ev := { s.ev with status := 1, list := s.usersOf page } }
  done (if s1.reqs.any fun r => s1.ev.list.contains r.id then s1.postpone .atsInvalidate
    else { s1 with out := s1.out ++ [.atsDone page] })

/-- BACK_INVALIDATE_ANSWER (R441): the host gives up line `n`, with its modified copy where `data` holds one. -/
def execBackInvalidateAnswer (s : State) : Out1 :=
  let line := s.ev.n
  let s1 : State := { s with held := s.held.filter (· != line), snooped := s.snooped.filter (· != line) }
  let bs := s.ev.data.map (·.getD 0)
  done (if bs.length = 128 then s1.performMem 0 0 (line * 128) bs else s1)

/-- CXL_CACHE_SNOOP (R93): the host takes line `n` back from the home slice that caches it. -/
def execCxlCacheSnoop (s : State) : Out1 := done { s with cxlCache := s.cxlCache.filter (· != s.ev.n) }

end Sys2Proof.Machine
end

