-- ==== Sys2Proof/Machine/Agents.lean ====
section
/-!
DEFINITION. What the agents of the package can do next: the cores' issue cycles (R55), engine turns (R19, R157), results and
stores on their way (R73, R90, R154), checks, traps and the watchdog, the launch unit and the stage schedulers (R46, R68, R373), task
control (R458), the fabric (R484, R488, R503) and a start's own steps (R449). Each is one row of the opcode table.
-/
namespace Sys2Proof.Machine

/-- A step that the machine can take. -/
inductive Act where
  /-- an event of the opcode table -/
  | event (i : Instr) (e : Event)
  /-- a turn of an engine: the entry it serves -/
  | turn (e : Entry)
  /-- an event that waited, by its place in the list -/
  | later (k : Nat)
deriving DecidableEq, Repr, Inhabited

/-- An engine: its number (R232) and the core or, from 3 on, the die it belongs to. -/
def dieEngines : List Nat := [3, 4, 5, 6]

/-- The entries at the heads of an engine's queues, with their queue numbers and effective classes (R19, R31). -/
def State.heads (s : State) (engine place : Nat) : List (Nat × Nat × Entry) :=
  (s.strands.filterMap fun (n, x) =>
    if (if engine ≤ 2 then coreOf n else dieOf (coreOf n)) = place then
      match smGet [] x.queues engine with
      | e :: _ => some (e.queueNo engine, s.effClass n, e)
      | [] => none
    else none) ++
  (if engine = 2 then
    match (s.coreAt place).apq with
    | e :: _ => [(4, 3, e)]
    | [] => []
   else [])

/-- The entry is in service: it has begun. -/
def Entry.begun (e : Entry) : Bool := e.phase != 0 || !e.waits.isEmpty

/-- The entry that an engine serves next (R19): the one in service, else the head of highest effective class, in rotation. An entry
begins once the scalar accesses before it have been performed and answered (R86). -/
def State.serve (s : State) (engine place : Nat) : Option Entry :=
  let hs := s.heads engine place
  match hs.find? fun h => h.2.2.begun with
  | some (_, _, e) => if e.waits.isEmpty && s.keReady e then some e else none
  | none =>
    let hs := hs.filter fun h => !h.2.2.after.any s.outstanding
    let top := hs.foldl (fun m h => max m h.2.1) 0
    let best := hs.filter fun h => h.2.1 == top
    let home := if engine ≤ 2 then place else place * Config.coresPerDie
    let last := smGet 1000 (s.coreAt home).lastServed engine
    match best.find? fun h => decide (last < h.1) with
    | some (_, _, e) => some e
    | none => best.head?.map fun h => h.2.2

/-- The cores that hold a strand. -/
def State.liveCores (s : State) : List Nat := ((s.strands.filter (·.2.live)).map fun p => coreOf p.1).eraseDups

/-- The engine turns that can be taken. -/
def State.turns (s : State) : List Act :=
  let busy := s.strands.filter fun p => p.2.queues.any fun q => !q.2.isEmpty
  let cores := (busy.map (fun p => coreOf p.1) ++ (s.cores.filter fun c => !c.2.apq.isEmpty).map (·.1)).eraseDups
  let dies := (busy.map fun p => dieOf (coreOf p.1)).eraseDups
  (cores.flatMap fun c => [0, 1, 2].filterMap fun k => (s.serve k c).map .turn) ++
  (dies.flatMap fun d => dieEngines.filterMap fun k => (s.serve k d).map .turn)

/-- What a strand's own parts can do. -/
def State.strandActs (s : State) (n : Nat) (x : Strand) : List Act :=
  let ev (i : Instr) (k : Nat) : Act := .event i { agent := .strand n, n, k }
  (x.board.zipIdx.filterMap fun (b, k) => if b.val.isSome then some (ev .scoreboardReturn k) else none) ++
  (match x.fault with
    | some p => if x.faultReady then [ev (if p.replay = 0 then .trapEntry else .regionReplay) 0] else []
    | none => []) ++
  (if x.dueCheck.isSome then [ev .regionCheck 0] else []) ++
  (let limit := (s.coreAt (coreOf n)).wdogLimit
   if x.live && limit != 0 && decide (limit ≤ x.wdog) && x.fault.isNone then [ev .watchdog 0] else [])

/-- Elements of input FIFOs that the KE and the MBS take (R222, R339, R377). -/
def State.inputActs (s : State) (n : Nat) (x : Strand) : List Act :=
  let d := dieOf (coreOf n)
  (match smGet [] x.inFifo 0x10 with
    | v :: _ => [.event .cancelGroup { agent := .strand n, n := d, k := v.toNat % 64 }]
    | [] => []) ++
  (match smGet [] x.inFifo 0x13 with
    | v :: _ => if s.fifoFull (coreOf n) 0x13 then [] else [.event .newver { agent := .strand n, n := d, v }]
    | [] => [])

/-- A store may be performed now where no earlier one of its strand to the same line is left (R75) and the host holds no copy of its
line (R441); and the home may complete a parity update that it has begun (R95). -/
def State.storeActs (s : State) : List Act :=
  let ev (i : Nat) : Act := .event .writePerformed { n := i }
  (s.stores.zipIdx.filterMap fun (x, i) =>
    let line := x.pa / 128
    if !(s.held.contains line) && !(s.stores.take i).any fun y => y.strand == x.strand && y.touches line then some (ev i) else none)
  ++ (List.range s.parity.length).map fun i => ev (s.stores.length + i)

/-- A posted write within the package may be performed: the oldest of its strand to its line (R90). -/
def State.postedActs (s : State) : List Act :=
  s.posted.zipIdx.filterMap fun (p, i) =>
    if p.pa / 2 ^ 46 = s.node && !(s.posted.take i).any fun q => q.strand == p.strand && q.engine == p.engine && q.pa / 128 == p.pa / 128
    then some (.event .remoteWriteAck { n := p.id }) else none

/-- The home slices may copy a write of the owner table (R512). -/
def State.ownerActs (s : State) : List Act := (List.range s.ownerOld.length).map fun i => .event .ownerTableWrite { k := i, status := 1 }

/-- A launch queue's head can be dispatched (R46), or something of it is read, or asked for, first (R43, R45). -/
def State.launchActs (s : State) : List Act :=
  if s.lqs.all fun p => p.2.head == p.2.tail then [] else
  match s.launchPick with
  | (t, p) => if p.isSome || t.snooped != s.snooped || t.lqs != s.lqs || t.devAcc != s.devAcc then [.event .launchDispatch {}] else []

/-- Tasks that can retire (R68), stages whose table picks a dispatch (R373), and commands of task control that can go on (R458). -/
def State.taskActs (s : State) : List Act :=
  (s.tasks.filterMap fun p => if s.canRetire p.1 p.2 then some (.event .taskRetire { n := p.1 }) else none) ++
  (s.dies.flatMap fun (p : Nat × Die) =>
    (p.2.stages.filterMap fun q => if s.stageReady p.1 q.2 then some (.event .stageDispatch { n := p.1, k := q.1 }) else none) ++
    (if !s.tcReady p.1 then [] else match p.2.tcJob with
      | some (op, id) => [.event (if op = 1 then .preempt else if op = 2 then .resume else .fault) { k := p.1, n := id, status := 1 }]
      | none => []))

/-- The fabric's own steps: a router cycle (R484), a flit whose backoff has passed (R488), and link keys (R503). -/
def State.fabricActs (s : State) : List Act :=
  (if s.dies.any fun p => p.2.moving then [.event .routerCycle {}] else []) ++
  (s.reqs.flatMap fun r => r.backoff.map fun (p : Nat × Nat) => .event .retryBackoff { n := r.id, k := p.1 }) ++
  (s.ports.flatMap fun (p : Nat × Port) =>
    (if p.2.warnDue then [.event .keyWarn { k := p.1 }] else []) ++ (if p.2.exhausted then [.event .keyExhausted { k := p.1 }] else []))

/-- The steps of a start that need nothing from outside (R449): the firmware check, the zero-fill, the end of the wait for keys, and
the loading of the supervisor. -/
def State.bootActs (s : State) : List Act :=
  if s.boot.state ≠ 1 then [] else
  match s.boot.stage with
  | 1 => [.event .firmwareCheck {}]
  | 3 => [.event .zeroFill {}]
  | 4 => if s.linksReady then [.event .linkEqualisation { status := 1 }] else []
  | 6 => [.event .supervisorLoad {}]
  | _ => []

/-- A waiting host access can go on: the writes of its function before it have been made (R92), and its reads answered. -/
def State.hostMay (s : State) (k : Nat) (e : Event) : Bool :=
  if e.list.any (· != 0) then !s.reqs.any fun r => e.list.contains r.id
  else match e.agent with
    | .host fn => !s.hostBusy fn && !(s.later.take k).any fun q => q.1 == .hostWrite && q.2.agent == .host fn
    | _ => true

/-- Events that have waited: host accesses in their order (R92), and any other. -/
def State.laterActs (s : State) : List Act :=
  s.later.zipIdx.filterMap fun (p, k) =>
    if (p.1 == .hostWrite || p.1 == .hostRead) && !s.hostMay k p.2 then none else some (.later k)

/-- A stage whose table picks a task starts it at once (R373, R396), unless something that it reads must be waited for. -/
def State.urgent (s : State) : Option Act :=
  s.dies.findSome? fun (d, x) => x.stages.findSome? fun (sel, g) =>
    if (smFind s.devAcc (tableKey d sel)).isNone && s.stageReady d g then some (.event .stageDispatch { n := d, k := sel }) else none

/-- The steps that the machine's own agents can take. -/
def State.enabled (s : State) : List Act :=
  (s.liveCores.map fun c => .event .bundleIssue { n := c }) ++ s.turns
  ++ (s.strands.flatMap fun p => s.strandActs p.1 p.2 ++ s.inputActs p.1 p.2) ++ s.storeActs ++ s.postedActs ++ s.ownerActs ++ s.launchActs ++ s.taskActs
  ++ s.fabricActs ++ s.bootActs ++ s.laterActs

/-- The channels whose copy entry is in service at the CE of a core. -/
def State.openChans (s : State) (core : Nat) : List Nat :=
  (s.heads 2 core).filterMap fun h => if h.2.2.begun then (mCode h.2.2.instr).map fun p => p.2.ch else none

/-- A core whose channels are active only while their copy entries are in service (R89). -/
def Core.keepActive (x : Core) (open1 : List Nat) : Core :=
  if x.chans.all fun h => !h.2.active then x
  else { x with chans := x.chans.map fun (k, h) => (k, { h with active := h.active && open1.contains k }) }

/-- What a step leaves behind is put in order: a channel whose copy entry has gone is no longer active (R89),
and a group whose command was abandoned is aborted (R339). -/
def State.settle (s : State) : State :=
  let s := s.lostGroups.foldl (fun s (d, g) => s.abortGroup d g 2) s
  if s.cores.all fun c => c.2.chans.all fun h => !h.2.active then s else
  { s with cores := s.cores.map fun (c, x) => (c, x.keepActive (s.openChans c)) }

end Sys2Proof.Machine
end

