-- ==== Sys2Proof/Machine/Compare.lean ====
section
/-!
DEFINITION. Majors 0x18 to 0x1B: compares (R194), guard operations (R195) and floating-point compares (R196).
-/
namespace Sys2Proof.Machine

/-- A compare of two registers (R194, R177). -/
def compareRR (c : Cond) (g : BitVec 3) (w : BitVec 1) (a b : Word) (s : State) : Out1 :=
  done (s.wg g (if w = 1 then condHolds c (lowW a) (lowW b) else condHolds c a b))

/-- A compare with an immediate (R194). -/
def compareRI (c : Cond) (g : BitVec 3) (a : Word) (i : BitVec 14) (s : State) : Out1 :=
  done (s.wg g (condHolds c a (simm i)))

/-- CMP.EQ (R194). -/
def execCmpEq (g : BitVec 3) (a b : BitVec 6) (w : BitVec 1) (s : State) : Out1 :=
  compareRR .eq g w (s.rs a) (s.rs b) s
/-- CMPI.EQ (R194). -/
def execCmpiEq (g : BitVec 3) (a : BitVec 6) (i : BitVec 14) (s : State) : Out1 := compareRI .eq g (s.rs a) i s

/-- CMP.NE (R194). -/
def execCmpNe (g : BitVec 3) (a b : BitVec 6) (w : BitVec 1) (s : State) : Out1 :=
  compareRR .ne g w (s.rs a) (s.rs b) s
/-- CMPI.NE (R194). -/
def execCmpiNe (g : BitVec 3) (a : BitVec 6) (i : BitVec 14) (s : State) : Out1 := compareRI .ne g (s.rs a) i s

/-- CMP.LT (R194). -/
def execCmpLt (g : BitVec 3) (a b : BitVec 6) (w : BitVec 1) (s : State) : Out1 :=
  compareRR .lt g w (s.rs a) (s.rs b) s
/-- CMPI.LT (R194). -/
def execCmpiLt (g : BitVec 3) (a : BitVec 6) (i : BitVec 14) (s : State) : Out1 := compareRI .lt g (s.rs a) i s

/-- CMP.GE (R194). -/
def execCmpGe (g : BitVec 3) (a b : BitVec 6) (w : BitVec 1) (s : State) : Out1 :=
  compareRR .ge g w (s.rs a) (s.rs b) s
/-- CMPI.GE (R194). -/
def execCmpiGe (g : BitVec 3) (a : BitVec 6) (i : BitVec 14) (s : State) : Out1 := compareRI .ge g (s.rs a) i s

/-- CMP.LTU (R194). -/
def execCmpLtu (g : BitVec 3) (a b : BitVec 6) (w : BitVec 1) (s : State) : Out1 :=
  compareRR .ltu g w (s.rs a) (s.rs b) s
/-- CMPI.LTU (R194). -/
def execCmpiLtu (g : BitVec 3) (a : BitVec 6) (i : BitVec 14) (s : State) : Out1 := compareRI .ltu g (s.rs a) i s

/-- CMP.GEU (R194). -/
def execCmpGeu (g : BitVec 3) (a b : BitVec 6) (w : BitVec 1) (s : State) : Out1 :=
  compareRR .geu g w (s.rs a) (s.rs b) s
/-- CMPI.GEU (R194). -/
def execCmpiGeu (g : BitVec 3) (a : BitVec 6) (i : BitVec 14) (s : State) : Out1 := compareRI .geu g (s.rs a) i s

/-- CMP.TST (R194). -/
def execCmpTst (g : BitVec 3) (a b : BitVec 6) (w : BitVec 1) (s : State) : Out1 :=
  compareRR .tst g w (s.rs a) (s.rs b) s
/-- CMPI.TST (R194). -/
def execCmpiTst (g : BitVec 3) (a : BitVec 6) (i : BitVec 14) (s : State) : Out1 := compareRI .tst g (s.rs a) i s

/-- CMP.NTST (R194). -/
def execCmpNtst (g : BitVec 3) (a b : BitVec 6) (w : BitVec 1) (s : State) : Out1 :=
  compareRR .ntst g w (s.rs a) (s.rs b) s
/-- CMPI.NTST (R194). -/
def execCmpiNtst (g : BitVec 3) (a : BitVec 6) (i : BitVec 14) (s : State) : Out1 := compareRI .ntst g (s.rs a) i s

/-- GOP.AND (R195). -/
def execGopAnd (g : BitVec 3) (x y : BitVec 4) (s : State) : Out1 :=
  let (x, y) := (s.st.src.guard x, s.st.src.guard y)
  done (s.wg g (x && y))

/-- GOP.OR (R195). -/
def execGopOr (g : BitVec 3) (x y : BitVec 4) (s : State) : Out1 :=
  let (x, y) := (s.st.src.guard x, s.st.src.guard y)
  done (s.wg g (x || y))

/-- GOP.XOR (R195). -/
def execGopXor (g : BitVec 3) (x y : BitVec 4) (s : State) : Out1 :=
  let (x, y) := (s.st.src.guard x, s.st.src.guard y)
  done (s.wg g (x != y))

/-- GOP.ANDN (R195). -/
def execGopAndn (g : BitVec 3) (x y : BitVec 4) (s : State) : Out1 :=
  let (x, y) := (s.st.src.guard x, s.st.src.guard y)
  done (s.wg g (x && !y))

/-- A floating-point operand of a compare: F32, or F64 with .D (R178, R196). -/
def cmpVal (w : BitVec 1) (a : Word) : Val := if w = 1 then ffDec ffF64 a.toNat else ffDec ffF32 (a.toNat % 2 ^ 32)

/-- A floating-point compare: the result from two numbers, and whether a quiet NaN raises NV (R196). -/
def compareF (unordered quietNv : Bool) (f : Val → Val → Bool) (g : BitVec 3) (w : BitVec 1) (a b : Word) (s : State) :
    Out1 :=
  let (x, y) := (cmpVal w a, cmpVal w b)
  let nan := valIsNan x || valIsNan y
  let fl := if nan && quietNv then flNV else snanFl [x, y]
  done ((s.wg g (if nan then unordered else !unordered && f x y)).orVflags fl)

/-- FCMP.FEQ (R196). -/
def execFcmpFeq (g : BitVec 3) (a b : BitVec 6) (w : BitVec 1) (s : State) : Out1 :=
  compareF false false (valEq) g w (s.rs a) (s.rs b) s

/-- FCMP.FLT (R196). -/
def execFcmpFlt (g : BitVec 3) (a b : BitVec 6) (w : BitVec 1) (s : State) : Out1 :=
  compareF false true (valLt) g w (s.rs a) (s.rs b) s

/-- FCMP.FLE (R196). -/
def execFcmpFle (g : BitVec 3) (a b : BitVec 6) (w : BitVec 1) (s : State) : Out1 :=
  compareF false true (fun x y => valLt x y || valEq x y) g w (s.rs a) (s.rs b) s

/-- FCMP.FUN (R196). -/
def execFcmpFun (g : BitVec 3) (a b : BitVec 6) (w : BitVec 1) (s : State) : Out1 :=
  compareF true false (fun _ _ => false) g w (s.rs a) (s.rs b) s

end Sys2Proof.Machine
end

