-- ==== Sys2Proof/Machine/Control.lean ====
section
/-!
DEFINITION. Majors 0x20 to 0x27: branch targets, branches and loops (R197 to R199), TRAP, SYS and the return from a
trap (R228 to R231).
-/
namespace Sys2Proof.Machine

/-- Set a branch target; it is ready three bundle distances later (R155, R197). -/
def State.setTarget (s : State) (t : Nat) (v : Word) : State :=
  s.modSt fun x => { x.modNow (·.setBt t v) with btWait := smPut x.btWait t 3 }

/-- PBR (R197). -/
def execPbr (t : BitVec 2) (o : BitVec 24) (s : State) : Out1 := done (s.setTarget t.toNat (s.st.addr + (simm o <<< 2)))

/-- MTBT (R197). -/
def execMtbt (t : BitVec 2) (a : BitVec 6) (s : State) : Out1 := done (s.setTarget t.toNat (s.rs a))

/-- BR (R198). -/
def execBr (t : BitVec 2) (g : BitVec 4) (s : State) : Out1 := done (if s.st.src.guard g then s.branch t.toNat else s)

/-- BRL (R198): the link is the address of the bundle after its own, which the program counter already holds. A branch
that faults does not take effect. -/
def execBrl (t : BitVec 2) (g : BitVec 4) (s : State) : Out1 :=
  done (if s.st.src.guard g then
    (if (s.st.src.getBt t.toNat).toNat % 4 != 0 then s.branch t.toNat
     else (s.modSt fun x => x.putS 63 x.pc).branch t.toNat)
  else s)

/-- LOOP (R199). -/
def execLoop (t c : BitVec 2) (s : State) : Out1 :=
  let n := s.st.src.getLc c.toNat
  done (if n = 0 then s
    else if n = 1 then s.modSt (·.modNow (·.setLc c.toNat 0))
    else if (s.st.src.getBt t.toNat).toNat % 4 != 0 then s.branch t.toNat
    else (s.modSt (·.modNow (·.setLc c.toNat (n - 1)))).branch t.toNat)

/-- LSET (R199). -/
def execLset (c : BitVec 2) (a : BitVec 6) (s : State) : Out1 :=
  done (s.modSt (·.modNow (·.setLc c.toNat (lowW (s.rs a)))))

/-- TRAP (R228): raises TRAPI with the code. -/
def execTrap (c : BitVec 14) (s : State) : Out1 := done (s.raise (causeTrapi, c.toNat) s.st.addr)

/-- NOP (R229). -/
def execNop (s : State) : Out1 := done s

/-- YIELD (R229): the strand becomes the last issuer of its class, and is not ready in the next core cycle. -/
def execYield (s : State) : Out1 :=
  let x := s.st
  let s := s.setSt { x with stall := max x.stall 1 }
  done (s.modCore s.curCore fun c => { c with lastIssue := smPut c.lastIssue x.src.cls.toNat (s.cur % Config.slots) })

/-- TEXIT (R229): commit-class; the strand's slots are released and its strand slot becomes EMPTY. -/
def execTexit (s : State) : Out1 := done (s.commit fun s => s.leaveSlot s.cur)

/-- HALT (R229): privileged; the strand waits until a resume write to its core's control register (R510). -/
def execHalt (s : State) : Out1 :=
  done (s.priv fun s =>
    let x := s.st
    if x.retry && !x.halted then s
    else s.modSt ({ · with halted := true, blocked := 4 }))

/-- ERET (R231): privileged. -/
def execEret (s : State) : Out1 := done (s.priv State.returnTrap)

/-- WFI (R229): the strand waits until one of its flags changes or an element enters a result FIFO of its core. -/
def execWfi (s : State) : Out1 :=
  let x := s.st
  done (if x.retry && !x.wfi then s
    else s.modSt ({ · with wfi := true, blocked := 5 }))

/-- BKPT (R229): raises BREAK. -/
def execBkpt (s : State) : Out1 := done (s.raise (causeBreak, 0) s.st.addr)

end Sys2Proof.Machine
end

