-- ==== Sys2Proof/Machine/Monitors.lean ====
section
/-!
DEFINITION. What the Gumon controller and the home slices do on their own account: monitor windows (R514 to R516), scrub passes (R472,
R513) and the loss of a stack (R473 to R475).
-/
namespace Sys2Proof.Machine

/-! ### Monitors -/

/-- THOT, THYST and VLOW as they are taken (R514). -/
def Die.hotAt (x : Die) : Int := ((if 60 ≤ x.thot && x.thot ≤ 105 then x.thot else 95 : Nat) : Int) * 16
def Die.calmAt (x : Die) : Int := x.hotAt - ((if 1 ≤ x.thyst && x.thyst ≤ 20 then x.thyst else 5 : Nat) : Int) * 16
def Die.railLow (x : Die) (v : Nat) : Nat := let w := (x.vrailAt v).toNat; max (w % 65536) (bitsOf w 31 16)

/-- The sensors, and the voltage monitors with their rails. -/
def Die.temps (x : Die) : List Int := (List.range 32).map fun i => (smGet 0 x.therm i).toInt
def Die.volts (x : Die) : List (Nat × Nat) := (List.range 32).map fun i => (i / 8, (smGet 0 x.volt i).toNat)

/-- The first sensor or rail of a sample that trips (R516). -/
def Die.trip (x : Die) : Option Nat :=
  match x.temps.findIdx? fun t => decide ((x.ttrip : Int) * 16 ≤ t) with
  | some i => some i
  | none => (x.volts.find? fun (v, mv) =>
      let w := (x.vrailAt v).toNat
      decide (mv < bitsOf w 31 16) || decide (bitsOf w 47 32 < mv)).map fun p => 0x80 + p.1

/-- The stretch level after a sample (R515). -/
def Die.nextStretch (x : Die) : Nat :=
  let hot := x.temps.any (fun t => decide (x.hotAt ≤ t)) || x.volts.any fun (v, mv) => decide (mv < x.railLow v)
  let calm := x.temps.all (fun t => decide (t < x.calmAt)) && x.volts.all fun (v, mv) => decide (x.railLow v ≤ mv)
  if hot then min (x.stretch + 1) 8 else if calm then x.stretch - 1 else x.stretch

/-- A sample enters the monitor block (R514): 32 sensors, 32 voltage monitors, 4 process monitors. A monitor that the list leaves out
reads as before. -/
def Die.sample (x : Die) (l : List Nat) : Die :=
  let part (m : SMap (BitVec 16)) (at0 n : Nat) : SMap (BitVec 16) :=
    (List.range n).foldl (fun m i => match l[at0 + i]? with
      | some v => smSet 0 m i (BitVec.ofNat 16 v)
      | none => m) m
  { x with therm := part x.therm 0 32, volt := part x.volt 32 32, proc := part x.proc 64 4, mtime := x.time }

/-- A trip (R516): power leaves every die, the host link goes down, and die and sensor are retained. -/
def State.tripNow (s : State) (d v : Nat) : State :=
  { s.blank with inbox := [], hostUp := false, boot := { s.boot with tripped := some (d, v) } }

/-- MONITOR_WINDOW (R514 to R516) of die `n`, with the samples in `list`. A THOT written in the window is used now or in the next
(R521). -/
def execMonitorWindow (s : State) : Out1 :=
  let d := s.ev.n
  done (if s.boot.tripped.isSome then s
    else
      let s := s.passTime d
      let x := (s.dieAt d).sample s.ev.list
      match x.trip with
      | some v => (s.setDie d x).tripNow d v
      | none =>
        let (c, s) := if x.thotOld = x.thot then (0, s) else s.choose 2
        let k := (if c = 0 then x else { x with thot := x.thotOld }).nextStretch
        let s1 := s.setDie d { x with stretch := k, stretchWin := if k = 0 then x.stretchWin else (x.stretchWin + 1) % 2 ^ 32, thotOld := x.thot }
        if x.stretch = 0 && k != 0 then s1.event (eventWord 3 d 0xFF k x.mtime) else s1)

/-! ### The scrub -/

/-- SCRUB_PASS (R472, R513): every HBM word that its check bits do not match is corrected or rebuilt, and charged to its owner (R463);
`list` holds the stripes whose parity does not match, which get fresh parity. With PERIOD 0 only a pass that had begun before ends: status
1. -/
def execScrubPass (s : State) : Out1 :=
  done (if s.boot.state ≠ 2 || (s.scrubPeriod = 0 && s.ev.status != 1) then s
    else
      let s1 := (s.memSyn.filter fun (p : Nat × BitVec 8) => isHbm (p.1 * 8)).foldl (fun s (p : Nat × BitVec 8) =>
        (s.scanMem (s.ownerOf (p.1 * 8)) 0 (p.1 * 8) 8).1) s
      let s1 := s.ev.list.foldl (fun s i =>
        let a := i * 11 * 128
        s.rasWrite (homeOf a).1 { addr := a, kind := 0xB, tenant := s.ownerOf a, unit := 5, stack := i % 12 }) s1
      { s1 with scrubPasses := (s1.scrubPasses + 1) % 2 ^ 32 })

/-! ### Stack loss -/

/-- The line of a stripe that lies on a stack, if it is no parity line (R471). -/
def lineOn (stripe stack : Nat) : Option Nat :=
  let j := (stack + 12 * (stripe + 1) - (stripe + 1)) % 12
  if j < 11 then some (stripe * 11 + j) else none

/-- A stripe whose parity update was not complete loses its line on the lost stack (R474). -/
def State.poisonStripe (s : State) (k i : Nat) : State :=
  match lineOn i k with
  | none => s
  | some line =>
    let a := line * 128
    ({ s with poison := smPut s.poison line k } : State).rasWrite (homeOf a).1
      { addr := a, info := i, kind := 0xA, tenant := s.ownerOf a, unit := 5, stack := k }

/-- STACK_LOSS (R473 to R475) of stack `n`. -/
def execStackLoss (s : State) : Out1 :=
  let k := s.ev.n
  done (if 12 ≤ k || s.lost.contains k then s
    else
      let second := !s.lost.isEmpty
      let open1 := (s.parity.map fun x => stripeOf (x.line * 128)).eraseDups
      let s1 : State := { s with lost := s.lost ++ [k], parity := [], boot := { s.boot with degr := true }
                                 memSyn := s.memSyn.filter fun (p : Nat × BitVec 8) => !(isHbm (p.1 * 8) && stackOf (p.1 * 8) == k) }
      let s1 := s1.rasWrite (stackDie k) { kind := 9, unit := 5, stack := k }
      if second then s1.rasWrite (stackDie k) { kind := 0xC, unit := 5, stack := k }
      else open1.foldl (fun s i => s.poisonStripe k i) s1)

end Sys2Proof.Machine
end

