-- ==== Sys2Proof/Machine/Ports.lean ====
section
/-!
DEFINITION. Engine ports (R220 to R223): EPOP, EPOPT and EPUSH, all commit-class.
-/
namespace Sys2Proof.Machine

/-- Pop the oldest element `e` for s(d), with the acquire of R88: the element leaves its FIFO once the bound lines that it covers have been
fetched again, and `f` ends the instruction. Where another strand of the core pops meanwhile, the acquire begins anew. -/
def State.popElem (s : State) (port : Nat) (e : Elem) (d : Nat) (f : State → State) : State :=
  let core := s.curCore
  let s := if s.st.acq = some e then s else s.acquireRanges e.cover
  s.acquireEnd e s.st.addr State.waitCommit fun s =>
    let s := s.setFifo core port ((s.fifo core port).drop 1)
    let s := (List.range Config.slots).foldl (fun s k =>
      let m := core * Config.slots + k
      if (s.strandAt m).commit then s.modStrand m ({ · with acq := none }) else s) s
    let s := s.modSt fun x => { x with unseen := x.unseen.filter fun m => !(e.cover.any fun c => touchesRange core c.1 c.2 m.covers) }
    f (s.boardS d e.v)

/-- EPOP (R221): it waits in COMMIT for an element. -/
def execEpop (d p : BitVec 6) (s : State) : Out1 :=
  done (s.commit fun s =>
    match s.fifo s.curCore p.toNat with
    | [] => s.waitCommit
    | e :: _ => s.popElem p.toNat e d.toNat State.committed)

/-- EPOPT (R221): g7 says that the FIFO was empty. -/
def execEpopt (d p : BitVec 6) (s : State) : Out1 :=
  done (s.commit fun s =>
    match s.fifo s.curCore p.toNat with
    | [] => ((s.boardS d.toNat 0).wg 7 true).committed
    | e :: _ => s.popElem p.toNat e d.toNat fun s => (s.wg 7 false).committed)

/-- An element that its engine's layout does not admit (R339, R343, R377). -/
def badElement (p v : Nat) : Bool :=
  if p = 0x10 then v / 64 != 1
  else if p = 0x13 then v / 2 ^ 40 != 0x10000
  else true

/-- EPUSH (R222, R223): port 0x14 stores a queue's LQ_TAIL; the others enter the strand's input FIFO of 4 elements. -/
def execEpush (a p : BitVec 6) (s : State) : Out1 :=
  let v := s.rs a
  done (s.commit fun s =>
    if p = 0x14 then
      let q := v.toNat % 8
      let tenant := s.tenantOf s.curCore
      if v &&& 0xFFFF0000FFFFFFF8 ≠ 0 || (s.lqAt q).tenant ≠ tenant then s.raise (causeAccess, 7) s.st.addr
      else
        ((s.flushStrand).post [(.lqTail, { agent := .strand s.cur, tenant, k := q, n := 0x1000 * q + 0x18,
                                           v := BitVec.ofNat 64 (bitsOf v.toNat 47 32) })]).committed
    else if badElement p.toNat v.toNat then s.raise (causeAccess, 7) s.st.addr
    else
      let l := smGet [] s.st.inFifo p.toNat
      if 4 ≤ l.length then s.waitCommit
      else
        let n := s.cur
        let s := s.performWhere fun x => x.strand == n
        (s.modSt fun x => { x with inFifo := smSet [] x.inFifo p.toNat (l ++ [v]) }).committed)

end Sys2Proof.Machine
end

