-- ==== Sys2Proof/Machine/ScalarFloat.lean ====
section
/-!
DEFINITION. Majors 0x28 to 0x2A: scalar floating point (R200 to R203). Every result is rounded once, and raised flags go to
VFLAGS (R179).
-/
namespace Sys2Proof.Machine

/-- The format of an instruction's D bit (R178, R200). -/
def fopFmt (x : BitVec 1) : FloatFmt := if x = 1 then ffF64 else ffF32

/-- A source read in a format; the bits above it are ignored (R178). -/
def srcF (f : FloatFmt) (a : Word) : Val := ffDec f (a.toNat % 2 ^ f.bits)

/-- The strand's rounding mode for a field (R116). -/
def State.rmField (s : State) (r : Nat) : Nat := rmOf r s.st.src.rmode.toNat

/-- The hash that SR uses for a scalar operation: element index 0 (R119). -/
def State.srScalar (s : State) : Nat := srHash s.st.src.srSeed.toNat 0

/-- Write a floating-point result of a fixed latency, zero-extended, and its flags (R151, R178, R179). -/
def writeF (d : BitVec 6) (bound code fl : Nat) (s : State) : Out1 :=
  done ((s.wsLate d (BitVec.ofNat 64 code) bound).orVflags fl)

/-- An arithmetic operation of FOP: the exact result, then one rounding (R200). -/
def fopRound (f : FloatFmt) (rm q : Nat) (v : Val × Nat) : Nat × Nat :=
  let (c, fl) := ffRound f rm q false v.1
  (c, v.2 ||| fl)

/-- The exact result of FADD under rounding mode `rm` (R200). -/
def exactFadd (rm : Nat) (x y : Val) : Val × Nat := valAdd (rm == 2) x y
/-- FADD (R200). -/
def execFadd (d a b : BitVec 6) (r : BitVec 3) (x : BitVec 1) (s : State) : Out1 :=
  let f := fopFmt x
  let rm := s.rmField r.toNat
  let (c, fl) := fopRound f rm s.srScalar (exactFadd rm (srcF f (s.rs a)) (srcF f (s.rs b)))
  writeF d 4 c fl s

/-- The exact result of FSUB under rounding mode `rm` (R200). -/
def exactFsub (rm : Nat) (x y : Val) : Val × Nat := valAdd (rm == 2) x (valNeg y)
/-- FSUB (R200). -/
def execFsub (d a b : BitVec 6) (r : BitVec 3) (x : BitVec 1) (s : State) : Out1 :=
  let f := fopFmt x
  let rm := s.rmField r.toNat
  let (c, fl) := fopRound f rm s.srScalar (exactFsub rm (srcF f (s.rs a)) (srcF f (s.rs b)))
  writeF d 4 c fl s

/-- The exact result of FMUL under rounding mode `rm` (R200). -/
def exactFmul (_rm : Nat) (x y : Val) : Val × Nat := valMul x y
/-- FMUL (R200). -/
def execFmul (d a b : BitVec 6) (r : BitVec 3) (x : BitVec 1) (s : State) : Out1 :=
  let f := fopFmt x
  let rm := s.rmField r.toNat
  let (c, fl) := fopRound f rm s.srScalar (exactFmul rm (srcF f (s.rs a)) (srcF f (s.rs b)))
  writeF d 4 c fl s

/-- The exact result of FDIV under rounding mode `rm` (R200). -/
def exactFdiv (_rm : Nat) (x y : Val) : Val × Nat := valDiv x y
/-- FDIV (R200). -/
def execFdiv (d a b : BitVec 6) (r : BitVec 3) (x : BitVec 1) (s : State) : Out1 :=
  let f := fopFmt x
  let rm := s.rmField r.toNat
  let (c, fl) := fopRound f rm s.srScalar (exactFdiv rm (srcF f (s.rs a)) (srcF f (s.rs b)))
  writeF d 20 c fl s

/-- FSQRT (R200). -/
def execFsqrt (d a : BitVec 6) (r : BitVec 3) (x : BitVec 1) (s : State) : Out1 :=
  let f := fopFmt x
  let (c, fl) := fopRound f (s.rmField r.toNat) s.srScalar (valSqrt (srcF f (s.rs a)))
  writeF d 20 c fl s

/-- FMIN and FMAX: an exact choice, so its rounding changes nothing (R200). -/
def fminmax (max : Bool) (d a b : BitVec 6) (x : BitVec 1) (s : State) : Out1 :=
  let f := fopFmt x
  let (c, fl) := fopRound f 0 0 (valMinMax max (srcF f (s.rs a)) (srcF f (s.rs b)))
  done ((s.ws d (BitVec.ofNat 64 c)).orVflags fl)

/-- FMIN (R200). -/
def execFmin (d a b : BitVec 6) (x : BitVec 1) (s : State) : Out1 := fminmax false d a b x s
/-- FMAX (R200). -/
def execFmax (d a b : BitVec 6) (x : BitVec 1) (s : State) : Out1 := fminmax true d a b x s

/-- Sign bit and magnitude bits of a source (R178). -/
def signOf (f : FloatFmt) (a : Word) : Nat := a.toNat / 2 ^ (f.bits - 1) % 2
def magOf (f : FloatFmt) (a : Word) : Nat := a.toNat % 2 ^ (f.bits - 1)

/-- A sign put before magnitude bits; NaN bits are kept (R109, R200). -/
def putSign (f : FloatFmt) (sign mag : Nat) : Word := BitVec.ofNat 64 (sign * 2 ^ (f.bits - 1) + mag)

/-- FABS (R200). -/
def execFabs (d a : BitVec 6) (x : BitVec 1) (s : State) : Out1 :=
  done (s.ws d (putSign (fopFmt x) 0 (magOf (fopFmt x) (s.rs a))))
/-- FNEG (R200). -/
def execFneg (d a : BitVec 6) (x : BitVec 1) (s : State) : Out1 :=
  done (s.ws d (putSign (fopFmt x) (1 - signOf (fopFmt x) (s.rs a)) (magOf (fopFmt x) (s.rs a))))
/-- FSGNJ (R200). -/
def execFsgnj (d a b : BitVec 6) (x : BitVec 1) (s : State) : Out1 :=
  done (s.ws d (putSign (fopFmt x) (signOf (fopFmt x) (s.rs b)) (magOf (fopFmt x) (s.rs a))))

/-- The class bit of a value (R201). -/
def classBit (f : FloatFmt) (a : Word) : Nat :=
  let neg := signOf f a = 1
  match srcF f a with
  | .snan => 8
  | .nan => 9
  | .inf _ => if neg then 0 else 7
  | .fin _ n _ =>
    if n = 0 then (if neg then 3 else 4)
    else if magOf f a < 2 ^ f.m then (if neg then 2 else 5)
    else if neg then 1 else 6

/-- FCLASS (R201). -/
def execFclass (d a : BitVec 6) (x : BitVec 1) (s : State) : Out1 :=
  done (s.ws d (BitVec.ofNat 64 (2 ^ classBit (fopFmt x) (s.rs a))))

/-- The fused operations, on F32 in RMODE (R202). -/
def fused (negProd negAdd : Bool) (d a b c : BitVec 6) (s : State) : Out1 :=
  let rm := s.rmField 7
  let x := srcF ffF32 (s.rs a)
  let v := valFma (rm == 2) (if negProd then valNeg x else x) (srcF ffF32 (s.rs b))
    (if negAdd then valNeg (srcF ffF32 (s.rs c)) else srcF ffF32 (s.rs c))
  let (k, fl) := fopRound ffF32 rm s.srScalar v
  writeF d 4 k fl s

/-- FMA (R202). -/
def execFma (d a b c : BitVec 6) (s : State) : Out1 := fused false false d a b c s
/-- FMS (R202). -/
def execFms (d a b c : BitVec 6) (s : State) : Out1 := fused false true d a b c s
/-- FNMA (R202). -/
def execFnma (d a b c : BitVec 6) (s : State) : Out1 := fused true true d a b c s
/-- FNMS (R202). -/
def execFnms (d a b c : BitVec 6) (s : State) : Out1 := fused true false d a b c s

/-- The float type of an FCVT type code (R140, R203). -/
def cvtFloat (t : Nat) : FloatFmt :=
  match t with
  | 0 => ffF32 | 1 => ffF64 | 2 => ffBF16 | _ => ffFP16

/-- The source value of FCVT (R203). -/
def cvtSrc (t : Nat) (a : Word) : Val :=
  match t with
  | 4 => valOfInt (lowW a).toInt
  | 5 => .fin false (lowW a).toNat 1
  | 6 => valOfInt a.toInt
  | 7 => .fin false a.toNat 1
  | _ => srcF (cvtFloat t) a

/-- The range of an integer type of FCVT (R121, R178). -/
def cvtRange (t : Nat) : Int × Int :=
  match t with
  | 4 => (-2147483648, 2147483647)
  | 5 => (0, 4294967295)
  | 6 => (-9223372036854775808, 9223372036854775807)
  | _ => (0, 18446744073709551615)

/-- The result of FCVT as it is placed, with its flags (R203). -/
def cvtResult (src dst rm q : Nat) (sat : Bool) (a : Word) : Word × Nat :=
  let v := cvtSrc src a
  if 4 ≤ dst then
    let (k, fl) := intRound (cvtRange dst).1 (cvtRange dst).2 rm q v
    (BitVec.ofInt 64 k, fl)
  else
    let (c, fl) := ffRound (cvtFloat dst) rm q sat v
    (BitVec.ofNat 64 c, fl)

/-- FCVT (R203). -/
def execFcvt (d a : BitVec 6) (sr t r : BitVec 3) (x : BitVec 1) (s : State) : Out1 :=
  let (v, fl) := cvtResult sr.toNat t.toNat (s.rmField r.toNat) s.srScalar (x == 1) (s.rs a)
  done ((s.wsLate d v 3).orVflags fl)

end Sys2Proof.Machine
end

