-- ==== Sys2Proof/Machine/ScalarInt.lean ====
section
/-!
DEFINITION. Majors 0x01 to 0x0E: integer register operations (R180), immediates (R181), bit fields (R182, R183) and
selection (R184). Each instruction's value is a definition of its own; each meaning writes it with the bound of R151.
-/
namespace Sys2Proof.Machine

/-- Write a result of bound 1 (R151). -/
def writeS (d : BitVec 6) (v : Word) (s : State) : Out1 := done (s.ws d v)

/-- Write a fixed-latency result of a bound above 1 (R151). -/
def writeLate (d : BitVec 6) (v : Word) (bound : Nat) (s : State) : Out1 := done (s.wsLate d v bound)

/-- The value of ADD (R180, R177). -/
def aluAdd (w : BitVec 1) (a b : Word) : Word := byW w (fun a b => a + b) (fun a b => a + b) a b
/-- ADD (R180). -/
def execAdd (d a b : BitVec 6) (w : BitVec 1) (s : State) : Out1 :=
  writeS d (aluAdd w (s.rs a) (s.rs b)) s

/-- The value of SUB (R180, R177). -/
def aluSub (w : BitVec 1) (a b : Word) : Word := byW w (fun a b => a - b) (fun a b => a - b) a b
/-- SUB (R180). -/
def execSub (d a b : BitVec 6) (w : BitVec 1) (s : State) : Out1 :=
  writeS d (aluSub w (s.rs a) (s.rs b)) s

/-- The value of AND (R180, R177). -/
def aluAnd (w : BitVec 1) (a b : Word) : Word := byW w (fun a b => a &&& b) (fun a b => a &&& b) a b
/-- AND (R180). -/
def execAnd (d a b : BitVec 6) (w : BitVec 1) (s : State) : Out1 :=
  writeS d (aluAnd w (s.rs a) (s.rs b)) s

/-- The value of OR (R180, R177). -/
def aluOr (w : BitVec 1) (a b : Word) : Word := byW w (fun a b => a ||| b) (fun a b => a ||| b) a b
/-- OR (R180). -/
def execOr (d a b : BitVec 6) (w : BitVec 1) (s : State) : Out1 :=
  writeS d (aluOr w (s.rs a) (s.rs b)) s

/-- The value of XOR (R180, R177). -/
def aluXor (w : BitVec 1) (a b : Word) : Word := byW w (fun a b => a ^^^ b) (fun a b => a ^^^ b) a b
/-- XOR (R180). -/
def execXor (d a b : BitVec 6) (w : BitVec 1) (s : State) : Out1 :=
  writeS d (aluXor w (s.rs a) (s.rs b)) s

/-- The value of ANDN (R180, R177). -/
def aluAndn (w : BitVec 1) (a b : Word) : Word := byW w (fun a b => a &&& ~~~b) (fun a b => a &&& ~~~b) a b
/-- ANDN (R180). -/
def execAndn (d a b : BitVec 6) (w : BitVec 1) (s : State) : Out1 :=
  writeS d (aluAndn w (s.rs a) (s.rs b)) s

/-- The value of SLL (R180, R177). -/
def aluSll (w : BitVec 1) (a b : Word) : Word := byW w (fun a b => a <<< (b.toNat % 64)) (fun a b => a <<< (b.toNat % 32)) a b
/-- SLL (R180). -/
def execSll (d a b : BitVec 6) (w : BitVec 1) (s : State) : Out1 :=
  writeS d (aluSll w (s.rs a) (s.rs b)) s

/-- The value of SRL (R180, R177). -/
def aluSrl (w : BitVec 1) (a b : Word) : Word := byW w (fun a b => a >>> (b.toNat % 64)) (fun a b => a >>> (b.toNat % 32)) a b
/-- SRL (R180). -/
def execSrl (d a b : BitVec 6) (w : BitVec 1) (s : State) : Out1 :=
  writeS d (aluSrl w (s.rs a) (s.rs b)) s

/-- The value of SRA (R180, R177). -/
def aluSra (w : BitVec 1) (a b : Word) : Word := byW w (fun a b => a.sshiftRight (b.toNat % 64)) (fun a b => a.sshiftRight (b.toNat % 32)) a b
/-- SRA (R180). -/
def execSra (d a b : BitVec 6) (w : BitVec 1) (s : State) : Out1 :=
  writeS d (aluSra w (s.rs a) (s.rs b)) s

/-- The value of MUL (R180, R177). -/
def aluMul (w : BitVec 1) (a b : Word) : Word := byW w (fun a b => a * b) (fun a b => a * b) a b
/-- MUL (R180). -/
def execMul (d a b : BitVec 6) (w : BitVec 1) (s : State) : Out1 :=
  writeLate d (aluMul w (s.rs a) (s.rs b)) 3 s

/-- The value of MULHS (R180, R177). -/
def aluMulhs (w : BitVec 1) (a b : Word) : Word := byW w (fun a b => mulHi true a b) (fun a b => mulHi true a b) a b
/-- MULHS (R180). -/
def execMulhs (d a b : BitVec 6) (w : BitVec 1) (s : State) : Out1 :=
  writeLate d (aluMulhs w (s.rs a) (s.rs b)) 3 s

/-- The value of MULHU (R180, R177). -/
def aluMulhu (w : BitVec 1) (a b : Word) : Word := byW w (fun a b => mulHi false a b) (fun a b => mulHi false a b) a b
/-- MULHU (R180). -/
def execMulhu (d a b : BitVec 6) (w : BitVec 1) (s : State) : Out1 :=
  writeLate d (aluMulhu w (s.rs a) (s.rs b)) 3 s

/-- The value of DIVS (R180, R177). -/
def aluDivs (w : BitVec 1) (a b : Word) : Word := byW w (fun a b => divS a b) (fun a b => divS a b) a b
/-- DIVS (R180). -/
def execDivs (d a b : BitVec 6) (w : BitVec 1) (s : State) : Out1 :=
  writeLate d (aluDivs w (s.rs a) (s.rs b)) 34 s

/-- The value of DIVU (R180, R177). -/
def aluDivu (w : BitVec 1) (a b : Word) : Word := byW w (fun a b => divU a b) (fun a b => divU a b) a b
/-- DIVU (R180). -/
def execDivu (d a b : BitVec 6) (w : BitVec 1) (s : State) : Out1 :=
  writeLate d (aluDivu w (s.rs a) (s.rs b)) 34 s

/-- The value of REMS (R180, R177). -/
def aluRems (w : BitVec 1) (a b : Word) : Word := byW w (fun a b => remS a b) (fun a b => remS a b) a b
/-- REMS (R180). -/
def execRems (d a b : BitVec 6) (w : BitVec 1) (s : State) : Out1 :=
  writeLate d (aluRems w (s.rs a) (s.rs b)) 34 s

/-- The value of REMU (R180, R177). -/
def aluRemu (w : BitVec 1) (a b : Word) : Word := byW w (fun a b => remU a b) (fun a b => remU a b) a b
/-- REMU (R180). -/
def execRemu (d a b : BitVec 6) (w : BitVec 1) (s : State) : Out1 :=
  writeLate d (aluRemu w (s.rs a) (s.rs b)) 34 s

/-- The value of MIN (R180, R177). -/
def aluMin (w : BitVec 1) (a b : Word) : Word := byW w (fun a b => pickMin true a b) (fun a b => pickMin true a b) a b
/-- MIN (R180). -/
def execMin (d a b : BitVec 6) (w : BitVec 1) (s : State) : Out1 :=
  writeS d (aluMin w (s.rs a) (s.rs b)) s

/-- The value of MINU (R180, R177). -/
def aluMinu (w : BitVec 1) (a b : Word) : Word := byW w (fun a b => pickMin false a b) (fun a b => pickMin false a b) a b
/-- MINU (R180). -/
def execMinu (d a b : BitVec 6) (w : BitVec 1) (s : State) : Out1 :=
  writeS d (aluMinu w (s.rs a) (s.rs b)) s

/-- The value of MAX (R180, R177). -/
def aluMax (w : BitVec 1) (a b : Word) : Word := byW w (fun a b => pickMax true a b) (fun a b => pickMax true a b) a b
/-- MAX (R180). -/
def execMax (d a b : BitVec 6) (w : BitVec 1) (s : State) : Out1 :=
  writeS d (aluMax w (s.rs a) (s.rs b)) s

/-- The value of MAXU (R180, R177). -/
def aluMaxu (w : BitVec 1) (a b : Word) : Word := byW w (fun a b => pickMax false a b) (fun a b => pickMax false a b) a b
/-- MAXU (R180). -/
def execMaxu (d a b : BitVec 6) (w : BitVec 1) (s : State) : Out1 :=
  writeS d (aluMaxu w (s.rs a) (s.rs b)) s

/-- The value of SLT (R180, R177). -/
def aluSlt (w : BitVec 1) (a b : Word) : Word := byW w (fun a b => boolWord (a.slt b)) (fun a b => boolWord (a.slt b)) a b
/-- SLT (R180). -/
def execSlt (d a b : BitVec 6) (w : BitVec 1) (s : State) : Out1 :=
  writeS d (aluSlt w (s.rs a) (s.rs b)) s

/-- The value of SLTU (R180, R177). -/
def aluSltu (w : BitVec 1) (a b : Word) : Word := byW w (fun a b => boolWord (a.ult b)) (fun a b => boolWord (a.ult b)) a b
/-- SLTU (R180). -/
def execSltu (d a b : BitVec 6) (w : BitVec 1) (s : State) : Out1 :=
  writeS d (aluSltu w (s.rs a) (s.rs b)) s

/-- The value of SEXT (R180, R177). -/
def aluSext (w : BitVec 1) (a b : Word) : Word := byW w (fun a b => extFrom true a (b.toNat % 128)) (fun a b => extFrom true a (b.toNat % 128)) a b
/-- SEXT (R180). -/
def execSext (d a b : BitVec 6) (w : BitVec 1) (s : State) : Out1 :=
  writeS d (aluSext w (s.rs a) (s.rs b)) s

/-- The value of ZEXT (R180, R177). -/
def aluZext (w : BitVec 1) (a b : Word) : Word := byW w (fun a b => extFrom false a (b.toNat % 128)) (fun a b => extFrom false a (b.toNat % 128)) a b
/-- ZEXT (R180). -/
def execZext (d a b : BitVec 6) (w : BitVec 1) (s : State) : Out1 :=
  writeS d (aluZext w (s.rs a) (s.rs b)) s

/-- The value of CLZ (R180, R177). -/
def aluClz (w : BitVec 1) (a : Word) : Word := byW w (fun a _ => BitVec.ofNat _ (clzBits a)) (fun a _ => BitVec.ofNat _ (clzBits a)) a 0
/-- CLZ (R180). -/
def execClz (d a : BitVec 6) (w : BitVec 1) (s : State) : Out1 := writeS d (aluClz w (s.rs a)) s

/-- The value of CTZ (R180, R177). -/
def aluCtz (w : BitVec 1) (a : Word) : Word := byW w (fun a _ => BitVec.ofNat _ (ctzBits a)) (fun a _ => BitVec.ofNat _ (ctzBits a)) a 0
/-- CTZ (R180). -/
def execCtz (d a : BitVec 6) (w : BitVec 1) (s : State) : Out1 := writeS d (aluCtz w (s.rs a)) s

/-- The value of POPC (R180, R177). -/
def aluPopc (w : BitVec 1) (a : Word) : Word := byW w (fun a _ => BitVec.ofNat _ (popBits a)) (fun a _ => BitVec.ofNat _ (popBits a)) a 0
/-- POPC (R180). -/
def execPopc (d a : BitVec 6) (w : BitVec 1) (s : State) : Out1 := writeS d (aluPopc w (s.rs a)) s

/-- The value of BREV (R180, R177). -/
def aluBrev (w : BitVec 1) (a : Word) : Word := byW w (fun a _ => revBits a) (fun a _ => revBits a) a 0
/-- BREV (R180). -/
def execBrev (d a : BitVec 6) (w : BitVec 1) (s : State) : Out1 := writeS d (aluBrev w (s.rs a)) s

/-- ADDI (R181). -/
def execAddi (d a : BitVec 6) (i : BitVec 14) (s : State) : Out1 := writeS d (s.rs a + simm i) s

/-- ANDI (R181). -/
def execAndi (d a : BitVec 6) (i : BitVec 14) (s : State) : Out1 := writeS d (s.rs a &&& simm i) s

/-- ORI (R181). -/
def execOri (d a : BitVec 6) (i : BitVec 14) (s : State) : Out1 := writeS d (s.rs a ||| simm i) s

/-- XORI (R181). -/
def execXori (d a : BitVec 6) (i : BitVec 14) (s : State) : Out1 := writeS d (s.rs a ^^^ simm i) s

/-- MULI (R181). -/
def execMuli (d a : BitVec 6) (i : BitVec 14) (s : State) : Out1 := writeLate d (s.rs a * simm i) 3 s

/-- SLLI (R181): as SLL with an immediate amount. -/
def execSlli (d a : BitVec 6) (w : BitVec 1) (sh : BitVec 6) (s : State) : Out1 :=
  writeS d (aluSll w (s.rs a) (sh.setWidth 64)) s

/-- SRLI (R181): as SRL with an immediate amount. -/
def execSrli (d a : BitVec 6) (w : BitVec 1) (sh : BitVec 6) (s : State) : Out1 :=
  writeS d (aluSrl w (s.rs a) (sh.setWidth 64)) s

/-- SRAI (R181): as SRA with an immediate amount. -/
def execSrai (d a : BitVec 6) (w : BitVec 1) (sh : BitVec 6) (s : State) : Out1 :=
  writeS d (aluSra w (s.rs a) (sh.setWidth 64)) s

/-- LUI (R181). -/
def execLui (d : BitVec 6) (i : BitVec 20) (s : State) : Out1 := writeS d (simm i <<< 12) s

/-- AUIPC (R181): from the address of this bundle's header. -/
def execAuipc (d : BitVec 6) (i : BitVec 20) (s : State) : Out1 := writeS d (s.st.addr + (simm i <<< 12)) s

/-- BEXT (R182). -/
def execBext (d a o w : BitVec 6) (sg : BitVec 1) (s : State) : Out1 :=
  writeS d (bitField (sg == 1) (s.rs a) o.toNat w.toNat) s

/-- BINS (R183): rd is a source as well. -/
def execBins (d a o w : BitVec 6) (s : State) : Out1 := writeS d (bitInsert (s.rs d) (s.rs a) o.toNat w.toNat) s

/-- BEXTR (R182). -/
def execBextr (d a b : BitVec 6) (sg : BitVec 1) (s : State) : Out1 :=
  writeS d (bitField (sg == 1) (s.rs a) (fieldOf (s.rs b)).1 (fieldOf (s.rs b)).2) s

/-- BINSR (R183). -/
def execBinsr (d a b : BitVec 6) (s : State) : Out1 :=
  writeS d (bitInsert (s.rs d) (s.rs a) (fieldOf (s.rs b)).1 (fieldOf (s.rs b)).2) s

/-- SEL (R184). -/
def execSel (d a b : BitVec 6) (g : BitVec 4) (s : State) : Out1 :=
  writeS d (if s.st.src.guard g then s.rs a else s.rs b) s

end Sys2Proof.Machine
end

