-- ==== Sys2Proof/Machine/TlbCache.lean ====
section
/-!
DEFINITION. Majors 0x3B and 0x3C: TLBI (R102, R241), the cache instructions and DSTCHK (R103, R242, R470).
-/
namespace Sys2Proof.Machine

/-- What a TLBI removes (R241). -/
inductive TlbiScope where
  | page (tenant va : Nat)
  | tenant (t : Nat)
  | all
deriving DecidableEq, Repr

/-- The bytes of virtual address that a cached translation's page or CONTIG group covers (R98, R99): base and length. -/
def Tlb.range (t : Tlb) : Nat × Nat :=
  let n := if t.level = 0 && bitsOf t.pte 6 6 = 1 then 2 ^ 16 else 2 ^ (12 + 9 * t.level)
  (t.vpn * 4096 / n * n, n)

/-- The virtual range that a TLBI concerns: a page's own size where it is cached, else 4 KiB. -/
def State.tlbiRange (s : State) (sc : TlbiScope) : Nat × Nat :=
  match sc with
  | .page t va =>
    match s.tlb.find? fun e => e.tenant == t && decide (e.range.1 ≤ va) && decide (va < e.range.1 + e.range.2) with
    | some e => e.range
    | none => (va / 4096 * 4096, 4096)
  | _ => (0, 2 ^ 56)

def TlbiScope.concerns (sc : TlbiScope) (t : Nat) : Bool :=
  match sc with
  | .page u _ => u == t
  | .tenant u => u == t
  | .all => true

/-- Ranges overlap. -/
def overlap (a b : Nat × Nat) : Bool := decide (a.1 < b.1 + b.2) && decide (b.1 < a.1 + a.2)

/-- R102: the translations are used by a ring of a queue that is ACTIVE or DRAINING. -/
def State.tlbiBusy (s : State) (sc : TlbiScope) : Bool :=
  let r := s.tlbiRange sc
  s.lqs.any fun (_, q) => q.state != 0 && sc.concerns q.tenant &&
    (overlap r (q.base.toNat, 64 * 2 ^ q.size) || overlap r (q.cbase.toNat, 32 * 2 ^ q.size))

/-- Remove the translations, and the instruction-memory contents fetched through them (R102). -/
def State.tlbiRemove (s : State) (sc : TlbiScope) : State :=
  let r := s.tlbiRange sc
  let gone (e : Tlb) : Bool := sc.concerns e.tenant && overlap r e.range
  let ranges := r :: (s.tlb.filter gone).map (·.range)
  { s with
    tlb := s.tlb.filter fun e => !gone e
    cores := s.cores.map fun (c, x) => (c, if sc.concerns (s.tenantOf c) then
      { x with imem := x.imem.filter fun (a, _) => !ranges.any fun q => overlap q (a, 4) } else x) }

/-- The three forms (R241): refused with BUSY, or complete once the accesses that used the translations are done. -/
def State.tlbi (s : State) (sc : TlbiScope) : State :=
  if s.tlbiBusy sc then s.wg 7 true
  else
    let s := s.performWhere fun x => sc.concerns (s.tenantOf x.core)
    let mine (core : Nat) : Bool := sc.concerns (s.tenantOf core)
    let s := (s.posted.filter fun p => mine p.core && p.pa / 2 ^ 46 == s.node).foldl State.performPosted s
    let s := (s.stores.filter fun x => mine x.core).foldl (fun s x => s.snoopLine (x.pa / 128)) s
    if s.reqs.any (fun r => sc.concerns r.tenant) || s.stores.any fun x => mine x.core then s.wait 7
    else (s.tlbiRemove sc).wg 7 false

/-- TLBI.PAGE (R241). -/
def execTlbiPage (a : BitVec 6) (s : State) : Out1 :=
  done (s.priv fun s => s.tlbi (.page (s.tenantOf s.curCore) (s.rs a).toNat))

/-- TLBI.TENANT (R241). -/
def execTlbiTenant (a : BitVec 6) (s : State) : Out1 :=
  done (s.priv fun s =>
    let t := (s.rs a).toNat % 256
    let own := s.tenantOf s.curCore
    if t ≠ own && own ≠ 0 then s.raise (causeAccess, 0x41) s.st.addr else s.tlbi (.tenant t))

/-- TLBI.ALL (R241). -/
def execTlbiAll (_ : BitVec 6) (s : State) : Out1 :=
  done (s.priv fun s => if s.tenantOf s.curCore ≠ 0 then s.raise (causeAccess, 0x41) s.st.addr else s.tlbi .all)

/-- The line or page that CINV and CFLS name. -/
def cacheUnit (va : Nat) (page : BitVec 1) : Nat × Nat :=
  if page = 1 then (va / 4096 * 4096, 4096) else (va / 128 * 128, 128)

/-- CINV (R242). -/
def execCinv (a : BitVec 6) (p : BitVec 1) (s : State) : Out1 :=
  let va := (s.rs a).toNat
  let (b, n) := cacheUnit va p
  done (if isLocal va || decide (2 ^ 56 ≤ va) then s
    else match s.paOf s.curCore b with
      | some pa => s.dropL1 s.curCore pa n
      | none => s)

/-- CFLS (R242): the home writes its dirty lines to DRAM and keeps them valid, which changes no value. -/
def execCfls (_ : BitVec 6) (_ : BitVec 1) (s : State) : Out1 := done s

/-- ICSYNC (R103). -/
def execIcsync (s : State) : Out1 := done (s.modCore s.curCore fun c => { c with imem := [] })

/-- Set or clear a word's syndrome for stored check bits `chk`. -/
def synPut (m : SMap (BitVec 8)) (g w chk : Nat) : SMap (BitVec 8) := smSet 0 m g (BitVec.ofNat 8 (secdedBits w ^^^ chk))

/-- DSTCHK (R242, R470): privileged. The strand's earlier stores to the word come first; a word of memory leaves the L2 with its line. -/
def execDstchk (a b : BitVec 6) (_ : BitVec 1) (s : State) : Out1 :=
  let va := s.rs a
  let v := s.rs b
  done (s.priv fun s =>
    let x := s.st
    let core := s.curCore
    let n := s.cur
    match s.place core x.src.sup .wr 1 va with
    | (s, .error t) => s.raise t va
    | (s, .ok p) =>
      if 256 ≤ v.toNat then s.raise (causeAccess, 7) va
      else match p with
      | .spm c off own =>
        let g := off / 8
        if own && !x.inWindow (g * 8) 8 then s.raise (causeAccess, 3) va
        else if c = core && s.behindMark c (g * 8) 8 then s.wait 2
        else
          let s := s.flushPosted n (spmFlitAddr s.node c off / 128)
          s.modCore c fun y => { y with spmSyn := synPut y.spmSyn g (leNat (s.spmBytes c (g * 8) 8)) v.toNat }
      | .mem pa =>
        let g := pa / 8
        let s := s.performWhere fun y => y.strand == n
        if s.stores.any fun y => y.strand == n && y.touches (pa / 128) then (s.snoopLine (pa / 128)).wait 1
        else { s with memSyn := synPut s.memSyn g (s.memNat (g * 8) 8) v.toNat, l2inj := s.l2inj.filter fun q => q.1 / 16 != pa / 128 }
      | _ => s.raise (causeAccess, 5) va)

end Sys2Proof.Machine
end

