-- ==== Sys2Proof/Machine/VectorConv.lean ====
section
/-!
DEFINITION. VOP 0x30 to 0x34, conversion and quantisation (R260), and VOP 0x40 to 0x47, compare, select and bitwise (R261).
-/
namespace Sys2Proof.Machine

/-- The range of an integer code of a format (R260, R267): signed for INT8 and INT32. -/
def codeRange (f : Fmt) : Int × Int :=
  match f with
  | .int8 => (-128, 127)
  | .int32 => (-2147483648, 2147483647)
  | f => (0, (2 ^ fmtBits f : Nat) - 1)

/-- VCVT (R260). -/
def execVcvt (f : VFields) (s : State) : Out1 := s.vInstr (.vcvt f) fun s e =>
  s.vPut e f [e.src 0x30 f 1 false] fun _ gs => byParts (fun l => (l.headD .nan, 0)) gs

/-- VCVTI (R260): the raw code is the rounded integer, saturated. -/
def execVcvti (f : VFields) (s : State) : Out1 := s.vInstr (.vcvti f) fun s e =>
  s.vCode e f [e.src 0x33 f 1 false] fun i gs =>
    let g := gs.headD default
    let t := (e.view 0).fmt
    let (lo, hi) := codeRange t
    let (k, fl) := intRound lo hi (e.rm f) (srHash e.srSeed i) (g.vals.headD .nan)
    (intCode (fmtBits t) k, fl ||| g.fl)

/-- VCVTF (R260): the integer raw code as a value. -/
def execVcvtf (f : VFields) (s : State) : Out1 := s.vInstr (.vcvtf f) fun s e =>
  s.vPut e f [e.src 0x34 f 1 true] fun _ gs => ([valOfInt (rawInt (e.view 1).fmt (gs.headD default).code)], 0)

/-- Indices of the scale operand TS2 (R260): the block's scale index under `v`, or the position without blocks. -/
def scaleSrc (e : Entry) (v : View) (off : Nat) : Src :=
  { pos := 2, raw := true,
    ix := (List.range e.cnt).map fun i => if v.blk = 0 || v.vc = 0 then e.os + i else v.scaleIx (v.flat (off + i)) }

/-- e of R260: the raw code of TS2 (R250). Below -4096 and above 4096 it gives what it gives there, zero or overflow. -/
def scaleCode (v : View) (c : Nat) : Int := max (-4096) (min 4096 (rawInt v.fmt c))

/-- The value code × 2^(e − 127) × TSCALE of R260, by components; e = 0xFF gives NaN. -/
def dqntVal (v : View) (code : Nat) (k : Int) : List Val × Nat :=
  if k = 255 then elemVal v code (some 255)
  else
    let l := (codeParts v.fmt code).map fun c => scaled (valScale (fmtDec (fmtPart v.fmt) c) (k - 127)) none v.tscale
    (l.map (·.1), l.foldl (fun a x => a ||| x.2) 0)

/-- VDQNT (R260): code times the scale byte of TS2 and TSCALE of TS1. -/
def execVdqnt (f : VFields) (s : State) : Out1 := s.vInstr (.vdqnt f) fun s e =>
  let v := e.view 1
  let x1 := e.src 0x32 f 1 true
  let one := if v.blk = 0 || v.vc = 0 then e.os else v.scaleIx (v.flat e.os)
  let x2 : Src := if x1.bcast && v.blk != 0 then { pos := 2, raw := true, ix := List.replicate e.cnt one } else scaleSrc e v e.os
  s.vRun e f false [{ ix := ixFrom e.od e.cnt }] [x1, x2] false fun s l =>
    let rs := (List.range e.cnt).map fun i =>
      let a := gotAt x1 (l.headD []) i
      let b := gotAt x2 ((l[1]?).getD []) i
      (i, dqntVal v a.code (scaleCode (e.view 2) b.code))
    let (s, ps, fs) := s.putAll e (e.view 0) (e.rm f) false (rs.map fun (i, vs, _) => { j := e.od + i, vals := vs, ix := i, lane := i })
    s.vWrite e [x1, x2] ps (fs ++ rs.map fun (i, _, fl) => (i, fl))

/-- The code that VQNT gives one component under a scale byte (R260), and its flags. -/
def qntCode (v : View) (rm q : Nat) (sat : Bool) (k : Int) (x : Val) : Nat × Nat :=
  let (z, f0) := valDiv x (tscaleVal v.tscale)
  let y := valScale z (127 - k)
  if fmtBlockable v.fmt then
    let (c, f1) := valClip (quantClip v.fmt) y
    let (code, f2) := fmtRound v.fmt rm q false c
    (code, f0 ||| f1 ||| f2)
  else
    let (code, fl) := fmtRound (fmtPart v.fmt) rm q sat y
    (code, f0 ||| fl)

/-- One group of VQNT that shares a scale byte: a byte 0xFF or a value that is not finite gives the outcome of R113. -/
def qntBlock (e : Entry) (v : View) (rm : Nat) (l : List (Nat × Int × List Val)) : Nat × List (Nat × Nat × Nat) :=
  let k := (l.headD (0, 0, [])).2.1
  let div (x : Nat × Int × List Val) : Val × Nat := valDiv (x.2.2.headD .nan) (tscaleVal v.tscale)
  if k = 255 || l.any fun x => !valIsFinite (div x).1 then (255, l.map fun x => (x.1, quantZero v.fmt, flNV ||| (div x).2))
  else ((k % 256).toNat, l.map fun x => let (c, fl) := qntCode v rm (srHash e.srSeed x.1) false k (x.2.2.headD .nan); (x.1, c, fl))

/-- VQNT (R260): a quantising write with given scales. A scale byte of 0xFF makes an element without blocks the value NaN. -/
def execVqnt (f : VFields) (s : State) : Out1 := s.vInstr (.vqnt f) fun s e =>
  let v := e.view 0
  let x1 := e.src 0x31 f 1 false
  let x2 := scaleSrc e v e.od
  s.vRun e f false [{ ix := ixFrom e.od e.cnt }] [x1, x2] false fun s l =>
    let rs := (List.range e.cnt).map fun i => (i, gotAt x1 (l.headD []) i, scaleCode (e.view 2) (gotAt x2 ((l[1]?).getD []) i).code)
    let rd := rs.map fun (i, g, _) => (i, g.fl)
    if v.blk = 0 then
      let cs := rs.map fun (i, g, k) =>
        let parts := if fmtComplex v.fmt then g.vals else g.vals.take 1
        let cf : List (Nat × Nat) := parts.map fun x => qntCode v (e.rm f) (srHash e.srSeed i) (f.mod.getLsbD 3) k (if k = 255 then .nan else x)
        (i, cf.map Prod.fst, cf.foldl (fun (a : Nat) (c : Nat × Nat) => a ||| c.2) 0)
      let w := fmtBits v.fmt
      let (s, ps) := cs.foldl (fun (s, ps) (i, c, _) =>
        let re := c.headD 0
        let (s, code) := if !fmtComplex v.fmt then (s, re) else match c with
          | [_, im] => (s, re + im * 2 ^ (w / 2))
          | _ => let (z, s) := s.draw; (s, re + z.toNat % 2 ^ (w / 2) * 2 ^ (w / 2))
        (s, ps ++ [(v.span (v.flat (e.od + i)), code)])) (s, ([] : List Put))
      s.vWrite e [x1, x2] ps (rd ++ cs.map fun (i, _, fl) => (i, fl))
    else
      let blocks := ((List.range e.cnt).map fun i => v.scaleIx (v.flat (e.od + i))).eraseDups
      let (ps, fs) := blocks.foldl (fun (ps, fs) b =>
        let mine := rs.filter fun (i, _, _) => v.scaleIx (v.flat (e.od + i)) == b
        let (k, cs) := qntBlock e v (e.rm f) (mine.map fun (i, g, k) => (i, k, g.vals))
        (ps ++ [(v.scaleSpan b, k)] ++ cs.map (fun (i, c, _) => (v.span (v.flat (e.od + i)), c)), fs ++ cs.map fun (i, _, fl) => (i, fl)))
        (([] : List Put), ([] : List (Nat × Nat)))
      s.vWrite e [x1, x2] ps (rd ++ fs)

/-- The condition of VCMP on one component (R261). -/
def vcmpHolds (cond : Nat) (l : List Val) : Val × Nat :=
  let x := l.headD .nan
  let y := (l[1]?).getD .nan
  let un := valIsNan x || valIsNan y
  let b := match cond with
    | 0 => !un && valEq x y
    | 1 => un || !valEq x y
    | 2 => !un && valLt x y
    | 3 => !un && (valLt x y || valEq x y)
    | 4 => !un && valLt y x
    | 5 => !un && (valLt y x || valEq x y)
    | 6 => un
    | _ => !un
  (.fin false (if b then 1 else 0) 1, if un && 2 ≤ cond && cond ≤ 5 then flNV else snanFl [x, y])

/-- VCMP (R261). -/
def execVcmp (f : VFields) (s : State) : Out1 := s.vInstr (.vcmp f) fun s e =>
  s.vPut e f [e.src 0x40 f 1 false, e.src 0x40 f 2 false] fun _ gs => byParts (vcmpHolds (f.imm8.toNat % 8)) gs

/-- VSEL (R261). -/
def execVsel (f : VFields) (s : State) : Out1 := s.vInstr (.vsel f) fun s e =>
  s.vPut e f [e.src 0x41 f 1 false, e.src 0x41 f 2 false, e.src 0x41 f 3 true] fun _ gs =>
    let z := ((gs[2]?).getD default).code
    byParts (fun l => if z ≠ 0 then (l.headD .nan, 0) else ((l[1]?).getD .nan, 0)) (gs.take 2)

/-- A raw code as 64 bits (R250). -/
def rawBits (f : Fmt) (c : Nat) : Nat := intCode 64 (rawInt f c)

/-- A bitwise operation on raw codes of 64 bits (R261). -/
def State.vBits (s : State) (vop : Nat) (f : VFields) (e : Entry) (op : Nat → Nat → Nat) : State :=
  let xs := if (vUses vop f.mod.toNat).ts = 3 then [e.src vop f 1 true, e.src vop f 2 true] else [e.src vop f 1 true]
  s.vCode e f xs fun _ gs =>
    (op (rawBits (e.view 1).fmt (gs.headD default).code) (rawBits (e.view 2).fmt ((gs[1]?).getD default).code), 0)

/-- A shift's amount (R261). -/
def shiftBy (f : VFields) (y : Nat) : Nat := if f.mod.getLsbD 4 then y % 64 else f.imm8.toNat % 64

/-- The right shift (R261): with arith, from the top bit of the code's own width. -/
def shiftRight (arith : Bool) (w x k : Nat) : Nat := if arith then intCode 64 (Int.fdiv (intOfCode w (x % 2 ^ w)) (2 ^ k : Nat)) else x / 2 ^ k

/-- VAND (R261). -/
def execVand (f : VFields) (s : State) : Out1 := s.vInstr (.vand f) fun s e =>
  s.vBits 0x42 f e fun x y => x &&& y

/-- VOR (R261). -/
def execVor (f : VFields) (s : State) : Out1 := s.vInstr (.vor f) fun s e =>
  s.vBits 0x43 f e fun x y => x ||| y

/-- VXOR (R261). -/
def execVxor (f : VFields) (s : State) : Out1 := s.vInstr (.vxor f) fun s e =>
  s.vBits 0x44 f e fun x y => x ^^^ y

/-- VNOT (R261). -/
def execVnot (f : VFields) (s : State) : Out1 := s.vInstr (.vnot f) fun s e =>
  s.vBits 0x45 f e fun x _ => 2 ^ 64 - 1 - x

/-- VSHL (R261). -/
def execVshl (f : VFields) (s : State) : Out1 := s.vInstr (.vshl f) fun s e =>
  s.vBits 0x46 f e fun x y => x * 2 ^ shiftBy f y

/-- VSHR (R261). -/
def execVshr (f : VFields) (s : State) : Out1 := s.vInstr (.vshr f) fun s e =>
  s.vBits 0x47 f e fun x y => shiftRight (f.mod.getLsbD 5) (fmtBits (e.view 1).fmt) x (shiftBy f y)

end Sys2Proof.Machine
end

