-- ==== Sys2Proof/Machine/VectorInt.lean ====
section
/-!
DEFINITION. VOP 0x70 to 0x77, the integer operations (R267).
-/
namespace Sys2Proof.Machine

/-- An integer result as the code of a format (R267): wrapped, or clipped with NV. -/
def intResult (t : Fmt) (sat : Bool) (r : Int) : Nat × Nat :=
  let (lo, hi) := codeRange t
  if sat && r < lo then (intCode (fmtBits t) lo, flNV)
  else if sat && hi < r then (intCode (fmtBits t) hi, flNV)
  else (intCode (fmtBits t) r, 0)

/-- A V entry of the integer group: `op` on the raw codes of TS1 and TS2. -/
def State.vInt (s : State) (vop : Nat) (f : VFields) (e : Entry) (op : Nat → Nat → Int) : State :=
  let xs := if (vUses vop f.mod.toNat).ts = 3 then [e.src vop f 1 true, e.src vop f 2 true] else [e.src vop f 1 true]
  s.vCode e f xs fun _ gs => intResult (e.view 0).fmt (f.mod.getLsbD 3) (op (gs.headD default).code ((gs[1]?).getD default).code)

/-- The same with the codes read as integers. -/
def State.vInt2 (s : State) (vop : Nat) (f : VFields) (e : Entry) (op : Int → Int → Int) : State :=
  s.vInt vop f e fun x y => op (rawInt (e.view 1).fmt x) (rawInt (e.view 2).fmt y)

/-- The field that VBEXT cuts from the low 32 bits of a code (R267). -/
def vbextField (f : VFields) (c : Nat) : Int :=
  let off := f.imm8.toNat % 32
  let w := min (2 ^ (f.mod.toNat / 32)) (32 - off)
  let x := c % 2 ^ 32 / 2 ^ off % 2 ^ w
  if f.mod.getLsbD 4 then intOfCode w x else x

/-- VIADD (R267). -/
def execViadd (f : VFields) (s : State) : Out1 := s.vInstr (.viadd f) fun s e => s.vInt2 0x70 f e (· + ·)

/-- VISUB (R267). -/
def execVisub (f : VFields) (s : State) : Out1 := s.vInstr (.visub f) fun s e => s.vInt2 0x71 f e (· - ·)

/-- VIMUL (R267). -/
def execVimul (f : VFields) (s : State) : Out1 := s.vInstr (.vimul f) fun s e => s.vInt2 0x72 f e (· * ·)

/-- VIMIN (R267). -/
def execVimin (f : VFields) (s : State) : Out1 := s.vInstr (.vimin f) fun s e => s.vInt2 0x73 f e min

/-- VIMAX (R267). -/
def execVimax (f : VFields) (s : State) : Out1 := s.vInstr (.vimax f) fun s e => s.vInt2 0x74 f e max

/-- VPOPC (R267). -/
def execVpopc (f : VFields) (s : State) : Out1 := s.vInstr (.vpopc f) fun s e => s.vInt 0x75 f e fun x _ => (popBits (BitVec.ofNat 64 x) : Int)

/-- VBEXT (R267). -/
def execVbext (f : VFields) (s : State) : Out1 := s.vInstr (.vbext f) fun s e => s.vInt 0x76 f e fun x _ => vbextField f x

/-- VHASH (R267). -/
def execVhash (f : VFields) (s : State) : Out1 := s.vInstr (.vhash f) fun s e => s.vInt 0x77 f e fun x _ => (srHash e.srSeed (rawBits (e.view 1).fmt x % 2 ^ 32) : Int)

end Sys2Proof.Machine
end

