-- ==== Sys2Proof/Machine/VectorMove.lean ====
section
/-!
DEFINITION. VOP 0x60 to 0x67: data movement (R266).
-/
namespace Sys2Proof.Machine

/-- Raw codes written at flat indices of the destination, truncated or zero-extended. -/
def rawPuts (v : View) (l : List (Nat × Nat)) : List Put := l.map fun (j, c) => (v.span (v.flat j), c % 2 ^ fmtBits v.fmt)

/-- VMOV (R266). -/
def execVmov (f : VFields) (s : State) : Out1 := s.vInstr (.vmov f) fun s e =>
  s.vCode e f [e.src 0x60 f 1 true] fun _ gs => ((gs.headD default).code, 0)

/-- VFILL (R266): OS names the value register. -/
def execVfill (f : VFields) (s : State) : Out1 := s.vInstr (.vfill f) fun s e =>
  s.vCode e f [] fun _ _ => ((smGet 0 e.o 1).toNat, 0)

/-- An index read as raw (R250) that lies in a view. -/
def inView (v : View) (t : Fmt) (c : Nat) : Option Nat :=
  let q := rawInt t c
  if 0 ≤ q && decide (q < (v.vr * v.vc : Nat)) then some q.toNat else none

/-- VGTH (R266): the table elements are read after the indices; one outside the table gives 0 and NV. -/
def execVgth (f : VFields) (s : State) : Out1 := s.vInstr (.vgth f) fun s e =>
  let t := e.view 1
  let x1 : Src := { pos := 1, ix := [], raw := true, whole := true }
  let x2 := e.src 0x62 f 2 true
  s.vRun e f false [{ ix := ixFrom e.od e.cnt, put := false }] [x1, x2] false fun s l =>
    let qs := ((l[1]?).getD []).map fun g => inView t (e.view 2).fmt g.code
    let (r, cs) := qs.foldl (fun (r, cs) q => match q with
      | some j => let (r, c) := Rd.code r e t (t.flat j) (vHint f); (r, c :: cs)
      | none => (r, 0 :: cs)) (({ s } : Rd), ([] : List Nat))
    r.done e fun s =>
      s.vWrite e [{ x1 with ix := qs.filterMap id, whole := false }, x2] (rawPuts (e.view 0) (cs.reverse.zipIdx.map fun (c, i) => (e.od + i, c)))
        (qs.zipIdx.map fun (q, i) => (i, if q.isNone then flNV else 0))

/-- VSCT (R266): the largest position holds; an index outside the view writes nothing and raises NV. -/
def execVsct (f : VFields) (s : State) : Out1 := s.vInstr (.vsct f) fun s e =>
  let v := e.view 0
  let x1 := e.src 0x63 f 1 true
  let x2 := e.src 0x63 f 2 true
  s.vRun e f false [{ ix := [], put := false, whole := true }] [x1, x2] false fun s l =>
    let qs := ((l[1]?).getD []).map fun g => inView v (e.view 2).fmt g.code
    let ws := (qs.zip (l.headD [])).filterMap fun (q, g) => q.map fun j => (j, g.code)
    s.vWrite e [x1, x2] (rawPuts v ws) (qs.zipIdx.map fun (q, i) => (i, if q.isNone then flNV else 0))

/-- VTRN (R266). An element of TS1 outside its view is checked with the view (R36). -/
def execVtrn (f : VFields) (s : State) : Out1 := s.vInstr (.vtrn f) fun s e =>
  let v := e.view 0
  let t := e.view 1
  let rcs := (List.range e.cnt).map fun i => ((e.od + i) % v.vc, (e.od + i) / v.vc)
  let ds : List Dst := [{ ix := ixFrom e.od e.cnt, put := false }]
  let x : Src := { pos := 1, ix := [], raw := true, whole := true }
  let bad := if e.runs && e.phase != 2 && (s.vTdesc e f ds [x]).isNone then s.tdesc e.strand (e.desc 1) (rcs.map t.span) [] else none
  match bad with
  | some c => s.entryFault e causeTdesc (tdescAux (vReg f 1) c) e.addr
  | none =>
    s.vRun e f false ds [x] false fun s _ =>
      let (r, cs) := rcs.foldl (fun (r, cs) rc => let (r, c) := Rd.code r e t rc (vHint f); (r, c :: cs)) (({ s } : Rd), ([] : List Nat))
      r.done e fun s => s.vWrite e [x] (rawPuts v (cs.reverse.zipIdx.map fun (c, i) => (e.od + i, c))) []

/-- VIOTA (R266). -/
def execViota (f : VFields) (s : State) : Out1 := s.vInstr (.viota f) fun s e =>
  s.vPut e f [] fun i _ => ([valOfInt ((smGet 0 e.o 1).toInt + i * intOfCode 8 f.imm8.toNat)], 0)

/-- Read the codes at the positions `ix` of a source that the operation reads itself. -/
def Rd.late (r : Rd) (e : Entry) (f : VFields) (v : View) (ix : List Nat) : Rd × List Nat :=
  let (r, cs) := ix.foldl (fun (r, cs) j => let (r, c) := Rd.code r e v (v.flat j) (vHint f); (r, c :: cs)) (r, ([] : List Nat))
  (r, cs.reverse)

/-- VCMPR (R266): the codes at masked positions are read and move together; then their number is put into TS3. -/
def execVcmpr (f : VFields) (s : State) : Out1 := s.vInstr (.vcmpr f) fun s e =>
  let x1 := { e.src 0x66 f 1 true with late := true }
  let x2 := e.src 0x66 f 2 true
  s.vRun e f false [{ ix := ixFrom e.od e.cnt, put := false }, { pos := 3, ix := [0] }] [x1, x2] false fun s l =>
    let ix := (List.range e.cnt).filterMap fun i => if (gotAt x2 ((l[1]?).getD []) i).code ≠ 0 then some (e.os + i) else none
    let (r, keep) := ({ s } : Rd).late e f (e.view 1) ix
    r.done e fun s =>
      let (s, ps, fs) := s.putAll e (e.view 3) 0 false [{ j := 0, vals := [.fin false keep.length 1], ix := 0, lane := 0 }]
      s.vWrite e [{ x1 with ix }, x2] (rawPuts (e.view 0) (keep.zipIdx.map fun (c, k) => (e.od + k, c)) ++ ps) fs

/-- The writes of VEXPD at the positions from `i` on, `k` masks having been set before. -/
def expand (od : Nat) (zero : Bool) (codes : List Nat) : List Nat → Nat → Nat → List (Nat × Nat)
  | [], _, _ => []
  | m :: r, i, k =>
    if m ≠ 0 then (od + i, (codes[k]?).getD 0) :: expand od zero codes r (i + 1) (k + 1)
    else if zero then (od + i, 0) :: expand od zero codes r (i + 1) k
    else expand od zero codes r (i + 1) k

/-- VEXPD (R266): as many codes are read as masks are set. -/
def execVexpd (f : VFields) (s : State) : Out1 := s.vInstr (.vexpd f) fun s e =>
  let x1 := { e.src 0x67 f 1 true with late := true }
  let x2 := e.src 0x67 f 2 true
  s.vRun e f false [{ ix := ixFrom e.od e.cnt, put := false }] [x1, x2] false fun s l =>
    let ms := (List.range e.cnt).map fun i => (gotAt x2 ((l[1]?).getD []) i).code
    let ix := (List.range (ms.filter (· ≠ 0)).length).map (e.os + ·)
    let (r, codes) := ({ s } : Rd).late e f (e.view 1) ix
    r.done e fun s => s.vWrite e [{ x1 with ix }, x2] (rawPuts (e.view 0) (expand e.od (f.mod.getLsbD 4) codes ms 0 0)) []

end Sys2Proof.Machine
end

