-- ==== Sys2Proof/Machine/Dispatch.lean ====
section
/-!
DEFINITION. One arm for each instruction and event of the opcode table: a direct call of its meaning.
-/
namespace Sys2Proof.Machine

/-- The meaning of an instruction or event. -/
def exec (i : Instr) (s : State) : Host.Outcome State Fault Refusal :=
  match i with
  | .add d a b w => Sys2Proof.Machine.execAdd d a b w s
  | .sub d a b w => Sys2Proof.Machine.execSub d a b w s
  | .and d a b w => Sys2Proof.Machine.execAnd d a b w s
  | .or d a b w => Sys2Proof.Machine.execOr d a b w s
  | .xor d a b w => Sys2Proof.Machine.execXor d a b w s
  | .andn d a b w => Sys2Proof.Machine.execAndn d a b w s
  | .sll d a b w => Sys2Proof.Machine.execSll d a b w s
  | .srl d a b w => Sys2Proof.Machine.execSrl d a b w s
  | .sra d a b w => Sys2Proof.Machine.execSra d a b w s
  | .mul d a b w => Sys2Proof.Machine.execMul d a b w s
  | .mulhs d a b w => Sys2Proof.Machine.execMulhs d a b w s
  | .mulhu d a b w => Sys2Proof.Machine.execMulhu d a b w s
  | .divs d a b w => Sys2Proof.Machine.execDivs d a b w s
  | .divu d a b w => Sys2Proof.Machine.execDivu d a b w s
  | .rems d a b w => Sys2Proof.Machine.execRems d a b w s
  | .remu d a b w => Sys2Proof.Machine.execRemu d a b w s
  | .min d a b w => Sys2Proof.Machine.execMin d a b w s
  | .minu d a b w => Sys2Proof.Machine.execMinu d a b w s
  | .max d a b w => Sys2Proof.Machine.execMax d a b w s
  | .maxu d a b w => Sys2Proof.Machine.execMaxu d a b w s
  | .slt d a b w => Sys2Proof.Machine.execSlt d a b w s
  | .sltu d a b w => Sys2Proof.Machine.execSltu d a b w s
  | .clz d a w => Sys2Proof.Machine.execClz d a w s
  | .ctz d a w => Sys2Proof.Machine.execCtz d a w s
  | .popc d a w => Sys2Proof.Machine.execPopc d a w s
  | .brev d a w => Sys2Proof.Machine.execBrev d a w s
  | .sext d a b w => Sys2Proof.Machine.execSext d a b w s
  | .zext d a b w => Sys2Proof.Machine.execZext d a b w s
  | .addi d a im => Sys2Proof.Machine.execAddi d a im s
  | .andi d a im => Sys2Proof.Machine.execAndi d a im s
  | .ori d a im => Sys2Proof.Machine.execOri d a im s
  | .xori d a im => Sys2Proof.Machine.execXori d a im s
  | .muli d a im => Sys2Proof.Machine.execMuli d a im s
  | .slli d a w s1 => Sys2Proof.Machine.execSlli d a w s1 s
  | .srli d a w s1 => Sys2Proof.Machine.execSrli d a w s1 s
  | .srai d a w s1 => Sys2Proof.Machine.execSrai d a w s1 s
  | .lui d im => Sys2Proof.Machine.execLui d im s
  | .auipc d im => Sys2Proof.Machine.execAuipc d im s
  | .bext d a o w s1 => Sys2Proof.Machine.execBext d a o w s1 s
  | .bins d a o w => Sys2Proof.Machine.execBins d a o w s
  | .bextr d a b s1 => Sys2Proof.Machine.execBextr d a b s1 s
  | .binsr d a b => Sys2Proof.Machine.execBinsr d a b s
  | .sel d a b g => Sys2Proof.Machine.execSel d a b g s
  | .ld d a im z h => Sys2Proof.Machine.execLd d a im z h s
  | .lds d a im z h => Sys2Proof.Machine.execLds d a im z h s
  | .st s1 a im z => Sys2Proof.Machine.execSt s1 a im z s
  | .ldx d a x => Sys2Proof.Machine.execLdx d a x s
  | .stx s1 a x => Sys2Proof.Machine.execStx s1 a x s
  | .prf a im h => Sys2Proof.Machine.execPrf a im h s
  | .amoAdd d a b s1 o => Sys2Proof.Machine.execAmoAdd d a b s1 o s
  | .amoAnd d a b s1 o => Sys2Proof.Machine.execAmoAnd d a b s1 o s
  | .amoOr d a b s1 o => Sys2Proof.Machine.execAmoOr d a b s1 o s
  | .amoXor d a b s1 o => Sys2Proof.Machine.execAmoXor d a b s1 o s
  | .amoMin d a b s1 o => Sys2Proof.Machine.execAmoMin d a b s1 o s
  | .amoMax d a b s1 o => Sys2Proof.Machine.execAmoMax d a b s1 o s
  | .amoSwap d a b s1 o => Sys2Proof.Machine.execAmoSwap d a b s1 o s
  | .amoCas d a b s1 o => Sys2Proof.Machine.execAmoCas d a b s1 o s
  | .amofFaddF32 d a b s1 o => Sys2Proof.Machine.execAmofFaddF32 d a b s1 o s
  | .amofFaddBf16x2 d a b s1 o => Sys2Proof.Machine.execAmofFaddBf16x2 d a b s1 o s
  | .amofFminF32 d a b s1 o => Sys2Proof.Machine.execAmofFminF32 d a b s1 o s
  | .amofFmaxF32 d a b s1 o => Sys2Proof.Machine.execAmofFmaxF32 d a b s1 o s
  | .cmpEq g a b w => Sys2Proof.Machine.execCmpEq g a b w s
  | .cmpNe g a b w => Sys2Proof.Machine.execCmpNe g a b w s
  | .cmpLt g a b w => Sys2Proof.Machine.execCmpLt g a b w s
  | .cmpGe g a b w => Sys2Proof.Machine.execCmpGe g a b w s
  | .cmpLtu g a b w => Sys2Proof.Machine.execCmpLtu g a b w s
  | .cmpGeu g a b w => Sys2Proof.Machine.execCmpGeu g a b w s
  | .cmpTst g a b w => Sys2Proof.Machine.execCmpTst g a b w s
  | .cmpNtst g a b w => Sys2Proof.Machine.execCmpNtst g a b w s
  | .cmpiEq g a im => Sys2Proof.Machine.execCmpiEq g a im s
  | .cmpiNe g a im => Sys2Proof.Machine.execCmpiNe g a im s
  | .cmpiLt g a im => Sys2Proof.Machine.execCmpiLt g a im s
  | .cmpiGe g a im => Sys2Proof.Machine.execCmpiGe g a im s
  | .cmpiLtu g a im => Sys2Proof.Machine.execCmpiLtu g a im s
  | .cmpiGeu g a im => Sys2Proof.Machine.execCmpiGeu g a im s
  | .cmpiTst g a im => Sys2Proof.Machine.execCmpiTst g a im s
  | .cmpiNtst g a im => Sys2Proof.Machine.execCmpiNtst g a im s
  | .gopAnd g x y => Sys2Proof.Machine.execGopAnd g x y s
  | .gopOr g x y => Sys2Proof.Machine.execGopOr g x y s
  | .gopXor g x y => Sys2Proof.Machine.execGopXor g x y s
  | .gopAndn g x y => Sys2Proof.Machine.execGopAndn g x y s
  | .fcmpFeq g a b w => Sys2Proof.Machine.execFcmpFeq g a b w s
  | .fcmpFlt g a b w => Sys2Proof.Machine.execFcmpFlt g a b w s
  | .fcmpFle g a b w => Sys2Proof.Machine.execFcmpFle g a b w s
  | .fcmpFun g a b w => Sys2Proof.Machine.execFcmpFun g a b w s
  | .pbr t o => Sys2Proof.Machine.execPbr t o s
  | .br t g => Sys2Proof.Machine.execBr t g s
  | .brl t g => Sys2Proof.Machine.execBrl t g s
  | .mtbt t a => Sys2Proof.Machine.execMtbt t a s
  | .loop t c => Sys2Proof.Machine.execLoop t c s
  | .lset c a => Sys2Proof.Machine.execLset c a s
  | .trap c => Sys2Proof.Machine.execTrap c s
  | .fadd d a b r x => Sys2Proof.Machine.execFadd d a b r x s
  | .fsub d a b r x => Sys2Proof.Machine.execFsub d a b r x s
  | .fmul d a b r x => Sys2Proof.Machine.execFmul d a b r x s
  | .fdiv d a b r x => Sys2Proof.Machine.execFdiv d a b r x s
  | .fsqrt d a r x => Sys2Proof.Machine.execFsqrt d a r x s
  | .fmin d a b x => Sys2Proof.Machine.execFmin d a b x s
  | .fmax d a b x => Sys2Proof.Machine.execFmax d a b x s
  | .fabs d a x => Sys2Proof.Machine.execFabs d a x s
  | .fneg d a x => Sys2Proof.Machine.execFneg d a x s
  | .fsgnj d a b x => Sys2Proof.Machine.execFsgnj d a b x s
  | .fclass d a x => Sys2Proof.Machine.execFclass d a x s
  | .fma d a b c => Sys2Proof.Machine.execFma d a b c s
  | .fms d a b c => Sys2Proof.Machine.execFms d a b c s
  | .fnma d a b c => Sys2Proof.Machine.execFnma d a b c s
  | .fnms d a b c => Sys2Proof.Machine.execFnms d a b c s
  | .fcvt d a s1 t r x => Sys2Proof.Machine.execFcvt d a s1 t r x s
  | .mfs d im => Sys2Proof.Machine.execMfs d im s
  | .mts a im => Sys2Proof.Machine.execMts a im s
  | .acq d a b s1 => Sys2Proof.Machine.execAcq d a b s1 s
  | .rel d a b s1 => Sys2Proof.Machine.execRel d a b s1 s
  | .arv d a b s1 => Sys2Proof.Machine.execArv d a b s1 s
  | .waitb d a b s1 => Sys2Proof.Machine.execWaitb d a b s1 s
  | .bind d a b s1 => Sys2Proof.Machine.execBind d a b s1 s
  | .unbind d a b s1 => Sys2Proof.Machine.execUnbind d a b s1 s
  | .fence s1 => Sys2Proof.Machine.execFence s1 s
  | .drain p => Sys2Proof.Machine.execDrain p s
  | .setf a f im v => Sys2Proof.Machine.execSetf a f im v s
  | .addf a f im v => Sys2Proof.Machine.execAddf a f im v s
  | .getf d f => Sys2Proof.Machine.execGetf d f s
  | .epop d p => Sys2Proof.Machine.execEpop d p s
  | .epopt d p => Sys2Proof.Machine.execEpopt d p s
  | .epush a p => Sys2Proof.Machine.execEpush a p s
  | .tdld d a t => Sys2Proof.Machine.execTdld d a t s
  | .tdst d a t => Sys2Proof.Machine.execTdst d a t s
  | .tdset d a t f => Sys2Proof.Machine.execTdset d a t f s
  | .tdget d a t f => Sys2Proof.Machine.execTdget d a t f s
  | .tdcpy d m t => Sys2Proof.Machine.execTdcpy d m t s
  | .prio c => Sys2Proof.Machine.execPrio c s
  | .mbpost d a b => Sys2Proof.Machine.execMbpost d a b s
  | .mbfin d a b => Sys2Proof.Machine.execMbfin d a b s
  | .mbver d a b => Sys2Proof.Machine.execMbver d a b s
  | .tlbiPage a => Sys2Proof.Machine.execTlbiPage a s
  | .tlbiTenant a => Sys2Proof.Machine.execTlbiTenant a s
  | .tlbiAll a => Sys2Proof.Machine.execTlbiAll a s
  | .cinv a p => Sys2Proof.Machine.execCinv a p s
  | .cfls a p => Sys2Proof.Machine.execCfls a p s
  | .dstchk a b x => Sys2Proof.Machine.execDstchk a b x s
  | .rgn f => Sys2Proof.Machine.execRgn f s
  | .vadd f => Sys2Proof.Machine.execVadd f s
  | .vsub f => Sys2Proof.Machine.execVsub f s
  | .vmul f => Sys2Proof.Machine.execVmul f s
  | .vfma f => Sys2Proof.Machine.execVfma f s
  | .vfms f => Sys2Proof.Machine.execVfms f s
  | .vdiv f => Sys2Proof.Machine.execVdiv f s
  | .vmin f => Sys2Proof.Machine.execVmin f s
  | .vmax f => Sys2Proof.Machine.execVmax f s
  | .vabs f => Sys2Proof.Machine.execVabs f s
  | .vneg f => Sys2Proof.Machine.execVneg f s
  | .vsqrt f => Sys2Proof.Machine.execVsqrt f s
  | .vrcp f => Sys2Proof.Machine.execVrcp f s
  | .vrsq f => Sys2Proof.Machine.execVrsq f s
  | .vscl f => Sys2Proof.Machine.execVscl f s
  | .vaxpy f => Sys2Proof.Machine.execVaxpy f s
  | .vclmp f => Sys2Proof.Machine.execVclmp f s
  | .vrnd f => Sys2Proof.Machine.execVrnd f s
  | .vexp f => Sys2Proof.Machine.execVexp f s
  | .vexp2 f => Sys2Proof.Machine.execVexp2 f s
  | .vlog f => Sys2Proof.Machine.execVlog f s
  | .vlog2 f => Sys2Proof.Machine.execVlog2 f s
  | .vtanh f => Sys2Proof.Machine.execVtanh f s
  | .vsigm f => Sys2Proof.Machine.execVsigm f s
  | .vgelu f => Sys2Proof.Machine.execVgelu f s
  | .vsilu f => Sys2Proof.Machine.execVsilu f s
  | .vsin f => Sys2Proof.Machine.execVsin f s
  | .vcos f => Sys2Proof.Machine.execVcos f s
  | .vcvt f => Sys2Proof.Machine.execVcvt f s
  | .vqnt f => Sys2Proof.Machine.execVqnt f s
  | .vdqnt f => Sys2Proof.Machine.execVdqnt f s
  | .vcvti f => Sys2Proof.Machine.execVcvti f s
  | .vcvtf f => Sys2Proof.Machine.execVcvtf f s
  | .vcmp f => Sys2Proof.Machine.execVcmp f s
  | .vsel f => Sys2Proof.Machine.execVsel f s
  | .vand f => Sys2Proof.Machine.execVand f s
  | .vor f => Sys2Proof.Machine.execVor f s
  | .vxor f => Sys2Proof.Machine.execVxor f s
  | .vnot f => Sys2Proof.Machine.execVnot f s
  | .vshl f => Sys2Proof.Machine.execVshl f s
  | .vshr f => Sys2Proof.Machine.execVshr f s
  | .vrsum f => Sys2Proof.Machine.execVrsum f s
  | .vrmax f => Sys2Proof.Machine.execVrmax f s
  | .vrmin f => Sys2Proof.Machine.execVrmin f s
  | .vramx f => Sys2Proof.Machine.execVramx f s
  | .vscan f => Sys2Proof.Machine.execVscan f s
  | .vvote f => Sys2Proof.Machine.execVvote f s
  | .vflgc f => Sys2Proof.Machine.execVflgc f s
  | .vrssq f => Sys2Proof.Machine.execVrssq f s
  | .vlse f => Sys2Proof.Machine.execVlse f s
  | .vmov f => Sys2Proof.Machine.execVmov f s
  | .vfill f => Sys2Proof.Machine.execVfill f s
  | .vgth f => Sys2Proof.Machine.execVgth f s
  | .vsct f => Sys2Proof.Machine.execVsct f s
  | .vtrn f => Sys2Proof.Machine.execVtrn f s
  | .viota f => Sys2Proof.Machine.execViota f s
  | .vcmpr f => Sys2Proof.Machine.execVcmpr f s
  | .vexpd f => Sys2Proof.Machine.execVexpd f s
  | .viadd f => Sys2Proof.Machine.execViadd f s
  | .visub f => Sys2Proof.Machine.execVisub f s
  | .vimul f => Sys2Proof.Machine.execVimul f s
  | .vimin f => Sys2Proof.Machine.execVimin f s
  | .vimax f => Sys2Proof.Machine.execVimax f s
  | .vpopc f => Sys2Proof.Machine.execVpopc f s
  | .vbext f => Sys2Proof.Machine.execVbext f s
  | .vhash f => Sys2Proof.Machine.execVhash f s
  | .mstep f => Sys2Proof.Machine.execMstep f s
  | .mnest f => Sys2Proof.Machine.execMnest f s
  | .mnset f => Sys2Proof.Machine.execMnset f s
  | .mwb f => Sys2Proof.Machine.execMwb f s
  | .mzero f => Sys2Proof.Machine.execMzero f s
  | .mlda f => Sys2Proof.Machine.execMlda f s
  | .mspc f => Sys2Proof.Machine.execMspc f s
  | .msig f => Sys2Proof.Machine.execMsig f s
  | .mscat f => Sys2Proof.Machine.execMscat f s
  | .cpy f => Sys2Proof.Machine.execCpy f s
  | .cpyi f => Sys2Proof.Machine.execCpyi f s
  | .cpyrs f => Sys2Proof.Machine.execCpyrs f s
  | .cpyk f => Sys2Proof.Machine.execCpyk f s
  | .cpymc f => Sys2Proof.Machine.execCpymc f s
  | .cwmk f => Sys2Proof.Machine.execCwmk f s
  | .ctpl f => Sys2Proof.Machine.execCtpl f s
  | .clar f => Sys2Proof.Machine.execClar f s
  | .clrs f => Sys2Proof.Machine.execClrs f s
  | .clag f => Sys2Proof.Machine.execClag f s
  | .clbc f => Sys2Proof.Machine.execClbc f s
  | .clxr f => Sys2Proof.Machine.execClxr f s
  | .clgrp f => Sys2Proof.Machine.execClgrp f s
  | .mbsend f => Sys2Proof.Machine.execMbsend f s
  | .mbrls f => Sys2Proof.Machine.execMbrls f s
  | .mbpol f => Sys2Proof.Machine.execMbpol f s
  | .mbstgLoad f => Sys2Proof.Machine.execMbstgLoad f s
  | .mbstgEnable f => Sys2Proof.Machine.execMbstgEnable f s
  | .mbstgDestroy f => Sys2Proof.Machine.execMbstgDestroy f s
  | .mbstgCancel f => Sys2Proof.Machine.execMbstgCancel f s
  | .stsh f => Sys2Proof.Machine.execStsh f s
  | .stft f => Sys2Proof.Machine.execStft f s
  | .stpf f => Sys2Proof.Machine.execStpf f s
  | .stdr f => Sys2Proof.Machine.execStdr f s
  | .stqy f => Sys2Proof.Machine.execStqy f s
  | .opj f => Sys2Proof.Machine.execOpj f s
  | .oprt f => Sys2Proof.Machine.execOprt f s
  | .opsk f => Sys2Proof.Machine.execOpsk f s
  | .bundleIssue => Sys2Proof.Machine.execBundleIssue s
  | .scoreboardReturn => Sys2Proof.Machine.execScoreboardReturn s
  | .watchdog => Sys2Proof.Machine.execWatchdog s
  | .trapEntry => Sys2Proof.Machine.execTrapEntry s
  | .regionReplay => Sys2Proof.Machine.execRegionReplay s
  | .regionCheck => Sys2Proof.Machine.execRegionCheck s
  | .remoteWriteAck => Sys2Proof.Machine.execRemoteWriteAck s
  | .launchDispatch => Sys2Proof.Machine.execLaunchDispatch s
  | .stageDispatch => Sys2Proof.Machine.execStageDispatch s
  | .taskRetire => Sys2Proof.Machine.execTaskRetire s
  | .lqTail => Sys2Proof.Machine.execLqTail s
  | .lqCtail => Sys2Proof.Machine.execLqCtail s
  | .lqCtlEnable => Sys2Proof.Machine.execLqCtlEnable s
  | .lqCtlDestroy => Sys2Proof.Machine.execLqCtlDestroy s
  | .lqCtlCancel => Sys2Proof.Machine.execLqCtlCancel s
  | .registerWrite => Sys2Proof.Machine.execRegisterWrite s
  | .aperturePush => Sys2Proof.Machine.execAperturePush s
  | .preempt => Sys2Proof.Machine.execPreempt s
  | .resume => Sys2Proof.Machine.execResume s
  | .discard => Sys2Proof.Machine.execDiscard s
  | .fault => Sys2Proof.Machine.execFault s
  | .gwsave => Sys2Proof.Machine.execGwsave s
  | .gwrestore => Sys2Proof.Machine.execGwrestore s
  | .corectlResume => Sys2Proof.Machine.execCorectlResume s
  | .dtcmdGo => Sys2Proof.Machine.execDtcmdGo s
  | .ownerTableWrite => Sys2Proof.Machine.execOwnerTableWrite s
  | .hostErr => Sys2Proof.Machine.execHostErr s
  | .rasLost => Sys2Proof.Machine.execRasLost s
  | .rasCorr => Sys2Proof.Machine.execRasCorr s
  | .fabcnt => Sys2Proof.Machine.execFabcnt s
  | .lksts => Sys2Proof.Machine.execLksts s
  | .bootStatus => Sys2Proof.Machine.execBootStatus s
  | .hostWrite => Sys2Proof.Machine.execHostWrite s
  | .hostRead => Sys2Proof.Machine.execHostRead s
  | .atsInvalidate => Sys2Proof.Machine.execAtsInvalidate s
  | .fwWinWrite => Sys2Proof.Machine.execFwWinWrite s
  | .bootCtlGo => Sys2Proof.Machine.execBootCtlGo s
  | .bootCtlWarm => Sys2Proof.Machine.execBootCtlWarm s
  | .powerOn => Sys2Proof.Machine.execPowerOn s
  | .perst => Sys2Proof.Machine.execPerst s
  | .hotReset => Sys2Proof.Machine.execHotReset s
  | .dlDown => Sys2Proof.Machine.execDlDown s
  | .pfFlr => Sys2Proof.Machine.execPfFlr s
  | .vfFlr => Sys2Proof.Machine.execVfFlr s
  | .firmwareCheck => Sys2Proof.Machine.execFirmwareCheck s
  | .hbmTraining => Sys2Proof.Machine.execHbmTraining s
  | .zeroFill => Sys2Proof.Machine.execZeroFill s
  | .linkEqualisation => Sys2Proof.Machine.execLinkEqualisation s
  | .coreSelfTest => Sys2Proof.Machine.execCoreSelfTest s
  | .supervisorLoad => Sys2Proof.Machine.execSupervisorLoad s
  | .startTimeout => Sys2Proof.Machine.execStartTimeout s
  | .version => Sys2Proof.Machine.execVersion s
  | .telemetry => Sys2Proof.Machine.execTelemetry s
  | .loadkey => Sys2Proof.Machine.execLoadkey s
  | .setpasid => Sys2Proof.Machine.execSetpasid s
  | .raisesvn => Sys2Proof.Machine.execRaisesvn s
  | .recexit => Sys2Proof.Machine.execRecexit s
  | .inject => Sys2Proof.Machine.execInject s
  | .events => Sys2Proof.Machine.execEvents s
  | .monitorWindow => Sys2Proof.Machine.execMonitorWindow s
  | .scrubPass => Sys2Proof.Machine.execScrubPass s
  | .stackLoss => Sys2Proof.Machine.execStackLoss s
  | .throttleWindow => Sys2Proof.Machine.execThrottleWindow s
  | .write => Sys2Proof.Machine.execWrite s
  | .writem => Sys2Proof.Machine.execWritem s
  | .read => Sys2Proof.Machine.execRead s
  | .atomic => Sys2Proof.Machine.execAtomic s
  | .tensor => Sys2Proof.Machine.execTensor s
  | .coll => Sys2Proof.Machine.execColl s
  | .groupAbort => Sys2Proof.Machine.execGroupAbort s
  | .data => Sys2Proof.Machine.execData s
  | .ack => Sys2Proof.Machine.execAck s
  | .nak => Sys2Proof.Machine.execNak s
  | .retryBackoff => Sys2Proof.Machine.execRetryBackoff s
  | .marker => Sys2Proof.Machine.execMarker s
  | .lnak => Sys2Proof.Machine.execLnak s
  | .kload => Sys2Proof.Machine.execKload s
  | .lkctlSwitch => Sys2Proof.Machine.execLkctlSwitch s
  | .lkctlInuse => Sys2Proof.Machine.execLkctlInuse s
  | .keyWarn => Sys2Proof.Machine.execKeyWarn s
  | .keyExhausted => Sys2Proof.Machine.execKeyExhausted s
  | .linkDown => Sys2Proof.Machine.execLinkDown s
  | .newver => Sys2Proof.Machine.execNewver s
  | .cancelGroup => Sys2Proof.Machine.execCancelGroup s
  | .nop => Sys2Proof.Machine.execNop s
  | .yield => Sys2Proof.Machine.execYield s
  | .texit => Sys2Proof.Machine.execTexit s
  | .halt => Sys2Proof.Machine.execHalt s
  | .eret => Sys2Proof.Machine.execEret s
  | .wfi => Sys2Proof.Machine.execWfi s
  | .bkpt => Sys2Proof.Machine.execBkpt s
  | .icsync => Sys2Proof.Machine.execIcsync s
  | .routerCycle => Sys2Proof.Machine.execRouterCycle s
  | .writePerformed => Sys2Proof.Machine.execWritePerformed s
  | .linkTrained => Sys2Proof.Machine.execLinkTrained s
  | .hostCompletion => Sys2Proof.Machine.execHostCompletion s
  | .completionTimeout => Sys2Proof.Machine.execCompletionTimeout s
  | .backInvalidateAnswer => Sys2Proof.Machine.execBackInvalidateAnswer s
  | .cxlCacheSnoop => Sys2Proof.Machine.execCxlCacheSnoop s
  | .msixVectorUnmask => Sys2Proof.Machine.execMsixVectorUnmask s
  | .vfFlrComplete => Sys2Proof.Machine.execVfFlrComplete s
  | .mbReq => Sys2Proof.Machine.execMbReq s
  | .tcCmd => Sys2Proof.Machine.execTcCmd s

end Sys2Proof.Machine
end

