-- ==== Sys2Proof/Machine/Redo.lean ====
section
/-!
DEFINITION. Regions that are not idempotent (R61): what a region reads before it writes, and what it changes of that; when such a
region executes again, the values it produces are undefined (log 34).
-/
namespace Sys2Proof.Machine

/-- Two ranges share an address. -/
def rangeHits (p q : Nat × Nat) : Bool := decide (p.1 < q.1 + q.2) && decide (q.1 < p.1 + p.2)

/-- A piece of work of the region: the ranges that it reads and then those that it writes (R61). -/
def Region.access (r : Region) (rd wr : List (Nat × Nat)) : Region :=
  let first := rd.filter fun p => !r.writes.any fun w => decide (w.1 ≤ p.1) && decide (p.1 + p.2 ≤ w.1 + w.2)
  let reads := r.reads ++ first.filter fun p => !r.reads.contains p
  { r with reads, writes := r.writes ++ wr.filter (fun p => !r.writes.contains p)
           broken := r.broken || wr.any fun w => reads.any (rangeHits w) }

/-- The range that stands for tile `k` of the strand's window. -/
def tileRange (k : Nat) : Nat × Nat := (2 ^ 64 + k, 1)

/-- A virtual range, with the core's own peer window as its own scratchpad (R28). -/
def ownRange (core : Nat) (va : Word) (n : Nat) : Nat × Nat :=
  let own := localBase + 0x100000000 + core % 8 * 0x400000
  (if own ≤ va.toNat && decide (va.toNat < own + 0x400000) then va.toNat - own + localBase else va.toNat, n)

/-- The ranges that an entry reads: its elements for the VE, and its source views for the other engines. -/
def entryReads (e : Entry) : List (Nat × Nat) :=
  let views (l : List Nat) : List (Nat × Nat) := spanRanges (l.flatMap fun p => descBounds e.core (e.desc p))
  match vCode e.instr with
  | some (op, f) =>
    spanRanges (([1, 2, 3].filter fun p => (vUses op f.mod.toNat).ts.testBit (p - 1)).flatMap fun p =>
      let (a, b) := touched (e.view p) (if vBroadcast op f p then [e.os] else ixFrom e.os e.cnt)
        (p == 1 && (op == 0x62 || op == 0x64)) true
      (a ++ b).map (ownSpan e.core))
  | none =>
    match e.instr with
    | .mstep f | .mnest f => views [1, 2] ++ if f.init then [] else [tileRange f.acc.toNat]
    | .mwb f => [tileRange f.acc.toNat]
    | .mscat _ | .cpyi _ => views [1, 3]
    | .msig _ => views [1, 5]
    | .mlda _ | .mspc _ | .cpy _ | .cpyrs _ | .cpyk _ | .cpymc _ | .clar _ | .clrs _ | .clag _ | .clbc _ | .clxr _ | .stsh _ => views [1]
    | _ => []

/-- The tiles that an entry writes. -/
def entryTiles (i : Instr) : List (Nat × Nat) :=
  match i with
  | .mstep f | .mnest f | .mzero f | .mlda f => [tileRange f.acc.toNat]
  | _ => []

/-- The branch target that a slot sets, and the one that it depends on (R61). -/
def btSet : Instr → List Nat
  | .pbr t _ | .mtbt t _ => [t.toNat]
  | _ => []
def btUsed : Instr → List Nat
  | .br t _ | .brl t _ | .loop t _ => [t.toNat]
  | _ => []

/-- What a slot reads and writes (R61): a scalar access, or the entry that it has pushed. -/
def State.slotRanges (s : State) (i : Instr) (pushed : List Entry) : List (Nat × Nat) × List (Nat × Nat) :=
  let own := ownRange s.curCore
  match i with
  | .ld _ a k z _ | .lds _ a k z _ => ([own (addrM (s.rs a) k z) (sizeOf2 z)], [])
  | .ldx _ a x => ([own (addrX (s.rs a) x) 8], [])
  | .tdld _ a _ => ([own (s.rs a) 32], [])
  | .st _ a k z => ([], [own (addrM (s.rs a) k z) (sizeOf2 z)])
  | .stx _ a x => ([], [own (addrX (s.rs a) x) 8])
  | .tdst _ a _ => ([], [own (s.rs a) 32])
  | _ =>
    let run := pushed.filter (·.runs)
    (run.flatMap entryReads, run.flatMap fun e => e.covers ++ entryTiles e.instr)

/-- Strand `n` is about to execute slot `i`, outside a trap. The first slot of a region tells whether a region that was discarded
executes again, and whether that one had changed what it had read (R61); where another region executes, the discarded ones do not
come back. -/
def State.reenter (s : State) (n : Nat) (i : Instr) : State :=
  let x := s.strandAt n
  let old := (s.taskAt x.task).redo
  match i, x.regions.getLast? with
  | .rgn _, _ => s
  | _, none => s
  | _, some r =>
    if r.seen || x.now.trapped || !old.any fun p => p.1 == x.gangRank then s
    else
      let found := old.find? fun p => p.1 == x.gangRank && p.2.1 == r.entry
      let left := old.filter fun p => p.1 != x.gangRank || found.isSome && p.2.1 != r.entry
      (s.modTask x.task fun t => { t with redo := left }).setStrand n
        { x with regions := x.regions.dropLast ++ [{ r with seen := true, again := (found.map (·.2.2)).getD false }] }

/-- The registers that a slot of the current strand has written hold free values (R61). -/
def State.freeDests (s : State) (n seq : Nat) : List Name → State
  | [] => s
  | d :: r =>
    let (v, s) := s.draw
    let s := match d with
      | .sys k =>
        if k = 0x10 then s.modStrand n (·.modNow fun g => { g with cls := BitVec.ofNat 2 (v.toNat % 3) }) else s.sysWrite k (v.setWidth 64)
      | _ => s.modStrand n fun x =>
        if x.held d then x
        else match d with
        | .s k =>
          if x.late.any fun l => l.dst == k && l.seq == seq then
            { x with late := x.late.map fun (l : Late) => if l.dst = k && l.seq = seq then { l with val := v.setWidth 64 } else l }
          else x.modNow (·.setS k (v.setWidth 64))
        | .g k => x.modNow (·.setG k (v.getLsbD 0))
        | .bt k => x.modNow (·.setBt k (v.setWidth 64))
        | .lc k => x.modNow (·.setLc k (v.setWidth 32))
        | .f k => x.modNow (·.setF k (v.setWidth 8))
        | .t k => x.modNow (·.setT k v)
        | .sys _ => x
    s.freeDests n seq r

/-- The value that a scoreboarded operation of the slot brings, and its entry, are undefined (R61). -/
def Strand.undefWork (x : Strand) (seq rid : Nat) : Strand :=
  { x with
    queues := x.queues.map fun q => (q.1, q.2.map fun e => if e.seq = seq && e.rid = rid then { e with undef := true } else e)
    board := x.board.map fun b => if b.seq = seq && b.rid = rid then { b with undef := true } else b }

/-- A slot `i` of strand `n` has executed, from `s` to `t`: its region notes what it read and wrote, and where the region executes
again, the slot's results and its entry are undefined (R61). A commit-class instruction may change what its region has read. -/
def State.regionRule (s : State) (n : Nat) (i : Instr) (t : State) : State :=
  let x := s.strandAt n
  let y := t.strandAt n
  if y.flight.isNone || y.blocked != 0 then t
  else if commitClass i then (if x.again then t.setStrand n (y.undefWork x.seq x.curRid) else t)
  else if y.curRid != x.curRid then t
  else
    let pushed := y.queues.flatMap fun q => q.2.filter fun e => e.seq == x.seq && e.rid == x.curRid
    let (rd, wr) := s.slotRanges i pushed
    let note (r : Region) : Region :=
      let r := if rd.isEmpty && wr.isEmpty then r else r.access rd wr
      { r with bts := r.bts ++ (btSet i).filter fun b => !r.bts.contains b
               broken := r.broken || (btUsed i).any fun b => !r.bts.contains b }
    let quiet := rd.isEmpty && wr.isEmpty && (btSet i).isEmpty && (btUsed i).isEmpty
    let y := if quiet then y else { y with regions := y.regions.map fun r => if r.rid = x.curRid then note r else r }
    if x.again then (t.setStrand n (y.undefWork x.seq x.curRid)).freeDests n x.seq (dests i)
    else t.setStrand n y

end Sys2Proof.Machine
end

