-- ==== Sys2Proof/Machine/Run.lean ====
section
/-!
DEFINITION. Running the machine: an event with what it brings, the slots of an issued bundle one after another (R136), an
engine's turn, and the choice among what the agents can do.
-/
namespace Sys2Proof.Machine

/-- Go on after an outcome. -/
def andThen (o : Out1) (f : State → Out1) : Out1 :=
  match o with
  | .next s => f s
  | .fault r => .fault r
  | .refused r => .refused r

/-- The slots that strand `n` has left take effect, until one waits. -/
def State.runSlots (s : State) (n : Nat) : Nat → Out1
  | 0 => .next s
  | k + 1 =>
    match s.startSlot n with
    | none => .next s
    | some (s, i) =>
      let s := s.reenter n i
      andThen (exec i s) fun t =>
        let t := (s.regionRule n i t).endSlot n
        if (t.strandAt n).blocked = 0 then t.runSlots n k else .next t

/-- The bundles of core `core` go on, slot by slot of the core. -/
def State.runCore (s : State) (core : Nat) : List Nat → Out1
  | [] => .next s
  | k :: r => andThen (s.runSlots (core * Config.slots + k) 5) fun s => s.runCore core r

/-- An engine's turn for entry `e`: its queue is the one last served (R19), and how much of its work the turn does is a free choice (R64,
R74, log 17). -/
def State.beginTurn (s : State) (e : Entry) : State :=
  let (c, s) := s.choose 2
  let s := match engineOf e.instr with
    | some k => s.modCore (servedCore k e.core) fun c => { c with lastServed := smPut c.lastServed k (e.queueNo k) }
    | none => s
  { s with engine := some e, cur := e.strand.getD (e.core * Config.slots), pace := c }

/-- One step of an agent. -/
def State.act (s : State) (a : Act) : Out1 :=
  match a with
  | .event .bundleIssue e => andThen (exec .bundleIssue { s with ev := e }) fun s => s.runCore e.n (List.range Config.slots)
  | .event i e => exec i { s with ev := e }
  | .later k => match s.later[k]? with
    | some (i, e) => exec i { s with later := s.later.eraseIdx k, ev := e }
    | none => .next s
  | .turn e => exec e.instr (s.beginTurn e)

/-- The step is over: what it carried is put away. -/
def State.finish (s : State) : State := { s.settle with ev := {}, cur := 0, engine := none, miss := [], pace := 0 }

/-- The next step (log 1): a stage's dispatch that starts at once (R373); the oldest event that has arrived; else one of the steps that
the package's agents can take, by a free choice where there are several; else nothing changes. -/
def State.next (s : State) : Out1 :=
  match s.urgent with
  | some a => s.act a
  | none =>
    match s.inbox with
    | (i, e) :: r => ({ s with inbox := r } : State).act (.event i e)
    | [] =>
      match s.enabled with
      | [] => .next s
      | [a] => s.act a
      | a :: l => let (c, s) := s.choose (l.length + 1); s.act (((a :: l)[c]?).getD a)

end Sys2Proof.Machine
end

