-- ==== Sys2Proof/Machine/Step.lean ====
section
/-!
DEFINITION. One step of the package, and the placing of an instruction where the next step fetches.
-/
namespace Sys2Proof.Machine

/-- One step (spec 95, log 1): one row of the opcode table takes effect; with BUNDLE_ISSUE, the slots of the bundles that
its core is executing. -/
def step (s : State) : Host.Outcome State Fault Refusal := andThen s.next fun s => .next s.finish

/-- The bundle that holds an instruction of `nbits` bits alone: header and word (R131, R133). -/
def placeBytes (nbits w : Nat) : List Byte :=
  let p := if nbits = 96 then 4 else if nbits = 192 then 8 else 2
  leBytes 4 (0xE0000000 + p) ++ leBytes (nbits / 8) w

/-- `s` with an instruction stored where the next step fetches (log 10): a supervisor strand of a system task of tenant 0
stands in slot 0 of core 0 at address 0x10000, which a page of 1 GiB maps. -/
def State.withFetchWord (s : State) (nbits w : Nat) : State :=
  let s := s.putMemNat 0x1000 8 0x2001
  let s := s.putMemNat 0x2000 8 0x3001
  let s := s.putMemNat 0x3000 8 (0x40000000 + 0x3B)
  let s := s.putMem 0x40010000 (placeBytes nbits w)
  let s := { s with boot := { s.boot with state := 2 }, tasks := [(1, {})], nextTask := 2, strands := [], inbox := [] }
  let s := s.setDie 0 { ptbase := 0x1000 }
  let x : Strand := { live := true, task := 1, gangSize := 1, pc := 0x10000, now := { sup := true }, spmLen := 0x400000, accN := 4 }
  s.setStrand 0 (x.openRegion { entry := 0x10000 })

end Sys2Proof.Machine
end

