-- ==== Sys2Proof/Laws/Encoding.lean ====
section
/-!
SUPPORT. Lemmas of the encoding: the fields of a word that the encoder lays out are read back, for each layout of the scalar
formats (R139, R140) and for the V and M words (R142, R145).
-/
namespace Sys2Proof
open Machine

/-- A well-formed instruction whose reserved fields are zero passes the last check of the decoder. -/
theorem finish_ok {i : Instr} (h : wellFormed i = true) : finish i none = .ok i := by
  simp only [wellFormed, Bool.and_eq_true, Bool.not_eq_true', Option.isNone_iff_eq_none] at h
  simp [finish, h.1, h.2, minBit]

theorem bits_eq {n : Nat} (v : BitVec n) (w lo : Nat) (h : w / 2 ^ lo % 2 ^ n = v.toNat) : bits n w lo = v := by
  apply BitVec.eq_of_toNat_eq; simpa [bits] using h

/-- A well-formed instruction has no selector value that is none. -/
theorem wellFormed_legal {i : Instr} (h : wellFormed i = true) : illegalFields i = false := by
  simp only [wellFormed, Bool.and_eq_true, Bool.not_eq_true'] at h
  exact h.1

/-- A scalar word whose row is found, whose reserved fields are zero and whose row builds `i` decodes to `i`. -/
theorem decode_row {x major : Nat} {r : Row} {i : Instr} (hm : x / 2 ^ 26 % 64 = major)
    (hf : (rowsOf major).find? (fun r => x / 2 ^ r.selLo % 2 ^ r.selWidth == r.selVal) = some r)
    (hz : lowBitOf x r.zero = none) (hb : r.build x = i) (hw : wellFormed i = true) : decodeSlot 32 x = .ok i := by
  simp only [decodeSlot, if_true, decodeScalar, hm, hf, hz, hb]
  exact finish_ok hw

theorem word_6at20_6at14_6at8_1at7_sel7at0 (a0 : BitVec 6) (a1 : BitVec 6) (a2 : BitVec 6) (a3 : BitVec 1) {M S C x : Nat}
    (hM : M < 64) (hS : S < 2 ^ 7) (hC : C = M * 2 ^ 26 + S * 2 ^ 0)
    (hx : word C [(a0.toNat, 20), (a1.toNat, 14), (a2.toNat, 8), (a3.toNat, 7)] = x) : x / 2 ^ 26 % 64 = M
    ∧ x / 2 ^ 0 % 2 ^ 7 = S ∧ lowBitOf x [] = none ∧ bits 6 x 20 = a0 ∧ bits 6 x 14 = a1 ∧ bits 6 x 8 = a2 ∧ bits 1 x 7 = a3 := by
  simp only [word] at hx
  have := a0.isLt
  have := a1.isLt
  have := a2.isLt
  have := a3.isLt
  refine ⟨by omega, by omega, rfl, bits_eq _ _ _ (by omega), bits_eq _ _ _ (by omega), bits_eq _ _ _ (by omega),
    bits_eq _ _ _ (by omega)⟩

theorem word_6at20_6at14_1at7_sel7at0_zero6at8 (a0 : BitVec 6) (a1 : BitVec 6) (a2 : BitVec 1) {M S C x : Nat}
    (hM : M < 64) (hS : S < 2 ^ 7) (hC : C = M * 2 ^ 26 + S * 2 ^ 0)
    (hx : word C [(a0.toNat, 20), (a1.toNat, 14), (a2.toNat, 7)] = x) : x / 2 ^ 26 % 64 = M ∧ x / 2 ^ 0 % 2 ^ 7 = S
    ∧ lowBitOf x [(8, 6)] = none ∧ bits 6 x 20 = a0 ∧ bits 6 x 14 = a1 ∧ bits 1 x 7 = a2 := by
  simp only [word] at hx
  have := a0.isLt
  have := a1.isLt
  have := a2.isLt
  refine ⟨by omega, by omega, by simp only [lowBitOf, (by omega : x / 2 ^ 8 % 2 ^ 6 = 0), if_true],
    bits_eq _ _ _ (by omega), bits_eq _ _ _ (by omega), bits_eq _ _ _ (by omega)⟩

theorem word_6at20_6at14_14at0 (a0 : BitVec 6) (a1 : BitVec 6) (a2 : BitVec 14) {M S C x : Nat}
    (hM : M < 64) (hS : S < 2 ^ 0) (hC : C = M * 2 ^ 26 + S * 2 ^ 0)
    (hx : word C [(a0.toNat, 20), (a1.toNat, 14), (a2.toNat, 0)] = x) : x / 2 ^ 26 % 64 = M ∧ x / 2 ^ 0 % 2 ^ 0 = S
    ∧ lowBitOf x [] = none ∧ bits 6 x 20 = a0 ∧ bits 6 x 14 = a1 ∧ bits 14 x 0 = a2 := by
  simp only [word] at hx
  have := a0.isLt
  have := a1.isLt
  have := a2.isLt
  refine ⟨by omega, by omega, rfl, bits_eq _ _ _ (by omega), bits_eq _ _ _ (by omega), bits_eq _ _ _ (by omega)⟩

theorem word_6at20_6at14_1at6_6at0_sel2at12_zero5at7 (a0 : BitVec 6) (a1 : BitVec 6) (a2 : BitVec 1) (a3 : BitVec 6)
    {M S C x : Nat} (hM : M < 64) (hS : S < 2 ^ 2) (hC : C = M * 2 ^ 26 + S * 2 ^ 12)
    (hx : word C [(a0.toNat, 20), (a1.toNat, 14), (a2.toNat, 6), (a3.toNat, 0)] = x) : x / 2 ^ 26 % 64 = M
    ∧ x / 2 ^ 12 % 2 ^ 2 = S ∧ lowBitOf x [(7, 5)] = none ∧ bits 6 x 20 = a0 ∧ bits 6 x 14 = a1 ∧ bits 1 x 6 = a2
    ∧ bits 6 x 0 = a3 := by
  simp only [word] at hx
  have := a0.isLt
  have := a1.isLt
  have := a2.isLt
  have := a3.isLt
  refine ⟨by omega, by omega, by simp only [lowBitOf, (by omega : x / 2 ^ 7 % 2 ^ 5 = 0), if_true],
    bits_eq _ _ _ (by omega), bits_eq _ _ _ (by omega), bits_eq _ _ _ (by omega), bits_eq _ _ _ (by omega)⟩

theorem word_6at20_20at0 (a0 : BitVec 6) (a1 : BitVec 20) {M S C x : Nat}
    (hM : M < 64) (hS : S < 2 ^ 0) (hC : C = M * 2 ^ 26 + S * 2 ^ 0)
    (hx : word C [(a0.toNat, 20), (a1.toNat, 0)] = x) : x / 2 ^ 26 % 64 = M ∧ x / 2 ^ 0 % 2 ^ 0 = S ∧ lowBitOf x [] = none
    ∧ bits 6 x 20 = a0 ∧ bits 20 x 0 = a1 := by
  simp only [word] at hx
  have := a0.isLt
  have := a1.isLt
  refine ⟨by omega, by omega, rfl, bits_eq _ _ _ (by omega), bits_eq _ _ _ (by omega)⟩

theorem word_6at20_6at14_6at8_6at2_1at1_zero1at0 (a0 : BitVec 6) (a1 : BitVec 6) (a2 : BitVec 6) (a3 : BitVec 6) (a4 : BitVec 1) {M S C x : Nat} (hM : M < 64) (hS : S < 2 ^ 0) (hC : C = M * 2 ^ 26 + S * 2 ^ 0)
    (hx : word C [(a0.toNat, 20), (a1.toNat, 14), (a2.toNat, 8), (a3.toNat, 2), (a4.toNat, 1)] = x) : x / 2 ^ 26 % 64 = M
    ∧ x / 2 ^ 0 % 2 ^ 0 = S ∧ lowBitOf x [(0, 1)] = none ∧ bits 6 x 20 = a0 ∧ bits 6 x 14 = a1 ∧ bits 6 x 8 = a2
    ∧ bits 6 x 2 = a3 ∧ bits 1 x 1 = a4 := by
  simp only [word] at hx
  have := a0.isLt
  have := a1.isLt
  have := a2.isLt
  have := a3.isLt
  have := a4.isLt
  refine ⟨by omega, by omega, by simp only [lowBitOf, (by omega : x / 2 ^ 0 % 2 ^ 1 = 0), if_true],
    bits_eq _ _ _ (by omega), bits_eq _ _ _ (by omega), bits_eq _ _ _ (by omega), bits_eq _ _ _ (by omega), bits_eq _ _ _ (by omega)⟩

theorem word_6at20_6at14_6at8_6at2_zero2at0 (a0 : BitVec 6) (a1 : BitVec 6) (a2 : BitVec 6) (a3 : BitVec 6) {M S C x : Nat}
    (hM : M < 64) (hS : S < 2 ^ 0) (hC : C = M * 2 ^ 26 + S * 2 ^ 0)
    (hx : word C [(a0.toNat, 20), (a1.toNat, 14), (a2.toNat, 8), (a3.toNat, 2)] = x) : x / 2 ^ 26 % 64 = M
    ∧ x / 2 ^ 0 % 2 ^ 0 = S ∧ lowBitOf x [(0, 2)] = none ∧ bits 6 x 20 = a0 ∧ bits 6 x 14 = a1 ∧ bits 6 x 8 = a2
    ∧ bits 6 x 2 = a3 := by
  simp only [word] at hx
  have := a0.isLt
  have := a1.isLt
  have := a2.isLt
  have := a3.isLt
  refine ⟨by omega, by omega, by simp only [lowBitOf, (by omega : x / 2 ^ 0 % 2 ^ 2 = 0), if_true],
    bits_eq _ _ _ (by omega), bits_eq _ _ _ (by omega), bits_eq _ _ _ (by omega), bits_eq _ _ _ (by omega)⟩

theorem word_6at20_6at14_6at8_1at0_zero7at1 (a0 : BitVec 6) (a1 : BitVec 6) (a2 : BitVec 6) (a3 : BitVec 1) {M S C x : Nat}
    (hM : M < 64) (hS : S < 2 ^ 0) (hC : C = M * 2 ^ 26 + S * 2 ^ 0)
    (hx : word C [(a0.toNat, 20), (a1.toNat, 14), (a2.toNat, 8), (a3.toNat, 0)] = x) : x / 2 ^ 26 % 64 = M
    ∧ x / 2 ^ 0 % 2 ^ 0 = S ∧ lowBitOf x [(1, 7)] = none ∧ bits 6 x 20 = a0 ∧ bits 6 x 14 = a1 ∧ bits 6 x 8 = a2
    ∧ bits 1 x 0 = a3 := by
  simp only [word] at hx
  have := a0.isLt
  have := a1.isLt
  have := a2.isLt
  have := a3.isLt
  refine ⟨by omega, by omega, by simp only [lowBitOf, (by omega : x / 2 ^ 1 % 2 ^ 7 = 0), if_true],
    bits_eq _ _ _ (by omega), bits_eq _ _ _ (by omega), bits_eq _ _ _ (by omega), bits_eq _ _ _ (by omega)⟩

theorem word_6at20_6at14_6at8_zero8at0 (a0 : BitVec 6) (a1 : BitVec 6) (a2 : BitVec 6) {M S C x : Nat}
    (hM : M < 64) (hS : S < 2 ^ 0) (hC : C = M * 2 ^ 26 + S * 2 ^ 0)
    (hx : word C [(a0.toNat, 20), (a1.toNat, 14), (a2.toNat, 8)] = x) : x / 2 ^ 26 % 64 = M ∧ x / 2 ^ 0 % 2 ^ 0 = S
    ∧ lowBitOf x [(0, 8)] = none ∧ bits 6 x 20 = a0 ∧ bits 6 x 14 = a1 ∧ bits 6 x 8 = a2 := by
  simp only [word] at hx
  have := a0.isLt
  have := a1.isLt
  have := a2.isLt
  refine ⟨by omega, by omega, by simp only [lowBitOf, (by omega : x / 2 ^ 0 % 2 ^ 8 = 0), if_true],
    bits_eq _ _ _ (by omega), bits_eq _ _ _ (by omega), bits_eq _ _ _ (by omega)⟩

theorem word_6at20_6at14_6at8_4at4_zero4at0 (a0 : BitVec 6) (a1 : BitVec 6) (a2 : BitVec 6) (a3 : BitVec 4) {M S C x : Nat}
    (hM : M < 64) (hS : S < 2 ^ 0) (hC : C = M * 2 ^ 26 + S * 2 ^ 0)
    (hx : word C [(a0.toNat, 20), (a1.toNat, 14), (a2.toNat, 8), (a3.toNat, 4)] = x) : x / 2 ^ 26 % 64 = M
    ∧ x / 2 ^ 0 % 2 ^ 0 = S ∧ lowBitOf x [(0, 4)] = none ∧ bits 6 x 20 = a0 ∧ bits 6 x 14 = a1 ∧ bits 6 x 8 = a2
    ∧ bits 4 x 4 = a3 := by
  simp only [word] at hx
  have := a0.isLt
  have := a1.isLt
  have := a2.isLt
  have := a3.isLt
  refine ⟨by omega, by omega, by simp only [lowBitOf, (by omega : x / 2 ^ 0 % 2 ^ 4 = 0), if_true],
    bits_eq _ _ _ (by omega), bits_eq _ _ _ (by omega), bits_eq _ _ _ (by omega), bits_eq _ _ _ (by omega)⟩

theorem word_6at20_6at14_10at4_2at2_2at0 (a0 : BitVec 6) (a1 : BitVec 6) (a2 : BitVec 10) (a3 : BitVec 2) (a4 : BitVec 2)
    {M S C x : Nat} (hM : M < 64) (hS : S < 2 ^ 0) (hC : C = M * 2 ^ 26 + S * 2 ^ 0)
    (hx : word C [(a0.toNat, 20), (a1.toNat, 14), (a2.toNat, 4), (a3.toNat, 2), (a4.toNat, 0)] = x) : x / 2 ^ 26 % 64 = M
    ∧ x / 2 ^ 0 % 2 ^ 0 = S ∧ lowBitOf x [] = none ∧ bits 6 x 20 = a0 ∧ bits 6 x 14 = a1 ∧ bits 10 x 4 = a2 ∧ bits 2 x 2 = a3
    ∧ bits 2 x 0 = a4 := by
  simp only [word] at hx
  have := a0.isLt
  have := a1.isLt
  have := a2.isLt
  have := a3.isLt
  have := a4.isLt
  refine ⟨by omega, by omega, rfl, bits_eq _ _ _ (by omega), bits_eq _ _ _ (by omega), bits_eq _ _ _ (by omega),
    bits_eq _ _ _ (by omega), bits_eq _ _ _ (by omega)⟩

theorem word_6at20_6at14_10at4_2at2_zero2at0 (a0 : BitVec 6) (a1 : BitVec 6) (a2 : BitVec 10) (a3 : BitVec 2) {M S C x : Nat}
    (hM : M < 64) (hS : S < 2 ^ 0) (hC : C = M * 2 ^ 26 + S * 2 ^ 0)
    (hx : word C [(a0.toNat, 20), (a1.toNat, 14), (a2.toNat, 4), (a3.toNat, 2)] = x) : x / 2 ^ 26 % 64 = M
    ∧ x / 2 ^ 0 % 2 ^ 0 = S ∧ lowBitOf x [(0, 2)] = none ∧ bits 6 x 20 = a0 ∧ bits 6 x 14 = a1 ∧ bits 10 x 4 = a2
    ∧ bits 2 x 2 = a3 := by
  simp only [word] at hx
  have := a0.isLt
  have := a1.isLt
  have := a2.isLt
  have := a3.isLt
  refine ⟨by omega, by omega, by simp only [lowBitOf, (by omega : x / 2 ^ 0 % 2 ^ 2 = 0), if_true],
    bits_eq _ _ _ (by omega), bits_eq _ _ _ (by omega), bits_eq _ _ _ (by omega), bits_eq _ _ _ (by omega)⟩

theorem word_6at14_10at4_2at0_zero2at2_6at20 (a0 : BitVec 6) (a1 : BitVec 10) (a2 : BitVec 2) {M S C x : Nat}
    (hM : M < 64) (hS : S < 2 ^ 0) (hC : C = M * 2 ^ 26 + S * 2 ^ 0)
    (hx : word C [(a0.toNat, 14), (a1.toNat, 4), (a2.toNat, 0)] = x) : x / 2 ^ 26 % 64 = M ∧ x / 2 ^ 0 % 2 ^ 0 = S
    ∧ lowBitOf x [(2, 2), (20, 6)] = none ∧ bits 6 x 14 = a0 ∧ bits 10 x 4 = a1 ∧ bits 2 x 0 = a2 := by
  simp only [word] at hx
  have := a0.isLt
  have := a1.isLt
  have := a2.isLt
  refine ⟨by omega, by omega,
    by simp only [lowBitOf, (by omega : x / 2 ^ 2 % 2 ^ 2 = 0), (by omega : x / 2 ^ 20 % 2 ^ 6 = 0), if_true],
    bits_eq _ _ _ (by omega), bits_eq _ _ _ (by omega), bits_eq _ _ _ (by omega)⟩

theorem word_6at20_6at14_6at8_3at2_2at0_sel3at5 (a0 : BitVec 6) (a1 : BitVec 6) (a2 : BitVec 6) (a3 : BitVec 3) (a4 : BitVec 2) {M S C x : Nat} (hM : M < 64) (hS : S < 2 ^ 3) (hC : C = M * 2 ^ 26 + S * 2 ^ 5)
    (hx : word C [(a0.toNat, 20), (a1.toNat, 14), (a2.toNat, 8), (a3.toNat, 2), (a4.toNat, 0)] = x) : x / 2 ^ 26 % 64 = M
    ∧ x / 2 ^ 5 % 2 ^ 3 = S ∧ lowBitOf x [] = none ∧ bits 6 x 20 = a0 ∧ bits 6 x 14 = a1 ∧ bits 6 x 8 = a2 ∧ bits 3 x 2 = a3
    ∧ bits 2 x 0 = a4 := by
  simp only [word] at hx
  have := a0.isLt
  have := a1.isLt
  have := a2.isLt
  have := a3.isLt
  have := a4.isLt
  refine ⟨by omega, by omega, rfl, bits_eq _ _ _ (by omega), bits_eq _ _ _ (by omega), bits_eq _ _ _ (by omega),
    bits_eq _ _ _ (by omega), bits_eq _ _ _ (by omega)⟩

theorem word_3at23_6at14_6at8_1at7_sel3at20_zero7at0 (a0 : BitVec 3) (a1 : BitVec 6) (a2 : BitVec 6) (a3 : BitVec 1)
    {M S C x : Nat} (hM : M < 64) (hS : S < 2 ^ 3) (hC : C = M * 2 ^ 26 + S * 2 ^ 20)
    (hx : word C [(a0.toNat, 23), (a1.toNat, 14), (a2.toNat, 8), (a3.toNat, 7)] = x) : x / 2 ^ 26 % 64 = M
    ∧ x / 2 ^ 20 % 2 ^ 3 = S ∧ lowBitOf x [(0, 7)] = none ∧ bits 3 x 23 = a0 ∧ bits 6 x 14 = a1 ∧ bits 6 x 8 = a2
    ∧ bits 1 x 7 = a3 := by
  simp only [word] at hx
  have := a0.isLt
  have := a1.isLt
  have := a2.isLt
  have := a3.isLt
  refine ⟨by omega, by omega, by simp only [lowBitOf, (by omega : x / 2 ^ 0 % 2 ^ 7 = 0), if_true],
    bits_eq _ _ _ (by omega), bits_eq _ _ _ (by omega), bits_eq _ _ _ (by omega), bits_eq _ _ _ (by omega)⟩

theorem word_3at23_6at14_14at0_sel3at20 (a0 : BitVec 3) (a1 : BitVec 6) (a2 : BitVec 14) {M S C x : Nat}
    (hM : M < 64) (hS : S < 2 ^ 3) (hC : C = M * 2 ^ 26 + S * 2 ^ 20)
    (hx : word C [(a0.toNat, 23), (a1.toNat, 14), (a2.toNat, 0)] = x) : x / 2 ^ 26 % 64 = M ∧ x / 2 ^ 20 % 2 ^ 3 = S
    ∧ lowBitOf x [] = none ∧ bits 3 x 23 = a0 ∧ bits 6 x 14 = a1 ∧ bits 14 x 0 = a2 := by
  simp only [word] at hx
  have := a0.isLt
  have := a1.isLt
  have := a2.isLt
  refine ⟨by omega, by omega, rfl, bits_eq _ _ _ (by omega), bits_eq _ _ _ (by omega), bits_eq _ _ _ (by omega)⟩

theorem word_3at23_4at14_4at8_sel3at20_zero8at0_2at12_2at18 (a0 : BitVec 3) (a1 : BitVec 4) (a2 : BitVec 4) {M S C x : Nat}
    (hM : M < 64) (hS : S < 2 ^ 3) (hC : C = M * 2 ^ 26 + S * 2 ^ 20)
    (hx : word C [(a0.toNat, 23), (a1.toNat, 14), (a2.toNat, 8)] = x) : x / 2 ^ 26 % 64 = M ∧ x / 2 ^ 20 % 2 ^ 3 = S
    ∧ lowBitOf x [(0, 8), (12, 2), (18, 2)] = none ∧ bits 3 x 23 = a0 ∧ bits 4 x 14 = a1 ∧ bits 4 x 8 = a2 := by
  simp only [word] at hx
  have := a0.isLt
  have := a1.isLt
  have := a2.isLt
  refine ⟨by omega, by omega,
    by simp only [lowBitOf, (by omega : x / 2 ^ 0 % 2 ^ 8 = 0), (by omega : x / 2 ^ 12 % 2 ^ 2 = 0), (by omega : x / 2 ^ 18 % 2 ^ 2 = 0), if_true], bits_eq _ _ _ (by omega), bits_eq _ _ _ (by omega), bits_eq _ _ _ (by omega)⟩

theorem word_2at24_24at0 (a0 : BitVec 2) (a1 : BitVec 24) {M S C x : Nat}
    (hM : M < 64) (hS : S < 2 ^ 0) (hC : C = M * 2 ^ 26 + S * 2 ^ 0)
    (hx : word C [(a0.toNat, 24), (a1.toNat, 0)] = x) : x / 2 ^ 26 % 64 = M ∧ x / 2 ^ 0 % 2 ^ 0 = S ∧ lowBitOf x [] = none
    ∧ bits 2 x 24 = a0 ∧ bits 24 x 0 = a1 := by
  simp only [word] at hx
  have := a0.isLt
  have := a1.isLt
  refine ⟨by omega, by omega, rfl, bits_eq _ _ _ (by omega), bits_eq _ _ _ (by omega)⟩

theorem word_2at24_4at20_zero20at0 (a0 : BitVec 2) (a1 : BitVec 4) {M S C x : Nat}
    (hM : M < 64) (hS : S < 2 ^ 0) (hC : C = M * 2 ^ 26 + S * 2 ^ 0)
    (hx : word C [(a0.toNat, 24), (a1.toNat, 20)] = x) : x / 2 ^ 26 % 64 = M ∧ x / 2 ^ 0 % 2 ^ 0 = S
    ∧ lowBitOf x [(0, 20)] = none ∧ bits 2 x 24 = a0 ∧ bits 4 x 20 = a1 := by
  simp only [word] at hx
  have := a0.isLt
  have := a1.isLt
  refine ⟨by omega, by omega, by simp only [lowBitOf, (by omega : x / 2 ^ 0 % 2 ^ 20 = 0), if_true],
    bits_eq _ _ _ (by omega), bits_eq _ _ _ (by omega)⟩

theorem word_2at24_6at14_zero14at0_4at20 (a0 : BitVec 2) (a1 : BitVec 6) {M S C x : Nat}
    (hM : M < 64) (hS : S < 2 ^ 0) (hC : C = M * 2 ^ 26 + S * 2 ^ 0)
    (hx : word C [(a0.toNat, 24), (a1.toNat, 14)] = x) : x / 2 ^ 26 % 64 = M ∧ x / 2 ^ 0 % 2 ^ 0 = S
    ∧ lowBitOf x [(0, 14), (20, 4)] = none ∧ bits 2 x 24 = a0 ∧ bits 6 x 14 = a1 := by
  simp only [word] at hx
  have := a0.isLt
  have := a1.isLt
  refine ⟨by omega, by omega,
    by simp only [lowBitOf, (by omega : x / 2 ^ 0 % 2 ^ 14 = 0), (by omega : x / 2 ^ 20 % 2 ^ 4 = 0), if_true],
    bits_eq _ _ _ (by omega), bits_eq _ _ _ (by omega)⟩

theorem word_2at24_2at22_sel2at20_zero20at0 (a0 : BitVec 2) (a1 : BitVec 2) {M S C x : Nat}
    (hM : M < 64) (hS : S < 2 ^ 2) (hC : C = M * 2 ^ 26 + S * 2 ^ 20)
    (hx : word C [(a0.toNat, 24), (a1.toNat, 22)] = x) : x / 2 ^ 26 % 64 = M ∧ x / 2 ^ 20 % 2 ^ 2 = S
    ∧ lowBitOf x [(0, 20)] = none ∧ bits 2 x 24 = a0 ∧ bits 2 x 22 = a1 := by
  simp only [word] at hx
  have := a0.isLt
  have := a1.isLt
  refine ⟨by omega, by omega, by simp only [lowBitOf, (by omega : x / 2 ^ 0 % 2 ^ 20 = 0), if_true],
    bits_eq _ _ _ (by omega), bits_eq _ _ _ (by omega)⟩

theorem word_2at22_6at14_sel2at20_zero14at0_2at24 (a0 : BitVec 2) (a1 : BitVec 6) {M S C x : Nat}
    (hM : M < 64) (hS : S < 2 ^ 2) (hC : C = M * 2 ^ 26 + S * 2 ^ 20)
    (hx : word C [(a0.toNat, 22), (a1.toNat, 14)] = x) : x / 2 ^ 26 % 64 = M ∧ x / 2 ^ 20 % 2 ^ 2 = S
    ∧ lowBitOf x [(0, 14), (24, 2)] = none ∧ bits 2 x 22 = a0 ∧ bits 6 x 14 = a1 := by
  simp only [word] at hx
  have := a0.isLt
  have := a1.isLt
  refine ⟨by omega, by omega,
    by simp only [lowBitOf, (by omega : x / 2 ^ 0 % 2 ^ 14 = 0), (by omega : x / 2 ^ 24 % 2 ^ 2 = 0), if_true],
    bits_eq _ _ _ (by omega), bits_eq _ _ _ (by omega)⟩

theorem word_14at0_zero12at14 (a0 : BitVec 14) {M S C x : Nat} (hM : M < 64) (hS : S < 2 ^ 0) (hC : C = M * 2 ^ 26 + S * 2 ^ 0)
    (hx : word C [(a0.toNat, 0)] = x) : x / 2 ^ 26 % 64 = M ∧ x / 2 ^ 0 % 2 ^ 0 = S ∧ lowBitOf x [(14, 12)] = none
    ∧ bits 14 x 0 = a0 := by
  simp only [word] at hx
  have := a0.isLt
  refine ⟨by omega, by omega, by simp only [lowBitOf, (by omega : x / 2 ^ 14 % 2 ^ 12 = 0), if_true], bits_eq _ _ _ (by omega)⟩

theorem word_6at20_6at14_6at8_3at5_1at4_sel4at0 (a0 : BitVec 6) (a1 : BitVec 6) (a2 : BitVec 6) (a3 : BitVec 3) (a4 : BitVec 1) {M S C x : Nat} (hM : M < 64) (hS : S < 2 ^ 4) (hC : C = M * 2 ^ 26 + S * 2 ^ 0)
    (hx : word C [(a0.toNat, 20), (a1.toNat, 14), (a2.toNat, 8), (a3.toNat, 5), (a4.toNat, 4)] = x) : x / 2 ^ 26 % 64 = M
    ∧ x / 2 ^ 0 % 2 ^ 4 = S ∧ lowBitOf x [] = none ∧ bits 6 x 20 = a0 ∧ bits 6 x 14 = a1 ∧ bits 6 x 8 = a2 ∧ bits 3 x 5 = a3
    ∧ bits 1 x 4 = a4 := by
  simp only [word] at hx
  have := a0.isLt
  have := a1.isLt
  have := a2.isLt
  have := a3.isLt
  have := a4.isLt
  refine ⟨by omega, by omega, rfl, bits_eq _ _ _ (by omega), bits_eq _ _ _ (by omega), bits_eq _ _ _ (by omega),
    bits_eq _ _ _ (by omega), bits_eq _ _ _ (by omega)⟩

theorem word_6at20_6at14_3at5_1at4_sel4at0_zero6at8 (a0 : BitVec 6) (a1 : BitVec 6) (a2 : BitVec 3) (a3 : BitVec 1)
    {M S C x : Nat} (hM : M < 64) (hS : S < 2 ^ 4) (hC : C = M * 2 ^ 26 + S * 2 ^ 0)
    (hx : word C [(a0.toNat, 20), (a1.toNat, 14), (a2.toNat, 5), (a3.toNat, 4)] = x) : x / 2 ^ 26 % 64 = M
    ∧ x / 2 ^ 0 % 2 ^ 4 = S ∧ lowBitOf x [(8, 6)] = none ∧ bits 6 x 20 = a0 ∧ bits 6 x 14 = a1 ∧ bits 3 x 5 = a2
    ∧ bits 1 x 4 = a3 := by
  simp only [word] at hx
  have := a0.isLt
  have := a1.isLt
  have := a2.isLt
  have := a3.isLt
  refine ⟨by omega, by omega, by simp only [lowBitOf, (by omega : x / 2 ^ 8 % 2 ^ 6 = 0), if_true],
    bits_eq _ _ _ (by omega), bits_eq _ _ _ (by omega), bits_eq _ _ _ (by omega), bits_eq _ _ _ (by omega)⟩

theorem word_6at20_6at14_6at8_1at4_sel4at0_zero3at5 (a0 : BitVec 6) (a1 : BitVec 6) (a2 : BitVec 6) (a3 : BitVec 1)
    {M S C x : Nat} (hM : M < 64) (hS : S < 2 ^ 4) (hC : C = M * 2 ^ 26 + S * 2 ^ 0)
    (hx : word C [(a0.toNat, 20), (a1.toNat, 14), (a2.toNat, 8), (a3.toNat, 4)] = x) : x / 2 ^ 26 % 64 = M
    ∧ x / 2 ^ 0 % 2 ^ 4 = S ∧ lowBitOf x [(5, 3)] = none ∧ bits 6 x 20 = a0 ∧ bits 6 x 14 = a1 ∧ bits 6 x 8 = a2
    ∧ bits 1 x 4 = a3 := by
  simp only [word] at hx
  have := a0.isLt
  have := a1.isLt
  have := a2.isLt
  have := a3.isLt
  refine ⟨by omega, by omega, by simp only [lowBitOf, (by omega : x / 2 ^ 5 % 2 ^ 3 = 0), if_true],
    bits_eq _ _ _ (by omega), bits_eq _ _ _ (by omega), bits_eq _ _ _ (by omega), bits_eq _ _ _ (by omega)⟩

theorem word_6at20_6at14_1at4_sel4at0_zero9at5 (a0 : BitVec 6) (a1 : BitVec 6) (a2 : BitVec 1) {M S C x : Nat}
    (hM : M < 64) (hS : S < 2 ^ 4) (hC : C = M * 2 ^ 26 + S * 2 ^ 0)
    (hx : word C [(a0.toNat, 20), (a1.toNat, 14), (a2.toNat, 4)] = x) : x / 2 ^ 26 % 64 = M ∧ x / 2 ^ 0 % 2 ^ 4 = S
    ∧ lowBitOf x [(5, 9)] = none ∧ bits 6 x 20 = a0 ∧ bits 6 x 14 = a1 ∧ bits 1 x 4 = a2 := by
  simp only [word] at hx
  have := a0.isLt
  have := a1.isLt
  have := a2.isLt
  refine ⟨by omega, by omega, by simp only [lowBitOf, (by omega : x / 2 ^ 5 % 2 ^ 9 = 0), if_true],
    bits_eq _ _ _ (by omega), bits_eq _ _ _ (by omega), bits_eq _ _ _ (by omega)⟩

theorem word_6at20_6at14_6at8_6at2_sel2at0 (a0 : BitVec 6) (a1 : BitVec 6) (a2 : BitVec 6) (a3 : BitVec 6) {M S C x : Nat}
    (hM : M < 64) (hS : S < 2 ^ 2) (hC : C = M * 2 ^ 26 + S * 2 ^ 0)
    (hx : word C [(a0.toNat, 20), (a1.toNat, 14), (a2.toNat, 8), (a3.toNat, 2)] = x) : x / 2 ^ 26 % 64 = M
    ∧ x / 2 ^ 0 % 2 ^ 2 = S ∧ lowBitOf x [] = none ∧ bits 6 x 20 = a0 ∧ bits 6 x 14 = a1 ∧ bits 6 x 8 = a2 ∧ bits 6 x 2 = a3 := by
  simp only [word] at hx
  have := a0.isLt
  have := a1.isLt
  have := a2.isLt
  have := a3.isLt
  refine ⟨by omega, by omega, rfl, bits_eq _ _ _ (by omega), bits_eq _ _ _ (by omega), bits_eq _ _ _ (by omega),
    bits_eq _ _ _ (by omega)⟩

theorem word_6at20_6at14_3at11_3at8_3at5_1at4_zero4at0 (a0 : BitVec 6) (a1 : BitVec 6) (a2 : BitVec 3) (a3 : BitVec 3) (a4 : BitVec 3) (a5 : BitVec 1) {M S C x : Nat} (hM : M < 64) (hS : S < 2 ^ 0) (hC : C = M * 2 ^ 26 + S * 2 ^ 0)
    (hx : word C [(a0.toNat, 20), (a1.toNat, 14), (a2.toNat, 11), (a3.toNat, 8), (a4.toNat, 5), (a5.toNat, 4)] = x) : x / 2 ^ 26 % 64 = M ∧ x / 2 ^ 0 % 2 ^ 0 = S ∧ lowBitOf x [(0, 4)] = none ∧ bits 6 x 20 = a0 ∧ bits 6 x 14 = a1 ∧ bits 3 x 11 = a2 ∧ bits 3 x 8 = a3 ∧ bits 3 x 5 = a4 ∧ bits 1 x 4 = a5 := by
  simp only [word] at hx
  have := a0.isLt
  have := a1.isLt
  have := a2.isLt
  have := a3.isLt
  have := a4.isLt
  have := a5.isLt
  refine ⟨by omega, by omega, by simp only [lowBitOf, (by omega : x / 2 ^ 0 % 2 ^ 4 = 0), if_true],
    bits_eq _ _ _ (by omega), bits_eq _ _ _ (by omega), bits_eq _ _ _ (by omega), bits_eq _ _ _ (by omega),
    bits_eq _ _ _ (by omega), bits_eq _ _ _ (by omega)⟩

theorem word_6at20_14at0_zero6at14 (a0 : BitVec 6) (a1 : BitVec 14) {M S C x : Nat}
    (hM : M < 64) (hS : S < 2 ^ 0) (hC : C = M * 2 ^ 26 + S * 2 ^ 0)
    (hx : word C [(a0.toNat, 20), (a1.toNat, 0)] = x) : x / 2 ^ 26 % 64 = M ∧ x / 2 ^ 0 % 2 ^ 0 = S
    ∧ lowBitOf x [(14, 6)] = none ∧ bits 6 x 20 = a0 ∧ bits 14 x 0 = a1 := by
  simp only [word] at hx
  have := a0.isLt
  have := a1.isLt
  refine ⟨by omega, by omega, by simp only [lowBitOf, (by omega : x / 2 ^ 14 % 2 ^ 6 = 0), if_true],
    bits_eq _ _ _ (by omega), bits_eq _ _ _ (by omega)⟩

theorem word_6at14_14at0_zero6at20 (a0 : BitVec 6) (a1 : BitVec 14) {M S C x : Nat}
    (hM : M < 64) (hS : S < 2 ^ 0) (hC : C = M * 2 ^ 26 + S * 2 ^ 0)
    (hx : word C [(a0.toNat, 14), (a1.toNat, 0)] = x) : x / 2 ^ 26 % 64 = M ∧ x / 2 ^ 0 % 2 ^ 0 = S
    ∧ lowBitOf x [(20, 6)] = none ∧ bits 6 x 14 = a0 ∧ bits 14 x 0 = a1 := by
  simp only [word] at hx
  have := a0.isLt
  have := a1.isLt
  refine ⟨by omega, by omega, by simp only [lowBitOf, (by omega : x / 2 ^ 20 % 2 ^ 6 = 0), if_true],
    bits_eq _ _ _ (by omega), bits_eq _ _ _ (by omega)⟩

theorem word_6at20_6at14_6at8_3at2_sel3at5_zero2at0 (a0 : BitVec 6) (a1 : BitVec 6) (a2 : BitVec 6) (a3 : BitVec 3)
    {M S C x : Nat} (hM : M < 64) (hS : S < 2 ^ 3) (hC : C = M * 2 ^ 26 + S * 2 ^ 5)
    (hx : word C [(a0.toNat, 20), (a1.toNat, 14), (a2.toNat, 8), (a3.toNat, 2)] = x) : x / 2 ^ 26 % 64 = M
    ∧ x / 2 ^ 5 % 2 ^ 3 = S ∧ lowBitOf x [(0, 2)] = none ∧ bits 6 x 20 = a0 ∧ bits 6 x 14 = a1 ∧ bits 6 x 8 = a2
    ∧ bits 3 x 2 = a3 := by
  simp only [word] at hx
  have := a0.isLt
  have := a1.isLt
  have := a2.isLt
  have := a3.isLt
  refine ⟨by omega, by omega, by simp only [lowBitOf, (by omega : x / 2 ^ 0 % 2 ^ 2 = 0), if_true],
    bits_eq _ _ _ (by omega), bits_eq _ _ _ (by omega), bits_eq _ _ _ (by omega), bits_eq _ _ _ (by omega)⟩

theorem word_3at2_zero2at0_21at5 (a0 : BitVec 3) {M S C x : Nat} (hM : M < 64) (hS : S < 2 ^ 0) (hC : C = M * 2 ^ 26 + S * 2 ^ 0)
    (hx : word C [(a0.toNat, 2)] = x) : x / 2 ^ 26 % 64 = M ∧ x / 2 ^ 0 % 2 ^ 0 = S ∧ lowBitOf x [(0, 2), (5, 21)] = none
    ∧ bits 3 x 2 = a0 := by
  simp only [word] at hx
  have := a0.isLt
  refine ⟨by omega, by omega,
    by simp only [lowBitOf, (by omega : x / 2 ^ 0 % 2 ^ 2 = 0), (by omega : x / 2 ^ 5 % 2 ^ 21 = 0), if_true],
    bits_eq _ _ _ (by omega)⟩

theorem word_3at0_zero23at3 (a0 : BitVec 3) {M S C x : Nat} (hM : M < 64) (hS : S < 2 ^ 0) (hC : C = M * 2 ^ 26 + S * 2 ^ 0)
    (hx : word C [(a0.toNat, 0)] = x) : x / 2 ^ 26 % 64 = M ∧ x / 2 ^ 0 % 2 ^ 0 = S ∧ lowBitOf x [(3, 23)] = none
    ∧ bits 3 x 0 = a0 := by
  simp only [word] at hx
  have := a0.isLt
  refine ⟨by omega, by omega, by simp only [lowBitOf, (by omega : x / 2 ^ 3 % 2 ^ 23 = 0), if_true], bits_eq _ _ _ (by omega)⟩

theorem word_6at14_5at7_1at6_6at0_sel2at12_zero6at20 (a0 : BitVec 6) (a1 : BitVec 5) (a2 : BitVec 1) (a3 : BitVec 6)
    {M S C x : Nat} (hM : M < 64) (hS : S < 2 ^ 2) (hC : C = M * 2 ^ 26 + S * 2 ^ 12)
    (hx : word C [(a0.toNat, 14), (a1.toNat, 7), (a2.toNat, 6), (a3.toNat, 0)] = x) : x / 2 ^ 26 % 64 = M
    ∧ x / 2 ^ 12 % 2 ^ 2 = S ∧ lowBitOf x [(20, 6)] = none ∧ bits 6 x 14 = a0 ∧ bits 5 x 7 = a1 ∧ bits 1 x 6 = a2
    ∧ bits 6 x 0 = a3 := by
  simp only [word] at hx
  have := a0.isLt
  have := a1.isLt
  have := a2.isLt
  have := a3.isLt
  refine ⟨by omega, by omega, by simp only [lowBitOf, (by omega : x / 2 ^ 20 % 2 ^ 6 = 0), if_true],
    bits_eq _ _ _ (by omega), bits_eq _ _ _ (by omega), bits_eq _ _ _ (by omega), bits_eq _ _ _ (by omega)⟩

theorem word_6at20_5at7_sel2at12_zero7at0_6at14 (a0 : BitVec 6) (a1 : BitVec 5) {M S C x : Nat}
    (hM : M < 64) (hS : S < 2 ^ 2) (hC : C = M * 2 ^ 26 + S * 2 ^ 12)
    (hx : word C [(a0.toNat, 20), (a1.toNat, 7)] = x) : x / 2 ^ 26 % 64 = M ∧ x / 2 ^ 12 % 2 ^ 2 = S
    ∧ lowBitOf x [(0, 7), (14, 6)] = none ∧ bits 6 x 20 = a0 ∧ bits 5 x 7 = a1 := by
  simp only [word] at hx
  have := a0.isLt
  have := a1.isLt
  refine ⟨by omega, by omega,
    by simp only [lowBitOf, (by omega : x / 2 ^ 0 % 2 ^ 7 = 0), (by omega : x / 2 ^ 14 % 2 ^ 6 = 0), if_true],
    bits_eq _ _ _ (by omega), bits_eq _ _ _ (by omega)⟩

theorem word_6at20_6at8_sel1at0_zero7at1_6at14 (a0 : BitVec 6) (a1 : BitVec 6) {M S C x : Nat}
    (hM : M < 64) (hS : S < 2 ^ 1) (hC : C = M * 2 ^ 26 + S * 2 ^ 0)
    (hx : word C [(a0.toNat, 20), (a1.toNat, 8)] = x) : x / 2 ^ 26 % 64 = M ∧ x / 2 ^ 0 % 2 ^ 1 = S
    ∧ lowBitOf x [(1, 7), (14, 6)] = none ∧ bits 6 x 20 = a0 ∧ bits 6 x 8 = a1 := by
  simp only [word] at hx
  have := a0.isLt
  have := a1.isLt
  refine ⟨by omega, by omega,
    by simp only [lowBitOf, (by omega : x / 2 ^ 1 % 2 ^ 7 = 0), (by omega : x / 2 ^ 14 % 2 ^ 6 = 0), if_true],
    bits_eq _ _ _ (by omega), bits_eq _ _ _ (by omega)⟩

theorem word_6at14_6at8_zero8at0_6at20 (a0 : BitVec 6) (a1 : BitVec 6) {M S C x : Nat}
    (hM : M < 64) (hS : S < 2 ^ 0) (hC : C = M * 2 ^ 26 + S * 2 ^ 0)
    (hx : word C [(a0.toNat, 14), (a1.toNat, 8)] = x) : x / 2 ^ 26 % 64 = M ∧ x / 2 ^ 0 % 2 ^ 0 = S
    ∧ lowBitOf x [(0, 8), (20, 6)] = none ∧ bits 6 x 14 = a0 ∧ bits 6 x 8 = a1 := by
  simp only [word] at hx
  have := a0.isLt
  have := a1.isLt
  refine ⟨by omega, by omega,
    by simp only [lowBitOf, (by omega : x / 2 ^ 0 % 2 ^ 8 = 0), (by omega : x / 2 ^ 20 % 2 ^ 6 = 0), if_true],
    bits_eq _ _ _ (by omega), bits_eq _ _ _ (by omega)⟩

theorem word_6at20_6at14_6at8_sel3at0_zero5at3 (a0 : BitVec 6) (a1 : BitVec 6) (a2 : BitVec 6) {M S C x : Nat}
    (hM : M < 64) (hS : S < 2 ^ 3) (hC : C = M * 2 ^ 26 + S * 2 ^ 0)
    (hx : word C [(a0.toNat, 20), (a1.toNat, 14), (a2.toNat, 8)] = x) : x / 2 ^ 26 % 64 = M ∧ x / 2 ^ 0 % 2 ^ 3 = S
    ∧ lowBitOf x [(3, 5)] = none ∧ bits 6 x 20 = a0 ∧ bits 6 x 14 = a1 ∧ bits 6 x 8 = a2 := by
  simp only [word] at hx
  have := a0.isLt
  have := a1.isLt
  have := a2.isLt
  refine ⟨by omega, by omega, by simp only [lowBitOf, (by omega : x / 2 ^ 3 % 2 ^ 5 = 0), if_true],
    bits_eq _ _ _ (by omega), bits_eq _ _ _ (by omega), bits_eq _ _ _ (by omega)⟩

theorem word_6at20_6at14_6at8_5at3_sel3at0 (a0 : BitVec 6) (a1 : BitVec 6) (a2 : BitVec 6) (a3 : BitVec 5) {M S C x : Nat}
    (hM : M < 64) (hS : S < 2 ^ 3) (hC : C = M * 2 ^ 26 + S * 2 ^ 0)
    (hx : word C [(a0.toNat, 20), (a1.toNat, 14), (a2.toNat, 8), (a3.toNat, 3)] = x) : x / 2 ^ 26 % 64 = M
    ∧ x / 2 ^ 0 % 2 ^ 3 = S ∧ lowBitOf x [] = none ∧ bits 6 x 20 = a0 ∧ bits 6 x 14 = a1 ∧ bits 6 x 8 = a2 ∧ bits 5 x 3 = a3 := by
  simp only [word] at hx
  have := a0.isLt
  have := a1.isLt
  have := a2.isLt
  have := a3.isLt
  refine ⟨by omega, by omega, rfl, bits_eq _ _ _ (by omega), bits_eq _ _ _ (by omega), bits_eq _ _ _ (by omega),
    bits_eq _ _ _ (by omega)⟩

theorem word_2at0_zero24at2 (a0 : BitVec 2) {M S C x : Nat} (hM : M < 64) (hS : S < 2 ^ 0) (hC : C = M * 2 ^ 26 + S * 2 ^ 0)
    (hx : word C [(a0.toNat, 0)] = x) : x / 2 ^ 26 % 64 = M ∧ x / 2 ^ 0 % 2 ^ 0 = S ∧ lowBitOf x [(2, 24)] = none
    ∧ bits 2 x 0 = a0 := by
  simp only [word] at hx
  have := a0.isLt
  refine ⟨by omega, by omega, by simp only [lowBitOf, (by omega : x / 2 ^ 2 % 2 ^ 24 = 0), if_true], bits_eq _ _ _ (by omega)⟩

theorem word_6at20_6at14_6at8_sel2at0_zero6at2 (a0 : BitVec 6) (a1 : BitVec 6) (a2 : BitVec 6) {M S C x : Nat}
    (hM : M < 64) (hS : S < 2 ^ 2) (hC : C = M * 2 ^ 26 + S * 2 ^ 0)
    (hx : word C [(a0.toNat, 20), (a1.toNat, 14), (a2.toNat, 8)] = x) : x / 2 ^ 26 % 64 = M ∧ x / 2 ^ 0 % 2 ^ 2 = S
    ∧ lowBitOf x [(2, 6)] = none ∧ bits 6 x 20 = a0 ∧ bits 6 x 14 = a1 ∧ bits 6 x 8 = a2 := by
  simp only [word] at hx
  have := a0.isLt
  have := a1.isLt
  have := a2.isLt
  refine ⟨by omega, by omega, by simp only [lowBitOf, (by omega : x / 2 ^ 2 % 2 ^ 6 = 0), if_true],
    bits_eq _ _ _ (by omega), bits_eq _ _ _ (by omega), bits_eq _ _ _ (by omega)⟩

theorem word_6at14_sel3at0_zero11at3_6at20 (a0 : BitVec 6) {M S C x : Nat}
    (hM : M < 64) (hS : S < 2 ^ 3) (hC : C = M * 2 ^ 26 + S * 2 ^ 0)
    (hx : word C [(a0.toNat, 14)] = x) : x / 2 ^ 26 % 64 = M ∧ x / 2 ^ 0 % 2 ^ 3 = S ∧ lowBitOf x [(3, 11), (20, 6)] = none
    ∧ bits 6 x 14 = a0 := by
  simp only [word] at hx
  have := a0.isLt
  refine ⟨by omega, by omega,
    by simp only [lowBitOf, (by omega : x / 2 ^ 3 % 2 ^ 11 = 0), (by omega : x / 2 ^ 20 % 2 ^ 6 = 0), if_true],
    bits_eq _ _ _ (by omega)⟩

theorem word_6at14_1at2_sel2at0_zero11at3_6at20 (a0 : BitVec 6) (a1 : BitVec 1) {M S C x : Nat}
    (hM : M < 64) (hS : S < 2 ^ 2) (hC : C = M * 2 ^ 26 + S * 2 ^ 0)
    (hx : word C [(a0.toNat, 14), (a1.toNat, 2)] = x) : x / 2 ^ 26 % 64 = M ∧ x / 2 ^ 0 % 2 ^ 2 = S
    ∧ lowBitOf x [(3, 11), (20, 6)] = none ∧ bits 6 x 14 = a0 ∧ bits 1 x 2 = a1 := by
  simp only [word] at hx
  have := a0.isLt
  have := a1.isLt
  refine ⟨by omega, by omega,
    by simp only [lowBitOf, (by omega : x / 2 ^ 3 % 2 ^ 11 = 0), (by omega : x / 2 ^ 20 % 2 ^ 6 = 0), if_true],
    bits_eq _ _ _ (by omega), bits_eq _ _ _ (by omega)⟩

theorem word_6at14_6at8_1at2_sel2at0_zero5at3_6at20 (a0 : BitVec 6) (a1 : BitVec 6) (a2 : BitVec 1) {M S C x : Nat}
    (hM : M < 64) (hS : S < 2 ^ 2) (hC : C = M * 2 ^ 26 + S * 2 ^ 0)
    (hx : word C [(a0.toNat, 14), (a1.toNat, 8), (a2.toNat, 2)] = x) : x / 2 ^ 26 % 64 = M ∧ x / 2 ^ 0 % 2 ^ 2 = S
    ∧ lowBitOf x [(3, 5), (20, 6)] = none ∧ bits 6 x 14 = a0 ∧ bits 6 x 8 = a1 ∧ bits 1 x 2 = a2 := by
  simp only [word] at hx
  have := a0.isLt
  have := a1.isLt
  have := a2.isLt
  refine ⟨by omega, by omega,
    by simp only [lowBitOf, (by omega : x / 2 ^ 3 % 2 ^ 5 = 0), (by omega : x / 2 ^ 20 % 2 ^ 6 = 0), if_true],
    bits_eq _ _ _ (by omega), bits_eq _ _ _ (by omega), bits_eq _ _ _ (by omega)⟩

theorem word_sel8at0_zero18at8  {M S C x : Nat} (hM : M < 64) (hS : S < 2 ^ 8) (hC : C = M * 2 ^ 26 + S * 2 ^ 0)
    (hx : word C [] = x) : x / 2 ^ 26 % 64 = M ∧ x / 2 ^ 0 % 2 ^ 8 = S ∧ lowBitOf x [(8, 18)] = none := by
  simp only [word] at hx
  refine ⟨by omega, by omega, by simp only [lowBitOf, (by omega : x / 2 ^ 8 % 2 ^ 18 = 0), if_true]⟩

theorem word_sel2at0_zero24at2  {M S C x : Nat} (hM : M < 64) (hS : S < 2 ^ 2) (hC : C = M * 2 ^ 26 + S * 2 ^ 0)
    (hx : word C [] = x) : x / 2 ^ 26 % 64 = M ∧ x / 2 ^ 0 % 2 ^ 2 = S ∧ lowBitOf x [(2, 24)] = none := by
  simp only [word] at hx
  refine ⟨by omega, by omega, by simp only [lowBitOf, (by omega : x / 2 ^ 2 % 2 ^ 24 = 0), if_true]⟩

/-! The fields of a V word are read back (R142). -/

theorem encodeV_ga (op : Nat) (f : VFields) : bits 4 (encodeV op f) 84 = f.ga := by
  have := f.ga.isLt; have := f.gb.isLt; have := f.td.isLt; have := f.ts1.isLt; have := f.ts2.isLt
  have := f.ts3.isLt; have := f.od.isLt; have := f.os.isLt; have := f.ci.isLt; have := f.cnt.isLt
  have := f.rm.isLt; have := f.mod.isLt; have := f.hint.isLt; have := f.fe.isLt; have := f.fl.isLt
  have := f.imm8.isLt
  exact bits_eq _ _ _ (by simp only [encodeV]; omega)

theorem encodeV_gb (op : Nat) (f : VFields) : bits 4 (encodeV op f) 80 = f.gb := by
  have := f.ga.isLt; have := f.gb.isLt; have := f.td.isLt; have := f.ts1.isLt; have := f.ts2.isLt
  have := f.ts3.isLt; have := f.od.isLt; have := f.os.isLt; have := f.ci.isLt; have := f.cnt.isLt
  have := f.rm.isLt; have := f.mod.isLt; have := f.hint.isLt; have := f.fe.isLt; have := f.fl.isLt
  have := f.imm8.isLt
  exact bits_eq _ _ _ (by simp only [encodeV]; omega)

theorem encodeV_td (op : Nat) (f : VFields) : bits 6 (encodeV op f) 74 = f.td := by
  have := f.ga.isLt; have := f.gb.isLt; have := f.td.isLt; have := f.ts1.isLt; have := f.ts2.isLt
  have := f.ts3.isLt; have := f.od.isLt; have := f.os.isLt; have := f.ci.isLt; have := f.cnt.isLt
  have := f.rm.isLt; have := f.mod.isLt; have := f.hint.isLt; have := f.fe.isLt; have := f.fl.isLt
  have := f.imm8.isLt
  exact bits_eq _ _ _ (by simp only [encodeV]; omega)

theorem encodeV_ts1 (op : Nat) (f : VFields) : bits 6 (encodeV op f) 68 = f.ts1 := by
  have := f.ga.isLt; have := f.gb.isLt; have := f.td.isLt; have := f.ts1.isLt; have := f.ts2.isLt
  have := f.ts3.isLt; have := f.od.isLt; have := f.os.isLt; have := f.ci.isLt; have := f.cnt.isLt
  have := f.rm.isLt; have := f.mod.isLt; have := f.hint.isLt; have := f.fe.isLt; have := f.fl.isLt
  have := f.imm8.isLt
  exact bits_eq _ _ _ (by simp only [encodeV]; omega)

theorem encodeV_ts2 (op : Nat) (f : VFields) : bits 6 (encodeV op f) 62 = f.ts2 := by
  have := f.ga.isLt; have := f.gb.isLt; have := f.td.isLt; have := f.ts1.isLt; have := f.ts2.isLt
  have := f.ts3.isLt; have := f.od.isLt; have := f.os.isLt; have := f.ci.isLt; have := f.cnt.isLt
  have := f.rm.isLt; have := f.mod.isLt; have := f.hint.isLt; have := f.fe.isLt; have := f.fl.isLt
  have := f.imm8.isLt
  exact bits_eq _ _ _ (by simp only [encodeV]; omega)

theorem encodeV_ts3 (op : Nat) (f : VFields) : bits 6 (encodeV op f) 56 = f.ts3 := by
  have := f.ga.isLt; have := f.gb.isLt; have := f.td.isLt; have := f.ts1.isLt; have := f.ts2.isLt
  have := f.ts3.isLt; have := f.od.isLt; have := f.os.isLt; have := f.ci.isLt; have := f.cnt.isLt
  have := f.rm.isLt; have := f.mod.isLt; have := f.hint.isLt; have := f.fe.isLt; have := f.fl.isLt
  have := f.imm8.isLt
  exact bits_eq _ _ _ (by simp only [encodeV]; omega)

theorem encodeV_od (op : Nat) (f : VFields) : bits 6 (encodeV op f) 50 = f.od := by
  have := f.ga.isLt; have := f.gb.isLt; have := f.td.isLt; have := f.ts1.isLt; have := f.ts2.isLt
  have := f.ts3.isLt; have := f.od.isLt; have := f.os.isLt; have := f.ci.isLt; have := f.cnt.isLt
  have := f.rm.isLt; have := f.mod.isLt; have := f.hint.isLt; have := f.fe.isLt; have := f.fl.isLt
  have := f.imm8.isLt
  exact bits_eq _ _ _ (by simp only [encodeV]; omega)

theorem encodeV_os (op : Nat) (f : VFields) : bits 6 (encodeV op f) 44 = f.os := by
  have := f.ga.isLt; have := f.gb.isLt; have := f.td.isLt; have := f.ts1.isLt; have := f.ts2.isLt
  have := f.ts3.isLt; have := f.od.isLt; have := f.os.isLt; have := f.ci.isLt; have := f.cnt.isLt
  have := f.rm.isLt; have := f.mod.isLt; have := f.hint.isLt; have := f.fe.isLt; have := f.fl.isLt
  have := f.imm8.isLt
  exact bits_eq _ _ _ (by simp only [encodeV]; omega)

theorem encodeV_ci (op : Nat) (f : VFields) : bits 1 (encodeV op f) 43 = f.ci := by
  have := f.ga.isLt; have := f.gb.isLt; have := f.td.isLt; have := f.ts1.isLt; have := f.ts2.isLt
  have := f.ts3.isLt; have := f.od.isLt; have := f.os.isLt; have := f.ci.isLt; have := f.cnt.isLt
  have := f.rm.isLt; have := f.mod.isLt; have := f.hint.isLt; have := f.fe.isLt; have := f.fl.isLt
  have := f.imm8.isLt
  exact bits_eq _ _ _ (by simp only [encodeV]; omega)

theorem encodeV_cnt (op : Nat) (f : VFields) : bits 16 (encodeV op f) 27 = f.cnt := by
  have := f.ga.isLt; have := f.gb.isLt; have := f.td.isLt; have := f.ts1.isLt; have := f.ts2.isLt
  have := f.ts3.isLt; have := f.od.isLt; have := f.os.isLt; have := f.ci.isLt; have := f.cnt.isLt
  have := f.rm.isLt; have := f.mod.isLt; have := f.hint.isLt; have := f.fe.isLt; have := f.fl.isLt
  have := f.imm8.isLt
  exact bits_eq _ _ _ (by simp only [encodeV]; omega)

theorem encodeV_rm (op : Nat) (f : VFields) : bits 3 (encodeV op f) 24 = f.rm := by
  have := f.ga.isLt; have := f.gb.isLt; have := f.td.isLt; have := f.ts1.isLt; have := f.ts2.isLt
  have := f.ts3.isLt; have := f.od.isLt; have := f.os.isLt; have := f.ci.isLt; have := f.cnt.isLt
  have := f.rm.isLt; have := f.mod.isLt; have := f.hint.isLt; have := f.fe.isLt; have := f.fl.isLt
  have := f.imm8.isLt
  exact bits_eq _ _ _ (by simp only [encodeV]; omega)

theorem encodeV_mod (op : Nat) (f : VFields) : bits 8 (encodeV op f) 16 = f.mod := by
  have := f.ga.isLt; have := f.gb.isLt; have := f.td.isLt; have := f.ts1.isLt; have := f.ts2.isLt
  have := f.ts3.isLt; have := f.od.isLt; have := f.os.isLt; have := f.ci.isLt; have := f.cnt.isLt
  have := f.rm.isLt; have := f.mod.isLt; have := f.hint.isLt; have := f.fe.isLt; have := f.fl.isLt
  have := f.imm8.isLt
  exact bits_eq _ _ _ (by simp only [encodeV]; omega)

theorem encodeV_hint (op : Nat) (f : VFields) : bits 2 (encodeV op f) 14 = f.hint := by
  have := f.ga.isLt; have := f.gb.isLt; have := f.td.isLt; have := f.ts1.isLt; have := f.ts2.isLt
  have := f.ts3.isLt; have := f.od.isLt; have := f.os.isLt; have := f.ci.isLt; have := f.cnt.isLt
  have := f.rm.isLt; have := f.mod.isLt; have := f.hint.isLt; have := f.fe.isLt; have := f.fl.isLt
  have := f.imm8.isLt
  exact bits_eq _ _ _ (by simp only [encodeV]; omega)

theorem encodeV_fe (op : Nat) (f : VFields) : bits 1 (encodeV op f) 13 = f.fe := by
  have := f.ga.isLt; have := f.gb.isLt; have := f.td.isLt; have := f.ts1.isLt; have := f.ts2.isLt
  have := f.ts3.isLt; have := f.od.isLt; have := f.os.isLt; have := f.ci.isLt; have := f.cnt.isLt
  have := f.rm.isLt; have := f.mod.isLt; have := f.hint.isLt; have := f.fe.isLt; have := f.fl.isLt
  have := f.imm8.isLt
  exact bits_eq _ _ _ (by simp only [encodeV]; omega)

theorem encodeV_fl (op : Nat) (f : VFields) : bits 5 (encodeV op f) 8 = f.fl := by
  have := f.ga.isLt; have := f.gb.isLt; have := f.td.isLt; have := f.ts1.isLt; have := f.ts2.isLt
  have := f.ts3.isLt; have := f.od.isLt; have := f.os.isLt; have := f.ci.isLt; have := f.cnt.isLt
  have := f.rm.isLt; have := f.mod.isLt; have := f.hint.isLt; have := f.fe.isLt; have := f.fl.isLt
  have := f.imm8.isLt
  exact bits_eq _ _ _ (by simp only [encodeV]; omega)

theorem encodeV_imm8 (op : Nat) (f : VFields) : bits 8 (encodeV op f) 0 = f.imm8 := by
  have := f.ga.isLt; have := f.gb.isLt; have := f.td.isLt; have := f.ts1.isLt; have := f.ts2.isLt
  have := f.ts3.isLt; have := f.od.isLt; have := f.os.isLt; have := f.ci.isLt; have := f.cnt.isLt
  have := f.rm.isLt; have := f.mod.isLt; have := f.hint.isLt; have := f.fe.isLt; have := f.fl.isLt
  have := f.imm8.isLt
  exact bits_eq _ _ _ (by simp only [encodeV]; omega)

theorem encodeV_op {op : Nat} (f : VFields) (h : op < 256) : encodeV op f / 2 ^ 88 % 256 = op := by
  have := f.ga.isLt; have := f.gb.isLt; have := f.td.isLt; have := f.ts1.isLt; have := f.ts2.isLt
  have := f.ts3.isLt; have := f.od.isLt; have := f.os.isLt; have := f.ci.isLt; have := f.cnt.isLt
  have := f.rm.isLt; have := f.mod.isLt; have := f.hint.isLt; have := f.fe.isLt; have := f.fl.isLt
  have := f.imm8.isLt
  simp only [encodeV]
  omega

theorem vFields_encodeV (op : Nat) (f : VFields) : vFields (encodeV op f) = f := by
  simp only [vFields, encodeV_ga, encodeV_gb, encodeV_td, encodeV_ts1, encodeV_ts2, encodeV_ts3, encodeV_od, encodeV_os, encodeV_ci, encodeV_cnt, encodeV_rm, encodeV_mod, encodeV_hint, encodeV_fe, encodeV_fl, encodeV_imm8]

/-! The fields of an M word are read back, and its reserved bits are zero (R145). -/

theorem encodeM_ga (op : Nat) (f : MFields) : bits 4 (encodeM op f) 180 = f.ga := by
  have := f.ga.isLt; have := f.t1.isLt; have := f.t2.isLt; have := f.t3.isLt; have := f.o1.isLt
  have := f.o2.isLt; have := f.o3.isLt; have := f.n.isLt; have := f.acc.isLt; have := f.fl.isLt
  have := f.fe.isLt; have := f.mode.isLt; have := f.imm.isLt
  exact bits_eq _ _ _ (by simp only [encodeM]; omega)

theorem encodeM_t1 (op : Nat) (f : MFields) : bits 6 (encodeM op f) 174 = f.t1 := by
  have := f.ga.isLt; have := f.t1.isLt; have := f.t2.isLt; have := f.t3.isLt; have := f.o1.isLt
  have := f.o2.isLt; have := f.o3.isLt; have := f.n.isLt; have := f.acc.isLt; have := f.fl.isLt
  have := f.fe.isLt; have := f.mode.isLt; have := f.imm.isLt
  exact bits_eq _ _ _ (by simp only [encodeM]; omega)

theorem encodeM_t2 (op : Nat) (f : MFields) : bits 6 (encodeM op f) 168 = f.t2 := by
  have := f.ga.isLt; have := f.t1.isLt; have := f.t2.isLt; have := f.t3.isLt; have := f.o1.isLt
  have := f.o2.isLt; have := f.o3.isLt; have := f.n.isLt; have := f.acc.isLt; have := f.fl.isLt
  have := f.fe.isLt; have := f.mode.isLt; have := f.imm.isLt
  exact bits_eq _ _ _ (by simp only [encodeM]; omega)

theorem encodeM_t3 (op : Nat) (f : MFields) : bits 6 (encodeM op f) 162 = f.t3 := by
  have := f.ga.isLt; have := f.t1.isLt; have := f.t2.isLt; have := f.t3.isLt; have := f.o1.isLt
  have := f.o2.isLt; have := f.o3.isLt; have := f.n.isLt; have := f.acc.isLt; have := f.fl.isLt
  have := f.fe.isLt; have := f.mode.isLt; have := f.imm.isLt
  exact bits_eq _ _ _ (by simp only [encodeM]; omega)

theorem encodeM_o1 (op : Nat) (f : MFields) : bits 6 (encodeM op f) 156 = f.o1 := by
  have := f.ga.isLt; have := f.t1.isLt; have := f.t2.isLt; have := f.t3.isLt; have := f.o1.isLt
  have := f.o2.isLt; have := f.o3.isLt; have := f.n.isLt; have := f.acc.isLt; have := f.fl.isLt
  have := f.fe.isLt; have := f.mode.isLt; have := f.imm.isLt
  exact bits_eq _ _ _ (by simp only [encodeM]; omega)

theorem encodeM_o2 (op : Nat) (f : MFields) : bits 6 (encodeM op f) 150 = f.o2 := by
  have := f.ga.isLt; have := f.t1.isLt; have := f.t2.isLt; have := f.t3.isLt; have := f.o1.isLt
  have := f.o2.isLt; have := f.o3.isLt; have := f.n.isLt; have := f.acc.isLt; have := f.fl.isLt
  have := f.fe.isLt; have := f.mode.isLt; have := f.imm.isLt
  exact bits_eq _ _ _ (by simp only [encodeM]; omega)

theorem encodeM_o3 (op : Nat) (f : MFields) : bits 6 (encodeM op f) 144 = f.o3 := by
  have := f.ga.isLt; have := f.t1.isLt; have := f.t2.isLt; have := f.t3.isLt; have := f.o1.isLt
  have := f.o2.isLt; have := f.o3.isLt; have := f.n.isLt; have := f.acc.isLt; have := f.fl.isLt
  have := f.fe.isLt; have := f.mode.isLt; have := f.imm.isLt
  exact bits_eq _ _ _ (by simp only [encodeM]; omega)

theorem encodeM_n (op : Nat) (f : MFields) : bits 16 (encodeM op f) 128 = f.n := by
  have := f.ga.isLt; have := f.t1.isLt; have := f.t2.isLt; have := f.t3.isLt; have := f.o1.isLt
  have := f.o2.isLt; have := f.o3.isLt; have := f.n.isLt; have := f.acc.isLt; have := f.fl.isLt
  have := f.fe.isLt; have := f.mode.isLt; have := f.imm.isLt
  exact bits_eq _ _ _ (by simp only [encodeM]; omega)

theorem encodeM_acc (op : Nat) (f : MFields) : bits 3 (encodeM op f) 125 = f.acc := by
  have := f.ga.isLt; have := f.t1.isLt; have := f.t2.isLt; have := f.t3.isLt; have := f.o1.isLt
  have := f.o2.isLt; have := f.o3.isLt; have := f.n.isLt; have := f.acc.isLt; have := f.fl.isLt
  have := f.fe.isLt; have := f.mode.isLt; have := f.imm.isLt
  exact bits_eq _ _ _ (by simp only [encodeM]; omega)

theorem encodeM_fl (op : Nat) (f : MFields) : bits 5 (encodeM op f) 120 = f.fl := by
  have := f.ga.isLt; have := f.t1.isLt; have := f.t2.isLt; have := f.t3.isLt; have := f.o1.isLt
  have := f.o2.isLt; have := f.o3.isLt; have := f.n.isLt; have := f.acc.isLt; have := f.fl.isLt
  have := f.fe.isLt; have := f.mode.isLt; have := f.imm.isLt
  exact bits_eq _ _ _ (by simp only [encodeM]; omega)

theorem encodeM_fe (op : Nat) (f : MFields) : bits 1 (encodeM op f) 119 = f.fe := by
  have := f.ga.isLt; have := f.t1.isLt; have := f.t2.isLt; have := f.t3.isLt; have := f.o1.isLt
  have := f.o2.isLt; have := f.o3.isLt; have := f.n.isLt; have := f.acc.isLt; have := f.fl.isLt
  have := f.fe.isLt; have := f.mode.isLt; have := f.imm.isLt
  exact bits_eq _ _ _ (by simp only [encodeM]; omega)

theorem encodeM_mode (op : Nat) (f : MFields) : bits 32 (encodeM op f) 64 = f.mode := by
  have := f.ga.isLt; have := f.t1.isLt; have := f.t2.isLt; have := f.t3.isLt; have := f.o1.isLt
  have := f.o2.isLt; have := f.o3.isLt; have := f.n.isLt; have := f.acc.isLt; have := f.fl.isLt
  have := f.fe.isLt; have := f.mode.isLt; have := f.imm.isLt
  exact bits_eq _ _ _ (by simp only [encodeM]; omega)

theorem encodeM_imm (op : Nat) (f : MFields) : bits 64 (encodeM op f) 0 = f.imm := by
  have := f.ga.isLt; have := f.t1.isLt; have := f.t2.isLt; have := f.t3.isLt; have := f.o1.isLt
  have := f.o2.isLt; have := f.o3.isLt; have := f.n.isLt; have := f.acc.isLt; have := f.fl.isLt
  have := f.fe.isLt; have := f.mode.isLt; have := f.imm.isLt
  exact bits_eq _ _ _ (by simp only [encodeM]; omega)

theorem encodeM_op {op : Nat} (f : MFields) (h : op < 256) : encodeM op f / 2 ^ 184 % 256 = op := by
  have := f.ga.isLt; have := f.t1.isLt; have := f.t2.isLt; have := f.t3.isLt; have := f.o1.isLt
  have := f.o2.isLt; have := f.o3.isLt; have := f.n.isLt; have := f.acc.isLt; have := f.fl.isLt
  have := f.fe.isLt; have := f.mode.isLt; have := f.imm.isLt
  simp only [encodeM]
  omega

theorem encodeM_mode4 (op : Nat) (f : MFields) : encodeM op f / 2 ^ 64 % 4 = f.mode.toNat % 4 := by
  have := f.ga.isLt; have := f.t1.isLt; have := f.t2.isLt; have := f.t3.isLt; have := f.o1.isLt
  have := f.o2.isLt; have := f.o3.isLt; have := f.n.isLt; have := f.acc.isLt; have := f.fl.isLt
  have := f.fe.isLt; have := f.mode.isLt; have := f.imm.isLt
  simp only [encodeM]
  omega

theorem encodeM_zero (op : Nat) (f : MFields) : lowBitOf (encodeM op f) [(96, 23)] = none := by
  have := f.ga.isLt; have := f.t1.isLt; have := f.t2.isLt; have := f.t3.isLt; have := f.o1.isLt
  have := f.o2.isLt; have := f.o3.isLt; have := f.n.isLt; have := f.acc.isLt; have := f.fl.isLt
  have := f.fe.isLt; have := f.mode.isLt; have := f.imm.isLt
  simp only [lowBitOf]
  rw [if_pos (by simp only [encodeM]; omega)]

theorem mFields_encodeM (op : Nat) (f : MFields) : mFields (encodeM op f) = f := by
  simp only [mFields, encodeM_ga, encodeM_t1, encodeM_t2, encodeM_t3, encodeM_o1, encodeM_o2, encodeM_o3, encodeM_n, encodeM_acc, encodeM_fl, encodeM_fe, encodeM_mode, encodeM_imm]

theorem decode_of_v {w op : Nat} {mk : VFields → Instr} {f : VFields} (ho : w / 2 ^ 88 % 256 = op) (hf : vFields w = f)
    (hv : vInstr op = some mk) (hw : wellFormed (mk f) = true) : decodeSlot 96 w = .ok (mk f) := by
  subst hf
  simp only [decodeSlot, Nat.reduceEqDiff, if_false, if_true, decodeV, ho, hv]
  exact finish_ok hw

theorem decode_of_m {w op mode : Nat} {mk : MFields → Instr} {f : MFields} (ho : w / 2 ^ 184 % 256 = op) (hf : mFields w = f)
    (hz : lowBitOf w [(96, 23)] = none) (hq : w / 2 ^ 64 % 4 = mode)
    (hm : ∀ x, x % 4 = mode → mInstr op x = some mk) (hw : wellFormed (mk f) = true) : decodeSlot 192 w = .ok (mk f) := by
  subst hf
  simp only [decodeSlot, Nat.reduceEqDiff, if_false, if_true, decodeM, ho, hm _ hq, hz]
  exact finish_ok hw

/-- A V word decodes to the instruction of its operation. -/
theorem decode_v {op : Nat} {mk : VFields → Instr} {f : VFields} (h : op < 256) (hv : vInstr op = some mk)
    (hw : wellFormed (mk f) = true) : decodeSlot 96 (encodeV op f) = .ok (mk f) :=
  decode_of_v (encodeV_op f h) (vFields_encodeV op f) hv hw

/-- An M word decodes to the instruction of its operation. -/
theorem decode_m {op : Nat} {mk : MFields → Instr} {f : MFields} (h : op < 256)
    (hm : ∀ mode, mode % 4 = f.mode.toNat % 4 → mInstr op mode = some mk) (hw : wellFormed (mk f) = true) :
    decodeSlot 192 (encodeM op f) = .ok (mk f) :=
  decode_of_m (encodeM_op f h) (mFields_encodeM op f) (encodeM_zero op f) (encodeM_mode4 op f) hm hw

end Sys2Proof
end

