-- ==== Sys2Proof/Laws/PerInstr.lean ====
section
/-!
SUPPORT. Statements for all instructions, made per constructor: RoundTrip says that the decoder reads back every well-formed
instruction from the words that the encoder gives it.
-/
namespace Sys2Proof
namespace Laws.RoundTrip
open Machine

/-- Decoding the words of a well-formed instruction gives it back, with every operand. -/
def Statement (i : Instr) : Prop := ∀ n x : Nat, encode i = some (n, x) → wellFormed i = true → decodeSlot n x = .ok i

theorem add (d : BitVec 6) (a : BitVec 6) (b : BitVec 6) (w : BitVec 1) : Statement (.add d a b w) := by
  intro n x h hw
  have h : some (32, word 0x04000000 [(d.toNat, 20), (a.toNat, 14), (b.toNat, 8), (w.toNat, 7)]) = some (n, x) := h
  obtain ⟨rfl, hx⟩ := Prod.mk.injEq .. ▸ Option.some.inj h
  obtain ⟨h1, h2, h3, hb0, hb1, hb2, hb3⟩ := word_6at20_6at14_6at8_1at7_sel7at0 d a b w (M := 1) (S := 0) (by omega) (by omega) rfl hx
  refine decode_row (r := rows01[0]) h1 ?_ h3 ?_ hw
  · show rows01.find? _ = _
    simp only [rows01, List.find?, h2, beq_self_eq_true]; rfl
  · show Instr.add (bits 6 x 20) (bits 6 x 14) (bits 6 x 8) (bits 1 x 7) = _
    rw [hb0, hb1, hb2, hb3]

theorem sub (d : BitVec 6) (a : BitVec 6) (b : BitVec 6) (w : BitVec 1) : Statement (.sub d a b w) := by
  intro n x h hw
  have h : some (32, word 0x04000001 [(d.toNat, 20), (a.toNat, 14), (b.toNat, 8), (w.toNat, 7)]) = some (n, x) := h
  obtain ⟨rfl, hx⟩ := Prod.mk.injEq .. ▸ Option.some.inj h
  obtain ⟨h1, h2, h3, hb0, hb1, hb2, hb3⟩ := word_6at20_6at14_6at8_1at7_sel7at0 d a b w (M := 1) (S := 1) (by omega) (by omega) rfl hx
  refine decode_row (r := rows01[1]) h1 ?_ h3 ?_ hw
  · show rows01.find? _ = _
    simp only [rows01, List.find?, h2, Nat.reduceBEq, beq_self_eq_true]; rfl
  · show Instr.sub (bits 6 x 20) (bits 6 x 14) (bits 6 x 8) (bits 1 x 7) = _
    rw [hb0, hb1, hb2, hb3]

theorem and (d : BitVec 6) (a : BitVec 6) (b : BitVec 6) (w : BitVec 1) : Statement (.and d a b w) := by
  intro n x h hw
  have h : some (32, word 0x04000002 [(d.toNat, 20), (a.toNat, 14), (b.toNat, 8), (w.toNat, 7)]) = some (n, x) := h
  obtain ⟨rfl, hx⟩ := Prod.mk.injEq .. ▸ Option.some.inj h
  obtain ⟨h1, h2, h3, hb0, hb1, hb2, hb3⟩ := word_6at20_6at14_6at8_1at7_sel7at0 d a b w (M := 1) (S := 2) (by omega) (by omega) rfl hx
  refine decode_row (r := rows01[2]) h1 ?_ h3 ?_ hw
  · show rows01.find? _ = _
    simp only [rows01, List.find?, h2, Nat.reduceBEq, beq_self_eq_true]; rfl
  · show Instr.and (bits 6 x 20) (bits 6 x 14) (bits 6 x 8) (bits 1 x 7) = _
    rw [hb0, hb1, hb2, hb3]

theorem or (d : BitVec 6) (a : BitVec 6) (b : BitVec 6) (w : BitVec 1) : Statement (.or d a b w) := by
  intro n x h hw
  have h : some (32, word 0x04000003 [(d.toNat, 20), (a.toNat, 14), (b.toNat, 8), (w.toNat, 7)]) = some (n, x) := h
  obtain ⟨rfl, hx⟩ := Prod.mk.injEq .. ▸ Option.some.inj h
  obtain ⟨h1, h2, h3, hb0, hb1, hb2, hb3⟩ := word_6at20_6at14_6at8_1at7_sel7at0 d a b w (M := 1) (S := 3) (by omega) (by omega) rfl hx
  refine decode_row (r := rows01[3]) h1 ?_ h3 ?_ hw
  · show rows01.find? _ = _
    simp only [rows01, List.find?, h2, Nat.reduceBEq, beq_self_eq_true]; rfl
  · show Instr.or (bits 6 x 20) (bits 6 x 14) (bits 6 x 8) (bits 1 x 7) = _
    rw [hb0, hb1, hb2, hb3]

theorem xor (d : BitVec 6) (a : BitVec 6) (b : BitVec 6) (w : BitVec 1) : Statement (.xor d a b w) := by
  intro n x h hw
  have h : some (32, word 0x04000004 [(d.toNat, 20), (a.toNat, 14), (b.toNat, 8), (w.toNat, 7)]) = some (n, x) := h
  obtain ⟨rfl, hx⟩ := Prod.mk.injEq .. ▸ Option.some.inj h
  obtain ⟨h1, h2, h3, hb0, hb1, hb2, hb3⟩ := word_6at20_6at14_6at8_1at7_sel7at0 d a b w (M := 1) (S := 4) (by omega) (by omega) rfl hx
  refine decode_row (r := rows01[4]) h1 ?_ h3 ?_ hw
  · show rows01.find? _ = _
    simp only [rows01, List.find?, h2, Nat.reduceBEq, beq_self_eq_true]; rfl
  · show Instr.xor (bits 6 x 20) (bits 6 x 14) (bits 6 x 8) (bits 1 x 7) = _
    rw [hb0, hb1, hb2, hb3]

theorem andn (d : BitVec 6) (a : BitVec 6) (b : BitVec 6) (w : BitVec 1) : Statement (.andn d a b w) := by
  intro n x h hw
  have h : some (32, word 0x04000005 [(d.toNat, 20), (a.toNat, 14), (b.toNat, 8), (w.toNat, 7)]) = some (n, x) := h
  obtain ⟨rfl, hx⟩ := Prod.mk.injEq .. ▸ Option.some.inj h
  obtain ⟨h1, h2, h3, hb0, hb1, hb2, hb3⟩ := word_6at20_6at14_6at8_1at7_sel7at0 d a b w (M := 1) (S := 5) (by omega) (by omega) rfl hx
  refine decode_row (r := rows01[5]) h1 ?_ h3 ?_ hw
  · show rows01.find? _ = _
    simp only [rows01, List.find?, h2, Nat.reduceBEq, beq_self_eq_true]; rfl
  · show Instr.andn (bits 6 x 20) (bits 6 x 14) (bits 6 x 8) (bits 1 x 7) = _
    rw [hb0, hb1, hb2, hb3]

theorem sll (d : BitVec 6) (a : BitVec 6) (b : BitVec 6) (w : BitVec 1) : Statement (.sll d a b w) := by
  intro n x h hw
  have h : some (32, word 0x04000006 [(d.toNat, 20), (a.toNat, 14), (b.toNat, 8), (w.toNat, 7)]) = some (n, x) := h
  obtain ⟨rfl, hx⟩ := Prod.mk.injEq .. ▸ Option.some.inj h
  obtain ⟨h1, h2, h3, hb0, hb1, hb2, hb3⟩ := word_6at20_6at14_6at8_1at7_sel7at0 d a b w (M := 1) (S := 6) (by omega) (by omega) rfl hx
  refine decode_row (r := rows01[6]) h1 ?_ h3 ?_ hw
  · show rows01.find? _ = _
    simp only [rows01, List.find?, h2, Nat.reduceBEq, beq_self_eq_true]; rfl
  · show Instr.sll (bits 6 x 20) (bits 6 x 14) (bits 6 x 8) (bits 1 x 7) = _
    rw [hb0, hb1, hb2, hb3]

theorem srl (d : BitVec 6) (a : BitVec 6) (b : BitVec 6) (w : BitVec 1) : Statement (.srl d a b w) := by
  intro n x h hw
  have h : some (32, word 0x04000007 [(d.toNat, 20), (a.toNat, 14), (b.toNat, 8), (w.toNat, 7)]) = some (n, x) := h
  obtain ⟨rfl, hx⟩ := Prod.mk.injEq .. ▸ Option.some.inj h
  obtain ⟨h1, h2, h3, hb0, hb1, hb2, hb3⟩ := word_6at20_6at14_6at8_1at7_sel7at0 d a b w (M := 1) (S := 7) (by omega) (by omega) rfl hx
  refine decode_row (r := rows01[7]) h1 ?_ h3 ?_ hw
  · show rows01.find? _ = _
    simp only [rows01, List.find?, h2, Nat.reduceBEq, beq_self_eq_true]; rfl
  · show Instr.srl (bits 6 x 20) (bits 6 x 14) (bits 6 x 8) (bits 1 x 7) = _
    rw [hb0, hb1, hb2, hb3]

theorem sra (d : BitVec 6) (a : BitVec 6) (b : BitVec 6) (w : BitVec 1) : Statement (.sra d a b w) := by
  intro n x h hw
  have h : some (32, word 0x04000008 [(d.toNat, 20), (a.toNat, 14), (b.toNat, 8), (w.toNat, 7)]) = some (n, x) := h
  obtain ⟨rfl, hx⟩ := Prod.mk.injEq .. ▸ Option.some.inj h
  obtain ⟨h1, h2, h3, hb0, hb1, hb2, hb3⟩ := word_6at20_6at14_6at8_1at7_sel7at0 d a b w (M := 1) (S := 8) (by omega) (by omega) rfl hx
  refine decode_row (r := rows01[8]) h1 ?_ h3 ?_ hw
  · show rows01.find? _ = _
    simp only [rows01, List.find?, h2, Nat.reduceBEq, beq_self_eq_true]; rfl
  · show Instr.sra (bits 6 x 20) (bits 6 x 14) (bits 6 x 8) (bits 1 x 7) = _
    rw [hb0, hb1, hb2, hb3]

theorem mul (d : BitVec 6) (a : BitVec 6) (b : BitVec 6) (w : BitVec 1) : Statement (.mul d a b w) := by
  intro n x h hw
  have h : some (32, word 0x04000009 [(d.toNat, 20), (a.toNat, 14), (b.toNat, 8), (w.toNat, 7)]) = some (n, x) := h
  obtain ⟨rfl, hx⟩ := Prod.mk.injEq .. ▸ Option.some.inj h
  obtain ⟨h1, h2, h3, hb0, hb1, hb2, hb3⟩ := word_6at20_6at14_6at8_1at7_sel7at0 d a b w (M := 1) (S := 9) (by omega) (by omega) rfl hx
  refine decode_row (r := rows01[9]) h1 ?_ h3 ?_ hw
  · show rows01.find? _ = _
    simp only [rows01, List.find?, h2, Nat.reduceBEq, beq_self_eq_true]; rfl
  · show Instr.mul (bits 6 x 20) (bits 6 x 14) (bits 6 x 8) (bits 1 x 7) = _
    rw [hb0, hb1, hb2, hb3]

theorem mulhs (d : BitVec 6) (a : BitVec 6) (b : BitVec 6) (w : BitVec 1) : Statement (.mulhs d a b w) := by
  intro n x h hw
  have h : some (32, word 0x0400000A [(d.toNat, 20), (a.toNat, 14), (b.toNat, 8), (w.toNat, 7)]) = some (n, x) := h
  obtain ⟨rfl, hx⟩ := Prod.mk.injEq .. ▸ Option.some.inj h
  obtain ⟨h1, h2, h3, hb0, hb1, hb2, hb3⟩ := word_6at20_6at14_6at8_1at7_sel7at0 d a b w (M := 1) (S := 10) (by omega) (by omega) rfl hx
  refine decode_row (r := rows01[10]) h1 ?_ h3 ?_ hw
  · show rows01.find? _ = _
    simp only [rows01, List.find?, h2, Nat.reduceBEq, beq_self_eq_true]; rfl
  · show Instr.mulhs (bits 6 x 20) (bits 6 x 14) (bits 6 x 8) (bits 1 x 7) = _
    rw [hb0, hb1, hb2, hb3]

theorem mulhu (d : BitVec 6) (a : BitVec 6) (b : BitVec 6) (w : BitVec 1) : Statement (.mulhu d a b w) := by
  intro n x h hw
  have h : some (32, word 0x0400000B [(d.toNat, 20), (a.toNat, 14), (b.toNat, 8), (w.toNat, 7)]) = some (n, x) := h
  obtain ⟨rfl, hx⟩ := Prod.mk.injEq .. ▸ Option.some.inj h
  obtain ⟨h1, h2, h3, hb0, hb1, hb2, hb3⟩ := word_6at20_6at14_6at8_1at7_sel7at0 d a b w (M := 1) (S := 11) (by omega) (by omega) rfl hx
  refine decode_row (r := rows01[11]) h1 ?_ h3 ?_ hw
  · show rows01.find? _ = _
    simp only [rows01, List.find?, h2, Nat.reduceBEq, beq_self_eq_true]; rfl
  · show Instr.mulhu (bits 6 x 20) (bits 6 x 14) (bits 6 x 8) (bits 1 x 7) = _
    rw [hb0, hb1, hb2, hb3]

theorem divs (d : BitVec 6) (a : BitVec 6) (b : BitVec 6) (w : BitVec 1) : Statement (.divs d a b w) := by
  intro n x h hw
  have h : some (32, word 0x0400000C [(d.toNat, 20), (a.toNat, 14), (b.toNat, 8), (w.toNat, 7)]) = some (n, x) := h
  obtain ⟨rfl, hx⟩ := Prod.mk.injEq .. ▸ Option.some.inj h
  obtain ⟨h1, h2, h3, hb0, hb1, hb2, hb3⟩ := word_6at20_6at14_6at8_1at7_sel7at0 d a b w (M := 1) (S := 12) (by omega) (by omega) rfl hx
  refine decode_row (r := rows01[12]) h1 ?_ h3 ?_ hw
  · show rows01.find? _ = _
    simp only [rows01, List.find?, h2, Nat.reduceBEq, beq_self_eq_true]; rfl
  · show Instr.divs (bits 6 x 20) (bits 6 x 14) (bits 6 x 8) (bits 1 x 7) = _
    rw [hb0, hb1, hb2, hb3]

theorem divu (d : BitVec 6) (a : BitVec 6) (b : BitVec 6) (w : BitVec 1) : Statement (.divu d a b w) := by
  intro n x h hw
  have h : some (32, word 0x0400000D [(d.toNat, 20), (a.toNat, 14), (b.toNat, 8), (w.toNat, 7)]) = some (n, x) := h
  obtain ⟨rfl, hx⟩ := Prod.mk.injEq .. ▸ Option.some.inj h
  obtain ⟨h1, h2, h3, hb0, hb1, hb2, hb3⟩ := word_6at20_6at14_6at8_1at7_sel7at0 d a b w (M := 1) (S := 13) (by omega) (by omega) rfl hx
  refine decode_row (r := rows01[13]) h1 ?_ h3 ?_ hw
  · show rows01.find? _ = _
    simp only [rows01, List.find?, h2, Nat.reduceBEq, beq_self_eq_true]; rfl
  · show Instr.divu (bits 6 x 20) (bits 6 x 14) (bits 6 x 8) (bits 1 x 7) = _
    rw [hb0, hb1, hb2, hb3]

theorem rems (d : BitVec 6) (a : BitVec 6) (b : BitVec 6) (w : BitVec 1) : Statement (.rems d a b w) := by
  intro n x h hw
  have h : some (32, word 0x0400000E [(d.toNat, 20), (a.toNat, 14), (b.toNat, 8), (w.toNat, 7)]) = some (n, x) := h
  obtain ⟨rfl, hx⟩ := Prod.mk.injEq .. ▸ Option.some.inj h
  obtain ⟨h1, h2, h3, hb0, hb1, hb2, hb3⟩ := word_6at20_6at14_6at8_1at7_sel7at0 d a b w (M := 1) (S := 14) (by omega) (by omega) rfl hx
  refine decode_row (r := rows01[14]) h1 ?_ h3 ?_ hw
  · show rows01.find? _ = _
    simp only [rows01, List.find?, h2, Nat.reduceBEq, beq_self_eq_true]; rfl
  · show Instr.rems (bits 6 x 20) (bits 6 x 14) (bits 6 x 8) (bits 1 x 7) = _
    rw [hb0, hb1, hb2, hb3]

theorem remu (d : BitVec 6) (a : BitVec 6) (b : BitVec 6) (w : BitVec 1) : Statement (.remu d a b w) := by
  intro n x h hw
  have h : some (32, word 0x0400000F [(d.toNat, 20), (a.toNat, 14), (b.toNat, 8), (w.toNat, 7)]) = some (n, x) := h
  obtain ⟨rfl, hx⟩ := Prod.mk.injEq .. ▸ Option.some.inj h
  obtain ⟨h1, h2, h3, hb0, hb1, hb2, hb3⟩ := word_6at20_6at14_6at8_1at7_sel7at0 d a b w (M := 1) (S := 15) (by omega) (by omega) rfl hx
  refine decode_row (r := rows01[15]) h1 ?_ h3 ?_ hw
  · show rows01.find? _ = _
    simp only [rows01, List.find?, h2, Nat.reduceBEq, beq_self_eq_true]; rfl
  · show Instr.remu (bits 6 x 20) (bits 6 x 14) (bits 6 x 8) (bits 1 x 7) = _
    rw [hb0, hb1, hb2, hb3]

theorem min (d : BitVec 6) (a : BitVec 6) (b : BitVec 6) (w : BitVec 1) : Statement (.min d a b w) := by
  intro n x h hw
  have h : some (32, word 0x04000010 [(d.toNat, 20), (a.toNat, 14), (b.toNat, 8), (w.toNat, 7)]) = some (n, x) := h
  obtain ⟨rfl, hx⟩ := Prod.mk.injEq .. ▸ Option.some.inj h
  obtain ⟨h1, h2, h3, hb0, hb1, hb2, hb3⟩ := word_6at20_6at14_6at8_1at7_sel7at0 d a b w (M := 1) (S := 16) (by omega) (by omega) rfl hx
  refine decode_row (r := rows01[16]) h1 ?_ h3 ?_ hw
  · show rows01.find? _ = _
    simp only [rows01, List.find?, h2, Nat.reduceBEq, beq_self_eq_true]; rfl
  · show Instr.min (bits 6 x 20) (bits 6 x 14) (bits 6 x 8) (bits 1 x 7) = _
    rw [hb0, hb1, hb2, hb3]

theorem minu (d : BitVec 6) (a : BitVec 6) (b : BitVec 6) (w : BitVec 1) : Statement (.minu d a b w) := by
  intro n x h hw
  have h : some (32, word 0x04000011 [(d.toNat, 20), (a.toNat, 14), (b.toNat, 8), (w.toNat, 7)]) = some (n, x) := h
  obtain ⟨rfl, hx⟩ := Prod.mk.injEq .. ▸ Option.some.inj h
  obtain ⟨h1, h2, h3, hb0, hb1, hb2, hb3⟩ := word_6at20_6at14_6at8_1at7_sel7at0 d a b w (M := 1) (S := 17) (by omega) (by omega) rfl hx
  refine decode_row (r := rows01[17]) h1 ?_ h3 ?_ hw
  · show rows01.find? _ = _
    simp only [rows01, List.find?, h2, Nat.reduceBEq, beq_self_eq_true]; rfl
  · show Instr.minu (bits 6 x 20) (bits 6 x 14) (bits 6 x 8) (bits 1 x 7) = _
    rw [hb0, hb1, hb2, hb3]

theorem max (d : BitVec 6) (a : BitVec 6) (b : BitVec 6) (w : BitVec 1) : Statement (.max d a b w) := by
  intro n x h hw
  have h : some (32, word 0x04000012 [(d.toNat, 20), (a.toNat, 14), (b.toNat, 8), (w.toNat, 7)]) = some (n, x) := h
  obtain ⟨rfl, hx⟩ := Prod.mk.injEq .. ▸ Option.some.inj h
  obtain ⟨h1, h2, h3, hb0, hb1, hb2, hb3⟩ := word_6at20_6at14_6at8_1at7_sel7at0 d a b w (M := 1) (S := 18) (by omega) (by omega) rfl hx
  refine decode_row (r := rows01[18]) h1 ?_ h3 ?_ hw
  · show rows01.find? _ = _
    simp only [rows01, List.find?, h2, Nat.reduceBEq, beq_self_eq_true]; rfl
  · show Instr.max (bits 6 x 20) (bits 6 x 14) (bits 6 x 8) (bits 1 x 7) = _
    rw [hb0, hb1, hb2, hb3]

theorem maxu (d : BitVec 6) (a : BitVec 6) (b : BitVec 6) (w : BitVec 1) : Statement (.maxu d a b w) := by
  intro n x h hw
  have h : some (32, word 0x04000013 [(d.toNat, 20), (a.toNat, 14), (b.toNat, 8), (w.toNat, 7)]) = some (n, x) := h
  obtain ⟨rfl, hx⟩ := Prod.mk.injEq .. ▸ Option.some.inj h
  obtain ⟨h1, h2, h3, hb0, hb1, hb2, hb3⟩ := word_6at20_6at14_6at8_1at7_sel7at0 d a b w (M := 1) (S := 19) (by omega) (by omega) rfl hx
  refine decode_row (r := rows01[19]) h1 ?_ h3 ?_ hw
  · show rows01.find? _ = _
    simp only [rows01, List.find?, h2, Nat.reduceBEq, beq_self_eq_true]; rfl
  · show Instr.maxu (bits 6 x 20) (bits 6 x 14) (bits 6 x 8) (bits 1 x 7) = _
    rw [hb0, hb1, hb2, hb3]

theorem slt (d : BitVec 6) (a : BitVec 6) (b : BitVec 6) (w : BitVec 1) : Statement (.slt d a b w) := by
  intro n x h hw
  have h : some (32, word 0x04000014 [(d.toNat, 20), (a.toNat, 14), (b.toNat, 8), (w.toNat, 7)]) = some (n, x) := h
  obtain ⟨rfl, hx⟩ := Prod.mk.injEq .. ▸ Option.some.inj h
  obtain ⟨h1, h2, h3, hb0, hb1, hb2, hb3⟩ := word_6at20_6at14_6at8_1at7_sel7at0 d a b w (M := 1) (S := 20) (by omega) (by omega) rfl hx
  refine decode_row (r := rows01[20]) h1 ?_ h3 ?_ hw
  · show rows01.find? _ = _
    simp only [rows01, List.find?, h2, Nat.reduceBEq, beq_self_eq_true]; rfl
  · show Instr.slt (bits 6 x 20) (bits 6 x 14) (bits 6 x 8) (bits 1 x 7) = _
    rw [hb0, hb1, hb2, hb3]

theorem sltu (d : BitVec 6) (a : BitVec 6) (b : BitVec 6) (w : BitVec 1) : Statement (.sltu d a b w) := by
  intro n x h hw
  have h : some (32, word 0x04000015 [(d.toNat, 20), (a.toNat, 14), (b.toNat, 8), (w.toNat, 7)]) = some (n, x) := h
  obtain ⟨rfl, hx⟩ := Prod.mk.injEq .. ▸ Option.some.inj h
  obtain ⟨h1, h2, h3, hb0, hb1, hb2, hb3⟩ := word_6at20_6at14_6at8_1at7_sel7at0 d a b w (M := 1) (S := 21) (by omega) (by omega) rfl hx
  refine decode_row (r := rows01[21]) h1 ?_ h3 ?_ hw
  · show rows01.find? _ = _
    simp only [rows01, List.find?, h2, Nat.reduceBEq, beq_self_eq_true]; rfl
  · show Instr.sltu (bits 6 x 20) (bits 6 x 14) (bits 6 x 8) (bits 1 x 7) = _
    rw [hb0, hb1, hb2, hb3]

theorem clz (d : BitVec 6) (a : BitVec 6) (w : BitVec 1) : Statement (.clz d a w) := by
  intro n x h hw
  have h : some (32, word 0x04000016 [(d.toNat, 20), (a.toNat, 14), (w.toNat, 7)]) = some (n, x) := h
  obtain ⟨rfl, hx⟩ := Prod.mk.injEq .. ▸ Option.some.inj h
  obtain ⟨h1, h2, h3, hb0, hb1, hb2⟩ := word_6at20_6at14_1at7_sel7at0_zero6at8 d a w (M := 1) (S := 22) (by omega) (by omega) rfl hx
  refine decode_row (r := rows01[22]) h1 ?_ h3 ?_ hw
  · show rows01.find? _ = _
    simp only [rows01, List.find?, h2, Nat.reduceBEq, beq_self_eq_true]; rfl
  · show Instr.clz (bits 6 x 20) (bits 6 x 14) (bits 1 x 7) = _
    rw [hb0, hb1, hb2]

theorem ctz (d : BitVec 6) (a : BitVec 6) (w : BitVec 1) : Statement (.ctz d a w) := by
  intro n x h hw
  have h : some (32, word 0x04000017 [(d.toNat, 20), (a.toNat, 14), (w.toNat, 7)]) = some (n, x) := h
  obtain ⟨rfl, hx⟩ := Prod.mk.injEq .. ▸ Option.some.inj h
  obtain ⟨h1, h2, h3, hb0, hb1, hb2⟩ := word_6at20_6at14_1at7_sel7at0_zero6at8 d a w (M := 1) (S := 23) (by omega) (by omega) rfl hx
  refine decode_row (r := rows01[23]) h1 ?_ h3 ?_ hw
  · show rows01.find? _ = _
    simp only [rows01, List.find?, h2, Nat.reduceBEq, beq_self_eq_true]; rfl
  · show Instr.ctz (bits 6 x 20) (bits 6 x 14) (bits 1 x 7) = _
    rw [hb0, hb1, hb2]

theorem popc (d : BitVec 6) (a : BitVec 6) (w : BitVec 1) : Statement (.popc d a w) := by
  intro n x h hw
  have h : some (32, word 0x04000018 [(d.toNat, 20), (a.toNat, 14), (w.toNat, 7)]) = some (n, x) := h
  obtain ⟨rfl, hx⟩ := Prod.mk.injEq .. ▸ Option.some.inj h
  obtain ⟨h1, h2, h3, hb0, hb1, hb2⟩ := word_6at20_6at14_1at7_sel7at0_zero6at8 d a w (M := 1) (S := 24) (by omega) (by omega) rfl hx
  refine decode_row (r := rows01[24]) h1 ?_ h3 ?_ hw
  · show rows01.find? _ = _
    simp only [rows01, List.find?, h2, Nat.reduceBEq, beq_self_eq_true]; rfl
  · show Instr.popc (bits 6 x 20) (bits 6 x 14) (bits 1 x 7) = _
    rw [hb0, hb1, hb2]

theorem brev (d : BitVec 6) (a : BitVec 6) (w : BitVec 1) : Statement (.brev d a w) := by
  intro n x h hw
  have h : some (32, word 0x04000019 [(d.toNat, 20), (a.toNat, 14), (w.toNat, 7)]) = some (n, x) := h
  obtain ⟨rfl, hx⟩ := Prod.mk.injEq .. ▸ Option.some.inj h
  obtain ⟨h1, h2, h3, hb0, hb1, hb2⟩ := word_6at20_6at14_1at7_sel7at0_zero6at8 d a w (M := 1) (S := 25) (by omega) (by omega) rfl hx
  refine decode_row (r := rows01[25]) h1 ?_ h3 ?_ hw
  · show rows01.find? _ = _
    simp only [rows01, List.find?, h2, Nat.reduceBEq, beq_self_eq_true]; rfl
  · show Instr.brev (bits 6 x 20) (bits 6 x 14) (bits 1 x 7) = _
    rw [hb0, hb1, hb2]

theorem sext (d : BitVec 6) (a : BitVec 6) (b : BitVec 6) (w : BitVec 1) : Statement (.sext d a b w) := by
  intro n x h hw
  have h : some (32, word 0x0400001A [(d.toNat, 20), (a.toNat, 14), (b.toNat, 8), (w.toNat, 7)]) = some (n, x) := h
  obtain ⟨rfl, hx⟩ := Prod.mk.injEq .. ▸ Option.some.inj h
  obtain ⟨h1, h2, h3, hb0, hb1, hb2, hb3⟩ := word_6at20_6at14_6at8_1at7_sel7at0 d a b w (M := 1) (S := 26) (by omega) (by omega) rfl hx
  refine decode_row (r := rows01[26]) h1 ?_ h3 ?_ hw
  · show rows01.find? _ = _
    simp only [rows01, List.find?, h2, Nat.reduceBEq, beq_self_eq_true]; rfl
  · show Instr.sext (bits 6 x 20) (bits 6 x 14) (bits 6 x 8) (bits 1 x 7) = _
    rw [hb0, hb1, hb2, hb3]

theorem zext (d : BitVec 6) (a : BitVec 6) (b : BitVec 6) (w : BitVec 1) : Statement (.zext d a b w) := by
  intro n x h hw
  have h : some (32, word 0x0400001B [(d.toNat, 20), (a.toNat, 14), (b.toNat, 8), (w.toNat, 7)]) = some (n, x) := h
  obtain ⟨rfl, hx⟩ := Prod.mk.injEq .. ▸ Option.some.inj h
  obtain ⟨h1, h2, h3, hb0, hb1, hb2, hb3⟩ := word_6at20_6at14_6at8_1at7_sel7at0 d a b w (M := 1) (S := 27) (by omega) (by omega) rfl hx
  refine decode_row (r := rows01[27]) h1 ?_ h3 ?_ hw
  · show rows01.find? _ = _
    simp only [rows01, List.find?, h2, Nat.reduceBEq, beq_self_eq_true]; rfl
  · show Instr.zext (bits 6 x 20) (bits 6 x 14) (bits 6 x 8) (bits 1 x 7) = _
    rw [hb0, hb1, hb2, hb3]

theorem addi (d : BitVec 6) (a : BitVec 6) (im : BitVec 14) : Statement (.addi d a im) := by
  intro n x h hw
  have h : some (32, word 0x08000000 [(d.toNat, 20), (a.toNat, 14), (im.toNat, 0)]) = some (n, x) := h
  obtain ⟨rfl, hx⟩ := Prod.mk.injEq .. ▸ Option.some.inj h
  obtain ⟨h1, h2, h3, hb0, hb1, hb2⟩ := word_6at20_6at14_14at0 d a im (M := 2) (S := 0) (by omega) (by omega) rfl hx
  refine decode_row (r := rows02[0]) h1 ?_ h3 ?_ hw
  · show rows02.find? _ = _
    simp only [rows02, List.find?, h2, beq_self_eq_true]; rfl
  · show Instr.addi (bits 6 x 20) (bits 6 x 14) (bits 14 x 0) = _
    rw [hb0, hb1, hb2]

theorem andi (d : BitVec 6) (a : BitVec 6) (im : BitVec 14) : Statement (.andi d a im) := by
  intro n x h hw
  have h : some (32, word 0x0C000000 [(d.toNat, 20), (a.toNat, 14), (im.toNat, 0)]) = some (n, x) := h
  obtain ⟨rfl, hx⟩ := Prod.mk.injEq .. ▸ Option.some.inj h
  obtain ⟨h1, h2, h3, hb0, hb1, hb2⟩ := word_6at20_6at14_14at0 d a im (M := 3) (S := 0) (by omega) (by omega) rfl hx
  refine decode_row (r := rows03[0]) h1 ?_ h3 ?_ hw
  · show rows03.find? _ = _
    simp only [rows03, List.find?, h2, beq_self_eq_true]; rfl
  · show Instr.andi (bits 6 x 20) (bits 6 x 14) (bits 14 x 0) = _
    rw [hb0, hb1, hb2]

theorem ori (d : BitVec 6) (a : BitVec 6) (im : BitVec 14) : Statement (.ori d a im) := by
  intro n x h hw
  have h : some (32, word 0x10000000 [(d.toNat, 20), (a.toNat, 14), (im.toNat, 0)]) = some (n, x) := h
  obtain ⟨rfl, hx⟩ := Prod.mk.injEq .. ▸ Option.some.inj h
  obtain ⟨h1, h2, h3, hb0, hb1, hb2⟩ := word_6at20_6at14_14at0 d a im (M := 4) (S := 0) (by omega) (by omega) rfl hx
  refine decode_row (r := rows04[0]) h1 ?_ h3 ?_ hw
  · show rows04.find? _ = _
    simp only [rows04, List.find?, h2, beq_self_eq_true]; rfl
  · show Instr.ori (bits 6 x 20) (bits 6 x 14) (bits 14 x 0) = _
    rw [hb0, hb1, hb2]

theorem xori (d : BitVec 6) (a : BitVec 6) (im : BitVec 14) : Statement (.xori d a im) := by
  intro n x h hw
  have h : some (32, word 0x14000000 [(d.toNat, 20), (a.toNat, 14), (im.toNat, 0)]) = some (n, x) := h
  obtain ⟨rfl, hx⟩ := Prod.mk.injEq .. ▸ Option.some.inj h
  obtain ⟨h1, h2, h3, hb0, hb1, hb2⟩ := word_6at20_6at14_14at0 d a im (M := 5) (S := 0) (by omega) (by omega) rfl hx
  refine decode_row (r := rows05[0]) h1 ?_ h3 ?_ hw
  · show rows05.find? _ = _
    simp only [rows05, List.find?, h2, beq_self_eq_true]; rfl
  · show Instr.xori (bits 6 x 20) (bits 6 x 14) (bits 14 x 0) = _
    rw [hb0, hb1, hb2]

theorem muli (d : BitVec 6) (a : BitVec 6) (im : BitVec 14) : Statement (.muli d a im) := by
  intro n x h hw
  have h : some (32, word 0x34000000 [(d.toNat, 20), (a.toNat, 14), (im.toNat, 0)]) = some (n, x) := h
  obtain ⟨rfl, hx⟩ := Prod.mk.injEq .. ▸ Option.some.inj h
  obtain ⟨h1, h2, h3, hb0, hb1, hb2⟩ := word_6at20_6at14_14at0 d a im (M := 13) (S := 0) (by omega) (by omega) rfl hx
  refine decode_row (r := rows0D[0]) h1 ?_ h3 ?_ hw
  · show rows0D.find? _ = _
    simp only [rows0D, List.find?, h2, beq_self_eq_true]; rfl
  · show Instr.muli (bits 6 x 20) (bits 6 x 14) (bits 14 x 0) = _
    rw [hb0, hb1, hb2]

theorem slli (d : BitVec 6) (a : BitVec 6) (w : BitVec 1) (s1 : BitVec 6) : Statement (.slli d a w s1) := by
  intro n x h hw
  have h : some (32, word 0x18000000 [(d.toNat, 20), (a.toNat, 14), (w.toNat, 6), (s1.toNat, 0)]) = some (n, x) := h
  obtain ⟨rfl, hx⟩ := Prod.mk.injEq .. ▸ Option.some.inj h
  obtain ⟨h1, h2, h3, hb0, hb1, hb2, hb3⟩ := word_6at20_6at14_1at6_6at0_sel2at12_zero5at7 d a w s1 (M := 6) (S := 0) (by omega) (by omega) rfl hx
  refine decode_row (r := rows06[0]) h1 ?_ h3 ?_ hw
  · show rows06.find? _ = _
    simp only [rows06, List.find?, h2, beq_self_eq_true]; rfl
  · show Instr.slli (bits 6 x 20) (bits 6 x 14) (bits 1 x 6) (bits 6 x 0) = _
    rw [hb0, hb1, hb2, hb3]

theorem srli (d : BitVec 6) (a : BitVec 6) (w : BitVec 1) (s1 : BitVec 6) : Statement (.srli d a w s1) := by
  intro n x h hw
  have h : some (32, word 0x18001000 [(d.toNat, 20), (a.toNat, 14), (w.toNat, 6), (s1.toNat, 0)]) = some (n, x) := h
  obtain ⟨rfl, hx⟩ := Prod.mk.injEq .. ▸ Option.some.inj h
  obtain ⟨h1, h2, h3, hb0, hb1, hb2, hb3⟩ := word_6at20_6at14_1at6_6at0_sel2at12_zero5at7 d a w s1 (M := 6) (S := 1) (by omega) (by omega) rfl hx
  refine decode_row (r := rows06[1]) h1 ?_ h3 ?_ hw
  · show rows06.find? _ = _
    simp only [rows06, List.find?, h2, Nat.reduceBEq, beq_self_eq_true]; rfl
  · show Instr.srli (bits 6 x 20) (bits 6 x 14) (bits 1 x 6) (bits 6 x 0) = _
    rw [hb0, hb1, hb2, hb3]

theorem srai (d : BitVec 6) (a : BitVec 6) (w : BitVec 1) (s1 : BitVec 6) : Statement (.srai d a w s1) := by
  intro n x h hw
  have h : some (32, word 0x18002000 [(d.toNat, 20), (a.toNat, 14), (w.toNat, 6), (s1.toNat, 0)]) = some (n, x) := h
  obtain ⟨rfl, hx⟩ := Prod.mk.injEq .. ▸ Option.some.inj h
  obtain ⟨h1, h2, h3, hb0, hb1, hb2, hb3⟩ := word_6at20_6at14_1at6_6at0_sel2at12_zero5at7 d a w s1 (M := 6) (S := 2) (by omega) (by omega) rfl hx
  refine decode_row (r := rows06[2]) h1 ?_ h3 ?_ hw
  · show rows06.find? _ = _
    simp only [rows06, List.find?, h2, Nat.reduceBEq, beq_self_eq_true]; rfl
  · show Instr.srai (bits 6 x 20) (bits 6 x 14) (bits 1 x 6) (bits 6 x 0) = _
    rw [hb0, hb1, hb2, hb3]

theorem lui (d : BitVec 6) (im : BitVec 20) : Statement (.lui d im) := by
  intro n x h hw
  have h : some (32, word 0x1C000000 [(d.toNat, 20), (im.toNat, 0)]) = some (n, x) := h
  obtain ⟨rfl, hx⟩ := Prod.mk.injEq .. ▸ Option.some.inj h
  obtain ⟨h1, h2, h3, hb0, hb1⟩ := word_6at20_20at0 d im (M := 7) (S := 0) (by omega) (by omega) rfl hx
  refine decode_row (r := rows07[0]) h1 ?_ h3 ?_ hw
  · show rows07.find? _ = _
    simp only [rows07, List.find?, h2, beq_self_eq_true]; rfl
  · show Instr.lui (bits 6 x 20) (bits 20 x 0) = _
    rw [hb0, hb1]

theorem auipc (d : BitVec 6) (im : BitVec 20) : Statement (.auipc d im) := by
  intro n x h hw
  have h : some (32, word 0x20000000 [(d.toNat, 20), (im.toNat, 0)]) = some (n, x) := h
  obtain ⟨rfl, hx⟩ := Prod.mk.injEq .. ▸ Option.some.inj h
  obtain ⟨h1, h2, h3, hb0, hb1⟩ := word_6at20_20at0 d im (M := 8) (S := 0) (by omega) (by omega) rfl hx
  refine decode_row (r := rows08[0]) h1 ?_ h3 ?_ hw
  · show rows08.find? _ = _
    simp only [rows08, List.find?, h2, beq_self_eq_true]; rfl
  · show Instr.auipc (bits 6 x 20) (bits 20 x 0) = _
    rw [hb0, hb1]

theorem bext (d : BitVec 6) (a : BitVec 6) (o : BitVec 6) (w : BitVec 6) (s1 : BitVec 1) : Statement (.bext d a o w s1) := by
  intro n x h hw
  have h : some (32, word 0x24000000 [(d.toNat, 20), (a.toNat, 14), (o.toNat, 8), (w.toNat, 2), (s1.toNat, 1)]) = some (n, x) := h
  obtain ⟨rfl, hx⟩ := Prod.mk.injEq .. ▸ Option.some.inj h
  obtain ⟨h1, h2, h3, hb0, hb1, hb2, hb3, hb4⟩ := word_6at20_6at14_6at8_6at2_1at1_zero1at0 d a o w s1 (M := 9) (S := 0) (by omega) (by omega) rfl hx
  refine decode_row (r := rows09[0]) h1 ?_ h3 ?_ hw
  · show rows09.find? _ = _
    simp only [rows09, List.find?, h2, beq_self_eq_true]; rfl
  · show Instr.bext (bits 6 x 20) (bits 6 x 14) (bits 6 x 8) (bits 6 x 2) (bits 1 x 1) = _
    rw [hb0, hb1, hb2, hb3, hb4]

theorem bins (d : BitVec 6) (a : BitVec 6) (o : BitVec 6) (w : BitVec 6) : Statement (.bins d a o w) := by
  intro n x h hw
  have h : some (32, word 0x28000000 [(d.toNat, 20), (a.toNat, 14), (o.toNat, 8), (w.toNat, 2)]) = some (n, x) := h
  obtain ⟨rfl, hx⟩ := Prod.mk.injEq .. ▸ Option.some.inj h
  obtain ⟨h1, h2, h3, hb0, hb1, hb2, hb3⟩ := word_6at20_6at14_6at8_6at2_zero2at0 d a o w (M := 10) (S := 0) (by omega) (by omega) rfl hx
  refine decode_row (r := rows0A[0]) h1 ?_ h3 ?_ hw
  · show rows0A.find? _ = _
    simp only [rows0A, List.find?, h2, beq_self_eq_true]; rfl
  · show Instr.bins (bits 6 x 20) (bits 6 x 14) (bits 6 x 8) (bits 6 x 2) = _
    rw [hb0, hb1, hb2, hb3]

theorem bextr (d : BitVec 6) (a : BitVec 6) (b : BitVec 6) (s1 : BitVec 1) : Statement (.bextr d a b s1) := by
  intro n x h hw
  have h : some (32, word 0x2C000000 [(d.toNat, 20), (a.toNat, 14), (b.toNat, 8), (s1.toNat, 0)]) = some (n, x) := h
  obtain ⟨rfl, hx⟩ := Prod.mk.injEq .. ▸ Option.some.inj h
  obtain ⟨h1, h2, h3, hb0, hb1, hb2, hb3⟩ := word_6at20_6at14_6at8_1at0_zero7at1 d a b s1 (M := 11) (S := 0) (by omega) (by omega) rfl hx
  refine decode_row (r := rows0B[0]) h1 ?_ h3 ?_ hw
  · show rows0B.find? _ = _
    simp only [rows0B, List.find?, h2, beq_self_eq_true]; rfl
  · show Instr.bextr (bits 6 x 20) (bits 6 x 14) (bits 6 x 8) (bits 1 x 0) = _
    rw [hb0, hb1, hb2, hb3]

theorem binsr (d : BitVec 6) (a : BitVec 6) (b : BitVec 6) : Statement (.binsr d a b) := by
  intro n x h hw
  have h : some (32, word 0x30000000 [(d.toNat, 20), (a.toNat, 14), (b.toNat, 8)]) = some (n, x) := h
  obtain ⟨rfl, hx⟩ := Prod.mk.injEq .. ▸ Option.some.inj h
  obtain ⟨h1, h2, h3, hb0, hb1, hb2⟩ := word_6at20_6at14_6at8_zero8at0 d a b (M := 12) (S := 0) (by omega) (by omega) rfl hx
  refine decode_row (r := rows0C[0]) h1 ?_ h3 ?_ hw
  · show rows0C.find? _ = _
    simp only [rows0C, List.find?, h2, beq_self_eq_true]; rfl
  · show Instr.binsr (bits 6 x 20) (bits 6 x 14) (bits 6 x 8) = _
    rw [hb0, hb1, hb2]

theorem sel (d : BitVec 6) (a : BitVec 6) (b : BitVec 6) (g : BitVec 4) : Statement (.sel d a b g) := by
  intro n x h hw
  have h : some (32, word 0x38000000 [(d.toNat, 20), (a.toNat, 14), (b.toNat, 8), (g.toNat, 4)]) = some (n, x) := h
  obtain ⟨rfl, hx⟩ := Prod.mk.injEq .. ▸ Option.some.inj h
  obtain ⟨h1, h2, h3, hb0, hb1, hb2, hb3⟩ := word_6at20_6at14_6at8_4at4_zero4at0 d a b g (M := 14) (S := 0) (by omega) (by omega) rfl hx
  refine decode_row (r := rows0E[0]) h1 ?_ h3 ?_ hw
  · show rows0E.find? _ = _
    simp only [rows0E, List.find?, h2, beq_self_eq_true]; rfl
  · show Instr.sel (bits 6 x 20) (bits 6 x 14) (bits 6 x 8) (bits 4 x 4) = _
    rw [hb0, hb1, hb2, hb3]

theorem ld (d : BitVec 6) (a : BitVec 6) (im : BitVec 10) (z : BitVec 2) (hh : BitVec 2) : Statement (.ld d a im z hh) := by
  intro n x h hw
  have h : some (32, word 0x40000000 [(d.toNat, 20), (a.toNat, 14), (im.toNat, 4), (z.toNat, 2), (hh.toNat, 0)]) = some (n, x) := h
  obtain ⟨rfl, hx⟩ := Prod.mk.injEq .. ▸ Option.some.inj h
  obtain ⟨h1, h2, h3, hb0, hb1, hb2, hb3, hb4⟩ := word_6at20_6at14_10at4_2at2_2at0 d a im z hh (M := 16) (S := 0) (by omega) (by omega) rfl hx
  refine decode_row (r := rows10[0]) h1 ?_ h3 ?_ hw
  · show rows10.find? _ = _
    simp only [rows10, List.find?, h2, beq_self_eq_true]; rfl
  · show Instr.ld (bits 6 x 20) (bits 6 x 14) (bits 10 x 4) (bits 2 x 2) (bits 2 x 0) = _
    rw [hb0, hb1, hb2, hb3, hb4]

theorem lds (d : BitVec 6) (a : BitVec 6) (im : BitVec 10) (z : BitVec 2) (hh : BitVec 2) : Statement (.lds d a im z hh) := by
  intro n x h hw
  have h : some (32, word 0x44000000 [(d.toNat, 20), (a.toNat, 14), (im.toNat, 4), (z.toNat, 2), (hh.toNat, 0)]) = some (n, x) := h
  obtain ⟨rfl, hx⟩ := Prod.mk.injEq .. ▸ Option.some.inj h
  obtain ⟨h1, h2, h3, hb0, hb1, hb2, hb3, hb4⟩ := word_6at20_6at14_10at4_2at2_2at0 d a im z hh (M := 17) (S := 0) (by omega) (by omega) rfl hx
  refine decode_row (r := rows11[0]) h1 ?_ h3 ?_ hw
  · show rows11.find? _ = _
    simp only [rows11, List.find?, h2, beq_self_eq_true]; rfl
  · show Instr.lds (bits 6 x 20) (bits 6 x 14) (bits 10 x 4) (bits 2 x 2) (bits 2 x 0) = _
    rw [hb0, hb1, hb2, hb3, hb4]

theorem st (s1 : BitVec 6) (a : BitVec 6) (im : BitVec 10) (z : BitVec 2) : Statement (.st s1 a im z) := by
  intro n x h hw
  have h : some (32, word 0x48000000 [(s1.toNat, 20), (a.toNat, 14), (im.toNat, 4), (z.toNat, 2)]) = some (n, x) := h
  obtain ⟨rfl, hx⟩ := Prod.mk.injEq .. ▸ Option.some.inj h
  obtain ⟨h1, h2, h3, hb0, hb1, hb2, hb3⟩ := word_6at20_6at14_10at4_2at2_zero2at0 s1 a im z (M := 18) (S := 0) (by omega) (by omega) rfl hx
  refine decode_row (r := rows12[0]) h1 ?_ h3 ?_ hw
  · show rows12.find? _ = _
    simp only [rows12, List.find?, h2, beq_self_eq_true]; rfl
  · show Instr.st (bits 6 x 20) (bits 6 x 14) (bits 10 x 4) (bits 2 x 2) = _
    rw [hb0, hb1, hb2, hb3]

theorem ldx (d : BitVec 6) (a : BitVec 6) (x1 : BitVec 14) : Statement (.ldx d a x1) := by
  intro n x h hw
  have h : some (32, word 0x4C000000 [(d.toNat, 20), (a.toNat, 14), (x1.toNat, 0)]) = some (n, x) := h
  obtain ⟨rfl, hx⟩ := Prod.mk.injEq .. ▸ Option.some.inj h
  obtain ⟨h1, h2, h3, hb0, hb1, hb2⟩ := word_6at20_6at14_14at0 d a x1 (M := 19) (S := 0) (by omega) (by omega) rfl hx
  refine decode_row (r := rows13[0]) h1 ?_ h3 ?_ hw
  · show rows13.find? _ = _
    simp only [rows13, List.find?, h2, beq_self_eq_true]; rfl
  · show Instr.ldx (bits 6 x 20) (bits 6 x 14) (bits 14 x 0) = _
    rw [hb0, hb1, hb2]

theorem stx (s1 : BitVec 6) (a : BitVec 6) (x1 : BitVec 14) : Statement (.stx s1 a x1) := by
  intro n x h hw
  have h : some (32, word 0x50000000 [(s1.toNat, 20), (a.toNat, 14), (x1.toNat, 0)]) = some (n, x) := h
  obtain ⟨rfl, hx⟩ := Prod.mk.injEq .. ▸ Option.some.inj h
  obtain ⟨h1, h2, h3, hb0, hb1, hb2⟩ := word_6at20_6at14_14at0 s1 a x1 (M := 20) (S := 0) (by omega) (by omega) rfl hx
  refine decode_row (r := rows14[0]) h1 ?_ h3 ?_ hw
  · show rows14.find? _ = _
    simp only [rows14, List.find?, h2, beq_self_eq_true]; rfl
  · show Instr.stx (bits 6 x 20) (bits 6 x 14) (bits 14 x 0) = _
    rw [hb0, hb1, hb2]

theorem prf (a : BitVec 6) (im : BitVec 10) (hh : BitVec 2) : Statement (.prf a im hh) := by
  intro n x h hw
  have h : some (32, word 0x54000000 [(a.toNat, 14), (im.toNat, 4), (hh.toNat, 0)]) = some (n, x) := h
  obtain ⟨rfl, hx⟩ := Prod.mk.injEq .. ▸ Option.some.inj h
  obtain ⟨h1, h2, h3, hb0, hb1, hb2⟩ := word_6at14_10at4_2at0_zero2at2_6at20 a im hh (M := 21) (S := 0) (by omega) (by omega) rfl hx
  refine decode_row (r := rows15[0]) h1 ?_ h3 ?_ hw
  · show rows15.find? _ = _
    simp only [rows15, List.find?, h2, beq_self_eq_true]; rfl
  · show Instr.prf (bits 6 x 14) (bits 10 x 4) (bits 2 x 0) = _
    rw [hb0, hb1, hb2]

theorem amoAdd (d : BitVec 6) (a : BitVec 6) (b : BitVec 6) (s1 : BitVec 3) (o : BitVec 2) : Statement (.amoAdd d a b s1 o) := by
  intro n x h hw
  have h : some (32, word 0x58000000 [(d.toNat, 20), (a.toNat, 14), (b.toNat, 8), (s1.toNat, 2), (o.toNat, 0)]) = some (n, x) := h
  obtain ⟨rfl, hx⟩ := Prod.mk.injEq .. ▸ Option.some.inj h
  obtain ⟨h1, h2, h3, hb0, hb1, hb2, hb3, hb4⟩ := word_6at20_6at14_6at8_3at2_2at0_sel3at5 d a b s1 o (M := 22) (S := 0) (by omega) (by omega) rfl hx
  refine decode_row (r := rows16[0]) h1 ?_ h3 ?_ hw
  · show rows16.find? _ = _
    simp only [rows16, List.find?, h2, beq_self_eq_true]; rfl
  · show Instr.amoAdd (bits 6 x 20) (bits 6 x 14) (bits 6 x 8) (bits 3 x 2) (bits 2 x 0) = _
    rw [hb0, hb1, hb2, hb3, hb4]

theorem amoAnd (d : BitVec 6) (a : BitVec 6) (b : BitVec 6) (s1 : BitVec 3) (o : BitVec 2) : Statement (.amoAnd d a b s1 o) := by
  intro n x h hw
  have h : some (32, word 0x58000020 [(d.toNat, 20), (a.toNat, 14), (b.toNat, 8), (s1.toNat, 2), (o.toNat, 0)]) = some (n, x) := h
  obtain ⟨rfl, hx⟩ := Prod.mk.injEq .. ▸ Option.some.inj h
  obtain ⟨h1, h2, h3, hb0, hb1, hb2, hb3, hb4⟩ := word_6at20_6at14_6at8_3at2_2at0_sel3at5 d a b s1 o (M := 22) (S := 1) (by omega) (by omega) rfl hx
  refine decode_row (r := rows16[1]) h1 ?_ h3 ?_ hw
  · show rows16.find? _ = _
    simp only [rows16, List.find?, h2, Nat.reduceBEq, beq_self_eq_true]; rfl
  · show Instr.amoAnd (bits 6 x 20) (bits 6 x 14) (bits 6 x 8) (bits 3 x 2) (bits 2 x 0) = _
    rw [hb0, hb1, hb2, hb3, hb4]

theorem amoOr (d : BitVec 6) (a : BitVec 6) (b : BitVec 6) (s1 : BitVec 3) (o : BitVec 2) : Statement (.amoOr d a b s1 o) := by
  intro n x h hw
  have h : some (32, word 0x58000040 [(d.toNat, 20), (a.toNat, 14), (b.toNat, 8), (s1.toNat, 2), (o.toNat, 0)]) = some (n, x) := h
  obtain ⟨rfl, hx⟩ := Prod.mk.injEq .. ▸ Option.some.inj h
  obtain ⟨h1, h2, h3, hb0, hb1, hb2, hb3, hb4⟩ := word_6at20_6at14_6at8_3at2_2at0_sel3at5 d a b s1 o (M := 22) (S := 2) (by omega) (by omega) rfl hx
  refine decode_row (r := rows16[2]) h1 ?_ h3 ?_ hw
  · show rows16.find? _ = _
    simp only [rows16, List.find?, h2, Nat.reduceBEq, beq_self_eq_true]; rfl
  · show Instr.amoOr (bits 6 x 20) (bits 6 x 14) (bits 6 x 8) (bits 3 x 2) (bits 2 x 0) = _
    rw [hb0, hb1, hb2, hb3, hb4]

theorem amoXor (d : BitVec 6) (a : BitVec 6) (b : BitVec 6) (s1 : BitVec 3) (o : BitVec 2) : Statement (.amoXor d a b s1 o) := by
  intro n x h hw
  have h : some (32, word 0x58000060 [(d.toNat, 20), (a.toNat, 14), (b.toNat, 8), (s1.toNat, 2), (o.toNat, 0)]) = some (n, x) := h
  obtain ⟨rfl, hx⟩ := Prod.mk.injEq .. ▸ Option.some.inj h
  obtain ⟨h1, h2, h3, hb0, hb1, hb2, hb3, hb4⟩ := word_6at20_6at14_6at8_3at2_2at0_sel3at5 d a b s1 o (M := 22) (S := 3) (by omega) (by omega) rfl hx
  refine decode_row (r := rows16[3]) h1 ?_ h3 ?_ hw
  · show rows16.find? _ = _
    simp only [rows16, List.find?, h2, Nat.reduceBEq, beq_self_eq_true]; rfl
  · show Instr.amoXor (bits 6 x 20) (bits 6 x 14) (bits 6 x 8) (bits 3 x 2) (bits 2 x 0) = _
    rw [hb0, hb1, hb2, hb3, hb4]

theorem amoMin (d : BitVec 6) (a : BitVec 6) (b : BitVec 6) (s1 : BitVec 3) (o : BitVec 2) : Statement (.amoMin d a b s1 o) := by
  intro n x h hw
  have h : some (32, word 0x58000080 [(d.toNat, 20), (a.toNat, 14), (b.toNat, 8), (s1.toNat, 2), (o.toNat, 0)]) = some (n, x) := h
  obtain ⟨rfl, hx⟩ := Prod.mk.injEq .. ▸ Option.some.inj h
  obtain ⟨h1, h2, h3, hb0, hb1, hb2, hb3, hb4⟩ := word_6at20_6at14_6at8_3at2_2at0_sel3at5 d a b s1 o (M := 22) (S := 4) (by omega) (by omega) rfl hx
  refine decode_row (r := rows16[4]) h1 ?_ h3 ?_ hw
  · show rows16.find? _ = _
    simp only [rows16, List.find?, h2, Nat.reduceBEq, beq_self_eq_true]; rfl
  · show Instr.amoMin (bits 6 x 20) (bits 6 x 14) (bits 6 x 8) (bits 3 x 2) (bits 2 x 0) = _
    rw [hb0, hb1, hb2, hb3, hb4]

theorem amoMax (d : BitVec 6) (a : BitVec 6) (b : BitVec 6) (s1 : BitVec 3) (o : BitVec 2) : Statement (.amoMax d a b s1 o) := by
  intro n x h hw
  have h : some (32, word 0x580000A0 [(d.toNat, 20), (a.toNat, 14), (b.toNat, 8), (s1.toNat, 2), (o.toNat, 0)]) = some (n, x) := h
  obtain ⟨rfl, hx⟩ := Prod.mk.injEq .. ▸ Option.some.inj h
  obtain ⟨h1, h2, h3, hb0, hb1, hb2, hb3, hb4⟩ := word_6at20_6at14_6at8_3at2_2at0_sel3at5 d a b s1 o (M := 22) (S := 5) (by omega) (by omega) rfl hx
  refine decode_row (r := rows16[5]) h1 ?_ h3 ?_ hw
  · show rows16.find? _ = _
    simp only [rows16, List.find?, h2, Nat.reduceBEq, beq_self_eq_true]; rfl
  · show Instr.amoMax (bits 6 x 20) (bits 6 x 14) (bits 6 x 8) (bits 3 x 2) (bits 2 x 0) = _
    rw [hb0, hb1, hb2, hb3, hb4]

theorem amoSwap (d : BitVec 6) (a : BitVec 6) (b : BitVec 6) (s1 : BitVec 3) (o : BitVec 2) : Statement (.amoSwap d a b s1 o) := by
  intro n x h hw
  have h : some (32, word 0x580000C0 [(d.toNat, 20), (a.toNat, 14), (b.toNat, 8), (s1.toNat, 2), (o.toNat, 0)]) = some (n, x) := h
  obtain ⟨rfl, hx⟩ := Prod.mk.injEq .. ▸ Option.some.inj h
  obtain ⟨h1, h2, h3, hb0, hb1, hb2, hb3, hb4⟩ := word_6at20_6at14_6at8_3at2_2at0_sel3at5 d a b s1 o (M := 22) (S := 6) (by omega) (by omega) rfl hx
  refine decode_row (r := rows16[6]) h1 ?_ h3 ?_ hw
  · show rows16.find? _ = _
    simp only [rows16, List.find?, h2, Nat.reduceBEq, beq_self_eq_true]; rfl
  · show Instr.amoSwap (bits 6 x 20) (bits 6 x 14) (bits 6 x 8) (bits 3 x 2) (bits 2 x 0) = _
    rw [hb0, hb1, hb2, hb3, hb4]

theorem amoCas (d : BitVec 6) (a : BitVec 6) (b : BitVec 6) (s1 : BitVec 3) (o : BitVec 2) : Statement (.amoCas d a b s1 o) := by
  intro n x h hw
  have h : some (32, word 0x580000E0 [(d.toNat, 20), (a.toNat, 14), (b.toNat, 8), (s1.toNat, 2), (o.toNat, 0)]) = some (n, x) := h
  obtain ⟨rfl, hx⟩ := Prod.mk.injEq .. ▸ Option.some.inj h
  obtain ⟨h1, h2, h3, hb0, hb1, hb2, hb3, hb4⟩ := word_6at20_6at14_6at8_3at2_2at0_sel3at5 d a b s1 o (M := 22) (S := 7) (by omega) (by omega) rfl hx
  refine decode_row (r := rows16[7]) h1 ?_ h3 ?_ hw
  · show rows16.find? _ = _
    simp only [rows16, List.find?, h2, Nat.reduceBEq, beq_self_eq_true]; rfl
  · show Instr.amoCas (bits 6 x 20) (bits 6 x 14) (bits 6 x 8) (bits 3 x 2) (bits 2 x 0) = _
    rw [hb0, hb1, hb2, hb3, hb4]

theorem amofFaddF32 (d : BitVec 6) (a : BitVec 6) (b : BitVec 6) (s1 : BitVec 3) (o : BitVec 2) : Statement (.amofFaddF32 d a b s1 o) := by
  intro n x h hw
  have h : some (32, word 0x5C000000 [(d.toNat, 20), (a.toNat, 14), (b.toNat, 8), (s1.toNat, 2), (o.toNat, 0)]) = some (n, x) := h
  obtain ⟨rfl, hx⟩ := Prod.mk.injEq .. ▸ Option.some.inj h
  obtain ⟨h1, h2, h3, hb0, hb1, hb2, hb3, hb4⟩ := word_6at20_6at14_6at8_3at2_2at0_sel3at5 d a b s1 o (M := 23) (S := 0) (by omega) (by omega) rfl hx
  refine decode_row (r := rows17[0]) h1 ?_ h3 ?_ hw
  · show rows17.find? _ = _
    simp only [rows17, List.find?, h2, beq_self_eq_true]; rfl
  · show Instr.amofFaddF32 (bits 6 x 20) (bits 6 x 14) (bits 6 x 8) (bits 3 x 2) (bits 2 x 0) = _
    rw [hb0, hb1, hb2, hb3, hb4]

theorem amofFaddBf16x2 (d : BitVec 6) (a : BitVec 6) (b : BitVec 6) (s1 : BitVec 3) (o : BitVec 2) : Statement (.amofFaddBf16x2 d a b s1 o) := by
  intro n x h hw
  have h : some (32, word 0x5C000020 [(d.toNat, 20), (a.toNat, 14), (b.toNat, 8), (s1.toNat, 2), (o.toNat, 0)]) = some (n, x) := h
  obtain ⟨rfl, hx⟩ := Prod.mk.injEq .. ▸ Option.some.inj h
  obtain ⟨h1, h2, h3, hb0, hb1, hb2, hb3, hb4⟩ := word_6at20_6at14_6at8_3at2_2at0_sel3at5 d a b s1 o (M := 23) (S := 1) (by omega) (by omega) rfl hx
  refine decode_row (r := rows17[1]) h1 ?_ h3 ?_ hw
  · show rows17.find? _ = _
    simp only [rows17, List.find?, h2, Nat.reduceBEq, beq_self_eq_true]; rfl
  · show Instr.amofFaddBf16x2 (bits 6 x 20) (bits 6 x 14) (bits 6 x 8) (bits 3 x 2) (bits 2 x 0) = _
    rw [hb0, hb1, hb2, hb3, hb4]

theorem amofFminF32 (d : BitVec 6) (a : BitVec 6) (b : BitVec 6) (s1 : BitVec 3) (o : BitVec 2) : Statement (.amofFminF32 d a b s1 o) := by
  intro n x h hw
  have h : some (32, word 0x5C000040 [(d.toNat, 20), (a.toNat, 14), (b.toNat, 8), (s1.toNat, 2), (o.toNat, 0)]) = some (n, x) := h
  obtain ⟨rfl, hx⟩ := Prod.mk.injEq .. ▸ Option.some.inj h
  obtain ⟨h1, h2, h3, hb0, hb1, hb2, hb3, hb4⟩ := word_6at20_6at14_6at8_3at2_2at0_sel3at5 d a b s1 o (M := 23) (S := 2) (by omega) (by omega) rfl hx
  refine decode_row (r := rows17[2]) h1 ?_ h3 ?_ hw
  · show rows17.find? _ = _
    simp only [rows17, List.find?, h2, Nat.reduceBEq, beq_self_eq_true]; rfl
  · show Instr.amofFminF32 (bits 6 x 20) (bits 6 x 14) (bits 6 x 8) (bits 3 x 2) (bits 2 x 0) = _
    rw [hb0, hb1, hb2, hb3, hb4]

theorem amofFmaxF32 (d : BitVec 6) (a : BitVec 6) (b : BitVec 6) (s1 : BitVec 3) (o : BitVec 2) : Statement (.amofFmaxF32 d a b s1 o) := by
  intro n x h hw
  have h : some (32, word 0x5C000060 [(d.toNat, 20), (a.toNat, 14), (b.toNat, 8), (s1.toNat, 2), (o.toNat, 0)]) = some (n, x) := h
  obtain ⟨rfl, hx⟩ := Prod.mk.injEq .. ▸ Option.some.inj h
  obtain ⟨h1, h2, h3, hb0, hb1, hb2, hb3, hb4⟩ := word_6at20_6at14_6at8_3at2_2at0_sel3at5 d a b s1 o (M := 23) (S := 3) (by omega) (by omega) rfl hx
  refine decode_row (r := rows17[3]) h1 ?_ h3 ?_ hw
  · show rows17.find? _ = _
    simp only [rows17, List.find?, h2, Nat.reduceBEq, beq_self_eq_true]; rfl
  · show Instr.amofFmaxF32 (bits 6 x 20) (bits 6 x 14) (bits 6 x 8) (bits 3 x 2) (bits 2 x 0) = _
    rw [hb0, hb1, hb2, hb3, hb4]

theorem cmpEq (g : BitVec 3) (a : BitVec 6) (b : BitVec 6) (w : BitVec 1) : Statement (.cmpEq g a b w) := by
  intro n x h hw
  have h : some (32, word 0x60000000 [(g.toNat, 23), (a.toNat, 14), (b.toNat, 8), (w.toNat, 7)]) = some (n, x) := h
  obtain ⟨rfl, hx⟩ := Prod.mk.injEq .. ▸ Option.some.inj h
  obtain ⟨h1, h2, h3, hb0, hb1, hb2, hb3⟩ := word_3at23_6at14_6at8_1at7_sel3at20_zero7at0 g a b w (M := 24) (S := 0) (by omega) (by omega) rfl hx
  refine decode_row (r := rows18[0]) h1 ?_ h3 ?_ hw
  · show rows18.find? _ = _
    simp only [rows18, List.find?, h2, beq_self_eq_true]; rfl
  · show Instr.cmpEq (bits 3 x 23) (bits 6 x 14) (bits 6 x 8) (bits 1 x 7) = _
    rw [hb0, hb1, hb2, hb3]

theorem cmpNe (g : BitVec 3) (a : BitVec 6) (b : BitVec 6) (w : BitVec 1) : Statement (.cmpNe g a b w) := by
  intro n x h hw
  have h : some (32, word 0x60100000 [(g.toNat, 23), (a.toNat, 14), (b.toNat, 8), (w.toNat, 7)]) = some (n, x) := h
  obtain ⟨rfl, hx⟩ := Prod.mk.injEq .. ▸ Option.some.inj h
  obtain ⟨h1, h2, h3, hb0, hb1, hb2, hb3⟩ := word_3at23_6at14_6at8_1at7_sel3at20_zero7at0 g a b w (M := 24) (S := 1) (by omega) (by omega) rfl hx
  refine decode_row (r := rows18[1]) h1 ?_ h3 ?_ hw
  · show rows18.find? _ = _
    simp only [rows18, List.find?, h2, Nat.reduceBEq, beq_self_eq_true]; rfl
  · show Instr.cmpNe (bits 3 x 23) (bits 6 x 14) (bits 6 x 8) (bits 1 x 7) = _
    rw [hb0, hb1, hb2, hb3]

theorem cmpLt (g : BitVec 3) (a : BitVec 6) (b : BitVec 6) (w : BitVec 1) : Statement (.cmpLt g a b w) := by
  intro n x h hw
  have h : some (32, word 0x60200000 [(g.toNat, 23), (a.toNat, 14), (b.toNat, 8), (w.toNat, 7)]) = some (n, x) := h
  obtain ⟨rfl, hx⟩ := Prod.mk.injEq .. ▸ Option.some.inj h
  obtain ⟨h1, h2, h3, hb0, hb1, hb2, hb3⟩ := word_3at23_6at14_6at8_1at7_sel3at20_zero7at0 g a b w (M := 24) (S := 2) (by omega) (by omega) rfl hx
  refine decode_row (r := rows18[2]) h1 ?_ h3 ?_ hw
  · show rows18.find? _ = _
    simp only [rows18, List.find?, h2, Nat.reduceBEq, beq_self_eq_true]; rfl
  · show Instr.cmpLt (bits 3 x 23) (bits 6 x 14) (bits 6 x 8) (bits 1 x 7) = _
    rw [hb0, hb1, hb2, hb3]

theorem cmpGe (g : BitVec 3) (a : BitVec 6) (b : BitVec 6) (w : BitVec 1) : Statement (.cmpGe g a b w) := by
  intro n x h hw
  have h : some (32, word 0x60300000 [(g.toNat, 23), (a.toNat, 14), (b.toNat, 8), (w.toNat, 7)]) = some (n, x) := h
  obtain ⟨rfl, hx⟩ := Prod.mk.injEq .. ▸ Option.some.inj h
  obtain ⟨h1, h2, h3, hb0, hb1, hb2, hb3⟩ := word_3at23_6at14_6at8_1at7_sel3at20_zero7at0 g a b w (M := 24) (S := 3) (by omega) (by omega) rfl hx
  refine decode_row (r := rows18[3]) h1 ?_ h3 ?_ hw
  · show rows18.find? _ = _
    simp only [rows18, List.find?, h2, Nat.reduceBEq, beq_self_eq_true]; rfl
  · show Instr.cmpGe (bits 3 x 23) (bits 6 x 14) (bits 6 x 8) (bits 1 x 7) = _
    rw [hb0, hb1, hb2, hb3]

theorem cmpLtu (g : BitVec 3) (a : BitVec 6) (b : BitVec 6) (w : BitVec 1) : Statement (.cmpLtu g a b w) := by
  intro n x h hw
  have h : some (32, word 0x60400000 [(g.toNat, 23), (a.toNat, 14), (b.toNat, 8), (w.toNat, 7)]) = some (n, x) := h
  obtain ⟨rfl, hx⟩ := Prod.mk.injEq .. ▸ Option.some.inj h
  obtain ⟨h1, h2, h3, hb0, hb1, hb2, hb3⟩ := word_3at23_6at14_6at8_1at7_sel3at20_zero7at0 g a b w (M := 24) (S := 4) (by omega) (by omega) rfl hx
  refine decode_row (r := rows18[4]) h1 ?_ h3 ?_ hw
  · show rows18.find? _ = _
    simp only [rows18, List.find?, h2, Nat.reduceBEq, beq_self_eq_true]; rfl
  · show Instr.cmpLtu (bits 3 x 23) (bits 6 x 14) (bits 6 x 8) (bits 1 x 7) = _
    rw [hb0, hb1, hb2, hb3]

theorem cmpGeu (g : BitVec 3) (a : BitVec 6) (b : BitVec 6) (w : BitVec 1) : Statement (.cmpGeu g a b w) := by
  intro n x h hw
  have h : some (32, word 0x60500000 [(g.toNat, 23), (a.toNat, 14), (b.toNat, 8), (w.toNat, 7)]) = some (n, x) := h
  obtain ⟨rfl, hx⟩ := Prod.mk.injEq .. ▸ Option.some.inj h
  obtain ⟨h1, h2, h3, hb0, hb1, hb2, hb3⟩ := word_3at23_6at14_6at8_1at7_sel3at20_zero7at0 g a b w (M := 24) (S := 5) (by omega) (by omega) rfl hx
  refine decode_row (r := rows18[5]) h1 ?_ h3 ?_ hw
  · show rows18.find? _ = _
    simp only [rows18, List.find?, h2, Nat.reduceBEq, beq_self_eq_true]; rfl
  · show Instr.cmpGeu (bits 3 x 23) (bits 6 x 14) (bits 6 x 8) (bits 1 x 7) = _
    rw [hb0, hb1, hb2, hb3]

theorem cmpTst (g : BitVec 3) (a : BitVec 6) (b : BitVec 6) (w : BitVec 1) : Statement (.cmpTst g a b w) := by
  intro n x h hw
  have h : some (32, word 0x60600000 [(g.toNat, 23), (a.toNat, 14), (b.toNat, 8), (w.toNat, 7)]) = some (n, x) := h
  obtain ⟨rfl, hx⟩ := Prod.mk.injEq .. ▸ Option.some.inj h
  obtain ⟨h1, h2, h3, hb0, hb1, hb2, hb3⟩ := word_3at23_6at14_6at8_1at7_sel3at20_zero7at0 g a b w (M := 24) (S := 6) (by omega) (by omega) rfl hx
  refine decode_row (r := rows18[6]) h1 ?_ h3 ?_ hw
  · show rows18.find? _ = _
    simp only [rows18, List.find?, h2, Nat.reduceBEq, beq_self_eq_true]; rfl
  · show Instr.cmpTst (bits 3 x 23) (bits 6 x 14) (bits 6 x 8) (bits 1 x 7) = _
    rw [hb0, hb1, hb2, hb3]

theorem cmpNtst (g : BitVec 3) (a : BitVec 6) (b : BitVec 6) (w : BitVec 1) : Statement (.cmpNtst g a b w) := by
  intro n x h hw
  have h : some (32, word 0x60700000 [(g.toNat, 23), (a.toNat, 14), (b.toNat, 8), (w.toNat, 7)]) = some (n, x) := h
  obtain ⟨rfl, hx⟩ := Prod.mk.injEq .. ▸ Option.some.inj h
  obtain ⟨h1, h2, h3, hb0, hb1, hb2, hb3⟩ := word_3at23_6at14_6at8_1at7_sel3at20_zero7at0 g a b w (M := 24) (S := 7) (by omega) (by omega) rfl hx
  refine decode_row (r := rows18[7]) h1 ?_ h3 ?_ hw
  · show rows18.find? _ = _
    simp only [rows18, List.find?, h2, Nat.reduceBEq, beq_self_eq_true]; rfl
  · show Instr.cmpNtst (bits 3 x 23) (bits 6 x 14) (bits 6 x 8) (bits 1 x 7) = _
    rw [hb0, hb1, hb2, hb3]

theorem cmpiEq (g : BitVec 3) (a : BitVec 6) (im : BitVec 14) : Statement (.cmpiEq g a im) := by
  intro n x h hw
  have h : some (32, word 0x64000000 [(g.toNat, 23), (a.toNat, 14), (im.toNat, 0)]) = some (n, x) := h
  obtain ⟨rfl, hx⟩ := Prod.mk.injEq .. ▸ Option.some.inj h
  obtain ⟨h1, h2, h3, hb0, hb1, hb2⟩ := word_3at23_6at14_14at0_sel3at20 g a im (M := 25) (S := 0) (by omega) (by omega) rfl hx
  refine decode_row (r := rows19[0]) h1 ?_ h3 ?_ hw
  · show rows19.find? _ = _
    simp only [rows19, List.find?, h2, beq_self_eq_true]; rfl
  · show Instr.cmpiEq (bits 3 x 23) (bits 6 x 14) (bits 14 x 0) = _
    rw [hb0, hb1, hb2]

theorem cmpiNe (g : BitVec 3) (a : BitVec 6) (im : BitVec 14) : Statement (.cmpiNe g a im) := by
  intro n x h hw
  have h : some (32, word 0x64100000 [(g.toNat, 23), (a.toNat, 14), (im.toNat, 0)]) = some (n, x) := h
  obtain ⟨rfl, hx⟩ := Prod.mk.injEq .. ▸ Option.some.inj h
  obtain ⟨h1, h2, h3, hb0, hb1, hb2⟩ := word_3at23_6at14_14at0_sel3at20 g a im (M := 25) (S := 1) (by omega) (by omega) rfl hx
  refine decode_row (r := rows19[1]) h1 ?_ h3 ?_ hw
  · show rows19.find? _ = _
    simp only [rows19, List.find?, h2, Nat.reduceBEq, beq_self_eq_true]; rfl
  · show Instr.cmpiNe (bits 3 x 23) (bits 6 x 14) (bits 14 x 0) = _
    rw [hb0, hb1, hb2]

theorem cmpiLt (g : BitVec 3) (a : BitVec 6) (im : BitVec 14) : Statement (.cmpiLt g a im) := by
  intro n x h hw
  have h : some (32, word 0x64200000 [(g.toNat, 23), (a.toNat, 14), (im.toNat, 0)]) = some (n, x) := h
  obtain ⟨rfl, hx⟩ := Prod.mk.injEq .. ▸ Option.some.inj h
  obtain ⟨h1, h2, h3, hb0, hb1, hb2⟩ := word_3at23_6at14_14at0_sel3at20 g a im (M := 25) (S := 2) (by omega) (by omega) rfl hx
  refine decode_row (r := rows19[2]) h1 ?_ h3 ?_ hw
  · show rows19.find? _ = _
    simp only [rows19, List.find?, h2, Nat.reduceBEq, beq_self_eq_true]; rfl
  · show Instr.cmpiLt (bits 3 x 23) (bits 6 x 14) (bits 14 x 0) = _
    rw [hb0, hb1, hb2]

theorem cmpiGe (g : BitVec 3) (a : BitVec 6) (im : BitVec 14) : Statement (.cmpiGe g a im) := by
  intro n x h hw
  have h : some (32, word 0x64300000 [(g.toNat, 23), (a.toNat, 14), (im.toNat, 0)]) = some (n, x) := h
  obtain ⟨rfl, hx⟩ := Prod.mk.injEq .. ▸ Option.some.inj h
  obtain ⟨h1, h2, h3, hb0, hb1, hb2⟩ := word_3at23_6at14_14at0_sel3at20 g a im (M := 25) (S := 3) (by omega) (by omega) rfl hx
  refine decode_row (r := rows19[3]) h1 ?_ h3 ?_ hw
  · show rows19.find? _ = _
    simp only [rows19, List.find?, h2, Nat.reduceBEq, beq_self_eq_true]; rfl
  · show Instr.cmpiGe (bits 3 x 23) (bits 6 x 14) (bits 14 x 0) = _
    rw [hb0, hb1, hb2]

theorem cmpiLtu (g : BitVec 3) (a : BitVec 6) (im : BitVec 14) : Statement (.cmpiLtu g a im) := by
  intro n x h hw
  have h : some (32, word 0x64400000 [(g.toNat, 23), (a.toNat, 14), (im.toNat, 0)]) = some (n, x) := h
  obtain ⟨rfl, hx⟩ := Prod.mk.injEq .. ▸ Option.some.inj h
  obtain ⟨h1, h2, h3, hb0, hb1, hb2⟩ := word_3at23_6at14_14at0_sel3at20 g a im (M := 25) (S := 4) (by omega) (by omega) rfl hx
  refine decode_row (r := rows19[4]) h1 ?_ h3 ?_ hw
  · show rows19.find? _ = _
    simp only [rows19, List.find?, h2, Nat.reduceBEq, beq_self_eq_true]; rfl
  · show Instr.cmpiLtu (bits 3 x 23) (bits 6 x 14) (bits 14 x 0) = _
    rw [hb0, hb1, hb2]

theorem cmpiGeu (g : BitVec 3) (a : BitVec 6) (im : BitVec 14) : Statement (.cmpiGeu g a im) := by
  intro n x h hw
  have h : some (32, word 0x64500000 [(g.toNat, 23), (a.toNat, 14), (im.toNat, 0)]) = some (n, x) := h
  obtain ⟨rfl, hx⟩ := Prod.mk.injEq .. ▸ Option.some.inj h
  obtain ⟨h1, h2, h3, hb0, hb1, hb2⟩ := word_3at23_6at14_14at0_sel3at20 g a im (M := 25) (S := 5) (by omega) (by omega) rfl hx
  refine decode_row (r := rows19[5]) h1 ?_ h3 ?_ hw
  · show rows19.find? _ = _
    simp only [rows19, List.find?, h2, Nat.reduceBEq, beq_self_eq_true]; rfl
  · show Instr.cmpiGeu (bits 3 x 23) (bits 6 x 14) (bits 14 x 0) = _
    rw [hb0, hb1, hb2]

theorem cmpiTst (g : BitVec 3) (a : BitVec 6) (im : BitVec 14) : Statement (.cmpiTst g a im) := by
  intro n x h hw
  have h : some (32, word 0x64600000 [(g.toNat, 23), (a.toNat, 14), (im.toNat, 0)]) = some (n, x) := h
  obtain ⟨rfl, hx⟩ := Prod.mk.injEq .. ▸ Option.some.inj h
  obtain ⟨h1, h2, h3, hb0, hb1, hb2⟩ := word_3at23_6at14_14at0_sel3at20 g a im (M := 25) (S := 6) (by omega) (by omega) rfl hx
  refine decode_row (r := rows19[6]) h1 ?_ h3 ?_ hw
  · show rows19.find? _ = _
    simp only [rows19, List.find?, h2, Nat.reduceBEq, beq_self_eq_true]; rfl
  · show Instr.cmpiTst (bits 3 x 23) (bits 6 x 14) (bits 14 x 0) = _
    rw [hb0, hb1, hb2]

theorem cmpiNtst (g : BitVec 3) (a : BitVec 6) (im : BitVec 14) : Statement (.cmpiNtst g a im) := by
  intro n x h hw
  have h : some (32, word 0x64700000 [(g.toNat, 23), (a.toNat, 14), (im.toNat, 0)]) = some (n, x) := h
  obtain ⟨rfl, hx⟩ := Prod.mk.injEq .. ▸ Option.some.inj h
  obtain ⟨h1, h2, h3, hb0, hb1, hb2⟩ := word_3at23_6at14_14at0_sel3at20 g a im (M := 25) (S := 7) (by omega) (by omega) rfl hx
  refine decode_row (r := rows19[7]) h1 ?_ h3 ?_ hw
  · show rows19.find? _ = _
    simp only [rows19, List.find?, h2, Nat.reduceBEq, beq_self_eq_true]; rfl
  · show Instr.cmpiNtst (bits 3 x 23) (bits 6 x 14) (bits 14 x 0) = _
    rw [hb0, hb1, hb2]

theorem gopAnd (g : BitVec 3) (x1 : BitVec 4) (y : BitVec 4) : Statement (.gopAnd g x1 y) := by
  intro n x h hw
  have h : some (32, word 0x68000000 [(g.toNat, 23), (x1.toNat, 14), (y.toNat, 8)]) = some (n, x) := h
  obtain ⟨rfl, hx⟩ := Prod.mk.injEq .. ▸ Option.some.inj h
  obtain ⟨h1, h2, h3, hb0, hb1, hb2⟩ := word_3at23_4at14_4at8_sel3at20_zero8at0_2at12_2at18 g x1 y (M := 26) (S := 0) (by omega) (by omega) rfl hx
  refine decode_row (r := rows1A[0]) h1 ?_ h3 ?_ hw
  · show rows1A.find? _ = _
    simp only [rows1A, List.find?, h2, beq_self_eq_true]; rfl
  · show Instr.gopAnd (bits 3 x 23) (bits 4 x 14) (bits 4 x 8) = _
    rw [hb0, hb1, hb2]

theorem gopOr (g : BitVec 3) (x1 : BitVec 4) (y : BitVec 4) : Statement (.gopOr g x1 y) := by
  intro n x h hw
  have h : some (32, word 0x68100000 [(g.toNat, 23), (x1.toNat, 14), (y.toNat, 8)]) = some (n, x) := h
  obtain ⟨rfl, hx⟩ := Prod.mk.injEq .. ▸ Option.some.inj h
  obtain ⟨h1, h2, h3, hb0, hb1, hb2⟩ := word_3at23_4at14_4at8_sel3at20_zero8at0_2at12_2at18 g x1 y (M := 26) (S := 1) (by omega) (by omega) rfl hx
  refine decode_row (r := rows1A[1]) h1 ?_ h3 ?_ hw
  · show rows1A.find? _ = _
    simp only [rows1A, List.find?, h2, Nat.reduceBEq, beq_self_eq_true]; rfl
  · show Instr.gopOr (bits 3 x 23) (bits 4 x 14) (bits 4 x 8) = _
    rw [hb0, hb1, hb2]

theorem gopXor (g : BitVec 3) (x1 : BitVec 4) (y : BitVec 4) : Statement (.gopXor g x1 y) := by
  intro n x h hw
  have h : some (32, word 0x68200000 [(g.toNat, 23), (x1.toNat, 14), (y.toNat, 8)]) = some (n, x) := h
  obtain ⟨rfl, hx⟩ := Prod.mk.injEq .. ▸ Option.some.inj h
  obtain ⟨h1, h2, h3, hb0, hb1, hb2⟩ := word_3at23_4at14_4at8_sel3at20_zero8at0_2at12_2at18 g x1 y (M := 26) (S := 2) (by omega) (by omega) rfl hx
  refine decode_row (r := rows1A[2]) h1 ?_ h3 ?_ hw
  · show rows1A.find? _ = _
    simp only [rows1A, List.find?, h2, Nat.reduceBEq, beq_self_eq_true]; rfl
  · show Instr.gopXor (bits 3 x 23) (bits 4 x 14) (bits 4 x 8) = _
    rw [hb0, hb1, hb2]

theorem gopAndn (g : BitVec 3) (x1 : BitVec 4) (y : BitVec 4) : Statement (.gopAndn g x1 y) := by
  intro n x h hw
  have h : some (32, word 0x68300000 [(g.toNat, 23), (x1.toNat, 14), (y.toNat, 8)]) = some (n, x) := h
  obtain ⟨rfl, hx⟩ := Prod.mk.injEq .. ▸ Option.some.inj h
  obtain ⟨h1, h2, h3, hb0, hb1, hb2⟩ := word_3at23_4at14_4at8_sel3at20_zero8at0_2at12_2at18 g x1 y (M := 26) (S := 3) (by omega) (by omega) rfl hx
  refine decode_row (r := rows1A[3]) h1 ?_ h3 ?_ hw
  · show rows1A.find? _ = _
    simp only [rows1A, List.find?, h2, Nat.reduceBEq, beq_self_eq_true]; rfl
  · show Instr.gopAndn (bits 3 x 23) (bits 4 x 14) (bits 4 x 8) = _
    rw [hb0, hb1, hb2]

theorem fcmpFeq (g : BitVec 3) (a : BitVec 6) (b : BitVec 6) (w : BitVec 1) : Statement (.fcmpFeq g a b w) := by
  intro n x h hw
  have h : some (32, word 0x6C000000 [(g.toNat, 23), (a.toNat, 14), (b.toNat, 8), (w.toNat, 7)]) = some (n, x) := h
  obtain ⟨rfl, hx⟩ := Prod.mk.injEq .. ▸ Option.some.inj h
  obtain ⟨h1, h2, h3, hb0, hb1, hb2, hb3⟩ := word_3at23_6at14_6at8_1at7_sel3at20_zero7at0 g a b w (M := 27) (S := 0) (by omega) (by omega) rfl hx
  refine decode_row (r := rows1B[0]) h1 ?_ h3 ?_ hw
  · show rows1B.find? _ = _
    simp only [rows1B, List.find?, h2, beq_self_eq_true]; rfl
  · show Instr.fcmpFeq (bits 3 x 23) (bits 6 x 14) (bits 6 x 8) (bits 1 x 7) = _
    rw [hb0, hb1, hb2, hb3]

theorem fcmpFlt (g : BitVec 3) (a : BitVec 6) (b : BitVec 6) (w : BitVec 1) : Statement (.fcmpFlt g a b w) := by
  intro n x h hw
  have h : some (32, word 0x6C100000 [(g.toNat, 23), (a.toNat, 14), (b.toNat, 8), (w.toNat, 7)]) = some (n, x) := h
  obtain ⟨rfl, hx⟩ := Prod.mk.injEq .. ▸ Option.some.inj h
  obtain ⟨h1, h2, h3, hb0, hb1, hb2, hb3⟩ := word_3at23_6at14_6at8_1at7_sel3at20_zero7at0 g a b w (M := 27) (S := 1) (by omega) (by omega) rfl hx
  refine decode_row (r := rows1B[1]) h1 ?_ h3 ?_ hw
  · show rows1B.find? _ = _
    simp only [rows1B, List.find?, h2, Nat.reduceBEq, beq_self_eq_true]; rfl
  · show Instr.fcmpFlt (bits 3 x 23) (bits 6 x 14) (bits 6 x 8) (bits 1 x 7) = _
    rw [hb0, hb1, hb2, hb3]

theorem fcmpFle (g : BitVec 3) (a : BitVec 6) (b : BitVec 6) (w : BitVec 1) : Statement (.fcmpFle g a b w) := by
  intro n x h hw
  have h : some (32, word 0x6C200000 [(g.toNat, 23), (a.toNat, 14), (b.toNat, 8), (w.toNat, 7)]) = some (n, x) := h
  obtain ⟨rfl, hx⟩ := Prod.mk.injEq .. ▸ Option.some.inj h
  obtain ⟨h1, h2, h3, hb0, hb1, hb2, hb3⟩ := word_3at23_6at14_6at8_1at7_sel3at20_zero7at0 g a b w (M := 27) (S := 2) (by omega) (by omega) rfl hx
  refine decode_row (r := rows1B[2]) h1 ?_ h3 ?_ hw
  · show rows1B.find? _ = _
    simp only [rows1B, List.find?, h2, Nat.reduceBEq, beq_self_eq_true]; rfl
  · show Instr.fcmpFle (bits 3 x 23) (bits 6 x 14) (bits 6 x 8) (bits 1 x 7) = _
    rw [hb0, hb1, hb2, hb3]

theorem fcmpFun (g : BitVec 3) (a : BitVec 6) (b : BitVec 6) (w : BitVec 1) : Statement (.fcmpFun g a b w) := by
  intro n x h hw
  have h : some (32, word 0x6C300000 [(g.toNat, 23), (a.toNat, 14), (b.toNat, 8), (w.toNat, 7)]) = some (n, x) := h
  obtain ⟨rfl, hx⟩ := Prod.mk.injEq .. ▸ Option.some.inj h
  obtain ⟨h1, h2, h3, hb0, hb1, hb2, hb3⟩ := word_3at23_6at14_6at8_1at7_sel3at20_zero7at0 g a b w (M := 27) (S := 3) (by omega) (by omega) rfl hx
  refine decode_row (r := rows1B[3]) h1 ?_ h3 ?_ hw
  · show rows1B.find? _ = _
    simp only [rows1B, List.find?, h2, Nat.reduceBEq, beq_self_eq_true]; rfl
  · show Instr.fcmpFun (bits 3 x 23) (bits 6 x 14) (bits 6 x 8) (bits 1 x 7) = _
    rw [hb0, hb1, hb2, hb3]

theorem pbr (t : BitVec 2) (o : BitVec 24) : Statement (.pbr t o) := by
  intro n x h hw
  have h : some (32, word 0x80000000 [(t.toNat, 24), (o.toNat, 0)]) = some (n, x) := h
  obtain ⟨rfl, hx⟩ := Prod.mk.injEq .. ▸ Option.some.inj h
  obtain ⟨h1, h2, h3, hb0, hb1⟩ := word_2at24_24at0 t o (M := 32) (S := 0) (by omega) (by omega) rfl hx
  refine decode_row (r := rows20[0]) h1 ?_ h3 ?_ hw
  · show rows20.find? _ = _
    simp only [rows20, List.find?, h2, beq_self_eq_true]; rfl
  · show Instr.pbr (bits 2 x 24) (bits 24 x 0) = _
    rw [hb0, hb1]

theorem br (t : BitVec 2) (g : BitVec 4) : Statement (.br t g) := by
  intro n x h hw
  have h : some (32, word 0x84000000 [(t.toNat, 24), (g.toNat, 20)]) = some (n, x) := h
  obtain ⟨rfl, hx⟩ := Prod.mk.injEq .. ▸ Option.some.inj h
  obtain ⟨h1, h2, h3, hb0, hb1⟩ := word_2at24_4at20_zero20at0 t g (M := 33) (S := 0) (by omega) (by omega) rfl hx
  refine decode_row (r := rows21[0]) h1 ?_ h3 ?_ hw
  · show rows21.find? _ = _
    simp only [rows21, List.find?, h2, beq_self_eq_true]; rfl
  · show Instr.br (bits 2 x 24) (bits 4 x 20) = _
    rw [hb0, hb1]

theorem brl (t : BitVec 2) (g : BitVec 4) : Statement (.brl t g) := by
  intro n x h hw
  have h : some (32, word 0x88000000 [(t.toNat, 24), (g.toNat, 20)]) = some (n, x) := h
  obtain ⟨rfl, hx⟩ := Prod.mk.injEq .. ▸ Option.some.inj h
  obtain ⟨h1, h2, h3, hb0, hb1⟩ := word_2at24_4at20_zero20at0 t g (M := 34) (S := 0) (by omega) (by omega) rfl hx
  refine decode_row (r := rows22[0]) h1 ?_ h3 ?_ hw
  · show rows22.find? _ = _
    simp only [rows22, List.find?, h2, beq_self_eq_true]; rfl
  · show Instr.brl (bits 2 x 24) (bits 4 x 20) = _
    rw [hb0, hb1]

theorem mtbt (t : BitVec 2) (a : BitVec 6) : Statement (.mtbt t a) := by
  intro n x h hw
  have h : some (32, word 0x8C000000 [(t.toNat, 24), (a.toNat, 14)]) = some (n, x) := h
  obtain ⟨rfl, hx⟩ := Prod.mk.injEq .. ▸ Option.some.inj h
  obtain ⟨h1, h2, h3, hb0, hb1⟩ := word_2at24_6at14_zero14at0_4at20 t a (M := 35) (S := 0) (by omega) (by omega) rfl hx
  refine decode_row (r := rows23[0]) h1 ?_ h3 ?_ hw
  · show rows23.find? _ = _
    simp only [rows23, List.find?, h2, beq_self_eq_true]; rfl
  · show Instr.mtbt (bits 2 x 24) (bits 6 x 14) = _
    rw [hb0, hb1]

theorem loop (t : BitVec 2) (c : BitVec 2) : Statement (.loop t c) := by
  intro n x h hw
  have h : some (32, word 0x94000000 [(t.toNat, 24), (c.toNat, 22)]) = some (n, x) := h
  obtain ⟨rfl, hx⟩ := Prod.mk.injEq .. ▸ Option.some.inj h
  obtain ⟨h1, h2, h3, hb0, hb1⟩ := word_2at24_2at22_sel2at20_zero20at0 t c (M := 37) (S := 0) (by omega) (by omega) rfl hx
  refine decode_row (r := rows25[0]) h1 ?_ h3 ?_ hw
  · show rows25.find? _ = _
    simp only [rows25, List.find?, h2, beq_self_eq_true]; rfl
  · show Instr.loop (bits 2 x 24) (bits 2 x 22) = _
    rw [hb0, hb1]

theorem lset (c : BitVec 2) (a : BitVec 6) : Statement (.lset c a) := by
  intro n x h hw
  have h : some (32, word 0x94100000 [(c.toNat, 22), (a.toNat, 14)]) = some (n, x) := h
  obtain ⟨rfl, hx⟩ := Prod.mk.injEq .. ▸ Option.some.inj h
  obtain ⟨h1, h2, h3, hb0, hb1⟩ := word_2at22_6at14_sel2at20_zero14at0_2at24 c a (M := 37) (S := 1) (by omega) (by omega) rfl hx
  refine decode_row (r := rows25[1]) h1 ?_ h3 ?_ hw
  · show rows25.find? _ = _
    simp only [rows25, List.find?, h2, Nat.reduceBEq, beq_self_eq_true]; rfl
  · show Instr.lset (bits 2 x 22) (bits 6 x 14) = _
    rw [hb0, hb1]

theorem trap (c : BitVec 14) : Statement (.trap c) := by
  intro n x h hw
  have h : some (32, word 0x98000000 [(c.toNat, 0)]) = some (n, x) := h
  obtain ⟨rfl, hx⟩ := Prod.mk.injEq .. ▸ Option.some.inj h
  obtain ⟨h1, h2, h3, hb0⟩ := word_14at0_zero12at14 c (M := 38) (S := 0) (by omega) (by omega) rfl hx
  refine decode_row (r := rows26[0]) h1 ?_ h3 ?_ hw
  · show rows26.find? _ = _
    simp only [rows26, List.find?, h2, beq_self_eq_true]; rfl
  · show Instr.trap (bits 14 x 0) = _
    rw [hb0]

theorem fadd (d : BitVec 6) (a : BitVec 6) (b : BitVec 6) (r : BitVec 3) (x1 : BitVec 1) : Statement (.fadd d a b r x1) := by
  intro n x h hw
  have h : some (32, word 0xA0000000 [(d.toNat, 20), (a.toNat, 14), (b.toNat, 8), (r.toNat, 5), (x1.toNat, 4)]) = some (n, x) := h
  obtain ⟨rfl, hx⟩ := Prod.mk.injEq .. ▸ Option.some.inj h
  obtain ⟨h1, h2, h3, hb0, hb1, hb2, hb3, hb4⟩ := word_6at20_6at14_6at8_3at5_1at4_sel4at0 d a b r x1 (M := 40) (S := 0) (by omega) (by omega) rfl hx
  refine decode_row (r := rows28[0]) h1 ?_ h3 ?_ hw
  · show rows28.find? _ = _
    simp only [rows28, List.find?, h2, beq_self_eq_true]; rfl
  · show Instr.fadd (bits 6 x 20) (bits 6 x 14) (bits 6 x 8) (bits 3 x 5) (bits 1 x 4) = _
    rw [hb0, hb1, hb2, hb3, hb4]

theorem fsub (d : BitVec 6) (a : BitVec 6) (b : BitVec 6) (r : BitVec 3) (x1 : BitVec 1) : Statement (.fsub d a b r x1) := by
  intro n x h hw
  have h : some (32, word 0xA0000001 [(d.toNat, 20), (a.toNat, 14), (b.toNat, 8), (r.toNat, 5), (x1.toNat, 4)]) = some (n, x) := h
  obtain ⟨rfl, hx⟩ := Prod.mk.injEq .. ▸ Option.some.inj h
  obtain ⟨h1, h2, h3, hb0, hb1, hb2, hb3, hb4⟩ := word_6at20_6at14_6at8_3at5_1at4_sel4at0 d a b r x1 (M := 40) (S := 1) (by omega) (by omega) rfl hx
  refine decode_row (r := rows28[1]) h1 ?_ h3 ?_ hw
  · show rows28.find? _ = _
    simp only [rows28, List.find?, h2, Nat.reduceBEq, beq_self_eq_true]; rfl
  · show Instr.fsub (bits 6 x 20) (bits 6 x 14) (bits 6 x 8) (bits 3 x 5) (bits 1 x 4) = _
    rw [hb0, hb1, hb2, hb3, hb4]

theorem fmul (d : BitVec 6) (a : BitVec 6) (b : BitVec 6) (r : BitVec 3) (x1 : BitVec 1) : Statement (.fmul d a b r x1) := by
  intro n x h hw
  have h : some (32, word 0xA0000002 [(d.toNat, 20), (a.toNat, 14), (b.toNat, 8), (r.toNat, 5), (x1.toNat, 4)]) = some (n, x) := h
  obtain ⟨rfl, hx⟩ := Prod.mk.injEq .. ▸ Option.some.inj h
  obtain ⟨h1, h2, h3, hb0, hb1, hb2, hb3, hb4⟩ := word_6at20_6at14_6at8_3at5_1at4_sel4at0 d a b r x1 (M := 40) (S := 2) (by omega) (by omega) rfl hx
  refine decode_row (r := rows28[2]) h1 ?_ h3 ?_ hw
  · show rows28.find? _ = _
    simp only [rows28, List.find?, h2, Nat.reduceBEq, beq_self_eq_true]; rfl
  · show Instr.fmul (bits 6 x 20) (bits 6 x 14) (bits 6 x 8) (bits 3 x 5) (bits 1 x 4) = _
    rw [hb0, hb1, hb2, hb3, hb4]

theorem fdiv (d : BitVec 6) (a : BitVec 6) (b : BitVec 6) (r : BitVec 3) (x1 : BitVec 1) : Statement (.fdiv d a b r x1) := by
  intro n x h hw
  have h : some (32, word 0xA0000003 [(d.toNat, 20), (a.toNat, 14), (b.toNat, 8), (r.toNat, 5), (x1.toNat, 4)]) = some (n, x) := h
  obtain ⟨rfl, hx⟩ := Prod.mk.injEq .. ▸ Option.some.inj h
  obtain ⟨h1, h2, h3, hb0, hb1, hb2, hb3, hb4⟩ := word_6at20_6at14_6at8_3at5_1at4_sel4at0 d a b r x1 (M := 40) (S := 3) (by omega) (by omega) rfl hx
  refine decode_row (r := rows28[3]) h1 ?_ h3 ?_ hw
  · show rows28.find? _ = _
    simp only [rows28, List.find?, h2, Nat.reduceBEq, beq_self_eq_true]; rfl
  · show Instr.fdiv (bits 6 x 20) (bits 6 x 14) (bits 6 x 8) (bits 3 x 5) (bits 1 x 4) = _
    rw [hb0, hb1, hb2, hb3, hb4]

theorem fsqrt (d : BitVec 6) (a : BitVec 6) (r : BitVec 3) (x1 : BitVec 1) : Statement (.fsqrt d a r x1) := by
  intro n x h hw
  have h : some (32, word 0xA0000004 [(d.toNat, 20), (a.toNat, 14), (r.toNat, 5), (x1.toNat, 4)]) = some (n, x) := h
  obtain ⟨rfl, hx⟩ := Prod.mk.injEq .. ▸ Option.some.inj h
  obtain ⟨h1, h2, h3, hb0, hb1, hb2, hb3⟩ := word_6at20_6at14_3at5_1at4_sel4at0_zero6at8 d a r x1 (M := 40) (S := 4) (by omega) (by omega) rfl hx
  refine decode_row (r := rows28[4]) h1 ?_ h3 ?_ hw
  · show rows28.find? _ = _
    simp only [rows28, List.find?, h2, Nat.reduceBEq, beq_self_eq_true]; rfl
  · show Instr.fsqrt (bits 6 x 20) (bits 6 x 14) (bits 3 x 5) (bits 1 x 4) = _
    rw [hb0, hb1, hb2, hb3]

theorem fmin (d : BitVec 6) (a : BitVec 6) (b : BitVec 6) (x1 : BitVec 1) : Statement (.fmin d a b x1) := by
  intro n x h hw
  have h : some (32, word 0xA0000005 [(d.toNat, 20), (a.toNat, 14), (b.toNat, 8), (x1.toNat, 4)]) = some (n, x) := h
  obtain ⟨rfl, hx⟩ := Prod.mk.injEq .. ▸ Option.some.inj h
  obtain ⟨h1, h2, h3, hb0, hb1, hb2, hb3⟩ := word_6at20_6at14_6at8_1at4_sel4at0_zero3at5 d a b x1 (M := 40) (S := 5) (by omega) (by omega) rfl hx
  refine decode_row (r := rows28[5]) h1 ?_ h3 ?_ hw
  · show rows28.find? _ = _
    simp only [rows28, List.find?, h2, Nat.reduceBEq, beq_self_eq_true]; rfl
  · show Instr.fmin (bits 6 x 20) (bits 6 x 14) (bits 6 x 8) (bits 1 x 4) = _
    rw [hb0, hb1, hb2, hb3]

theorem fmax (d : BitVec 6) (a : BitVec 6) (b : BitVec 6) (x1 : BitVec 1) : Statement (.fmax d a b x1) := by
  intro n x h hw
  have h : some (32, word 0xA0000006 [(d.toNat, 20), (a.toNat, 14), (b.toNat, 8), (x1.toNat, 4)]) = some (n, x) := h
  obtain ⟨rfl, hx⟩ := Prod.mk.injEq .. ▸ Option.some.inj h
  obtain ⟨h1, h2, h3, hb0, hb1, hb2, hb3⟩ := word_6at20_6at14_6at8_1at4_sel4at0_zero3at5 d a b x1 (M := 40) (S := 6) (by omega) (by omega) rfl hx
  refine decode_row (r := rows28[6]) h1 ?_ h3 ?_ hw
  · show rows28.find? _ = _
    simp only [rows28, List.find?, h2, Nat.reduceBEq, beq_self_eq_true]; rfl
  · show Instr.fmax (bits 6 x 20) (bits 6 x 14) (bits 6 x 8) (bits 1 x 4) = _
    rw [hb0, hb1, hb2, hb3]

theorem fabs (d : BitVec 6) (a : BitVec 6) (x1 : BitVec 1) : Statement (.fabs d a x1) := by
  intro n x h hw
  have h : some (32, word 0xA0000007 [(d.toNat, 20), (a.toNat, 14), (x1.toNat, 4)]) = some (n, x) := h
  obtain ⟨rfl, hx⟩ := Prod.mk.injEq .. ▸ Option.some.inj h
  obtain ⟨h1, h2, h3, hb0, hb1, hb2⟩ := word_6at20_6at14_1at4_sel4at0_zero9at5 d a x1 (M := 40) (S := 7) (by omega) (by omega) rfl hx
  refine decode_row (r := rows28[7]) h1 ?_ h3 ?_ hw
  · show rows28.find? _ = _
    simp only [rows28, List.find?, h2, Nat.reduceBEq, beq_self_eq_true]; rfl
  · show Instr.fabs (bits 6 x 20) (bits 6 x 14) (bits 1 x 4) = _
    rw [hb0, hb1, hb2]

theorem fneg (d : BitVec 6) (a : BitVec 6) (x1 : BitVec 1) : Statement (.fneg d a x1) := by
  intro n x h hw
  have h : some (32, word 0xA0000008 [(d.toNat, 20), (a.toNat, 14), (x1.toNat, 4)]) = some (n, x) := h
  obtain ⟨rfl, hx⟩ := Prod.mk.injEq .. ▸ Option.some.inj h
  obtain ⟨h1, h2, h3, hb0, hb1, hb2⟩ := word_6at20_6at14_1at4_sel4at0_zero9at5 d a x1 (M := 40) (S := 8) (by omega) (by omega) rfl hx
  refine decode_row (r := rows28[8]) h1 ?_ h3 ?_ hw
  · show rows28.find? _ = _
    simp only [rows28, List.find?, h2, Nat.reduceBEq, beq_self_eq_true]; rfl
  · show Instr.fneg (bits 6 x 20) (bits 6 x 14) (bits 1 x 4) = _
    rw [hb0, hb1, hb2]

theorem fsgnj (d : BitVec 6) (a : BitVec 6) (b : BitVec 6) (x1 : BitVec 1) : Statement (.fsgnj d a b x1) := by
  intro n x h hw
  have h : some (32, word 0xA0000009 [(d.toNat, 20), (a.toNat, 14), (b.toNat, 8), (x1.toNat, 4)]) = some (n, x) := h
  obtain ⟨rfl, hx⟩ := Prod.mk.injEq .. ▸ Option.some.inj h
  obtain ⟨h1, h2, h3, hb0, hb1, hb2, hb3⟩ := word_6at20_6at14_6at8_1at4_sel4at0_zero3at5 d a b x1 (M := 40) (S := 9) (by omega) (by omega) rfl hx
  refine decode_row (r := rows28[9]) h1 ?_ h3 ?_ hw
  · show rows28.find? _ = _
    simp only [rows28, List.find?, h2, Nat.reduceBEq, beq_self_eq_true]; rfl
  · show Instr.fsgnj (bits 6 x 20) (bits 6 x 14) (bits 6 x 8) (bits 1 x 4) = _
    rw [hb0, hb1, hb2, hb3]

theorem fclass (d : BitVec 6) (a : BitVec 6) (x1 : BitVec 1) : Statement (.fclass d a x1) := by
  intro n x h hw
  have h : some (32, word 0xA000000A [(d.toNat, 20), (a.toNat, 14), (x1.toNat, 4)]) = some (n, x) := h
  obtain ⟨rfl, hx⟩ := Prod.mk.injEq .. ▸ Option.some.inj h
  obtain ⟨h1, h2, h3, hb0, hb1, hb2⟩ := word_6at20_6at14_1at4_sel4at0_zero9at5 d a x1 (M := 40) (S := 10) (by omega) (by omega) rfl hx
  refine decode_row (r := rows28[10]) h1 ?_ h3 ?_ hw
  · show rows28.find? _ = _
    simp only [rows28, List.find?, h2, Nat.reduceBEq, beq_self_eq_true]; rfl
  · show Instr.fclass (bits 6 x 20) (bits 6 x 14) (bits 1 x 4) = _
    rw [hb0, hb1, hb2]

theorem fma (d : BitVec 6) (a : BitVec 6) (b : BitVec 6) (c : BitVec 6) : Statement (.fma d a b c) := by
  intro n x h hw
  have h : some (32, word 0xA4000000 [(d.toNat, 20), (a.toNat, 14), (b.toNat, 8), (c.toNat, 2)]) = some (n, x) := h
  obtain ⟨rfl, hx⟩ := Prod.mk.injEq .. ▸ Option.some.inj h
  obtain ⟨h1, h2, h3, hb0, hb1, hb2, hb3⟩ := word_6at20_6at14_6at8_6at2_sel2at0 d a b c (M := 41) (S := 0) (by omega) (by omega) rfl hx
  refine decode_row (r := rows29[0]) h1 ?_ h3 ?_ hw
  · show rows29.find? _ = _
    simp only [rows29, List.find?, h2, beq_self_eq_true]; rfl
  · show Instr.fma (bits 6 x 20) (bits 6 x 14) (bits 6 x 8) (bits 6 x 2) = _
    rw [hb0, hb1, hb2, hb3]

theorem fms (d : BitVec 6) (a : BitVec 6) (b : BitVec 6) (c : BitVec 6) : Statement (.fms d a b c) := by
  intro n x h hw
  have h : some (32, word 0xA4000001 [(d.toNat, 20), (a.toNat, 14), (b.toNat, 8), (c.toNat, 2)]) = some (n, x) := h
  obtain ⟨rfl, hx⟩ := Prod.mk.injEq .. ▸ Option.some.inj h
  obtain ⟨h1, h2, h3, hb0, hb1, hb2, hb3⟩ := word_6at20_6at14_6at8_6at2_sel2at0 d a b c (M := 41) (S := 1) (by omega) (by omega) rfl hx
  refine decode_row (r := rows29[1]) h1 ?_ h3 ?_ hw
  · show rows29.find? _ = _
    simp only [rows29, List.find?, h2, Nat.reduceBEq, beq_self_eq_true]; rfl
  · show Instr.fms (bits 6 x 20) (bits 6 x 14) (bits 6 x 8) (bits 6 x 2) = _
    rw [hb0, hb1, hb2, hb3]

theorem fnma (d : BitVec 6) (a : BitVec 6) (b : BitVec 6) (c : BitVec 6) : Statement (.fnma d a b c) := by
  intro n x h hw
  have h : some (32, word 0xA4000002 [(d.toNat, 20), (a.toNat, 14), (b.toNat, 8), (c.toNat, 2)]) = some (n, x) := h
  obtain ⟨rfl, hx⟩ := Prod.mk.injEq .. ▸ Option.some.inj h
  obtain ⟨h1, h2, h3, hb0, hb1, hb2, hb3⟩ := word_6at20_6at14_6at8_6at2_sel2at0 d a b c (M := 41) (S := 2) (by omega) (by omega) rfl hx
  refine decode_row (r := rows29[2]) h1 ?_ h3 ?_ hw
  · show rows29.find? _ = _
    simp only [rows29, List.find?, h2, Nat.reduceBEq, beq_self_eq_true]; rfl
  · show Instr.fnma (bits 6 x 20) (bits 6 x 14) (bits 6 x 8) (bits 6 x 2) = _
    rw [hb0, hb1, hb2, hb3]

theorem fnms (d : BitVec 6) (a : BitVec 6) (b : BitVec 6) (c : BitVec 6) : Statement (.fnms d a b c) := by
  intro n x h hw
  have h : some (32, word 0xA4000003 [(d.toNat, 20), (a.toNat, 14), (b.toNat, 8), (c.toNat, 2)]) = some (n, x) := h
  obtain ⟨rfl, hx⟩ := Prod.mk.injEq .. ▸ Option.some.inj h
  obtain ⟨h1, h2, h3, hb0, hb1, hb2, hb3⟩ := word_6at20_6at14_6at8_6at2_sel2at0 d a b c (M := 41) (S := 3) (by omega) (by omega) rfl hx
  refine decode_row (r := rows29[3]) h1 ?_ h3 ?_ hw
  · show rows29.find? _ = _
    simp only [rows29, List.find?, h2, Nat.reduceBEq, beq_self_eq_true]; rfl
  · show Instr.fnms (bits 6 x 20) (bits 6 x 14) (bits 6 x 8) (bits 6 x 2) = _
    rw [hb0, hb1, hb2, hb3]

theorem fcvt (d : BitVec 6) (a : BitVec 6) (s1 : BitVec 3) (t : BitVec 3) (r : BitVec 3) (x1 : BitVec 1) : Statement (.fcvt d a s1 t r x1) := by
  intro n x h hw
  have h : some (32, word 0xA8000000 [(d.toNat, 20), (a.toNat, 14), (s1.toNat, 11), (t.toNat, 8), (r.toNat, 5), (x1.toNat, 4)]) = some (n, x) := h
  obtain ⟨rfl, hx⟩ := Prod.mk.injEq .. ▸ Option.some.inj h
  obtain ⟨h1, h2, h3, hb0, hb1, hb2, hb3, hb4, hb5⟩ := word_6at20_6at14_3at11_3at8_3at5_1at4_zero4at0 d a s1 t r x1 (M := 42) (S := 0) (by omega) (by omega) rfl hx
  refine decode_row (r := rows2A[0]) h1 ?_ h3 ?_ hw
  · show rows2A.find? _ = _
    simp only [rows2A, List.find?, h2, beq_self_eq_true]; rfl
  · show Instr.fcvt (bits 6 x 20) (bits 6 x 14) (bits 3 x 11) (bits 3 x 8) (bits 3 x 5) (bits 1 x 4) = _
    rw [hb0, hb1, hb2, hb3, hb4, hb5]

theorem mfs (d : BitVec 6) (im : BitVec 14) : Statement (.mfs d im) := by
  intro n x h hw
  have h : some (32, word 0xC0000000 [(d.toNat, 20), (im.toNat, 0)]) = some (n, x) := h
  obtain ⟨rfl, hx⟩ := Prod.mk.injEq .. ▸ Option.some.inj h
  obtain ⟨h1, h2, h3, hb0, hb1⟩ := word_6at20_14at0_zero6at14 d im (M := 48) (S := 0) (by omega) (by omega) rfl hx
  refine decode_row (r := rows30[0]) h1 ?_ h3 ?_ hw
  · show rows30.find? _ = _
    simp only [rows30, List.find?, h2, beq_self_eq_true]; rfl
  · show Instr.mfs (bits 6 x 20) (bits 14 x 0) = _
    rw [hb0, hb1]

theorem mts (a : BitVec 6) (im : BitVec 14) : Statement (.mts a im) := by
  intro n x h hw
  have h : some (32, word 0xC4000000 [(a.toNat, 14), (im.toNat, 0)]) = some (n, x) := h
  obtain ⟨rfl, hx⟩ := Prod.mk.injEq .. ▸ Option.some.inj h
  obtain ⟨h1, h2, h3, hb0, hb1⟩ := word_6at14_14at0_zero6at20 a im (M := 49) (S := 0) (by omega) (by omega) rfl hx
  refine decode_row (r := rows31[0]) h1 ?_ h3 ?_ hw
  · show rows31.find? _ = _
    simp only [rows31, List.find?, h2, beq_self_eq_true]; rfl
  · show Instr.mts (bits 6 x 14) (bits 14 x 0) = _
    rw [hb0, hb1]

theorem acq (d : BitVec 6) (a : BitVec 6) (b : BitVec 6) (s1 : BitVec 3) : Statement (.acq d a b s1) := by
  intro n x h hw
  have h : some (32, word 0xC8000000 [(d.toNat, 20), (a.toNat, 14), (b.toNat, 8), (s1.toNat, 2)]) = some (n, x) := h
  obtain ⟨rfl, hx⟩ := Prod.mk.injEq .. ▸ Option.some.inj h
  obtain ⟨h1, h2, h3, hb0, hb1, hb2, hb3⟩ := word_6at20_6at14_6at8_3at2_sel3at5_zero2at0 d a b s1 (M := 50) (S := 0) (by omega) (by omega) rfl hx
  refine decode_row (r := rows32[0]) h1 ?_ h3 ?_ hw
  · show rows32.find? _ = _
    simp only [rows32, List.find?, h2, beq_self_eq_true]; rfl
  · show Instr.acq (bits 6 x 20) (bits 6 x 14) (bits 6 x 8) (bits 3 x 2) = _
    rw [hb0, hb1, hb2, hb3]

theorem rel (d : BitVec 6) (a : BitVec 6) (b : BitVec 6) (s1 : BitVec 3) : Statement (.rel d a b s1) := by
  intro n x h hw
  have h : some (32, word 0xC8000020 [(d.toNat, 20), (a.toNat, 14), (b.toNat, 8), (s1.toNat, 2)]) = some (n, x) := h
  obtain ⟨rfl, hx⟩ := Prod.mk.injEq .. ▸ Option.some.inj h
  obtain ⟨h1, h2, h3, hb0, hb1, hb2, hb3⟩ := word_6at20_6at14_6at8_3at2_sel3at5_zero2at0 d a b s1 (M := 50) (S := 1) (by omega) (by omega) rfl hx
  refine decode_row (r := rows32[1]) h1 ?_ h3 ?_ hw
  · show rows32.find? _ = _
    simp only [rows32, List.find?, h2, Nat.reduceBEq, beq_self_eq_true]; rfl
  · show Instr.rel (bits 6 x 20) (bits 6 x 14) (bits 6 x 8) (bits 3 x 2) = _
    rw [hb0, hb1, hb2, hb3]

theorem arv (d : BitVec 6) (a : BitVec 6) (b : BitVec 6) (s1 : BitVec 3) : Statement (.arv d a b s1) := by
  intro n x h hw
  have h : some (32, word 0xC8000040 [(d.toNat, 20), (a.toNat, 14), (b.toNat, 8), (s1.toNat, 2)]) = some (n, x) := h
  obtain ⟨rfl, hx⟩ := Prod.mk.injEq .. ▸ Option.some.inj h
  obtain ⟨h1, h2, h3, hb0, hb1, hb2, hb3⟩ := word_6at20_6at14_6at8_3at2_sel3at5_zero2at0 d a b s1 (M := 50) (S := 2) (by omega) (by omega) rfl hx
  refine decode_row (r := rows32[2]) h1 ?_ h3 ?_ hw
  · show rows32.find? _ = _
    simp only [rows32, List.find?, h2, Nat.reduceBEq, beq_self_eq_true]; rfl
  · show Instr.arv (bits 6 x 20) (bits 6 x 14) (bits 6 x 8) (bits 3 x 2) = _
    rw [hb0, hb1, hb2, hb3]

theorem waitb (d : BitVec 6) (a : BitVec 6) (b : BitVec 6) (s1 : BitVec 3) : Statement (.waitb d a b s1) := by
  intro n x h hw
  have h : some (32, word 0xC8000060 [(d.toNat, 20), (a.toNat, 14), (b.toNat, 8), (s1.toNat, 2)]) = some (n, x) := h
  obtain ⟨rfl, hx⟩ := Prod.mk.injEq .. ▸ Option.some.inj h
  obtain ⟨h1, h2, h3, hb0, hb1, hb2, hb3⟩ := word_6at20_6at14_6at8_3at2_sel3at5_zero2at0 d a b s1 (M := 50) (S := 3) (by omega) (by omega) rfl hx
  refine decode_row (r := rows32[3]) h1 ?_ h3 ?_ hw
  · show rows32.find? _ = _
    simp only [rows32, List.find?, h2, Nat.reduceBEq, beq_self_eq_true]; rfl
  · show Instr.waitb (bits 6 x 20) (bits 6 x 14) (bits 6 x 8) (bits 3 x 2) = _
    rw [hb0, hb1, hb2, hb3]

theorem bind (d : BitVec 6) (a : BitVec 6) (b : BitVec 6) (s1 : BitVec 3) : Statement (.bind d a b s1) := by
  intro n x h hw
  have h : some (32, word 0xC8000080 [(d.toNat, 20), (a.toNat, 14), (b.toNat, 8), (s1.toNat, 2)]) = some (n, x) := h
  obtain ⟨rfl, hx⟩ := Prod.mk.injEq .. ▸ Option.some.inj h
  obtain ⟨h1, h2, h3, hb0, hb1, hb2, hb3⟩ := word_6at20_6at14_6at8_3at2_sel3at5_zero2at0 d a b s1 (M := 50) (S := 4) (by omega) (by omega) rfl hx
  refine decode_row (r := rows32[4]) h1 ?_ h3 ?_ hw
  · show rows32.find? _ = _
    simp only [rows32, List.find?, h2, Nat.reduceBEq, beq_self_eq_true]; rfl
  · show Instr.bind (bits 6 x 20) (bits 6 x 14) (bits 6 x 8) (bits 3 x 2) = _
    rw [hb0, hb1, hb2, hb3]

theorem unbind (d : BitVec 6) (a : BitVec 6) (b : BitVec 6) (s1 : BitVec 3) : Statement (.unbind d a b s1) := by
  intro n x h hw
  have h : some (32, word 0xC80000A0 [(d.toNat, 20), (a.toNat, 14), (b.toNat, 8), (s1.toNat, 2)]) = some (n, x) := h
  obtain ⟨rfl, hx⟩ := Prod.mk.injEq .. ▸ Option.some.inj h
  obtain ⟨h1, h2, h3, hb0, hb1, hb2, hb3⟩ := word_6at20_6at14_6at8_3at2_sel3at5_zero2at0 d a b s1 (M := 50) (S := 5) (by omega) (by omega) rfl hx
  refine decode_row (r := rows32[5]) h1 ?_ h3 ?_ hw
  · show rows32.find? _ = _
    simp only [rows32, List.find?, h2, Nat.reduceBEq, beq_self_eq_true]; rfl
  · show Instr.unbind (bits 6 x 20) (bits 6 x 14) (bits 6 x 8) (bits 3 x 2) = _
    rw [hb0, hb1, hb2, hb3]

theorem fence (s1 : BitVec 3) : Statement (.fence s1) := by
  intro n x h hw
  have h : some (32, word 0xCC000000 [(s1.toNat, 2)]) = some (n, x) := h
  obtain ⟨rfl, hx⟩ := Prod.mk.injEq .. ▸ Option.some.inj h
  obtain ⟨h1, h2, h3, hb0⟩ := word_3at2_zero2at0_21at5 s1 (M := 51) (S := 0) (by omega) (by omega) rfl hx
  refine decode_row (r := rows33[0]) h1 ?_ h3 ?_ hw
  · show rows33.find? _ = _
    simp only [rows33, List.find?, h2, beq_self_eq_true]; rfl
  · show Instr.fence (bits 3 x 2) = _
    rw [hb0]

theorem drain (p : BitVec 3) : Statement (.drain p) := by
  intro n x h hw
  have h : some (32, word 0xD0000000 [(p.toNat, 0)]) = some (n, x) := h
  obtain ⟨rfl, hx⟩ := Prod.mk.injEq .. ▸ Option.some.inj h
  obtain ⟨h1, h2, h3, hb0⟩ := word_3at0_zero23at3 p (M := 52) (S := 0) (by omega) (by omega) rfl hx
  refine decode_row (r := rows34[0]) h1 ?_ h3 ?_ hw
  · show rows34.find? _ = _
    simp only [rows34, List.find?, h2, beq_self_eq_true]; rfl
  · show Instr.drain (bits 3 x 0) = _
    rw [hb0]

theorem setf (a : BitVec 6) (f : BitVec 5) (im : BitVec 1) (v : BitVec 6) : Statement (.setf a f im v) := by
  intro n x h hw
  have h : some (32, word 0xD4000000 [(a.toNat, 14), (f.toNat, 7), (im.toNat, 6), (v.toNat, 0)]) = some (n, x) := h
  obtain ⟨rfl, hx⟩ := Prod.mk.injEq .. ▸ Option.some.inj h
  obtain ⟨h1, h2, h3, hb0, hb1, hb2, hb3⟩ := word_6at14_5at7_1at6_6at0_sel2at12_zero6at20 a f im v (M := 53) (S := 0) (by omega) (by omega) rfl hx
  refine decode_row (r := rows35[0]) h1 ?_ h3 ?_ hw
  · show rows35.find? _ = _
    simp only [rows35, List.find?, h2, beq_self_eq_true]; rfl
  · show Instr.setf (bits 6 x 14) (bits 5 x 7) (bits 1 x 6) (bits 6 x 0) = _
    rw [hb0, hb1, hb2, hb3]

theorem addf (a : BitVec 6) (f : BitVec 5) (im : BitVec 1) (v : BitVec 6) : Statement (.addf a f im v) := by
  intro n x h hw
  have h : some (32, word 0xD4001000 [(a.toNat, 14), (f.toNat, 7), (im.toNat, 6), (v.toNat, 0)]) = some (n, x) := h
  obtain ⟨rfl, hx⟩ := Prod.mk.injEq .. ▸ Option.some.inj h
  obtain ⟨h1, h2, h3, hb0, hb1, hb2, hb3⟩ := word_6at14_5at7_1at6_6at0_sel2at12_zero6at20 a f im v (M := 53) (S := 1) (by omega) (by omega) rfl hx
  refine decode_row (r := rows35[1]) h1 ?_ h3 ?_ hw
  · show rows35.find? _ = _
    simp only [rows35, List.find?, h2, Nat.reduceBEq, beq_self_eq_true]; rfl
  · show Instr.addf (bits 6 x 14) (bits 5 x 7) (bits 1 x 6) (bits 6 x 0) = _
    rw [hb0, hb1, hb2, hb3]

theorem getf (d : BitVec 6) (f : BitVec 5) : Statement (.getf d f) := by
  intro n x h hw
  have h : some (32, word 0xD4002000 [(d.toNat, 20), (f.toNat, 7)]) = some (n, x) := h
  obtain ⟨rfl, hx⟩ := Prod.mk.injEq .. ▸ Option.some.inj h
  obtain ⟨h1, h2, h3, hb0, hb1⟩ := word_6at20_5at7_sel2at12_zero7at0_6at14 d f (M := 53) (S := 2) (by omega) (by omega) rfl hx
  refine decode_row (r := rows35[2]) h1 ?_ h3 ?_ hw
  · show rows35.find? _ = _
    simp only [rows35, List.find?, h2, Nat.reduceBEq, beq_self_eq_true]; rfl
  · show Instr.getf (bits 6 x 20) (bits 5 x 7) = _
    rw [hb0, hb1]

theorem epop (d : BitVec 6) (p : BitVec 6) : Statement (.epop d p) := by
  intro n x h hw
  have h : some (32, word 0xD8000000 [(d.toNat, 20), (p.toNat, 8)]) = some (n, x) := h
  obtain ⟨rfl, hx⟩ := Prod.mk.injEq .. ▸ Option.some.inj h
  obtain ⟨h1, h2, h3, hb0, hb1⟩ := word_6at20_6at8_sel1at0_zero7at1_6at14 d p (M := 54) (S := 0) (by omega) (by omega) rfl hx
  refine decode_row (r := rows36[0]) h1 ?_ h3 ?_ hw
  · show rows36.find? _ = _
    simp only [rows36, List.find?, h2, beq_self_eq_true]; rfl
  · show Instr.epop (bits 6 x 20) (bits 6 x 8) = _
    rw [hb0, hb1]

theorem epopt (d : BitVec 6) (p : BitVec 6) : Statement (.epopt d p) := by
  intro n x h hw
  have h : some (32, word 0xD8000001 [(d.toNat, 20), (p.toNat, 8)]) = some (n, x) := h
  obtain ⟨rfl, hx⟩ := Prod.mk.injEq .. ▸ Option.some.inj h
  obtain ⟨h1, h2, h3, hb0, hb1⟩ := word_6at20_6at8_sel1at0_zero7at1_6at14 d p (M := 54) (S := 1) (by omega) (by omega) rfl hx
  refine decode_row (r := rows36[1]) h1 ?_ h3 ?_ hw
  · show rows36.find? _ = _
    simp only [rows36, List.find?, h2, Nat.reduceBEq, beq_self_eq_true]; rfl
  · show Instr.epopt (bits 6 x 20) (bits 6 x 8) = _
    rw [hb0, hb1]

theorem epush (a : BitVec 6) (p : BitVec 6) : Statement (.epush a p) := by
  intro n x h hw
  have h : some (32, word 0xDC000000 [(a.toNat, 14), (p.toNat, 8)]) = some (n, x) := h
  obtain ⟨rfl, hx⟩ := Prod.mk.injEq .. ▸ Option.some.inj h
  obtain ⟨h1, h2, h3, hb0, hb1⟩ := word_6at14_6at8_zero8at0_6at20 a p (M := 55) (S := 0) (by omega) (by omega) rfl hx
  refine decode_row (r := rows37[0]) h1 ?_ h3 ?_ hw
  · show rows37.find? _ = _
    simp only [rows37, List.find?, h2, beq_self_eq_true]; rfl
  · show Instr.epush (bits 6 x 14) (bits 6 x 8) = _
    rw [hb0, hb1]

theorem tdld (d : BitVec 6) (a : BitVec 6) (t : BitVec 6) : Statement (.tdld d a t) := by
  intro n x h hw
  have h : some (32, word 0xE0000000 [(d.toNat, 20), (a.toNat, 14), (t.toNat, 8)]) = some (n, x) := h
  obtain ⟨rfl, hx⟩ := Prod.mk.injEq .. ▸ Option.some.inj h
  obtain ⟨h1, h2, h3, hb0, hb1, hb2⟩ := word_6at20_6at14_6at8_sel3at0_zero5at3 d a t (M := 56) (S := 0) (by omega) (by omega) rfl hx
  refine decode_row (r := rows38[0]) h1 ?_ h3 ?_ hw
  · show rows38.find? _ = _
    simp only [rows38, List.find?, h2, beq_self_eq_true]; rfl
  · show Instr.tdld (bits 6 x 20) (bits 6 x 14) (bits 6 x 8) = _
    rw [hb0, hb1, hb2]

theorem tdst (d : BitVec 6) (a : BitVec 6) (t : BitVec 6) : Statement (.tdst d a t) := by
  intro n x h hw
  have h : some (32, word 0xE0000001 [(d.toNat, 20), (a.toNat, 14), (t.toNat, 8)]) = some (n, x) := h
  obtain ⟨rfl, hx⟩ := Prod.mk.injEq .. ▸ Option.some.inj h
  obtain ⟨h1, h2, h3, hb0, hb1, hb2⟩ := word_6at20_6at14_6at8_sel3at0_zero5at3 d a t (M := 56) (S := 1) (by omega) (by omega) rfl hx
  refine decode_row (r := rows38[1]) h1 ?_ h3 ?_ hw
  · show rows38.find? _ = _
    simp only [rows38, List.find?, h2, Nat.reduceBEq, beq_self_eq_true]; rfl
  · show Instr.tdst (bits 6 x 20) (bits 6 x 14) (bits 6 x 8) = _
    rw [hb0, hb1, hb2]

theorem tdset (d : BitVec 6) (a : BitVec 6) (t : BitVec 6) (f : BitVec 5) : Statement (.tdset d a t f) := by
  intro n x h hw
  have h : some (32, word 0xE0000002 [(d.toNat, 20), (a.toNat, 14), (t.toNat, 8), (f.toNat, 3)]) = some (n, x) := h
  obtain ⟨rfl, hx⟩ := Prod.mk.injEq .. ▸ Option.some.inj h
  obtain ⟨h1, h2, h3, hb0, hb1, hb2, hb3⟩ := word_6at20_6at14_6at8_5at3_sel3at0 d a t f (M := 56) (S := 2) (by omega) (by omega) rfl hx
  refine decode_row (r := rows38[2]) h1 ?_ h3 ?_ hw
  · show rows38.find? _ = _
    simp only [rows38, List.find?, h2, Nat.reduceBEq, beq_self_eq_true]; rfl
  · show Instr.tdset (bits 6 x 20) (bits 6 x 14) (bits 6 x 8) (bits 5 x 3) = _
    rw [hb0, hb1, hb2, hb3]

theorem tdget (d : BitVec 6) (a : BitVec 6) (t : BitVec 6) (f : BitVec 5) : Statement (.tdget d a t f) := by
  intro n x h hw
  have h : some (32, word 0xE0000003 [(d.toNat, 20), (a.toNat, 14), (t.toNat, 8), (f.toNat, 3)]) = some (n, x) := h
  obtain ⟨rfl, hx⟩ := Prod.mk.injEq .. ▸ Option.some.inj h
  obtain ⟨h1, h2, h3, hb0, hb1, hb2, hb3⟩ := word_6at20_6at14_6at8_5at3_sel3at0 d a t f (M := 56) (S := 3) (by omega) (by omega) rfl hx
  refine decode_row (r := rows38[3]) h1 ?_ h3 ?_ hw
  · show rows38.find? _ = _
    simp only [rows38, List.find?, h2, Nat.reduceBEq, beq_self_eq_true]; rfl
  · show Instr.tdget (bits 6 x 20) (bits 6 x 14) (bits 6 x 8) (bits 5 x 3) = _
    rw [hb0, hb1, hb2, hb3]

theorem tdcpy (d : BitVec 6) (m : BitVec 6) (t : BitVec 6) : Statement (.tdcpy d m t) := by
  intro n x h hw
  have h : some (32, word 0xE0000004 [(d.toNat, 20), (m.toNat, 14), (t.toNat, 8)]) = some (n, x) := h
  obtain ⟨rfl, hx⟩ := Prod.mk.injEq .. ▸ Option.some.inj h
  obtain ⟨h1, h2, h3, hb0, hb1, hb2⟩ := word_6at20_6at14_6at8_sel3at0_zero5at3 d m t (M := 56) (S := 4) (by omega) (by omega) rfl hx
  refine decode_row (r := rows38[4]) h1 ?_ h3 ?_ hw
  · show rows38.find? _ = _
    simp only [rows38, List.find?, h2, Nat.reduceBEq, beq_self_eq_true]; rfl
  · show Instr.tdcpy (bits 6 x 20) (bits 6 x 14) (bits 6 x 8) = _
    rw [hb0, hb1, hb2]

theorem prio (c : BitVec 2) : Statement (.prio c) := by
  intro n x h hw
  have h : some (32, word 0xE4000000 [(c.toNat, 0)]) = some (n, x) := h
  obtain ⟨rfl, hx⟩ := Prod.mk.injEq .. ▸ Option.some.inj h
  obtain ⟨h1, h2, h3, hb0⟩ := word_2at0_zero24at2 c (M := 57) (S := 0) (by omega) (by omega) rfl hx
  refine decode_row (r := rows39[0]) h1 ?_ h3 ?_ hw
  · show rows39.find? _ = _
    simp only [rows39, List.find?, h2, beq_self_eq_true]; rfl
  · show Instr.prio (bits 2 x 0) = _
    rw [hb0]

theorem mbpost (d : BitVec 6) (a : BitVec 6) (b : BitVec 6) : Statement (.mbpost d a b) := by
  intro n x h hw
  have h : some (32, word 0xE8000000 [(d.toNat, 20), (a.toNat, 14), (b.toNat, 8)]) = some (n, x) := h
  obtain ⟨rfl, hx⟩ := Prod.mk.injEq .. ▸ Option.some.inj h
  obtain ⟨h1, h2, h3, hb0, hb1, hb2⟩ := word_6at20_6at14_6at8_sel2at0_zero6at2 d a b (M := 58) (S := 0) (by omega) (by omega) rfl hx
  refine decode_row (r := rows3A[0]) h1 ?_ h3 ?_ hw
  · show rows3A.find? _ = _
    simp only [rows3A, List.find?, h2, beq_self_eq_true]; rfl
  · show Instr.mbpost (bits 6 x 20) (bits 6 x 14) (bits 6 x 8) = _
    rw [hb0, hb1, hb2]

theorem mbfin (d : BitVec 6) (a : BitVec 6) (b : BitVec 6) : Statement (.mbfin d a b) := by
  intro n x h hw
  have h : some (32, word 0xE8000001 [(d.toNat, 20), (a.toNat, 14), (b.toNat, 8)]) = some (n, x) := h
  obtain ⟨rfl, hx⟩ := Prod.mk.injEq .. ▸ Option.some.inj h
  obtain ⟨h1, h2, h3, hb0, hb1, hb2⟩ := word_6at20_6at14_6at8_sel2at0_zero6at2 d a b (M := 58) (S := 1) (by omega) (by omega) rfl hx
  refine decode_row (r := rows3A[1]) h1 ?_ h3 ?_ hw
  · show rows3A.find? _ = _
    simp only [rows3A, List.find?, h2, Nat.reduceBEq, beq_self_eq_true]; rfl
  · show Instr.mbfin (bits 6 x 20) (bits 6 x 14) (bits 6 x 8) = _
    rw [hb0, hb1, hb2]

theorem mbver (d : BitVec 6) (a : BitVec 6) (b : BitVec 6) : Statement (.mbver d a b) := by
  intro n x h hw
  have h : some (32, word 0xE8000002 [(d.toNat, 20), (a.toNat, 14), (b.toNat, 8)]) = some (n, x) := h
  obtain ⟨rfl, hx⟩ := Prod.mk.injEq .. ▸ Option.some.inj h
  obtain ⟨h1, h2, h3, hb0, hb1, hb2⟩ := word_6at20_6at14_6at8_sel2at0_zero6at2 d a b (M := 58) (S := 2) (by omega) (by omega) rfl hx
  refine decode_row (r := rows3A[2]) h1 ?_ h3 ?_ hw
  · show rows3A.find? _ = _
    simp only [rows3A, List.find?, h2, Nat.reduceBEq, beq_self_eq_true]; rfl
  · show Instr.mbver (bits 6 x 20) (bits 6 x 14) (bits 6 x 8) = _
    rw [hb0, hb1, hb2]

theorem tlbiPage (a : BitVec 6) : Statement (.tlbiPage a) := by
  intro n x h hw
  have h : some (32, word 0xEC000000 [(a.toNat, 14)]) = some (n, x) := h
  obtain ⟨rfl, hx⟩ := Prod.mk.injEq .. ▸ Option.some.inj h
  obtain ⟨h1, h2, h3, hb0⟩ := word_6at14_sel3at0_zero11at3_6at20 a (M := 59) (S := 0) (by omega) (by omega) rfl hx
  refine decode_row (r := rows3B[0]) h1 ?_ h3 ?_ hw
  · show rows3B.find? _ = _
    simp only [rows3B, List.find?, h2, beq_self_eq_true]; rfl
  · show Instr.tlbiPage (bits 6 x 14) = _
    rw [hb0]

theorem tlbiTenant (a : BitVec 6) : Statement (.tlbiTenant a) := by
  intro n x h hw
  have h : some (32, word 0xEC000001 [(a.toNat, 14)]) = some (n, x) := h
  obtain ⟨rfl, hx⟩ := Prod.mk.injEq .. ▸ Option.some.inj h
  obtain ⟨h1, h2, h3, hb0⟩ := word_6at14_sel3at0_zero11at3_6at20 a (M := 59) (S := 1) (by omega) (by omega) rfl hx
  refine decode_row (r := rows3B[1]) h1 ?_ h3 ?_ hw
  · show rows3B.find? _ = _
    simp only [rows3B, List.find?, h2, Nat.reduceBEq, beq_self_eq_true]; rfl
  · show Instr.tlbiTenant (bits 6 x 14) = _
    rw [hb0]

theorem tlbiAll (a : BitVec 6) : Statement (.tlbiAll a) := by
  intro n x h hw
  have h : some (32, word 0xEC000002 [(a.toNat, 14)]) = some (n, x) := h
  obtain ⟨rfl, hx⟩ := Prod.mk.injEq .. ▸ Option.some.inj h
  obtain ⟨h1, h2, h3, hb0⟩ := word_6at14_sel3at0_zero11at3_6at20 a (M := 59) (S := 2) (by omega) (by omega) rfl hx
  refine decode_row (r := rows3B[2]) h1 ?_ h3 ?_ hw
  · show rows3B.find? _ = _
    simp only [rows3B, List.find?, h2, Nat.reduceBEq, beq_self_eq_true]; rfl
  · show Instr.tlbiAll (bits 6 x 14) = _
    rw [hb0]

theorem cinv (a : BitVec 6) (p : BitVec 1) : Statement (.cinv a p) := by
  intro n x h hw
  have h : some (32, word 0xF0000000 [(a.toNat, 14), (p.toNat, 2)]) = some (n, x) := h
  obtain ⟨rfl, hx⟩ := Prod.mk.injEq .. ▸ Option.some.inj h
  obtain ⟨h1, h2, h3, hb0, hb1⟩ := word_6at14_1at2_sel2at0_zero11at3_6at20 a p (M := 60) (S := 0) (by omega) (by omega) rfl hx
  refine decode_row (r := rows3C[0]) h1 ?_ h3 ?_ hw
  · show rows3C.find? _ = _
    simp only [rows3C, List.find?, h2, beq_self_eq_true]; rfl
  · show Instr.cinv (bits 6 x 14) (bits 1 x 2) = _
    rw [hb0, hb1]

theorem cfls (a : BitVec 6) (p : BitVec 1) : Statement (.cfls a p) := by
  intro n x h hw
  have h : some (32, word 0xF0000001 [(a.toNat, 14), (p.toNat, 2)]) = some (n, x) := h
  obtain ⟨rfl, hx⟩ := Prod.mk.injEq .. ▸ Option.some.inj h
  obtain ⟨h1, h2, h3, hb0, hb1⟩ := word_6at14_1at2_sel2at0_zero11at3_6at20 a p (M := 60) (S := 1) (by omega) (by omega) rfl hx
  refine decode_row (r := rows3C[1]) h1 ?_ h3 ?_ hw
  · show rows3C.find? _ = _
    simp only [rows3C, List.find?, h2, Nat.reduceBEq, beq_self_eq_true]; rfl
  · show Instr.cfls (bits 6 x 14) (bits 1 x 2) = _
    rw [hb0, hb1]

theorem dstchk (a : BitVec 6) (b : BitVec 6) (x1 : BitVec 1) : Statement (.dstchk a b x1) := by
  intro n x h hw
  have h : some (32, word 0xF0000003 [(a.toNat, 14), (b.toNat, 8), (x1.toNat, 2)]) = some (n, x) := h
  obtain ⟨rfl, hx⟩ := Prod.mk.injEq .. ▸ Option.some.inj h
  obtain ⟨h1, h2, h3, hb0, hb1, hb2⟩ := word_6at14_6at8_1at2_sel2at0_zero5at3_6at20 a b x1 (M := 60) (S := 3) (by omega) (by omega) rfl hx
  refine decode_row (r := rows3C[3]) h1 ?_ h3 ?_ hw
  · show rows3C.find? _ = _
    simp only [rows3C, List.find?, h2, Nat.reduceBEq, beq_self_eq_true]; rfl
  · show Instr.dstchk (bits 6 x 14) (bits 6 x 8) (bits 1 x 2) = _
    rw [hb0, hb1, hb2]

theorem rgn (f : MFields) : Statement (.rgn f) := by
  intro n x h hw
  have h : some (192, encodeM 0x80 f) = some (n, x) := h
  obtain ⟨rfl, rfl⟩ := Prod.mk.injEq .. ▸ Option.some.inj h
  exact decode_m (by omega) (fun _ _ => rfl) hw

theorem vadd (f : VFields) : Statement (.vadd f) := by
  intro n x h hw
  have h : some (96, encodeV 0x01 f) = some (n, x) := h
  obtain ⟨rfl, rfl⟩ := Prod.mk.injEq .. ▸ Option.some.inj h
  exact decode_v (by omega) rfl hw

theorem vsub (f : VFields) : Statement (.vsub f) := by
  intro n x h hw
  have h : some (96, encodeV 0x02 f) = some (n, x) := h
  obtain ⟨rfl, rfl⟩ := Prod.mk.injEq .. ▸ Option.some.inj h
  exact decode_v (by omega) rfl hw

theorem vmul (f : VFields) : Statement (.vmul f) := by
  intro n x h hw
  have h : some (96, encodeV 0x03 f) = some (n, x) := h
  obtain ⟨rfl, rfl⟩ := Prod.mk.injEq .. ▸ Option.some.inj h
  exact decode_v (by omega) rfl hw

theorem vfma (f : VFields) : Statement (.vfma f) := by
  intro n x h hw
  have h : some (96, encodeV 0x04 f) = some (n, x) := h
  obtain ⟨rfl, rfl⟩ := Prod.mk.injEq .. ▸ Option.some.inj h
  exact decode_v (by omega) rfl hw

theorem vfms (f : VFields) : Statement (.vfms f) := by
  intro n x h hw
  have h : some (96, encodeV 0x05 f) = some (n, x) := h
  obtain ⟨rfl, rfl⟩ := Prod.mk.injEq .. ▸ Option.some.inj h
  exact decode_v (by omega) rfl hw

theorem vdiv (f : VFields) : Statement (.vdiv f) := by
  intro n x h hw
  have h : some (96, encodeV 0x06 f) = some (n, x) := h
  obtain ⟨rfl, rfl⟩ := Prod.mk.injEq .. ▸ Option.some.inj h
  exact decode_v (by omega) rfl hw

theorem vmin (f : VFields) : Statement (.vmin f) := by
  intro n x h hw
  have h : some (96, encodeV 0x07 f) = some (n, x) := h
  obtain ⟨rfl, rfl⟩ := Prod.mk.injEq .. ▸ Option.some.inj h
  exact decode_v (by omega) rfl hw

theorem vmax (f : VFields) : Statement (.vmax f) := by
  intro n x h hw
  have h : some (96, encodeV 0x08 f) = some (n, x) := h
  obtain ⟨rfl, rfl⟩ := Prod.mk.injEq .. ▸ Option.some.inj h
  exact decode_v (by omega) rfl hw

theorem vabs (f : VFields) : Statement (.vabs f) := by
  intro n x h hw
  have h : some (96, encodeV 0x09 f) = some (n, x) := h
  obtain ⟨rfl, rfl⟩ := Prod.mk.injEq .. ▸ Option.some.inj h
  exact decode_v (by omega) rfl hw

theorem vneg (f : VFields) : Statement (.vneg f) := by
  intro n x h hw
  have h : some (96, encodeV 0x0A f) = some (n, x) := h
  obtain ⟨rfl, rfl⟩ := Prod.mk.injEq .. ▸ Option.some.inj h
  exact decode_v (by omega) rfl hw

theorem vsqrt (f : VFields) : Statement (.vsqrt f) := by
  intro n x h hw
  have h : some (96, encodeV 0x0B f) = some (n, x) := h
  obtain ⟨rfl, rfl⟩ := Prod.mk.injEq .. ▸ Option.some.inj h
  exact decode_v (by omega) rfl hw

theorem vrcp (f : VFields) : Statement (.vrcp f) := by
  intro n x h hw
  have h : some (96, encodeV 0x0C f) = some (n, x) := h
  obtain ⟨rfl, rfl⟩ := Prod.mk.injEq .. ▸ Option.some.inj h
  exact decode_v (by omega) rfl hw

theorem vrsq (f : VFields) : Statement (.vrsq f) := by
  intro n x h hw
  have h : some (96, encodeV 0x0D f) = some (n, x) := h
  obtain ⟨rfl, rfl⟩ := Prod.mk.injEq .. ▸ Option.some.inj h
  exact decode_v (by omega) rfl hw

theorem vscl (f : VFields) : Statement (.vscl f) := by
  intro n x h hw
  have h : some (96, encodeV 0x0E f) = some (n, x) := h
  obtain ⟨rfl, rfl⟩ := Prod.mk.injEq .. ▸ Option.some.inj h
  exact decode_v (by omega) rfl hw

theorem vaxpy (f : VFields) : Statement (.vaxpy f) := by
  intro n x h hw
  have h : some (96, encodeV 0x0F f) = some (n, x) := h
  obtain ⟨rfl, rfl⟩ := Prod.mk.injEq .. ▸ Option.some.inj h
  exact decode_v (by omega) rfl hw

theorem vclmp (f : VFields) : Statement (.vclmp f) := by
  intro n x h hw
  have h : some (96, encodeV 0x10 f) = some (n, x) := h
  obtain ⟨rfl, rfl⟩ := Prod.mk.injEq .. ▸ Option.some.inj h
  exact decode_v (by omega) rfl hw

theorem vrnd (f : VFields) : Statement (.vrnd f) := by
  intro n x h hw
  have h : some (96, encodeV 0x11 f) = some (n, x) := h
  obtain ⟨rfl, rfl⟩ := Prod.mk.injEq .. ▸ Option.some.inj h
  exact decode_v (by omega) rfl hw

theorem vexp (f : VFields) : Statement (.vexp f) := by
  intro n x h hw
  have h : some (96, encodeV 0x20 f) = some (n, x) := h
  obtain ⟨rfl, rfl⟩ := Prod.mk.injEq .. ▸ Option.some.inj h
  exact decode_v (by omega) rfl hw

theorem vexp2 (f : VFields) : Statement (.vexp2 f) := by
  intro n x h hw
  have h : some (96, encodeV 0x21 f) = some (n, x) := h
  obtain ⟨rfl, rfl⟩ := Prod.mk.injEq .. ▸ Option.some.inj h
  exact decode_v (by omega) rfl hw

theorem vlog (f : VFields) : Statement (.vlog f) := by
  intro n x h hw
  have h : some (96, encodeV 0x22 f) = some (n, x) := h
  obtain ⟨rfl, rfl⟩ := Prod.mk.injEq .. ▸ Option.some.inj h
  exact decode_v (by omega) rfl hw

theorem vlog2 (f : VFields) : Statement (.vlog2 f) := by
  intro n x h hw
  have h : some (96, encodeV 0x23 f) = some (n, x) := h
  obtain ⟨rfl, rfl⟩ := Prod.mk.injEq .. ▸ Option.some.inj h
  exact decode_v (by omega) rfl hw

theorem vtanh (f : VFields) : Statement (.vtanh f) := by
  intro n x h hw
  have h : some (96, encodeV 0x24 f) = some (n, x) := h
  obtain ⟨rfl, rfl⟩ := Prod.mk.injEq .. ▸ Option.some.inj h
  exact decode_v (by omega) rfl hw

theorem vsigm (f : VFields) : Statement (.vsigm f) := by
  intro n x h hw
  have h : some (96, encodeV 0x25 f) = some (n, x) := h
  obtain ⟨rfl, rfl⟩ := Prod.mk.injEq .. ▸ Option.some.inj h
  exact decode_v (by omega) rfl hw

theorem vgelu (f : VFields) : Statement (.vgelu f) := by
  intro n x h hw
  have h : some (96, encodeV 0x26 f) = some (n, x) := h
  obtain ⟨rfl, rfl⟩ := Prod.mk.injEq .. ▸ Option.some.inj h
  exact decode_v (by omega) rfl hw

theorem vsilu (f : VFields) : Statement (.vsilu f) := by
  intro n x h hw
  have h : some (96, encodeV 0x27 f) = some (n, x) := h
  obtain ⟨rfl, rfl⟩ := Prod.mk.injEq .. ▸ Option.some.inj h
  exact decode_v (by omega) rfl hw

theorem vsin (f : VFields) : Statement (.vsin f) := by
  intro n x h hw
  have h : some (96, encodeV 0x28 f) = some (n, x) := h
  obtain ⟨rfl, rfl⟩ := Prod.mk.injEq .. ▸ Option.some.inj h
  exact decode_v (by omega) rfl hw

theorem vcos (f : VFields) : Statement (.vcos f) := by
  intro n x h hw
  have h : some (96, encodeV 0x29 f) = some (n, x) := h
  obtain ⟨rfl, rfl⟩ := Prod.mk.injEq .. ▸ Option.some.inj h
  exact decode_v (by omega) rfl hw

theorem vcvt (f : VFields) : Statement (.vcvt f) := by
  intro n x h hw
  have h : some (96, encodeV 0x30 f) = some (n, x) := h
  obtain ⟨rfl, rfl⟩ := Prod.mk.injEq .. ▸ Option.some.inj h
  exact decode_v (by omega) rfl hw

theorem vqnt (f : VFields) : Statement (.vqnt f) := by
  intro n x h hw
  have h : some (96, encodeV 0x31 f) = some (n, x) := h
  obtain ⟨rfl, rfl⟩ := Prod.mk.injEq .. ▸ Option.some.inj h
  exact decode_v (by omega) rfl hw

theorem vdqnt (f : VFields) : Statement (.vdqnt f) := by
  intro n x h hw
  have h : some (96, encodeV 0x32 f) = some (n, x) := h
  obtain ⟨rfl, rfl⟩ := Prod.mk.injEq .. ▸ Option.some.inj h
  exact decode_v (by omega) rfl hw

theorem vcvti (f : VFields) : Statement (.vcvti f) := by
  intro n x h hw
  have h : some (96, encodeV 0x33 f) = some (n, x) := h
  obtain ⟨rfl, rfl⟩ := Prod.mk.injEq .. ▸ Option.some.inj h
  exact decode_v (by omega) rfl hw

theorem vcvtf (f : VFields) : Statement (.vcvtf f) := by
  intro n x h hw
  have h : some (96, encodeV 0x34 f) = some (n, x) := h
  obtain ⟨rfl, rfl⟩ := Prod.mk.injEq .. ▸ Option.some.inj h
  exact decode_v (by omega) rfl hw

theorem vcmp (f : VFields) : Statement (.vcmp f) := by
  intro n x h hw
  have h : some (96, encodeV 0x40 f) = some (n, x) := h
  obtain ⟨rfl, rfl⟩ := Prod.mk.injEq .. ▸ Option.some.inj h
  exact decode_v (by omega) rfl hw

theorem vsel (f : VFields) : Statement (.vsel f) := by
  intro n x h hw
  have h : some (96, encodeV 0x41 f) = some (n, x) := h
  obtain ⟨rfl, rfl⟩ := Prod.mk.injEq .. ▸ Option.some.inj h
  exact decode_v (by omega) rfl hw

theorem vand (f : VFields) : Statement (.vand f) := by
  intro n x h hw
  have h : some (96, encodeV 0x42 f) = some (n, x) := h
  obtain ⟨rfl, rfl⟩ := Prod.mk.injEq .. ▸ Option.some.inj h
  exact decode_v (by omega) rfl hw

theorem vor (f : VFields) : Statement (.vor f) := by
  intro n x h hw
  have h : some (96, encodeV 0x43 f) = some (n, x) := h
  obtain ⟨rfl, rfl⟩ := Prod.mk.injEq .. ▸ Option.some.inj h
  exact decode_v (by omega) rfl hw

theorem vxor (f : VFields) : Statement (.vxor f) := by
  intro n x h hw
  have h : some (96, encodeV 0x44 f) = some (n, x) := h
  obtain ⟨rfl, rfl⟩ := Prod.mk.injEq .. ▸ Option.some.inj h
  exact decode_v (by omega) rfl hw

theorem vnot (f : VFields) : Statement (.vnot f) := by
  intro n x h hw
  have h : some (96, encodeV 0x45 f) = some (n, x) := h
  obtain ⟨rfl, rfl⟩ := Prod.mk.injEq .. ▸ Option.some.inj h
  exact decode_v (by omega) rfl hw

theorem vshl (f : VFields) : Statement (.vshl f) := by
  intro n x h hw
  have h : some (96, encodeV 0x46 f) = some (n, x) := h
  obtain ⟨rfl, rfl⟩ := Prod.mk.injEq .. ▸ Option.some.inj h
  exact decode_v (by omega) rfl hw

theorem vshr (f : VFields) : Statement (.vshr f) := by
  intro n x h hw
  have h : some (96, encodeV 0x47 f) = some (n, x) := h
  obtain ⟨rfl, rfl⟩ := Prod.mk.injEq .. ▸ Option.some.inj h
  exact decode_v (by omega) rfl hw

theorem vrsum (f : VFields) : Statement (.vrsum f) := by
  intro n x h hw
  have h : some (96, encodeV 0x50 f) = some (n, x) := h
  obtain ⟨rfl, rfl⟩ := Prod.mk.injEq .. ▸ Option.some.inj h
  exact decode_v (by omega) rfl hw

theorem vrmax (f : VFields) : Statement (.vrmax f) := by
  intro n x h hw
  have h : some (96, encodeV 0x51 f) = some (n, x) := h
  obtain ⟨rfl, rfl⟩ := Prod.mk.injEq .. ▸ Option.some.inj h
  exact decode_v (by omega) rfl hw

theorem vrmin (f : VFields) : Statement (.vrmin f) := by
  intro n x h hw
  have h : some (96, encodeV 0x52 f) = some (n, x) := h
  obtain ⟨rfl, rfl⟩ := Prod.mk.injEq .. ▸ Option.some.inj h
  exact decode_v (by omega) rfl hw

theorem vramx (f : VFields) : Statement (.vramx f) := by
  intro n x h hw
  have h : some (96, encodeV 0x53 f) = some (n, x) := h
  obtain ⟨rfl, rfl⟩ := Prod.mk.injEq .. ▸ Option.some.inj h
  exact decode_v (by omega) rfl hw

theorem vscan (f : VFields) : Statement (.vscan f) := by
  intro n x h hw
  have h : some (96, encodeV 0x54 f) = some (n, x) := h
  obtain ⟨rfl, rfl⟩ := Prod.mk.injEq .. ▸ Option.some.inj h
  exact decode_v (by omega) rfl hw

theorem vvote (f : VFields) : Statement (.vvote f) := by
  intro n x h hw
  have h : some (96, encodeV 0x55 f) = some (n, x) := h
  obtain ⟨rfl, rfl⟩ := Prod.mk.injEq .. ▸ Option.some.inj h
  exact decode_v (by omega) rfl hw

theorem vflgc (f : VFields) : Statement (.vflgc f) := by
  intro n x h hw
  have h : some (96, encodeV 0x56 f) = some (n, x) := h
  obtain ⟨rfl, rfl⟩ := Prod.mk.injEq .. ▸ Option.some.inj h
  exact decode_v (by omega) rfl hw

theorem vrssq (f : VFields) : Statement (.vrssq f) := by
  intro n x h hw
  have h : some (96, encodeV 0x57 f) = some (n, x) := h
  obtain ⟨rfl, rfl⟩ := Prod.mk.injEq .. ▸ Option.some.inj h
  exact decode_v (by omega) rfl hw

theorem vlse (f : VFields) : Statement (.vlse f) := by
  intro n x h hw
  have h : some (96, encodeV 0x58 f) = some (n, x) := h
  obtain ⟨rfl, rfl⟩ := Prod.mk.injEq .. ▸ Option.some.inj h
  exact decode_v (by omega) rfl hw

theorem vmov (f : VFields) : Statement (.vmov f) := by
  intro n x h hw
  have h : some (96, encodeV 0x60 f) = some (n, x) := h
  obtain ⟨rfl, rfl⟩ := Prod.mk.injEq .. ▸ Option.some.inj h
  exact decode_v (by omega) rfl hw

theorem vfill (f : VFields) : Statement (.vfill f) := by
  intro n x h hw
  have h : some (96, encodeV 0x61 f) = some (n, x) := h
  obtain ⟨rfl, rfl⟩ := Prod.mk.injEq .. ▸ Option.some.inj h
  exact decode_v (by omega) rfl hw

theorem vgth (f : VFields) : Statement (.vgth f) := by
  intro n x h hw
  have h : some (96, encodeV 0x62 f) = some (n, x) := h
  obtain ⟨rfl, rfl⟩ := Prod.mk.injEq .. ▸ Option.some.inj h
  exact decode_v (by omega) rfl hw

theorem vsct (f : VFields) : Statement (.vsct f) := by
  intro n x h hw
  have h : some (96, encodeV 0x63 f) = some (n, x) := h
  obtain ⟨rfl, rfl⟩ := Prod.mk.injEq .. ▸ Option.some.inj h
  exact decode_v (by omega) rfl hw

theorem vtrn (f : VFields) : Statement (.vtrn f) := by
  intro n x h hw
  have h : some (96, encodeV 0x64 f) = some (n, x) := h
  obtain ⟨rfl, rfl⟩ := Prod.mk.injEq .. ▸ Option.some.inj h
  exact decode_v (by omega) rfl hw

theorem viota (f : VFields) : Statement (.viota f) := by
  intro n x h hw
  have h : some (96, encodeV 0x65 f) = some (n, x) := h
  obtain ⟨rfl, rfl⟩ := Prod.mk.injEq .. ▸ Option.some.inj h
  exact decode_v (by omega) rfl hw

theorem vcmpr (f : VFields) : Statement (.vcmpr f) := by
  intro n x h hw
  have h : some (96, encodeV 0x66 f) = some (n, x) := h
  obtain ⟨rfl, rfl⟩ := Prod.mk.injEq .. ▸ Option.some.inj h
  exact decode_v (by omega) rfl hw

theorem vexpd (f : VFields) : Statement (.vexpd f) := by
  intro n x h hw
  have h : some (96, encodeV 0x67 f) = some (n, x) := h
  obtain ⟨rfl, rfl⟩ := Prod.mk.injEq .. ▸ Option.some.inj h
  exact decode_v (by omega) rfl hw

theorem viadd (f : VFields) : Statement (.viadd f) := by
  intro n x h hw
  have h : some (96, encodeV 0x70 f) = some (n, x) := h
  obtain ⟨rfl, rfl⟩ := Prod.mk.injEq .. ▸ Option.some.inj h
  exact decode_v (by omega) rfl hw

theorem visub (f : VFields) : Statement (.visub f) := by
  intro n x h hw
  have h : some (96, encodeV 0x71 f) = some (n, x) := h
  obtain ⟨rfl, rfl⟩ := Prod.mk.injEq .. ▸ Option.some.inj h
  exact decode_v (by omega) rfl hw

theorem vimul (f : VFields) : Statement (.vimul f) := by
  intro n x h hw
  have h : some (96, encodeV 0x72 f) = some (n, x) := h
  obtain ⟨rfl, rfl⟩ := Prod.mk.injEq .. ▸ Option.some.inj h
  exact decode_v (by omega) rfl hw

theorem vimin (f : VFields) : Statement (.vimin f) := by
  intro n x h hw
  have h : some (96, encodeV 0x73 f) = some (n, x) := h
  obtain ⟨rfl, rfl⟩ := Prod.mk.injEq .. ▸ Option.some.inj h
  exact decode_v (by omega) rfl hw

theorem vimax (f : VFields) : Statement (.vimax f) := by
  intro n x h hw
  have h : some (96, encodeV 0x74 f) = some (n, x) := h
  obtain ⟨rfl, rfl⟩ := Prod.mk.injEq .. ▸ Option.some.inj h
  exact decode_v (by omega) rfl hw

theorem vpopc (f : VFields) : Statement (.vpopc f) := by
  intro n x h hw
  have h : some (96, encodeV 0x75 f) = some (n, x) := h
  obtain ⟨rfl, rfl⟩ := Prod.mk.injEq .. ▸ Option.some.inj h
  exact decode_v (by omega) rfl hw

theorem vbext (f : VFields) : Statement (.vbext f) := by
  intro n x h hw
  have h : some (96, encodeV 0x76 f) = some (n, x) := h
  obtain ⟨rfl, rfl⟩ := Prod.mk.injEq .. ▸ Option.some.inj h
  exact decode_v (by omega) rfl hw

theorem vhash (f : VFields) : Statement (.vhash f) := by
  intro n x h hw
  have h : some (96, encodeV 0x77 f) = some (n, x) := h
  obtain ⟨rfl, rfl⟩ := Prod.mk.injEq .. ▸ Option.some.inj h
  exact decode_v (by omega) rfl hw

theorem mstep (f : MFields) : Statement (.mstep f) := by
  intro n x h hw
  have h : some (192, encodeM 0x01 f) = some (n, x) := h
  obtain ⟨rfl, rfl⟩ := Prod.mk.injEq .. ▸ Option.some.inj h
  exact decode_m (by omega) (fun _ _ => rfl) hw

theorem mnest (f : MFields) : Statement (.mnest f) := by
  intro n x h hw
  have h : some (192, encodeM 0x02 f) = some (n, x) := h
  obtain ⟨rfl, rfl⟩ := Prod.mk.injEq .. ▸ Option.some.inj h
  exact decode_m (by omega) (fun _ _ => rfl) hw

theorem mnset (f : MFields) : Statement (.mnset f) := by
  intro n x h hw
  have h : some (192, encodeM 0x03 f) = some (n, x) := h
  obtain ⟨rfl, rfl⟩ := Prod.mk.injEq .. ▸ Option.some.inj h
  exact decode_m (by omega) (fun _ _ => rfl) hw

theorem mwb (f : MFields) : Statement (.mwb f) := by
  intro n x h hw
  have h : some (192, encodeM 0x04 f) = some (n, x) := h
  obtain ⟨rfl, rfl⟩ := Prod.mk.injEq .. ▸ Option.some.inj h
  exact decode_m (by omega) (fun _ _ => rfl) hw

theorem mzero (f : MFields) : Statement (.mzero f) := by
  intro n x h hw
  have h : some (192, encodeM 0x05 f) = some (n, x) := h
  obtain ⟨rfl, rfl⟩ := Prod.mk.injEq .. ▸ Option.some.inj h
  exact decode_m (by omega) (fun _ _ => rfl) hw

theorem mlda (f : MFields) : Statement (.mlda f) := by
  intro n x h hw
  have h : some (192, encodeM 0x06 f) = some (n, x) := h
  obtain ⟨rfl, rfl⟩ := Prod.mk.injEq .. ▸ Option.some.inj h
  exact decode_m (by omega) (fun _ _ => rfl) hw

theorem mspc (f : MFields) : Statement (.mspc f) := by
  intro n x h hw
  have h : some (192, encodeM 0x07 f) = some (n, x) := h
  obtain ⟨rfl, rfl⟩ := Prod.mk.injEq .. ▸ Option.some.inj h
  exact decode_m (by omega) (fun _ _ => rfl) hw

theorem msig (f : MFields) : Statement (.msig f) := by
  intro n x h hw
  have h : some (192, encodeM 0x08 f) = some (n, x) := h
  obtain ⟨rfl, rfl⟩ := Prod.mk.injEq .. ▸ Option.some.inj h
  exact decode_m (by omega) (fun _ _ => rfl) hw

theorem mscat (f : MFields) : Statement (.mscat f) := by
  intro n x h hw
  have h : some (192, encodeM 0x09 f) = some (n, x) := h
  obtain ⟨rfl, rfl⟩ := Prod.mk.injEq .. ▸ Option.some.inj h
  exact decode_m (by omega) (fun _ _ => rfl) hw

theorem cpy (f : MFields) : Statement (.cpy f) := by
  intro n x h hw
  have h : some (192, encodeM 0x40 f) = some (n, x) := h
  obtain ⟨rfl, rfl⟩ := Prod.mk.injEq .. ▸ Option.some.inj h
  exact decode_m (by omega) (fun _ _ => rfl) hw

theorem cpyi (f : MFields) : Statement (.cpyi f) := by
  intro n x h hw
  have h : some (192, encodeM 0x41 f) = some (n, x) := h
  obtain ⟨rfl, rfl⟩ := Prod.mk.injEq .. ▸ Option.some.inj h
  exact decode_m (by omega) (fun _ _ => rfl) hw

theorem cpyrs (f : MFields) : Statement (.cpyrs f) := by
  intro n x h hw
  have h : some (192, encodeM 0x42 f) = some (n, x) := h
  obtain ⟨rfl, rfl⟩ := Prod.mk.injEq .. ▸ Option.some.inj h
  exact decode_m (by omega) (fun _ _ => rfl) hw

theorem cpyk (f : MFields) : Statement (.cpyk f) := by
  intro n x h hw
  have h : some (192, encodeM 0x43 f) = some (n, x) := h
  obtain ⟨rfl, rfl⟩ := Prod.mk.injEq .. ▸ Option.some.inj h
  exact decode_m (by omega) (fun _ _ => rfl) hw

theorem cpymc (f : MFields) : Statement (.cpymc f) := by
  intro n x h hw
  have h : some (192, encodeM 0x44 f) = some (n, x) := h
  obtain ⟨rfl, rfl⟩ := Prod.mk.injEq .. ▸ Option.some.inj h
  exact decode_m (by omega) (fun _ _ => rfl) hw

theorem cwmk (f : MFields) : Statement (.cwmk f) := by
  intro n x h hw
  have h : some (192, encodeM 0x45 f) = some (n, x) := h
  obtain ⟨rfl, rfl⟩ := Prod.mk.injEq .. ▸ Option.some.inj h
  exact decode_m (by omega) (fun _ _ => rfl) hw

theorem ctpl (f : MFields) : Statement (.ctpl f) := by
  intro n x h hw
  have h : some (192, encodeM 0x46 f) = some (n, x) := h
  obtain ⟨rfl, rfl⟩ := Prod.mk.injEq .. ▸ Option.some.inj h
  exact decode_m (by omega) (fun _ _ => rfl) hw

theorem clar (f : MFields) : Statement (.clar f) := by
  intro n x h hw
  have h : some (192, encodeM 0x48 f) = some (n, x) := h
  obtain ⟨rfl, rfl⟩ := Prod.mk.injEq .. ▸ Option.some.inj h
  exact decode_m (by omega) (fun _ _ => rfl) hw

theorem clrs (f : MFields) : Statement (.clrs f) := by
  intro n x h hw
  have h : some (192, encodeM 0x49 f) = some (n, x) := h
  obtain ⟨rfl, rfl⟩ := Prod.mk.injEq .. ▸ Option.some.inj h
  exact decode_m (by omega) (fun _ _ => rfl) hw

theorem clag (f : MFields) : Statement (.clag f) := by
  intro n x h hw
  have h : some (192, encodeM 0x4A f) = some (n, x) := h
  obtain ⟨rfl, rfl⟩ := Prod.mk.injEq .. ▸ Option.some.inj h
  exact decode_m (by omega) (fun _ _ => rfl) hw

theorem clbc (f : MFields) : Statement (.clbc f) := by
  intro n x h hw
  have h : some (192, encodeM 0x4B f) = some (n, x) := h
  obtain ⟨rfl, rfl⟩ := Prod.mk.injEq .. ▸ Option.some.inj h
  exact decode_m (by omega) (fun _ _ => rfl) hw

theorem clxr (f : MFields) : Statement (.clxr f) := by
  intro n x h hw
  have h : some (192, encodeM 0x4C f) = some (n, x) := h
  obtain ⟨rfl, rfl⟩ := Prod.mk.injEq .. ▸ Option.some.inj h
  exact decode_m (by omega) (fun _ _ => rfl) hw

theorem clgrp (f : MFields) : Statement (.clgrp f) := by
  intro n x h hw
  have h : some (192, encodeM 0x4D f) = some (n, x) := h
  obtain ⟨rfl, rfl⟩ := Prod.mk.injEq .. ▸ Option.some.inj h
  exact decode_m (by omega) (fun _ _ => rfl) hw

theorem mbsend (f : MFields) : Statement (.mbsend f) := by
  intro n x h hw
  have h : some (192, encodeM 0x50 f) = some (n, x) := h
  obtain ⟨rfl, rfl⟩ := Prod.mk.injEq .. ▸ Option.some.inj h
  exact decode_m (by omega) (fun _ _ => rfl) hw

theorem mbrls (f : MFields) : Statement (.mbrls f) := by
  intro n x h hw
  have h : some (192, encodeM 0x51 f) = some (n, x) := h
  obtain ⟨rfl, rfl⟩ := Prod.mk.injEq .. ▸ Option.some.inj h
  exact decode_m (by omega) (fun _ _ => rfl) hw

theorem mbpol (f : MFields) : Statement (.mbpol f) := by
  intro n x h hw
  have h : some (192, encodeM 0x52 f) = some (n, x) := h
  obtain ⟨rfl, rfl⟩ := Prod.mk.injEq .. ▸ Option.some.inj h
  exact decode_m (by omega) (fun _ _ => rfl) hw

theorem mbstgLoad (f : MFields) : Statement (.mbstgLoad f) := by
  intro n x h hw
  have h : some (192, encodeM 0x53 f) = some (n, x) := h
  obtain ⟨rfl, rfl⟩ := Prod.mk.injEq .. ▸ Option.some.inj h
  have hk : f.mode.toNat % 4 = 0 := by simpa [illegalFields] using wellFormed_legal hw
  refine decode_m (by omega) (fun mode hm => ?_) hw
  simp only [mInstr, hm, hk]

theorem mbstgEnable (f : MFields) : Statement (.mbstgEnable f) := by
  intro n x h hw
  have h : some (192, encodeM 0x53 f) = some (n, x) := h
  obtain ⟨rfl, rfl⟩ := Prod.mk.injEq .. ▸ Option.some.inj h
  have hk : f.mode.toNat % 4 = 1 := by simpa [illegalFields] using wellFormed_legal hw
  refine decode_m (by omega) (fun mode hm => ?_) hw
  simp only [mInstr, hm, hk]

theorem mbstgDestroy (f : MFields) : Statement (.mbstgDestroy f) := by
  intro n x h hw
  have h : some (192, encodeM 0x53 f) = some (n, x) := h
  obtain ⟨rfl, rfl⟩ := Prod.mk.injEq .. ▸ Option.some.inj h
  have hk : f.mode.toNat % 4 = 2 := by simpa [illegalFields] using wellFormed_legal hw
  refine decode_m (by omega) (fun mode hm => ?_) hw
  simp only [mInstr, hm, hk]

theorem mbstgCancel (f : MFields) : Statement (.mbstgCancel f) := by
  intro n x h hw
  have h : some (192, encodeM 0x53 f) = some (n, x) := h
  obtain ⟨rfl, rfl⟩ := Prod.mk.injEq .. ▸ Option.some.inj h
  have hk : f.mode.toNat % 4 = 3 := by simpa [illegalFields] using wellFormed_legal hw
  refine decode_m (by omega) (fun mode hm => ?_) hw
  simp only [mInstr, hm, hk]

theorem stsh (f : MFields) : Statement (.stsh f) := by
  intro n x h hw
  have h : some (192, encodeM 0x58 f) = some (n, x) := h
  obtain ⟨rfl, rfl⟩ := Prod.mk.injEq .. ▸ Option.some.inj h
  exact decode_m (by omega) (fun _ _ => rfl) hw

theorem stft (f : MFields) : Statement (.stft f) := by
  intro n x h hw
  have h : some (192, encodeM 0x59 f) = some (n, x) := h
  obtain ⟨rfl, rfl⟩ := Prod.mk.injEq .. ▸ Option.some.inj h
  exact decode_m (by omega) (fun _ _ => rfl) hw

theorem stpf (f : MFields) : Statement (.stpf f) := by
  intro n x h hw
  have h : some (192, encodeM 0x5A f) = some (n, x) := h
  obtain ⟨rfl, rfl⟩ := Prod.mk.injEq .. ▸ Option.some.inj h
  exact decode_m (by omega) (fun _ _ => rfl) hw

theorem stdr (f : MFields) : Statement (.stdr f) := by
  intro n x h hw
  have h : some (192, encodeM 0x5B f) = some (n, x) := h
  obtain ⟨rfl, rfl⟩ := Prod.mk.injEq .. ▸ Option.some.inj h
  exact decode_m (by omega) (fun _ _ => rfl) hw

theorem stqy (f : MFields) : Statement (.stqy f) := by
  intro n x h hw
  have h : some (192, encodeM 0x5C f) = some (n, x) := h
  obtain ⟨rfl, rfl⟩ := Prod.mk.injEq .. ▸ Option.some.inj h
  exact decode_m (by omega) (fun _ _ => rfl) hw

theorem opj (f : MFields) : Statement (.opj f) := by
  intro n x h hw
  have h : some (192, encodeM 0x60 f) = some (n, x) := h
  obtain ⟨rfl, rfl⟩ := Prod.mk.injEq .. ▸ Option.some.inj h
  exact decode_m (by omega) (fun _ _ => rfl) hw

theorem oprt (f : MFields) : Statement (.oprt f) := by
  intro n x h hw
  have h : some (192, encodeM 0x61 f) = some (n, x) := h
  obtain ⟨rfl, rfl⟩ := Prod.mk.injEq .. ▸ Option.some.inj h
  exact decode_m (by omega) (fun _ _ => rfl) hw

theorem opsk (f : MFields) : Statement (.opsk f) := by
  intro n x h hw
  have h : some (192, encodeM 0x62 f) = some (n, x) := h
  obtain ⟨rfl, rfl⟩ := Prod.mk.injEq .. ▸ Option.some.inj h
  exact decode_m (by omega) (fun _ _ => rfl) hw

theorem bundleIssue : Statement (.bundleIssue) := by
  intro n x h hw
  exact absurd (show none = some (n, x) from h) (by simp)

theorem scoreboardReturn : Statement (.scoreboardReturn) := by
  intro n x h hw
  exact absurd (show none = some (n, x) from h) (by simp)

theorem watchdog : Statement (.watchdog) := by
  intro n x h hw
  exact absurd (show none = some (n, x) from h) (by simp)

theorem trapEntry : Statement (.trapEntry) := by
  intro n x h hw
  exact absurd (show none = some (n, x) from h) (by simp)

theorem regionReplay : Statement (.regionReplay) := by
  intro n x h hw
  exact absurd (show none = some (n, x) from h) (by simp)

theorem regionCheck : Statement (.regionCheck) := by
  intro n x h hw
  exact absurd (show none = some (n, x) from h) (by simp)

theorem remoteWriteAck : Statement (.remoteWriteAck) := by
  intro n x h hw
  exact absurd (show none = some (n, x) from h) (by simp)

theorem launchDispatch : Statement (.launchDispatch) := by
  intro n x h hw
  exact absurd (show none = some (n, x) from h) (by simp)

theorem stageDispatch : Statement (.stageDispatch) := by
  intro n x h hw
  exact absurd (show none = some (n, x) from h) (by simp)

theorem taskRetire : Statement (.taskRetire) := by
  intro n x h hw
  exact absurd (show none = some (n, x) from h) (by simp)

theorem lqTail : Statement (.lqTail) := by
  intro n x h hw
  exact absurd (show none = some (n, x) from h) (by simp)

theorem lqCtail : Statement (.lqCtail) := by
  intro n x h hw
  exact absurd (show none = some (n, x) from h) (by simp)

theorem lqCtlEnable : Statement (.lqCtlEnable) := by
  intro n x h hw
  exact absurd (show none = some (n, x) from h) (by simp)

theorem lqCtlDestroy : Statement (.lqCtlDestroy) := by
  intro n x h hw
  exact absurd (show none = some (n, x) from h) (by simp)

theorem lqCtlCancel : Statement (.lqCtlCancel) := by
  intro n x h hw
  exact absurd (show none = some (n, x) from h) (by simp)

theorem registerWrite : Statement (.registerWrite) := by
  intro n x h hw
  exact absurd (show none = some (n, x) from h) (by simp)

theorem aperturePush : Statement (.aperturePush) := by
  intro n x h hw
  exact absurd (show none = some (n, x) from h) (by simp)

theorem preempt : Statement (.preempt) := by
  intro n x h hw
  exact absurd (show none = some (n, x) from h) (by simp)

theorem resume : Statement (.resume) := by
  intro n x h hw
  exact absurd (show none = some (n, x) from h) (by simp)

theorem discard : Statement (.discard) := by
  intro n x h hw
  exact absurd (show none = some (n, x) from h) (by simp)

theorem fault : Statement (.fault) := by
  intro n x h hw
  exact absurd (show none = some (n, x) from h) (by simp)

theorem gwsave : Statement (.gwsave) := by
  intro n x h hw
  exact absurd (show none = some (n, x) from h) (by simp)

theorem gwrestore : Statement (.gwrestore) := by
  intro n x h hw
  exact absurd (show none = some (n, x) from h) (by simp)

theorem corectlResume : Statement (.corectlResume) := by
  intro n x h hw
  exact absurd (show none = some (n, x) from h) (by simp)

theorem dtcmdGo : Statement (.dtcmdGo) := by
  intro n x h hw
  exact absurd (show none = some (n, x) from h) (by simp)

theorem ownerTableWrite : Statement (.ownerTableWrite) := by
  intro n x h hw
  exact absurd (show none = some (n, x) from h) (by simp)

theorem hostErr : Statement (.hostErr) := by
  intro n x h hw
  exact absurd (show none = some (n, x) from h) (by simp)

theorem rasLost : Statement (.rasLost) := by
  intro n x h hw
  exact absurd (show none = some (n, x) from h) (by simp)

theorem rasCorr : Statement (.rasCorr) := by
  intro n x h hw
  exact absurd (show none = some (n, x) from h) (by simp)

theorem fabcnt : Statement (.fabcnt) := by
  intro n x h hw
  exact absurd (show none = some (n, x) from h) (by simp)

theorem lksts : Statement (.lksts) := by
  intro n x h hw
  exact absurd (show none = some (n, x) from h) (by simp)

theorem bootStatus : Statement (.bootStatus) := by
  intro n x h hw
  exact absurd (show none = some (n, x) from h) (by simp)

theorem hostWrite : Statement (.hostWrite) := by
  intro n x h hw
  exact absurd (show none = some (n, x) from h) (by simp)

theorem hostRead : Statement (.hostRead) := by
  intro n x h hw
  exact absurd (show none = some (n, x) from h) (by simp)

theorem atsInvalidate : Statement (.atsInvalidate) := by
  intro n x h hw
  exact absurd (show none = some (n, x) from h) (by simp)

theorem fwWinWrite : Statement (.fwWinWrite) := by
  intro n x h hw
  exact absurd (show none = some (n, x) from h) (by simp)

theorem bootCtlGo : Statement (.bootCtlGo) := by
  intro n x h hw
  exact absurd (show none = some (n, x) from h) (by simp)

theorem bootCtlWarm : Statement (.bootCtlWarm) := by
  intro n x h hw
  exact absurd (show none = some (n, x) from h) (by simp)

theorem powerOn : Statement (.powerOn) := by
  intro n x h hw
  exact absurd (show none = some (n, x) from h) (by simp)

theorem perst : Statement (.perst) := by
  intro n x h hw
  exact absurd (show none = some (n, x) from h) (by simp)

theorem hotReset : Statement (.hotReset) := by
  intro n x h hw
  exact absurd (show none = some (n, x) from h) (by simp)

theorem dlDown : Statement (.dlDown) := by
  intro n x h hw
  exact absurd (show none = some (n, x) from h) (by simp)

theorem pfFlr : Statement (.pfFlr) := by
  intro n x h hw
  exact absurd (show none = some (n, x) from h) (by simp)

theorem vfFlr : Statement (.vfFlr) := by
  intro n x h hw
  exact absurd (show none = some (n, x) from h) (by simp)

theorem firmwareCheck : Statement (.firmwareCheck) := by
  intro n x h hw
  exact absurd (show none = some (n, x) from h) (by simp)

theorem hbmTraining : Statement (.hbmTraining) := by
  intro n x h hw
  exact absurd (show none = some (n, x) from h) (by simp)

theorem zeroFill : Statement (.zeroFill) := by
  intro n x h hw
  exact absurd (show none = some (n, x) from h) (by simp)

theorem linkEqualisation : Statement (.linkEqualisation) := by
  intro n x h hw
  exact absurd (show none = some (n, x) from h) (by simp)

theorem coreSelfTest : Statement (.coreSelfTest) := by
  intro n x h hw
  exact absurd (show none = some (n, x) from h) (by simp)

theorem supervisorLoad : Statement (.supervisorLoad) := by
  intro n x h hw
  exact absurd (show none = some (n, x) from h) (by simp)

theorem startTimeout : Statement (.startTimeout) := by
  intro n x h hw
  exact absurd (show none = some (n, x) from h) (by simp)

theorem version : Statement (.version) := by
  intro n x h hw
  exact absurd (show none = some (n, x) from h) (by simp)

theorem telemetry : Statement (.telemetry) := by
  intro n x h hw
  exact absurd (show none = some (n, x) from h) (by simp)

theorem loadkey : Statement (.loadkey) := by
  intro n x h hw
  exact absurd (show none = some (n, x) from h) (by simp)

theorem setpasid : Statement (.setpasid) := by
  intro n x h hw
  exact absurd (show none = some (n, x) from h) (by simp)

theorem raisesvn : Statement (.raisesvn) := by
  intro n x h hw
  exact absurd (show none = some (n, x) from h) (by simp)

theorem recexit : Statement (.recexit) := by
  intro n x h hw
  exact absurd (show none = some (n, x) from h) (by simp)

theorem inject : Statement (.inject) := by
  intro n x h hw
  exact absurd (show none = some (n, x) from h) (by simp)

theorem events : Statement (.events) := by
  intro n x h hw
  exact absurd (show none = some (n, x) from h) (by simp)

theorem monitorWindow : Statement (.monitorWindow) := by
  intro n x h hw
  exact absurd (show none = some (n, x) from h) (by simp)

theorem scrubPass : Statement (.scrubPass) := by
  intro n x h hw
  exact absurd (show none = some (n, x) from h) (by simp)

theorem stackLoss : Statement (.stackLoss) := by
  intro n x h hw
  exact absurd (show none = some (n, x) from h) (by simp)

theorem throttleWindow : Statement (.throttleWindow) := by
  intro n x h hw
  exact absurd (show none = some (n, x) from h) (by simp)

theorem write : Statement (.write) := by
  intro n x h hw
  exact absurd (show none = some (n, x) from h) (by simp)

theorem writem : Statement (.writem) := by
  intro n x h hw
  exact absurd (show none = some (n, x) from h) (by simp)

theorem read : Statement (.read) := by
  intro n x h hw
  exact absurd (show none = some (n, x) from h) (by simp)

theorem atomic : Statement (.atomic) := by
  intro n x h hw
  exact absurd (show none = some (n, x) from h) (by simp)

theorem tensor : Statement (.tensor) := by
  intro n x h hw
  exact absurd (show none = some (n, x) from h) (by simp)

theorem coll : Statement (.coll) := by
  intro n x h hw
  exact absurd (show none = some (n, x) from h) (by simp)

theorem groupAbort : Statement (.groupAbort) := by
  intro n x h hw
  exact absurd (show none = some (n, x) from h) (by simp)

theorem data : Statement (.data) := by
  intro n x h hw
  exact absurd (show none = some (n, x) from h) (by simp)

theorem ack : Statement (.ack) := by
  intro n x h hw
  exact absurd (show none = some (n, x) from h) (by simp)

theorem nak : Statement (.nak) := by
  intro n x h hw
  exact absurd (show none = some (n, x) from h) (by simp)

theorem retryBackoff : Statement (.retryBackoff) := by
  intro n x h hw
  exact absurd (show none = some (n, x) from h) (by simp)

theorem marker : Statement (.marker) := by
  intro n x h hw
  exact absurd (show none = some (n, x) from h) (by simp)

theorem lnak : Statement (.lnak) := by
  intro n x h hw
  exact absurd (show none = some (n, x) from h) (by simp)

theorem kload : Statement (.kload) := by
  intro n x h hw
  exact absurd (show none = some (n, x) from h) (by simp)

theorem lkctlSwitch : Statement (.lkctlSwitch) := by
  intro n x h hw
  exact absurd (show none = some (n, x) from h) (by simp)

theorem lkctlInuse : Statement (.lkctlInuse) := by
  intro n x h hw
  exact absurd (show none = some (n, x) from h) (by simp)

theorem keyWarn : Statement (.keyWarn) := by
  intro n x h hw
  exact absurd (show none = some (n, x) from h) (by simp)

theorem keyExhausted : Statement (.keyExhausted) := by
  intro n x h hw
  exact absurd (show none = some (n, x) from h) (by simp)

theorem linkDown : Statement (.linkDown) := by
  intro n x h hw
  exact absurd (show none = some (n, x) from h) (by simp)

theorem newver : Statement (.newver) := by
  intro n x h hw
  exact absurd (show none = some (n, x) from h) (by simp)

theorem cancelGroup : Statement (.cancelGroup) := by
  intro n x h hw
  exact absurd (show none = some (n, x) from h) (by simp)

theorem nop : Statement (.nop) := by
  intro n x h hw
  have h : some (32, word 0x9C000000 []) = some (n, x) := h
  obtain ⟨rfl, hx⟩ := Prod.mk.injEq .. ▸ Option.some.inj h
  obtain ⟨h1, h2, h3⟩ := word_sel8at0_zero18at8 (M := 39) (S := 0) (by omega) (by omega) rfl hx
  refine decode_row (r := rows27[0]) h1 ?_ h3 ?_ hw
  · show rows27.find? _ = _
    simp only [rows27, List.find?, h2, beq_self_eq_true]; rfl
  · rfl

theorem yield : Statement (.yield) := by
  intro n x h hw
  have h : some (32, word 0x9C000001 []) = some (n, x) := h
  obtain ⟨rfl, hx⟩ := Prod.mk.injEq .. ▸ Option.some.inj h
  obtain ⟨h1, h2, h3⟩ := word_sel8at0_zero18at8 (M := 39) (S := 1) (by omega) (by omega) rfl hx
  refine decode_row (r := rows27[1]) h1 ?_ h3 ?_ hw
  · show rows27.find? _ = _
    simp only [rows27, List.find?, h2, Nat.reduceBEq, beq_self_eq_true]; rfl
  · rfl

theorem texit : Statement (.texit) := by
  intro n x h hw
  have h : some (32, word 0x9C000002 []) = some (n, x) := h
  obtain ⟨rfl, hx⟩ := Prod.mk.injEq .. ▸ Option.some.inj h
  obtain ⟨h1, h2, h3⟩ := word_sel8at0_zero18at8 (M := 39) (S := 2) (by omega) (by omega) rfl hx
  refine decode_row (r := rows27[2]) h1 ?_ h3 ?_ hw
  · show rows27.find? _ = _
    simp only [rows27, List.find?, h2, Nat.reduceBEq, beq_self_eq_true]; rfl
  · rfl

theorem halt : Statement (.halt) := by
  intro n x h hw
  have h : some (32, word 0x9C000003 []) = some (n, x) := h
  obtain ⟨rfl, hx⟩ := Prod.mk.injEq .. ▸ Option.some.inj h
  obtain ⟨h1, h2, h3⟩ := word_sel8at0_zero18at8 (M := 39) (S := 3) (by omega) (by omega) rfl hx
  refine decode_row (r := rows27[3]) h1 ?_ h3 ?_ hw
  · show rows27.find? _ = _
    simp only [rows27, List.find?, h2, Nat.reduceBEq, beq_self_eq_true]; rfl
  · rfl

theorem eret : Statement (.eret) := by
  intro n x h hw
  have h : some (32, word 0x9C000004 []) = some (n, x) := h
  obtain ⟨rfl, hx⟩ := Prod.mk.injEq .. ▸ Option.some.inj h
  obtain ⟨h1, h2, h3⟩ := word_sel8at0_zero18at8 (M := 39) (S := 4) (by omega) (by omega) rfl hx
  refine decode_row (r := rows27[4]) h1 ?_ h3 ?_ hw
  · show rows27.find? _ = _
    simp only [rows27, List.find?, h2, Nat.reduceBEq, beq_self_eq_true]; rfl
  · rfl

theorem wfi : Statement (.wfi) := by
  intro n x h hw
  have h : some (32, word 0x9C000005 []) = some (n, x) := h
  obtain ⟨rfl, hx⟩ := Prod.mk.injEq .. ▸ Option.some.inj h
  obtain ⟨h1, h2, h3⟩ := word_sel8at0_zero18at8 (M := 39) (S := 5) (by omega) (by omega) rfl hx
  refine decode_row (r := rows27[5]) h1 ?_ h3 ?_ hw
  · show rows27.find? _ = _
    simp only [rows27, List.find?, h2, Nat.reduceBEq, beq_self_eq_true]; rfl
  · rfl

theorem bkpt : Statement (.bkpt) := by
  intro n x h hw
  have h : some (32, word 0x9C000006 []) = some (n, x) := h
  obtain ⟨rfl, hx⟩ := Prod.mk.injEq .. ▸ Option.some.inj h
  obtain ⟨h1, h2, h3⟩ := word_sel8at0_zero18at8 (M := 39) (S := 6) (by omega) (by omega) rfl hx
  refine decode_row (r := rows27[6]) h1 ?_ h3 ?_ hw
  · show rows27.find? _ = _
    simp only [rows27, List.find?, h2, Nat.reduceBEq, beq_self_eq_true]; rfl
  · rfl

theorem icsync : Statement (.icsync) := by
  intro n x h hw
  have h : some (32, word 0xF0000002 []) = some (n, x) := h
  obtain ⟨rfl, hx⟩ := Prod.mk.injEq .. ▸ Option.some.inj h
  obtain ⟨h1, h2, h3⟩ := word_sel2at0_zero24at2 (M := 60) (S := 2) (by omega) (by omega) rfl hx
  refine decode_row (r := rows3C[2]) h1 ?_ h3 ?_ hw
  · show rows3C.find? _ = _
    simp only [rows3C, List.find?, h2, Nat.reduceBEq, beq_self_eq_true]; rfl
  · rfl

theorem routerCycle : Statement (.routerCycle) := by
  intro n x h hw
  exact absurd (show none = some (n, x) from h) (by simp)

theorem writePerformed : Statement (.writePerformed) := by
  intro n x h hw
  exact absurd (show none = some (n, x) from h) (by simp)

theorem linkTrained : Statement (.linkTrained) := by
  intro n x h hw
  exact absurd (show none = some (n, x) from h) (by simp)

theorem hostCompletion : Statement (.hostCompletion) := by
  intro n x h hw
  exact absurd (show none = some (n, x) from h) (by simp)

theorem completionTimeout : Statement (.completionTimeout) := by
  intro n x h hw
  exact absurd (show none = some (n, x) from h) (by simp)

theorem backInvalidateAnswer : Statement (.backInvalidateAnswer) := by
  intro n x h hw
  exact absurd (show none = some (n, x) from h) (by simp)

theorem cxlCacheSnoop : Statement (.cxlCacheSnoop) := by
  intro n x h hw
  exact absurd (show none = some (n, x) from h) (by simp)

theorem msixVectorUnmask : Statement (.msixVectorUnmask) := by
  intro n x h hw
  exact absurd (show none = some (n, x) from h) (by simp)

theorem vfFlrComplete : Statement (.vfFlrComplete) := by
  intro n x h hw
  exact absurd (show none = some (n, x) from h) (by simp)

theorem mbReq : Statement (.mbReq) := by
  intro n x h hw
  exact absurd (show none = some (n, x) from h) (by simp)

theorem tcCmd : Statement (.tcCmd) := by
  intro n x h hw
  exact absurd (show none = some (n, x) from h) (by simp)

end Laws.RoundTrip
end Sys2Proof
end

