-- ==== Sys2Proof/Safety.lean ====
section
/-!
DEFINITION. The terms in which claims are stated: what two states share, which instructions have one shape, and what a sound
state of the package is.
-/
namespace Sys2Proof.Machine

/-- Memory is in its canonical form. -/
def State.memOk (s : State) : Prop := Memory.wf s.mem = true

/-- `t` differs from `s` in the current strand alone: every other strand, every core, die, task and queue, and every byte of
memory are as they were. -/
def OnlyStrand (s t : State) : Prop := t = { s with strands := t.strands } ∧ ∀ n, n ≠ s.cur → t.strandAt n = s.strandAt n

/-- `t` differs from `s` in the s registers of the current strand alone, in its results still to land, and in the number of
free values drawn; among the registers only s(d) may differ. -/
def OnlyReg (s t : State) (d : Nat) : Prop :=
  OnlyStrand s t ∧ t.st = { s.st with now := { s.st.now with s := t.st.now.s }, late := t.st.late } ∧
  (∀ n, n ≠ d → t.st.now.getS n = s.st.now.getS n) ∧ (∀ l, l ∈ t.st.late → l.dst ≠ d → l ∈ s.st.late)

/-- `t` differs from `s` in the guards of the current strand and in VFLAGS.SCALAR alone; among the guards only g(d). -/
def OnlyGuard (s t : State) (d : Nat) : Prop :=
  OnlyStrand s t ∧ t.st = { s.st with now := { s.st.now with g := t.st.now.g, vflags := t.st.now.vflags } } ∧
  ∀ n, n < 8 → n ≠ d → t.st.now.getG n = s.st.now.getG n

/-- The scalar instructions that compute a value for s(rd) from registers alone: integer, immediate, bit-field and selection
instructions (R180 to R184), GETF (R218) and TDGET (R224), whose destination is given. -/
def computes : Instr → Option (BitVec 6)
  | .add d .. | .sub d .. | .and d .. | .or d .. | .xor d .. | .andn d .. | .sll d .. | .srl d .. | .sra d .. | .mul d ..
  | .mulhs d .. | .mulhu d .. | .divs d .. | .divu d .. | .rems d .. | .remu d .. | .min d .. | .minu d .. | .max d ..
  | .maxu d .. | .slt d .. | .sltu d .. | .clz d .. | .ctz d .. | .popc d .. | .brev d .. | .sext d .. | .zext d ..
  | .addi d .. | .andi d .. | .ori d .. | .xori d .. | .muli d .. | .slli d .. | .srli d .. | .srai d .. | .lui d ..
  | .auipc d .. | .bext d .. | .bins d .. | .bextr d .. | .binsr d .. | .sel d .. | .getf d _ | .tdget d .. => some d
  | _ => none

/-- The scalar instructions that write a guard and no other register: compares and guard operations (R194 to R196). -/
def decides : Instr → Option (BitVec 3)
  | .cmpEq g .. | .cmpNe g .. | .cmpLt g .. | .cmpGe g .. | .cmpLtu g .. | .cmpGeu g .. | .cmpTst g .. | .cmpNtst g ..
  | .cmpiEq g .. | .cmpiNe g .. | .cmpiLt g .. | .cmpiGe g .. | .cmpiLtu g .. | .cmpiGeu g .. | .cmpiTst g .. | .cmpiNtst g ..
  | .gopAnd g .. | .gopOr g .. | .gopXor g .. | .gopAndn g .. | .fcmpFeq g .. | .fcmpFlt g .. | .fcmpFle g ..
  | .fcmpFun g .. => some g
  | _ => none

/-- The floating-point instructions, whose destination is given (R200 to R203). -/
def floats : Instr → Option (BitVec 6)
  | .fadd d .. | .fsub d .. | .fmul d .. | .fdiv d .. | .fsqrt d .. | .fmin d .. | .fmax d .. | .fabs d .. | .fneg d ..
  | .fsgnj d .. | .fclass d .. | .fma d .. | .fms d .. | .fnma d .. | .fnms d .. | .fcvt d .. => some d
  | _ => none

/-! ### States in which an instruction has its plain effect -/

/-- The current strand has no fault reported, nothing outstanding, no result still to land, no earlier slot of its bundle to execute and no
earlier region to check: a trap is taken at once (R246). -/
def State.calm (s : State) : Prop :=
  s.st.fault = none ∧ s.st.idle = true ∧ s.st.late = [] ∧ s.st.flight.bind (·.before s.st.seq) = none ∧
  ∀ r ∈ s.st.regions.takeWhile (·.rid != s.st.curRid), r.expCycles = 0 ∨ r.checked = true

/-- A commit-class instruction of the current strand executes now (R60, R65). -/
def State.commitsNow (s : State) : Prop := s.st.cancelling = false ∧ s.st.mayCommit = true

/-- The package's memory holds no store on its way, lent line, failing check bits, lost stack or injected check value. -/
def State.plainMem (s : State) : Prop :=
  s.stores = [] ∧ s.posted = [] ∧ s.held = [] ∧ s.memSyn = [] ∧ s.poison = [] ∧ s.lost = [] ∧ s.l2inj = []

/-- The scratchpad of a core has no failing check bits, no active copy range and no bound copy. -/
def State.plainSpm (s : State) (core : Nat) : Prop :=
  (s.coreAt core).spmSyn = [] ∧ (∀ p ∈ (s.coreAt core).chans, p.2.active = false) ∧
  ∀ k, k < Config.slots → ∀ p ∈ (s.strandAt (core * Config.slots + k)).sync, p.2.att = none

/-- The current strand's core holds no L1 sector and no injected check value. -/
def State.noL1 (s : State) (core : Nat) : Prop := (s.coreAt core).l1 = [] ∧ (s.coreAt core).inj = []

/-- `va` is aligned to `n` bytes and names the `n` bytes from `off` on of the own scratchpad, in the strand's window (R20, R28). -/
def State.ownBytes (s : State) (va : Word) (off n : Nat) : Prop :=
  va.toNat = localBase + off ∧ off + n ≤ 0x400000 ∧ va.toNat % n = 0 ∧ s.st.inWindow off n = true

/-- `t` is `s` with one more scoreboarded value of the executing slot on its way to `dst` (R154). -/
def Boards (s t : State) (dst : Dest) (v : BitVec 256) : Prop :=
  ∃ b : Board, b.dst = dst ∧ b.val = some v ∧ b.seq = s.st.seq ∧ b.rid = s.st.curRid ∧
    t = s.setSt { s.st with board := s.st.board ++ [b] }

/-- `t` is `s` after a trap of the executing slot (R230): the faulting region is the innermost one. -/
structure TrapTaken (s t : State) (cause aux : Nat) (info : Word) : Prop where
  saved : t.st.now.trapCause = BitVec.ofNat 64 (cause + (s.st.region s.st.curRid).id * 256) ∧
    t.st.now.trapPc = (s.st.region s.st.curRid).entry ∧ t.st.now.trapInfo = info ∧ t.st.now.trapAux = BitVec.ofNat 64 aux
  status : t.st.now.psup = s.st.now.sup ∧ t.st.now.sup = true ∧ t.st.now.trapped = true
  pc : t.st.pc = (s.coreAt s.curCore).tvec
  inputs : ∀ k, t.st.now.getS k =
    if k ≠ 0 ∧ (s.st.region s.st.curRid).mask.getLsbD k then smGet 0 (s.st.region s.st.curRid).inputs.s k else 0
  guards : t.st.now.g = (s.st.region s.st.curRid).inputs.g
  targets : t.st.now.bt = []
  region : t.st.regions.map (fun r => (r.id, r.entry, r.closed)) = [(0xFFFF, (s.coreAt s.curCore).tvec, false)]
  memory : t.mem = s.mem
  others : ∀ n, n ≠ s.cur → t.strandAt n = s.strandAt n

/-- The executing slot's access to a sync object finds it (R208): it lies at `pa` in the package's memory, its words are as the
instructions on sync objects left them (R78), the L1 holds no sector of its line, the strand has no bound copy, and `u` is the machine
after translation. -/
def State.objectAt (s : State) (y : Word) (need : Need) (pa : Nat) (u : State) : Prop :=
  y.toNat % 64 = 0 ∧ s.place s.curCore s.st.src.sup need 2 y = (u, .ok (.mem pa)) ∧ u.plainMem ∧ u.objSound pa = true ∧
    (∀ p ∈ u.st.sync, p.2.att = none) ∧ ∀ q ∈ (u.coreAt s.curCore).l1, q.1 / 8 ≠ pa / 128

/-! ### Engine entries -/

/-- A V entry's turn reaches its operation: it runs, begins, meets no injected error, its checks pass (R268), and its sources read as
`l` without a wait, at `u`. -/
structure VReady (s u : State) (e : Entry) (f : VFields) (inPlace : Bool) (ds : List Dst) (xs : List Src) (l : List (List Got)) : Prop where
  served : s.engine = some e
  runs : e.runs = true
  begins : e.phase = 0
  sound : smFind (s.coreAt e.core).inj (injKey 7 0) = none
  defined : e.undef = false
  count : e.cnt ≠ 0
  described : s.vTdesc e f ds xs = none
  apart : valias e f inPlace ds xs = none
  reads : Rd.srcs { s } e (vHint f) xs = ({ s := u }, l)

/-- Sources 1 to `n` of an operation, read as values, or as raw codes. -/
def Entry.srcs (e : Entry) (vop : Nat) (f : VFields) (n : Nat) (raw : Bool) : List Src := (List.range n).map fun k => e.src vop f (k + 1) raw

/-- The value of lane `l` after its positions, in their order (R262). -/
def laneValue (o : RedOp) (xs : List (Nat × Val)) (l : Nat) : Option Val :=
  (xs.filter fun p => p.1 % 256 == l).foldl (fun a p => some (match a with
    | none => (o.first p.2).1
    | some v => (o.step v p.2).1)) none

/-- The tree over `2 ^ k` lanes from lane `lo` on: neighbouring halves merge, and an empty half gives the other (R262). -/
def laneTree (o : RedOp) (lane : Nat → Option Val) : Nat → Nat → Option Val
  | 0, lo => lane lo
  | k + 1, lo => match laneTree o lane k lo, laneTree o lane k (lo + 2 ^ k) with
    | some a, some b => some (o.merge a b).1
    | some a, none => some a
    | none, b => b

/-- The turn of an entry of the ME, CE or a die engine reaches its operation: nothing injected, and nothing done so far. The turn makes
all the entry's writes. -/
structure MReady (s : State) (e : Entry) : Prop where
  served : s.engine = some e
  whole : s.pace = 0
  runs : e.runs = true
  begins : e.phase = 0
  fresh : e.keep = [] ∧ e.plan = [] ∧ e.parts = [] ∧ e.waits = [] ∧ e.got = [] ∧ e.fails = []
  defined : e.undef = false
  sound : (s.coreAt e.core).inj = []

/-- `t` and `s` agree but for one core's accumulator with its injected check values, the strand of an entry and what its engine
served last. -/
def OnlyCells (s t : State) (e : Entry) : Prop :=
  t.mem = s.mem ∧ (t.coreAt e.core) = { s.coreAt e.core with acc := (t.coreAt e.core).acc, inj := (t.coreAt e.core).inj, lastServed := (t.coreAt e.core).lastServed } ∧
  (∀ c, c ≠ e.core → t.coreAt c = s.coreAt c) ∧ ∀ n, some n ≠ e.strand → t.strandAt n = s.strandAt n

/-- The products of one cell, each added with one rounding to FP32 (R123). -/
def sumCell (c : Nat) (l : List (Val × Val)) : Nat :=
  l.foldl (fun c p => (ffRound ffF32 0 0 false (valAdd false (ffDec ffF32 c) (valMul p.1 p.2).1).1).1) c

/-- Every write of an entry to the own scratchpad: address and bytes, each in the window of strand `n`. -/
def State.ownPuts (s : State) (n : Nat) (puts : List Put) : Prop :=
  ∀ p ∈ puts, ∃ off k, p.1 = (8 * ((localBase + off : Nat) : Int), 8 * k) ∧ 1 ≤ k ∧ k ≤ 8 ∧ off + k ≤ 0x400000 ∧ (s.strandAt n).inWindow off k = true

/-- Byte `a` of a scratchpad after whole-byte writes in their order. -/
def afterPuts (puts : List Put) (a : Nat) (old : Byte) : Byte :=
  puts.foldl (fun b p =>
    let at8 := (p.1.1 / 8).toNat - localBase
    if at8 ≤ a ∧ a < at8 + p.1.2 / 8 then BitVec.ofNat 8 (p.2 / 2 ^ (8 * (a - at8))) else b) old

/-- An entry of a queue as it stands in a state. -/
def State.entryAt (s : State) (e : Entry) : Option Entry :=
  match e.strand with
  | some n => (smGet [] (s.strandAt n).queues ((engineOf e.instr).getD 0)).find? (·.seq == e.seq)
  | none => (s.coreAt e.core).apq.find? (·.seq == e.seq)

/-! ### Events -/

/-- Strand `n` has taken the trap of `p` (R230): cause, region entry and information are saved, the faulting region's inputs are back,
and it stands in supervisor context at TVEC; no other strand has changed. -/
structure TrapAt (s t : State) (n : Nat) (p : Pending) : Prop where
  saved : (t.strandAt n).now.trapCause = BitVec.ofNat 64 (p.cause + ((s.strandAt n).region p.rid).id * 256) ∧
    (t.strandAt n).now.trapPc = ((s.strandAt n).region p.rid).entry ∧ (t.strandAt n).now.trapInfo = p.info ∧
    (t.strandAt n).now.trapAux = p.aux
  status : (t.strandAt n).now.psup = (s.strandAt n).now.sup ∧ (t.strandAt n).now.sup = true ∧ (t.strandAt n).now.trapped = true
  pc : (t.strandAt n).pc = (s.coreAt (coreOf n)).tvec
  inputs : ∀ k, (t.strandAt n).now.getS k =
    if k ≠ 0 ∧ ((s.strandAt n).region p.rid).mask.getLsbD k then smGet 0 ((s.strandAt n).region p.rid).inputs.s k else 0
  guards : (t.strandAt n).now.g = ((s.strandAt n).region p.rid).inputs.g
  others : ∀ m, m ≠ n → t.strandAt m = s.strandAt m

/-- Strand `n` has entered region `rid` again (R464): its inputs are back, nothing of it is outstanding, and it has one replay more. -/
structure Replayed (s t : State) (n rid : Nat) : Prop where
  pc : (t.strandAt n).pc = ((s.strandAt n).region rid).entry
  inputs : ∀ k, (t.strandAt n).now.getS k =
    if k ≠ 0 ∧ ((s.strandAt n).region rid).mask.getLsbD k then smGet 0 ((s.strandAt n).region rid).inputs.s k else 0
  guards : (t.strandAt n).now.g = ((s.strandAt n).region rid).inputs.g
  status : (t.strandAt n).now.sup = (s.strandAt n).now.sup ∧ (t.strandAt n).now.trapped = (s.strandAt n).now.trapped
  region : (t.strandAt n).regions.getLast?.map (fun r => (r.rid, r.replays, r.closed, r.reopen, r.cycles)) =
    some (((s.strandAt n).region rid).rid, ((s.strandAt n).region rid).replays + 1, false, true, 0)
  dropped : (t.strandAt n).board = [] ∧ (t.strandAt n).queues = [] ∧ (t.strandAt n).flight = none ∧ (t.strandAt n).fault = none
  others : ∀ m, m ≠ n → t.strandAt m = s.strandAt m

/-- Strand `n` waits for no slot of its bundle issued before `seq`, and for no check of a region before `rid` (R246). -/
def State.clearBefore (s : State) (n seq rid : Nat) : Prop :=
  (s.strandAt n).flight.bind (·.before seq) = none ∧
  ∀ r ∈ (s.strandAt n).regions.takeWhile (·.rid != rid), r.expCycles = 0 ∨ r.checked = true

/-- Strand `n` can take a trap of region `rid` at once: nothing outstanding, no result still to land, no earlier slot or region check, a
handler, and no trap being handled. -/
def State.trapsAtOnce (s : State) (n seq rid : Nat) : Prop :=
  (s.strandAt n).idle = true ∧ (s.strandAt n).late = [] ∧ (s.strandAt n).now.trapped = false ∧ (s.coreAt (coreOf n)).tvec ≠ 0 ∧
  s.clearBefore n seq rid

/-- `t` has the memory of `s` but for the next entry of die `d`'s record ring (R461). -/
def OnlyRecord (s t : State) (d : Nat) : Prop :=
  ∀ a, a < rasBase d + 32 * (s.dieAt d).rasHead ∨ rasBase d + 32 * (s.dieAt d).rasHead + 32 ≤ a → t.memByte a = s.memByte a

/-- Strand `n` has just started for task `id` as rank `rank` of `size` (R49): at its entry in one implicit region, with its initial
registers, windows and class, and everything else at zero. -/
structure Started (t : State) (n id size rank : Nat) (a : Start) : Prop where
  live : (t.strandAt n).live = true ∧ (t.strandAt n).task = id ∧ (t.strandAt n).gangSize = size ∧ (t.strandAt n).gangRank = rank
  place : (t.strandAt n).pc = BitVec.ofNat 64 a.pc ∧ (t.strandAt n).stage = a.stage ∧
    (t.strandAt n).regions.map (fun r => (r.id, r.entry, r.closed)) = [(0xFFFF, BitVec.ofNat 64 a.pc, false)]
  windows : (t.strandAt n).spmBase = a.spmBase ∧ (t.strandAt n).spmLen = a.spmLen ∧ (t.strandAt n).accBase = a.accBase ∧ (t.strandAt n).accN = a.accN
  registers : (t.strandAt n).now.getS 1 = a.s1 ∧ (t.strandAt n).now.getS 2 = a.s2 ∧ (t.strandAt n).now.getS 3 = a.s3 ∧
    (t.strandAt n).now.getS 4 = a.s4 ∧ (∀ k, 4 < k → (t.strandAt n).now.getS k = 0) ∧ (t.strandAt n).now.t = a.t
  status : (t.strandAt n).now.cls = BitVec.ofNat 2 a.cls ∧ (t.strandAt n).now.sup = (a.cls == 3) ∧ (t.strandAt n).now.trapped = false ∧
    (t.strandAt n).now.srSeed = BitVec.ofNat 32 (a.seed.getD id)
  idle : (t.strandAt n).idle = true ∧ (t.strandAt n).flight = none ∧ (t.strandAt n).fault = none ∧ (t.strandAt n).sync = []

end Sys2Proof.Machine
end

