-- ==== Sys2Proof/Certificates/Slice0/Obligations.lean ====
section
/-!
DEFINITION. The statements for the provers. Each docstring names the rules of the spec that the statement formalises.
-/
open Sys2Proof Sys2Proof.Machine

/-! ### Scalar instructions -/

/-- R180, R177: integer register operations with a bound of 1. The .W form works on the low 32 bits and sign-extends.

R180, R177: the counts and moves of bits, and extension from a bit, stated bit by bit.

R180, R177, R151: products, quotients and remainders land after their bound. Division truncates towards zero, a zero divisor
gives all ones and leaves the dividend as the remainder, and the remainder is a - b * (a / b).

R181: immediates and constants.

R182, R183: each bit of an extracted and of an inserted field, cut at bit 63. -/
def Obligations.IntegerResults : Prop :=
  (∀ (s : State) (d a b : BitVec 6),
    let x := s.rs a; let y := s.rs b
    let xw : BitVec 32 := (s.rs a).setWidth 32; let yw : BitVec 32 := (s.rs b).setWidth 32
    let put (v : Word) : Host.Outcome State Fault Refusal := .next (s.ws d v)
    let putW (v : BitVec 32) : Host.Outcome State Fault Refusal := .next (s.ws d (v.signExtend 64))
    exec (.add d a b 0) s = put (x + y) ∧ exec (.add d a b 1) s = putW (xw + yw) ∧
    exec (.sub d a b 0) s = put (x - y) ∧ exec (.sub d a b 1) s = putW (xw - yw) ∧
    exec (.and d a b 0) s = put (x &&& y) ∧ exec (.and d a b 1) s = putW (xw &&& yw) ∧
    exec (.or d a b 0) s = put (x ||| y) ∧ exec (.or d a b 1) s = putW (xw ||| yw) ∧
    exec (.xor d a b 0) s = put (x ^^^ y) ∧ exec (.xor d a b 1) s = putW (xw ^^^ yw) ∧
    exec (.andn d a b 0) s = put (x &&& ~~~y) ∧ exec (.andn d a b 1) s = putW (xw &&& ~~~yw) ∧
    exec (.sll d a b 0) s = put (x <<< (y.toNat % 64)) ∧ exec (.sll d a b 1) s = putW (xw <<< (yw.toNat % 32)) ∧
    exec (.srl d a b 0) s = put (x >>> (y.toNat % 64)) ∧ exec (.srl d a b 1) s = putW (xw >>> (yw.toNat % 32)) ∧
    exec (.sra d a b 0) s = put (x.sshiftRight (y.toNat % 64)) ∧ exec (.sra d a b 1) s = putW (xw.sshiftRight (yw.toNat % 32)) ∧
    exec (.min d a b 0) s = put (if x.toInt < y.toInt then x else y) ∧
    exec (.min d a b 1) s = putW (if xw.toInt < yw.toInt then xw else yw) ∧
    exec (.minu d a b 0) s = put (if x.toNat < y.toNat then x else y) ∧
    exec (.minu d a b 1) s = putW (if xw.toNat < yw.toNat then xw else yw) ∧
    exec (.max d a b 0) s = put (if y.toInt < x.toInt then x else y) ∧
    exec (.max d a b 1) s = putW (if yw.toInt < xw.toInt then xw else yw) ∧
    exec (.maxu d a b 0) s = put (if y.toNat < x.toNat then x else y) ∧
    exec (.maxu d a b 1) s = putW (if yw.toNat < xw.toNat then xw else yw) ∧
    exec (.slt d a b 0) s = put (if x.toInt < y.toInt then 1 else 0) ∧
    exec (.slt d a b 1) s = putW (if xw.toInt < yw.toInt then 1 else 0) ∧
    exec (.sltu d a b 0) s = put (if x.toNat < y.toNat then 1 else 0) ∧
    exec (.sltu d a b 1) s = putW (if xw.toNat < yw.toNat then 1 else 0)) ∧
  (∀ (s : State) (d a b : BitVec 6) (w : BitVec 1),
    let n := if w = 1 then 32 else 64
    let x := s.rs a
    let wide (v : Word) : Prop := w = 1 → v = (v.setWidth 32).signExtend 64
    (∃ k : Nat, exec (.clz d a w) s = .next (s.ws d (BitVec.ofNat 64 k)) ∧ k ≤ n ∧
      (∀ i, n - k ≤ i → i < n → x.getLsbD i = false) ∧ (k < n → x.getLsbD (n - 1 - k) = true)) ∧
    (∃ k : Nat, exec (.ctz d a w) s = .next (s.ws d (BitVec.ofNat 64 k)) ∧ k ≤ n ∧
      (∀ i, i < k → x.getLsbD i = false) ∧ (k < n → x.getLsbD k = true)) ∧
    exec (.popc d a w) s = .next (s.ws d (BitVec.ofNat 64 ((List.range n).countP fun i => x.getLsbD i))) ∧
    (∃ v : Word, exec (.brev d a w) s = .next (s.ws d v) ∧ wide v ∧ ∀ i, i < n → v.getLsbD i = x.getLsbD (n - 1 - i)) ∧
    (∃ v : Word, exec (.sext d a b w) s = .next (s.ws d v) ∧ wide v ∧
      let k := (s.rs b).toNat % 128
      ∀ i, i < n → v.getLsbD i = if k = 0 then false else x.getLsbD (min i (min k n - 1))) ∧
    (∃ v : Word, exec (.zext d a b w) s = .next (s.ws d v) ∧ wide v ∧
      let k := (s.rs b).toNat % 128
      ∀ i, i < n → v.getLsbD i = (decide (i < k) && x.getLsbD i))) ∧
  (∀ (s : State) (d a b : BitVec 6) (i : BitVec 14),
    let x := s.rs a; let y := s.rs b
    let xw : BitVec 32 := x.setWidth 32; let yw : BitVec 32 := y.setWidth 32
    exec (.mul d a b 0) s = .next (s.wsLate d (x * y) 3) ∧
    exec (.mul d a b 1) s = .next (s.wsLate d ((xw * yw).signExtend 64) 3) ∧
    exec (.muli d a i) s = .next (s.wsLate d (x * i.signExtend 64) 3) ∧
    exec (.mulhs d a b 0) s = .next (s.wsLate d (BitVec.ofInt 64 (x.toInt * y.toInt / 2 ^ 64)) 3) ∧
    exec (.mulhu d a b 0) s = .next (s.wsLate d (BitVec.ofNat 64 (x.toNat * y.toNat / 2 ^ 64)) 3) ∧
    exec (.mulhs d a b 1) s = .next (s.wsLate d ((BitVec.ofInt 32 (xw.toInt * yw.toInt / 2 ^ 32)).signExtend 64) 3) ∧
    exec (.mulhu d a b 1) s = .next (s.wsLate d ((BitVec.ofNat 32 (xw.toNat * yw.toNat / 2 ^ 32)).signExtend 64) 3) ∧
    (∃ q r : Word, exec (.divs d a b 0) s = .next (s.wsLate d q 34) ∧ exec (.rems d a b 0) s = .next (s.wsLate d r 34) ∧
      (y = 0 → q = BitVec.allOnes 64 ∧ r = x) ∧
      (y ≠ 0 → q = BitVec.ofInt 64 (x.toInt.tdiv y.toInt) ∧ r.toInt = x.toInt.tmod y.toInt ∧ r = x - y * q)) ∧
    (∃ q r : Word, exec (.divu d a b 0) s = .next (s.wsLate d q 34) ∧ exec (.remu d a b 0) s = .next (s.wsLate d r 34) ∧
      (y = 0 → q = BitVec.allOnes 64 ∧ r = x) ∧ (y ≠ 0 → q.toNat = x.toNat / y.toNat ∧ r.toNat = x.toNat % y.toNat)) ∧
    (∃ q r : BitVec 32, exec (.divs d a b 1) s = .next (s.wsLate d (q.signExtend 64) 34) ∧
      exec (.rems d a b 1) s = .next (s.wsLate d (r.signExtend 64) 34) ∧
      (yw = 0 → q = BitVec.allOnes 32 ∧ r = xw) ∧
      (yw ≠ 0 → q = BitVec.ofInt 32 (xw.toInt.tdiv yw.toInt) ∧ r.toInt = xw.toInt.tmod yw.toInt ∧ r = xw - yw * q)) ∧
    (∃ q r : BitVec 32, exec (.divu d a b 1) s = .next (s.wsLate d (q.signExtend 64) 34) ∧
      exec (.remu d a b 1) s = .next (s.wsLate d (r.signExtend 64) 34) ∧
      (yw = 0 → q = BitVec.allOnes 32 ∧ r = xw) ∧ (yw ≠ 0 → q.toNat = xw.toNat / yw.toNat ∧ r.toNat = xw.toNat % yw.toNat))) ∧
  (∀ (s : State) (d a : BitVec 6) (i : BitVec 14) (l : BitVec 20) (h : BitVec 6),
    let x := s.rs a
    let xw : BitVec 32 := x.setWidth 32
    exec (.addi d a i) s = .next (s.ws d (x + i.signExtend 64)) ∧
    exec (.andi d a i) s = .next (s.ws d (x &&& i.signExtend 64)) ∧
    exec (.ori d a i) s = .next (s.ws d (x ||| i.signExtend 64)) ∧
    exec (.xori d a i) s = .next (s.ws d (x ^^^ i.signExtend 64)) ∧
    exec (.slli d a 0 h) s = .next (s.ws d (x <<< h.toNat)) ∧
    exec (.srli d a 0 h) s = .next (s.ws d (x >>> h.toNat)) ∧
    exec (.srai d a 0 h) s = .next (s.ws d (x.sshiftRight h.toNat)) ∧
    (h.toNat < 32 →
      exec (.slli d a 1 h) s = .next (s.ws d ((xw <<< h.toNat).signExtend 64)) ∧
      exec (.srli d a 1 h) s = .next (s.ws d ((xw >>> h.toNat).signExtend 64)) ∧
      exec (.srai d a 1 h) s = .next (s.ws d ((xw.sshiftRight h.toNat).signExtend 64))) ∧
    exec (.lui d l) s = .next (s.ws d (l.signExtend 64 <<< 12)) ∧
    exec (.auipc d l) s = .next (s.ws d (s.st.addr + l.signExtend 64 <<< 12))) ∧
  (∀ (s : State) (d a b o w : BitVec 6) (g : BitVec 1),
    let x := s.rs a
    let old := s.rs d
    let ob := (s.rs b).toNat % 64
    let wb := min ((s.rs b).toNat / 256 % 256) 64
    let extracted (off width : Nat) (v : Word) : Prop :=
      let k := min width (64 - off)
      ∀ i, i < 64 → v.getLsbD i = if k = 0 then false else if i < k then x.getLsbD (off + i) else (g == 1 && x.getLsbD (off + k - 1))
    let inserted (off width : Nat) (v : Word) : Prop :=
      ∀ i, i < 64 → v.getLsbD i = if off ≤ i ∧ i < off + width then x.getLsbD (i - off) else old.getLsbD i
    (∃ v, exec (.bext d a o w g) s = .next (s.ws d v) ∧ extracted o.toNat w.toNat v) ∧
    (∃ v, exec (.bextr d a b g) s = .next (s.ws d v) ∧ extracted ob wb v) ∧
    (∃ v, exec (.bins d a o w) s = .next (s.ws d v) ∧ inserted o.toNat w.toNat v) ∧
    (∃ v, exec (.binsr d a b) s = .next (s.ws d v) ∧ inserted ob wb v))

/-- R184: SEL chooses by its guard, whose code is in bits 7 to 4 of the word; bits 3 to 0 must be zero. -/
def Obligations.Selection : Prop :=
  ∀ (s : State) (d a b : BitVec 6) (g : BitVec 4),
    exec (.sel d a b g) s = .next (s.ws d (if s.st.src.guard g then s.rs a else s.rs b)) ∧
    ∀ z : BitVec 4, decodeSlot 32 (0x38000000 + d.toNat * 2 ^ 20 + a.toNat * 2 ^ 14 + b.toNat * 2 ^ 8 + g.toNat * 2 ^ 4 + z.toNat) =
      if z = 0 then .ok (.sel d a b g) else
        .error (.reserved (if z.getLsbD 0 then 0 else if z.getLsbD 1 then 1 else if z.getLsbD 2 then 2 else 3))

/-- R176, R18, R151: a result of bound 1 is in s(rd) for the next bundle, a write to s0 has no effect, and no other register
changes.

R151 to R153: a later result is not in its register before the bundle distance of its bound has passed, and is there once it
has; a second write issued meanwhile leaves one of the two.

R154: SCOREBOARD_RETURN writes the value and releases the register. -/
def Obligations.ResultsLand : Prop :=
  (∀ (s : State) (d : BitVec 6) (v : Word) (n : Nat),
    (s.ws d v).st.now.getS n = (if n = d.toNat ∧ d ≠ 0 then v else s.st.now.getS n) ∧
    (s.ws 0 v).st.now = s.st.now ∧ OnlyReg s (s.ws d v) d.toNat) ∧
  (∀ (s : State) (d : BitVec 6) (v : Word) (bound dist : Nat), d ≠ 0 → s.st.late = [] →
    let t := s.wsLate d v bound
    t.st.now = s.st.now ∧
    (dist < bound → ((t.advance s.cur dist).strandAt s.cur).now = s.st.now) ∧
    (bound ≤ dist → ((t.advance s.cur dist).strandAt s.cur).now.getS d.toNat = v ∧
      ((t.advance s.cur dist).strandAt s.cur).late = []) ∧
    (∀ v2 : Word, bound ≤ dist → ((((t.ws d v2).advance s.cur dist).strandAt s.cur).now.getS d.toNat = v ∨
      (((t.ws d v2).advance s.cur dist).strandAt s.cur).now.getS d.toNat = v2))) ∧
  (∀ (s : State) (b : Board) (v : BitVec 256), (s.strandAt s.ev.n).board[s.ev.k]? = some b → b.val = some v → b.undef = false →
    ∃ t, exec .scoreboardReturn s = .next t ∧
      (t.strandAt s.ev.n).board = (s.strandAt s.ev.n).board.eraseIdx s.ev.k ∧
      (match b.dst with
        | .s d => (t.strandAt s.ev.n).now = (s.strandAt s.ev.n).now.setS d (v.setWidth 64)
        | .t d => (t.strandAt s.ev.n).now = (s.strandAt s.ev.n).now.setT d v) ∧
      t.mem = s.mem ∧ ∀ n, n ≠ s.ev.n → t.strandAt n = s.strandAt n)

/-- R194, R195, R177: compares and guard operations.

R196: floating-point compares. A NaN is unordered; FLT and FLE raise NV for any NaN, FEQ and FUN for a signalling one. -/
def Obligations.GuardResults : Prop :=
  (∀ (s : State) (g : BitVec 3) (a b : BitVec 6) (i : BitVec 14) (p q : BitVec 4),
    let x := s.rs a; let y := s.rs b
    let m : Word := i.signExtend 64
    let xw : BitVec 32 := x.setWidth 32; let yw : BitVec 32 := y.setWidth 32
    let put (c : Bool) : Host.Outcome State Fault Refusal := .next (s.wg g c)
    let gp := s.st.src.guard p; let gq := s.st.src.guard q
    exec (.cmpEq g a b 0) s = put (x == y) ∧ exec (.cmpEq g a b 1) s = put (xw == yw) ∧ exec (.cmpiEq g a i) s = put (x == m) ∧
    exec (.cmpNe g a b 0) s = put (x != y) ∧ exec (.cmpNe g a b 1) s = put (xw != yw) ∧ exec (.cmpiNe g a i) s = put (x != m) ∧
    exec (.cmpLt g a b 0) s = put (decide (x.toInt < y.toInt)) ∧ exec (.cmpLt g a b 1) s = put (decide (xw.toInt < yw.toInt)) ∧
    exec (.cmpiLt g a i) s = put (decide (x.toInt < m.toInt)) ∧
    exec (.cmpGe g a b 0) s = put (decide (y.toInt ≤ x.toInt)) ∧ exec (.cmpGe g a b 1) s = put (decide (yw.toInt ≤ xw.toInt)) ∧
    exec (.cmpiGe g a i) s = put (decide (m.toInt ≤ x.toInt)) ∧
    exec (.cmpLtu g a b 0) s = put (decide (x.toNat < y.toNat)) ∧ exec (.cmpLtu g a b 1) s = put (decide (xw.toNat < yw.toNat)) ∧
    exec (.cmpiLtu g a i) s = put (decide (x.toNat < m.toNat)) ∧
    exec (.cmpGeu g a b 0) s = put (decide (y.toNat ≤ x.toNat)) ∧ exec (.cmpGeu g a b 1) s = put (decide (yw.toNat ≤ xw.toNat)) ∧
    exec (.cmpiGeu g a i) s = put (decide (m.toNat ≤ x.toNat)) ∧
    exec (.cmpTst g a b 0) s = put (x &&& y != 0) ∧ exec (.cmpTst g a b 1) s = put (xw &&& yw != 0) ∧
    exec (.cmpiTst g a i) s = put (x &&& m != 0) ∧
    exec (.cmpNtst g a b 0) s = put (x &&& y == 0) ∧ exec (.cmpNtst g a b 1) s = put (xw &&& yw == 0) ∧
    exec (.cmpiNtst g a i) s = put (x &&& m == 0) ∧
    exec (.gopAnd g p q) s = put (gp && gq) ∧ exec (.gopOr g p q) s = put (gp || gq) ∧
    exec (.gopXor g p q) s = put (gp != gq) ∧ exec (.gopAndn g p q) s = put (gp && !gq)) ∧
  (∀ (s : State) (g : BitVec 3) (a b : BitVec 6) (w : BitVec 1),
    let val (x : Word) : Val := if w = 1 then ffDec ffF64 x.toNat else ffDec ffF32 (x.toNat % 2 ^ 32)
    let x := val (s.rs a); let y := val (s.rs b)
    let nan := valIsNan x || valIsNan y
    let quiet := if x = .snan ∨ y = .snan then flNV else 0
    let loud := if nan then flNV else 0
    exec (.fcmpFeq g a b w) s = .next ((s.wg g (!nan && valEq x y)).orVflags quiet) ∧
    exec (.fcmpFlt g a b w) s = .next ((s.wg g (!nan && valLt x y)).orVflags loud) ∧
    exec (.fcmpFle g a b w) s = .next ((s.wg g (!nan && (valLt x y || valEq x y))).orVflags loud) ∧
    exec (.fcmpFun g a b w) s = .next ((s.wg g nan).orVflags quiet))

/-- R200 to R203, R178, R179, R151: scalar floating point. An arithmetic result is the exact one rounded once; FMIN to FCLASS
have a bound of 1, FDIV and FSQRT of 20, FCVT of 3 and the others of 4. The fused operations work on F32 in RMODE.

R117, R200: before its one rounding an arithmetic result is exact: sums and products of finite values are those of the
rational numbers, and raise no flag. -/
def Obligations.FloatingPoint : Prop :=
  (∀ (s : State) (d a b c : BitVec 6) (r : BitVec 3) (x : BitVec 1) (i o : BitVec 3),
    let f := if x = 1 then ffF64 else ffF32
    let val (k : BitVec 6) : Val := ffDec f ((s.rs k).toNat % 2 ^ f.bits)
    let val32 (k : BitVec 6) : Val := ffDec ffF32 ((s.rs k).toNat % 2 ^ 32)
    let rm := rmOf r.toNat s.st.src.rmode.toNat
    let rm7 := rmOf 7 s.st.src.rmode.toNat
    let q := srHash s.st.src.srSeed.toNat 0
    let round (g : FloatFmt) (m : Nat) (v : Val × Nat) : Nat × Nat := let k := ffRound g m q false v.1; (k.1, v.2 ||| k.2)
    let exact (v : Val × Nat) : Nat × Nat := let k := ffRound f 0 0 false v.1; (k.1, v.2 ||| k.2)
    let late (n : Nat) (k : Nat × Nat) : Host.Outcome State Fault Refusal := .next ((s.wsLate d (BitVec.ofNat 64 k.1) n).orVflags k.2)
    let now (k : Nat × Nat) : Host.Outcome State Fault Refusal := .next ((s.ws d (BitVec.ofNat 64 k.1)).orVflags k.2)
    let h := f.bits - 1
    let sign (k : BitVec 6) : Nat := (s.rs k).toNat / 2 ^ h % 2
    let mag (k : BitVec 6) : Nat := (s.rs k).toNat % 2 ^ h
    exec (.fadd d a b r x) s = late 4 (round f rm (valAdd (rm == 2) (val a) (val b))) ∧
    exec (.fsub d a b r x) s = late 4 (round f rm (valAdd (rm == 2) (val a) (valNeg (val b)))) ∧
    exec (.fmul d a b r x) s = late 4 (round f rm (valMul (val a) (val b))) ∧
    exec (.fdiv d a b r x) s = late 20 (round f rm (valDiv (val a) (val b))) ∧
    exec (.fsqrt d a r x) s = late 20 (round f rm (valSqrt (val a))) ∧
    exec (.fma d a b c) s = late 4 (round ffF32 rm7 (valFma (rm7 == 2) (val32 a) (val32 b) (val32 c))) ∧
    exec (.fms d a b c) s = late 4 (round ffF32 rm7 (valFma (rm7 == 2) (val32 a) (val32 b) (valNeg (val32 c)))) ∧
    exec (.fnma d a b c) s = late 4 (round ffF32 rm7 (valFma (rm7 == 2) (valNeg (val32 a)) (val32 b) (valNeg (val32 c)))) ∧
    exec (.fnms d a b c) s = late 4 (round ffF32 rm7 (valFma (rm7 == 2) (valNeg (val32 a)) (val32 b) (val32 c))) ∧
    exec (.fmin d a b x) s = now (exact (valMinMax false (val a) (val b))) ∧
    exec (.fmax d a b x) s = now (exact (valMinMax true (val a) (val b))) ∧
    exec (.fabs d a x) s = .next (s.ws d (BitVec.ofNat 64 (mag a))) ∧
    exec (.fneg d a x) s = .next (s.ws d (BitVec.ofNat 64 ((1 - sign a) * 2 ^ h + mag a))) ∧
    exec (.fsgnj d a b x) s = .next (s.ws d (BitVec.ofNat 64 (sign b * 2 ^ h + mag a))) ∧
    exec (.fcvt d a i o r x) s = .next ((s.wsLate d (cvtResult i.toNat o.toNat rm q (x == 1) (s.rs a)).1 3).orVflags
      (cvtResult i.toNat o.toNat rm q (x == 1) (s.rs a)).2)) ∧
  (∀ (rdn : Bool) (p q : Bool) (n d m e : Nat), d ≠ 0 → e ≠ 0 →
    let num (neg : Bool) (k : Nat) : ℚ := if neg then -(k : ℚ) else k
    let x := num p n / d; let y := num q m / e
    (∃ g k l, valAdd rdn (.fin p n d) (.fin q m e) = (.fin g k l, 0) ∧ l ≠ 0 ∧ num g k / l = x + y) ∧
    (∃ g k l, valMul (.fin p n d) (.fin q m e) = (.fin g k l, 0) ∧ l ≠ 0 ∧ num g k / l = x * y) ∧
    (m ≠ 0 → ∃ g k l, valDiv (.fin p n d) (.fin q m e) = (.fin g k l, 0) ∧ l ≠ 0 ∧ num g k / l = x / y))

/-- R201: FCLASS sets the one bit of rd that the operand's sign, exponent and fraction name: from 0 for minus infinity to 7 for plus
infinity, 8 for a signalling NaN and 9 for a quiet one. -/
def Obligations.FloatClasses : Prop :=
  ∀ (s : State) (d a : BitVec 6) (x : BitVec 1),
    let m := if x = 1 then 52 else 23
    let h := if x = 1 then 63 else 31
    let sign := (s.rs a).toNat / 2 ^ h % 2
    let mag := (s.rs a).toNat % 2 ^ h
    let kind := if mag = 2 ^ h - 2 ^ m then 0 else if 2 ^ m ≤ mag then 1 else if mag ≠ 0 then 2 else 3
    let bit := if 2 ^ h - 2 ^ m < mag then (if mag / 2 ^ (m - 1) % 2 = 1 then 9 else 8) else if sign = 1 then kind else 7 - kind
    exec (.fclass d a x) s = .next (s.ws d (1 <<< bit))

/-- R197, R155: a branch target is set from an address relative to the instruction's own bundle, or from s(ra), and is ready three
bundle distances later.

R198, R199, R155: a branch or loop that is taken continues at its target, once the target is ready; one that is not taken has no
effect but LOOP's count. -/
def Obligations.ControlFlow : Prop :=
  (∀ (s : State) (t : BitVec 2) (o : BitVec 24) (a : BitVec 6),
    (∃ u, exec (.pbr t o) s = .next u ∧ u.st.now.getBt t.toNat = s.st.addr + o.signExtend 64 <<< 2 ∧ smGet 0 u.st.btWait t.toNat = 3 ∧
      u = s.setSt { s.st with now := { s.st.now with bt := u.st.now.bt }, btWait := u.st.btWait } ∧
      (∀ k, k ≠ t.toNat → u.st.now.getBt k = s.st.now.getBt k ∧ smGet 0 u.st.btWait k = smGet 0 s.st.btWait k)) ∧
    (∃ u, exec (.mtbt t a) s = .next u ∧ u.st.now.getBt t.toNat = s.rs a ∧ smGet 0 u.st.btWait t.toNat = 3 ∧
      u = s.setSt { s.st with now := { s.st.now with bt := u.st.now.bt }, btWait := u.st.btWait } ∧
      (∀ k, k ≠ t.toNat → u.st.now.getBt k = s.st.now.getBt k ∧ smGet 0 u.st.btWait k = smGet 0 s.st.btWait k))) ∧
  (∀ (s : State) (t c : BitVec 2) (g : BitVec 4) (a : BitVec 6),
    let x := s.st
    let target := x.src.getBt t.toNat
    let count := x.src.getLc c.toNat
    let jump (y : Strand) : State := s.setSt { y with pc := target, stall := max x.stall (smGet 0 ((x.flight.map (·.btWait)).getD x.btWait) t.toNat) }
    (x.src.guard g = false → exec (.br t g) s = .next s ∧ exec (.brl t g) s = .next s) ∧
    (x.src.guard g = true → target.toNat % 4 = 0 →
      exec (.br t g) s = .next (jump x) ∧
      exec (.brl t g) s = .next (jump { x with now := x.now.setS 63 x.pc, late := markClash 63 x.late })) ∧
    (count = 0 → exec (.loop t c) s = .next s) ∧
    (count = 1 → exec (.loop t c) s = .next (s.setSt { x with now := x.now.setLc c.toNat 0 })) ∧
    (1 < count.toNat → target.toNat % 4 = 0 →
      exec (.loop t c) s = .next (jump { x with now := x.now.setLc c.toNat (count - 1) })) ∧
    exec (.lset c a) s = .next (s.setSt { x with now := x.now.setLc c.toNat ((s.rs a).setWidth 32) }))

/-- R180 to R184, R194 to R196, R200 to R203, R218, R224: the frame of the register instructions. A computing instruction changes
s(rd) alone, a compare its guard and VFLAGS alone, a floating-point instruction s(rd) and VFLAGS; memory, the other strands and
every other register stay. -/
def Obligations.RegisterInstructionFrame : Prop :=
  ∀ (i : Instr) (s t : State), exec i s = .next t →
    (∀ d, computes i = some d → OnlyReg s t d.toNat ∧ ∀ a, t.memByte a = s.memByte a) ∧
    (∀ g, decides i = some g → OnlyGuard s t g.toNat ∧ ∀ a, t.memByte a = s.memByte a) ∧
    (∀ d, floats i = some d →
      OnlyReg { s with strands := smPut s.strands s.cur { s.st with now := { s.st.now with vflags := t.st.now.vflags } } } t d.toNat ∧
      ∀ a, t.memByte a = s.memByte a)

/-! ### Traps, supervisor context and system registers -/

/-- R228, R229, R230: TRAP and BKPT take their traps at once when nothing is outstanding.

R230, R67: a trap where no handler may take it faults the task: the first fault is recorded in its completion, the strand's
slot becomes EMPTY, and the task's other strands are cancelled. -/
def Obligations.TrapsAreTaken : Prop :=
  (∀ (s : State) (c : BitVec 14), s.calm → s.st.now.trapped = false → (s.coreAt s.curCore).tvec ≠ 0 →
    (∃ t, exec (.trap c) s = .next t ∧ TrapTaken s t 18 c.toNat s.st.addr) ∧
    (∃ t, exec .bkpt s = .next t ∧ TrapTaken s t 17 0 s.st.addr)) ∧
  (∀ (s : State) (c : BitVec 14) (k : Task), s.calm → s.st.now.trapped = true ∨ (s.coreAt s.curCore).tvec = 0 → s.st.live = true →
    (∀ p ∈ s.strands, p.2.sync = []) → smFind s.tasks s.st.task = some k → k.status = 0 →
    ∃ t, exec (.trap c) s = .next t ∧ t.st.live = false ∧
      smFind t.tasks s.st.task = some { k with status := 1, cause := 18, pc := (s.st.region s.st.curRid).entry, info := s.st.addr } ∧
      ∀ n, n ≠ s.cur → (s.strandAt n).task = s.st.task → (s.strandAt n).live = true → n ∈ s.strands.map (·.1) →
        (t.strandAt n).cancelling = true ∨ (t.strandAt n).live = false)

/-- R231: ERET restores the context and continues at TRAP_PC, as they stood at issue, in a new implicit region; the handler's regions close.
Outside a trap it raises ACCESS with reason 0x12. A supervisor writes TRAP_PC by MTS, in a trap as outside one. -/
def Obligations.TrapReturns : Prop :=
  ∀ (s : State), s.st.src.sup = true →
    let x := s.st.src
    (x.trapped = true → ∃ t, exec .eret s = .next t ∧
      t.st.now = { s.st.now with sup := x.psup, trapped := false } ∧ t.st.pc = x.trapPc ∧ t.st.nest = [] ∧
      t.st.regions.getLast?.map (fun r => (r.id, r.entry, r.closed)) = some (0xFFFF, x.trapPc, false) ∧
      (∀ r ∈ t.st.regions.dropLast, r.closed = true ∧ r.rid ∈ s.st.regions.map (·.rid)) ∧ OnlyStrand s t) ∧
    (x.trapped = false → exec .eret s = .next (s.raise (7, 0x12) s.st.addr)) ∧
    (∀ a, ∃ t, exec (.mts a 0x31) s = .next t ∧ t.st.now = { s.st.now with trapPc := s.rs a } ∧ t.st.pc = s.st.pc)

/-- R141, R149, R245: a privileged instruction outside supervisor context has none of its effect: it raises ACCESS with condition
0x10 and its slot's number, in its execution as in the decoding of its bundle. -/
def Obligations.PrivilegedInstructionsTrap : Prop :=
  ∀ (i : Instr) (s : State) (slot n x : Nat), privileged i = true →
    (s.st.src.sup = false → exec i s = .next (s.raise (7, 0x10 + s.st.slotNo * 256) s.st.addr)) ∧
    (decodeSlot n x = .ok i → slotFault false slot (decodeSlot n x) = .error (7, slot * 256 + 0x10) ∧
      slotFault true slot (decodeSlot n x) = .ok i)

/-- R232, R233, R238 to R240: in supervisor context a register that MTS writes reads back with its defined bits, and no other register
that MFS reads changes; a read-only register raises ACCESS with condition 0x11.

R233, R154: the registers of engine and fabric status come through the scoreboard. -/
def Obligations.SystemRegisters : Prop :=
  (∀ (s : State) (a d : BitVec 6) (i j : BitVec 14), s.st.flight = none → s.st.now.sup = true →
    let bits (n : Nat) : Word :=
      if n = 0x20 then 7 else if n = 0x22 then 31 else if n = 0x23 then 0xFFFFFFFF else if n = 0x30 then 0xFFFFFF
      else if n = 0x31 ∨ n = 0x32 ∨ n = 0x33 ∨ n = 0x62 then BitVec.allOnes 64 else if n = 0x60 then ~~~3
      else if n = 0x63 then 0xFFFFFFFF else if n = 0x64 then 0x00FFFFFFFFFFF800 else if 0x70 ≤ n ∧ n < 0x80 then 0x83FF0FF8 else 0
    let same (t : State) (i : BitVec 14) : Prop := j ≠ i → j ≠ 0x10 → t.sysRead j.toNat = s.sysRead j.toNat
    (bits i.toNat ≠ 0 → ∃ t, exec (.mts a i) s = .next t ∧ exec (.mfs d i) t = .next (t.ws d (s.rs a &&& bits i.toNat)) ∧
      same t i ∧ t.mem = s.mem ∧ t.st.pc = s.st.pc ∧
      ∀ k, t.st.now.getS k = s.st.now.getS k) ∧
    (∀ k, k < 16 → i.toNat = 0x80 + k → ∃ t, exec (.mts a i) s = .next t ∧
      t.sysRead i.toNat = BitVec.ofNat 64 (smGet 0 (s.coreAt s.curCore).outst k * 2 ^ 16 + (s.rs a).toNat % 256) ∧ same t i) ∧
    (∃ t, exec (.mts a 0x61) s = .next t ∧
      t.sysRead 0x61 = (s.rs a &&& 6) + 1 ∧ same t 0x61) ∧
    (∃ t, exec (.mts a 0x21) s = .next t ∧ t.sysRead 0x21 &&& 31 = s.rs a &&& 31 ∧
      t.st.now.lanes = (if (s.rs a).getLsbD 10 then [] else s.st.now.lanes) ∧ same t 0x21) ∧
    (i.toNat ≤ 0x10 ∨ i = 0x40 ∨ i = 0x41 ∨ i = 0x50 ∨ i = 0x51 → exec (.mts a i) s = .next (s.raise (7, 0x11) s.st.addr))) ∧
  (∀ (s : State) (d : BitVec 6),
    (∃ t, exec (.mfs d 0x50) s = .next t ∧
      Boards s t (.s d.toNat) (BitVec.ofNat 256 (((s.dieAt s.curDie).pool * 2 ^ 16 + (s.dieAt s.curDie).defl * 2 ^ 8 + (s.dieAt s.curDie).allow) % 2 ^ 64))) ∧
    (∃ t, exec (.mfs d 0x51) s = .next t ∧
      Boards s t (.s d.toNat) (BitVec.ofNat 256 (((List.range 7).map fun k => (smGet [] s.st.queues k).length * 2 ^ (5 * k)).sum % 2 ^ 64))))

/-- R218, R219, R226, R229, R103: the instructions that control the strand itself. -/
def Obligations.StrandControl : Prop :=
  ∀ (s : State) (a d : BitVec 6) (f : BitVec 5) (v : BitVec 6) (c : BitVec 2),
    let x := s.st
    exec .nop s = .next s ∧
    (∃ t, exec .yield s = .next t ∧ t.st = { x with stall := max x.stall 1 } ∧
      smGet 3 (t.coreAt s.curCore).lastIssue x.src.cls.toNat = s.cur % 4 ∧ t.mem = s.mem) ∧
    (x.retry = false → exec .wfi s = .next (s.setSt { x with wfi := true, blocked := 5 }) ∧
      (x.src.sup = true → exec .halt s = .next (s.setSt { x with halted := true, blocked := 4 }))) ∧
    (x.retry = true → (x.wfi = false → exec .wfi s = .next s) ∧ (x.halted = false → x.src.sup = true → exec .halt s = .next s)) ∧
    (s.commitsNow → x.sync = [] → ∃ t, exec .texit s = .next t ∧ t.st = { lseq := x.lseq } ∧ t.mem = s.mem ∧
      ∀ n, n ≠ s.cur → t.strandAt n = s.strandAt n) ∧
    (∃ t, exec .icsync s = .next t ∧ (t.coreAt s.curCore).imem = [] ∧ t.st = x ∧ t.mem = s.mem) ∧
    (c ≠ 3 ∨ x.src.sup = true → exec (.prio c) s = .next (s.setSt { x with now := { x.now with cls := c } })) ∧
    (∃ t, exec (.setf a f 0 v) s = .next t ∧ t.st.now.getF f.toNat = (s.rs a).setWidth 8 ∧ t.st.wfi = false ∧
      ∀ k, k ≠ f.toNat → t.st.now.getF k = x.now.getF k) ∧
    (∃ t, exec (.setf a f 1 v) s = .next t ∧ t.st.now.getF f.toNat = v.setWidth 8 ∧ t.st.wfi = false ∧
      ∀ k, k ≠ f.toNat → t.st.now.getF k = x.now.getF k) ∧
    (∃ t, exec (.addf a f 0 v) s = .next t ∧ t.st.now.getF f.toNat = x.now.getF f.toNat + (s.rs a).setWidth 8 ∧ t.st.wfi = false) ∧
    (∃ t, exec (.addf a f 1 v) s = .next t ∧ t.st.now.getF f.toNat = x.now.getF f.toNat + v.setWidth 8 ∧ t.st.wfi = false) ∧
    exec (.getf d f) s = .next (s.ws d ((x.src.getF f.toNat).setWidth 64))

/-! ### Scalar memory -/

/-- R20, R27, R185, R187: loads of the own scratchpad and of memory, and an address that is not aligned to the access. The value is
little-endian, zero-extended by LD and LDX and sign-extended by LDS.

R20, R27, R73, R185: a store of the own scratchpad writes its bytes and nothing else; a store of memory leaves every byte as it
is until it is performed at its home.

R73, R95: WRITE_PERFORMED applies the store's bytes at its home, and no others, and a store of HBM begins its line's parity update; a store
of host memory leaves for the host. The completion of a parity update completes the earlier ones of its line, and changes nothing else. -/
def Obligations.LoadsAndStores : Prop :=
  (∀ (s : State) (d a q : BitVec 6) (i : BitVec 10) (z h : BitVec 2) (x : BitVec 14),
    let n := 2 ^ z.toNat
    let va := s.rs a + i.signExtend 64 <<< z.toNat
    let vx := s.rs a + x.setWidth 64 <<< 3
    let zero (l : List Byte) : BitVec 256 := BitVec.ofNat 256 (leNat l)
    let sign (l : List Byte) : BitVec 256 := ((BitVec.ofNat (8 * n) (leNat l)).signExtend 64).setWidth 256
    (∀ off, s.plainSpm s.curCore → s.ownBytes va off n → s.st.unordered s.curCore va.toNat n = false →
      let l := s.spmBytes s.curCore off n
      (∃ t, exec (.ld d a i z h) s = .next t ∧ Boards s t (.s d.toNat) (zero l)) ∧
      (∃ t, exec (.lds d a i z h) s = .next t ∧ Boards s t (.s d.toNat) (sign l))) ∧
    (∀ off, s.plainSpm s.curCore → s.ownBytes vx off 8 → s.st.unordered s.curCore vx.toNat 8 = false →
      ∃ t, exec (.ldx d a x) s = .next t ∧ Boards s t (.s d.toNat) (zero (s.spmBytes s.curCore off 8))) ∧
    (∀ off, s.plainSpm s.curCore → s.ownBytes (s.rs a) off 32 → s.st.unordered s.curCore (s.rs a).toNat 32 = false →
      ∃ t, exec (.tdld d a q) s = .next t ∧ Boards s t (.t q.toNat) (zero (s.spmBytes s.curCore off 32))) ∧
    (∀ u pa, s.place s.curCore s.st.src.sup .rd 0 va = (u, .ok (.mem pa)) → va.toNat % n = 0 → u.plainMem → u.noL1 s.curCore →
      u.st.unordered s.curCore va.toNat n = false →
      let l := u.memBytes pa n
      (∃ t, exec (.ld d a i z h) s = .next t ∧ t.mem = u.mem ∧ Boards (if h = 0 then u.fillLine s.curCore (pa / 128) else u) t (.s d.toNat) (zero l)) ∧
      (∃ t, exec (.lds d a i z h) s = .next t ∧ t.mem = u.mem ∧ Boards (if h = 0 then u.fillLine s.curCore (pa / 128) else u) t (.s d.toNat) (sign l))) ∧
    (va.toNat % n ≠ 0 → exec (.ld d a i z h) s = .next (s.raise (5, 0) va) ∧ exec (.lds d a i z h) s = .next (s.raise (5, 0) va) ∧
      exec (.st d a i z) s = .next (s.raise (5, 0) va)) ∧
    (vx.toNat % 8 ≠ 0 → exec (.ldx d a x) s = .next (s.raise (5, 0) vx) ∧ exec (.stx d a x) s = .next (s.raise (5, 0) vx)) ∧
    ((s.rs a).toNat % 32 ≠ 0 → exec (.tdld d a q) s = .next (s.raise (5, 0) (s.rs a)) ∧ exec (.tdst d a q) s = .next (s.raise (5, 0) (s.rs a)))) ∧
  (∀ (s : State) (r a q : BitVec 6) (i : BitVec 10) (z : BitVec 2) (x : BitVec 14),
    let stored (va : Word) (l : List Byte) (o : Host.Outcome State Fault Refusal) : Prop :=
      (∀ off, s.st.again = false → s.plainSpm s.curCore → s.ownBytes va off l.length → ∃ t, o = .next t ∧
        t = s.setCore s.curCore { s.coreAt s.curCore with spm := (t.coreAt s.curCore).spm } ∧
        ∀ k, smGet 0 (t.coreAt s.curCore).spm k =
          if off ≤ k ∧ k < off + l.length then (l[k - off]?).getD 0 else smGet 0 (s.coreAt s.curCore).spm k) ∧
      (∀ u pa, u.st.again = false → s.place s.curCore s.st.src.sup .wr 1 va = (u, .ok (.mem pa)) → va.toNat % l.length = 0 → u.held = [] → u.noL1 s.curCore →
        o = .next { u with
          nextId := u.nextId + 1, stores := u.stores ++ [{ core := s.curCore, strand := s.cur, va := va.toNat, pa, bytes := l, id := u.nextId }] })
    stored (s.rs a + i.signExtend 64 <<< z.toNat) (leBytes (2 ^ z.toNat) (s.rs r).toNat) (exec (.st r a i z) s) ∧
    stored (s.rs a + x.setWidth 64 <<< 3) (leBytes 8 (s.rs r).toNat) (exec (.stx r a x) s) ∧
    stored (s.rs a) (leBytes 32 (s.rt q).toNat) (exec (.tdst r a q) s)) ∧
  (∀ (s : State) (x : Store), s.stores[s.ev.n]? = some x → s.held = [] → s.memSyn = [] → s.poison = [] → s.lost = [] → s.l2inj = [] →
    (isHostRange x.pa = false → ∃ t, exec .writePerformed s = .next t ∧
      (∀ a, t.memByte a = if x.pa ≤ a ∧ a < x.pa + x.bytes.length then (x.bytes[a - x.pa]?).getD 0 else s.memByte a) ∧
      t.stores = s.stores.eraseIdx s.ev.n ∧ t.strands = s.strands ∧ t.cores = s.cores ∧
      (x.pa < 528000000000 → 1 ≤ x.bytes.length → x.pa % 128 + x.bytes.length ≤ 128 →
        t.parity = s.parity ++ [{ line := x.pa / 128, core := some x.core, strand := some x.strand }])) ∧
    (isHostRange x.pa = true → s.hostUp = true → exec .writePerformed s = .next { s with
      stores := s.stores.eraseIdx s.ev.n
      out := s.out ++ [.hostWrite (s.hostFnOf (s.tenantOf x.core)) (x.pa % 2 ^ 46 - 0x200000000000) (s.pasidOf (s.tenantOf x.core)) x.bytes []] })) ∧
  (∀ (s : State) (k : Nat) (x : Parity), s.parity[k]? = some x → s.ev.n = s.stores.length + k → ∃ t, exec .writePerformed s = .next t ∧
    t = { s with parity := t.parity } ∧ (∀ y ∈ s.parity.take (k + 1), y.line = x.line → y ∉ t.parity ∨ y ∈ s.parity.drop (k + 1)) ∧
    (∀ y ∈ s.parity.drop (k + 1), y ∈ t.parity) ∧ ∀ y, y.line ≠ x.line → (y ∈ t.parity ↔ y ∈ s.parity))

/-- R60, R84, R190, R191: an atomic on the own scratchpad stores its result and returns the old value through the scoreboard, and
its region closes. -/
def Obligations.AtomicResults : Prop :=
  ∀ (s : State) (d a b : BitVec 6) (k : BitVec 3) (o : BitVec 2) (off : Nat),
    s.commitsNow → s.st.amo = none → s.st.amoOld = none → s.st.again = false → s.stores = [] → s.posted = [] → s.plainSpm s.curCore →
    let fin (n : Nat) (new : Option Word) : Host.Outcome State Fault Refusal :=
      let old : Word := BitVec.ofNat 64 (leNat (s.spmBytes s.curCore off n))
      let u := match new with
        | some v => s.putSpm s.curCore off (leBytes n v.toNat)
        | none => s
      .next ((u.boardS d.toNat old).setSt (u.boardS d.toNat old).st.commitClose)
    let x : Word := BitVec.ofNat 64 (leNat (s.spmBytes s.curCore off 8))
    let y := s.rs b
    let c : Nat := leNat (s.spmBytes s.curCore off 4)
    let e := y.toNat % 2 ^ 32
    let round (f : FloatFmt) (p q : Nat) : Nat := (ffRound f 0 0 false (valAdd false (ffDec f p) (ffDec f q)).1).1
    let pick (m : Bool) : Word := BitVec.ofNat 64 (ffRound ffF32 0 0 false (valMinMax m (ffDec ffF32 c) (ffDec ffF32 e)).1).1
    (s.ownBytes (s.rs a) off 8 →
      exec (.amoAdd d a b k o) s = fin 8 (some (x + y)) ∧ exec (.amoAnd d a b k o) s = fin 8 (some (x &&& y)) ∧
      exec (.amoOr d a b k o) s = fin 8 (some (x ||| y)) ∧ exec (.amoXor d a b k o) s = fin 8 (some (x ^^^ y)) ∧
      exec (.amoMin d a b k o) s = fin 8 (some (if x.toInt < y.toInt then x else y)) ∧
      exec (.amoMax d a b k o) s = fin 8 (some (if y.toInt < x.toInt then x else y)) ∧
      exec (.amoSwap d a b k o) s = fin 8 (some y) ∧
      exec (.amoCas d a b k o) s = fin 8 (if x = s.rs d then some y else none)) ∧
    (s.ownBytes (s.rs a) off 4 →
      exec (.amofFaddF32 d a b k o) s = fin 4 (some (BitVec.ofNat 64 (round ffF32 c e))) ∧
      exec (.amofFaddBf16x2 d a b k o) s = fin 4 (some (BitVec.ofNat 64
        (round ffBF16 (c % 2 ^ 16) (e % 2 ^ 16) + round ffBF16 (c / 2 ^ 16) (e / 2 ^ 16) * 2 ^ 16))) ∧
      exec (.amofFminF32 d a b k o) s = fin 4 (some (pick false)) ∧
      exec (.amofFmaxF32 d a b k o) s = fin 4 (some (pick true)))

/-- R224, R225: a descriptor's field is set and read at its place; R189: a prefetch changes no register, and no memory
but by the stores that were on their way. -/
def Obligations.DescriptorOperations : Prop :=
  ∀ (s : State) (r a t : BitVec 6) (f : BitVec 5) (i : BitVec 10) (h : BitVec 2),
    let place : List (Nat × Nat) := [(0, 64), (64, 16), (80, 16), (96, 16), (112, 24), (136, 4), (140, 2), (143, 1), (144, 32), (176, 48),
      (224, 24), (248, 4), (252, 4), (64, 64), (128, 64), (192, 64)]
    (∀ lo w, place[f.toNat]? = some (lo, w) →
      (∃ u, exec (.tdset r a t f) s = .next u ∧
        u = s.setSt { s.st with now := { s.st.now with t := u.st.now.t } } ∧ (∀ k, k ≠ t.toNat → u.st.now.getT k = s.st.now.getT k) ∧
        ∀ j, j < 256 → (u.st.now.getT t.toNat).getLsbD j =
          if lo ≤ j ∧ j < lo + w then (s.rs a).getLsbD (j - lo) else (s.rt t).getLsbD j) ∧
      (∃ v : Word, exec (.tdget r a t f) s = .next (s.ws r v) ∧
        ∀ j, j < 64 → v.getLsbD j = if j < w then (s.rt t).getLsbD (lo + j) else ((f == 3 || f == 4) && (s.rt t).getLsbD (lo + w - 1)))) ∧
    (∃ u, exec (.tdcpy r a t) s = .next u ∧ u = s.setSt { s.st with now := { s.st.now with t := u.st.now.t } } ∧
      ∀ k, u.st.now.getT k = if k = t.toNat then s.rt a else s.st.now.getT k) ∧
    (∃ u, exec (.prf a i h) s = .next u ∧ u.strands = s.strands ∧ (h ≠ 0 ∨ s.stores = [] → u.mem = s.mem ∧ u.stores = s.stores))

/-! ### Synchronisation, order and communication -/

/-- R80, R81, R209, R214: ACQ and WAITB return the counter they test and acquire the object's regions, or wait; a copy line that an
acquired region overlaps is filled again at its next use.

R79, R207, R209, R213: REL raises RELSEQ; ARV arrives at the barrier, whose phase ends with the last arrival; both return what they
counted, and their region closes. No other byte of memory changes. -/
def Obligations.AcquiresAndReleases : Prop :=
  (∀ (s u : State) (d a b : BitVec 6) (k : BitVec 3) (pa : Nat), s.objectAt (s.rs a) .rd pa u → s.st.acq = none →
    let acquired (w : State) : State := (w.acquireRanges (u.boundRegions pa)).modSt ({ · with acq := none })
    let v : Word := BitVec.ofNat 64 (u.memNat pa 8)
    let p := u.memNat (pa + 8) 4
    let ahead := (BitVec.ofNat 32 p - (s.rs b).setWidth 32).toNat
    (b = 0 ∨ (v - s.rs b).toNat < 2 ^ 63 → exec (.acq d a b k) s = .next ((acquired u).boardS d.toNat v)) ∧
    (b ≠ 0 → 2 ^ 63 ≤ (v - s.rs b).toNat → exec (.acq d a b k) s = .next (u.setSt { u.st with blocked := 1 })) ∧
    (1 ≤ ahead → ahead < 2 ^ 31 → ∃ t, exec (.waitb d a b k) s = .next t ∧ t.st.waitObj = none ∧
      t = (acquired (u.setSt { u.st with waitObj := none })).boardS d.toNat (BitVec.ofNat 64 p)) ∧
    (ahead = 0 ∨ 2 ^ 31 ≤ ahead → exec (.waitb d a b k) s = .next (u.setSt { u.st with waitObj := some pa, blocked := 3 })) ∧
    (∀ (w : State) (rs : List (Nat × Nat)) (e : Nat × SyncSlot) (c : Attachment) (l : Nat) (r : Nat × Nat), (w.coreAt w.curCore).l1 = [] →
      e ∈ (w.acquireRanges rs).st.sync → e.2.att = some c → l ∈ c.filled → r ∈ rs →
      r.1 + r.2 ≤ c.va + (l - c.base) ∨ c.va + (l - c.base) + 128 ≤ r.1)) ∧
  (∀ (s u : State) (d a b : BitVec 6) (k : BitVec 3) (pa : Nat), s.objectAt (s.rs a) .wr pa u → s.commitsNow →
    let q := u.memNat pa 8
    let r := u.barrier pa
    (∃ t, exec (.rel d a b k) s = .next t ∧ t.memNat pa 8 = (q + 1) % 2 ^ 64 ∧
      (∀ x, x < pa ∨ pa + 8 ≤ x → t.memByte x = u.memByte x) ∧
      ∃ w, Boards { u.putMemNat pa 8 ((q + 1) % 2 ^ 64) with parity := t.parity } w (.s d.toNat) (BitVec.ofNat 256 ((q + 1) % 2 ^ 64)) ∧ t = w.setSt w.st.commitClose) ∧
    (∀ j sl, u.st.slotOf (s.rs a) = some (j, sl) → sl.phase.toNat ≠ r.phase → ∃ t, exec (.arv d a b k) s = .next t ∧
      t.memNat pa 8 = (q + 1) % 2 ^ 64 ∧
      t.barrier pa = (if r.arrived + 1 = r.expect then { r with arrived := 0, phase := (r.phase + 1) % 2 ^ 32 }
        else { r with arrived := (r.arrived + 1) % 2 ^ 16 }) ∧
      smFind t.st.sync j = some { sl with phase := BitVec.ofNat 32 r.phase } ∧
      t.st.board.getLast?.map (fun e => (e.dst, e.val)) = some (.s d.toNat, some (BitVec.ofNat 256 r.phase)) ∧
      (∀ x, x < pa ∨ pa + 16 ≤ x → t.memByte x = u.memByte x)) ∧
    (∀ j sl, u.st.slotOf (s.rs a) = some (j, sl) → sl.phase.toNat = r.phase → exec (.arv d a b k) s = .next (u.raise (7, 0x33) (s.rs a))) ∧
    (u.st.slotOf (s.rs a) = none → exec (.arv d a b k) s = .next (u.raise (7, 0x33) (s.rs a))))

/-- R78, R205, R210 to R212: BIND registers a participant, binds a range and attaches a copy; UNBIND undoes them. -/
def Obligations.Bindings : Prop :=
  ∀ (s u : State) (d a b : BitVec 6) (k : BitVec 3) (pa : Nat), s.objectAt (s.rs a) .wr pa u →
    let c := s.rs d
    let w := (s.rs b).toNat
    let j := c.toNat % 16
    let r := u.barrier pa
    let range (t : State) (i : Nat) : Nat := t.memNat (pa + 32 + 8 * i) 8
    let base := c.toNat / 2 ^ 20 % 2 ^ 10 * 4096
    let pages := w % 2 ^ 20
    (c &&& 0xFFFFFFFFC00FFEE0 ≠ 0 ∨ j = 0 → exec (.bind d a b k) s = .next (u.raise (7, 0x30) (s.rs a)) ∧
      exec (.unbind d a b k) s = .next (u.raise (7, 0x30) (s.rs a))) ∧
    (c &&& 0xFFFFFFFFC00FFEE0 = 0 → j ≠ 0 → smFind u.st.sync j = none →
      (c.getLsbD 4 = true → c.getLsbD 8 = false → pages = 0 → r.expect < 65535 → ∃ t, exec (.bind d a b k) s = .next t ∧
        t.barrier pa = { r with expect := r.expect + 1 } ∧
        smFind t.st.sync j = some { obj := s.rs a, pa, reg := true, phase := BitVec.ofNat 32 r.phase - 1 } ∧
        ∀ i, i < 4 → range t i = range u i) ∧
      (c.getLsbD 4 = false → c.getLsbD 8 = false → pages ≠ 0 → ∀ f, f < 4 → (∀ i, i < 4 → range u i ≠ w) →
        range u f % 2 ^ 20 = 0 → (∀ i, i < f → range u i % 2 ^ 20 ≠ 0) → ∃ t, exec (.bind d a b k) s = .next t ∧
        t.barrier pa = r ∧ smFind t.st.sync j = some { obj := s.rs a, pa } ∧ ∀ i, i < 4 → range t i = if i = f then w else range u i) ∧
      (c.getLsbD 4 = false → c.getLsbD 8 = true → pages ≠ 0 → (∃ i, i < 4 ∧ range u i = w) → u.st.inWindow base (pages * 4096) = true →
        ∃ t, exec (.bind d a b k) s = .next t ∧ t.mem = u.mem ∧
          smFind t.st.sync j = some { obj := s.rs a, pa, att := some { base, pages, va := w / 2 ^ 20 * 4096 } }) ∧
      exec (.unbind d a b k) s = .next (u.raise (7, 0x32) (s.rs a))) ∧
    (∀ sl, c &&& 0xFFFFFFFFC00FFEE0 = 0 → j ≠ 0 → smFind u.st.sync j = some sl → sl.obj = s.rs a → sl.reg = true → c.getLsbD 4 = true →
      c.getLsbD 8 = false → pages = 0 → 0 < r.expect → (sl.phase.toNat = r.phase → 0 < r.arrived) →
      let x := r.expect - 1
      let y := if sl.phase.toNat = r.phase then r.arrived - 1 else r.arrived
      ∃ t, exec (.unbind d a b k) s = .next t ∧ smFind t.st.sync j = none ∧
        t.barrier pa = if 0 < x ∧ y = x then { expect := x, arrived := 0, phase := (r.phase + 1) % 2 ^ 32 } else { expect := x, arrived := y, phase := r.phase })

/-- R82, R83, R216: FENCE performs the strand's stores in the order of their issue, and waits while a write to another package is
not acknowledged or a load not answered.

R85, R217: DRAIN completes when no transfer of its path is outstanding, and waits for those there are. -/
def Obligations.FencesAndDrains : Prop :=
  (∀ (s : State) (k : BitVec 3), s.held = [] → s.memSyn = [] → s.poison = [] → s.lost = [] → s.l2inj = [] →
    let mine := s.stores.filter fun x => x.strand == s.cur && !isHostRange x.pa
    (s.posted = [] → (∀ b ∈ s.st.board, b.req = 0 ∨ b.val ≠ none) → ∃ t, exec (.fence k) s = .next t ∧
      t.mem = mine.foldl (fun m x => memPut m x.pa x.bytes) s.mem ∧ t.strands = s.strands ∧
      t.stores = s.stores.filter fun x => x.strand != s.cur) ∧
    ((∃ p ∈ s.posted, p.strand = s.cur ∧ s.entryOfPosted p = none) → (∀ p ∈ s.posted, p.pa / 2 ^ 46 ≠ s.node) →
      ∃ t, exec (.fence k) s = .next t ∧ t.st.blocked = 7) ∧
    ((∃ b ∈ s.st.board, b.req ≠ 0 ∧ b.val = none) → s.posted = [] → ∃ t, exec (.fence k) s = .next t ∧ t.st.blocked = 7)) ∧
  (∀ (s : State) (p : BitVec 3), s.stores = [] → s.posted = [] → s.st.drain = none →
    (s.drainSet p.toNat = [] → ∃ t, exec (.drain p) s = .next t ∧ t.st.drain = none ∧ (p = 3 ∨ p = 5 → ∀ o ∈ t.ownerOld, o.writer ≠ .strand s.cur) ∧ t.st.blocked = s.st.blocked ∧ t.mem = s.mem) ∧
    (∀ e ∈ smGet [] s.st.queues 4, p = 4 ∨ p = 5 → ∃ t, exec (.drain p) s = .next t ∧
      t.st.blocked = 1 ∧ (s.cur * 8 + 4, e.seq) ∈ t.st.drain.getD []))

/-- R88, R220 to R223: EPOP and EPOPT take the oldest element of a result FIFO, EPUSH gives one to an engine or stores a launch
queue's tail; all three close their region. -/
def Obligations.EnginePorts : Prop :=
  ∀ (s : State) (d a : BitVec 6) (p : BitVec 6), s.commitsNow → (s.coreAt s.curCore).l1 = [] → (∀ q ∈ s.st.sync, q.2.att = none) →
    let fifo (t : State) : List Elem := smGet [] (t.coreAt s.curCore).fifos p.toNat
    let v := s.rs a
    let last (t : State) : Option (Dest × Option (BitVec 256)) := t.st.board.getLast?.map fun b => (b.dst, b.val)
    (∀ e r, fifo s = e :: r →
      (∃ t, exec (.epop d p) s = .next t ∧ fifo t = r ∧ last t = some (.s d.toNat, some (e.v.setWidth 256)) ∧ t.mem = s.mem ∧
        t.st.regions.map (fun r => (r.id, r.entry)) = [(0xFFFF, s.st.pc)]) ∧
      (∃ t, exec (.epopt d p) s = .next t ∧ fifo t = r ∧ last t = some (.s d.toNat, some (e.v.setWidth 256)) ∧ t.st.now.getG 7 = false ∧
        t.mem = s.mem ∧ t.st.regions.map (fun r => (r.id, r.entry)) = [(0xFFFF, s.st.pc)])) ∧
    (fifo s = [] → exec (.epop d p) s = .next (s.setSt { s.st with commit := true, blocked := 6 }) ∧
      ∃ t, exec (.epopt d p) s = .next t ∧ last t = some (.s d.toNat, some 0) ∧ t.st.now.getG 7 = true ∧ t.mem = s.mem) ∧
    (p = 0x10 → 64 ≤ v.toNat → v.toNat < 128 → s.stores = [] → (smGet [] s.st.inFifo 0x10).length < 4 →
      ∃ t, exec (.epush a p) s = .next t ∧ smGet [] t.st.inFifo 0x10 = smGet [] s.st.inFifo 0x10 ++ [v] ∧ t.mem = s.mem) ∧
    (p = 0x13 → v.toNat / 2 ^ 40 = 0x10000 → s.stores = [] → (smGet [] s.st.inFifo 0x13).length < 4 →
      ∃ t, exec (.epush a p) s = .next t ∧ smGet [] t.st.inFifo 0x13 = smGet [] s.st.inFifo 0x13 ++ [v] ∧ t.mem = s.mem) ∧
    (p = 0x14 → v &&& 0xFFFF0000FFFFFFF8 = 0 → (s.lqAt (v.toNat % 8)).tenant = s.tenantOf s.curCore → s.stores = [] →
      ∃ t, exec (.epush a p) s = .next t ∧ t.mem = s.mem ∧
        ∃ e, (.lqTail, e) ∈ t.inbox ∧ e.k = v.toNat % 8 ∧ e.v = BitVec.ofNat 64 (v.toNat / 2 ^ 32 % 2 ^ 16)) ∧
    ((p = 0x10 ∧ v.toNat / 64 ≠ 1) ∨ p = 0x11 ∨ p = 0x12 ∨ (p = 0x13 ∧ v.toNat / 2 ^ 40 ≠ 0x10000) ∨
        (p = 0x14 ∧ v &&& 0xFFFF0000FFFFFFF8 ≠ 0) → exec (.epush a p) s = .next (s.raise (7, 7) s.st.addr))

/-- R227, R372: MBPOST posts an arrival to a stage of the tenant, MBFIN finishes a kind of a tag of the strand's own stage, MBVER
returns the version it is bound to; each returns its status. -/
def Obligations.StageCalls : Prop :=
  ∀ (s : State) (d a b : BitVec 6), s.stores = [] →
    let id := (s.rs a).toNat % 256
    let kind := (s.rs a).toNat / 256 % 4
    let tag := (s.rs b).toNat % 2 ^ 32
    let own := (s.rs a).toNat % 2 ^ 32
    let fk := (s.rs b).toNat % 4
    let answer (t : State) (r : Nat) : Prop := ∃ u : State, t = u.boardS d.toNat (BitVec.ofNat 64 r) ∧ u.mem = s.mem ∧ u.strands = s.strands
    let ends (o : Host.Outcome State Fault Refusal) (f : State → State) : Prop := ∃ q, o = .next (f { s with parity := q })
    let replies (r : Nat) : Prop := ends (exec (.mbpost d a b) s) fun t => t.boardS d.toNat (BitVec.ofNat 64 r)
    (s.findStage (s.tenantOf s.curCore) id = none → replies 3) ∧
    (∀ die sel g, s.findStage (s.tenantOf s.curCore) id = some (die, sel, g) →
      (kind = 3 → replies 4) ∧
      (kind ≠ 3 → g.state ≠ 1 → replies 2) ∧
      (kind ≠ 3 → g.state = 1 → 64 ≤ (g.queue kind).length → replies 1) ∧
      (kind ≠ 3 → g.state = 1 → (g.queue kind).length < 64 → ∃ t, exec (.mbpost d a b) s = .next t ∧ answer t 0 ∧
        ∃ h, smFind (t.dieAt die).stages sel = some h ∧ h.queue kind = g.queue kind ++ [({ tag } : Arrival)] ∧
          ∀ q, q < 3 → q ≠ kind → h.queue q = g.queue q)) ∧
    (s.st.stage = none → exec (.mbver d a b) s = .next (s.raise (7, 0x40) s.st.addr) ∧
      (s.commitsNow → exec (.mbfin d a b) s = .next (s.raise (7, 0x40) s.st.addr))) ∧
    (∀ die sel g, s.ownStage s.cur = some (die, sel, g) → s.st.stage.isSome →
      (g.tag own = none → exec (.mbver d a b) s = .next (s.boardS d.toNat (BitVec.allOnes 64))) ∧
      (∀ t, g.tag own = some t → exec (.mbver d a b) s = .next (s.boardS d.toNat (BitVec.ofNat 64 t.ver))) ∧
      (s.commitsNow →
        let fin (r : Nat) (f : State → State) : Prop :=
          ends (exec (.mbfin d a b) s) fun u => ((f u).boardS d.toNat (BitVec.ofNat 64 r)).modSt Strand.commitClose
        (g.tag own = none → fin 2 fun u => u) ∧
        (∀ t, g.tag own = some t →
          (t.finished.contains fk = true → fin 1 fun u => u) ∧
          (t.finished.contains fk = false → t.sent.contains fk = false → fin 2 fun u => u) ∧
          (t.finished.contains fk = false → t.sent.contains fk = true → fin 0 fun u => u.setStage die sel (g.finishKind own fk)))))

/-- R102, R241: in supervisor context a TLBI removes the translations it names and reports BUSY in g7 where a launch queue uses
them; TLBI.TENANT and TLBI.ALL raise ACCESS for another tenant.

R242, R470: CINV drops the L1's copies of a line or page, CFLS changes no value, and DSTCHK stores check bits: a word whose
stored check bits are the computed ones has no error. -/
def Obligations.TranslationsAndCaches : Prop :=
  (∀ (s : State) (a : BitVec 6), s.st.src.sup = true → s.stores = [] → s.posted = [] → s.reqs = [] →
    let own := s.tenantOf s.curCore
    let other := (s.rs a).toNat % 256
    let removed (c : Tlb → Prop) (o : Host.Outcome State Fault Refusal) : Prop := ∃ t, o = .next t ∧ t.st.now.getG 7 = false ∧
      (∀ e, e ∈ t.tlb ↔ e ∈ s.tlb ∧ ¬ c e) ∧ t.mem = s.mem ∧ ∀ n, n ≠ s.cur → t.strandAt n = s.strandAt n
    (∀ q ∈ s.lqs, q.2.state = 0) →
      (removed (fun e => e.tenant = own ∧ overlap (s.tlbiRange (.page own (s.rs a).toNat)) e.range = true) (exec (.tlbiPage a) s)) ∧
      (other = own ∨ own = 0 → (∀ e ∈ s.tlb, e.range.1 < 2 ^ 56) → removed (fun e => e.tenant = other) (exec (.tlbiTenant a) s)) ∧
      (own = 0 → (∀ e ∈ s.tlb, e.range.1 < 2 ^ 56) → removed (fun _ => True) (exec (.tlbiAll a) s)) ∧
      (other ≠ own → own ≠ 0 → exec (.tlbiTenant a) s = .next (s.raise (7, 0x41) s.st.addr)) ∧
      (own ≠ 0 → exec (.tlbiAll a) s = .next (s.raise (7, 0x41) s.st.addr)) ∧
      ∀ q, q.2.state ≠ 0 → q.2.tenant = own → (∃ e, s.tlbiRange (.page own (s.rs a).toNat) = e ∧ overlap e (q.2.base.toNat, 64 * 2 ^ q.2.size) = true) →
        exec (.tlbiPage a) { s with lqs := s.lqs ++ [q] } = .next (({ s with lqs := s.lqs ++ [q] } : State).wg 7 true)) ∧
  (∀ (s : State) (a b : BitVec 6) (p k : BitVec 1),
    let va := (s.rs a).toNat
    let size := if p = 1 then 4096 else 128
    (∀ pa, isLocal va = false → va < 2 ^ 56 → s.paOf s.curCore (va / size * size) = some pa → ∃ t, exec (.cinv a p) s = .next t ∧
      t.mem = s.mem ∧ t.strands = s.strands ∧
      ∀ q, q ∈ (t.coreAt s.curCore).l1 ↔ q ∈ (s.coreAt s.curCore).l1 ∧ (q.1 * 16 + 16 ≤ pa ∨ pa + size ≤ q.1 * 16)) ∧
    exec (.cfls a p) s = .next s ∧
    (∀ off, s.st.src.sup = true → s.posted = [] → s.plainSpm s.curCore → s.ownBytes (s.rs a) off 8 → (s.rs b).toNat < 256 →
      let w := leNat (s.spmBytes s.curCore off 8)
      ∃ t, exec (.dstchk a b k) s = .next t ∧ (t.coreAt s.curCore).spm = (s.coreAt s.curCore).spm ∧ t.strands = s.strands ∧
        (t.coreAt s.curCore).spmSyn = (if (s.rs b).toNat = secdedBits w then [] else [(off / 8, BitVec.ofNat 8 (secdedBits w ^^^ (s.rs b).toNat))])) ∧
    (s.st.src.sup = true → ∀ off, s.ownBytes (s.rs a) off 8 → 256 ≤ (s.rs b).toNat → exec (.dstchk a b k) s = .next (s.raise (7, 7) (s.rs a))))

/-- R59, R62, R63, R147, R243: RGN opens a region with its word's number, live inputs and expected values, and closes the one before;
a commit-class instruction leaves one open implicit region that starts at the next bundle. -/
def Obligations.RegionsOpenAndClose : Prop :=
  ∀ (s : State) (f : MFields) (x : Strand),
    (∀ q, s.st.regions.getLast? = some q → q.reopen = false) →
    (∃ t, exec (.rgn f) s = .next t ∧ OnlyStrand s t ∧ t.st.now = s.st.now ∧ t.st.nextRid = s.st.nextRid + 1 ∧
      (∃ q, t.st.regions.getLast? = some q ∧ q.rid = s.st.nextRid ∧ q.id = f.n.toNat ∧ q.entry = s.st.addr ∧ q.openSeq = s.st.seq ∧
        q.mask = BitVec.ofNat 64 (f.imm.toNat % 2 ^ 32 / 2 * 2) ∧ q.inputs = s.st.capture ∧ q.expCycles = f.mode.toNat ∧
        q.expSig = BitVec.ofNat 32 (f.imm.toNat / 2 ^ 32) ∧ q.sig = BitVec.allOnes 32 ∧ q.cycles = 0 ∧ q.replays = 0 ∧ q.closed = false) ∧
      ∀ r ∈ t.st.regions.dropLast, r.closed = true) ∧
    (x.commitClose.regions.map fun r => (r.id, r.entry, r.mask, r.openSeq, r.closed, r.expCycles)) =
      [(0xFFFF, x.pc, BitVec.allOnes 64, x.seq + 1, false, 0)] ∧
    (∀ r ∈ x.commitClose.regions, r.inputs = x.capture) ∧ x.commitClose.now = x.now

/-! ### The engines -/

/-- R19, R142, R143, R157, R167: a V slot pushes an entry with copies of its descriptors, offsets and count, and its word joins the
signature of its region; a count register above 65,535 raises VCOUNT; a nullified entry writes nothing, and completes.

R19, R86, R87, R143, R145, R157, R167, R286, R287, R314, R533: an M slot pushes an entry with copies of its registers, and its word
joins its region's signature; an overlap of written and read operands raises ALIASED at issue; OPJ and MBSEND are commit-class, and their
word and time join the region that they close when they first stand at their turn. A nullified entry only completes; a completed one leaves its queue and raises its flag. -/
def Obligations.EntriesAreQueued : Prop :=
  (∀ (s : State) (i : Instr) (op : Nat) (f : VFields), vCode i = some (op, f) →
    let r := s.st.src
    let count := if f.ci = 1 then (r.getS (f.cnt.toNat % 64)).toNat else f.cnt.toNat
    (s.engine = none → count ≤ 65535 → s.stores = [] → s.posted = [] → ∃ (t : State) (e : Entry), exec i s = .next t ∧
      smGet [] t.st.queues 0 = smGet [] s.st.queues 0 ++ [e] ∧ e.instr = i ∧ e.strand = some s.cur ∧ e.core = s.curCore ∧ e.seq = s.st.seq ∧
      e.sup = r.sup ∧ e.runs = (r.guard f.ga && r.guard f.gb) ∧ e.cnt = count ∧ e.rmode = r.rmode.toNat ∧ e.srSeed = r.srSeed.toNat ∧
      e.desc 0 = r.getT f.td.toNat ∧ e.desc 1 = r.getT f.ts1.toNat ∧ e.desc 2 = r.getT f.ts2.toNat ∧ e.desc 3 = r.getT f.ts3.toNat ∧
      e.od = (r.getS f.od.toNat).toNat % 2 ^ 32 ∧ e.os = (r.getS f.os.toNat).toNat % 2 ^ 32 ∧
      (∀ q, s.st.regions.getLast? = some q → t.st.regions.getLast?.map (·.sig) = some (crc32c q.sig (leBytes 12 (encodeV op f)))) ∧
      t.st.now = s.st.now ∧ t.mem = s.mem ∧ t.cores = s.cores ∧ ∀ n, n ≠ s.cur → t.strandAt n = s.strandAt n) ∧
    (s.engine = none → 65535 < count → exec i s = .next (s.raise (4, f.cnt.toNat % 64) s.st.addr)) ∧
    ∀ e : Entry, s.engine = some e → e.runs = false → smFind (s.coreAt e.core).inj (injKey 7 0) = none → exec i s = .next (s.endEntry e)) ∧
  (∀ (s : State) (i : Instr) (op : Nat) (f : MFields), mCode i = some (op, f) →
    let r := s.st.src
    let k := (engineOf i).getD 0
    let commits : Bool := i == .opj f || i == .mbsend f
    let queued (t : State) : Prop := ∃ e : Entry, smGet [] t.st.queues k = smGet [] s.st.queues k ++ [e] ∧
      e.instr = i ∧ e.strand = some s.cur ∧ e.core = s.curCore ∧ e.seq = s.st.seq ∧ e.addr = s.st.addr ∧ e.sup = r.sup ∧ e.runs = r.guard f.ga ∧
      e.cnt = f.n.toNat ∧ e.rmode = r.rmode.toNat ∧ e.srSeed = r.srSeed.toNat ∧ (0x40 ≤ op → e.cycles = if commits then 0 else 16) ∧
      e.desc 1 = r.getT f.t1.toNat ∧ e.desc 2 = r.getT f.t2.toNat ∧ e.desc 3 = r.getT f.t3.toNat ∧
      smGet 0 e.o 1 = r.getS f.o1.toNat ∧ smGet 0 e.o 2 = r.getS f.o2.toNat ∧ smGet 0 e.o 3 = r.getS f.o3.toNat ∧
      t.st.now = s.st.now ∧ t.mem = s.mem ∧ t.cores = s.cores ∧ ∀ n, n ≠ s.cur → t.strandAt n = s.strandAt n
    let signed (t : State) : Prop := ∀ q, s.st.regions.getLast? = some q →
      t.st.regions.getLast?.map (·.sig) = some (crc32c q.sig (leBytes 24 (encodeM op f)))
    (s.engine = none → s.stores = [] → s.posted = [] →
      (0x40 ≤ op → op ≠ 0x80 → commits = false → ∃ t, exec i s = .next t ∧ queued t ∧ signed t) ∧
      (i = .mzero f ∨ i = .mlda f ∨ i = .mnset f ∨ (f.sig = false ∧ (i = .mstep f ∨ i = .mwb f)) → ∃ t, exec i s = .next t ∧ queued t ∧ signed t) ∧
      (s.commitsNow → i = .opj f ∨ (i = .mbsend f ∧ (r.guard f.ga = false ∨ s.sendCheck f = none)) → ∃ t, exec i s = .next t ∧ queued t ∧
        t.st.regions.map (fun q => (q.id, q.entry)) = [(0xFFFF, s.st.pc)]) ∧
      (commits = true → s.st.cancelling = false → s.st.mayCommit = false → s.st.retry = false → ∃ t, exec i s = .next t ∧ signed t ∧
        t.st.commit = true ∧ t.st.blocked = 6 ∧ t.st.queues = s.st.queues ∧ t.mem = s.mem ∧
        ∀ q, s.st.regions.getLast? = some q → t.st.regions.getLast?.map (·.cycles) = some (q.cycles + 16)) ∧
      (i = .mspc f → r.guard f.ga = true →
        let e := s.entryOf i
        let ext (p reg rows : Nat) (sc : Bool) : Ext := extOf e.core reg (e.view p) ((e.view p).block (e.org p) rows (f.imm.toNat % 2 ^ 16)) sc
        let g := (f.n.toNat + 3) / 4
        let x := meAlias [ext 2 f.t2.toNat (2 * g) true, ext 3 f.t3.toNat g false] [ext 1 f.t1.toNat f.n.toNat true]
        (∀ aux, x = some aux → exec i s = .next (s.raise (9, aux) s.st.addr)) ∧ (x = none → ∃ t, exec i s = .next t ∧ queued t ∧ signed t))) ∧
    (∀ e : Entry, op ≠ 0x80 → s.engine = some e → e.runs = false → (s.coreAt e.core).inj = [] → exec i s = .next (s.endEntry e)) ∧
    ∀ (e : Entry) (n j : Nat), e.strand = some n → engineOf e.instr = some j →
      let t := s.endEntry e
      (∀ q, smGet [] (t.strandAt n).queues q = if q = j then (smGet [] (s.strandAt n).queues q).filter (·.seq != e.seq) else smGet [] (s.strandAt n).queues q) ∧
      (∀ q, q < 32 → (t.strandAt n).now.getF q = (s.strandAt n).now.getF q + if entryFlag e.instr = some q then 1 else 0) ∧
      (t.strandAt n).now = { (s.strandAt n).now with f := (t.strandAt n).now.f } ∧ t.mem = s.mem ∧ t.dies = s.dies ∧
      (∀ c, t.coreAt c = { s.coreAt c with lastServed := (t.coreAt c).lastServed }) ∧ ∀ m, m ≠ n → t.strandAt m = s.strandAt m)

/-- R250, R258: elementwise arithmetic puts the exact result of its operands' values, component by component. VABS and VNEG change the
sign bit alone where the formats agree and have one.

R251, R253: put divides by TSCALE, rounds once under the entry's rounding mode, and gives the flags of both to the position's lane; of a
complex destination it writes both components. -/
def Obligations.VectorArithmetic : Prop :=
  (∀ (s u : State) (e : Entry) (f : VFields) (l : List (List Got)),
    let dst : List Dst := [{ ix := ixFrom e.od e.cnt }]
    let rd : Bool := e.rm f == 2
    let x (v : List Val) := v.headD valZero
    let y (v : List Val) := (v[1]?).getD valZero
    let z (v : List Val) := (v[2]?).getD valZero
    let does (i : Instr) (vop n : Nat) (op : Nat → List Val → Val × Nat) : Prop :=
      VReady s u e f true dst (e.srcs vop f n false) l →
        exec i s = .next (u.putResults e f (e.srcs vop f n false) l fun k => byParts (op k))
    does (.vadd f) 1 2 (fun _ v => valAdd rd (x v) (y v)) ∧
    does (.vsub f) 2 2 (fun _ v => valAdd rd (x v) (valNeg (y v))) ∧
    does (.vmul f) 3 2 (fun _ v => valMul (x v) (y v)) ∧
    does (.vfma f) 4 3 (fun _ v => valFma rd (x v) (y v) (z v)) ∧
    does (.vfms f) 5 3 (fun _ v => valFma rd (x v) (y v) (valNeg (z v))) ∧
    does (.vdiv f) 6 2 (fun _ v => valDiv (x v) (y v)) ∧
    does (.vmin f) 7 2 (fun _ v => valMinMax false (x v) (y v)) ∧
    does (.vmax f) 8 2 (fun _ v => valMinMax true (x v) (y v)) ∧
    does (.vsqrt f) 0xB 1 (fun _ v => valSqrt (x v)) ∧
    does (.vrcp f) 0xC 1 (fun _ v => valDiv (.fin false 1 1) (x v)) ∧
    does (.vrsq f) 0xD 1 (fun _ v => ((valDiv (.fin false 1 1) (valSqrt (x v)).1).1,
      (valSqrt (x v)).2 ||| (valDiv (.fin false 1 1) (valSqrt (x v)).1).2)) ∧
    does (.vscl f) 0xE 1 (fun _ v => (valScale (x v) f.imm8.toInt, 0)) ∧
    does (.vaxpy f) 0xF 3 (fun _ v => valFma rd (z v) (x v) (y v)) ∧
    does (.vclmp f) 0x10 3 (fun _ v => if valIsNan (x v) then (.nan, snanFl [x v, y v, z v]) else
      ((valMinMax false (valMinMax true (x v) (y v)).1 (z v)).1,
        (valMinMax true (x v) (y v)).2 ||| (valMinMax false (valMinMax true (x v) (y v)).1 (z v)).2)) ∧
    does (.vrnd f) 0x11 1 (fun k v => match x v with
      | .fin neg n d => (.fin neg (roundInt (e.rm f) (srHash e.srSeed k) neg n d).1.natAbs 1,
          if (roundInt (e.rm f) (srHash e.srSeed k) neg n d).2 then flNX else 0)
      | w => (w, if w = .snan then flNV else 0)) ∧
    (signForm (e.view 0) (e.view 1) = false → does (.vabs f) 9 1 (fun _ v => (valAbs (x v), 0)) ∧ does (.vneg f) 0xA 1 (fun _ v => (valNeg (x v), 0))) ∧
    (signForm (e.view 0) (e.view 1) = true → fmtComplex (e.view 0).fmt = false → (∀ g ∈ l, ∀ q ∈ g, q.code < 2 ^ fmtBits (e.view 0).fmt) →
      let h := 2 ^ (fmtBits (e.view 0).fmt - 1)
      let code (g : List Got) : Nat := (g.headD default).code
      let raw : List Dst := [{ ix := ixFrom e.od e.cnt, put := false }]
      (VReady s u e f true raw (e.srcs 9 f 1 true) l →
        exec (.vabs f) s = .next (u.codeResults e (e.srcs 9 f 1 true) l fun _ g => (code g % h, 0))) ∧
      (VReady s u e f true raw (e.srcs 0xA f 1 true) l →
        exec (.vneg f) s = .next (u.codeResults e (e.srcs 0xA f 1 true) l fun _ g => ((code g + h) % (2 * h), 0)))) ∧
    (signForm (e.view 0) (e.view 1) = true → fmtComplex (e.view 0).fmt = true → (∀ g ∈ l, ∀ q ∈ g, q.code < 2 ^ fmtBits (e.view 0).fmt) →
      let h := 2 ^ (fmtBits (e.view 0).fmt / 2 - 1)
      let both (g : List Got) (part : Nat → Nat) : Nat := part ((g.headD default).code % (2 * h)) + part ((g.headD default).code / (2 * h)) * (2 * h)
      let raw : List Dst := [{ ix := ixFrom e.od e.cnt, put := false }]
      (VReady s u e f true raw (e.srcs 9 f 1 true) l →
        exec (.vabs f) s = .next (u.codeResults e (e.srcs 9 f 1 true) l fun _ g => (both g fun c => c % h, 0))) ∧
      (VReady s u e f true raw (e.srcs 0xA f 1 true) l →
        exec (.vneg f) s = .next (u.codeResults e (e.srcs 0xA f 1 true) l fun _ g => (both g fun c => (c + h) % (2 * h), 0))))) ∧
  (∀ (s : State) (e : Entry) (v : View) (rm : Nat) (sat : Bool) (l : List PutVal), v.blk = 0 →
    let c (p : PutVal) (x : Val) : Nat × Nat :=
      let y := valDiv x (tscaleVal v.tscale)
      let k := fmtRound (fmtPart v.fmt) rm (srHash e.srSeed p.ix) sat y.1
      (k.1, y.2 ||| k.2)
    (fmtComplex v.fmt = false → (∀ p ∈ l, p.vals.length = 1) → s.putAll e v rm sat l =
      (s, l.map fun p => (v.span (v.flat p.j), (c p (p.vals.headD valZero)).1),
        l.map fun p => (p.lane, (c p (p.vals.headD valZero)).2))) ∧
    (fmtComplex v.fmt = true → (∀ p ∈ l, p.vals.length = 2) → s.putAll e v rm sat l =
      (s, l.map fun p => (v.span (v.flat p.j), (c p (p.vals.headD valZero)).1 + (c p (p.vals.getLastD valZero)).1 * 2 ^ (fmtBits v.fmt / 2)),
        l.map fun p => (p.lane, (c p (p.vals.headD valZero)).2 ||| (c p (p.vals.getLastD valZero)).2))))

/-- R87, R252, R253: the writes of a V entry land in the own scratchpad, later ones over earlier ones, and the entry completes: it leaves
its queue, its flag rises, its lanes take their flags, and no other byte, register or queue changes. -/
def Obligations.VectorWritesLand : Prop :=
  ∀ (s : State) (e : Entry) (n : Nat) (xs : List Src) (puts : List Put) (fl : List (Nat × Nat)), e.strand = some n → coreOf n = e.core →
    engineOf e.instr = some 0 → e.keep = [] → e.undef = false → s.pace = 0 → s.plainSpm e.core → (s.coreAt e.core).inj = [] → s.posted = [] →
    s.hiddenAlias e (puts.map (·.1)) (xs.flatMap fun x => if sameOperand e x then [] else
      (touched (e.view x.pos) x.ix x.whole (!x.raw)).1 ++ (touched (e.view x.pos) x.ix x.whole (!x.raw)).2) = false →
    (∀ p ∈ puts, ∃ off k, p.1 = (8 * ((localBase + off : Nat) : Int), 8 * k) ∧ 1 ≤ k ∧ k ≤ 8 ∧ off + k ≤ 0x400000 ∧ (s.strandAt n).inWindow off k = true) →
    let t := s.vWrite e xs puts fl
    let at8 (p : Put) : Nat := (p.1.1 / 8).toNat - localBase
    (∀ a, a < 0x400000 → smGet 0 (t.coreAt e.core).spm a = puts.foldl (fun b p =>
      if at8 p ≤ a ∧ a < at8 p + p.1.2 / 8 then BitVec.ofNat 8 (p.2 / 2 ^ (8 * (a - at8 p))) else b) (smGet 0 (s.coreAt e.core).spm a)) ∧
    t.mem = s.mem ∧
    (∀ k, smGet [] (t.strandAt n).queues k = if k = 0 then (smGet [] (s.strandAt n).queues 0).filter (·.seq != e.seq) else smGet [] (s.strandAt n).queues k) ∧
    (∀ k, k < 32 → (t.strandAt n).now.getF k = (s.strandAt n).now.getF k + if entryFlag e.instr = some k then 1 else 0) ∧
    (∀ j, j < 256 → smGet 0 (t.strandAt n).now.lanes j = fl.foldl (fun a x => if x.1 % 256 = j then a ||| BitVec.ofNat 5 x.2 else a)
      (smGet 0 (s.strandAt n).now.lanes j)) ∧
    (t.strandAt n).now = { (s.strandAt n).now with f := (t.strandAt n).now.f, lanes := (t.strandAt n).now.lanes } ∧
    ∀ k, k ≠ n → t.strandAt k = s.strandAt k

/-- R259: the transcendental operations put the compositions that the table gives, from exact function values; NaNs and infinities
give the special values. -/
def Obligations.VectorTranscendentals : Prop :=
  ∀ (s u : State) (e : Entry) (f : VFields) (l : List (List Got)),
    let r (v : Val) : Val := (valR v).1
    let ov (v : Val) : Nat := (valR v).2
    let one : Val := .fin false 1 1
    let big (x : Val) : Val := (valE x).1
    let bov (x : Val) : Nat := (valE x).2
    let plus (a b : Val) : Val := (valAdd false a b).1
    let does (i : Instr) (vop : Nat) (op : Val → Val × Nat) : Prop :=
      VReady s u e f true [{ ix := ixFrom e.od e.cnt }] (e.srcs vop f 1 false) l →
        exec i s = .next (u.putResults e f (e.srcs vop f 1 false) l fun _ => byParts fun v => match v.headD .nan with
          | .nan => (.nan, 0)
          | .snan => (.nan, flNV)
          | x => op x)
    does (.vexp f) 0x20 (fun x => (valExp2 (r (valLog2e x)), ov (valLog2e x))) ∧
    does (.vexp2 f) 0x21 (fun x => (valExp2 x, 0)) ∧
    does (.vlog f) 0x22 (fun x => (valLn2 (r (valLog2 x).1), (valLog2 x).2 ||| ov (valLog2 x).1)) ∧
    does (.vlog2 f) 0x23 (fun x => valLog2 x) ∧
    does (.vtanh f) 0x24 (fun x =>
      let w := (valMul (.fin true 2 1) (valAbs x)).1
      let q := (valDiv (plus one (valNeg (big w))) (plus one (big w))).1
      (valWithSign (r q) (valSign x), bov w ||| ov q)) ∧
    does (.vsigm f) 0x25 (fun x => ((valDiv one (plus one (big (valNeg x)))).1, bov (valNeg x))) ∧
    does (.vgelu f) 0x26 (fun x =>
      let w := (valMul x (ffDec ffF32 0x3FD9DB23)).1
      let g := (valDiv one (plus one (big (valNeg (r w))))).1
      ((valMul x (r g)).1, ov w ||| (bov (valNeg (r w)) ||| ov g) ||| (valMul x (r g)).2)) ∧
    does (.vsilu f) 0x27 (fun x =>
      let g := (valDiv one (plus one (big (valNeg x)))).1
      ((valMul x (r g)).1, (bov (valNeg x) ||| ov g) ||| (valMul x (r g)).2)) ∧
    does (.vsin f) 0x28 (fun x => match x with
      | .fin neg n d => (valSinCos false (r (valMod2Pi neg n d)), ov (valMod2Pi neg n d))
      | _ => (.nan, flNV)) ∧
    does (.vcos f) 0x29 (fun x => match x with
      | .fin neg n d => (valSinCos true (r (valMod2Pi neg n d)), ov (valMod2Pi neg n d))
      | _ => (.nan, flNV)) ∧
    valExp2 (.inf true) = .fin false 0 1 ∧ valExp2 (.inf false) = .inf false ∧ valLog2 (.inf false) = (.inf false, 0) ∧
    (∀ b d, valLog2 (.fin b 0 d) = (.inf true, flDZ)) ∧ (∀ n d, n ≠ 0 → valLog2 (.fin true n d) = (.nan, flNV)) ∧
    valLog2 (.inf true) = (.nan, flNV)

/-- R260, R261: conversions put the value, round it to an integer, or put an integer code; compares put 0 or 1; VSEL puts the chosen
value; the bitwise operations write the low bits of a 64-bit result.

R260, R112: VDQNT puts a code under the scale byte that TS2 gives; VQNT writes, into a destination without blocks, the code of the
value under that scale.

R267: the integer operations write the exact integer, wrapped to the destination's width, or clipped with NV under `sat`. -/
def Obligations.VectorConversions : Prop :=
  (∀ (s u : State) (e : Entry) (f : VFields) (l : List (List Got)),
    let put : List Dst := [{ ix := ixFrom e.od e.cnt }]
    let raw : List Dst := [{ ix := ixFrom e.od e.cnt, put := false }]
    let code (g : List Got) (k : Nat) : Nat := ((g[k]?).getD default).code
    let bits (g : List Got) (k : Nat) : Nat := (BitVec.ofInt 64 (rawInt (e.view (k + 1)).fmt (code g k))).toNat
    let puts (i : Instr) (xs : List Src) (op : Nat → List Got → List Val × Nat) : Prop :=
      VReady s u e f true put xs l → exec i s = .next (u.putResults e f xs l op)
    let writes (i : Instr) (xs : List Src) (op : Nat → List Got → Nat × Nat) : Prop :=
      VReady s u e f true raw xs l → exec i s = .next (u.codeResults e xs l op)
    let w := fmtBits (e.view 1).fmt
    let sh (g : List Got) : Nat := if f.mod.getLsbD 4 then bits g 1 % 64 else f.imm8.toNat % 64
    let two (vop : Nat) : List Src := e.srcs vop f (if f.mod.getLsbD 4 then 2 else 1) true
    puts (.vcvt f) (e.srcs 0x30 f 1 false) (fun _ => byParts fun v => (v.headD .nan, 0)) ∧
    writes (.vcvti f) (e.srcs 0x33 f 1 false) (fun i g =>
      let r := intRound (codeRange (e.view 0).fmt).1 (codeRange (e.view 0).fmt).2 (e.rm f) (srHash e.srSeed i) ((g.headD default).vals.headD .nan)
      ((BitVec.ofInt (fmtBits (e.view 0).fmt) r.1).toNat, r.2 ||| (g.headD default).fl)) ∧
    puts (.vcvtf f) (e.srcs 0x34 f 1 true) (fun _ g => ([valOfInt (rawInt (e.view 1).fmt (code g 0))], 0)) ∧
    puts (.vcmp f) (e.srcs 0x40 f 2 false) (fun _ => byParts fun v =>
      let x := v.headD .nan
      let y := (v[1]?).getD .nan
      let un := valIsNan x || valIsNan y
      let c := f.imm8.toNat % 8
      let holds : Bool := if c = 6 then un else if c = 7 then !un else if un then c == 1 else
        [valEq x y, !valEq x y, valLt x y, valLt x y || valEq x y, valLt y x, valLt y x || valEq x y].getD c false
      (.fin false (if holds then 1 else 0) 1, if un ∧ 2 ≤ c ∧ c ≤ 5 ∨ x = .snan ∨ y = .snan then flNV else 0)) ∧
    puts (.vsel f) [e.src 0x41 f 1 false, e.src 0x41 f 2 false, e.src 0x41 f 3 true] (fun _ g =>
      byParts (fun v => (if ((g[2]?).getD default).code = 0 then (v[1]?).getD .nan else v.headD .nan, 0)) (g.take 2)) ∧
    writes (.vand f) (e.srcs 0x42 f 2 true) (fun _ g => (bits g 0 &&& bits g 1, 0)) ∧
    writes (.vor f) (e.srcs 0x43 f 2 true) (fun _ g => (bits g 0 ||| bits g 1, 0)) ∧
    writes (.vxor f) (e.srcs 0x44 f 2 true) (fun _ g => (bits g 0 ^^^ bits g 1, 0)) ∧
    writes (.vnot f) (e.srcs 0x45 f 1 true) (fun _ g => ((~~~(BitVec.ofInt 64 (rawInt (e.view 1).fmt (code g 0)))).toNat, 0)) ∧
    writes (.vshl f) (two 0x46) (fun _ g => (bits g 0 * 2 ^ sh g, 0)) ∧
    writes (.vshr f) (two 0x47) (fun _ g => (if f.mod.getLsbD 5 then
        (((BitVec.ofInt 64 ((BitVec.ofNat w (bits g 0)).toInt)).sshiftRight (sh g)).toNat) else bits g 0 / 2 ^ sh g, 0))) ∧
  (∀ (s u : State) (e : Entry) (f : VFields) (l : List (List Got)) (a b : List Got), l = [a, b] → e.cnt = a.length → e.cnt = b.length →
    let v := e.view 0
    let pos2 : Src := { pos := 2, ix := ixFrom e.os e.cnt, raw := true }
    let sc (i : Nat) : Int := scaleCode (e.view 2) ((b[i]?).getD default).code
    ((e.view 1).blk = 0 → f.mod.getLsbD 0 = false → v.blk = 0 → fmtComplex v.fmt = false → fmtComplex (e.view 1).fmt = false →
      VReady s u e f false [{ ix := ixFrom e.od e.cnt }] [e.src 0x32 f 1 true, pos2] l →
      let d (i : Nat) : Val := fmtDec (e.view 1).fmt ((a[i]?).getD default).code
      let x (i : Nat) : Val × Nat := if sc i = 255 then scaled (d i) (some 255) (e.view 1).tscale else scaled (valScale (d i) (sc i - 127)) none (e.view 1).tscale
      let c (i : Nat) : Nat × Nat := putCode v (e.rm f) (srHash e.srSeed i) false (x i).1
      exec (.vdqnt f) s = .next (u.vWrite e [e.src 0x32 f 1 true, pos2] ((List.range e.cnt).map fun i => (v.span (v.flat (e.od + i)), (c i).1))
        ((List.range e.cnt).map (fun i => (i, (c i).2)) ++ (List.range e.cnt).map fun i => (i, (x i).2)))) ∧
    (v.blk = 0 → f.mod.getLsbD 0 = false → fmtComplex v.fmt = false → (∀ g ∈ a, g.vals.length = 1) →
      VReady s u e f false [{ ix := ixFrom e.od e.cnt }] [e.src 0x31 f 1 false, pos2] l →
      let x (i : Nat) : Val := if sc i = 255 then .nan else ((a[i]?).getD default).vals.headD .nan
      let y (i : Nat) : Val := valScale (valDiv (x i) (tscaleVal v.tscale)).1 (127 - sc i)
      let cl (i : Nat) : Val × Nat := if fmtBlockable v.fmt then valClip (quantClip v.fmt) (y i) else (y i, 0)
      let c (i : Nat) : Nat × Nat := fmtRound v.fmt (e.rm f) (srHash e.srSeed i) (!fmtBlockable v.fmt && f.mod.getLsbD 3) (cl i).1
      exec (.vqnt f) s = .next (u.vWrite e [e.src 0x31 f 1 false, pos2] ((List.range e.cnt).map fun i => (v.span (v.flat (e.od + i)), (c i).1))
        ((List.range e.cnt).map (fun i => (i, ((a[i]?).getD default).fl)) ++
          (List.range e.cnt).map fun i => (i, (valDiv (x i) (tscaleVal v.tscale)).2 ||| (cl i).2 ||| (c i).2))))) ∧
  (∀ (s u : State) (e : Entry) (f : VFields) (l : List (List Got)),
    let t := (e.view 0).fmt
    let lo := (codeRange t).1
    let hi := (codeRange t).2
    let code (g : List Got) (k : Nat) : Nat := ((g[k]?).getD default).code
    let int (g : List Got) (k : Nat) : Int := rawInt (e.view (k + 1)).fmt (code g k)
    let does (i : Instr) (vop n : Nat) (r : List Got → Int) : Prop :=
      VReady s u e f true [{ ix := ixFrom e.od e.cnt, put := false }] (e.srcs vop f n true) l →
        exec i s = .next (u.codeResults e (e.srcs vop f n true) l fun _ g =>
          if f.mod.getLsbD 3 ∧ r g < lo then ((BitVec.ofInt (fmtBits t) lo).toNat, flNV)
          else if f.mod.getLsbD 3 ∧ hi < r g then ((BitVec.ofInt (fmtBits t) hi).toNat, flNV)
          else ((BitVec.ofInt (fmtBits t) (r g)).toNat, 0))
    let off := f.imm8.toNat % 32
    let width := min (2 ^ (f.mod.toNat / 32)) (32 - off)
    let field (g : List Got) : BitVec width := BitVec.ofNat width (code g 0 % 2 ^ 32 / 2 ^ off)
    does (.viadd f) 0x70 2 (fun g => int g 0 + int g 1) ∧
    does (.visub f) 0x71 2 (fun g => int g 0 - int g 1) ∧
    does (.vimul f) 0x72 2 (fun g => int g 0 * int g 1) ∧
    does (.vimin f) 0x73 2 (fun g => min (int g 0) (int g 1)) ∧
    does (.vimax f) 0x74 2 (fun g => max (int g 0) (int g 1)) ∧
    does (.vpopc f) 0x75 1 (fun g => (popBits (BitVec.ofNat 64 (code g 0)) : Int)) ∧
    does (.vbext f) 0x76 1 (fun g => if f.mod.getLsbD 4 then (field g).toInt else ((field g).toNat : Int)) ∧
    does (.vhash f) 0x77 1 (fun g => (srHash e.srSeed ((BitVec.ofInt 64 (int g 0)).toNat % 2 ^ 32) : Int)))

/-- R262 to R264: a reduction puts one value for each segment; VSCAN puts the running sums of each segment, from the position or, with
`excl`, from the one before.

R265: without segments, VVOTE puts ANY, ALL or COUNT of its codes or lanes; VFLGC puts the sticky flags of the lanes.

R262: the value of a reduction is the tree over 256 lanes, each folded over its positions in their order, whatever the positions. -/
def Obligations.VectorReductions : Prop :=
  (∀ (s u : State) (e : Entry) (f : VFields) (l : List (List Got)),
    let cols := max 1 (e.view 1).vc
    let len := if f.mod.getLsbD 5 then cols else e.cnt
    let nseg := (e.cnt + len - 1) / max 1 len
    let abs := f.mod.getLsbD 4
    let mag (x : Val) : Val := if abs then valAbs x else x
    let does (i : Instr) (vop : Nat) (op : List (Nat × Val) → Val × List (Nat × Nat)) : Prop :=
      VReady s u e f false [{ ix := ixFrom e.od nseg }] [e.src vop f 1 false] l →
        exec i s = .next (u.segResults e f (e.src vop f 1 false) (l.headD []) len op)
    does (.vrsum f) 0x50 (redValue .sum) ∧
    does (.vrmax f) 0x51 (redValue (.ext true abs)) ∧
    does (.vrmin f) 0x52 (redValue (.ext false abs)) ∧
    does (.vrssq f) 0x57 (redValue .ssq) ∧
    does (.vramx f) 0x53 (argMax abs len) ∧
    does (.vlse f) 0x58 (lseValue (e.rm f == 2)) ∧
    (∀ xs : List (Nat × Val), xs ≠ [] → (∀ p ∈ xs, ∃ b n d, p.2 = .fin b n d ∧ d ≠ 0) → xs.map (·.1) = List.range xs.length →
      ∃ k x, (k, x) ∈ xs ∧ (argMax abs len xs).1 = .fin false k 1 ∧ (∀ p ∈ xs, valLt (mag x) (mag p.2) = false) ∧
        ∀ p ∈ xs, p.1 < k → valLt (mag p.2) (mag x) = true ∨ (valIsZero x ∧ valIsZero p.2)) ∧
    (VReady s u e f true [{ ix := ixFrom e.od e.cnt }] [e.src 0x54 f 1 false] l → (e.view 0).blk = 0 → fmtComplex (e.view 0).fmt = false →
      (l.headD []).length = e.cnt → (∀ g ∈ l.headD [], g.vals.length = 1) → len = e.cnt →
      let x (i : Nat) : Val := (((l.headD [])[i]?).getD default).vals.headD .nan
      let acc (i : Nat) : Option Val := (List.range i).foldl (fun c k => some (match c with
        | none => (RedOp.sum.first (x k)).1
        | some a => (RedOp.sum.step a (x k)).1)) none
      let out (i : Nat) : Val := ((acc (if abs then i else i + 1)).getD valZero)
      ∃ fl, exec (.vscan f) s = .next (u.vWrite e [e.src 0x54 f 1 false] ((List.range e.cnt).map fun i =>
        ((e.view 0).span ((e.view 0).flat (e.od + i)), (putCode (e.view 0) (e.rm f) (srHash e.srSeed i) false (out i)).1)) fl))) ∧
  (∀ (s u : State) (e : Entry) (f : VFields) (l : List (List Got)) (n : Nat), e.strand = some n →
    let v := e.view 0
    let put : List Dst := [{ ix := ixFrom e.od e.cnt }]
    let real : Prop := v.blk = 0 ∧ fmtComplex v.fmt = false
    let int (i : Nat) (k : Int) : Nat × Nat := putCode v (e.rm f) (srHash e.srSeed i) (f.mod.getLsbD 3) (valOfInt k)
    let lane (i : Nat) : BitVec 5 := smGet 0 (u.strandAt n).now.lanes (i % 256)
    (VReady s u e f false [{ ix := ixFrom e.od 1 }] [e.src 0x55 f 1 true] l → real → f.mod.getLsbD 5 = false → f.mod.getLsbD 4 = false →
      f.mod.getLsbD 3 = false →
      let k := ((l.headD []).filter fun g => g.code != 0).length
      let out : Nat := if f.imm8.toNat % 4 = 0 then min k 1 else if f.imm8.toNat % 4 = 1 then (if k = (l.headD []).length then 1 else 0) else k
      (l.headD []).length = e.cnt → exec (.vvote f) s = .next (u.vWrite e [e.src 0x55 f 1 true] [(v.span (v.flat e.od), (int 0 out).1)] [(0, (int 0 out).2)])) ∧
    (VReady s u e f false [{ ix := ixFrom e.od 1 }] [] l → real → f.mod.getLsbD 5 = false → f.mod.getLsbD 4 = true → f.mod.getLsbD 3 = false →
      let k := ((List.range e.cnt).filter fun i => (lane i).getLsbD (f.imm8.toNat / 16 % 8)).length
      let out : Nat := if f.imm8.toNat % 4 = 0 then min k 1 else if f.imm8.toNat % 4 = 1 then (if k = e.cnt then 1 else 0) else k
      exec (.vvote f) s = .next (u.vWrite e [] [(v.span (v.flat e.od), (int 0 out).1)] [(0, (int 0 out).2)])) ∧
    (VReady s u e f false put [] l → real → f.mod.getLsbD 3 = false → f.mod.getLsbD 4 = false →
      exec (.vflgc f) s = .next (u.vWrite { e with keep := [] } [] ((List.range e.cnt).map fun i =>
        (v.span (v.flat (e.od + i)), (int i (if i < 256 then ((lane i).toNat : Int) else 0)).1)) []))) ∧
  (∀ (o : RedOp) (xs : List (Nat × Val)), (redTree o xs).1 = laneTree o (laneValue o xs) 8 0)

/-- R266: moves copy codes, zero-extended or cut to the destination's width, and VCMPR and VEXPD read those codes alone that they move; VIOTA
puts the numbers of an arithmetic progression. -/
def Obligations.VectorMoves : Prop :=
  ∀ (s u : State) (e : Entry) (f : VFields) (l : List (List Got)),
    let v := e.view 0
    let w := fmtBits v.fmt
    let raw : List Dst := [{ ix := ixFrom e.od e.cnt, put := false }]
    let code (k i : Nat) : Nat := ((((l[k]?).getD [])[i]?).getD default).code
    let at1 (j c : Nat) : Put := (v.span (v.flat j), c % 2 ^ w)
    let int (i : Nat) (k : Int) : Nat × Nat := putCode v (e.rm f) (srHash e.srSeed i) (f.mod.getLsbD 3) (valOfInt k)
    (VReady s u e f true raw (e.srcs 0x60 f 1 true) l → exec (.vmov f) s = .next (u.codeResults e (e.srcs 0x60 f 1 true) l fun _ g => ((g.headD default).code, 0))) ∧
    (VReady s u e f true raw [] l → exec (.vfill f) s = .next (u.vWrite e [] ((List.range e.cnt).map fun i => at1 (e.od + i) (smGet 0 e.o 1).toNat)
      ((List.range e.cnt).map fun i => (i, 0)))) ∧
    (VReady s u e f true [{ ix := ixFrom e.od e.cnt }] [] l → v.blk = 0 → fmtComplex v.fmt = false → exec (.viota f) s = .next (u.vWrite e []
      ((List.range e.cnt).map fun i => (v.span (v.flat (e.od + i)), (int i ((smGet 0 e.o 1).toInt + i * f.imm8.toInt)).1))
      ((List.range e.cnt).map (fun i => (i, (int i ((smGet 0 e.o 1).toInt + i * f.imm8.toInt)).2)) ++ (List.range e.cnt).map fun i => (i, 0)))) ∧
    (VReady s u e f false [{ ix := [], put := false, whole := true }] [e.src 0x63 f 1 true, e.src 0x63 f 2 true] l →
      (∀ k, k < 2 → ((l[k]?).getD []).length = e.cnt) → l.length = 2 →
      let q (i : Nat) : Int := rawInt (e.view 2).fmt (code 1 i)
      let ok (i : Nat) : Bool := decide (0 ≤ q i) && decide (q i < (v.vr * v.vc : Nat))
      exec (.vsct f) s = .next (u.vWrite e [e.src 0x63 f 1 true, e.src 0x63 f 2 true]
        (((List.range e.cnt).filter ok).map fun i => at1 (q i).toNat (code 0 i)) ((List.range e.cnt).map fun i => (i, if ok i then 0 else flNV)))) ∧
    (∀ (b : State) (cs : List Nat), l.length = 2 → ((l[1]?).getD []).length = e.cnt →
      let set := (List.range e.cnt).filter fun i => code 1 i != 0
      let reads (ix : List Nat) : Prop :=
        ix.foldl (fun (x : Rd × List Nat) j => ((Rd.code x.1 e (e.view 1) ((e.view 1).flat j) (vHint f)).1,
          (Rd.code x.1 e (e.view 1) ((e.view 1).flat j) (vHint f)).2 :: x.2)) ({ s := u }, []) = ({ s := b }, cs.reverse)
      (let x : Src := { e.src 0x66 f 1 true with late := true };
        VReady s u e f false [{ ix := ixFrom e.od e.cnt, put := false }, { pos := 3, ix := [0] }] [x, e.src 0x66 f 2 true] l →
        (e.view 3).blk = 0 → fmtComplex (e.view 3).fmt = false → reads (set.map (e.os + ·)) →
        let c := putCode (e.view 3) 0 (srHash e.srSeed 0) false (valOfInt set.length)
        exec (.vcmpr f) s = .next (b.vWrite e [{ x with ix := set.map (e.os + ·) }, e.src 0x66 f 2 true]
          ((cs.zipIdx.map fun p => at1 (e.od + p.2) p.1) ++ [((e.view 3).span ((e.view 3).flat 0), c.1)]) [(0, c.2)])) ∧
      (let x : Src := { e.src 0x67 f 1 true with late := true };
        VReady s u e f false raw [x, e.src 0x67 f 2 true] l → reads ((List.range set.length).map (e.os + ·)) →
        let before (i : Nat) : Nat := ((List.range i).filter fun j => code 1 j != 0).length
        exec (.vexpd f) s = .next (b.vWrite e [{ x with ix := (List.range set.length).map (e.os + ·) }, e.src 0x67 f 2 true]
          ((List.range e.cnt).filterMap fun i => if code 1 i ≠ 0 then some (at1 (e.od + i) ((cs[before i]?).getD 0))
            else if f.mod.getLsbD 4 then some (at1 (e.od + i) 0) else none) []))) ∧
    (∀ (a b : State) (cs : List Nat), VReady s a e f false raw [{ pos := 1, ix := [], raw := true, whole := true }, e.src 0x62 f 2 true] l →
      l.length = 2 → ((l[1]?).getD []).length = e.cnt →
      let q (i : Nat) : Int := rawInt (e.view 2).fmt (code 1 i)
      let ok (i : Nat) : Bool := decide (0 ≤ q i) && decide (q i < ((e.view 1).vr * (e.view 1).vc : Nat))
      let js := (List.range e.cnt).map fun i => if ok i then some (q i).toNat else none
      js.foldl (fun (x : Rd × List Nat) j => match j with
        | some j => ((Rd.code x.1 e (e.view 1) ((e.view 1).flat j) (vHint f)).1, (Rd.code x.1 e (e.view 1) ((e.view 1).flat j) (vHint f)).2 :: x.2)
        | none => (x.1, 0 :: x.2)) ({ s := a }, []) = ({ s := b }, cs.reverse) →
      exec (.vgth f) s = .next (b.vWrite e [{ pos := 1, ix := js.filterMap id, raw := true }, e.src 0x62 f 2 true]
        (cs.zipIdx.map fun p => at1 (e.od + p.2) p.1) ((List.range e.cnt).map fun i => (i, if ok i then 0 else flNV)))) ∧
    (∀ (a b : State) (cs : List Nat), VReady s a e f false raw [{ pos := 1, ix := [], raw := true, whole := true }] l →
      let rc := (List.range e.cnt).map fun i => ((e.od + i) % v.vc, (e.od + i) / v.vc)
      s.tdesc e.strand (e.desc 1) (rc.map (e.view 1).span) [] = none →
      rc.foldl (fun (x : Rd × List Nat) p => ((Rd.code x.1 e (e.view 1) p (vHint f)).1, (Rd.code x.1 e (e.view 1) p (vHint f)).2 :: x.2)) ({ s := a }, [])
        = ({ s := b }, cs.reverse) →
      exec (.vtrn f) s = .next (b.vWrite e [{ pos := 1, ix := [], raw := true, whole := true }] (cs.zipIdx.map fun p => at1 (e.od + p.2) p.1) []))

/-- R35, R250, R252, R253: an element in the own scratchpad reads as its bits and changes nothing; the writes of an ME entry land there,
later ones over earlier ones, its flags join MFLAGS and it completes.

R123 to R126, R270 to R277, R285: MZERO, MLDA and MSTEP write the cells of their rows and columns and no others; a tile outside the
window raises ACCESS. MNEST without levels does what MSTEP does.

R280, R281: MNSET writes its row of the strand's nest table at its issue, where its guard holds, and row 6 keeps the destination
descriptor too; MNEST's entry copies the table. A nullified MNSET writes nothing. -/
def Obligations.MatrixCells : Prop :=
  (∀ (s : State) (e : Entry) (n : Nat), e.strand = some n → coreOf n = e.core → e.undef = false → s.plainSpm e.core → (s.coreAt e.core).inj = [] →
    (∀ (v : View) (rc : Nat × Nat) (hint off b : Nat), b < 8 → v.span rc = (8 * ((localBase + off : Nat) : Int) + b, fmtBits v.fmt) →
      let k := (b + fmtBits v.fmt + 7) / 8
      off + k ≤ 0x400000 → (s.strandAt n).inWindow off k = true → e.races s (localBase + off) k = false →
        Rd.code { s } e v rc hint = ({ s }, leNat (s.spmBytes e.core off k) / 2 ^ b % 2 ^ fmtBits v.fmt)) ∧
    ∀ (puts : List Put) (fl : Nat), engineOf e.instr = some 1 → s.pace = 0 → s.posted = [] → s.ownPuts n puts →
      let t := s.meWrite e (writePlan puts) fl
      (∀ a, a < 0x400000 → smGet 0 (t.coreAt e.core).spm a = afterPuts puts a (smGet 0 (s.coreAt e.core).spm a)) ∧ t.mem = s.mem ∧
      (t.strandAt n).now.mflags = (s.strandAt n).now.mflags ||| BitVec.ofNat 5 fl ∧
      (t.strandAt n).now = { (s.strandAt n).now with f := (t.strandAt n).now.f, mflags := (t.strandAt n).now.mflags } ∧
      smGet [] (t.strandAt n).queues 1 = (smGet [] (s.strandAt n).queues 1).filter (·.seq != e.seq) ∧
      (t.coreAt e.core).acc = (s.coreAt e.core).acc ∧ ∀ m, m ≠ n → t.strandAt m = s.strandAt m) ∧
  (∀ (s : State) (e : Entry) (f : MFields) (n : Nat), MReady s e → e.strand = some n →
    let T := (s.strandAt n).accBase + f.acc.toNat
    let m := f.rows
    let z := (valZero, valZero)
    let cell (w : State) (i j : Nat) : BitVec 32 := (w.coreAt e.core).cell T i j
    let f32 (v : Val) : BitVec 32 := BitVec.ofNat 32 (ffRound ffF32 0 0 false v).1
    let sets (i : Instr) (u : State) (cols : Nat) (new : Nat → Nat → Option (BitVec 32)) : Prop := ∃ t, exec i s = .next t ∧ OnlyCells u t e ∧
      ∀ U i j, i < 128 → j < 192 → (t.coreAt e.core).cell U i j =
        if U = T ∧ i < m ∧ j < cols then (new i j).getD ((u.coreAt e.core).cell U i j) else (u.coreAt e.core).cell U i j
    ((s.strandAt n).accN ≤ f.acc.toNat → exec (.mzero f) s = .next (s.entryFault e 7 4 e.addr)) ∧
    (f.acc.toNat < (s.strandAt n).accN → m ≤ 128 → f.cols false ≤ 192 → f.cols true ≤ 96 →
      sets (.mzero f) s (f.cols false) (fun _ _ => some 0) ∧
      (let v := e.view 1
       let cplx := f.mode.getLsbD 5
       let c := f.cols cplx
       s.meTdesc e (e.desc 1) (meSourceOk e.core false v) (v.block (e.org 1) m c) (!f.mode.getLsbD 6) = none →
        ∀ (a b : Nat → State) (new : Nat → Nat → BitVec 32),
          let width := if cplx && !f.mode.getLsbD 6 then 2 * c else c
          let row (i : Nat) : Prop :=
            if f.mode.getLsbD 6 = true then ∃ l, Rd.meRaw { s := a i } e v ((e.org 1).1 + i, (e.org 1).2) 1 c = ({ s := b i }, l) ∧
              ∀ j, j < c → new i j = BitVec.ofInt 32 (at2 0 l 0 j)
            else ∃ l fl, Rd.meBlock { s := a i } e v ((e.org 1).1 + i, (e.org 1).2) 1 c cplx = ({ s := b i }, l, fl) ∧
              ∀ j, j < width → new i j = if !cplx then f32 (at2 z l 0 j).1 else if j % 2 = 0 then f32 (at2 z l 0 (j / 2)).1 else f32 (at2 z l 0 (j / 2)).2
          a 0 = s → (∀ i, i < m → row i ∧ (b i).pace = 0 ∧ ((b i).coreAt e.core).acc = ((a i).coreAt e.core).acc ∧
            a (i + 1) = (b i).putCells e ((List.range width).map fun j => (cellNo T i j, new i j)) [(cellNo T i 0, width)]) →
          sets (.mlda f) (a m) width fun i j => some (new i j)) ∧
      (let k := e.cnt
       let c := f.cols f.cplx
       let g := (k + 3) / 4
       let kb := if f.sparse then 2 * g else k
       let pair := (isPair (e.view 1).fmt || isPair (e.view 2).fmt) && !f.sparse
       f.sig = false → firstDesc (s.stepTdesc e f [(e.org 1, e.org 2)] m) = none →
        ∀ codes u0, (if f.sparse then Rd.meRaw { s } e (e.view 4) ((e.org 2).1 / 2, (e.org 2).2) g c else ({ s }, [])) = ({ s := u0 }, codes) →
        let order (j : Nat) : List (Nat × Nat) := if f.sparse then (List.range g).flatMap fun x =>
            let q := (at2 0 codes x j % 16).toNat
            ([(4 * x + q % 4, 2 * x), (4 * x + q / 4 % 4, 2 * x + 1)]).filter fun p => decide (p.1 < k)
          else (List.range k).map fun x => (x, x)
        let written (j : Nat) (v : BitVec 32) : Option (BitVec 32) := if f.init = false ∧ order j = [] then none else some v
        let both (u : State) (cols : Nat) (new : Nat → Nat → Option (BitVec 32)) : Prop := sets (.mstep f) u cols new ∧
          (u.posted = [] → (∀ q, q < 6 → (e.level q).count = 0) → sets (.mnest f) u cols new)
        (∀ u1 u2 a b fa fb, intStep f e = false → Rd.meBlock { s := u0 } e (e.view 1) (e.org 1) m k f.cplx = ({ s := u1 }, a, fa) →
          Rd.meBlock { s := u1 } e (e.view 2) (e.org 2) kb c f.cplx = ({ s := u2 }, b, fb) →
          (f.cplx = false → both u2 c fun i j =>
            let c0 := if f.init then 0 else (cell u0 i j).toNat
            let l := (order j).map fun p => ((at2 z a i p.1).1, (at2 z b p.2 j).1)
            written j (BitVec.ofNat 32 (if pair then (accPaired c0 l).1 else sumCell c0 l))) ∧
          (f.cplx = true → f.sparse = false → both u2 (2 * c) fun i j =>
            let c0 := if f.init then 0 else (cell u0 i j).toNat
            written (j / 2) (BitVec.ofNat 32 (sumCell c0 ((List.range k).flatMap fun x =>
              let p := at2 z a i x
              let q := at2 z b x (j / 2)
              if j % 2 = 0 then [(p.1, q.1), (valNeg p.2, q.2)] else [(p.1, q.2), (p.2, q.1)]))))) ∧
        (∀ u1 u2 a b, intStep f e = true → Rd.meRaw { s := u0 } e (e.view 1) (e.org 1) m k = ({ s := u1 }, a) →
          Rd.meRaw { s := u1 } e (e.view 2) (e.org 2) kb c = ({ s := u2 }, b) →
          let sum (i j : Nat) : BitVec 32 := BitVec.ofInt 32 ((order j).map fun p => at2 0 a i p.1 * at2 0 b p.2 j).sum
          let old (i j : Nat) : BitVec 32 := if f.init then 0 else cell u0 i j
          (f.cplx = false → both u2 c fun i j => written j (old i j + sum i j)) ∧
          (f.cplx = true → both u2 (2 * c) fun i j => written (j / 2) (old i j + if j % 2 = 0 then sum i (j / 2) else 0)))))) ∧
  (∀ (s : State) (f : MFields), s.engine = none → s.stores = [] → s.posted = [] →
    let row := f.mode.toNat % 8
    (∃ t, exec (.mnset f) s = .next t ∧ t.st.now = s.st.now ∧ t.mem = s.mem ∧ ∀ k, smGet 0 t.st.nest k =
      if s.st.src.guard f.ga = false then smGet 0 s.st.nest k
      else if row = 6 ∧ k = 7 then s.st.src.getT f.t1.toNat
      else if k = row then BitVec.ofNat 256 (f.n.toNat + f.imm.toNat * 2 ^ 16 + f.mode.toNat * 2 ^ 80 + f.t1.toNat * 2 ^ 112)
      else smGet 0 s.st.nest k) ∧
    ∀ k, k < 8 → k ∈ s.st.nest.map (·.1) → (s.entryOf (.mnest f)).desc (k + 8) = smGet 0 s.st.nest k)

/-- R127, R278, R283, R296, R304, R305, R306: MWB and MSPC write converted or kept values, MSIG its record, MSCAT the values of its
buckets; all end by their writes.

R278, R295, R296, R298: rows fall into the buckets of their codes in order, a row whose code has none joining the nearest; a row's
code has a bit for each negative projection; MSPC keeps the two largest of a group; MSTEP with the signature stage writes its record, and
then forms the products of the representatives. -/
def Obligations.MatrixResults : Prop :=
  (∀ (s : State) (e : Entry) (f : MFields) (n : Nat), MReady s e → e.strand = some n →
    let z := (valZero, valZero)
    let T := (s.strandAt n).accBase + f.acc.toNat
    let writes (i : Instr) (u : State) (puts : List Put) : Prop := ∃ fl, exec i s = .next (u.meWrite e (writePlan puts) fl)
    let plain (v : View) : Prop := v.blk = 0 ∧ fmtComplex v.fmt = false
    let code (v : View) (rm : Nat) (sat : Bool) (ix : Nat) (x : Val) : Nat := (putCode v (rmOf rm e.rmode) (srHash e.srSeed ix) sat x).1
    (let v := e.view 1
     let cplx := f.mode.getLsbD 5
     let c := f.cols cplx
     let rno := (smGet 0 e.o 3).toNat % 2 ^ 32
     let mul := tscaleVal (f.imm.toNat / 2 ^ 32)
     let cell (u : State) (i j : Nat) : BitVec 32 := (u.coreAt e.core).cell T i j
     let back (u : State) (rows : List (Nat × Nat)) : Prop :=
       let puts (val : Nat → Nat → Nat → Nat) : List Put := rows.flatMap fun p => (List.range c).filterMap fun j =>
         (v.at (e.org 1) p.1 j).map fun rc => (v.span rc, val (p.2 * c + j) p.2 j)
       let one (x : Val) (ix : Nat) : Nat := code v (f.mode.toNat % 8) (f.mode.getLsbD 3) ix (valMul x mul).1
       (plain v → cplx = false → writes (.mwb f) u (puts fun ix i j =>
         one (if f.mode.getLsbD 6 then valOfInt (cell u i j).toInt else ffDec ffF32 (cell u i j).toNat) ix)) ∧
       (v.blk = 0 → fmtComplex v.fmt = true → cplx = true → f.mode.getLsbD 6 = false → writes (.mwb f) u (puts fun ix i j =>
         one (ffDec ffF32 (cell u i (2 * j)).toNat) ix + one (ffDec ffF32 (cell u i (2 * j + 1)).toNat) ix * 2 ^ (fmtBits v.fmt / 2)))
     f.acc.toNat < (s.strandAt n).accN → f.cols false ≤ 192 → f.cols true ≤ 96 →
      s.meTdesc e (e.desc 1) (wbKind v) (v.block (e.org 1) (wbRows f e) c) true = none →
      (f.sig = false → back s ((List.range f.rows).map fun i => (i, i))) ∧
      (f.sig = true → s.mapTdesc e (e.desc 3) rno = none → ∀ u bs, Rd.record { s } e (e.view 3) rno = ({ s := u }, bs) →
        recOk bs (e.view 3).ver (selWin (smGet 0 e.o 3)) none = true → u.tileOf e f.acc.toNat = some T →
        s.aliased e ([extOf e.core f.t1.toNat v (v.block (e.org 1) (wbRows f e) c) true], [recExt e.core f.t3.toNat (e.view 3) rno]) = false →
        back u ((List.range (recOf bs).1.wrows).filterMap fun i => ((recOf bs).1.bucket i).map fun b => (i, b)))) ∧
    (let c := f.imm.toNat % 2 ^ 16
     let g := (e.cnt + 3) / 4
     let v1 := e.view 1; let v2 := e.view 2; let v3 := e.view 3
     let tdesc (p rows : Nat) (sc : Bool) : Prop :=
       s.meTdesc e (e.desc p) (meSourceOk e.core false (e.view p)) ((e.view p).block (e.org p) rows c) sc = none
     let ext (p reg rows : Nat) (sc : Bool) : Ext := extOf e.core reg (e.view p) ((e.view p).block (e.org p) rows c) sc
     tdesc 1 e.cnt true → tdesc 2 (2 * g) true → tdesc 3 g false → plain v1 → plain v2 → f.acc.toNat < (s.strandAt n).accN →
     s.aliased e ([ext 2 f.t2.toNat (2 * g) true, ext 3 f.t3.toNat g false], [ext 1 f.t1.toNat e.cnt true]) = false →
     ∀ u vals fl, Rd.meBlock { s } e v1 (e.org 1) e.cnt c true = ({ s := u }, vals, fl) →
      let kept (k j : Nat) : Nat × Option Nat := keepTwo ((List.range (min 4 (e.cnt - 4 * k))).map fun p => (at2 z vals (4 * k + p) j).1)
      let gj : List (Nat × Nat) := (List.range g).flatMap fun k => (List.range c).map fun j => (k, j)
      let at1 (v : View) (o : Org) (i j x : Nat) : Option Put := (v.at o i j).map fun rc => (v.span rc, x)
      let metas := gj.filterMap fun p => at1 v3 (e.org 3) p.1 p.2 (((kept p.1 p.2).1 + 4 * (kept p.1 p.2).2.getD ((kept p.1 p.2).1 + 1)) % 2 ^ fmtBits v3.fmt)
      let both (x : Nat → Nat → Nat → Nat) (out : Nat → Nat) : List Put := gj.flatMap fun p =>
        let q := kept p.1 p.2
        (at1 v2 (e.org 2) (2 * p.1) p.2 (x (4 * p.1 + q.1) p.2 (2 * p.1 * c + p.2))).toList ++
        (at1 v2 (e.org 2) (2 * p.1 + 1) p.2 (match q.2 with
          | some y => x (4 * p.1 + y) p.2 ((2 * p.1 + 1) * c + p.2)
          | none => out ((2 * p.1 + 1) * c + p.2))).toList
      let rounded (ix : Nat) (w : Val) : Nat := code v2 (f.mode.toNat % 8) (f.mode.getLsbD 3) ix w
      (spcRaw v1 v2 = false → writes (.mspc f) u (both (fun i j ix => rounded ix (at2 z vals i j).1) (fun ix => rounded ix valZero) ++ metas)) ∧
      (∀ w raws, spcRaw v1 v2 = true → Rd.meRaw { s := u } e v1 (e.org 1) e.cnt c = ({ s := w }, raws) →
        let none0 := (fmtRound (fmtPart v2.fmt) 0 0 false valZero).1
        writes (.mspc f) w (both (fun i j _ => if (v1.at (e.org 1) i j).isSome then intCode (fmtBits v1.fmt) (at2 0 raws i j) else none0) (fun _ => none0) ++ metas))) ∧
    (∀ u m, let rno := (smGet 0 e.o 3).toNat % 2 ^ 32
     s.aliased e ([recExt e.core f.t3.toNat (e.view 3) rno], [extOf e.core f.t1.toNat (e.view 1) ((e.view 1).block (e.org 1) f.win e.cnt) true,
       extOf e.core f.hyper (e.view 5) ((e.view 5).block (0, 0) e.cnt f.bits) true]) = false →
     s.meTdesc e (e.desc 1) (meSourceOk e.core false (e.view 1)) ((e.view 1).block (e.org 1) f.win e.cnt) true = none → s.mapTdesc e (e.desc 3) rno = none →
      s.meTdesc e (e.desc 5) (meSourceOk e.core false (e.view 5)) ((e.view 5).block (0, 0) e.cnt f.bits) true = none →
      Rd.build { s } e f = ({ s := u }, m) → exec (.msig f) s = .next (u.meWrite e (m.plan ((e.view 3).base + rno * 4096)) 0)) ∧
    (∀ u0 u bs rows, let rno := (smGet 0 e.o 3).toNat % 2 ^ 32
     let c := f.imm.toNat % 2 ^ 16
     let v := e.view 2
     let m := (recOf bs).1
     s.meTdesc e (e.desc 1) (meSourceOk e.core false (e.view 1)) ((e.view 1).block (e.org 1) f.win c) true = none →
      s.meTdesc e (e.desc 2) (wbKind v) (v.block (e.org 2) 128 c) true = none → s.mapTdesc e (e.desc 3) rno = none →
      s.aliased e ([extOf e.core f.t2.toNat v (v.block (e.org 2) 128 c) true],
        [extOf e.core f.t1.toNat (e.view 1) ((e.view 1).block (e.org 1) f.win c) true, recExt e.core f.t3.toNat (e.view 3) rno]) = false →
      Rd.record { s } e (e.view 3) rno = ({ s := u0 }, bs) → recOk bs (e.view 3).ver f.win none = true →
      Rd.window { s := u0 } e (e.view 1) (e.org 1) (m.used (if f.mode.toNat % 4 = 2 then m.rep else 1)).contains f.win c = ({ s := u }, rows) → plain v →
      let member (b j : Nat) : List Val := (m.rowsOf b).map fun i => ((((rows.map (·.1))[i]?).getD [])[j]?).getD valZero
      let value (b j : Nat) : Option Val :=
        if f.mode.toNat % 4 = 2 then (repVal m m.rep (rows.map (·.1)) b j).map (·.1)
        else if f.mode.toNat % 4 = 1 then (sumRows (member b j)).map fun x => (valDiv x.1 (.fin false ((m.count[b]?).getD 1) 1)).1
        else (sumRows (member b j)).map (·.1)
      (∀ b j, b < m.nbkt → j < c → (value b j).isSome) → writes (.mscat f) u ((List.range m.nbkt).flatMap fun b => (List.range c).filterMap fun j =>
        (v.at (e.org 2) b j).map fun rc => (v.span rc, code v (f.mode.toNat / 4 % 8) (f.mode.getLsbD 5) (b * c + j) ((value b j).getD valZero))))) ∧
  ((∀ (m : Nat) (rows : List (Option Nat)), 0 < m →
    let b := assign m rows
    b.codes.length ≤ m ∧ b.codes.Nodup ∧ b.member.length = rows.length ∧
    (∀ i : Nat, rows[i]? = some none → b.member[i]? = some none) ∧
    (∀ (i c : Nat), rows[i]? = some (some c) → ∃ k x, b.member[i]? = some (some k) ∧ b.codes[k]? = some x ∧
      (c ∈ b.codes → x = c) ∧ (c ∉ b.codes → b.codes.length = m ∧ ∀ j y, b.codes[j]? = some y → bitDiff x c ≤ bitDiff y c ∧ (j < k → bitDiff x c < bitDiff y c))) ∧
    b.ovf = (rows.filter fun r => match r with
      | some c => !b.codes.contains c
      | none => false).length) ∧
  (∀ (row : List Val) (h : List (List (Val × Val))) (bits k : Nat), (sigCode row h bits).testBit k = (decide (k < bits) &&
    match ffDec ffF32 (sumCell 0 (row.zipIdx.map fun x => (x.1, (at2 (valZero, valZero) h x.2 k).1))) with
    | .fin neg n _ => neg && n != 0
    | .inf neg => neg
    | _ => false)) ∧
  (∀ l : List Val, 2 ≤ l.length → (∀ v ∈ l, ∀ g n d, v = .fin g n d → d ≠ 0) → ∃ p q, keepTwo l = (p, some q) ∧ p < q ∧ q < l.length ∧
    ∀ r x, r < l.length → r ≠ p → r ≠ q → x = p ∨ x = q →
      let a := (l[r]?).getD valZero
      let b := (l[x]?).getD valZero
      rankAbove a b = false ∧ (rankAbove b a = false → x < r)) ∧
  ∀ (s u w x y : State) (e : Entry) (f : MFields) (n : Nat) (m : MapRec) (rows : List (List Val × Nat)) (fb : Nat) (b : List (List (Val × Val))),
    MReady s e → e.strand = some n → f.sig = true → f.acc.toNat < (s.strandAt n).accN → f.rep ≠ 1 → f.cols false ≤ 192 → f.rows ≤ 128 → m.nbkt ≤ f.rows →
    let sel := smGet 0 e.o 3
    sel.getLsbD 35 = false → firstDesc (s.stepTdesc e f [(e.org 1, e.org 2)] f.win) = none → s.mapTdesc e (e.desc 3) (sel.toNat % 2 ^ 32) = none →
    s.meTdesc e (e.desc 5) (meSourceOk e.core false (e.view 5)) ((e.view 5).block (0, 0) e.cnt f.bits) true = none →
    s.aliased e ([recExt e.core f.t3.toNat (e.view 3) (sel.toNat % 2 ^ 32)], stepExts e f [(e.org 1, e.org 2)] f.win ++
      [extOf e.core f.hyper (e.view 5) ((e.view 5).block (0, 0) e.cnt f.bits) true]) = false →
    let T := (s.strandAt n).accBase + f.acc.toNat
    let e1 := { e with phase := 4, parts := m.parts, plan := m.plan ((e.view 3).base + sel.toNat % 2 ^ 32 * 4096) }
    let e2 := { e1 with phase := 5, plan := [] }
    Rd.build { s } e f = ({ s := u }, m) → (u.putEntry e1).writeAll e1 e1.plan = (w, [], none) →
    Rd.window { s := w } e2 (e.view 1) (e.org 1) (m.used f.rep).contains f.win e.cnt = ({ s := x }, rows) →
    Rd.meBlock { s := x } e2 (e.view 2) (e.org 2) (if m.nbkt = 0 then 0 else e.cnt) (f.cols false) = ({ s := y }, b, fb) →
    ∃ cells spans fl, exec (.mstep f) s = .next ((y.putCells e2 cells spans).meEnd { e2 with keep := [fl] }) ∧
      (∀ p ∈ cells, ∃ i j, i < f.rows ∧ j < f.cols false ∧ p.1 = cellNo T i j) ∧
      (∀ i j, f.init = true → m.nbkt ≤ i → i < f.rows → j < f.cols false → ((y.putCells e2 cells spans).coreAt e.core).cell T i j = 0) ∧
      ∀ i j, i < m.nbkt → j < f.cols false → isPair (e.view 1).fmt = false → isPair (e.view 2).fmt = false →
        ((y.putCells e2 cells spans).coreAt e.core).cell T i j =
          BitVec.ofNat 32 (sumCell (if f.init then 0 else ((y.coreAt e.core).cell T i j).toNat)
            ((List.range e.cnt).map fun k => (((((rows.map (·.1))[(m.repidx[i]?).getD 0]?).getD [])[k]?).getD valZero, (at2 (valZero, valZero) b k j).1))))

/-- R89, R312, R313, R315, R320, R322, R323, R326, R327, R329: copies within the own scratchpad move each code or converted value, set D, E,
the watermark and CK, and give their element; CPYRS adds to a destination element; CPYMC ends once its writes are acknowledged; CWMK
reports a channel and CTPL writes a template.

R328: CPYMC makes each write once for every window of its mask, at the same offset; when all are acknowledged it gives its element.

R30, R31, R317, R442: the host's stores to an engine port page. The first two words of a command are staged; a store of the third
pushes the command into the core's aperture queue, or is refused and counted. -/
def Obligations.Copies : Prop :=
  (∀ (s : State) (e : Entry) (f : MFields) (n : Nat), MReady s e → e.strand = some n → coreOf n = e.core → s.posted = [] → s.plainSpm e.core →
    engineOf e.instr = some 2 →
    let ch := f.ch
    let chan (t : State) : Chan := smGet {} (t.coreAt e.core).chans ch
    let fifo (t : State) : List Elem := smGet [] (t.coreAt e.core).fifos ch
    let gone (t : State) : Prop := smGet [] (t.strandAt n).queues 2 = (smGet [] (s.strandAt n).queues 2).filter (·.seq != e.seq)
    let elem (kind status flg v : Nat) : Word := BitVec.ofNat 64 (kind * 2 ^ 60 + status * 2 ^ 56 + f.tmpl * 2 ^ 48 + flg * 2 ^ 32 + v % 2 ^ 32)
    let pushes (t : State) (w : Word) : Prop := (fifo t).map (·.v) = (fifo s).map (·.v) ++ (if f.res then [w] else [])
    let s0 := s.modChan e.core ch ({ · with faulted := false })
    (∀ (i : Instr) (k : CeKind), (i = .cpy f ∧ k = .cpy) ∨ (i = .cpyi f ∧ k = .cpyi) ∨ (i = .cpyk f ∧ k = .cpyk) →
      let j := jobOf s k f e
      let x := j.e.core
      ∀ rows, j.versioned = false → s0.ceTdesc j = none → j.clash = none → (fifo s).length < 16 → j.d.blk = 0 → j.s.blk = 0 →
        fmtComplex j.d.fmt = false → fmtComplex j.s.fmt = false → (j.t.conv = 0 ∨ j.t.conv = 1) → (∀ va w, e.races s va w = false) →
        (if k = .cpyi then Rd.rows { s := s0.openChan j } j else ({ s := s0.openChan j }, (List.range j.t.rows).map fun r => some ((e.org 1).1 + r)))
          = ({ s := s0.openChan j }, rows) →
        let cells := j.cells fun r => (rows[r]?).getD none
        j.s.kind = 0 → j.d.kind = 0 → (∀ c ∈ cells, (s.ownPuts n [(j.d.span c.dst, 0)]) ∧ ∀ rc, c.src = some rc → s.ownPuts n [(j.s.span rc, 0)]) →
        let read (c : Cell) : Nat := match c.src with
          | some rc => leNat (s.spmBytes x ((j.s.span rc).1 / 8 - localBase).toNat (fmtBits j.s.fmt / 8))
          | none => 0
        let val (c : Cell) : Val := match c.src with
          | some _ => (scaled (fmtDec j.s.fmt (read c)) none j.s.tscale).1
          | none => valZero
        let puts := (cells.filter fun c => !(c.zero && j.value)).map (fun c => (j.d.span c.dst,
          if j.value then (putCode j.d (rmOf j.t.rm e.rmode) (srHash e.srSeed (c.r * j.t.cols + c.c)) j.t.sat (val c)).1
          else read c % 2 ^ fmtBits j.d.fmt)) ++ (cells.filter fun c => c.zero && j.value).map fun c => (j.d.span c.dst, 0)
        let ck := checksum (f.mode.toNat / 2 ^ 20 % 4) (if f.mode.getLsbD 22 then (chan s).ck.toNat else f.imm.toNat % 2 ^ 32)
          (cells.flatMap fun c => leBytes (fmtBits j.d.fmt / 8) (read c))
        let bad := f.mode.getLsbD 23 && ck != f.imm.toNat / 2 ^ 32
        (s0.openChan j).hiddenAlias e (puts.map (·.1)) ((extOf x 0 j.s j.srcElems j.value).spans ++
          (extOf x 0 (e.view 3) (if k = .cpyi then j.ixElems else []) false).spans) = false →
        ∃ t, exec i s = .next t ∧ (∀ a, a < 0x400000 → smGet 0 (t.coreAt x).spm a = afterPuts puts a (smGet 0 (s.coreAt x).spm a)) ∧ t.mem = s.mem ∧
          gone t ∧ (chan t).active = false ∧ (chan t).faulted = false ∧ (chan t).wmark = (chan t).e ∧
          ((chan t).d, (chan t).e) = ((destRange x j.d j.dstElems).1, (destRange x j.d j.dstElems).2.1) ∧
          (chan t).ck = (if k = .cpyk then BitVec.ofNat 32 ck else (chan s).ck) ∧
          pushes t (if k = .cpyk then elem 3 (if bad then 1 else 0) 0 ck else elem k.code 0 0 0)) ∧
    (let j := jobOf s .cpyrs f e
     ∀ (src : Nat × Nat) (dst : Nat × Nat) (u : State) (pa : Nat), s0.ceTdesc j = none → j.clash = none → f.res = false → f.slot = 0 → j.s.blk = 0 →
      fmtComplex j.s.fmt = false → j.reduceCells = [{ r := 0, c := 0, dst, src := some src }] → s.ownPuts n [(j.s.span src, 0)] → (∀ va w, e.races s va w = false) →
      s0.place e.core e.sup .wr 3 (BitVec.ofInt 64 ((j.d.span dst).1 / 8)) = (u, .ok (.mem pa)) → u.plainMem →
      let v := (scaled (fmtDec j.s.fmt (leNat (s.spmBytes e.core ((j.s.span src).1 / 8 - localBase).toNat (fmtBits j.s.fmt / 8)))) none j.s.tscale).1
      let w := fmtBits j.d.fmt / 8
      (j.exact = false → 0 ≤ (j.d.span dst).1 → w ∣ 64 → w ∣ pa → ∃ t, exec (.cpyrs f) s = .next t ∧
        t.memNat pa w = (fmtRound j.d.fmt 0 0 false (valAdd false (fmtDec j.d.fmt (u.memNat pa w)) v).1).1 ∧ ∀ a, a < pa ∨ pa + w ≤ a → t.memByte a = u.memByte a) ∧
      (j.exact = true → 0 ≤ (j.d.span dst).1 → 8 ∣ pa →
        let ex : Int := (BitVec.ofNat 16 f.imm.toNat).toInt
        ∀ term : Int, exactTerm ex v = .ok term → ∃ t, exec (.cpyrs f) s = .next t ∧ BitVec.ofNat 64 (t.memNat pa 8) = BitVec.ofNat 64 (u.memNat pa 8) + BitVec.ofInt 64 term ∧
          ∀ a, a < pa ∨ pa + 8 ≤ a → t.memByte a = u.memByte a)) ∧
    (let c := chan s
     (16 ≤ (fifo s).length → exec (.cwmk f) s = .next (s.putEntry { e with phase := 5 })) ∧
     ((fifo s).length < 16 → ∃ t, exec (.cwmk f) s = .next t ∧ gone t ∧
       (fifo t).map (·.v) = (fifo s).map (·.v) ++ [BitVec.ofNat 64 (5 * 2 ^ 60 + ((if c.active then 1 else 0) + (if c.faulted then 2 else 0)) * 2 ^ 32 + (c.wmark - c.d) % 2 ^ 32)] ∧
       chan t = if f.mode.getLsbD 24 then {} else c)) ∧
    (∃ t, exec (.ctpl f) s = .next t ∧ gone t ∧ ∀ q, smGet 0 (t.coreAt e.core).tmpl q = if q = f.tmpl then f.imm else smGet 0 (s.coreAt e.core).tmpl q)) ∧
  ((∀ (f : MFields) (v : View) (plan : List (Nat × List (Byte × Byte))) (own : Nat), v.base = localBase + 0x200000000 + own * 0x400000 + v.base % 0x400000 →
    own < 16 → (∀ p ∈ plan, localBase + 0x200000000 + own * 0x400000 ≤ p.1) → ∀ a bs w off, w < 16 →
      ((a, bs) ∈ windowPlan f v plan ∧ a = localBase + 0x200000000 + w * 0x400000 + off ∧ off < 0x400000 ∧ (∀ p ∈ plan, p.1 < localBase + 0x200000000 + (own + 1) * 0x400000)
        → f.imm.getLsbD w = true ∧ (localBase + 0x200000000 + own * 0x400000 + off, bs) ∈ plan) ∧
      (f.imm.getLsbD w = true → (localBase + 0x200000000 + own * 0x400000 + off, bs) ∈ plan → (localBase + 0x200000000 + w * 0x400000 + off, bs) ∈ windowPlan f v plan)) ∧
  ∀ (s : State) (e : Entry) (f : MFields) (n : Nat), s.engine = some e → e.runs = true → e.phase = 4 → e.plan = [] → e.strand = some n → s.posted = [] →
    engineOf e.instr = some 2 → f.slot = 0 → f.res = true → (smGet [] (s.coreAt e.core).fifos f.ch).length < 16 → ∃ t, exec (.cpymc f) s = .next t ∧
      (smGet [] (t.coreAt e.core).fifos f.ch).map (·.v) = (smGet [] (s.coreAt e.core).fifos f.ch).map (·.v) ++
        [BitVec.ofNat 64 (4 * 2 ^ 60 + f.tmpl * 2 ^ 48 + ((List.range 16).countP fun w => f.imm.getLsbD w))] ∧
      (smGet {} (t.coreAt e.core).chans f.ch).active = false ∧
      smGet [] (t.strandAt n).queues 2 = (smGet [] (s.strandAt n).queues 2).filter (·.seq != e.seq)) ∧
  (∀ (s : State) (f : Nat), s.ev.agent = .host f →
    let c := s.coreAt s.ev.n
    let port := s.ev.k / 0x1000
    let off := s.ev.k % 0x1000
    let staged (o : Nat) : Nat := (smGet 0 c.staging (port * 4 + o)).toNat
    let w := s.ev.v.toNat * 2 ^ 128 + staged 1 * 2 ^ 64 + staged 0
    let mop := w / 2 ^ 184
    let word := if mop = 0x46 then w else w / 2 ^ 68 * 2 ^ 68 + port * 2 ^ 64 + w % 2 ^ 64
    let refused : Prop := ∃ t, exec .aperturePush s = .next t ∧ (t.fnAt f).apert = (if (s.fnAt f).apert < 255 then (s.fnAt f).apert + 1 else (s.fnAt f).apert) ∧
      (t.coreAt s.ev.n).apq = c.apq ∧ t.strands = s.strands ∧ t.mem = s.mem
    (16 ≤ port ∨ off ∉ [0, 8, 0x10] → exec .aperturePush s = .next (s.countRefused f)) ∧
    (port < 16 → off = 0 ∨ off = 8 → ∃ t, exec .aperturePush s = .next t ∧
      t = s.setCore s.ev.n { c with staging := (t.coreAt s.ev.n).staging } ∧
      ∀ k, smGet 0 (t.coreAt s.ev.n).staging k = if k = port * 4 + off / 8 then s.ev.v else smGet 0 c.staging k) ∧
    (port < 16 → off = 0x10 →
      let g := mFields word
      (mop < 0x40 ∨ 0x46 < mop → refused) ∧
      (g.fe = 1 ∨ g.slot ≠ 0 ∨ g.mode.getLsbD 18 = true ∨ g.n ≠ 0 ∨ g.acc ≠ 0 ∨ 2 ^ 25 ≤ g.mode.toNat ∨ (mop ≠ 0x41 ∧ (g.t3 ≠ 0 ∨ g.o3 ≠ 0)) ∨
        (0x45 ≤ mop ∧ (g.t1 ≠ 0 ∨ g.t2 ≠ 0 ∨ g.o1 ≠ 0 ∨ g.o2 ≠ 0)) → refused) ∧
      (16 ≤ c.apq.length → refused) ∧
      ∀ mk, 0x40 ≤ mop → mop ≤ 0x46 → mInstr mop (word / 2 ^ 64) = some mk → lowBitOf word (mZero mop g) = none → g.fe = 0 → g.slot = 0 →
        g.mode.getLsbD 18 = false → (c.apq.length < 16 → ∃ (t : State) (e : Entry), exec .aperturePush s = .next t ∧
          (t.coreAt s.ev.n).apq = c.apq ++ [e] ∧ e.instr = mk g ∧ e.strand = none ∧ e.core = s.ev.n ∧ e.sup = true ∧ e.phase = 0 ∧
          (∀ k, k < 2 → smGet 0 (t.coreAt s.ev.n).staging (port * 4 + k) = smGet 0 c.staging (port * 4 + k)) ∧
          t.strands = s.strands ∧ t.mem = s.mem ∧ ∀ d, d ≠ s.ev.n → t.coreAt d = s.coreAt d)))

/-- R128, R129, R331 to R338: a collective waits for the packets of every member, forms its result from them in rank order, and completes
with its element once its writes are made; CLGRP defines or undefines a group. -/
def Obligations.Collectives : Prop :=
  ∀ (s : State) (e : Entry) (f : MFields) (n : Nat), s.engine = some e → e.runs = true → e.strand = some n → e.parts = [] → engineOf e.instr = some 3 →
    let d := dieOf e.core
    let fifo (t : State) : List Elem := smGet [] (t.coreAt e.core).fifos 0x10
    let elem (i : Instr) (status rank flagw : Nat) : Word := BitVec.ofNat 64 (keKind i * 2 ^ 60 + status * 2 ^ 52 + f.gid * 2 ^ 46 + rank % 8192 * 2 ^ 32 + flagw % 2 ^ 32)
    let ends (i : Instr) (w : Word) : Prop := ∃ t, exec i s = .next t ∧ (fifo t).map (·.v) = (fifo s).map (·.v) ++ [w] ∧ t.mem = s.mem ∧
      smGet [] (t.strandAt n).queues 3 = (smGet [] (s.strandAt n).queues 3).filter (·.seq != e.seq)
    let five : List Instr := [.clar f, .clrs f, .clag f, .clbc f, .clxr f]
    (fifo s).length < 32 → e.instr ∈ five ++ [.clgrp f] →
    (∀ i ∈ five, e.instr = i → s.groupAt d f.gid = none → e.phase = 0 → ends i (elem i 4 0 0)) ∧
    (∀ i ∈ five, e.instr = i → ∀ g, s.groupAt d f.gid = some g → e.phase = 4 → e.plan = [] → s.posted = [] →
      ends i (elem i 0 g.rank ((e.keep[2]?).getD 0))) ∧
    (∀ i ∈ five, e.instr = i → ∀ g ps seq r0, s.groupAt d f.gid = some g → e.phase = 2 → e.keep = [seq, r0] →
      let c : Coll := { e, f, g }
      let v := e.view 2
      s.packets c seq = ps.map some → (i = .clar f ∨ i = .clrs f → v.blk = 0 ∧ fmtComplex v.fmt = false) → c.status ps = 0 →
      let w := fmtBits v.fmt
      let raw (l : List Int) : List Put := l.zipIdx.map fun x => (v.span (v.flat (c.od + x.2)), x.1.toNat % 2 ^ w)
      let sum (off : Nat) : List Put := (List.range f.n.toNat).map fun k => (v.span (v.flat (c.od + k)),
        (putCode v (rmOf f.krm e.rmode) (srHash e.srSeed k) f.ksat (reduceRanks f.kop (ps.map fun p => (p.vals[off + k]?).getD valZero))).1)
      let puts : List Put := match i with
        | .clar _ => sum 0
        | .clrs _ => sum (g.rank * f.n.toNat)
        | .clag _ => raw (ps.flatMap (·.codes))
        | .clbc _ => raw (((ps[f.root]?).getD {}).codes)
        | _ => if f.kint then raw ((List.range f.n.toNat).map fun k =>
              exactRound (BitVec.ofInt 64 (ps.map fun p => (p.codes[k]?).getD 0).sum).toInt (BitVec.ofNat 16 f.imm.toNat).toInt)
            else raw ((exactResults f.n.toNat (ps.map fun p => p.vals)).map Int.ofNat)
      (c.reads = true → c.inPlace = false → ∀ k, (({ s with fresh := k } : State).modDie d fun x => { x with collIn := x.collIn.filter fun p =>
        !(p.gid == f.gid && p.seq == seq) }).hiddenAlias e (puts.map (·.1)) c.srcExt.spans = false) →
      ∃ t, exec i s = .next t ∧ t.mem = s.mem ∧ (∀ q, q ∈ (t.dieAt d).collIn ↔ q ∈ (s.dieAt d).collIn ∧ ¬ (q.gid = f.gid ∧ q.seq = seq)) ∧
        ∀ y, s.entryAt e = some y → t.entryAt e = some { e with phase := 4, plan := writePlan puts, keep := [seq, g.rank, ps.foldl (fun a p => a ||| p.flag) 0] }) ∧
    (e.instr = .clgrp f → e.phase = 0 →
      (f.mode.getLsbD 14 = true → ends (.clgrp f) (elem (.clgrp f) 0 0 0) ∧ ∃ t, exec (.clgrp f) s = .next t ∧ t.groupAt d f.gid = none) ∧
      (f.mode.getLsbD 14 = false → f.n = 0 ∨ 4608 < f.n.toNat → ends (.clgrp f) (elem (.clgrp f) 6 0 0)) ∧
      (∀ l : List Nat, let v := e.view 1
       let rcs := (ixFrom ((smGet 0 e.o 1).toNat % 2 ^ 32) f.n.toNat).map v.flat
       f.mode.getLsbD 14 = false → f.n ≠ 0 → f.n.toNat ≤ 4608 → s.meTdesc e (e.desc 1) (decide (v.kind ≤ 1)) rcs false = none →
        rcs.foldl (fun (x : Rd × List Nat) rc => ((Rd.code x.1 e v rc 2).1, (Rd.code x.1 e v rc 2).2 :: x.2)) ({ s }, []) = ({ s }, l.reverse) →
        let me := s.node * 8 + d
        let ok := l ≠ [] ∧ (∀ x ∈ l, x < 4608) ∧ l.Nodup ∧ me ∈ l
        (¬ ok → ends (.clgrp f) (elem (.clgrp f) 6 0 0)) ∧
        (ok → f.mode.getLsbD 13 = true → 1024 < l.length → ends (.clgrp f) (elem (.clgrp f) 7 0 0)) ∧
        (ok → (f.mode.getLsbD 13 = true → l.length ≤ 1024) → ends (.clgrp f) (elem (.clgrp f) 0 (l.idxOf me) 0) ∧
          ∃ t g, exec (.clgrp f) s = .next t ∧ t.groupAt d f.gid = some g ∧ g.list = l.map (fun x => (x / 8, x % 8)) ∧ g.rank = l.idxOf me ∧
            g.exact = f.mode.getLsbD 13 ∧ g.seq = 0))) ∧
    (∀ (op : Nat) (x : Val) (r : List Val), reduceRanks op (x :: r) = r.foldl (fun a y =>
      if op = 0 then (roundR (valAdd false a y).1 0).1 else (valMinMax (op == 1) a y).1) x)

/-- R343 to R352, R358, R359: STSH refuses a key in use and stores coded granules, STFT gives them back, STPF, STDR and STQY move, drop
and report an entry; without a stage they raise ACCESS. A command changes the stash as it completes, with its element.

R354 to R357: a coded chunk decodes to the bytes it holds, compressed or not. -/
def Obligations.StashCommands : Prop :=
  ((∀ (s : State) (e : Entry) (f : MFields) (n d sel : Nat) (g : Stage), MReady s e → e.strand = some n → engineOf e.instr = some 4 →
    let die := dieOf e.core
    let tag := (smGet 0 e.o 1).toNat % 2 ^ 32
    let id := f.imm.toNat % 65536
    let fifo (t : State) : List Elem := smGet [] (t.coreAt e.core).fifos 0x11
    let gone (t : State) : Prop := smGet [] (t.strandAt n).queues 4 = (smGet [] (s.strandAt n).queues 4).filter (·.seq != e.seq)
    let key (x : StashEntry) : Bool := x.stage == g.id && x.tenant == g.tenant && x.tag == tag && x.id == id
    let mine (t : State) : Option StashEntry := ((t.dieAt die).stash.find? fun p => key p.2).map (·.2)
    let elem (kind status : Nat) (x : Option StashEntry) : Word := BitVec.ofNat 64 (kind * 2 ^ 60 + status * 2 ^ 56 + match x with
      | some x => x.state * 2 ^ 53 + x.tier * 2 ^ 51 + min 65535 ((x.chunks.map List.length).sum) * 2 ^ 32 + x.len
      | none => 0)
    let ends (i : Instr) (status : Nat) (now : State → Prop) : Prop := e.instr = i → ∃ t, exec i s = .next t ∧ gone t ∧ now t ∧ t.mem = s.mem ∧
      (fifo t).map (·.v) = (fifo s).map (·.v) ++
        (if i = .stqy f ∨ f.mode.getLsbD 24 = true then [elem (((mCode i).map (·.1)).getD 0 - 0x58) status (mine t)] else [])
    let same (t : State) : Prop := (t.dieAt die).stash = (s.dieAt die).stash
    let without (p : StashEntry → Bool) (t : State) : Prop := (t.dieAt die).stash = (s.dieAt die).stash.filter fun x => !p x.2
    (s.ownStage n = none → ∀ i ∈ ([.stsh f, .stft f, .stpf f, .stdr f, .stqy f] : List Instr), exec i s = .next (s.entryFault e 7 0x40 e.addr)) ∧
    (s.ownStage n = some (d, sel, g) → (fifo s).length < 32 → ((s.dieAt die).stash.map (·.1)).Nodup →
      (∀ x ∈ (s.dieAt die).stash, ∀ y ∈ (s.dieAt die).stash, key x.2 = true → key y.2 = true → x = y) →
      let v := e.view 1
      let okS : Prop := s.meTdesc e (e.desc 1) (decide (v.kind ≤ 1)) v.all false = none
      let okF : Prop := s.meTdesc e (e.desc 2) (decide ((e.view 2).kind ≤ 1)) (e.view 2).all false = none
      ends (.stqy f) 0 same ∧
      (f.mode.getLsbD 9 = false → (mine s = none → ends (.stdr f) 3 same) ∧ (mine s ≠ none → ends (.stdr f) 0 (without key))) ∧
      (f.mode.getLsbD 9 = true → let all (x : StashEntry) : Bool := x.stage == g.id && x.tenant == g.tenant && x.tag == tag
        ends (.stdr f) (if (s.dieAt die).stash.any fun p => all p.2 then 0 else 3) (without all)) ∧
      (mine s = none → ends (.stpf f) 3 same ∧ (okF → ends (.stft f) 3 same)) ∧
      (∀ x, mine s = some x →
        (x.state ≠ 2 → ends (.stpf f) 0 same) ∧
        (okS → v.imageLen ≠ 0 → v.imageLen ≤ 1048576 → ends (.stsh f) 2 same) ∧
        (okF → x.state = 3 → ends (.stft f) 4 (if f.mode.getLsbD 8 then same else without key)) ∧
        (okF → x.state = 1 ∨ x.state = 2 → x.len ≠ (e.view 2).imageLen → ends (.stft f) 5 same) ∧
        (∀ u cs, e.instr = .stft f → okF → x.state = 1 ∨ x.state = 2 → x.len = (e.view 2).imageLen →
          Rd.chunks { s } { e, f, g } x = ({ s := u }, cs) → (∀ c ∈ cs.zipIdx, (decodeChunk x.ns (min 4096 (x.len - 4096 * c.2)) c.1.2).isSome) →
          let image := leNat (cs.zipIdx.flatMap fun c => (decodeChunk x.ns (min 4096 (x.len - 4096 * c.2)) c.1.2).getD [])
          let w := fmtBits (e.view 2).fmt
          let plan := writePlan ((e.view 2).all.zipIdx.map fun p => ((e.view 2).span p.1, image / 2 ^ (p.2 * w) % 2 ^ w))
          let e2 : Entry := { e with phase := 4, keep := [0, if f.mode.getLsbD 8 then 0 else 2], plan, got := [] }
          exec (.stft f) s = .next (u.stashDrain { f, g, e := e2 }))) ∧
      (okS → v.imageLen = 0 ∨ 1048576 < v.imageLen → ends (.stsh f) 5 same) ∧
      (∀ u cs gs, e.instr = .stsh f → okS → v.imageLen ≠ 0 → v.imageLen ≤ 1048576 → mine s = none → (s.dieAt die).stash.length < 4096 → f.mode.toNat % 4 = 0 →
        v.all.foldl (fun (x : Rd × List Nat) rc => ((Rd.code x.1 e v rc 2).1, (Rd.code x.1 e v rc 2).2 :: x.2)) ({ s }, []) = ({ s := u }, cs.reverse) →
        let comp := f.mode.getLsbD 2
        let ns := if comp then f.mode.toNat / 8 % 8 + 1 else 1
        let chunks := (chunksOf 4096 (leBytes v.imageLen (packBits (fmtBits v.fmt) cs))).map (codeChunk comp ns)
        let sizes := chunks.map fun c => (c.length + 255) / 256
        freeGranules (u.partUsed die g true) (g.part die true).2 sizes.sum = some gs →
        let plan := granuleWrites (g.part die true).1 ((splitBy sizes gs).zip chunks)
        let parts := (splitBy sizes gs).zipIdx.map fun p => (p.2, p.1)
        let e2 : Entry := { e with phase := 4, got := [], plan, parts, keep := [0, 1, 1, v.imageLen, ns, 0] }
        exec (.stsh f) s = .next (u.stashDrain { f, g, e := e2 })))) ∧
  ∀ (s : State) (j : StashJob) (st state len ns elig : Nat), j.e.keep = [st, 1, state, len, ns, elig] → (s.dieAt j.d).stash.length < 4096 →
    ∃ no x, (∀ p ∈ (s.dieAt j.d).stash, p.1 ≠ no) ∧ ((s.stashCommit j).dieAt j.d).stash = smPut (s.dieAt j.d).stash no x ∧
      x.stage = j.g.id ∧ x.tenant = j.g.tenant ∧ x.tag = j.tag ∧ x.id = j.id ∧ x.state = state ∧ x.len = len ∧ x.ns = ns ∧ x.elig = (elig == 1) ∧
      x.chunks = j.e.parts.map (·.2)) ∧
  (∀ (comp : Bool) (n : Nat) (x : List Byte), 1 ≤ n → n ≤ 8 → 1 ≤ x.length → x.length ≤ 4096 → decodeChunk n x.length (codeChunk comp n x) = some x)

/-- R148, R360 to R365: OPRT installs a routine that is accepted, OPSK changes the skip word and returns the old one, OPJ reads its card and
gives a status.

R362, R363: a whole card's routine runs at each element of stream 0, its puts become the plan of its writes, and when these are made
the object is released and the element given. -/
def Obligations.Optimiser : Prop :=
  (∀ (s : State) (e : Entry) (f : MFields) (n : Nat), MReady s e → e.strand = some n → engineOf e.instr = some 5 → f.mode.getLsbD 24 = true →
    let die := dieOf e.core
    let fifo (t : State) : List Elem := smGet [] (t.coreAt e.core).fifos 0x12
    let ends (o : Host.Outcome State Fault Refusal) (kind status value : Nat) (now : State → Prop) : Prop := ∃ t, o = .next t ∧ now t ∧
      smGet [] (t.strandAt n).queues 5 = (smGet [] (s.strandAt n).queues 5).filter (·.seq != e.seq) ∧
      (fifo t).map (·.v) = (fifo s).map (·.v) ++ [BitVec.ofNat 64 (kind * 2 ^ 60 + status * 2 ^ 56 + value % 2 ^ 32)]
    let va := (smGet 0 e.o 1).toNat
    (fifo s).length < 32 →
    (va % 64 ≠ 0 → exec (.oprt f) s = .next (s.entryFault e 5 0 (smGet 0 e.o 1)) ∧ ends (exec (.opj f) s) 0 3 0 fun t => t.mem = s.mem ∧ t.dies = s.dies) ∧
    (∀ u l, va % 64 = 0 → Rd.block { s } e va 64 = ({ s := u }, l) → (u.coreAt e.core).fifos = (s.coreAt e.core).fifos → u.strands = s.strands →
      let ws := (List.range 16).map fun i => leNat ((l.drop (4 * i)).take 4)
      let stops : Option Nat := ws.findIdx? fun w => w / 2 ^ 28 == 15 || !microOk (microOf w)
      (∀ i, stops = some i → microOk (microOf ((ws[i]?).getD 0)) = true → ends (exec (.oprt f) s) 1 0 0 fun t =>
        ∀ k, smGet [] (t.dieAt die).routines k = if k = f.mode.toNat % 16 then ws.take (i + 1) else smGet [] (u.dieAt die).routines k) ∧
      (stops = none ∨ (∃ i, stops = some i ∧ microOk (microOf ((ws[i]?).getD 0)) = false) → ends (exec (.oprt f) s) 1 2 0 fun t =>
        (t.dieAt die).routines = (u.dieAt die).routines)) ∧
    (s.ownStage n = none → ends (exec (.opsk f) s) 2 3 0 fun t => t.mem = s.mem) ∧
    (∀ d sel g, s.ownStage n = some (d, sel, g) →
      (g.skipaddr = 0 → ends (exec (.opsk f) s) 2 3 0 fun t => t.mem = s.mem) ∧
      (∀ u pa, g.skipaddr ≠ 0 → s.place e.core true .wr 3 (BitVec.ofNat 64 g.skipaddr) = (u, .ok (.mem pa)) → u.plainMem → 8 ∣ pa →
        (u.coreAt e.core).fifos = (s.coreAt e.core).fifos → u.strands = s.strands →
        ends (exec (.opsk f) s) 2 0 (u.memNat pa 8) fun t =>
          t.memNat pa 8 = (if f.mode.getLsbD 0 then 0 else u.memNat pa 8 ||| (f.imm.toNat % 2 ^ 32)) ∧ ∀ a, a < pa ∨ pa + 8 ≤ a → t.memByte a = u.memByte a)) ∧
    (∀ u l, va % 64 = 0 → Rd.block { s } e va 320 = ({ s := u }, l) → (u.coreAt e.core).fifos = (s.coreAt e.core).fifos → u.strands = s.strands → e.instr = .opj f →
      let e1 : Entry := { e with phase := 1, got := [], keep := (List.range 40).map fun i => leNat ((l.drop (8 * i)).take 8) }
      let cd := cardOf s die e1.keep
      (u.dieAt die).routines = (s.dieAt die).routines →
      (u.cardBad e1 cd = true → ends (exec (.opj f) s) 0 3 0 fun t => t.mem = u.mem) ∧
      (u.cardBad e1 cd = false → cd.prog = [] → ends (exec (.opj f) s) 0 2 0 fun t => t.mem = u.mem))) ∧
  (∀ (s : State) (e : Entry) (f : MFields) (n : Nat), s.engine = some e → e.runs = true → e.strand = some n → e.instr = .opj f → e.keep.length = 40 →
    f.mode.getLsbD 24 = true →
    let die := dieOf e.core
    let cd := cardOf s die e.keep
    let fifo (t : State) : List Elem := smGet [] (t.coreAt e.core).fifos 0x12
    (∀ u l, e.phase = 1 → s.cardBad e cd = false → cd.prog ≠ [] → s.ownStage n = none →
      Rd.streams { s := (s.shuffle (cd.view 0).all).1 } e cd (s.shuffle (cd.view 0).all).2 = ({ s := u }, l) →
      let w := u.cardWork e cd l
      w.1.hiddenAlias e (w.2.1.map (·.1)) (cd.reads.flatMap fun x => (extOf e.core x (cd.view x) (cd.touched x) true).spans) = false →
      ((s.shuffle (cd.view 0).all).2).Perm (cd.view 0).all ∧ ∃ t, exec (.opj f) s = .next t ∧ t.mem = w.1.mem ∧ ∀ y, w.1.entryAt e = some y → t.entryAt e =
        some { e with phase := 4, got := [], plan := writePlan w.2.1, parts := w.2.2.zipIdx.map fun p => (p.2, [p.1]) }) ∧
    (∀ fls : List Nat, e.phase = 4 → e.plan = [] → e.parts = fls.zipIdx.map (fun p => (p.2, [p.1])) → e.failed = none → s.posted = [] → cd.syncobj = 0 → (fifo s).length < 32 → ∃ t, exec (.opj f) s = .next t ∧ t.mem = s.mem ∧
      (fifo t).map (·.v) = (fifo s).map (·.v) ++ [BitVec.ofNat 64 ((fls.foldl (· ||| ·) 0) % 32 * 2 ^ 32 + fls.length % 2 ^ 32)] ∧
      smGet [] (t.strandAt n).queues 5 = (smGet [] (s.strandAt n).queues 5).filter (·.seq != e.seq)) ∧
    (∀ (i : Nat) (rc : Nat × Nat) (vals : SMap (List Val)) (st : MicroState) (m : Micro),
      let q (k : Nat) : List Val := smGet [valZero] st.q k
      let part (k j : Nat) : Val := ((q k)[j]?).getD ((q k).headD valZero)
      let out := microStep cd i rc vals st m
      let gives (ks : List Nat) (op : Nat → Val) : Prop :=
        smGet [valZero] out.q m.d = (if ks.any fun k => decide (2 ≤ (q k).length) then [0, 1] else [0]).map op
      let rounded (v : Val) : Val := (roundR v 0).1
      (m.opc = 0 → smGet [valZero] out.q m.d = if m.x < 8 then smGet [valZero] vals m.x else [cd.const (m.x - 8)]) ∧
      (m.opc = 1 → gives [m.a, m.b] fun j => rounded (valAdd false (part m.a j) (part m.b j)).1) ∧
      (m.opc = 2 → gives [m.a, m.b] fun j => rounded (valAdd false (part m.a j) (valNeg (part m.b j))).1) ∧
      (m.opc = 3 → gives [m.a, m.b] fun j => rounded (valMul (part m.a j) (part m.b j)).1) ∧
      (m.opc = 4 → gives [m.a, m.b, m.c] fun j => rounded (valFma false (part m.a j) (part m.b j) (part m.c j)).1) ∧
      (m.opc = 5 → gives [m.a, m.b] fun j => rounded (valDiv (part m.a j) (part m.b j)).1) ∧
      (m.opc = 7 → gives [m.a] fun j => rounded (valSqrt (part m.a j)).1) ∧
      (m.opc = 8 → gives [m.a, m.b] fun j => (valMinMax true (part m.a j) (part m.b j)).1) ∧
      (m.opc = 9 → gives [m.a, m.b] fun j => (valMinMax false (part m.a j) (part m.b j)).1) ∧
      (m.opc = 12 → gives [m.a, m.b, m.c] fun j =>
        rounded (valAdd false (part m.a j) (valMul (part m.c j) (valAdd false (part m.b j) (valNeg (part m.a j))).1).1).1) ∧
      (m.opc < 13 → out.puts = st.puts ∧ ∀ k, k ≠ m.d → smGet [valZero] out.q k = q k) ∧
      (m.opc = 13 → out.q = st.q ∧ out.puts.map (fun p => (p.1, p.2.vals)) = st.puts.map (fun p => (p.1, p.2.vals)) ++ [(m.x, q m.a)]) ∧
      (m.opc = 14 → out.q = st.q ∧ out.puts.map (fun p => (p.1, p.2.vals)) = st.puts.map (fun p => (p.1, p.2.vals)) ++ [(m.x, q m.a), (m.x + 1, q m.a)])))

/-- R227, R343, R366 to R368, R371, R374, R375, R378: MBPOL writes a row, MBSTG loads, enables, destroys and cancels a stage, MBRLS frees a
receive slot and MBSEND delivers an image within the package; each gives its status. -/
def Obligations.StageCommands : Prop :=
  ∀ (s : State) (e : Entry) (f : MFields) (n : Nat), MReady s e → e.strand = some n → engineOf e.instr = some 6 →
    let d := dieOf e.core
    let tenant := s.tenantOf e.core
    let fin (u : State) (kind status stage cause value : Nat) : Host.Outcome State Fault Refusal := .next (u.mbsFinish e f kind status stage cause value)
    let pid := f.mode.toNat % 256
    let id := f.mode.toNat / 2 ^ 8 % 256
    let row := f.imm.toNat % 2 ^ 32
    let bad : Prop := row % 128 ≠ 0 ∨ ∃ i ∈ [7, 9, 11, 13, 15, 17, 19], row / 2 ^ i % 4 = 3
    ((bad → exec (.mbpol f) s = fin s 2 7 pid 0 0) ∧
     (¬ bad → s.stageOn d tenant pid = none → exec (.mbpol f) s = fin s 2 6 pid 0 0) ∧
     (∀ sel g, ¬ bad → s.stageOn d tenant pid = some (sel, g) →
      exec (.mbpol f) s = fin (s.setStage d sel { g with rows := smPut g.rows (f.mode.toNat / 256 % 16) row }) 2 0 pid 0 0)) ∧
    (e.sup = false → exec (.mbstgLoad f) s = fin s 3 8 id 0 0 ∧ exec (.mbstgEnable f) s = fin s 3 8 id 0 0 ∧ exec (.mbstgDestroy f) s = fin s 3 8 id 0 0 ∧
      exec (.mbstgCancel f) s = fin s 3 8 id 0 0) ∧
    (e.sup = true → s.stageOn d tenant id = none → exec (.mbstgEnable f) s = fin s 3 6 id 0 0 ∧ exec (.mbstgDestroy f) s = fin s 3 6 id 0 0 ∧
      exec (.mbstgCancel f) s = fin s 3 6 id 0 0) ∧
    (∀ sel g, e.sup = true → s.stageOn d tenant id = some (sel, g) →
      (g.state = 0 → exec (.mbstgEnable f) s = fin (s.setStage d sel { g with state := 1, fq := [], bq := [], wq := [], held := [], warm := g.warmup }) 3 0 id 0 0 ∧
        exec (.mbstgDestroy f) s = fin (s.removeStage d sel g) 3 0 id 0 0 ∧ exec (.mbstgCancel f) s = fin (s.removeStage d sel g) 3 0 id 0 0) ∧
      (g.state ≠ 0 → exec (.mbstgEnable f) s = fin s 3 0 id 0 0 ∧
        (let h : Stage := { g with state := 2 }
         (∀ c : Bool, smFind ((s.dropArrivals d sel { h with cancel := c }).dieAt d).stages sel =
           some { h with cancel := c, chans := g.chans.map fun p => (p.1, { p.2 with got := [] }) }) ∧
         exec (.mbstgDestroy f) s = fin ((s.dropArrivals d sel h).drainStage d sel) 3 0 id 0 0 ∧
         ((∀ p ∈ s.tasks, p.2.origin ≠ .stage d sel) →
           exec (.mbstgCancel f) s = fin ((s.dropArrivals d sel { h with cancel := true }).drainStage d sel) 3 0 id 0 0)))) ∧
    (∀ u l, e.sup = true → (smGet 0 e.o 1).toNat % 256 = 0 → Rd.block { s } e (smGet 0 e.o 1).toNat 256 = ({ s := u }, l) →
      let g := stageOf tenant l
      let free := [0, 1].find? fun k => (smFind (u.dieAt d).stages k).isNone
      (free = none → exec (.mbstgLoad f) s = fin u 3 4 g.id 0 0) ∧
      (∀ sel, free = some sel →
        ((u.findStage tenant g.id).isSome → exec (.mbstgLoad f) s = fin u 3 1 g.id 0 0) ∧
        ((u.findStage tenant g.id) = none → u.placeTaken g = true → exec (.mbstgLoad f) s = fin u 3 9 g.id 0 0) ∧
        ((u.findStage tenant g.id) = none → u.placeTaken g = false → stageBad g = true → exec (.mbstgLoad f) s = fin u 3 10 g.id 0 0) ∧
        ((u.findStage tenant g.id) = none → u.placeTaken g = false → stageBad g = false → g.state = 0 ∧ g.rows = [] ∧ g.cur = 0 ∧
          exec (.mbstgLoad f) s = fin (u.setStage d sel g) 3 0 g.id 0 0))) ∧
    (s.ownStage n = none → exec (.mbrls f) s = .next (s.entryFault e 7 0x40 e.addr)) ∧
    (∀ die sel g, s.ownStage n = some (die, sel, g) →
      let k := f.mode.toNat % 4
      let c := g.chanEnd k
      let tag := (smGet 0 e.o 1).toNat % 2 ^ 32
      let slot := tag % c.win
      let ch : ChanState := smGet {} g.chans k
      let msg : TensorMsg := { peer := c.pstage, own := g.id, node := s.node, win := c.win, rbase := c.rbase, slotBytes := c.slotBytes, slot, tag }
      let image (cs : List Nat) : List Byte := leBytes (e.view 1).imageLen (packBits (fmtBits (e.view 1).fmt) cs)
      (c.v = false ∨ c.recv = false → exec (.mbrls f) s = fin s 1 3 g.id 0 tag) ∧
      (c.v = true → c.recv = true → slot ∉ ch.filled → exec (.mbrls f) s = fin s 1 11 g.id 0 tag) ∧
      (c.v = true → c.recv = true → slot ∈ ch.filled → c.pnode = s.node →
        exec (.mbrls f) s = fin ((s.setStage die sel { g with chans := smPut g.chans k { ch with filled := ch.filled.filter (· != slot) } }).creditBack tenant
          { msg with release := true }) 1 0 g.id 0 tag) ∧
      (c.v = false ∨ c.recv = true → exec (.mbsend f) s = fin s 0 3 g.id 0 tag) ∧
      (c.v = true → c.recv = false → c.slotBytes < (e.view 1).imageLen → exec (.mbsend f) s = fin s 0 5 g.id 0 tag) ∧
      (c.v = true → c.recv = false → (e.view 1).imageLen ≤ c.slotBytes → slot ∈ ch.taken → exec (.mbsend f) s = fin s 0 1 g.id 0 tag) ∧
      (∀ u w cs dd ss gg kk, c.v = true → c.recv = false → (e.view 1).imageLen ≤ c.slotBytes → slot ∉ ch.taken → c.pnode = s.node →
        (e.view 1).all.foldl (fun (x : Rd × List Nat) rc => ((Rd.code x.1 e (e.view 1) rc 2).1, (Rd.code x.1 e (e.view 1) rc 2).2 :: x.2)) ({ s }, []) = ({ s := u }, cs.reverse) →
        u.node = s.node → u.tenantOf e.core = tenant →
        let m := { msg with len := (image cs).length, image := u.nextId, sup := e.sup }
        u.tensorEnd tenant m = some (dd, ss, gg, kk) →
        u.tensorPut (dd * Config.coresPerDie) e.sup (c.rbase + slot * c.slotBytes) (image cs) = (w, some 0) →
        (w.tensorAppend tenant m (image cs).length).2 = 0 → ∀ g2, (w.tensorAppend tenant m (image cs).length).1.ownStage n = some (die, sel, g2) →
          exec (.mbsend f) s = fin ((w.tensorAppend tenant m (image cs).length).1.setStage die sel
            { g2 with chans := smPut g2.chans k { (smGet {} g2.chans k) with taken := (tag % (g2.chanEnd k).win) :: (smGet {} g2.chans k).taken } }) 0 0 g.id 0 tag)) ∧
    ∀ (kind status stage cause value : Nat), (smGet [] (s.coreAt e.core).fifos 0x13).length < 32 →
      let t := s.mbsFinish e f kind status stage cause value
      (smGet [] (t.coreAt e.core).fifos 0x13).map (·.v) = (smGet [] (s.coreAt e.core).fifos 0x13).map (·.v) ++ (if f.mode.getLsbD 24 then
        [BitVec.ofNat 64 (kind * 2 ^ 60 + status * 2 ^ 56 + stage % 256 * 2 ^ 48 + cause % 256 * 2 ^ 40 + value % 2 ^ 32)] else []) ∧
      smGet [] (t.strandAt n).queues 6 = (smGet [] (s.strandAt n).queues 6).filter (·.seq != e.seq) ∧ t.dies = s.dies ∧ t.mem = s.mem

/-! ### Encodings, steps and the whole machine -/

/-- R140, R157 and the encoding tables of spec 05 to 09: the decoder reads back every well-formed instruction, with every operand, from
the words that the encoder gives it. -/
def Obligations.EncodingRoundTrip : Prop :=
  ∀ (i : Instr) (n x : Nat), encode i = some (n, x) → wellFormed i = true → decodeSlot n x = .ok i ∧ decodeTableWord n x = some i

/-- Words that the spec writes out, with the instructions they stand for (R131, R133, R140, R157, R161, R168). -/
def Obligations.DecodedWords : Prop :=
  decodeSlot 32 0x04518700 = .ok (.add 5 6 7 0) ∧ decodeSlot 32 0x08823FFC = .ok (.addi 8 8 0x3FFC) ∧ decodeSlot 32 0x1C500020 = .ok (.lui 5 0x20) ∧
  decodeSlot 32 0x9C000000 = .ok .nop ∧ decodeSlot 32 0xD4001141 = .ok (.addf 0 2 1 1) ∧
  decodeHeader 0xE0102233 = .ok { stall := 1, wv := 2, wc := 0, we := true, wf := 3, p := 3 } ∧
  decodeHeader 0xF0102233 = .error none ∧ slotsOf 3 = [(1, 4, 32), (2, 8, 32)] ∧ bundleLen 15 = 48

/-- R54, R60, R131 to R136: a step runs the decoded instruction. The words at the pc are those of the strand's instruction memory or of
memory; they decode to the bundle; and the step is that of its instruction, at the registers as they stand at issue, with the pc past
the bundle; what the region has read and written is noted between slots (R61). A step of an engine is that of the entry it serves, a step of an event is that event's, a stage's dispatch that starts at once comes
first (R373), and of several enabled steps the machine takes one. -/
def Obligations.StepRunsDecodedInstruction : Prop :=
  ∀ (s : State),
    let after (o : Host.Outcome State Fault Refusal) : Host.Outcome State Fault Refusal := andThen o fun t => .next t.finish
    (∀ (n va : Nat) (u : State) (pa : Nat), let core := coreOf n
      isLocal va = false → s.globalPlace core (s.strandAt n).now.sup .ex 0 va = (u, .ok (.mem pa)) → (u.coreAt core).inj = [] → u.plainMem →
      (∀ w, smFind (u.coreAt core).imem va = some w → u.memNat pa 4 = w.toNat) →
      ∃ t, s.fetchWord n va = (t, .word (u.memNat pa 4)) ∧ t.mem = s.mem ∧ t.strands = s.strands) ∧
    (∀ (sup : Bool) (k nbits w : Nat) (h : Header) (ws : List Nat) (i : Instr), slotsOf h.p = [(k, 4, nbits)] → ws.length = nbits / 32 →
      decodeSlot nbits (wordsNat ws) = .ok i → (privileged i = true → sup = true) → composeFault [(k, i)] = none →
      decodeBundle sup h (w :: ws) = .ok { hdr := h, slots := [(k, i)] }) ∧
    (∀ (n w : Nat) (ws : List Nat) (h : Header) (b : Bundle) (u : State), let x := s.strandAt n
      x.live = true → x.fault = none → x.flight = none → x.stall = 0 → x.fetching = false → s.wdogDue n = false → decodeHeader w = .ok h → h.we = false →
      s.fetchWords n x.pc.toNat (bundleLen h.p / 4) = (u, .ok (w :: ws)) → decodeBundle x.now.sup h (w :: ws) = .ok b → x.lookBundle b = .ready b →
      s.look n = (u, .ready b)) ∧
    (∀ (c j k : Nat) (h : Header) (i : Instr) (u : State), j < 4 →
      let n := c * 4 + j
      let x := s.strandAt n
      s.urgent = none → s.inbox = [] → s.enabled = [.event .bundleIssue { n := c }] → x.late = [] → (∀ m, m < 4 → m ≠ j → s.strandAt (c * 4 + m) = {}) →
      ({ s with ev := { n := c } } : State).look n = (u, .ready { hdr := h, slots := [(k, i)] }) → u.strands = s.strands →
      ∃ y : State, y.cur = n ∧ y.st.now = x.now ∧ y.st.src = x.now ∧ y.st.addr = x.pc ∧ y.st.pc = x.pc + BitVec.ofNat 64 (bundleLen h.p) ∧ y.st.slotNo = k ∧
        y.mem = u.mem ∧ (∀ m, m ≠ n → y.strandAt m = s.strandAt m) ∧
        step s = after (andThen (andThen (exec i y) fun t => let t := (y.regionRule n i t).endSlot n; if (t.strandAt n).blocked = 0 then t.runSlots n 4 else .next t)
          fun t => t.runCore c ((List.range 4).drop (j + 1)))) ∧
    (∀ (c : Nat) (l : List Nat), (∀ k ∈ l, (s.strandAt (c * 4 + k)).flight = none) → s.runCore c l = .next s) ∧
    (∀ (n k m : Nat) (i : Instr) (r : List (Nat × Instr)) (f : Flight), (s.strandAt n).flight = some f → f.left = (k, i) :: r →
      (s.strandAt n).blocked = 0 ∨ s.wdogDue n = false → ∃ y : State, y.cur = n ∧ y.st.now = (s.strandAt n).now ∧
      y.st.src = f.latch ∧ y.st.slotNo = k ∧ s.runSlots n (m + 1) = andThen (exec i y) fun t => let t := (y.regionRule n i t).endSlot n; if (t.strandAt n).blocked = 0 then t.runSlots n m else .next t) ∧
    (∀ e, s.urgent = none → s.inbox = [] → s.enabled = [.turn e] → ∃ y : State, step s = after (exec e.instr y) ∧ y.engine = some e ∧
      y.cur = e.strand.getD (e.core * 4) ∧ y.pace < 2 ∧ y.mem = s.mem ∧ y.strands = s.strands ∧
      ∀ c, y.coreAt c = { s.coreAt c with lastServed := (y.coreAt c).lastServed }) ∧
    (∀ i e, s.urgent = some (.event i e) → i = .stageDispatch ∧ step s = after (exec .stageDispatch { s with ev := e })) ∧
    (∀ i e r, s.urgent = none → s.inbox = (i, e) :: r → i ≠ .bundleIssue → step s = after (exec i { s with inbox := r, ev := e })) ∧
    (∀ k i e, s.urgent = none → s.inbox = [] → s.enabled = [.later k] → s.later[k]? = some (i, e) → step s = after (exec i { s with later := s.later.eraseIdx k, ev := e })) ∧
    (s.urgent = none → s.inbox = [] → s.enabled = [] → step s = .next s.finish) ∧
    (∀ n i t, (s.strandAt n).again = false → let u := s.regionRule n i t
      u = t ∨ u = t.setStrand n { t.strandAt n with regions := (u.strandAt n).regions }) ∧
    (s.urgent = none → s.inbox = [] → 2 ≤ s.enabled.length → ∃ a ∈ s.enabled, step s = after (({ s with fresh := s.fresh + 1 } : State).act a))

/-- R89: after every step a copy channel is active only while its copy entry is in service at its core's CE. -/
def Obligations.StepKeepsChannels : Prop :=
  ∀ (s t : State), step s = .next t → ∀ c x k h, (c, x) ∈ t.cores → (k, h) ∈ x.chans → h.active = true → k ∈ t.openChans c

/-- R7, R17, R38, R40, R237, R334, R447, R461, R495, R502, R511, R513, R514: what reset leaves: no strand, task or cached translation, memory that
lists nothing, the registers at their reset values, and the device waiting for its firmware, so that a step without an event changes
nothing. -/
def Obligations.ResetState : Prop :=
  let s := State.reset
  step s = .next s ∧ s.memOk ∧ s.mem = [] ∧ s.tlb = [] ∧ s.tasks = [] ∧ s.nextTask = 1 ∧ s.boot.state = 0 ∧ s.boot.fails = 0 ∧ s.scrubPeriod = 336 ∧ s.scrubPasses = 0 ∧
  (∀ n, (s.strandAt n).live = false) ∧
  (∀ q, (s.lqAt q).state = 0 ∧ (s.lqAt q).size = 4 ∧ (s.lqAt q).ncore = 0x3FF ∧ (s.lqAt q).head = 0 ∧ (s.lqAt q).tail = 0 ∧ (s.lqAt q).tenant = 0) ∧
  (∀ d, (s.dieAt d).tenant = 0 ∧ (s.dieAt d).ptbase = 0 ∧ (s.dieAt d).allow = 255 ∧ (s.dieAt d).throttle = 0x1010402000 ∧ (s.dieAt d).rasHead = 0 ∧ (s.dieAt d).rasTail = 0 ∧
    (s.dieAt d).groups = [] ∧ (s.dieAt d).dtsts = 0 ∧ (s.dieAt d).tcStatus = 0) ∧
  (∀ c, (s.coreAt c).tvec = 0 ∧ (s.coreAt c).wdogLimit = 0 ∧ (s.coreAt c).win = [] ∧ (s.coreAt c).allow = []) ∧
  (∀ p, (s.portAt p).inuse = false ∧ (s.portAt p).up = false ∧ (s.portAt p).txV = 0 ∧ (s.portAt p).rxV = 0) ∧
  ∀ c x k h, (c, x) ∈ s.cores → (k, h) ∈ x.chans → h.active = true → k ∈ s.openChans c

/-- R22, R27, R471, R482: every operation that changes memory keeps its canonical form; a write is read back and leaves every other byte
alone; a line's die and slice exist, and its stripe's parity lies on another stack.

R78: an ordinary write that changes a BARRIER or BND word of an object mars it; an object that is sound is found as it stands, and an
instruction on it keeps it so; what is undefined in one that is not sound is those words alone. -/
def Obligations.MemoryOperations : Prop :=
  ∀ (s : State), s.memOk →
    (∀ tenant task a bs, (s.performMem tenant task a bs).memOk) ∧ (∀ p, (s.performWhere p).memOk) ∧ (∀ d r, (s.rasWrite d r).memOk) ∧
    (∀ n sup skip a, (s.writeBack n sup skip a).1.memOk) ∧ (∀ tenant task a n, (s.scanMem tenant task a n).1.memOk) ∧
    (∀ tenant t l, (s.putTarget tenant t l).memOk) ∧ (∀ n, (s.leaveSlot n).memOk) ∧
    (∀ tenant task a (bs : List Byte), s.memSyn = [] → s.poison = [] → s.lost = [] →
      (s.performMem tenant task a bs).memBytes a bs.length = bs ∧ ∀ b, b < a ∨ a + bs.length ≤ b → (s.performMem tenant task a bs).memByte b = s.memByte b) ∧
    (∀ tenant task a (bs : List Byte) pa, s.objSound pa = true → (s.performMem tenant task a bs).objNow pa ≠ s.objNow pa →
      (s.performMem tenant task a bs).objSound pa = false) ∧
    (∀ pa, s.objSound pa = true → s.unsure pa = s ∧ ∀ task off bs, (s.writeObj task pa off bs).objSound pa = true) ∧
    (∀ pa, (s.unsure pa).memOk ∧ ∀ a, a < pa + 8 ∨ pa + 16 ≤ a → a < pa + 32 ∨ pa + 64 ≤ a → (s.unsure pa).memByte a = s.memByte a) ∧
    ∀ a, (homeOf a).1 < 8 ∧ (homeOf a).2 < 32 ∧ stackOf a < 12 ∧ parityStackOf a < 12 ∧ stackOf a ≠ parityStackOf a

/-! ### Events -/

/-- R18, R54, R55, R57, R132, R136: a core cycle. The bundle of the one strand that is ready issues: its slots read the registers as
they stand, and the next bundle's address and the counts move on; a bundle that waits counts for the watchdog; a bundle that does not
decode takes its trap. Of several ready strands one of the highest effective class issues.

R133, R135: a bundle that is only a header ends as it issues, and its distance passes.

R58, R230, R246: the watchdog of a strand whose count has reached the limit, and the entry of a reported trap. -/
def Obligations.CoreCyclesAndWatchdog : Prop :=
  (∀ (s s1 : State) (k : Nat), k < 4 → let n := s.ev.n * 4 + k
    let x := s.strandAt n
    (∀ j, j < 4 → j ≠ k → s.strandAt (s.ev.n * 4 + j) = {}) → s1.strands = s.strands →
    (∀ b, s.look n = (s1, .ready b) → x.late = [] → ∃ t, exec .bundleIssue s = .next t ∧
      (let y : Strand := { x with
         addr := x.pc, pc := x.pc + BitVec.ofNat 64 (bundleLen b.hdr.p), bundles := x.bundles + 1, wdog := 0, blocked := 0, retry := false
         stall := b.hdr.stall, unseen := (t.strandAt n).unseen }
       t.strandAt n = if b.slots = [] then
           { y with flight := none, seq := x.seq + 6, btWait := (x.btWait.map fun p => (p.1, p.2 - (1 + b.hdr.stall))).filter (·.2 != 0) }
         else { y with flight := some { left := slotOrder b.slots, latch := x.now, stall := b.hdr.stall, btWait := x.btWait, base := x.seq } }) ∧
      (t.coreAt s.ev.n).cycle = (s1.coreAt s.ev.n).cycle + 1 ∧ t.mem = s1.mem ∧ ∀ m, m ≠ n → t.strandAt m = s.strandAt m) ∧
    (s.look n = (s1, .waiting) → x.cancelling = false → ∃ t, exec .bundleIssue s = .next t ∧
      t.strandAt n = { x with wdog := x.wdog + 1 } ∧ t.mem = s1.mem ∧ ∀ m, m ≠ n → t.strandAt m = s.strandAt m) ∧
    (∀ c i, s.look n = (s1, .trap c i) → s1.trapsAtOnce n x.seq x.curRid → ∃ t, exec .bundleIssue s = .next t ∧
      TrapAt s1 t n { cause := c.1, info := BitVec.ofNat 64 i, aux := BitVec.ofNat 64 c.2, seq := x.seq, rid := x.curRid }) ∧
    ∀ l j, s.pick s.ev.n l = some j → j ∈ l ∧ ∀ i, i ∈ l → s.effClass (s.ev.n * 4 + i) ≤ s.effClass (s.ev.n * 4 + j)) ∧
  (∀ (s : State), let n := s.ev.n
    let x := s.strandAt n
    (s.trapsAtOnce n x.seq x.curRid → x.live = true → x.fault = none → (s.coreAt (coreOf n)).wdogLimit ≠ 0 → (s.coreAt (coreOf n)).wdogLimit ≤ x.wdog →
      ∃ t, exec .watchdog s = .next t ∧ t.mem = s.mem ∧
        TrapAt s t n { cause := 16, info := if x.flight.isSome then x.addr else x.pc,
                       aux := BitVec.ofNat 64 (s.coreAt (coreOf n)).wdogLimit, seq := x.seq, rid := x.curRid }) ∧
    (∀ p, x.fault = some p → p.replay = 0 → x.flight = none → s.trapsAtOnce n p.seq p.rid → ∃ t, exec .trapEntry s = .next t ∧ t.mem = s.mem ∧ TrapAt s t n p))

/-- R464: a region that consumed an uncorrectable error is entered again with its inputs, with a record; the third time the task is
faulted with POISON.

R243, R468: the comparison of a region. One that agrees is passed; one that does not is replayed, and after its replays it raises
SDC with the cycles counted and the signature. -/
def Obligations.RegionChecksAndReplays : Prop :=
  (∀ (s : State) (p : Pending), let n := s.ev.n
    let x := s.strandAt n
    let r := x.region p.rid
    x.fault = some p → p.replay ≠ 0 → x.idle = true → x.late = [] → x.flight = none → s.clearBefore n p.seq p.rid →
    (r.replays < 2 → ∃ t, exec .regionReplay s = .next t ∧ Replayed s t n p.rid ∧ OnlyRecord s t (dieOf (coreOf n))) ∧
    (∀ k, 2 ≤ r.replays → (∀ q ∈ s.strands, q.2.sync = []) → smFind s.tasks x.task = some k → k.status = 0 →
      ∃ t, exec .regionReplay s = .next t ∧ (t.strandAt n).live = false ∧ OnlyRecord s t (dieOf (coreOf n)) ∧
        smFind t.tasks x.task = some { k with status := 1, cause := 12, pc := r.entry, info := p.info })) ∧
  (∀ (s : State) (r : Region), let n := s.ev.n
    let x := s.strandAt n
    let same := r.cycles = r.expCycles ∧ ~~~r.sig = r.expSig
    x.dueCheck = some r →
    (same → exec .regionCheck s = .next (s.setStrand n
      (Strand.prune { x with regions := x.regions.map fun q => if q.rid = r.rid then { q with checked := true } else q }))) ∧
    (¬ same → s.trapsAtOnce n r.openSeq r.rid → x.fault = none → x.region r.rid = r →
      (r.replays < 2 → r.sdcReplay = false → ∃ t, exec .regionCheck s = .next t ∧ Replayed s t n r.rid ∧ OnlyRecord s t (dieOf (coreOf n))) ∧
      (2 ≤ r.replays → ∃ t, exec .regionCheck s = .next t ∧ OnlyRecord s t (dieOf (coreOf n)) ∧
        TrapAt s t n { cause := 13, info := BitVec.ofNat 64 r.cycles, aux := (~~~r.sig).setWidth 64, seq := r.openSeq, rid := r.rid })))

/-- R90, R91: an acknowledged posted write is no longer outstanding and its window's count falls; within the package its bytes are
written to the scratchpad then.

R90, R154, R480, R488, R489, R499: what comes back to a request: its data, its acknowledgement, a NAK that has it sent again after a
backoff, and one that fails it. -/
def Obligations.FabricReplies : Prop :=
  (∀ (s : State) (p : Posted), s.posted.find? (fun q => q.id == s.ev.n) = some p →
    let core := (p.pa % 2 ^ 46 - 0x3FFE00000000) / 0x400000
    let off := (p.pa % 2 ^ 46 - 0x3FFE00000000) % 0x400000
    (p.pa / 2 ^ 46 ≠ s.node → ∃ t, exec .remoteWriteAck s = .next t ∧ t.posted = s.posted.filter (·.id != s.ev.n) ∧ t.mem = s.mem ∧
      t.strands = s.strands ∧ ∀ w, smGet 0 (t.coreAt p.core).outst w =
        if p.window = some w then smGet 0 (s.coreAt p.core).outst w - 1 else smGet 0 (s.coreAt p.core).outst w) ∧
    (p.pa / 2 ^ 46 = s.node → s.tenantOf p.core = s.tenantOf core → s.plainSpm core → p.bytes.length = p.mask.length →
      off + p.bytes.length ≤ 0x400000 → ∃ t, exec .remoteWriteAck s = .next t ∧ t.posted = s.posted.filter (·.id != s.ev.n) ∧
      t.strands = s.strands ∧ t.mem = s.mem ∧ ∀ k, smGet 0 (t.coreAt core).spm k =
        if off ≤ k ∧ k < off + p.bytes.length then
          maskByte (smGet 0 (s.coreAt core).spm k) ((p.bytes[k - off]?).getD 0) ((p.mask[k - off]?).getD 0)
        else smGet 0 (s.coreAt core).spm k)) ∧
  (∀ (s : State), let d := s.ev.n
    let f := s.ev.flit
    let bad (o : Host.Outcome State Fault Refusal) : Prop := o = .next (s.setDie d { s.dieAt d with badFlit := min ((s.dieAt d).badFlit + 1) (2 ^ 32 - 1) })
    (s.findReq d f = none → bad (exec .data s) ∧ bad (exec .ack s) ∧ bad (exec .nak s)) ∧
    (∀ r, s.findReq d f = some r →
      let closed (t : State) : Prop := t.reqs = s.reqs.filter (·.id != r.id)
      let code := leNat ((f.payload.drop 32).take 1)
      (r.op ≠ 3 → r.op ≠ 4 → bad (exec .data s)) ∧
      (r.op = 3 → (smPut r.data f.fidx f.payload).length ≤ f.flast → exec .data s = .next { s with
        reqs := s.reqs.map fun q => if q.id = r.id then { r with data := smPut r.data f.fidx f.payload } else q }) ∧
      (∀ m b, r.owner = .strand m → (s.strandAt m).amo = none → (s.strandAt m).board = [b] → b.req = r.id →
        (r.op = 3 → r.data = [] → f.flast = 0 → f.payload.length = r.len → b.size = r.len → r.len ≤ 32 → r.toHost = false → ∃ t, exec .data s = .next t ∧ closed t ∧ t.mem = s.mem ∧
          (t.strandAt m).board = [{ b with req := 0, val := some (if r.len ≤ 8 then (loadVal b.sext f.payload).setWidth 256 else BitVec.ofNat 256 (leNat f.payload)) }] ∧
          (t.dieAt r.die).inFlight = (s.dieAt r.die).inFlight - r.flits.length) ∧
        (code = 2 ∨ code = 3 → (∀ g ∈ r.flits, g.rsv = 1) → (s.strandAt m).fault = none → (s.strandAt m).queues = [] → (s.strandAt m).late = [] →
          (s.strandAt m).now.trapped = false → (s.coreAt (coreOf m)).tvec ≠ 0 → r.toHost = false → r.op = 3 → s.clearBefore m b.seq b.rid →
          ∃ t, exec .nak s = .next t ∧ closed t ∧ TrapAt s t m { cause := (if code = 2 then 8 else 7), info := b.addr, aux := BitVec.ofNat 64 (if code = 2 then f.sdie * 2 ^ 10 + f.snode else 5), seq := b.seq, rid := b.rid })) ∧
      (∀ m, r.owner = .strand m → (s.strandAt m).amo = some r.id → r.op = 4 → r.data = [] → f.flast = 0 → f.payload.length = r.len → ∃ t, exec .data s = .next t ∧ closed t ∧
        t.strandAt m = { s.strandAt m with amo := none, amoOld := some (BitVec.ofNat 64 (leNat f.payload)) }) ∧
      (∀ m p, r.owner = .posted m → s.posted.find? (·.id == r.id) = some p → (∀ g ∈ r.flits, g.rsv = 1) → ∃ t, exec .ack s = .next t ∧ closed t ∧
        t.posted = s.posted.filter (·.id != r.id) ∧ t.strands = s.strands ∧ t.mem = s.mem ∧
        ∀ w, smGet 0 (t.coreAt p.core).outst w = if p.window = some w then smGet 0 (s.coreAt p.core).outst w - 1 else smGet 0 (s.coreAt p.core).outst w) ∧
      (code = 1 → let hdr := leNat (f.payload.take 32)
        let i := hdr / 2 ^ 48 % 64
        let n := smGet 0 r.naks i + 1
        ∃ t q, exec .nak s = .next t ∧ t.reqs = (s.reqs.map fun y => if y.id = r.id then q else y) ∧ q.id = r.id ∧ smGet 0 q.naks i = n ∧
          smFind q.backoff i = some (64 * 2 ^ min n 6) ∧ (∀ g ∈ q.flits, g.fidx = i → g.age = hdr / 2 ^ 224 % 2 ^ 32) ∧ t.strands = s.strands ∧ t.mem = s.mem)) ∧
    ∀ r w, s.reqs.find? (·.id == s.ev.n) = some r → smFind r.backoff s.ev.k = some w → (∀ g ∈ r.flits, g.tc ≠ 0 ∨ g.token = smGet 0 (s.dieAt r.die).token g.tenant) →
      ∃ t, exec .retryBackoff s = .next t ∧ t.reqs = (s.reqs.map fun q => if q.id = r.id then { r with backoff := smDel r.backoff s.ev.k } else q) ∧
        (t.dieAt r.die).inject = (s.dieAt r.die).inject ++ r.flits.filter (·.fidx == s.ev.k) ∧ t.strands = s.strands ∧ t.mem = s.mem)

/-- R38, R46, R49: LAUNCH_DISPATCH takes the head of the queue that the launch unit picks, which none of a higher class could
precede; a new task is made of it and every strand of its gang starts in this step.

R48, R372, R373: STAGE_DISPATCH evaluates the table of a stage: nothing picked, a kind without an entry address that finishes at
once, or a stage task that starts on the stage's cores, whose tag is then in flight with that kind running. -/
def Obligations.Dispatches : Prop :=
  (∀ (s u : State) (q : Nat) (a : HeadRead), s.launchPick = (u, some (q, a)) → a.gang.Nodup → a.fits u = true →
    let l := u.lqAt q
    let r := launchRec a.rec1
    let id := u.nextTask
    (∃ t, exec .launchDispatch s = .next t ∧
      t.lqAt q = { l with head := (l.head + 1) % 2 ^ l.size, read := none } ∧ t.lqLast = q ∧ (∀ k, k ≠ q → t.lqAt k = u.lqAt k) ∧
      t.nextTask = (if id = 0xFFFFFFFF then 1 else id + 1) ∧
      smFind t.tasks id = some { origin := .queue q, tenant := l.tenant, user := r.user, gang := a.gang, sup := r.cls == 3, status := a.status.getD 0 } ∧
      (∀ i c, a.gang[i]? = some c → ∃ n, u.freeSlot c = some n ∧ Started t n id a.gang.length i
        { pc := r.entry, s1 := r.arg, s4 := 3, t := a.t, cls := r.cls, spmBase := r.spmBase * 4096, spmLen := r.spmLen * 4096,
          accBase := r.accB, accN := r.accN }) ∧
      ∀ n, (∀ c ∈ a.gang, u.freeSlot c ≠ some n) → t.strandAt n = u.strandAt n) ∧
    ((∀ k, k < 8 → (s.launchHead k).1 = s) → ∀ k b, k < 8 → s.launchHead k = (s, some b) → b.fits s = true → (launchRec b.rec1).cls ≤ r.cls)) ∧
  (∀ (s : State) (g0 : Stage), let d := s.ev.n
    let sel := s.ev.k
    smFind (s.dieAt d).stages sel = some g0 → s.stageOpen g0 = true →
    let g := g0.purge
    let u := s.setStage d sel g
    (u.stagePick d g (List.range 16) = none → exec .stageDispatch s = .next u) ∧
    ∀ kind a, u.stagePick d g (List.range 16) = some (kind, a) →
      let h := (g.dispatch kind a).1
      let y := (g.dispatch kind a).2
      (h.tag a.tag = some y ∧ kind ∈ y.sent ∧ (h.entry kind ≠ 0 → kind ∈ y.running) ∧ (g.tag a.tag = none → kind = 0 → y.ver = g.cur) ∧
        (kind = 0 → h.warm = g.warm - 1)) ∧
      (h.entry kind = 0 → exec .stageDispatch s = .next (u.setStage d sel (h.finishKind a.tag kind))) ∧
      (h.entry kind ≠ 0 → h.word 0x28 = 0 → a.via = none → ∃ t, exec .stageDispatch s = .next t ∧
        smFind (t.dieAt d).stages sel = some h ∧ t.nextTask = (if s.nextTask = 0xFFFFFFFF then 1 else s.nextTask + 1) ∧
        smFind t.tasks s.nextTask = some { origin := .stage d sel, tenant := h.tenant, tag := BitVec.ofNat 32 a.tag, kind, birth := y.birth, gang := h.cores } ∧
        (h.cores.Nodup → ∀ i c, h.cores[i]? = some c → ∃ n, s.freeSlot c = some n ∧ Started t n s.nextTask h.cores.length i
          { pc := h.entry kind, s1 := BitVec.ofNat 64 a.tag, s2 := BitVec.ofNat 64 y.ver, s3 := BitVec.ofNat 64 y.slot, s4 := BitVec.ofNat 64 kind
            cls := h.cls, seed := some (h.word 0x38 % 2 ^ 32), stage := some h.id, spmBase := h.word 0x30 % 65536 * 4096
            spmLen := h.word 0x30 / 2 ^ 16 % 2 ^ 16 * 4096, accBase := h.word 0x30 / 2 ^ 32 % 16, accN := h.word 0x30 / 2 ^ 36 % 16 }) ∧
        t.mem = s.mem))

/-- R53, R68, R69, R369, R372: TASK_RETIRE of a task whose strands have gone and whose posted writes are acknowledged: the completion
record stands in memory, the completion index moves on, USER is pushed for the queue's core, and the task is no more; a stage task's
kind finishes unless the task was faulted or cancelled.

R40, R42, R53, R65, R66: the writes of a launch queue that move it: its indices, ENABLE, DESTROY and CANCEL. What R42 ignores is
counted where the host made it. -/
def Obligations.TasksRetire : Prop :=
  (∀ (s : State) (k : Task), let id := s.ev.n
    smFind s.tasks id = some k → s.canRetire id k = true →
    let word := (k.user.toNat + id * 2 ^ 64 + k.status * 2 ^ 96 + k.cause * 2 ^ 104 + k.gang.length * 2 ^ 112 + k.pc.toNat * 2 ^ 128 + k.info.toNat * 2 ^ 192) % 2 ^ 256
    (∀ d, k.origin = .system d → ∃ t, exec .taskRetire s = .next t ∧ t.tasks = smDel s.tasks id ∧ t.strands = s.strands ∧
      ∀ x, x ∈ t.stores → x.core ∉ k.gang) ∧
    (∀ q core u pa, k.origin = .queue q → s.tenantCore (s.lqAt q).tenant = some core → s.stores = [] → s.parity = [] → smFind s.devAcc (cplKey q) = none →
      let l := s.lqAt q
      s.devPlace (some q) core .wr 1 (l.cbase.toNat + 32 * l.chead) = (u, .ok (.mem pa)) → u.plainMem →
      ∃ t, exec .taskRetire s = .next t ∧ t.tasks = smDel s.tasks id ∧ (∀ n, t.strandAt n = { s.strandAt n with wfi := (t.strandAt n).wfi }) ∧
        t.memNat pa 32 = word ∧ (∀ a, a < pa ∨ pa + 32 ≤ a → t.memByte a = s.memByte a) ∧
        t.lqAt q = (if l.state = 2 ∧ t.liveOf q = 0 then
            { u.lqAt q with chead := (l.chead + 1) % 2 ^ l.size, state := 0, cancel := false, destroy := false, read := none, pins := [] }
          else { u.lqAt q with chead := (l.chead + 1) % 2 ^ l.size }) ∧
        (t.fifo l.ncore 0x14).map (·.v) = (s.fifo l.ncore 0x14).map (·.v) ++ (if l.ncore < 384 ∧ s.tenantOf l.ncore = l.tenant then [k.user] else [])) ∧
    (∀ d sel u pa g, k.origin = .stage d sel → smFind (s.dieAt d).stages sel = some g → g.state = 1 → s.stores = [] → s.parity = [] →
      smFind s.devAcc (stageKey d sel) = none → s.place (d * 48) true .wr 1 (BitVec.ofNat 64 (g.word 0x60 + 32 * (g.retired % 2 ^ (g.word 0x68 % 32)))) = (u, .ok (.mem pa)) → u.plainMem →
      ∃ t, exec .taskRetire s = .next t ∧ t.tasks = smDel s.tasks id ∧ t.strands = s.strands ∧
        t.memNat pa 32 = (word - k.user.toNat) ∧ (∀ a, a < pa ∨ pa + 32 ≤ a → t.memByte a = s.memByte a) ∧
        ∀ y, g.tag k.tag.toNat = some y → y.birth = k.birth →
          let h : Stage := { g with retired := g.retired + 1, tags := smPut g.tags k.tag.toNat { y with running := y.running.erase k.kind } }
          smFind (t.dieAt d).stages sel = some (if k.status = 0 ∧ k.kind ∉ y.finished then h.finishKind k.tag.toNat k.kind else h))) ∧
  (∀ (s : State), let q := s.ev.k
    let v := s.ev.v.toNat
    let l := s.lqAt q
    let n := 2 ^ l.size
    let off : LaunchQueue := { l with state := 0, cancel := false, destroy := false, read := none, pins := [] }
    let set (x : LaunchQueue) : Host.Outcome State Fault Refusal := .next { s with lqs := smPut s.lqs q x }
    let ignored : Host.Outcome State Fault Refusal := .next (match s.ev.agent with
      | .host f => s.countRefused f
      | _ => s)
    (s.stores = [] → s.parity = [] → v < n → exec .lqTail s = set { l with tail := v }) ∧
    (s.stores = [] → s.parity = [] → n ≤ v → exec .lqTail s = ignored) ∧
    (v < n → (v + n - l.ctail) % n ≤ (l.chead + n - l.ctail) % n → exec .lqCtail s = set { l with ctail := v }) ∧
    (n ≤ v ∨ (l.chead + n - l.ctail) % n < (v + n - l.ctail) % n → exec .lqCtail s = ignored) ∧
    (l.state = 0 → exec .lqCtlEnable s = set { l with state := 1, head := 0, tail := 0, chead := 0, ctail := 0 }) ∧
    (l.state ≠ 0 → exec .lqCtlEnable s = ignored) ∧ (l.state ≠ 1 → exec .lqCtlDestroy s = ignored) ∧
    (l.state ≠ 2 → exec .lqCtlCancel s = ignored) ∧
    (l.state = 1 → s.ev.status = 1 → exec .lqCtlDestroy s = set { l with state := 2, destroy := true }) ∧
    (l.state = 1 → s.ev.status ≠ 1 → ∃ t, exec .lqCtlDestroy s = .next t ∧
      t = { s with lqs := t.lqs, devAcc := t.devAcc } ∧ (s.liveOf q ≠ 0 → t.devAcc = s.devAcc) ∧ t.lqAt q = (if s.liveOf q = 0 then off else { l with state := 2, destroy := true })) ∧
    (l.state = 2 → ∃ t, exec .lqCtlCancel s = .next t ∧ t.lqAt q = (if t.liveOf q = 0 then off else { l with cancel := true }) ∧
      (∀ id k, smFind s.tasks id = some k → k.origin = .queue q → k.state = .running →
        smFind t.tasks id = some { k with status := if k.status = 0 then 2 else k.status } ∧
        ∀ m, (s.strandAt m).live = true → (s.strandAt m).task = id → (t.strandAt m).cancelling = true ∨ (t.strandAt m).live = false) ∧
      ∀ id k, smFind s.tasks id = some k → (∀ j, (id, j) ∈ s.tasks → j.origin ≠ .queue q ∨ j.state = .preempted) → smFind t.tasks id = some k) ∧
    ∀ f, ((s.countRefused f).fnAt f).refused = (if (s.fnAt f).refused < 65535 then (s.fnAt f).refused + 1 else (s.fnAt f).refused))

/-- R8, R9, R40, R41, R237, R439, R443, R445, R458, R461, R496, R497, R500, R502, R511 to R514, R517, R522: a write of a register
without a row of its own reaches the fields that the register's description lets software write, and nothing else.

R510, R512: an owner-table write reaches the eight bytes that hold granules, but for the granule of the fault records, which stays
tenant 0's; CORECTL lets the halted strands that it names go on.

R8, R442, R452, R461, R502, R511: the reads that clear return the value that stood and leave the cleared field at zero (that a VF's read of
BOOT_STATUS leaves REQ as it is, is the model's choice: log 50). -/
def Obligations.DeviceRegisters : Prop :=
  (∀ (s : State) (d q o k : Nat), let v := s.ev.v
    let at1 (r : DevReg) : Prop := devReg s.ev.n = some r
    let die (x : Die) : Host.Outcome State Fault Refusal := .next (s.setDie d x)
    let lq (x : LaunchQueue) : Host.Outcome State Fault Refusal := .next { s with lqs := smPut s.lqs q x }
    let x := s.dieAt d
    let l := s.lqAt q
    let fn := s.evFn.getD 0
    (at1 (.lq q 0) → l.state = 0 → v.toNat % 4096 = 0 → exec .registerWrite s = lq { l with base := v }) ∧
    (at1 (.lq q 0x20) → l.state = 0 → v.toNat % 4096 = 0 → exec .registerWrite s = lq { l with cbase := v }) ∧
    (at1 (.lq q 8) → l.state = 0 → 4 ≤ v.toNat → v.toNat ≤ 16 → exec .registerWrite s = lq { l with size := v.toNat }) ∧
    (at1 (.lq q 0x40) → l.state = 0 → s.ev.tenant = 0 → exec .registerWrite s = lq { l with tenant := v.toNat % 256 }) ∧
    (at1 (.lq q 0x38) → ctlIgnored l.state v = false → exec .registerWrite s = lq { l with ncore := v.toNat / 2 ^ 32 % 2 ^ 10 }) ∧
    (at1 (.lq q o) → o ≠ 0x38 → l.state ≠ 0 → exec .registerWrite s = .next s.ignored) ∧
    (at1 .scrub → ∃ t, exec .registerWrite s = .next t ∧ t = { s with scrubPeriod := t.scrubPeriod } ∧
      (t.devRead .scrub).2 = BitVec.ofNat 64 (s.scrubPasses % 2 ^ 32 * 2 ^ 16 + v.toNat % 2 ^ 16)) ∧
    (at1 (.hand d 0) → exec .registerWrite s = die { x with dtptb := v }) ∧
    (at1 (.hand d 8) → exec .registerWrite s = die { x with dtent := v }) ∧
    (at1 (.tc d 8) → exec .registerWrite s = die { x with tcArea := v &&& ~~~0xFFF }) ∧
    (at1 (.tc d 0x50) → exec .registerWrite s = die { x with rasTail := v.toNat % 256 }) ∧
    (at1 (.tc d 0x68) → exec .registerWrite s = die { x with corrLog := v.getLsbD 0, rasIe := v.getLsbD 1 }) ∧
    (at1 (.mon d 0xA0) → exec .registerWrite s = die { x with thot := v.toNat % 256, thyst := v.toNat / 2 ^ 16 % 256 }) ∧
    (at1 (.mon d (0xA8 + 8 * k)) → ∃ t, exec .registerWrite s = .next t ∧ t = s.setDie d { x with vrail := (t.dieAt d).vrail } ∧
      (t.dieAt d).vrailAt k = (x.vrailAt k &&& ~~~0xFFFF) ||| (v &&& 0xFFFF) ∧ ∀ j, j ≠ k → (t.dieAt d).vrailAt j = x.vrailAt j) ∧
    (at1 (.fab d 0) → exec .registerWrite s = die { x with throttle := (x.throttle &&& ~~~0xFFFFFFFF00) ||| (v &&& 0xFFFFFFFF00) }) ∧
    (k < 8 → o < 4 → at1 (.fab d (0x200 + 0x40 * k + 8 * o)) → exec .registerWrite s = .next { s with ports := smPut s.ports (k * 8 + d) { s.portAt (k * 8 + d) with kdata := smSet 0 (s.portAt (k * 8 + d)).kdata o v } }) ∧
    (k < 256 → at1 (.fab d (0x800 + 8 * k)) → exec .registerWrite s = die { x with token := smSet 0 x.token k v }) ∧
    (k < 1024 → at1 (.fab d (0x2000 + 8 * k)) → ∃ t, exec .registerWrite s = .next t ∧ t = s.setDie d { x with share := (t.dieAt d).share } ∧
      ∀ j, smGet 0xFFFF (t.dieAt d).share j = if j / 4 = k ∧ j % 16 < 10 then v.toNat / 2 ^ (16 * (j % 4)) % 2 ^ 16 else smGet 0xFFFF x.share j) ∧
    (s.ev.n = hostRegBase + 0x20 → exec .registerWrite s = .next (s.modFn fn fun f => { f with hirq := v &&& 0x7FF })) ∧
    (s.ev.n = hostRegBase + 0x28 → exec .registerWrite s = .next (s.modFn fn fun f => { f with bar2 := v &&& 0x00FFFFFFC0000000 })) ∧
    (s.ev.n = hostRegBase + 0x10 → fn = 0 → exec .registerWrite s = .next { s with boot := { s.boot with fwLen := v &&& 0x1FFFFFF } }) ∧
    (s.ev.n = hostRegBase + 0x30 → fn = 0 → ∃ t, exec .registerWrite s = .next t ∧ t = { s with cxlm := t.cxlm } ∧
      t.cxlm = ((if s.hdm then s.cxlm else v) &&& 0x8000000000000000) ||| (v &&& 0x000007FF00003FFF)) ∧
    (1 ≤ k → k ≤ 63 → s.ev.n = hostRegBase + 0x100 + 8 * k → fn = 0 → (s.fnAt k).enabled = false → v.getLsbD 63 = false ∨ v.toNat % 256 ≠ 0 →
      exec .registerWrite s = .next (s.modFn k fun f => { f with vfmap := v &&& 0x80000000000000FF })) ∧
    (k < 32 → s.ev.n = mailBase + 0x100 + 8 * k → exec .registerWrite s = .next (s.modFn fn fun f => { f with mbArg := smSet 0 f.mbArg k v }))) ∧
  (∀ (s : State),
    (s.ev.status = 1 → exec .ownerTableWrite s = .next (s.copyOwner s.ev.k)) ∧
    (s.ev.status ≠ 1 → ∃ t, exec .ownerTableWrite s = .next t ∧ t = { s with owner := t.owner, ownerOld := t.ownerOld } ∧
      (∀ a, t.ownerOf a = s.ownerOf a) ∧ ∀ g, smGet 0 t.owner g =
      let i := g - s.ev.k
      let b : Byte := s.ev.v.extractLsb' (8 * i) 8
      if s.ev.k ≤ g ∧ i < 8 ∧ (g ≤ 251770 ∨ (0x400000 ≤ g ∧ g < 0x400000 + 2 ^ 19) ∨ (0x800000 ≤ g ∧ g < 0x800000 + 2 ^ 23)) ∧
        (g ≠ 0x400000 + 2 ^ 19 - 1 ∨ b = 0) then b else smGet 0 s.owner g) ∧
    ∃ t, exec .corectlResume s = .next t ∧ t = { s with strands := t.strands } ∧ ∀ n, t.strandAt n =
      { s.strandAt n with halted := (s.strandAt n).halted && !(n / 4 == s.ev.k && s.ev.v.getLsbD (n % 4)) }) ∧
  (∀ (s : State) (f : Nat), s.ev.agent = .host f →
    let gives (t : State) (v : Nat) : Prop := t.out = s.out ++ [.hostData f (leBytes 8 (v % 2 ^ 64))]
    let x := s.dieAt s.ev.n
    let h := s.fnAt f
    let p := s.portAt s.ev.k
    let b := s.boot
    (∃ t, exec .hostErr s = .next t ∧ gives t (h.refused * 2 ^ 48 + h.xlate * 2 ^ 32 + h.dropped * 2 ^ 16 + h.apert * 2 ^ 8 + h.poisoned) ∧
      t.fnAt f = { h with refused := 0, xlate := 0, dropped := 0, apert := 0, poisoned := 0 }) ∧
    (∃ t, exec .rasLost s = .next t ∧ gives t x.rasLost ∧ t.dieAt s.ev.n = { x with rasLost := 0 }) ∧
    (∃ t, exec .rasCorr s = .next t ∧ gives t (((List.range 8).map fun u => smGet 0 x.rasCorr u * 2 ^ (8 * u)).sum) ∧ t.dieAt s.ev.n = { x with rasCorr := [] }) ∧
    (∃ t, exec .fabcnt s = .next t ∧ gives t (x.badFlit * 2 ^ 32 + x.tokFail) ∧ t.dieAt s.ev.n = { x with badFlit := 0, tokFail := 0 }) ∧
    (s.ev.k < 64 → ∃ t, exec .lksts s = .next t ∧ t.out = s.out ++ [.hostData f (leBytes 8 p.sts.toNat)] ∧ t.portAt s.ev.k = { p with afail := 0 }) ∧
    (∃ t, exec .bootStatus s = .next t ∧
      gives t (b.detail * 2 ^ 32 + b.code * 2 ^ 24 + b.stage * 2 ^ 20 + b.kind * 2 ^ 18 + b.fails * 2 ^ 16 + b.req * 2 ^ 8 + b.skip * 2 ^ 4 + (if b.degr then 8 else 0) + b.state) ∧
      t.boot = if f = 0 then { b with req := 0 } else b))

/-- R64, R67, R458, R459: the commands of task control. A refused one leaves its reason; one while another is BUSY is ignored; PREEMPT
writes every strand's record into the save area and leaves the strands EMPTY; RESUME starts the strands of the records; DISCARD leaves
the task to retire CANCELLED; FAULT ends the halted strand and faults the task with its trap's cause. -/
def Obligations.TaskControl : Prop :=
  ∀ (s : State), let d := s.ev.k
    let x := s.dieAt d
    let id := s.ev.v.toNat % 2 ^ 32
    let busy (op : Nat) : State := s.setDie d { x with tcStatus := 1, tcJob := some (op, id), tcRecs := [] }
    let free (u : State) : Prop := u.areaHeld x.tcArea.toNat (4096 * (s.taskAt id).gang.length) = []
    (x.tcJob.isSome → exec .tcCmd s = .next s ∧ exec .discard s = .next s ∧ exec .gwsave s = .next s ∧ exec .gwrestore s = .next s ∧
      (s.ev.status ≠ 1 → exec .preempt s = .next s ∧ exec .resume s = .next s ∧ exec .fault s = .next s)) ∧
    (x.tcJob = none → s.ev.status ≠ 1 →
      let refused (r : Nat) : State := s.setDie d { x with tcStatus := BitVec.ofNat 64 (r * 2 ^ 8 + 3), tcRecs := [] }
      exec .tcCmd s = .next (refused 1) ∧
      (smFind s.tasks id = none → exec .preempt s = .next (refused 1) ∧ exec .resume s = .next (refused 1) ∧ exec .discard s = .next (refused 1) ∧
        exec .fault s = .next (refused 1)) ∧
      (∀ k, smFind s.tasks id = some k →
        (s.ev.tenant ≠ 0 → s.ev.tenant ≠ k.tenant → exec .preempt s = .next (refused 5) ∧ exec .resume s = .next (refused 5) ∧
          exec .discard s = .next (refused 5) ∧ exec .fault s = .next (refused 5)) ∧
        (s.ev.tenant = 0 → k.state = .preempted → exec .preempt s = .next (refused 3) ∧ exec .fault s = .next (refused 3)) ∧
        (s.ev.tenant = 0 → k.state = .running → exec .resume s = .next (refused 3) ∧ exec .discard s = .next (refused 3)) ∧
        (s.tcReason d 1 id s.ev.tenant = 0 → free s → s.plainMem → (∀ n ∈ s.strandsOf id, (s.strandAt n).late = [] ∧ (s.strandAt n).sync = []) →
          (∀ n ∈ s.strandsOf id, ∀ m ∈ s.strandsOf id, (s.strandAt n).gangRank = (s.strandAt m).gangRank → n = m) → (s.strandsOf id).Nodup →
          ∃ t, exec .preempt s = .next t ∧ (t.dieAt d).tcStatus = 2 ∧
            smFind t.tasks id = some { k with state := .preempted, saved := (s.strandsOf id).map fun n => (s.strandAt n).gangRank, redo := (t.taskAt id).redo } ∧
            (∀ n ∈ s.strandsOf id, t.strandAt n = { lseq := (s.strandAt n).lseq } ∧
              t.memBytes (x.tcArea.toNat + 4096 * (s.strandAt n).gangRank) 4096 = (s.recordOf n).bytes) ∧
            (∀ n, n ∉ s.strandsOf id → t.strandAt n = s.strandAt n) ∧
            ∀ a, (∀ n ∈ s.strandsOf id, a < x.tcArea.toNat + 4096 * (s.strandAt n).gangRank ∨ x.tcArea.toNat + 4096 * (s.strandAt n).gangRank + 4096 ≤ a) →
              t.memByte a = s.memByte a) ∧
        (∀ u xs, s.tcReason d 2 id s.ev.tenant = 0 → free s → (busy 2).tcRead d id k k.saved = (u, some xs) → u.recsFit xs = true →
          (xs.map (·.1)).Nodup → ∃ t, exec .resume s = .next t ∧ (t.dieAt d).tcStatus = 2 ∧ (smFind u.tasks id = some k → smFind t.tasks id = some { k with state := .running, saved := [] }) ∧
          ∀ p ∈ xs, ∃ n, u.freeSlot p.1 = some n ∧ (t.strandAt n).live = true ∧ (t.strandAt n).now = p.2.now ∧ (t.strandAt n).pc = p.2.pc ∧
            (t.strandAt n).sync = p.2.sync ∧ (t.strandAt n).task = p.2.task ∧ (t.strandAt n).gangRank = p.2.gangRank) ∧
        (s.tcReason d 3 id s.ev.tenant = 0 → ∃ t, exec .discard s = .next t ∧ (t.dieAt d).tcStatus = 2 ∧
          smFind t.tasks id = some { k with state := .running, status := 2, saved := [] } ∧ t.strands = s.strands ∧ t.mem = s.mem) ∧
        (∀ n, s.tcReason d 4 id s.ev.tenant = 0 → s.haltedOf id = some n → (s.strandAt n).task = id → (∀ p ∈ s.strands, p.2.sync = []) → k.status = 0 →
          ∃ t, exec .fault s = .next t ∧ (t.dieAt d).tcStatus = 2 ∧ (t.strandAt n).live = false ∧ t.mem = s.mem ∧
          smFind t.tasks id = some { k with status := 1, cause := (s.strandAt n).now.trapCause.toNat % 256, pc := (s.strandAt n).now.trapPc, info := (s.strandAt n).now.trapInfo } ∧
          ∀ m ∈ s.strandsOf id, (t.strandAt m).cancelling = true ∨ (t.strandAt m).live = false))) ∧
    ∀ (l : List Byte) (k : Task) (w : State) (core : Nat) (y : Strand), s.restored id k l = (w, core, y) →
      let word (o n : Nat) : Nat := leNat ((l.drop o).take n)
      y.pc.toNat = word 0 8 ∧ y.task = id ∧ y.cancelling = (k.status != 0) ∧ y.gangRank = word 0x25C 2 % 512 ∧ y.spmBase = word 0x250 2 * 4096 ∧ y.now.sup = k.sup ∧ y.now.trapped = false ∧
      (∀ i, 1 ≤ i → i < 64 → (y.now.getS i).toNat = if (word 12 4).testBit 0 ∨ (i < 32 ∧ (word 8 4).testBit i) then word (8 + 8 * i) 8 else 0) ∧
      (∀ i, i < 4 → (y.now.getLc i).toNat = word (0x210 + 4 * i) 4) ∧ (∀ i, i < 32 → (y.now.getF i).toNat = word (0x220 + i) 1) ∧
      ∀ i, i < 64 → (y.now.getT i).toNat = word (0x800 + 32 * i) 32

/-- R460, R491: GWSAVE puts a tenant's reassembly entries into the save area and reports how many; GWRESTORE brings them back.

R522, R523: DTCMD gives an idle die to a tenant: its table, no routines, groups or cached translations, cleared cores, and a system
task of the new tenant that starts at DTENT with the old tenant in s1. A refused handover leaves its reason. -/
def Obligations.SavesAndHandovers : Prop :=
  (∀ (s : State), let d := s.ev.k
    let x := s.dieAt d
    let tenant := s.ev.v.toNat % 2 ^ 32
    let mine := x.reasm.filter (·.tenant == tenant)
    x.tcJob = none → s.ev.tenant = 0 → tenant < 256 → s.areaOk 0 x.tcArea.toNat 65536 = true → s.plainMem → x.tcArea.toNat % 4096 = 0 →
    (∃ t, exec .gwsave s = .next t ∧ (t.dieAt d).reasm = x.reasm.filter (·.tenant != tenant) ∧ (t.dieAt d).tcStatus = BitVec.ofNat 64 (mine.length * 2 ^ 32 + 2) ∧
      smGet 0 (t.dieAt d).saved tenant = mine.length ∧ t.memBytes x.tcArea.toNat (64 * mine.length) = mine.flatMap Reasm.record ∧
      ∀ a, a < x.tcArea.toNat ∨ x.tcArea.toNat + 64 * mine.length ≤ a → t.memByte a = s.memByte a) ∧
    ∀ rs, rs.length = smGet 0 x.saved tenant → x.reasm.length + rs.length ≤ 1024 → (∀ r ∈ rs, reasmOf r.record = r) →
      s.memBytes x.tcArea.toNat (64 * rs.length) = rs.flatMap Reasm.record →
      ∃ t, exec .gwrestore s = .next t ∧ (t.dieAt d).reasm = x.reasm ++ rs ∧ (t.dieAt d).tcStatus = 2 ∧ smFind (t.dieAt d).saved tenant = none ∧ t.mem = s.mem) ∧
  (∀ (s : State), let d := s.ev.k
    let x := s.dieAt d
    let tenant := s.ev.v.toNat % 256
    (s.ev.v.getLsbD 8 = false → exec .dtcmdGo s = .next s) ∧
    (s.ev.v.getLsbD 8 = true → s.handoverReason d tenant ≠ 0 →
      exec .dtcmdGo s = .next (s.setDie d { x with dtsts := BitVec.ofNat 64 (s.handoverReason d tenant * 2 ^ 16 + 0x300) })) ∧
    (s.ev.v.getLsbD 8 = true → s.handoverReason d tenant = 0 → ∃ t, exec .dtcmdGo s = .next t ∧
      t.dieAt d = { x with routines := [], groups := [], collIn := [], tenant, ptbase := x.dtptb, dtsts := 0x200 } ∧ (∀ k, k ≠ d → t.dieAt k = s.dieAt k) ∧
      (∀ e ∈ t.tlb, dieOf e.core ≠ d) ∧
      (∀ c, dieOf c = d → (t.coreAt c).spm = [] ∧ (t.coreAt c).acc = [] ∧ (t.coreAt c).l1 = [] ∧ (t.coreAt c).imem = [] ∧ (t.coreAt c).win = [] ∧
        (t.coreAt c).tmpl = [] ∧ (t.coreAt c).fifos = [] ∧ (t.coreAt c).tvec = 0 ∧ (c ≠ d * 48 → (t.coreAt c).cycle = (s.coreAt c).cycle)) ∧
      (∀ c, dieOf c ≠ d → t.coreAt c = s.coreAt c) ∧ t.mem = s.mem ∧
      smFind t.tasks s.nextTask = some { origin := .system d, tenant, gang := [d * 48], sup := true } ∧
      Started t (d * 192) s.nextTask 1 0 { pc := x.dtent.toNat, s1 := BitVec.ofNat 64 x.tenant, s4 := 4, cls := 3 }) ∧
    ((s.dieAt d).tenant = tenant → s.handoverReason d tenant ≠ 0) ∧
    ∀ n, (s.strandAt n).live = true → dieOf (coreOf n) = d → s.handoverReason d tenant ≠ 0)

/-- R447, R450, R454, R516: what the resets leave. Memory stays; no strand, task, queue, translation or request does; the next start is
cold after POWER_ON and PERST and warm after the others. After a trip only POWER_ON and PERST are taken, and they report it.

R436, R448, R454: GO starts with the staged image, of the kind that earlier failures fix, in WAITFW only; a stage that exceeds its
limit fails the start; the image is staged in WAITFW only. -/
def Obligations.ResetsAndStarts : Prop :=
  (∀ (s : State), let b := s.boot
    let left (t : State) (state fails kind : Nat) : Prop :=
      t.mem = s.mem ∧ t.strands = [] ∧ t.tasks = [] ∧ t.cores = [] ∧ t.lqs = [] ∧ t.tlb = [] ∧ t.stores = [] ∧ t.reqs = [] ∧ t.lost = s.lost ∧ t.nextTask = 1 ∧
      t.boot.state = state ∧ t.boot.fails = fails ∧ t.boot.nextKind = kind ∧ t.boot.trained = b.trained ∧ t.boot.fw = [] ∧
      (∀ d, (t.dieAt d).tenant = 0 ∧ (t.dieAt d).ptbase = 0 ∧ (t.dieAt d).stages = [] ∧ (t.dieAt d).groups = [] ∧ (t.dieAt d).stash = [] ∧
        (t.dieAt d).allow = 255 ∧ (t.dieAt d).ttrip = (s.dieAt d).ttrip) ∧
      ∀ p, (t.portAt p).inuse = false ∧ (t.portAt p).up = false ∧ (t.portAt p).txKey = (s.portAt p).txKey ∧ (t.portAt p).txV = (s.portAt p).txV
    let kept := if b.state = 3 then 3 else 0
    (b.tripped = none →
      (∃ t, exec .powerOn s = .next t ∧ left t 0 0 0 ∧ t.boot.clean = b.clean ∧ t.cxl = (s.ev.status == 1)) ∧
      (∃ t, exec .perst s = .next t ∧ left t kept b.fails 0 ∧ t.boot.clean = b.clean ∧ t.cxl = (s.ev.status == 1)) ∧
      (∃ t, exec .hotReset s = .next t ∧ left t kept b.fails 1 ∧ t.boot.clean = b.clean ∧ t.cxl = (s.ev.status == 1)) ∧
      (∃ t, exec .dlDown s = .next t ∧ left t kept b.fails 1 ∧ t.boot.clean = b.clean ∧ t.cxl = (s.ev.status == 1)) ∧
      (∃ t, exec .pfFlr s = .next t ∧ left t kept b.fails 1 ∧ t.boot.clean = b.clean ∧ t.cxl = s.cxl) ∧
      (b.state = 2 → s.stores = [] → ∃ t, exec .bootCtlWarm s = .next t ∧ left t 0 b.fails 1 ∧ t.boot.clean = (b.clean || s.quiesced))) ∧
    (∀ d v, b.tripped = some (d, v) → exec .hotReset s = .next s ∧ exec .dlDown s = .next s ∧ exec .pfFlr s = .next s ∧
      ∃ t, exec .perst s = .next t ∧ t.boot.tripped = none ∧
        t.boot.events = [BitVec.ofNat 64 (4 * 2 ^ 56 + d * 2 ^ 48 + 0xFF * 2 ^ 40 + v * 2 ^ 32 + (s.dieAt d).mtime.toNat % 2 ^ 32)]) ∧
    (b.state = 1 → exec .bootCtlWarm s = .next { s with boot := { b with req := 2 } }) ∧
    (b.state ≠ 1 → b.state ≠ 2 → exec .bootCtlWarm s = .next s)) ∧
  (∀ (s : State), let b := s.boot
    let kind := if b.fails = 1 then 1 else if b.fails = 2 then 0 else b.nextKind
    let begun : Boot := { b with state := 1, stage := 1, kind, code := 0, detail := 0, skip := 0, req := 1, svn := 0 }
    (b.tripped = none → b.state = 0 → ∃ t, exec .bootCtlGo s = .next t ∧ t.mem = s.mem ∧ (∀ p, (t.portAt p).inuse = false) ∧
      t.boot = (if kind = 1 then begun else { begun with trained := false, temps := [], equalised := 0, degr := false }) ∧
      t.lost = (if kind = 1 then s.lost else [])) ∧
    (b.tripped = none → b.state = 3 → exec .bootCtlGo s = .next { s with boot := { b with req := 3 } }) ∧
    (b.tripped = none → b.state ≠ 0 → b.state ≠ 3 → exec .bootCtlGo s = .next { s with boot := { b with req := 2 } }) ∧
    (b.state = 1 → ∃ t, exec .startTimeout s = .next t ∧ t.mem = s.mem ∧ t.boot = { b with
      code := 0x60, detail := b.stage % 65536, fails := b.fails + 1, state := if 3 ≤ b.fails + 1 then 3 else 0, fw := [], svn := 0 }) ∧
    (b.state ≠ 1 → exec .startTimeout s = .next s) ∧
    (b.state = 0 → b.tripped = none → ∃ t, exec .fwWinWrite s = .next t ∧ t = { s with boot := { b with fw := t.boot.fw } } ∧
      ∀ a, smGet 0 t.boot.fw a = if s.ev.n ≤ a then (((s.ev.data[a - s.ev.n]?).getD none).getD (smGet 0 b.fw a)) else smGet 0 b.fw a) ∧
    (b.state ≠ 0 → exec .fwWinWrite s = .next s.ignored))

/-- R445, R446, R449, R450, R451, R502: the stages of a start, each in its order: the image's checks, training, the zero-fill with the
ports that PORTMAP puts in use, equalisation, the cores' test, and the supervisor on every die. -/
def Obligations.StartStages : Prop :=
  ∀ (s : State), let b := s.boot
    let failed (t : State) (code detail : Nat) : Prop := t.boot = { b with
      code, detail := detail % 65536, fails := b.fails + 1, state := if 3 ≤ b.fails + 1 then 3 else 0, fw := [], svn := 0 }
    let links (t : State) : Prop := t.boot.stage = 4 ∧ ∀ i, i < 64 → (t.portAt i).inuse = b.portmap.getLsbD i ∧ (t.portAt i).up = false ∧
      (t.portAt i).txV = if b.kind = 0 then 0 else (s.portAt i).txV
    b.state = 1 →
    (b.stage = 1 →
      (b.imageOk = false → b.check = some (0x01, 0)) ∧
      (b.imageOk = true → sha384 (b.bytes 32 96) ≠ b.keyHash → b.check = some (0x02, 0)) ∧
      (b.check = none → b.num 8 4 ≥ b.counter ∧ exec .firmwareCheck s = .next { s with boot := { b with portmap := BitVec.ofNat 64 (b.num 176 8), svn := b.num 8 4, stage := 2 } }) ∧
      ∀ c d, b.check = some (c, d) → ∃ t, exec .firmwareCheck s = .next t ∧ failed t c d) ∧
    (b.stage = 2 →
      (s.keepsTraining = true → exec .hbmTraining s = .next { s with boot := { b with skip := b.skip ||| 1, degr := !s.lost.isEmpty, stage := 3 } }) ∧
      (s.keepsTraining = false →
        (∀ i j, i < 12 → j < 12 → i ≠ j → s.ev.list = [i, j] → s.lost = [] → ∃ t, exec .hbmTraining s = .next t ∧ failed t 0x10 (2 ^ i + 2 ^ j)) ∧
        (∀ c, s.ev.list = [] → s.lost.length ≤ 1 → s.ev.status = c + 1 → ∃ t, exec .hbmTraining s = .next t ∧ failed t 0x11 c) ∧
        (s.ev.list = [] → s.lost.length ≤ 1 → s.ev.status = 0 → ∃ t, exec .hbmTraining s = .next t ∧ t.lost = s.lost ∧ t.boot.trained = true ∧ t.boot.stage = 3 ∧ t.mem = s.mem) ∧
        ∀ k, k < 12 → s.ev.list = [k] → s.lost = [] → s.ev.status = 0 → ∃ t, exec .hbmTraining s = .next t ∧ t.lost = [k] ∧ t.boot.degr = true ∧ t.boot.stage = 3 ∧
          OnlyRecord s t (2 * k / 3))) ∧
    (b.stage = 3 →
      (b.kind = 1 → b.clean = true → ∃ t, exec .zeroFill s = .next t ∧ t.mem = s.mem ∧ t.boot = { b with skip := b.skip ||| 2, stage := 4 } ∧ links t) ∧
      (b.kind = 0 ∨ b.clean = false → s.ev.list = [] → ∃ t, exec .zeroFill s = .next t ∧ t.mem = [] ∧ t.poison = [] ∧ t.boot.clean = true ∧ links t) ∧
      ∀ k r, b.kind = 0 ∨ b.clean = false → s.ev.list = k :: r → ∃ t, exec .zeroFill s = .next t ∧ failed t 0x20 k) ∧
    (b.stage = 4 →
      (s.ev.status ≠ 0 → s.linksReady = true → exec .linkEqualisation s = .next { s with boot := { b with stage := 5 } }) ∧
      (s.ev.status = 0 → (∀ i, i < 64 → b.portmap.getLsbD i = true → i ∉ s.ev.list) → ∃ t, exec .linkEqualisation s = .next t ∧
        (∀ p, (t.portAt p).up = (s.portAt p).inuse) ∧ t.boot.equalised = b.portmap ∧ t.boot.stage = if t.linksReady then 5 else 4) ∧
      ∀ i, i < 64 → s.ev.status = 0 → b.portmap.getLsbD i = true → i ∈ s.ev.list → (∀ j, j < i → j ∈ s.ev.list → b.portmap.getLsbD j = false) →
        ∃ t, exec .linkEqualisation s = .next t ∧ failed t 0x30 i) ∧
    (b.stage = 5 →
      ((∀ c ∈ s.ev.list, 384 ≤ c) → exec .coreSelfTest s = .next { s with cores := [], boot := { b with stage := 6 } }) ∧
      ∀ c, c < 384 → c ∈ s.ev.list → (∀ k, k < c → k ∉ s.ev.list) → ∃ t, exec .coreSelfTest s = .next t ∧ failed t 0x40 c) ∧
    (b.stage = 6 →
      let img := b.bytes (512 + b.num 24 4) (b.num 28 4)
      (∀ c, imageFault img = some c → ∃ t, exec .supervisorLoad s = .next t ∧ failed t 0x50 c) ∧
      (imageFault img = none → ∃ t, exec .supervisorLoad s = .next t ∧ t.mem = (s.placeImage img).1.mem ∧
        t.boot = { b with state := 2, stage := 7, fails := 0, clean := false, fw := [] } ∧
        ∀ d, d < 8 → (t.dieAt d).tenant = 0 ∧ (t.dieAt d).ptbase = BitVec.ofNat 64 (s.node * 2 ^ 46 + (s.placeImage img).2) ∧
          ∃ id, smFind t.tasks id = some { origin := .system d, gang := [d * 48], sup := true } ∧
            Started t (d * 192) id 1 0 { pc := imgNum img 16 8, s1 := BitVec.ofNat 64 d, s2 := b.status, s4 := 4, t := imageTable img, cls := 3 }))

/-- R502, R517 to R521: the mailbox of a function. A write of MB_REQ with one of the nine commands is accepted with its arguments as they
stand, or discarded and counted. An accepted command completes, in a later step, with its STATUS and results: each of MB_REQ (an unlisted
CMD), VERSION, TELEMETRY, LOADKEY, SETPASID, RAISESVN, RECEXIT, INJECT and EVENTS answers a next state with its effect under its
conditions. -/
def Obligations.MailboxCommands : Prop :=
  ∀ (s : State), let fn := s.mailFn
    let f := s.fnAt fn
    let v := s.ev.v.toNat
    let taken (i : Instr) : State := { s.modFn fn (fun f => { f with
      mbSeq := v / 2 ^ 16, mbCmd := v % 2 ^ 16, mbBusy := true, mbDone := false, mbTaken := f.mbArg }) with inbox := s.inbox ++ [(i, { s.ev with status := 1 })] }
    let running := s.boot.state = 2
    (s.ev.status = 0 → f.mbBusy = false → v < 2 ^ 32 →
      exec .mbReq s = .next (taken .mbReq) ∧ exec .version s = .next (taken .version) ∧ exec .telemetry s = .next (taken .telemetry) ∧
      exec .loadkey s = .next (taken .loadkey) ∧ exec .setpasid s = .next (taken .setpasid) ∧ exec .raisesvn s = .next (taken .raisesvn) ∧
      exec .recexit s = .next (taken .recexit) ∧ exec .inject s = .next (taken .inject) ∧ exec .events s = .next (taken .events)) ∧
    (s.ev.status = 0 → f.mbBusy = true ∨ 2 ^ 32 ≤ v →
      ∀ i, i ∈ [Instr.mbReq, .version, .telemetry, .loadkey, .setpasid, .raisesvn, .recexit, .inject, .events] → exec i s = .next (s.countRefused fn)) ∧
    (s.ev.status ≠ 0 → f.mbBusy = true →
      exec .mbReq s = .next (s.mailDone fn 1 []) ∧
      exec .version s = .next (s.mailDone fn 0 [BitVec.ofNat 64 s.boot.svn, BitVec.ofNat 64 s.boot.counter, s.boot.status]) ∧
      (let x := s.dieAt ((f.arg 0).toNat % 8)
       let may := fn = 0 ∨ (f.vfmap.getLsbD 63 = true ∧ x.tenant = f.vfmap.toNat % 256)
       (may → running ∨ (s.boot.state = 1 ∧ 2 ≤ s.boot.stage) →
         exec .telemetry s = .next (s.mailDone fn 0 ((List.range 19).map fun i => x.monWord (8 * i)))) ∧
       (¬ may → exec .telemetry s = .next (s.mailDone fn 3 [])) ∧
       (may → s.boot.state = 0 ∨ s.boot.state = 3 → exec .telemetry s = .next (s.mailDone fn 4 []))) ∧
      (fn = 0 → s.boot.state = 3 → exec .recexit s = .next ((s.setBoot { s.boot with state := 0, fails := 0, nextKind := 0 }).mailDone fn 0 [])) ∧
      (fn = 0 → running ∨ (s.boot.state = 1 ∧ s.boot.stage = 4) →
        let i := (f.arg 0).toNat % 64
        let p := s.portAt i
        let staged : SMap Word := (List.range 4).foldl (fun m k => smSet 0 m k (f.arg (2 + k))) p.kdata
        (p.inuse = true → p.loadIgnored (f.arg 1) = false →
          exec .loadkey s = .next ((s.modPort i fun p => ({ p with kdata := staged } : Port).loadKey (f.arg 1)).mailDone fn 0 [])) ∧
        (p.inuse = false ∨ p.loadIgnored (f.arg 1) = true → exec .loadkey s = .next (s.mailDone fn 2 []))) ∧
      (fn = 0 → running ∨ s.boot.state = 1 →
        exec .events s = .next (({ s with boot := { s.boot with events := s.boot.events.drop 31, evLost := 0 } } : State).mailDone fn 0
          (BitVec.ofNat 64 (s.boot.evLost % 2 ^ 32 * 2 ^ 32 + (s.boot.events.take 31).length) :: s.boot.events.take 31))) ∧
      (fn = 0 → running →
        exec .setpasid s = .next (({ s with pasid := smSet 0 s.pasid ((f.arg 0).toNat % 256) (f.arg 1 &&& 0x80000000000FFFFF) } : State).mailDone fn 0 []) ∧
        (let n := (f.arg 0).toNat % 2 ^ 32
         (s.boot.counter < n → n ≤ s.boot.svn → n ≤ 255 →
           exec .raisesvn s = .next (({ s with boot := { s.boot with counter := n } } : State).mailDone fn 0 [])) ∧
         (n ≤ s.boot.counter ∨ s.boot.svn < n ∨ 255 < n → exec .raisesvn s = .next (s.mailDone fn 2 []))) ∧
        (let unit := (f.arg 0).toNat % 256
         let k := (f.arg 1).toNat / 8 % 64
         let core := (f.arg 1).toNat % 8 * 48 + k
         let t := (f.arg 2).toNat
         let set (g : Nat) : State := (s.modCore core fun c => { c with inj := smPut c.inj (unit * 2 ^ 64 + g) (f.arg 3).toNat }).mailDone fn 0 []
         (k < 48 → unit = 1 → t < 8 * 24576 → exec .inject s = .next (set t)) ∧
         (k < 48 → unit = 2 → (smFind (s.coreAt core).l1 (t / 16)).isSome → exec .inject s = .next (set (t / 8))) ∧
         (k < 48 → unit = 3 → (smFind (s.coreAt core).imem (t / 8 * 8)).isSome → exec .inject s = .next (set (t / 8))) ∧
         (k < 48 → unit = 7 → t % 8 < 3 → exec .inject s = .next (set (t % 8))) ∧
         (k < 48 → unit = 4 → ∃ u : State, { s with fresh := u.fresh } = u ∧ (exec .inject s = .next (u.mailDone fn 2 []) ∨
           exec .inject s = .next (({ u with l2inj := smPut s.l2inj (t / 8) (f.arg 3).toNat } : State).mailDone fn 0 []))) ∧
         (48 ≤ k ∨ unit = 0 ∨ unit = 5 ∨ unit = 6 ∨ 7 < unit ∨ (unit = 1 ∧ 8 * 24576 ≤ t) ∨ (unit = 2 ∧ smFind (s.coreAt core).l1 (t / 16) = none) ∨
           (unit = 7 ∧ 3 ≤ t % 8) → exec .inject s = .next (s.mailDone fn 2 [])))) ∧
      (fn ≠ 0 → ∀ i, i ∈ [Instr.loadkey, .setpasid, .raisesvn, .recexit, .inject, .events] → exec i s = .next (s.mailDone fn 3 [])) ∧
      (fn = 0 → ¬ running → s.boot.state ≠ 1 → exec .loadkey s = .next (s.mailDone fn 4 []) ∧ exec .setpasid s = .next (s.mailDone fn 4 []) ∧
        exec .raisesvn s = .next (s.mailDone fn 4 []) ∧ exec .inject s = .next (s.mailDone fn 4 []) ∧ exec .events s = .next (s.mailDone fn 4 [])) ∧
      (fn = 0 → s.boot.state ≠ 3 → exec .recexit s = .next (s.mailDone fn 4 []))) ∧
    ∀ (u : State) (status : Nat) (outs : List Word), let g := (u.mailDone fn status outs).fnAt fn
      g.mbStatus = status ∧ g.mbBusy = false ∧ g.mbDone = true ∧ g.mbSeq = (u.fnAt fn).mbSeq ∧
      ∀ k, smGet 0 g.mbOut k = if status = 0 then (outs[k]?).getD (smGet 0 (u.fnAt fn).mbOut k) else smGet 0 (u.fnAt fn).mbOut k

/-- R514 to R516, R520, R521: a monitor window takes its samples; a temperature or a rail beyond its trip level trips the device; else the
stretch level rises by one, falls by one or stays, and a window that begins to stretch queues an event.

R495, R496, R500: the end of a throttle window: DEFL, POOL and ALLOW from the window's counts, which start again.

R463, R465, R472, R513: a scrub pass leaves no word of HBM whose check bits fail, and inverts the bit that each corrected syndrome
names.

R471, R473 to R475: the loss of a stack. The device degrades, with a record; a stripe whose parity update was not complete loses its
line on the stack; after a second loss every line of a lost stack is poisoned. -/
def Obligations.MonitorsAndStacks : Prop :=
  (∀ (s : State), let d := s.ev.n
    let u := s.passTime d
    let x := (u.dieAt d).sample s.ev.list
    let hot (y : Die) := (List.range 32).any fun i => decide (y.hotAt ≤ (smGet 0 x.therm i).toInt) || decide ((smGet 0 x.volt i).toNat < x.railLow (i / 8))
    let calm (y : Die) := (List.range 32).all fun i => decide ((smGet 0 x.therm i).toInt < y.calmAt) && decide (x.railLow (i / 8) ≤ (smGet 0 x.volt i).toNat)
    let tripT := ∃ i < 32, (x.ttrip : Int) * 16 ≤ (smGet 0 x.therm i).toInt
    let level (y : Die) := if hot y then min (x.stretch + 1) 8 else if calm y then x.stretch - 1 else x.stretch
    s.boot.tripped = none →
    ((∀ i < 32, ∀ w, s.ev.list[i]? = some w → smGet 0 x.therm i = BitVec.ofNat 16 w) ∧ x.mtime = (u.dieAt d).time) ∧
    (tripT → ∃ i t, i < 32 ∧ (x.ttrip : Int) * 16 ≤ (smGet 0 x.therm i).toInt ∧ exec .monitorWindow s = .next t ∧ t.boot.tripped = some (d, i) ∧
      t.hostUp = false ∧ t.strands = [] ∧ t.tasks = [] ∧ t.mem = s.mem) ∧
    (¬ tripT → ∀ i, i < 32 → (smGet 0 x.volt i).toNat < (x.vrailAt (i / 8)).toNat / 2 ^ 16 % 2 ^ 16 → ∃ v t, v < 4 ∧ exec .monitorWindow s = .next t ∧
      t.boot.tripped = some (d, 0x80 + v) ∧ t.hostUp = false ∧ t.strands = []) ∧
    (x.trip = none → ∃ y k t, (y = x ∨ y = { x with thot := x.thotOld }) ∧ k = level y ∧ exec .monitorWindow s = .next t ∧
      (t.dieAt d) = { x with stretch := k, stretchWin := if k = 0 then x.stretchWin else (x.stretchWin + 1) % 2 ^ 32, thotOld := x.thot } ∧
      t.mem = s.mem ∧ t.strands = s.strands ∧
      t.boot = (if x.stretch = 0 ∧ k ≠ 0 then
          (if s.boot.events.length < 256 then { s.boot with events := s.boot.events ++ [BitVec.ofNat 64 (3 * 2 ^ 56 + d * 2 ^ 48 + 0xFF * 2 ^ 40 + k * 2 ^ 32 + x.mtime.toNat % 2 ^ 32)] }
           else { s.boot with evLost := s.boot.evLost + 1 })
        else s.boot))) ∧
  (∀ (s : State), let d := s.ev.n
    let x := s.dieAt d
    let t := x.throttle.toNat
    let defl := if x.depart = 0 then 0 else min 255 (256 * x.deflected / x.depart)
    let dlo := t / 2 ^ 8 % 256
    let dhi := t / 2 ^ 16 % 256
    let step := t / 2 ^ 24 % 256
    let amin := max 1 (t / 2 ^ 32 % 256)
    ∃ u, exec .throttleWindow s = .next u ∧
      u = s.setDie d { x with defl, pool := min 255 (256 * s.poolUsed d / 8192), allow := (u.dieAt d).allow, depart := 0, deflected := 0, injected := 0, shareUsed := [] } ∧
      (dhi < defl → (u.dieAt d).allow = max (x.allow / 2) amin) ∧
      (defl ≤ dhi → defl < dlo → (u.dieAt d).allow = min (x.allow + step) 255) ∧
      (defl ≤ dhi → dlo ≤ defl → (u.dieAt d).allow = x.allow)) ∧
  (∀ (s : State), s.boot.state = 2 → s.scrubPeriod ≠ 0 ∨ s.ev.status = 1 → s.poison = [] → s.lost = [] → s.l2inj = [] →
    ∃ t, exec .scrubPass s = .next t ∧ t.scrubPasses = (s.scrubPasses + 1) % 2 ^ 32 ∧ (∀ p ∈ t.memSyn, isHbm (p.1 * 8) = false) ∧
      (∀ p ∈ s.memSyn, isHbm (p.1 * 8) = false → p ∈ t.memSyn) ∧ t.strands = s.strands ∧
      ∀ g, g * 8 < 528000000000 → t.memNat (g * 8) 8 = match (smFind s.memSyn g).bind fun y => (secdedRead y.toNat).bind id with
        | some j => if (s.memNat (g * 8) 8).testBit j then s.memNat (g * 8) 8 - 2 ^ j else s.memNat (g * 8) 8 + 2 ^ j
        | none => s.memNat (g * 8) 8) ∧
  (∀ (s : State), let k := s.ev.n
    k < 12 → k ∉ s.lost → ∃ t, exec .stackLoss s = .next t ∧ t.lost = s.lost ++ [k] ∧ t.boot = { s.boot with degr := true } ∧
      t.stores = s.stores ∧ t.parity = [] ∧ (∀ p ∈ t.memSyn, isHbm (p.1 * 8) = true → stackOf (p.1 * 8) ≠ k) ∧ t.strands = s.strands ∧
      (s.lost = [] → ∀ x l, x ∈ s.parity → lineOn (stripeOf (x.line * 128)) k = some l → t.poisonOf l = some k) ∧
      (∀ l, s.lost = [] → (∀ x ∈ s.parity, lineOn (stripeOf (x.line * 128)) k ≠ some l) → smFind t.poison l = smFind s.poison l) ∧
      (s.lost ≠ [] → ∀ l, l * 128 < 528000000000 → smFind s.poison l = none → stackOf (l * 128) ∈ t.lost → t.poisonOf l = some (stackOf (l * 128))) ∧
      ∀ a, a < 0x10FFFFFF0000 → t.memByte a = s.memByte a)

/-- R11, R92, R433, R434, R435, R436, R438, R439, R441, R443: host writes. One that comes behind a write of its function that has not been made waits; a
poisoned one is counted and reported, one that the port does not support is refused, a register's becomes its row of the table, any other of BAR 0 is refused and counted, and bytes of device memory
take the enabled values.

R11, R93, R433, R435, R436, R439, R441: host reads. A read that is refused returns ones and is counted; a register's returns its value, with the
row that clears it where there is one; device memory returns its bytes, and CXL.mem may lend the line. -/
def Obligations.HostAccesses : Prop :=
  (∀ (s : State), let fn := s.mailFn
    let o := s.ev.n
    let f := s.fnAt fn
    let inTurn : Prop := s.ev.list ≠ [] ∨ s.hostWaits fn = false
    (s.hostUp = false → exec .hostWrite s = .next s) ∧
    (s.hostUp = true → s.ev.list = [] → s.hostWaits fn = true → ∃ t, exec .hostWrite s = .next t ∧
      t = { s with later := s.later ++ [(.hostWrite, { s.ev with list := [0] })], ev := { s.ev with list := [0] } }) ∧
    (s.hostUp = true → inTurn → s.ev.status = 1 → ∃ t, exec .hostWrite s = .next t ∧ (t.fnAt fn).poisoned = (if f.poisoned < 255 then f.poisoned + 1 else f.poisoned) ∧
      t.out = s.out ++ [.aer fn] ∧ t.mem = s.mem ∧ t.cores = s.cores) ∧
    (s.hostUp = true → inTurn → s.ev.status = 3 ∨ (s.ev.status ≠ 1 ∧ (512 < s.ev.data.length ∨ (s.ev.path = .cxlMem ∧ fn ≠ 0) ∨
      (s.ev.path = .bar2 ∧ 2 ^ (if fn = 0 then s.bar2Pf else s.bar2Vf) < o + s.ev.data.length))) → exec .hostWrite s = .next (s.countRefused fn)) ∧
    (s.hostUp = true → inTurn → s.ev.status ≠ 1 → s.supports o s.ev.data.length 512 = true →
      (s.ev.path = .config → s.ev.k = 0 → exec .hostWrite s = .next (s.modFn o ({ · with enabled := s.ev.v.getLsbD 0 }))) ∧
      (s.ev.path = .config → s.ev.k = 1 → exec .hostWrite s = .next { s with hdm := s.ev.v.getLsbD 0 }) ∧
      (s.ev.path = .config → s.ev.k = 2 → 30 ≤ s.ev.v.toNat → s.ev.v.toNat ≤ 40 →
        exec .hostWrite s = .next (if o = 0 then { s with bar2Pf := s.ev.v.toNat } else { s with bar2Vf := s.ev.v.toNat })) ∧
      (s.ev.path = .bar0 → fn = 0 → 0x1000000 ≤ o → o < 0x2000000 →
        exec .hostWrite s = .next { s with inbox := (.fwWinWrite, { s.ev with n := o - 0x1000000 }) :: s.inbox }) ∧
      (s.ev.path = .bar0 → ¬ (fn = 0 ∧ 0x1000000 ≤ o ∧ o < 0x2000000) →
        (∀ r (v : Word), s.hostReg fn o = some r → o % 8 = 0 → s.ev.data = (leBytes 8 v.toNat).map some →
          exec .hostWrite s = .next { s with inbox := s.regWrite fn r v ++ s.inbox }) ∧
        (s.hostReg fn o = none ∨ o % 8 ≠ 0 ∨ s.ev.data.length ≠ 8 ∨ none ∈ s.ev.data → exec .hostWrite s = .next (s.countRefused fn))) ∧
      (s.ev.path = .bar2 ∨ s.ev.path = .cxlMem → s.boot.state ≠ 2 → exec .hostWrite s = .next (s.countRefused fn)) ∧
      (s.boot.state = 2 → fn = 0 → s.plainMem →
        let wrote (t : State) (a : Nat) : Prop := ∀ b, t.memByte b =
          if a ≤ b ∧ b < a + s.ev.data.length then ((s.ev.data[b - a]?).getD none).getD (s.memByte b) else s.memByte b
        (∀ a, s.ev.path = .bar2 → a = f.bar2.toNat + o → a % 128 + s.ev.data.length ≤ 128 → isHbm a = true ∨ isLpddr a = true →
          ∃ t, exec .hostWrite s = .next t ∧ wrote t a ∧ t.strands = s.strands) ∧
        (∀ a, s.ev.path = .bar2 → a = f.bar2.toNat + o → isHbm a = false → isLpddr a = false → s.ev.data.head? ≠ none → none ∉ s.ev.data →
          exec .hostWrite s = .next (s.countRefused 0)) ∧
        (∀ a, s.ev.path = .cxlMem → s.cxl = true → s.cxlm.getLsbD 63 = true → a = s.cxlm.toNat % 2 ^ 14 * 2 ^ 28 + o →
          o < min (s.cxlm.toNat / 2 ^ 32 % 2 ^ 11) 1907 * 2 ^ 28 → isHbm a = true → a % 128 + s.ev.data.length ≤ 128 →
          ∃ t, exec .hostWrite s = .next t ∧ wrote t a ∧ t.strands = s.strands)))) ∧
  (∀ (s : State), let fn := s.mailFn
    let o := s.ev.n
    let n := s.ev.k
    let answer (u : State) (l : List Byte) : Host.Outcome State Fault Refusal := .next { u with out := u.out ++ [.hostData fn l] }
    let refused := answer (s.countRefused fn) (List.replicate n 0xFF)
    let hidden : Prop := fn = 0 ∧ 0x1000000 ≤ o ∧ o + n ≤ 0x2000000 ∧ s.boot.state = 0
    (s.hostUp = false → exec .hostRead s = .next s) ∧
    (s.hostUp = true → s.ev.list = [] → s.hostWaits fn = true → ∃ t, exec .hostRead s = .next t ∧ t.later.map (·.1) = s.later.map (·.1) ++ [.hostRead] ∧ t.mem = s.mem) ∧
    (s.ev.list = [] → s.hostWaits fn = false → s.hostUp = true → s.ev.status = 3 ∨ 4096 < n ∨ (s.ev.path = .cxlMem ∧ fn ≠ 0) ∨
      (s.ev.path = .bar2 ∧ 2 ^ (if fn = 0 then s.bar2Pf else s.bar2Vf) < o + n) → exec .hostRead s = refused) ∧
    (s.ev.list = [] → s.hostWaits fn = false → s.supports o n 4096 = true →
    (s.hostUp = true → s.ev.path = .bar0 → hidden → exec .hostRead s = answer s (List.replicate n 0)) ∧
    (s.hostUp = true → s.ev.path = .bar0 → ¬ hidden →
      (s.hostReg fn o = none ∨ n ≠ 8 ∨ o % 8 ≠ 0 → exec .hostRead s = refused) ∧
      (n = 8 → o % 8 = 0 → s.ev.agent = .host fn → ∀ r, s.hostReg fn o = some r →
        (∀ p, readRow fn r = some p → exec .hostRead s = .next { s with inbox := p :: s.inbox }) ∧
        (∀ q x w, r = .dev q x w → readRow fn r = none → exec .hostRead s = answer (s.devRead q).1 (leBytes 8 (s.devRead q).2.toNat)) ∧
        (∀ x, r = .port x → readRow fn r = none → exec .hostRead s = answer (s.portRead fn x).1 (leBytes 8 (s.portRead fn x).2.toNat)) ∧
        (∀ x v, r = .mail x → s.mailRead fn x = some v → exec .hostRead s = answer s (leBytes 8 v.toNat)))) ∧
    (s.hostUp = true → s.ev.path = .bar2 ∨ s.ev.path = .cxlMem → s.boot.state ≠ 2 → exec .hostRead s = refused) ∧
    (s.hostUp = true → s.boot.state = 2 → fn = 0 → s.plainMem → 1 ≤ n →
      (∀ a, s.ev.path = .bar2 → a = (s.fnAt 0).bar2.toNat + o → a % 128 + n ≤ 128 → isHbm a = true ∨ isLpddr a = true →
        exec .hostRead s = answer s (s.memBytes a n)) ∧
      (∀ a, s.ev.path = .cxlMem → s.ev.status ≠ 2 → s.cxl = true → s.cxlm.getLsbD 63 = true → a = s.cxlm.toNat % 2 ^ 14 * 2 ^ 28 + o →
        o < min (s.cxlm.toNat / 2 ^ 32 % 2 ^ 11) 1907 * 2 ^ 28 → isHbm a = true → a % 128 + n ≤ 128 →
        exec .hostRead s = answer { s with held := [a / 128] } (s.memBytes a n)))))

/-- R93, R440, R441, R443, R447, R455: what the host answers and asks of the port: completions and their failures, translations and lines
that it takes back, message vectors, and the reset of a VF with its queue. -/
def Obligations.HostAnswers : Prop :=
  ∀ (s : State), let n := s.ev.n
    (∀ (r : Req) (m : Nat) (b : Board), (s.reqs.find? fun q => q.id == n && q.toHost) = some r → r.owner = .strand m →
      (s.strandAt m).amo = none → (s.strandAt m).board = [b] → b.req = r.id →
      (∀ l : List Byte, s.ev.status = 0 → s.ev.data = l.map some → l.length = r.len → r.len ≤ 32 → b.size = r.len → ∃ t, exec .hostCompletion s = .next t ∧
        t.reqs = s.reqs.filter (·.id != r.id) ∧ (t.strandAt m).board = [{ b with req := 0, val := some (if r.len ≤ 8 then
          (loadVal b.sext l).setWidth 256 else BitVec.ofNat 256 (leNat l)) }] ∧ t.mem = s.mem) ∧
      ((s.strandAt m).fault = none → (s.strandAt m).queues = [] → s.clearBefore m b.seq b.rid → (s.strandAt m).late = [] → (s.strandAt m).now.trapped = false → (s.coreAt (coreOf m)).tvec ≠ 0 → r.toHost = true →
        let p : Pending := { cause := 7, info := BitVec.ofNat 64 (r.addr / r.len * r.len + b.addr.toNat % r.len), aux := 1, seq := b.seq, rid := b.rid }
        (∃ t, exec .completionTimeout s = .next t ∧ t.reqs = s.reqs.filter (·.id != r.id) ∧ TrapAt s t m p) ∧
        (s.ev.status ≠ 0 → ∃ t, exec .hostCompletion s = .next t ∧ t.reqs = s.reqs.filter (·.id != r.id) ∧ TrapAt s t m p))) ∧
    ((s.ev.status ≠ 1 → s.usersOf n = [] → exec .atsInvalidate s = .next { s with
        ats := s.ats.filter (· != n), out := s.out ++ [.atsDone n], ev := { s.ev with status := 1, list := [] } }) ∧
      (∀ i, s.ev.status ≠ 1 → i ∈ s.usersOf n → ∃ t, exec .atsInvalidate s = .next t ∧ t.out = s.out ∧ n ∉ t.ats ∧
        t.later.map (·.1) = s.later.map (·.1) ++ [.atsInvalidate])) ∧
    (let given : State := { s with held := s.held.filter (· != n), snooped := s.snooped.filter (· != n) }
     (s.ev.data = [] → exec .backInvalidateAnswer s = .next given) ∧
     (∀ l : List Byte, l.length = 128 → s.ev.data = l.map some → s.memSyn = [] → s.poison = [] → s.lost = [] → ∃ t, exec .backInvalidateAnswer s = .next t ∧
       t.held = given.held ∧ t.snooped = given.snooped ∧ t.strands = s.strands ∧
       ∀ a, t.memByte a = if n * 128 ≤ a ∧ a < n * 128 + 128 then (l[a - n * 128]?).getD 0 else s.memByte a)) ∧
    exec .cxlCacheSnoop s = .next { s with cxlCache := s.cxlCache.filter (· != n) } ∧
    (let f := s.fnAt n
     let bit : BitVec 32 := 1#32 <<< s.ev.k
     (s.ev.status = 1 → exec .msixVectorUnmask s = .next (s.modFn n fun f => { f with mask := f.mask ||| bit })) ∧
     (s.ev.status ≠ 1 → exec .msixVectorUnmask s = .next { s.modFn n (fun f => { f with mask := f.mask &&& ~~~bit, pending := f.pending &&& ~~~bit }) with
       out := s.out ++ (if f.pending.getLsbD s.ev.k then [.msix n s.ev.k] else []) }) ∧
     (f.vfmap.getLsbD 63 = false → exec .vfFlr s = .next (s.modFn n fun f => { vfmap := f.vfmap, enabled := f.enabled, flr := true })) ∧
     (f.vfmap.getLsbD 63 = true → ∃ t, exec .vfFlr s = .next t ∧ (t.fnAt n).flr = true ∧ (t.fnAt n).vfmap = f.vfmap ∧ (t.fnAt n).mask = BitVec.allOnes 32 ∧
       ∀ q, q < 8 → (s.lqAt q).state ≠ 0 → (s.lqAt q).tenant = f.vfmap.toNat % 256 → ((t.lqAt q).state = 0 ∨ ((t.lqAt q).state = 2 ∧ (t.lqAt q).cancel = true)) ∧
         ∀ id k, smFind s.tasks id = some k → k.origin = .queue q → k.state = .running → k.status = 0 → ∃ j, smFind t.tasks id = some j ∧ j.status = 2) ∧
     exec .vfFlrComplete s = .next (s.modFn n ({ · with flr := false })))

/-- R90, R91, R480, R481, R489, R490, R492, R498, R508: WRITE and WRITEM at their destination. Their bytes are written where the token
agrees; a message is acknowledged when every flit has come; a posted write waits for its predecessor; a refused flit is NAKed.

R192, R480, R481, R489, R498, R508: READ returns the bytes in flits of 256, or asks the host for those of host memory; ATOMIC works at
its home and returns the old value. -/
def Obligations.FabricAccesses : Prop :=
  (∀ (s : State), let d := s.ev.n
    let f := s.ev.flit
    let x := s.dieAt d
    let back (tc op : Nat) (l : List Byte) : Flit :=
      { tc, op, tenant := f.tenant, dnode := f.snode, ddie := f.sdie, snode := s.node, sdie := d, msgid := f.msgid, payload := l }
    let ack (credits : Nat) : Flit := back 1 0x21 (leBytes 8 0 ++ leBytes 8 credits)
    let nak (code : Nat) : Flit := back 2 0x40 (leBytes 32 f.header ++ [BitVec.ofNat 8 code])
    (s.duplicate d f = true → exec .write s = .next s) ∧
    (s.duplicate d f = false →
      (s.target (f.addr + 256 * f.fidx) = none → ∃ t, exec .write s = .next t ∧ (t.dieAt d).inject = x.inject ++ [nak 3] ∧ t.mem = s.mem) ∧
      (∀ a, s.target (f.addr + 256 * f.fidx) = some a → (∀ o, a ≠ .dev o) → s.tokenOk d f (s.targetOwner a) = false →
        ∃ t, exec .write s = .next t ∧ (t.dieAt d).inject = x.inject ++ [nak 2] ∧ (t.dieAt d).tokFail = min (x.tokFail + 1) (2 ^ 32 - 1) ∧ t.mem = s.mem ∧ t.cores = s.cores) ∧
      (∀ a, s.target (f.addr + 256 * f.fidx) = some (.mem a) → s.tokenOk d f (s.ownerOf a) = true → s.plainMem →
        let r := s.reasmFor d f
        ∃ t, exec .write s = .next t ∧
          (∀ b, t.memByte b = if a ≤ b ∧ b < a + f.payload.length then (f.payload[b - a]?).getD 0 else s.memByte b) ∧ t.cores = s.cores ∧ t.strands = s.strands ∧
          (t.dieAt d).inject = x.inject ++ (if r.bitmap ||| 2 ^ f.fidx = 2 ^ (r.flast + 1) - 1 ∧ r.bad = 0 then [ack (r.credits + (1 - f.rsv))] else []))) ∧
    (let l := (f.payload.take 128).zip (f.payload.drop 128)
     let key := f.snode * 2048 + f.sstr
     let ready := f.prev = f.lseq ∨ f.prev ∈ smGet [] x.streams key
     let after (t : State) (posts : List (Instr × Event)) : Prop := (t.dieAt d).inject = x.inject ++ [ack 0] ∧ f.lseq ∈ smGet [] (t.dieAt d).streams key ∧
       t.inbox = s.inbox ++ posts ++ (x.waiting.filter fun g => streamKey g == key && g.prev == f.lseq).map fun g => (.writem, { agent := .remote g.snode, n := d, flit := g })
     (s.target f.addr = none → ∃ t, exec .writem s = .next t ∧ (t.dieAt d).inject = x.inject ++ [nak 3] ∧ t.mem = s.mem) ∧
     (∀ a, s.target f.addr = some a → s.tokenOk d f (s.targetOwner a) = false → ∃ t, exec .writem s = .next t ∧ (t.dieAt d).inject = x.inject ++ [nak 2] ∧ t.mem = s.mem) ∧
     (∀ a, s.target f.addr = some a → s.tokenOk d f (s.targetOwner a) = true → ¬ ready →
       exec .writem s = .next (s.setDie d { x with waiting := x.waiting ++ [f] })) ∧
     (∀ c o, s.target f.addr = some (.spm c o) → s.tokenOk d f (s.tenantOf c) = true → ready → s.plainSpm c → f.payload.length = 256 →
       ∃ t, exec .writem s = .next t ∧ after t [] ∧ t.mem = s.mem ∧ (∀ k, k ≠ c → t.coreAt k = s.coreAt k) ∧ ∀ b, smGet 0 (t.coreAt c).spm b =
         if o ≤ b ∧ b < o + 128 then maskByte (smGet 0 (s.coreAt c).spm b) ((f.payload[b - o]?).getD 0) ((f.payload[b - o + 128]?).getD 0)
         else smGet 0 (s.coreAt c).spm b) ∧
     (∀ o v i r, s.target f.addr = some (.dev o) → s.tokenOk d f 0 = true → ready → lineReg o l = some (i, v) → devReg i = some r →
       ∃ t, exec .writem s = .next t ∧ after t (s.devWrites (.remote f.snode) 0 i r v) ∧ t.mem = s.mem))) ∧
  (∀ (s : State), let d := s.ev.n
    let f := s.ev.flit
    let x := s.dieAt d
    let back (tc op : Nat) (l : List (List Byte)) : List Flit := l.zipIdx.map fun p =>
      { tc, op, tenant := f.tenant, dnode := f.snode, ddie := f.sdie, snode := s.node, sdie := d, msgid := f.msgid, fidx := p.2, flast := l.length - 1, payload := p.1 }
    let nak (code : Nat) : List Flit := back 2 0x40 [leBytes 32 f.header ++ [BitVec.ofNat 8 code]]
    let n := leNat (f.payload.take 2)
    let sent (o : Host.Outcome State Fault Refusal) (l : List Flit) : Prop := ∃ t, o = .next t ∧ (t.dieAt d).inject = x.inject ++ l ∧ t.mem = s.mem ∧ t.cores = s.cores ∧ t.strands = s.strands
    (s.target f.addr = none → sent (exec .read s) (nak 3)) ∧
    (∀ a b, s.target f.addr = some a → s.target (f.addr + (n - 1)) = some b → 1 ≤ n → n ≤ 16384 →
      (s.tokenOk d f (s.targetOwner a) = false ∨ s.tokenOk d f (s.targetOwner b) = false → sent (exec .read s) (nak 2)) ∧
      (s.tokenOk d f (s.targetOwner a) = true → s.tokenOk d f (s.targetOwner b) = true →
        (∀ p, a = .mem p → s.plainMem → sent (exec .read s) (back 1 0x20 (chunksOf 256 (s.memBytes p n)))) ∧
        (∀ c o, a = .spm c o → s.plainSpm c → o + n ≤ 0x400000 → sent (exec .read s) (back 1 0x20 (chunksOf 256 (s.spmBytes c o n)))) ∧
        (∀ o r, a = .dev o → n = 8 → devReg o = some r → (s.devRead r).1 = s → sent (exec .read s) (back 1 0x20 [leBytes 8 (s.devRead r).2.toNat])) ∧
        (∀ p, a = .host p → ∃ t r, exec .read s = .next t ∧ t.reqs = s.reqs ++ [r] ∧ r.id = s.nextId ∧ r.toHost = true ∧ r.owner = .peer d f ∧ r.len = n ∧
          t.out = s.out ++ [.hostRead s.nextId (s.hostFnOf f.tenant) (f.addr % 2 ^ 46 - 0x200000000000) (s.pasidOf f.tenant) n]))) ∧
    (∀ c o, s.target f.addr = some (.spm c o) → s.plainSpm c → o + 8 ≤ 0x400000 → (s.coreAt c).inj = [] →
      let v : Word := BitVec.ofNat 64 (leNat ((f.payload.drop 8).take 8))
      let w : Word := BitVec.ofNat 64 (leNat ((f.payload.drop 16).take 8))
      let l := s.spmBytes c o 8
      let old : Word := BitVec.ofNat 64 (leNat l)
      f.payload.take 1 = [0x16] →
      (s.tokenOk d f (s.tenantOf c) = true → ∀ (k : Byte) (new : Option Word), (f.payload.drop 1).take 1 = [k] →
        (k = 0 ∧ new = some (old + v)) ∨ (k = 1 ∧ new = some (old &&& v)) ∨ (k = 2 ∧ new = some (old ||| v)) ∨ (k = 3 ∧ new = some (old ^^^ v)) ∨
          (k = 6 ∧ new = some v) ∨ (k = 7 ∧ new = if old = w then some v else none) →
        ∃ t, exec .atomic s = .next t ∧ (t.dieAt d).inject = x.inject ++ back 1 0x20 [l] ∧ t.mem = s.mem ∧ t.strands = s.strands ∧
          ∀ b, smGet 0 (t.coreAt c).spm b = if o ≤ b ∧ b < o + 8 then (match new with
            | some z => z.extractLsb' (8 * (b - o)) 8
            | none => smGet 0 (s.coreAt c).spm b) else smGet 0 (s.coreAt c).spm b) ∧
      (s.tokenOk d f (s.tenantOf c) = false → ∀ k : Byte, k.toNat < 8 → (f.payload.drop 1).take 1 = [k] → sent (exec .atomic s) (nak 2))))

/-- R331, R336, R339, R375, R377, R480, R493, R494: tensor messages, packets of collectives with their aborts and cancellations, and new
versions. -/
def Obligations.MessagesFromTheFabric : Prop :=
  ∀ (s : State), let d := s.ev.n
    let f := s.ev.flit
    let x := s.dieAt d
    let back (tc op : Nat) (l : List Byte) : Flit :=
      { tc, op, tenant := f.tenant, dnode := f.snode, ddie := f.sdie, snode := s.node, sdie := d, msgid := f.msgid, payload := l }
    let ack (app credits : Nat) : Flit := back 1 0x21 (leBytes 8 app ++ leBytes 8 credits)
    let nak (code : Nat) : Flit := back 2 0x40 (leBytes 32 f.header ++ [BitVec.ofNat 8 code])
    (s.tokenOk d f x.tenant = false → (∃ t, exec .coll s = .next t ∧ (t.dieAt d).inject = x.inject ++ [nak 2] ∧ (t.dieAt d).collIn = x.collIn)) ∧
    (s.tokenOk d f x.tenant = true →
      (f.packet.abort = false → ∃ t, exec .coll s = .next t ∧ (t.dieAt d).inject = x.inject ++ [ack 0 0] ∧ (t.dieAt d).collIn = x.collIn ++ [f.packet] ∧ t.mem = s.mem) ∧
      (f.packet.abort = true → ∃ t, exec .coll s = .next t ∧ (t.dieAt d).inject = x.inject ++ [ack 0 0] ∧ (t.dieAt d).collIn = x.collIn ∧
        t.inbox = s.inbox ++ [(.groupAbort, { n := d, k := f.packet.gid, status := 2, list := f.packet.hdr })])) ∧
    (∀ g, s.groupAt d s.ev.k = some g →
      let doomed (t : State) (status : Nat) : Prop := t.groupAt d s.ev.k = none ∧ t.mem = s.mem ∧ (∀ p ∈ (t.dieAt d).collIn, p.gid ≠ s.ev.k) ∧
        ∀ n e, dieOf (coreOf n) = d → e ∈ smGet [] (s.strandAt n).queues 3 → keGroup e = some s.ev.k → e.parts = [] → e.phase ≠ 5 →
          { e with parts := [(0, [status, g.list.length, g.rank])], waits := [] } ∈ smGet [] (t.strandAt n).queues 3
      (∃ t, exec .groupAbort s = .next t ∧ doomed t 2) ∧
      (∀ n, s.ev.agent = .strand n → ∃ t, exec .cancelGroup s = .next t ∧ doomed t 3 ∧
        smGet [] (t.strandAt n).inFifo 0x10 = (smGet [] (s.strandAt n).inFifo 0x10).drop 1 ∧
        ∀ m ∈ g.list, m ≠ (s.node, d) →
          (m.1 = s.node → (s.dieAt m.2).tenant = x.tenant → (.groupAbort, { n := m.2, k := s.ev.k, status := 2, list := [g.hash] }) ∈ t.inbox) ∧
          (m.1 ≠ s.node → ∃ h ∈ (t.dieAt d).inject, h.dnode = m.1 ∧ h.ddie = m.2 ∧ h.op = 6 ∧ h.packet.abort = true ∧ h.packet.gid = s.ev.k ∧ h.packet.hdr = [g.hash]))) ∧
    (s.groupAt d s.ev.k = none → ∃ t, exec .groupAbort s = .next t ∧ t.dies = s.dies ∧ t.mem = s.mem ∧
      ∀ n e, dieOf (coreOf n) = d → e ∈ smGet [] (s.strandAt n).queues 3 → keGroup e = some s.ev.k → e.parts = [] → e.phase ≠ 5 →
        { e with parts := [(0, [2, 0, 0])], waits := [] } ∈ smGet [] (t.strandAt n).queues 3) ∧
    (∀ n, s.ev.agent = .strand n → s.fifoFull (coreOf n) 0x13 = false →
      let core := coreOf n
      let id := s.ev.v.toNat / 2 ^ 32 % 256
      let ver := s.ev.v.toNat % 2 ^ 32
      let gives (t : State) (status : Nat) : Prop := (t.fifo core 0x13).map (·.v) = (s.fifo core 0x13).map (·.v) ++ [BitVec.ofNat 64 (4 * 2 ^ 60 + status * 2 ^ 56 + id * 2 ^ 48 + ver)] ∧
        smGet [] (t.strandAt n).inFifo 0x13 = (smGet [] (s.strandAt n).inFifo 0x13).drop 1
      (s.stageOn d (s.tenantOf core) id = none → ∃ t, exec .newver s = .next t ∧ gives t 6 ∧ t.dies = s.dies) ∧
      ∀ sel g, s.stageOn d (s.tenantOf core) id = some (sel, g) →
        let full := smFind g.vers ver = none ∧ 8 ≤ g.vers.length ∧ ∀ p ∈ g.vers, p.2 ≠ 0
        (full → ∃ t, exec .newver s = .next t ∧ gives t 4 ∧ t.dies = s.dies) ∧
        (¬ full → ∃ t h, exec .newver s = .next t ∧ gives t 0 ∧ smFind (t.dieAt d).stages sel = some h ∧ h = { g with cur := ver, vers := h.vers } ∧
          smFind h.vers ver = some (smGet 0 g.vers ver) ∧ (g.cur ≠ ver → smGet 0 g.vers g.cur = 0 → smFind h.vers g.cur = none) ∧
          ∀ k, k ≠ ver → k ≠ g.cur → smFind h.vers k = smFind g.vers k)) ∧
    (∀ m, TensorMsg.ofList f.more = some m → s.duplicate d f = false →
      (s.tokenOk d f x.tenant = false → ∃ t, exec .tensor s = .next t ∧ (t.dieAt d).inject = x.inject ++ [nak 2]) ∧
      (s.tokenOk d f x.tenant = true →
        (m.release = true → ∃ t, exec .tensor s = .next t ∧ (t.dieAt d).inject = x.inject ++ [ack 0 0] ∧ ∀ k sel g i, s.tensorEnd f.tenant m = some (k, sel, g, i) →
          ∃ h, smFind (t.dieAt k).stages sel = some h ∧ (smGet {} h.chans i).taken = (smGet {} g.chans i).taken.filter (· != m.slot)) ∧
        (m.release = false → s.tensorEnd f.tenant m = none → ∃ t, exec .tensor s = .next t ∧
          (t.dieAt d).inject = x.inject ++ [nak (if (m.node, m.image) ∈ s.closed then 4 else 5)]) ∧
        (∀ u k sel g i, m.release = false → s.tensorEnd f.tenant m = some (k, sel, g, i) → s.tensorPut (k * 48) m.sup (f.addr + 256 * f.fidx) f.payload = (u, some 0) →
          u.dies = s.dies → let r := s.reasmFor d f
          (r.bitmap ||| 2 ^ f.fidx ≠ 2 ^ (r.flast + 1) - 1 → ∃ t, exec .tensor s = .next t ∧ t.mem = u.mem ∧ (t.dieAt d).inject = x.inject ∧
            ∃ q ∈ (t.dieAt d).reasm, q.isOf f = true ∧ q.bitmap = r.bitmap ||| 2 ^ f.fidx) ∧
          (r.bitmap ||| 2 ^ f.fidx = 2 ^ (r.flast + 1) - 1 → r.bad = 0 → g.state = 1 → m.len ≤ m.part f.addr → (u.assemble d f 0).1.tensorEnd f.tenant m = some (k, sel, g, i) → (g.queue (if (g.chanEnd i).bq then 1 else 0)).length < 64 →
            ∃ t h app, exec .tensor s = .next t ∧ t.mem = u.mem ∧ app ≤ 1 ∧ (t.dieAt d).inject = x.inject ++ [ack app (r.credits + (1 - f.rsv))] ∧ smFind (t.dieAt k).stages sel = some h ∧
              m.slot ∈ (smGet {} h.chans i).filled ∧ h.queue (if (g.chanEnd i).bq then 1 else 0) = g.queue (if (g.chanEnd i).bq then 1 else 0) ++ [{ tag := m.tag, via := some (i, m.slot) }]))))

/-- R478, R501 to R504, R520, R529: keys, their switching, warning and end; ports that come into use and leave it; the flits that a link
sends again.

R479, R483 to R486, R501, R504: a router cycle. A flit for the die is taken in; any other leaves by its lowest free productive output,
or by the lowest free one, a cycle older; a new flit is placed in a free productive output. A flit that a link brings in order and
authentic comes to its input; any other is answered with an LNAK. -/
def Obligations.LinksAndRouters : Prop :=
  (∀ (s : State), let i := s.ev.k
    let p := s.portAt i
    let v := s.ev.v
    let set (q : Port) : Host.Outcome State Fault Refusal := .next { s with ports := smPut s.ports i q }
    let slot := if v.getLsbD 0 then 1 else 0
    let key : BitVec 256 := BitVec.ofNat 256 ((smGet 0 p.kdata 0).toNat + (smGet 0 p.kdata 1).toNat * 2 ^ 64 + (smGet 0 p.kdata 2).toNat * 2 ^ 128 + (smGet 0 p.kdata 3).toNat * 2 ^ 192)
    let other := 1 - p.txAct
    let kept (t : State) : Prop := (t.dieAt (i % 8)).handed = (s.dieAt (i % 8)).handed ++ (p.retry.map (·.2)).filter fun f => !(f.tc == 2 && (f.op == 0x41 || f.op == 0x42))
    let event (t : State) (kind : Nat) : Prop := s.boot.events.length < 256 → t.boot.events = s.boot.events ++
      [BitVec.ofNat 64 (kind * 2 ^ 56 + i % 8 * 2 ^ 48 + i * 2 ^ 40 + (s.dieAt (i % 8)).mtime.toNat % 2 ^ 32)]
    (p.loadIgnored v = true → ∃ t, exec .kload s = .next t ∧ t.portAt i = p) ∧
    (p.loadIgnored v = false → v.getLsbD 1 = true → exec .kload s = set { p with rxKey := smPut p.rxKey slot key, rxV := p.rxV ||| (1#2 <<< slot), rxic := smPut p.rxic slot 0 }) ∧
    (p.loadIgnored v = false → v.getLsbD 1 = false → exec .kload s = set { p with txKey := smPut p.txKey slot key, txV := p.txV ||| (1#2 <<< slot), txic := smPut p.txic slot 0 }) ∧
    (p.txV.getLsbD other = false → exec .lkctlSwitch s = .next s) ∧
    (p.txV.getLsbD other = true → ∃ t, exec .lkctlSwitch s = .next t ∧ (t.portAt i).txAct = other ∧ (t.portAt i).txV = p.txV &&& ~~~(1#2 <<< p.txAct) ∧
      t.out.length = s.out.length + (if p.inuse ∧ p.up then 1 else 0) ∧
      (p.inuse = true → p.up = true → ∃ w, t.out.getLast? = some (.flit i w { tc := 2, op := 0x41 }) ∧ (t.portAt i).retry = p.retry ++ [(p.lnseq, { tc := 2, op := 0x41 })])) ∧
    (v.getLsbD 0 = true → exec .lkctlInuse s = set { p with inuse := true }) ∧
    (v.getLsbD 0 = false → ∃ t, exec .lkctlInuse s = .next t ∧ (t.portAt i).inuse = false ∧ (t.portAt i).txKey = [] ∧ (t.portAt i).rxKey = [] ∧ (t.portAt i).txV = 0 ∧
      (t.portAt i).rxV = 0 ∧ (p.inuse = true → p.up = true → kept t ∧ (t.portAt i).retry = [] ∧ event t 5)) ∧
    (p.inuse = true → p.up = true → p.warned = false → 2 ^ 32 - 2 ^ 20 ≤ smGet 0 p.txic p.txAct → ∃ t, exec .keyWarn s = .next t ∧ event t 1 ∧
      (p.txV.getLsbD other = true → (t.portAt i).txAct = other) ∧ (p.txV.getLsbD other = false → t.portAt i = { p with warned := true })) ∧
    (p.inuse = true → p.up = true → 2 ^ 32 - 1 ≤ smGet 0 p.txic p.txAct → p.txV.getLsbD other = false → ∃ t, exec .keyExhausted s = .next t ∧
      (t.portAt i).up = false ∧ (t.portAt i).retry = [] ∧ kept t ∧ event t 2) ∧
    (p.inuse = true → p.up = true → ∃ t, exec .linkDown s = .next t ∧ (t.portAt i).up = false ∧ (t.portAt i).retry = [] ∧ kept t ∧ event t 5) ∧
    (p.up = true → exec .linkTrained s = .next s) ∧
    (p.up = false → ∃ t, exec .linkTrained s = .next t ∧ (t.portAt i).up = true ∧ (t.portAt i).lnaks = 0 ∧ (t.portAt i).retry = p.retry ∧
      ∃ ws : List Nat, ws.length = p.retry.length ∧ t.out = s.out ++ (p.retry.zip ws).map fun q => .flit i q.2 q.1.2) ∧
    (∀ q, s.portAt s.ev.n = q → exec .marker s = .next { s with ports := smPut s.ports s.ev.n { q with rxAct := 1 - q.rxAct, rxV := q.rxV &&& ~~~(1#2 <<< q.rxAct) } } ∧
      (15 ≤ q.lnaks → exec .lnak s = .next { s with ports := smPut s.ports s.ev.n { q with up := false, lnaks := 0 } }) ∧
      (q.lnaks < 15 → ∃ t ws, exec .lnak s = .next t ∧ (t.portAt s.ev.n).lnaks = q.lnaks + 1 ∧ (t.portAt s.ev.n).retry = q.retry ∧
        List.length ws = q.retry.length ∧ t.out = s.out ++ (q.retry.zip ws).map fun y => .flit s.ev.n y.2 y.1.2))) ∧
  (∀ (s : State) (d q : Nat) (f : Flit), let x := s.dieAt d
    let free (o : Nat) : Prop := o = 8 ∨ o = 9 ∨ (o < 8 ∧ (s.portAt (o * 8 + d)).free = true)
    let least (l : List Nat) (o : Nat) : Prop := o ∈ l ∧ free o ∧ ∀ k ∈ l, free k → o ≤ k
    let old : Flit := { f with age := min (f.age + 1) (2 ^ 32 - 1) }
    let gone (t : State) (o : Nat) (g : Flit) : Prop := (t.dieAt d).transit = [] ∧ (t.dieAt d).depart = x.depart + 1 ∧
      (o = 8 → (t.dieAt ((d + 1) % 8)).transit = smPut (s.dieAt ((d + 1) % 8)).transit 9 g) ∧
      (o = 9 → (t.dieAt ((d + 7) % 8)).transit = smPut (s.dieAt ((d + 7) % 8)).transit 8 g) ∧
      (o < 8 → ∃ w, t.out = s.out ++ [.flit (o * 8 + d) w g] ∧ (t.portAt (o * 8 + d)).retry = (s.portAt (o * 8 + d)).retry ++ [((s.portAt (o * 8 + d)).lnseq, g)])
    d < 8 → (∀ p ∈ s.dies, p.2.moving = true → p.1 = d) → x.handed = [] →
    (s.ev.status = 0 → x.transit = [(q, f)] → x.inject = [] → f.tc ≠ 3 →
      (∀ i, f.dnode = s.node → f.ddie = d → flitRow f = some i → f.tc ≠ 0 ∨ (s.savedFor d f = false ∧ s.accepts d f = true) → ∃ t, exec .routerCycle s = .next t ∧
        t.inbox = s.inbox ++ [(i, { agent := .remote f.snode, n := d, flit := f })] ∧ (t.dieAt d).transit = [] ∧ t.out = s.out ∧ t.mem = s.mem) ∧
      (f.dnode ≠ s.node ∨ f.ddie ≠ d →
        (∀ o, least (productive s.node d f) o → ∃ t, exec .routerCycle s = .next t ∧ gone t o old ∧ (t.dieAt d).deflected = x.deflected) ∧
        (∀ o, (∀ k ∈ productive s.node d f, ¬ free k) → least (List.range 10) o → ∃ t, exec .routerCycle s = .next t ∧ gone t o old ∧ (t.dieAt d).deflected = x.deflected + 1))) ∧
    (s.ev.status = 0 → x.transit = [] → x.inject = [f] → s.mayInject d f = true → ∀ o, least (s.shareOutputs d f) o → ∃ t, exec .routerCycle s = .next t ∧ gone t o f ∧
      (t.dieAt d).inject = [] ∧ (t.dieAt d).inFlight = x.inFlight + (if f.tc = 0 then 1 else 0) ∧ (t.dieAt d).injected = x.injected + (if f.tc = 0 then 1 else 0)) ∧
    (s.ev.status ≠ 0 → let i := s.ev.k
      let p := s.portAt i
      let g := s.ev.flit
      let w := s.ev.v.toNat
      let good := s.ev.status = 1 ∧ p.rxV.getLsbD (w / 2 ^ 7 % 2) = true ∧ w / 2 ^ 20 % 2 ^ 12 = (p.lnack + 1) % 4096 ∧ smGet 0 p.rxic (w / 2 ^ 7 % 2) ≤ w / 2 ^ 32 % 2 ^ 32
      p.inuse = true → p.up = true → smFind (s.dieAt (i % 8)).transit (i / 8) = none →
      (good → g.linkLocal = false → ∃ t, exec .routerCycle s = .next t ∧ (t.dieAt (i % 8)).transit = smPut (s.dieAt (i % 8)).transit (i / 8) g ∧
        (t.portAt i).lnack = w / 2 ^ 20 % 2 ^ 12 ∧ smGet 0 (t.portAt i).rxic (w / 2 ^ 7 % 2) = w / 2 ^ 32 % 2 ^ 32 + 1 ∧ t.out = s.out) ∧
      (good → g.linkLocal = true → ∃ t, exec .routerCycle s = .next t ∧ t.inbox = s.inbox ++ [(if g.op = 0x41 then .marker else .lnak, { n := i, flit := g })] ∧ t.dies = s.dies) ∧
      (¬ good → ∃ t, exec .routerCycle s = .next t ∧ t.dies = s.dies ∧ (t.portAt i).afail = min (p.afail + 1) 65535 ∧ (t.portAt i).lnack = p.lnack ∧
        ∃ w, t.out = s.out ++ [.flit i w { tc := 2, op := 0x42 }])))
end

