-- ==== Sys2Proof/Laws/Dispatch.lean ====
section
/-!
SUPPORT. The meaning that exec calls, instruction by instruction.
-/
namespace Sys2Proof.Machine

section
variable (s : State)

@[simp] theorem exec_add (d : BitVec 6) (a : BitVec 6) (b : BitVec 6) (w : BitVec 1) : exec (.add d a b w) s = execAdd d a b w s := rfl
@[simp] theorem exec_sub (d : BitVec 6) (a : BitVec 6) (b : BitVec 6) (w : BitVec 1) : exec (.sub d a b w) s = execSub d a b w s := rfl
@[simp] theorem exec_and (d : BitVec 6) (a : BitVec 6) (b : BitVec 6) (w : BitVec 1) : exec (.and d a b w) s = execAnd d a b w s := rfl
@[simp] theorem exec_or (d : BitVec 6) (a : BitVec 6) (b : BitVec 6) (w : BitVec 1) : exec (.or d a b w) s = execOr d a b w s := rfl
@[simp] theorem exec_xor (d : BitVec 6) (a : BitVec 6) (b : BitVec 6) (w : BitVec 1) : exec (.xor d a b w) s = execXor d a b w s := rfl
@[simp] theorem exec_andn (d : BitVec 6) (a : BitVec 6) (b : BitVec 6) (w : BitVec 1) : exec (.andn d a b w) s = execAndn d a b w s := rfl
@[simp] theorem exec_sll (d : BitVec 6) (a : BitVec 6) (b : BitVec 6) (w : BitVec 1) : exec (.sll d a b w) s = execSll d a b w s := rfl
@[simp] theorem exec_srl (d : BitVec 6) (a : BitVec 6) (b : BitVec 6) (w : BitVec 1) : exec (.srl d a b w) s = execSrl d a b w s := rfl
@[simp] theorem exec_sra (d : BitVec 6) (a : BitVec 6) (b : BitVec 6) (w : BitVec 1) : exec (.sra d a b w) s = execSra d a b w s := rfl
@[simp] theorem exec_mul (d : BitVec 6) (a : BitVec 6) (b : BitVec 6) (w : BitVec 1) : exec (.mul d a b w) s = execMul d a b w s := rfl
@[simp] theorem exec_mulhs (d : BitVec 6) (a : BitVec 6) (b : BitVec 6) (w : BitVec 1) : exec (.mulhs d a b w) s = execMulhs d a b w s := rfl
@[simp] theorem exec_mulhu (d : BitVec 6) (a : BitVec 6) (b : BitVec 6) (w : BitVec 1) : exec (.mulhu d a b w) s = execMulhu d a b w s := rfl
@[simp] theorem exec_divs (d : BitVec 6) (a : BitVec 6) (b : BitVec 6) (w : BitVec 1) : exec (.divs d a b w) s = execDivs d a b w s := rfl
@[simp] theorem exec_divu (d : BitVec 6) (a : BitVec 6) (b : BitVec 6) (w : BitVec 1) : exec (.divu d a b w) s = execDivu d a b w s := rfl
@[simp] theorem exec_rems (d : BitVec 6) (a : BitVec 6) (b : BitVec 6) (w : BitVec 1) : exec (.rems d a b w) s = execRems d a b w s := rfl
@[simp] theorem exec_remu (d : BitVec 6) (a : BitVec 6) (b : BitVec 6) (w : BitVec 1) : exec (.remu d a b w) s = execRemu d a b w s := rfl
@[simp] theorem exec_min (d : BitVec 6) (a : BitVec 6) (b : BitVec 6) (w : BitVec 1) : exec (.min d a b w) s = execMin d a b w s := rfl
@[simp] theorem exec_minu (d : BitVec 6) (a : BitVec 6) (b : BitVec 6) (w : BitVec 1) : exec (.minu d a b w) s = execMinu d a b w s := rfl
@[simp] theorem exec_max (d : BitVec 6) (a : BitVec 6) (b : BitVec 6) (w : BitVec 1) : exec (.max d a b w) s = execMax d a b w s := rfl
@[simp] theorem exec_maxu (d : BitVec 6) (a : BitVec 6) (b : BitVec 6) (w : BitVec 1) : exec (.maxu d a b w) s = execMaxu d a b w s := rfl
@[simp] theorem exec_slt (d : BitVec 6) (a : BitVec 6) (b : BitVec 6) (w : BitVec 1) : exec (.slt d a b w) s = execSlt d a b w s := rfl
@[simp] theorem exec_sltu (d : BitVec 6) (a : BitVec 6) (b : BitVec 6) (w : BitVec 1) : exec (.sltu d a b w) s = execSltu d a b w s := rfl
@[simp] theorem exec_clz (d : BitVec 6) (a : BitVec 6) (w : BitVec 1) : exec (.clz d a w) s = execClz d a w s := rfl
@[simp] theorem exec_ctz (d : BitVec 6) (a : BitVec 6) (w : BitVec 1) : exec (.ctz d a w) s = execCtz d a w s := rfl
@[simp] theorem exec_popc (d : BitVec 6) (a : BitVec 6) (w : BitVec 1) : exec (.popc d a w) s = execPopc d a w s := rfl
@[simp] theorem exec_brev (d : BitVec 6) (a : BitVec 6) (w : BitVec 1) : exec (.brev d a w) s = execBrev d a w s := rfl
@[simp] theorem exec_sext (d : BitVec 6) (a : BitVec 6) (b : BitVec 6) (w : BitVec 1) : exec (.sext d a b w) s = execSext d a b w s := rfl
@[simp] theorem exec_zext (d : BitVec 6) (a : BitVec 6) (b : BitVec 6) (w : BitVec 1) : exec (.zext d a b w) s = execZext d a b w s := rfl
@[simp] theorem exec_addi (d : BitVec 6) (a : BitVec 6) (im : BitVec 14) : exec (.addi d a im) s = execAddi d a im s := rfl
@[simp] theorem exec_andi (d : BitVec 6) (a : BitVec 6) (im : BitVec 14) : exec (.andi d a im) s = execAndi d a im s := rfl
@[simp] theorem exec_ori (d : BitVec 6) (a : BitVec 6) (im : BitVec 14) : exec (.ori d a im) s = execOri d a im s := rfl
@[simp] theorem exec_xori (d : BitVec 6) (a : BitVec 6) (im : BitVec 14) : exec (.xori d a im) s = execXori d a im s := rfl
@[simp] theorem exec_muli (d : BitVec 6) (a : BitVec 6) (im : BitVec 14) : exec (.muli d a im) s = execMuli d a im s := rfl
@[simp] theorem exec_slli (d : BitVec 6) (a : BitVec 6) (w : BitVec 1) (s1 : BitVec 6) : exec (.slli d a w s1) s = execSlli d a w s1 s := rfl
@[simp] theorem exec_srli (d : BitVec 6) (a : BitVec 6) (w : BitVec 1) (s1 : BitVec 6) : exec (.srli d a w s1) s = execSrli d a w s1 s := rfl
@[simp] theorem exec_srai (d : BitVec 6) (a : BitVec 6) (w : BitVec 1) (s1 : BitVec 6) : exec (.srai d a w s1) s = execSrai d a w s1 s := rfl
@[simp] theorem exec_lui (d : BitVec 6) (im : BitVec 20) : exec (.lui d im) s = execLui d im s := rfl
@[simp] theorem exec_auipc (d : BitVec 6) (im : BitVec 20) : exec (.auipc d im) s = execAuipc d im s := rfl
@[simp] theorem exec_bext (d : BitVec 6) (a : BitVec 6) (o : BitVec 6) (w : BitVec 6) (s1 : BitVec 1) : exec (.bext d a o w s1) s = execBext d a o w s1 s := rfl
@[simp] theorem exec_bins (d : BitVec 6) (a : BitVec 6) (o : BitVec 6) (w : BitVec 6) : exec (.bins d a o w) s = execBins d a o w s := rfl
@[simp] theorem exec_bextr (d : BitVec 6) (a : BitVec 6) (b : BitVec 6) (s1 : BitVec 1) : exec (.bextr d a b s1) s = execBextr d a b s1 s := rfl
@[simp] theorem exec_binsr (d : BitVec 6) (a : BitVec 6) (b : BitVec 6) : exec (.binsr d a b) s = execBinsr d a b s := rfl
@[simp] theorem exec_sel (d : BitVec 6) (a : BitVec 6) (b : BitVec 6) (g : BitVec 4) : exec (.sel d a b g) s = execSel d a b g s := rfl
@[simp] theorem exec_ld (d : BitVec 6) (a : BitVec 6) (im : BitVec 10) (z : BitVec 2) (h : BitVec 2) : exec (.ld d a im z h) s = execLd d a im z h s := rfl
@[simp] theorem exec_lds (d : BitVec 6) (a : BitVec 6) (im : BitVec 10) (z : BitVec 2) (h : BitVec 2) : exec (.lds d a im z h) s = execLds d a im z h s := rfl
@[simp] theorem exec_st (s1 : BitVec 6) (a : BitVec 6) (im : BitVec 10) (z : BitVec 2) : exec (.st s1 a im z) s = execSt s1 a im z s := rfl
@[simp] theorem exec_ldx (d : BitVec 6) (a : BitVec 6) (x : BitVec 14) : exec (.ldx d a x) s = execLdx d a x s := rfl
@[simp] theorem exec_stx (s1 : BitVec 6) (a : BitVec 6) (x : BitVec 14) : exec (.stx s1 a x) s = execStx s1 a x s := rfl
@[simp] theorem exec_prf (a : BitVec 6) (im : BitVec 10) (h : BitVec 2) : exec (.prf a im h) s = execPrf a im h s := rfl
@[simp] theorem exec_amoAdd (d : BitVec 6) (a : BitVec 6) (b : BitVec 6) (s1 : BitVec 3) (o : BitVec 2) : exec (.amoAdd d a b s1 o) s = execAmoAdd d a b s1 o s := rfl
@[simp] theorem exec_amoAnd (d : BitVec 6) (a : BitVec 6) (b : BitVec 6) (s1 : BitVec 3) (o : BitVec 2) : exec (.amoAnd d a b s1 o) s = execAmoAnd d a b s1 o s := rfl
@[simp] theorem exec_amoOr (d : BitVec 6) (a : BitVec 6) (b : BitVec 6) (s1 : BitVec 3) (o : BitVec 2) : exec (.amoOr d a b s1 o) s = execAmoOr d a b s1 o s := rfl
@[simp] theorem exec_amoXor (d : BitVec 6) (a : BitVec 6) (b : BitVec 6) (s1 : BitVec 3) (o : BitVec 2) : exec (.amoXor d a b s1 o) s = execAmoXor d a b s1 o s := rfl
@[simp] theorem exec_amoMin (d : BitVec 6) (a : BitVec 6) (b : BitVec 6) (s1 : BitVec 3) (o : BitVec 2) : exec (.amoMin d a b s1 o) s = execAmoMin d a b s1 o s := rfl
@[simp] theorem exec_amoMax (d : BitVec 6) (a : BitVec 6) (b : BitVec 6) (s1 : BitVec 3) (o : BitVec 2) : exec (.amoMax d a b s1 o) s = execAmoMax d a b s1 o s := rfl
@[simp] theorem exec_amoSwap (d : BitVec 6) (a : BitVec 6) (b : BitVec 6) (s1 : BitVec 3) (o : BitVec 2) : exec (.amoSwap d a b s1 o) s = execAmoSwap d a b s1 o s := rfl
@[simp] theorem exec_amoCas (d : BitVec 6) (a : BitVec 6) (b : BitVec 6) (s1 : BitVec 3) (o : BitVec 2) : exec (.amoCas d a b s1 o) s = execAmoCas d a b s1 o s := rfl
@[simp] theorem exec_amofFaddF32 (d : BitVec 6) (a : BitVec 6) (b : BitVec 6) (s1 : BitVec 3) (o : BitVec 2) : exec (.amofFaddF32 d a b s1 o) s = execAmofFaddF32 d a b s1 o s := rfl
@[simp] theorem exec_amofFaddBf16x2 (d : BitVec 6) (a : BitVec 6) (b : BitVec 6) (s1 : BitVec 3) (o : BitVec 2) : exec (.amofFaddBf16x2 d a b s1 o) s = execAmofFaddBf16x2 d a b s1 o s := rfl
@[simp] theorem exec_amofFminF32 (d : BitVec 6) (a : BitVec 6) (b : BitVec 6) (s1 : BitVec 3) (o : BitVec 2) : exec (.amofFminF32 d a b s1 o) s = execAmofFminF32 d a b s1 o s := rfl
@[simp] theorem exec_amofFmaxF32 (d : BitVec 6) (a : BitVec 6) (b : BitVec 6) (s1 : BitVec 3) (o : BitVec 2) : exec (.amofFmaxF32 d a b s1 o) s = execAmofFmaxF32 d a b s1 o s := rfl
@[simp] theorem exec_cmpEq (g : BitVec 3) (a : BitVec 6) (b : BitVec 6) (w : BitVec 1) : exec (.cmpEq g a b w) s = execCmpEq g a b w s := rfl
@[simp] theorem exec_cmpNe (g : BitVec 3) (a : BitVec 6) (b : BitVec 6) (w : BitVec 1) : exec (.cmpNe g a b w) s = execCmpNe g a b w s := rfl
@[simp] theorem exec_cmpLt (g : BitVec 3) (a : BitVec 6) (b : BitVec 6) (w : BitVec 1) : exec (.cmpLt g a b w) s = execCmpLt g a b w s := rfl
@[simp] theorem exec_cmpGe (g : BitVec 3) (a : BitVec 6) (b : BitVec 6) (w : BitVec 1) : exec (.cmpGe g a b w) s = execCmpGe g a b w s := rfl
@[simp] theorem exec_cmpLtu (g : BitVec 3) (a : BitVec 6) (b : BitVec 6) (w : BitVec 1) : exec (.cmpLtu g a b w) s = execCmpLtu g a b w s := rfl
@[simp] theorem exec_cmpGeu (g : BitVec 3) (a : BitVec 6) (b : BitVec 6) (w : BitVec 1) : exec (.cmpGeu g a b w) s = execCmpGeu g a b w s := rfl
@[simp] theorem exec_cmpTst (g : BitVec 3) (a : BitVec 6) (b : BitVec 6) (w : BitVec 1) : exec (.cmpTst g a b w) s = execCmpTst g a b w s := rfl
@[simp] theorem exec_cmpNtst (g : BitVec 3) (a : BitVec 6) (b : BitVec 6) (w : BitVec 1) : exec (.cmpNtst g a b w) s = execCmpNtst g a b w s := rfl
@[simp] theorem exec_cmpiEq (g : BitVec 3) (a : BitVec 6) (im : BitVec 14) : exec (.cmpiEq g a im) s = execCmpiEq g a im s := rfl
@[simp] theorem exec_cmpiNe (g : BitVec 3) (a : BitVec 6) (im : BitVec 14) : exec (.cmpiNe g a im) s = execCmpiNe g a im s := rfl
@[simp] theorem exec_cmpiLt (g : BitVec 3) (a : BitVec 6) (im : BitVec 14) : exec (.cmpiLt g a im) s = execCmpiLt g a im s := rfl
@[simp] theorem exec_cmpiGe (g : BitVec 3) (a : BitVec 6) (im : BitVec 14) : exec (.cmpiGe g a im) s = execCmpiGe g a im s := rfl
@[simp] theorem exec_cmpiLtu (g : BitVec 3) (a : BitVec 6) (im : BitVec 14) : exec (.cmpiLtu g a im) s = execCmpiLtu g a im s := rfl
@[simp] theorem exec_cmpiGeu (g : BitVec 3) (a : BitVec 6) (im : BitVec 14) : exec (.cmpiGeu g a im) s = execCmpiGeu g a im s := rfl
@[simp] theorem exec_cmpiTst (g : BitVec 3) (a : BitVec 6) (im : BitVec 14) : exec (.cmpiTst g a im) s = execCmpiTst g a im s := rfl
@[simp] theorem exec_cmpiNtst (g : BitVec 3) (a : BitVec 6) (im : BitVec 14) : exec (.cmpiNtst g a im) s = execCmpiNtst g a im s := rfl
@[simp] theorem exec_gopAnd (g : BitVec 3) (x : BitVec 4) (y : BitVec 4) : exec (.gopAnd g x y) s = execGopAnd g x y s := rfl
@[simp] theorem exec_gopOr (g : BitVec 3) (x : BitVec 4) (y : BitVec 4) : exec (.gopOr g x y) s = execGopOr g x y s := rfl
@[simp] theorem exec_gopXor (g : BitVec 3) (x : BitVec 4) (y : BitVec 4) : exec (.gopXor g x y) s = execGopXor g x y s := rfl
@[simp] theorem exec_gopAndn (g : BitVec 3) (x : BitVec 4) (y : BitVec 4) : exec (.gopAndn g x y) s = execGopAndn g x y s := rfl
@[simp] theorem exec_fcmpFeq (g : BitVec 3) (a : BitVec 6) (b : BitVec 6) (w : BitVec 1) : exec (.fcmpFeq g a b w) s = execFcmpFeq g a b w s := rfl
@[simp] theorem exec_fcmpFlt (g : BitVec 3) (a : BitVec 6) (b : BitVec 6) (w : BitVec 1) : exec (.fcmpFlt g a b w) s = execFcmpFlt g a b w s := rfl
@[simp] theorem exec_fcmpFle (g : BitVec 3) (a : BitVec 6) (b : BitVec 6) (w : BitVec 1) : exec (.fcmpFle g a b w) s = execFcmpFle g a b w s := rfl
@[simp] theorem exec_fcmpFun (g : BitVec 3) (a : BitVec 6) (b : BitVec 6) (w : BitVec 1) : exec (.fcmpFun g a b w) s = execFcmpFun g a b w s := rfl
@[simp] theorem exec_pbr (t : BitVec 2) (o : BitVec 24) : exec (.pbr t o) s = execPbr t o s := rfl
@[simp] theorem exec_br (t : BitVec 2) (g : BitVec 4) : exec (.br t g) s = execBr t g s := rfl
@[simp] theorem exec_brl (t : BitVec 2) (g : BitVec 4) : exec (.brl t g) s = execBrl t g s := rfl
@[simp] theorem exec_mtbt (t : BitVec 2) (a : BitVec 6) : exec (.mtbt t a) s = execMtbt t a s := rfl
@[simp] theorem exec_loop (t : BitVec 2) (c : BitVec 2) : exec (.loop t c) s = execLoop t c s := rfl
@[simp] theorem exec_lset (c : BitVec 2) (a : BitVec 6) : exec (.lset c a) s = execLset c a s := rfl
@[simp] theorem exec_trap (c : BitVec 14) : exec (.trap c) s = execTrap c s := rfl
@[simp] theorem exec_fadd (d : BitVec 6) (a : BitVec 6) (b : BitVec 6) (r : BitVec 3) (x : BitVec 1) : exec (.fadd d a b r x) s = execFadd d a b r x s := rfl
@[simp] theorem exec_fsub (d : BitVec 6) (a : BitVec 6) (b : BitVec 6) (r : BitVec 3) (x : BitVec 1) : exec (.fsub d a b r x) s = execFsub d a b r x s := rfl
@[simp] theorem exec_fmul (d : BitVec 6) (a : BitVec 6) (b : BitVec 6) (r : BitVec 3) (x : BitVec 1) : exec (.fmul d a b r x) s = execFmul d a b r x s := rfl
@[simp] theorem exec_fdiv (d : BitVec 6) (a : BitVec 6) (b : BitVec 6) (r : BitVec 3) (x : BitVec 1) : exec (.fdiv d a b r x) s = execFdiv d a b r x s := rfl
@[simp] theorem exec_fsqrt (d : BitVec 6) (a : BitVec 6) (r : BitVec 3) (x : BitVec 1) : exec (.fsqrt d a r x) s = execFsqrt d a r x s := rfl
@[simp] theorem exec_fmin (d : BitVec 6) (a : BitVec 6) (b : BitVec 6) (x : BitVec 1) : exec (.fmin d a b x) s = execFmin d a b x s := rfl
@[simp] theorem exec_fmax (d : BitVec 6) (a : BitVec 6) (b : BitVec 6) (x : BitVec 1) : exec (.fmax d a b x) s = execFmax d a b x s := rfl
@[simp] theorem exec_fabs (d : BitVec 6) (a : BitVec 6) (x : BitVec 1) : exec (.fabs d a x) s = execFabs d a x s := rfl
@[simp] theorem exec_fneg (d : BitVec 6) (a : BitVec 6) (x : BitVec 1) : exec (.fneg d a x) s = execFneg d a x s := rfl
@[simp] theorem exec_fsgnj (d : BitVec 6) (a : BitVec 6) (b : BitVec 6) (x : BitVec 1) : exec (.fsgnj d a b x) s = execFsgnj d a b x s := rfl
@[simp] theorem exec_fclass (d : BitVec 6) (a : BitVec 6) (x : BitVec 1) : exec (.fclass d a x) s = execFclass d a x s := rfl
@[simp] theorem exec_fma (d : BitVec 6) (a : BitVec 6) (b : BitVec 6) (c : BitVec 6) : exec (.fma d a b c) s = execFma d a b c s := rfl
@[simp] theorem exec_fms (d : BitVec 6) (a : BitVec 6) (b : BitVec 6) (c : BitVec 6) : exec (.fms d a b c) s = execFms d a b c s := rfl
@[simp] theorem exec_fnma (d : BitVec 6) (a : BitVec 6) (b : BitVec 6) (c : BitVec 6) : exec (.fnma d a b c) s = execFnma d a b c s := rfl
@[simp] theorem exec_fnms (d : BitVec 6) (a : BitVec 6) (b : BitVec 6) (c : BitVec 6) : exec (.fnms d a b c) s = execFnms d a b c s := rfl
@[simp] theorem exec_fcvt (d : BitVec 6) (a : BitVec 6) (s1 : BitVec 3) (t : BitVec 3) (r : BitVec 3) (x : BitVec 1) : exec (.fcvt d a s1 t r x) s = execFcvt d a s1 t r x s := rfl
@[simp] theorem exec_mfs (d : BitVec 6) (im : BitVec 14) : exec (.mfs d im) s = execMfs d im s := rfl
@[simp] theorem exec_mts (a : BitVec 6) (im : BitVec 14) : exec (.mts a im) s = execMts a im s := rfl
@[simp] theorem exec_acq (d : BitVec 6) (a : BitVec 6) (b : BitVec 6) (s1 : BitVec 3) : exec (.acq d a b s1) s = execAcq d a b s1 s := rfl
@[simp] theorem exec_rel (d : BitVec 6) (a : BitVec 6) (b : BitVec 6) (s1 : BitVec 3) : exec (.rel d a b s1) s = execRel d a b s1 s := rfl
@[simp] theorem exec_arv (d : BitVec 6) (a : BitVec 6) (b : BitVec 6) (s1 : BitVec 3) : exec (.arv d a b s1) s = execArv d a b s1 s := rfl
@[simp] theorem exec_waitb (d : BitVec 6) (a : BitVec 6) (b : BitVec 6) (s1 : BitVec 3) : exec (.waitb d a b s1) s = execWaitb d a b s1 s := rfl
@[simp] theorem exec_bind (d : BitVec 6) (a : BitVec 6) (b : BitVec 6) (s1 : BitVec 3) : exec (.bind d a b s1) s = execBind d a b s1 s := rfl
@[simp] theorem exec_unbind (d : BitVec 6) (a : BitVec 6) (b : BitVec 6) (s1 : BitVec 3) : exec (.unbind d a b s1) s = execUnbind d a b s1 s := rfl
@[simp] theorem exec_fence (s1 : BitVec 3) : exec (.fence s1) s = execFence s1 s := rfl
@[simp] theorem exec_drain (p : BitVec 3) : exec (.drain p) s = execDrain p s := rfl
@[simp] theorem exec_setf (a : BitVec 6) (f : BitVec 5) (im : BitVec 1) (v : BitVec 6) : exec (.setf a f im v) s = execSetf a f im v s := rfl
@[simp] theorem exec_addf (a : BitVec 6) (f : BitVec 5) (im : BitVec 1) (v : BitVec 6) : exec (.addf a f im v) s = execAddf a f im v s := rfl
@[simp] theorem exec_getf (d : BitVec 6) (f : BitVec 5) : exec (.getf d f) s = execGetf d f s := rfl
@[simp] theorem exec_epop (d : BitVec 6) (p : BitVec 6) : exec (.epop d p) s = execEpop d p s := rfl
@[simp] theorem exec_epopt (d : BitVec 6) (p : BitVec 6) : exec (.epopt d p) s = execEpopt d p s := rfl
@[simp] theorem exec_epush (a : BitVec 6) (p : BitVec 6) : exec (.epush a p) s = execEpush a p s := rfl
@[simp] theorem exec_tdld (d : BitVec 6) (a : BitVec 6) (t : BitVec 6) : exec (.tdld d a t) s = execTdld d a t s := rfl
@[simp] theorem exec_tdst (d : BitVec 6) (a : BitVec 6) (t : BitVec 6) : exec (.tdst d a t) s = execTdst d a t s := rfl
@[simp] theorem exec_tdset (d : BitVec 6) (a : BitVec 6) (t : BitVec 6) (f : BitVec 5) : exec (.tdset d a t f) s = execTdset d a t f s := rfl
@[simp] theorem exec_tdget (d : BitVec 6) (a : BitVec 6) (t : BitVec 6) (f : BitVec 5) : exec (.tdget d a t f) s = execTdget d a t f s := rfl
@[simp] theorem exec_tdcpy (d : BitVec 6) (m : BitVec 6) (t : BitVec 6) : exec (.tdcpy d m t) s = execTdcpy d m t s := rfl
@[simp] theorem exec_prio (c : BitVec 2) : exec (.prio c) s = execPrio c s := rfl
@[simp] theorem exec_mbpost (d : BitVec 6) (a : BitVec 6) (b : BitVec 6) : exec (.mbpost d a b) s = execMbpost d a b s := rfl
@[simp] theorem exec_mbfin (d : BitVec 6) (a : BitVec 6) (b : BitVec 6) : exec (.mbfin d a b) s = execMbfin d a b s := rfl
@[simp] theorem exec_mbver (d : BitVec 6) (a : BitVec 6) (b : BitVec 6) : exec (.mbver d a b) s = execMbver d a b s := rfl
@[simp] theorem exec_tlbiPage (a : BitVec 6) : exec (.tlbiPage a) s = execTlbiPage a s := rfl
@[simp] theorem exec_tlbiTenant (a : BitVec 6) : exec (.tlbiTenant a) s = execTlbiTenant a s := rfl
@[simp] theorem exec_tlbiAll (a : BitVec 6) : exec (.tlbiAll a) s = execTlbiAll a s := rfl
@[simp] theorem exec_cinv (a : BitVec 6) (p : BitVec 1) : exec (.cinv a p) s = execCinv a p s := rfl
@[simp] theorem exec_cfls (a : BitVec 6) (p : BitVec 1) : exec (.cfls a p) s = execCfls a p s := rfl
@[simp] theorem exec_dstchk (a : BitVec 6) (b : BitVec 6) (x : BitVec 1) : exec (.dstchk a b x) s = execDstchk a b x s := rfl
@[simp] theorem exec_rgn (f : MFields) : exec (.rgn f) s = execRgn f s := rfl
@[simp] theorem exec_vadd (f : VFields) : exec (.vadd f) s = execVadd f s := rfl
@[simp] theorem exec_vsub (f : VFields) : exec (.vsub f) s = execVsub f s := rfl
@[simp] theorem exec_vmul (f : VFields) : exec (.vmul f) s = execVmul f s := rfl
@[simp] theorem exec_vfma (f : VFields) : exec (.vfma f) s = execVfma f s := rfl
@[simp] theorem exec_vfms (f : VFields) : exec (.vfms f) s = execVfms f s := rfl
@[simp] theorem exec_vdiv (f : VFields) : exec (.vdiv f) s = execVdiv f s := rfl
@[simp] theorem exec_vmin (f : VFields) : exec (.vmin f) s = execVmin f s := rfl
@[simp] theorem exec_vmax (f : VFields) : exec (.vmax f) s = execVmax f s := rfl
@[simp] theorem exec_vabs (f : VFields) : exec (.vabs f) s = execVabs f s := rfl
@[simp] theorem exec_vneg (f : VFields) : exec (.vneg f) s = execVneg f s := rfl
@[simp] theorem exec_vsqrt (f : VFields) : exec (.vsqrt f) s = execVsqrt f s := rfl
@[simp] theorem exec_vrcp (f : VFields) : exec (.vrcp f) s = execVrcp f s := rfl
@[simp] theorem exec_vrsq (f : VFields) : exec (.vrsq f) s = execVrsq f s := rfl
@[simp] theorem exec_vscl (f : VFields) : exec (.vscl f) s = execVscl f s := rfl
@[simp] theorem exec_vaxpy (f : VFields) : exec (.vaxpy f) s = execVaxpy f s := rfl
@[simp] theorem exec_vclmp (f : VFields) : exec (.vclmp f) s = execVclmp f s := rfl
@[simp] theorem exec_vrnd (f : VFields) : exec (.vrnd f) s = execVrnd f s := rfl
@[simp] theorem exec_vexp (f : VFields) : exec (.vexp f) s = execVexp f s := rfl
@[simp] theorem exec_vexp2 (f : VFields) : exec (.vexp2 f) s = execVexp2 f s := rfl
@[simp] theorem exec_vlog (f : VFields) : exec (.vlog f) s = execVlog f s := rfl
@[simp] theorem exec_vlog2 (f : VFields) : exec (.vlog2 f) s = execVlog2 f s := rfl
@[simp] theorem exec_vtanh (f : VFields) : exec (.vtanh f) s = execVtanh f s := rfl
@[simp] theorem exec_vsigm (f : VFields) : exec (.vsigm f) s = execVsigm f s := rfl
@[simp] theorem exec_vgelu (f : VFields) : exec (.vgelu f) s = execVgelu f s := rfl
@[simp] theorem exec_vsilu (f : VFields) : exec (.vsilu f) s = execVsilu f s := rfl
@[simp] theorem exec_vsin (f : VFields) : exec (.vsin f) s = execVsin f s := rfl
@[simp] theorem exec_vcos (f : VFields) : exec (.vcos f) s = execVcos f s := rfl
@[simp] theorem exec_vcvt (f : VFields) : exec (.vcvt f) s = execVcvt f s := rfl
@[simp] theorem exec_vqnt (f : VFields) : exec (.vqnt f) s = execVqnt f s := rfl
@[simp] theorem exec_vdqnt (f : VFields) : exec (.vdqnt f) s = execVdqnt f s := rfl
@[simp] theorem exec_vcvti (f : VFields) : exec (.vcvti f) s = execVcvti f s := rfl
@[simp] theorem exec_vcvtf (f : VFields) : exec (.vcvtf f) s = execVcvtf f s := rfl
@[simp] theorem exec_vcmp (f : VFields) : exec (.vcmp f) s = execVcmp f s := rfl
@[simp] theorem exec_vsel (f : VFields) : exec (.vsel f) s = execVsel f s := rfl
@[simp] theorem exec_vand (f : VFields) : exec (.vand f) s = execVand f s := rfl
@[simp] theorem exec_vor (f : VFields) : exec (.vor f) s = execVor f s := rfl
@[simp] theorem exec_vxor (f : VFields) : exec (.vxor f) s = execVxor f s := rfl
@[simp] theorem exec_vnot (f : VFields) : exec (.vnot f) s = execVnot f s := rfl
@[simp] theorem exec_vshl (f : VFields) : exec (.vshl f) s = execVshl f s := rfl
@[simp] theorem exec_vshr (f : VFields) : exec (.vshr f) s = execVshr f s := rfl
@[simp] theorem exec_vrsum (f : VFields) : exec (.vrsum f) s = execVrsum f s := rfl
@[simp] theorem exec_vrmax (f : VFields) : exec (.vrmax f) s = execVrmax f s := rfl
@[simp] theorem exec_vrmin (f : VFields) : exec (.vrmin f) s = execVrmin f s := rfl
@[simp] theorem exec_vramx (f : VFields) : exec (.vramx f) s = execVramx f s := rfl
@[simp] theorem exec_vscan (f : VFields) : exec (.vscan f) s = execVscan f s := rfl
@[simp] theorem exec_vvote (f : VFields) : exec (.vvote f) s = execVvote f s := rfl
@[simp] theorem exec_vflgc (f : VFields) : exec (.vflgc f) s = execVflgc f s := rfl
@[simp] theorem exec_vrssq (f : VFields) : exec (.vrssq f) s = execVrssq f s := rfl
@[simp] theorem exec_vlse (f : VFields) : exec (.vlse f) s = execVlse f s := rfl
@[simp] theorem exec_vmov (f : VFields) : exec (.vmov f) s = execVmov f s := rfl
@[simp] theorem exec_vfill (f : VFields) : exec (.vfill f) s = execVfill f s := rfl
@[simp] theorem exec_vgth (f : VFields) : exec (.vgth f) s = execVgth f s := rfl
@[simp] theorem exec_vsct (f : VFields) : exec (.vsct f) s = execVsct f s := rfl
@[simp] theorem exec_vtrn (f : VFields) : exec (.vtrn f) s = execVtrn f s := rfl
@[simp] theorem exec_viota (f : VFields) : exec (.viota f) s = execViota f s := rfl
@[simp] theorem exec_vcmpr (f : VFields) : exec (.vcmpr f) s = execVcmpr f s := rfl
@[simp] theorem exec_vexpd (f : VFields) : exec (.vexpd f) s = execVexpd f s := rfl
@[simp] theorem exec_viadd (f : VFields) : exec (.viadd f) s = execViadd f s := rfl
@[simp] theorem exec_visub (f : VFields) : exec (.visub f) s = execVisub f s := rfl
@[simp] theorem exec_vimul (f : VFields) : exec (.vimul f) s = execVimul f s := rfl
@[simp] theorem exec_vimin (f : VFields) : exec (.vimin f) s = execVimin f s := rfl
@[simp] theorem exec_vimax (f : VFields) : exec (.vimax f) s = execVimax f s := rfl
@[simp] theorem exec_vpopc (f : VFields) : exec (.vpopc f) s = execVpopc f s := rfl
@[simp] theorem exec_vbext (f : VFields) : exec (.vbext f) s = execVbext f s := rfl
@[simp] theorem exec_vhash (f : VFields) : exec (.vhash f) s = execVhash f s := rfl
@[simp] theorem exec_mstep (f : MFields) : exec (.mstep f) s = execMstep f s := rfl
@[simp] theorem exec_mnest (f : MFields) : exec (.mnest f) s = execMnest f s := rfl
@[simp] theorem exec_mnset (f : MFields) : exec (.mnset f) s = execMnset f s := rfl
@[simp] theorem exec_mwb (f : MFields) : exec (.mwb f) s = execMwb f s := rfl
@[simp] theorem exec_mzero (f : MFields) : exec (.mzero f) s = execMzero f s := rfl
@[simp] theorem exec_mlda (f : MFields) : exec (.mlda f) s = execMlda f s := rfl
@[simp] theorem exec_mspc (f : MFields) : exec (.mspc f) s = execMspc f s := rfl
@[simp] theorem exec_msig (f : MFields) : exec (.msig f) s = execMsig f s := rfl
@[simp] theorem exec_mscat (f : MFields) : exec (.mscat f) s = execMscat f s := rfl
@[simp] theorem exec_cpy (f : MFields) : exec (.cpy f) s = execCpy f s := rfl
@[simp] theorem exec_cpyi (f : MFields) : exec (.cpyi f) s = execCpyi f s := rfl
@[simp] theorem exec_cpyrs (f : MFields) : exec (.cpyrs f) s = execCpyrs f s := rfl
@[simp] theorem exec_cpyk (f : MFields) : exec (.cpyk f) s = execCpyk f s := rfl
@[simp] theorem exec_cpymc (f : MFields) : exec (.cpymc f) s = execCpymc f s := rfl
@[simp] theorem exec_cwmk (f : MFields) : exec (.cwmk f) s = execCwmk f s := rfl
@[simp] theorem exec_ctpl (f : MFields) : exec (.ctpl f) s = execCtpl f s := rfl
@[simp] theorem exec_clar (f : MFields) : exec (.clar f) s = execClar f s := rfl
@[simp] theorem exec_clrs (f : MFields) : exec (.clrs f) s = execClrs f s := rfl
@[simp] theorem exec_clag (f : MFields) : exec (.clag f) s = execClag f s := rfl
@[simp] theorem exec_clbc (f : MFields) : exec (.clbc f) s = execClbc f s := rfl
@[simp] theorem exec_clxr (f : MFields) : exec (.clxr f) s = execClxr f s := rfl
@[simp] theorem exec_clgrp (f : MFields) : exec (.clgrp f) s = execClgrp f s := rfl
@[simp] theorem exec_mbsend (f : MFields) : exec (.mbsend f) s = execMbsend f s := rfl
@[simp] theorem exec_mbrls (f : MFields) : exec (.mbrls f) s = execMbrls f s := rfl
@[simp] theorem exec_mbpol (f : MFields) : exec (.mbpol f) s = execMbpol f s := rfl
@[simp] theorem exec_mbstgLoad (f : MFields) : exec (.mbstgLoad f) s = execMbstgLoad f s := rfl
@[simp] theorem exec_mbstgEnable (f : MFields) : exec (.mbstgEnable f) s = execMbstgEnable f s := rfl
@[simp] theorem exec_mbstgDestroy (f : MFields) : exec (.mbstgDestroy f) s = execMbstgDestroy f s := rfl
@[simp] theorem exec_mbstgCancel (f : MFields) : exec (.mbstgCancel f) s = execMbstgCancel f s := rfl
@[simp] theorem exec_stsh (f : MFields) : exec (.stsh f) s = execStsh f s := rfl
@[simp] theorem exec_stft (f : MFields) : exec (.stft f) s = execStft f s := rfl
@[simp] theorem exec_stpf (f : MFields) : exec (.stpf f) s = execStpf f s := rfl
@[simp] theorem exec_stdr (f : MFields) : exec (.stdr f) s = execStdr f s := rfl
@[simp] theorem exec_stqy (f : MFields) : exec (.stqy f) s = execStqy f s := rfl
@[simp] theorem exec_opj (f : MFields) : exec (.opj f) s = execOpj f s := rfl
@[simp] theorem exec_oprt (f : MFields) : exec (.oprt f) s = execOprt f s := rfl
@[simp] theorem exec_opsk (f : MFields) : exec (.opsk f) s = execOpsk f s := rfl
@[simp] theorem exec_bundleIssue : exec (.bundleIssue) s = execBundleIssue s := rfl
@[simp] theorem exec_scoreboardReturn : exec (.scoreboardReturn) s = execScoreboardReturn s := rfl
@[simp] theorem exec_watchdog : exec (.watchdog) s = execWatchdog s := rfl
@[simp] theorem exec_trapEntry : exec (.trapEntry) s = execTrapEntry s := rfl
@[simp] theorem exec_regionReplay : exec (.regionReplay) s = execRegionReplay s := rfl
@[simp] theorem exec_regionCheck : exec (.regionCheck) s = execRegionCheck s := rfl
@[simp] theorem exec_remoteWriteAck : exec (.remoteWriteAck) s = execRemoteWriteAck s := rfl
@[simp] theorem exec_launchDispatch : exec (.launchDispatch) s = execLaunchDispatch s := rfl
@[simp] theorem exec_stageDispatch : exec (.stageDispatch) s = execStageDispatch s := rfl
@[simp] theorem exec_taskRetire : exec (.taskRetire) s = execTaskRetire s := rfl
@[simp] theorem exec_lqTail : exec (.lqTail) s = execLqTail s := rfl
@[simp] theorem exec_lqCtail : exec (.lqCtail) s = execLqCtail s := rfl
@[simp] theorem exec_lqCtlEnable : exec (.lqCtlEnable) s = execLqCtlEnable s := rfl
@[simp] theorem exec_lqCtlDestroy : exec (.lqCtlDestroy) s = execLqCtlDestroy s := rfl
@[simp] theorem exec_lqCtlCancel : exec (.lqCtlCancel) s = execLqCtlCancel s := rfl
@[simp] theorem exec_registerWrite : exec (.registerWrite) s = execRegisterWrite s := rfl
@[simp] theorem exec_aperturePush : exec (.aperturePush) s = execAperturePush s := rfl
@[simp] theorem exec_preempt : exec (.preempt) s = execPreempt s := rfl
@[simp] theorem exec_resume : exec (.resume) s = execResume s := rfl
@[simp] theorem exec_discard : exec (.discard) s = execDiscard s := rfl
@[simp] theorem exec_fault : exec (.fault) s = execFault s := rfl
@[simp] theorem exec_gwsave : exec (.gwsave) s = execGwsave s := rfl
@[simp] theorem exec_gwrestore : exec (.gwrestore) s = execGwrestore s := rfl
@[simp] theorem exec_corectlResume : exec (.corectlResume) s = execCorectlResume s := rfl
@[simp] theorem exec_dtcmdGo : exec (.dtcmdGo) s = execDtcmdGo s := rfl
@[simp] theorem exec_ownerTableWrite : exec (.ownerTableWrite) s = execOwnerTableWrite s := rfl
@[simp] theorem exec_hostErr : exec (.hostErr) s = execHostErr s := rfl
@[simp] theorem exec_rasLost : exec (.rasLost) s = execRasLost s := rfl
@[simp] theorem exec_rasCorr : exec (.rasCorr) s = execRasCorr s := rfl
@[simp] theorem exec_fabcnt : exec (.fabcnt) s = execFabcnt s := rfl
@[simp] theorem exec_lksts : exec (.lksts) s = execLksts s := rfl
@[simp] theorem exec_bootStatus : exec (.bootStatus) s = execBootStatus s := rfl
@[simp] theorem exec_hostWrite : exec (.hostWrite) s = execHostWrite s := rfl
@[simp] theorem exec_hostRead : exec (.hostRead) s = execHostRead s := rfl
@[simp] theorem exec_atsInvalidate : exec (.atsInvalidate) s = execAtsInvalidate s := rfl
@[simp] theorem exec_fwWinWrite : exec (.fwWinWrite) s = execFwWinWrite s := rfl
@[simp] theorem exec_bootCtlGo : exec (.bootCtlGo) s = execBootCtlGo s := rfl
@[simp] theorem exec_bootCtlWarm : exec (.bootCtlWarm) s = execBootCtlWarm s := rfl
@[simp] theorem exec_powerOn : exec (.powerOn) s = execPowerOn s := rfl
@[simp] theorem exec_perst : exec (.perst) s = execPerst s := rfl
@[simp] theorem exec_hotReset : exec (.hotReset) s = execHotReset s := rfl
@[simp] theorem exec_dlDown : exec (.dlDown) s = execDlDown s := rfl
@[simp] theorem exec_pfFlr : exec (.pfFlr) s = execPfFlr s := rfl
@[simp] theorem exec_vfFlr : exec (.vfFlr) s = execVfFlr s := rfl
@[simp] theorem exec_firmwareCheck : exec (.firmwareCheck) s = execFirmwareCheck s := rfl
@[simp] theorem exec_hbmTraining : exec (.hbmTraining) s = execHbmTraining s := rfl
@[simp] theorem exec_zeroFill : exec (.zeroFill) s = execZeroFill s := rfl
@[simp] theorem exec_linkEqualisation : exec (.linkEqualisation) s = execLinkEqualisation s := rfl
@[simp] theorem exec_coreSelfTest : exec (.coreSelfTest) s = execCoreSelfTest s := rfl
@[simp] theorem exec_supervisorLoad : exec (.supervisorLoad) s = execSupervisorLoad s := rfl
@[simp] theorem exec_startTimeout : exec (.startTimeout) s = execStartTimeout s := rfl
@[simp] theorem exec_version : exec (.version) s = execVersion s := rfl
@[simp] theorem exec_telemetry : exec (.telemetry) s = execTelemetry s := rfl
@[simp] theorem exec_loadkey : exec (.loadkey) s = execLoadkey s := rfl
@[simp] theorem exec_setpasid : exec (.setpasid) s = execSetpasid s := rfl
@[simp] theorem exec_raisesvn : exec (.raisesvn) s = execRaisesvn s := rfl
@[simp] theorem exec_recexit : exec (.recexit) s = execRecexit s := rfl
@[simp] theorem exec_inject : exec (.inject) s = execInject s := rfl
@[simp] theorem exec_events : exec (.events) s = execEvents s := rfl
@[simp] theorem exec_monitorWindow : exec (.monitorWindow) s = execMonitorWindow s := rfl
@[simp] theorem exec_scrubPass : exec (.scrubPass) s = execScrubPass s := rfl
@[simp] theorem exec_stackLoss : exec (.stackLoss) s = execStackLoss s := rfl
@[simp] theorem exec_throttleWindow : exec (.throttleWindow) s = execThrottleWindow s := rfl
@[simp] theorem exec_write : exec (.write) s = execWrite s := rfl
@[simp] theorem exec_writem : exec (.writem) s = execWritem s := rfl
@[simp] theorem exec_read : exec (.read) s = execRead s := rfl
@[simp] theorem exec_atomic : exec (.atomic) s = execAtomic s := rfl
@[simp] theorem exec_tensor : exec (.tensor) s = execTensor s := rfl
@[simp] theorem exec_coll : exec (.coll) s = execColl s := rfl
@[simp] theorem exec_groupAbort : exec (.groupAbort) s = execGroupAbort s := rfl
@[simp] theorem exec_data : exec (.data) s = execData s := rfl
@[simp] theorem exec_ack : exec (.ack) s = execAck s := rfl
@[simp] theorem exec_nak : exec (.nak) s = execNak s := rfl
@[simp] theorem exec_retryBackoff : exec (.retryBackoff) s = execRetryBackoff s := rfl
@[simp] theorem exec_marker : exec (.marker) s = execMarker s := rfl
@[simp] theorem exec_lnak : exec (.lnak) s = execLnak s := rfl
@[simp] theorem exec_kload : exec (.kload) s = execKload s := rfl
@[simp] theorem exec_lkctlSwitch : exec (.lkctlSwitch) s = execLkctlSwitch s := rfl
@[simp] theorem exec_lkctlInuse : exec (.lkctlInuse) s = execLkctlInuse s := rfl
@[simp] theorem exec_keyWarn : exec (.keyWarn) s = execKeyWarn s := rfl
@[simp] theorem exec_keyExhausted : exec (.keyExhausted) s = execKeyExhausted s := rfl
@[simp] theorem exec_linkDown : exec (.linkDown) s = execLinkDown s := rfl
@[simp] theorem exec_newver : exec (.newver) s = execNewver s := rfl
@[simp] theorem exec_cancelGroup : exec (.cancelGroup) s = execCancelGroup s := rfl
@[simp] theorem exec_nop : exec (.nop) s = execNop s := rfl
@[simp] theorem exec_yield : exec (.yield) s = execYield s := rfl
@[simp] theorem exec_texit : exec (.texit) s = execTexit s := rfl
@[simp] theorem exec_halt : exec (.halt) s = execHalt s := rfl
@[simp] theorem exec_eret : exec (.eret) s = execEret s := rfl
@[simp] theorem exec_wfi : exec (.wfi) s = execWfi s := rfl
@[simp] theorem exec_bkpt : exec (.bkpt) s = execBkpt s := rfl
@[simp] theorem exec_icsync : exec (.icsync) s = execIcsync s := rfl
@[simp] theorem exec_routerCycle : exec (.routerCycle) s = execRouterCycle s := rfl
@[simp] theorem exec_writePerformed : exec (.writePerformed) s = execWritePerformed s := rfl
@[simp] theorem exec_linkTrained : exec (.linkTrained) s = execLinkTrained s := rfl
@[simp] theorem exec_hostCompletion : exec (.hostCompletion) s = execHostCompletion s := rfl
@[simp] theorem exec_completionTimeout : exec (.completionTimeout) s = execCompletionTimeout s := rfl
@[simp] theorem exec_backInvalidateAnswer : exec (.backInvalidateAnswer) s = execBackInvalidateAnswer s := rfl
@[simp] theorem exec_cxlCacheSnoop : exec (.cxlCacheSnoop) s = execCxlCacheSnoop s := rfl
@[simp] theorem exec_msixVectorUnmask : exec (.msixVectorUnmask) s = execMsixVectorUnmask s := rfl
@[simp] theorem exec_vfFlrComplete : exec (.vfFlrComplete) s = execVfFlrComplete s := rfl
@[simp] theorem exec_mbReq : exec (.mbReq) s = execMbReq s := rfl
@[simp] theorem exec_tcCmd : exec (.tcCmd) s = execTcCmd s := rfl

end

end Sys2Proof.Machine
end

