-- ==== Sys2Proof/Laws/Maps.lean ====
section
/-!
SUPPORT. Sparse maps: what a key reads after a write, a removal or a write with a default.
-/
namespace Sys2Proof

variable {α : Type}

@[simp] theorem smGet_nil (d : α) (i : Nat) : smGet d [] i = d := rfl

theorem smGet_cons (d : α) (k : Nat) (v : α) (r : SMap α) (i : Nat) : smGet d ((k, v) :: r) i = if k = i then v else smGet d r i := rfl

theorem smGet_smDel_ne (d : α) {i j : Nat} (h : j ≠ i) (m : SMap α) : smGet d (smDel m i) j = smGet d m j := by
  induction m with
  | nil => rfl
  | cons p r ih =>
    obtain ⟨k, v⟩ := p
    by_cases hk : k = i
    · subst hk
      have : smDel ((k, v) :: r) k = smDel r k := by simp [smDel]
      rw [this, ih, smGet_cons, if_neg (Ne.symm h)]
    · have : smDel ((k, v) :: r) i = (k, v) :: smDel r i := by simp [smDel, hk]
      rw [this, smGet_cons, smGet_cons, ih]

theorem smGet_smDel_self (d : α) (i : Nat) (m : SMap α) : smGet d (smDel m i) i = d := by
  induction m with
  | nil => rfl
  | cons p r ih =>
    obtain ⟨k, v⟩ := p
    by_cases hk : k = i
    · have : smDel ((k, v) :: r) i = smDel r i := by simp [smDel, hk]
      rw [this, ih]
    · have : smDel ((k, v) :: r) i = (k, v) :: smDel r i := by simp [smDel, hk]
      rw [this, smGet_cons, if_neg hk, ih]

theorem smGet_smIns_ne (d : α) {i j : Nat} (h : j ≠ i) (v : α) (m : SMap α) : smGet d (smIns i v m) j = smGet d m j := by
  induction m with
  | nil => simp [smIns, smGet, Ne.symm h]
  | cons p r ih =>
    obtain ⟨k, w⟩ := p
    unfold smIns
    split
    · rw [smGet_cons, if_neg (Ne.symm h)]
    · rw [smGet_cons, smGet_cons, ih]

theorem smGet_smIns_self (d : α) {i : Nat} (v : α) (m : SMap α) (h : ∀ p ∈ m, p.1 ≠ i) : smGet d (smIns i v m) i = v := by
  induction m with
  | nil => simp [smIns, smGet]
  | cons p r ih =>
    obtain ⟨k, w⟩ := p
    unfold smIns
    split
    · rw [smGet_cons, if_pos rfl]
    · rw [smGet_cons, if_neg (h _ List.mem_cons_self), ih fun q hq => h q (List.mem_cons_of_mem _ hq)]

/-- The value at a key after a write. -/
@[simp] theorem smGet_smPut (d : α) (m : SMap α) (i j : Nat) (v : α) : smGet d (smPut m i v) j = if j = i then v else smGet d m j := by
  unfold smPut
  split
  · subst_vars
    exact smGet_smIns_self d v _ fun p hp => by simp [smDel] at hp; exact hp.2
  · rw [smGet_smIns_ne d ‹_›, smGet_smDel_ne d ‹_›]

/-- The value at a key after a write that lists no default. -/
@[simp] theorem smGet_smSet [DecidableEq α] (d : α) (m : SMap α) (i j : Nat) (v : α) :
    smGet d (smSet d m i v) j = if j = i then v else smGet d m j := by
  unfold smSet
  split
  · subst_vars
    split
    · subst_vars; exact smGet_smDel_self _ _ _
    · exact smGet_smDel_ne _ ‹_› _
  · exact smGet_smPut ..

theorem smFind_eq_none_smGet (d : α) (m : SMap α) (i : Nat) (h : smFind m i = none) : smGet d m i = d := by
  induction m with
  | nil => rfl
  | cons p r ih =>
    obtain ⟨k, v⟩ := p
    unfold smFind at h
    split at h
    · cases h
    · rw [smGet_cons, if_neg ‹_›, ih h]

theorem smFind_some_smGet (d : α) (m : SMap α) (i : Nat) {v : α} (h : smFind m i = some v) : smGet d m i = v := by
  induction m with
  | nil => cases h
  | cons p r ih =>
    obtain ⟨k, w⟩ := p
    unfold smFind at h
    split at h
    · rw [smGet_cons, if_pos ‹_›]; exact Option.some.inj h
    · rw [smGet_cons, if_neg ‹_›, ih h]

/-- A map whose values are changed key by key. -/
theorem smGet_map (d : α) (f : Nat → α → α) (m : SMap α) (i : Nat) (hd : f i d = d) :
    smGet d (m.map fun p => (p.1, f p.1 p.2)) i = f i (smGet d m i) := by
  induction m with
  | nil => exact hd.symm
  | cons p r ih =>
    obtain ⟨k, v⟩ := p
    rw [List.map_cons, smGet_cons, smGet_cons, ih]
    split
    · subst_vars; rfl
    · rfl

end Sys2Proof
end

