-- ==== Sys2Proof/Laws/State.lean ====
section
/-!
SUPPORT. What each update of the state leaves in each field, and how the parts are read after an update.
-/
namespace Sys2Proof.Machine

section
variable (s : State) (n : Nat) (x : Strand) (c : Core) (d : Die)

@[simp] theorem setStrand_node : (s.setStrand n x).node = s.node := rfl
@[simp] theorem setStrand_cores : (s.setStrand n x).cores = s.cores := rfl
@[simp] theorem setStrand_dies : (s.setStrand n x).dies = s.dies := rfl
@[simp] theorem setStrand_mem : (s.setStrand n x).mem = s.mem := rfl
@[simp] theorem setStrand_stores : (s.setStrand n x).stores = s.stores := rfl
@[simp] theorem setStrand_posted : (s.setStrand n x).posted = s.posted := rfl
@[simp] theorem setStrand_nextId : (s.setStrand n x).nextId = s.nextId := rfl
@[simp] theorem setStrand_tlb : (s.setStrand n x).tlb = s.tlb := rfl
@[simp] theorem setStrand_memSyn : (s.setStrand n x).memSyn = s.memSyn := rfl
@[simp] theorem setStrand_poison : (s.setStrand n x).poison = s.poison := rfl
@[simp] theorem setStrand_objs : (s.setStrand n x).objs = s.objs := rfl
@[simp] theorem setStrand_parity : (s.setStrand n x).parity = s.parity := rfl
@[simp] theorem setStrand_lost : (s.setStrand n x).lost = s.lost := rfl
@[simp] theorem setStrand_l2inj : (s.setStrand n x).l2inj = s.l2inj := rfl
@[simp] theorem setStrand_boot : (s.setStrand n x).boot = s.boot := rfl
@[simp] theorem setStrand_owner : (s.setStrand n x).owner = s.owner := rfl
@[simp] theorem setStrand_tasks : (s.setStrand n x).tasks = s.tasks := rfl
@[simp] theorem setStrand_lqs : (s.setStrand n x).lqs = s.lqs := rfl
@[simp] theorem setStrand_lqLast : (s.setStrand n x).lqLast = s.lqLast := rfl
@[simp] theorem setStrand_devAcc : (s.setStrand n x).devAcc = s.devAcc := rfl
@[simp] theorem setStrand_closed : (s.setStrand n x).closed = s.closed := rfl
@[simp] theorem setStrand_scrubPeriod : (s.setStrand n x).scrubPeriod = s.scrubPeriod := rfl
@[simp] theorem setStrand_scrubPasses : (s.setStrand n x).scrubPasses = s.scrubPasses := rfl
@[simp] theorem setStrand_ports : (s.setStrand n x).ports = s.ports := rfl
@[simp] theorem setStrand_fns : (s.setStrand n x).fns = s.fns := rfl
@[simp] theorem setStrand_hostUp : (s.setStrand n x).hostUp = s.hostUp := rfl
@[simp] theorem setStrand_cxl : (s.setStrand n x).cxl = s.cxl := rfl
@[simp] theorem setStrand_hdm : (s.setStrand n x).hdm = s.hdm := rfl
@[simp] theorem setStrand_bar2Pf : (s.setStrand n x).bar2Pf = s.bar2Pf := rfl
@[simp] theorem setStrand_bar2Vf : (s.setStrand n x).bar2Vf = s.bar2Vf := rfl
@[simp] theorem setStrand_ownerOld : (s.setStrand n x).ownerOld = s.ownerOld := rfl
@[simp] theorem setStrand_cxlm : (s.setStrand n x).cxlm = s.cxlm := rfl
@[simp] theorem setStrand_held : (s.setStrand n x).held = s.held := rfl
@[simp] theorem setStrand_snooped : (s.setStrand n x).snooped = s.snooped := rfl
@[simp] theorem setStrand_cxlCache : (s.setStrand n x).cxlCache = s.cxlCache := rfl
@[simp] theorem setStrand_pasid : (s.setStrand n x).pasid = s.pasid := rfl
@[simp] theorem setStrand_ats : (s.setStrand n x).ats = s.ats := rfl
@[simp] theorem setStrand_reqs : (s.setStrand n x).reqs = s.reqs := rfl
@[simp] theorem setStrand_nextTask : (s.setStrand n x).nextTask = s.nextTask := rfl
@[simp] theorem setStrand_out : (s.setStrand n x).out = s.out := rfl
@[simp] theorem setStrand_cur : (s.setStrand n x).cur = s.cur := rfl
@[simp] theorem setStrand_engine : (s.setStrand n x).engine = s.engine := rfl
@[simp] theorem setStrand_miss : (s.setStrand n x).miss = s.miss := rfl
@[simp] theorem setStrand_inbox : (s.setStrand n x).inbox = s.inbox := rfl
@[simp] theorem setStrand_later : (s.setStrand n x).later = s.later := rfl
@[simp] theorem setStrand_pace : (s.setStrand n x).pace = s.pace := rfl
@[simp] theorem setStrand_ev : (s.setStrand n x).ev = s.ev := rfl
@[simp] theorem setStrand_fresh : (s.setStrand n x).fresh = s.fresh := rfl
@[simp] theorem setCore_node : (s.setCore n c).node = s.node := rfl
@[simp] theorem setCore_strands : (s.setCore n c).strands = s.strands := rfl
@[simp] theorem setCore_dies : (s.setCore n c).dies = s.dies := rfl
@[simp] theorem setCore_mem : (s.setCore n c).mem = s.mem := rfl
@[simp] theorem setCore_stores : (s.setCore n c).stores = s.stores := rfl
@[simp] theorem setCore_posted : (s.setCore n c).posted = s.posted := rfl
@[simp] theorem setCore_nextId : (s.setCore n c).nextId = s.nextId := rfl
@[simp] theorem setCore_tlb : (s.setCore n c).tlb = s.tlb := rfl
@[simp] theorem setCore_memSyn : (s.setCore n c).memSyn = s.memSyn := rfl
@[simp] theorem setCore_poison : (s.setCore n c).poison = s.poison := rfl
@[simp] theorem setCore_objs : (s.setCore n c).objs = s.objs := rfl
@[simp] theorem setCore_parity : (s.setCore n c).parity = s.parity := rfl
@[simp] theorem setCore_lost : (s.setCore n c).lost = s.lost := rfl
@[simp] theorem setCore_l2inj : (s.setCore n c).l2inj = s.l2inj := rfl
@[simp] theorem setCore_boot : (s.setCore n c).boot = s.boot := rfl
@[simp] theorem setCore_owner : (s.setCore n c).owner = s.owner := rfl
@[simp] theorem setCore_tasks : (s.setCore n c).tasks = s.tasks := rfl
@[simp] theorem setCore_lqs : (s.setCore n c).lqs = s.lqs := rfl
@[simp] theorem setCore_lqLast : (s.setCore n c).lqLast = s.lqLast := rfl
@[simp] theorem setCore_devAcc : (s.setCore n c).devAcc = s.devAcc := rfl
@[simp] theorem setCore_closed : (s.setCore n c).closed = s.closed := rfl
@[simp] theorem setCore_scrubPeriod : (s.setCore n c).scrubPeriod = s.scrubPeriod := rfl
@[simp] theorem setCore_scrubPasses : (s.setCore n c).scrubPasses = s.scrubPasses := rfl
@[simp] theorem setCore_ports : (s.setCore n c).ports = s.ports := rfl
@[simp] theorem setCore_fns : (s.setCore n c).fns = s.fns := rfl
@[simp] theorem setCore_hostUp : (s.setCore n c).hostUp = s.hostUp := rfl
@[simp] theorem setCore_cxl : (s.setCore n c).cxl = s.cxl := rfl
@[simp] theorem setCore_hdm : (s.setCore n c).hdm = s.hdm := rfl
@[simp] theorem setCore_bar2Pf : (s.setCore n c).bar2Pf = s.bar2Pf := rfl
@[simp] theorem setCore_bar2Vf : (s.setCore n c).bar2Vf = s.bar2Vf := rfl
@[simp] theorem setCore_ownerOld : (s.setCore n c).ownerOld = s.ownerOld := rfl
@[simp] theorem setCore_cxlm : (s.setCore n c).cxlm = s.cxlm := rfl
@[simp] theorem setCore_held : (s.setCore n c).held = s.held := rfl
@[simp] theorem setCore_snooped : (s.setCore n c).snooped = s.snooped := rfl
@[simp] theorem setCore_cxlCache : (s.setCore n c).cxlCache = s.cxlCache := rfl
@[simp] theorem setCore_pasid : (s.setCore n c).pasid = s.pasid := rfl
@[simp] theorem setCore_ats : (s.setCore n c).ats = s.ats := rfl
@[simp] theorem setCore_reqs : (s.setCore n c).reqs = s.reqs := rfl
@[simp] theorem setCore_nextTask : (s.setCore n c).nextTask = s.nextTask := rfl
@[simp] theorem setCore_out : (s.setCore n c).out = s.out := rfl
@[simp] theorem setCore_cur : (s.setCore n c).cur = s.cur := rfl
@[simp] theorem setCore_engine : (s.setCore n c).engine = s.engine := rfl
@[simp] theorem setCore_miss : (s.setCore n c).miss = s.miss := rfl
@[simp] theorem setCore_inbox : (s.setCore n c).inbox = s.inbox := rfl
@[simp] theorem setCore_later : (s.setCore n c).later = s.later := rfl
@[simp] theorem setCore_pace : (s.setCore n c).pace = s.pace := rfl
@[simp] theorem setCore_ev : (s.setCore n c).ev = s.ev := rfl
@[simp] theorem setCore_fresh : (s.setCore n c).fresh = s.fresh := rfl
@[simp] theorem setDie_node : (s.setDie n d).node = s.node := rfl
@[simp] theorem setDie_strands : (s.setDie n d).strands = s.strands := rfl
@[simp] theorem setDie_cores : (s.setDie n d).cores = s.cores := rfl
@[simp] theorem setDie_mem : (s.setDie n d).mem = s.mem := rfl
@[simp] theorem setDie_stores : (s.setDie n d).stores = s.stores := rfl
@[simp] theorem setDie_posted : (s.setDie n d).posted = s.posted := rfl
@[simp] theorem setDie_nextId : (s.setDie n d).nextId = s.nextId := rfl
@[simp] theorem setDie_tlb : (s.setDie n d).tlb = s.tlb := rfl
@[simp] theorem setDie_memSyn : (s.setDie n d).memSyn = s.memSyn := rfl
@[simp] theorem setDie_poison : (s.setDie n d).poison = s.poison := rfl
@[simp] theorem setDie_objs : (s.setDie n d).objs = s.objs := rfl
@[simp] theorem setDie_parity : (s.setDie n d).parity = s.parity := rfl
@[simp] theorem setDie_lost : (s.setDie n d).lost = s.lost := rfl
@[simp] theorem setDie_l2inj : (s.setDie n d).l2inj = s.l2inj := rfl
@[simp] theorem setDie_boot : (s.setDie n d).boot = s.boot := rfl
@[simp] theorem setDie_owner : (s.setDie n d).owner = s.owner := rfl
@[simp] theorem setDie_tasks : (s.setDie n d).tasks = s.tasks := rfl
@[simp] theorem setDie_lqs : (s.setDie n d).lqs = s.lqs := rfl
@[simp] theorem setDie_lqLast : (s.setDie n d).lqLast = s.lqLast := rfl
@[simp] theorem setDie_devAcc : (s.setDie n d).devAcc = s.devAcc := rfl
@[simp] theorem setDie_closed : (s.setDie n d).closed = s.closed := rfl
@[simp] theorem setDie_scrubPeriod : (s.setDie n d).scrubPeriod = s.scrubPeriod := rfl
@[simp] theorem setDie_scrubPasses : (s.setDie n d).scrubPasses = s.scrubPasses := rfl
@[simp] theorem setDie_ports : (s.setDie n d).ports = s.ports := rfl
@[simp] theorem setDie_fns : (s.setDie n d).fns = s.fns := rfl
@[simp] theorem setDie_hostUp : (s.setDie n d).hostUp = s.hostUp := rfl
@[simp] theorem setDie_cxl : (s.setDie n d).cxl = s.cxl := rfl
@[simp] theorem setDie_hdm : (s.setDie n d).hdm = s.hdm := rfl
@[simp] theorem setDie_bar2Pf : (s.setDie n d).bar2Pf = s.bar2Pf := rfl
@[simp] theorem setDie_bar2Vf : (s.setDie n d).bar2Vf = s.bar2Vf := rfl
@[simp] theorem setDie_ownerOld : (s.setDie n d).ownerOld = s.ownerOld := rfl
@[simp] theorem setDie_cxlm : (s.setDie n d).cxlm = s.cxlm := rfl
@[simp] theorem setDie_held : (s.setDie n d).held = s.held := rfl
@[simp] theorem setDie_snooped : (s.setDie n d).snooped = s.snooped := rfl
@[simp] theorem setDie_cxlCache : (s.setDie n d).cxlCache = s.cxlCache := rfl
@[simp] theorem setDie_pasid : (s.setDie n d).pasid = s.pasid := rfl
@[simp] theorem setDie_ats : (s.setDie n d).ats = s.ats := rfl
@[simp] theorem setDie_reqs : (s.setDie n d).reqs = s.reqs := rfl
@[simp] theorem setDie_nextTask : (s.setDie n d).nextTask = s.nextTask := rfl
@[simp] theorem setDie_out : (s.setDie n d).out = s.out := rfl
@[simp] theorem setDie_cur : (s.setDie n d).cur = s.cur := rfl
@[simp] theorem setDie_engine : (s.setDie n d).engine = s.engine := rfl
@[simp] theorem setDie_miss : (s.setDie n d).miss = s.miss := rfl
@[simp] theorem setDie_inbox : (s.setDie n d).inbox = s.inbox := rfl
@[simp] theorem setDie_later : (s.setDie n d).later = s.later := rfl
@[simp] theorem setDie_pace : (s.setDie n d).pace = s.pace := rfl
@[simp] theorem setDie_ev : (s.setDie n d).ev = s.ev := rfl
@[simp] theorem setDie_fresh : (s.setDie n d).fresh = s.fresh := rfl

@[simp] theorem strandAt_setStrand (m : Nat) : (s.setStrand n x).strandAt m = if m = n then x else s.strandAt m := by
  simp [State.strandAt, State.setStrand]
@[simp] theorem coreAt_setStrand (m : Nat) : (s.setStrand n x).coreAt m = s.coreAt m := rfl
@[simp] theorem dieAt_setStrand (m : Nat) : (s.setStrand n x).dieAt m = s.dieAt m := rfl
@[simp] theorem coreAt_setCore (m : Nat) : (s.setCore n c).coreAt m = if m = n then c else s.coreAt m := by
  simp [State.coreAt, State.setCore]
@[simp] theorem strandAt_setCore (m : Nat) : (s.setCore n c).strandAt m = s.strandAt m := rfl
@[simp] theorem dieAt_setCore (m : Nat) : (s.setCore n c).dieAt m = s.dieAt m := rfl
@[simp] theorem dieAt_setDie (m : Nat) : (s.setDie n d).dieAt m = if m = n then d else s.dieAt m := by
  simp [State.dieAt, State.setDie]
@[simp] theorem strandAt_setDie (m : Nat) : (s.setDie n d).strandAt m = s.strandAt m := rfl
@[simp] theorem coreAt_setDie (m : Nat) : (s.setDie n d).coreAt m = s.coreAt m := rfl
@[simp] theorem st_setSt : (s.setSt x).st = x := by simp [State.setSt, State.st]
@[simp] theorem cur_setSt : (s.setSt x).cur = s.cur := rfl
@[simp] theorem engine_setSt : (s.setSt x).engine = s.engine := rfl

end

section
variable (r : Regs)

@[simp] theorem getS_zero : r.getS 0 = 0 := rfl

/-- s(n) after a write: s0 keeps reading zero (R18, R176). -/
theorem getS_setS (n m : Nat) (v : Word) : (r.setS n v).getS m = if m = n ∧ n ≠ 0 then v else r.getS m := by
  unfold Regs.setS Regs.getS
  by_cases hn : n = 0
  · subst hn; by_cases hm : m = 0 <;> simp [hm]
  · by_cases hm : m = 0
    · subst hm; simp [Ne.symm hn]
    · simp [hn, hm]

/-- A write to s0 has no effect (R176). -/
@[simp] theorem setS_zero (v : Word) : r.setS 0 v = r := rfl
@[simp] theorem setG_zero (b : Bool) : r.setG 0 b = r := rfl

@[simp] theorem getBt_setBt (n m : Nat) (v : Word) : (r.setBt n v).getBt m = if m = n then v else r.getBt m := by
  simp [Regs.getBt, Regs.setBt]
@[simp] theorem getLc_setLc (n m : Nat) (v : BitVec 32) : (r.setLc n v).getLc m = if m = n then v else r.getLc m := by
  simp [Regs.getLc, Regs.setLc]
@[simp] theorem getF_setF (n m : Nat) (v : Byte) : (r.setF n v).getF m = if m = n then v else r.getF m := by
  simp [Regs.getF, Regs.setF]
@[simp] theorem getT_setT (n m : Nat) (v : Desc) : (r.setT n v).getT m = if m = n then v else r.getT m := by
  simp [Regs.getT, Regs.setT]

/-- g(n) after a write: g0 keeps reading true (R18, R176). -/
theorem getG_setG (n m : Nat) (hn : n < 8) (hm : m < 8) (b : Bool) : (r.setG n b).getG m = if m = n ∧ n ≠ 0 then b else r.getG m := by
  unfold Regs.setG Regs.getG
  by_cases h0 : n = 0
  · simp [h0]
  · by_cases hmn : m = n
    · subst hmn; cases b <;> simp [h0, hm]
    · have h1 : ¬ (m - n = 0) ∨ m < n := by omega
      cases b <;> rcases h1 with h1 | h1 <;> simp [h0, hmn, hm, h1]

end

end Sys2Proof.Machine
end

