-- ==== Sys2Proof/Laws/Memory.lean ====
section
/-!
SUPPORT. Memory: every write keeps the canonical form, reads after writes, and the little-endian numbers.
-/
namespace Sys2Proof

/-! ### Sorted maps -/

theorem smSorted_cons {α : Type} (p : Nat × α) (r : SMap α) :
    smSorted (p :: r) = true ↔ (∀ q ∈ r, p.1 < q.1) ∧ smSorted r = true := by
  induction r generalizing p with
  | nil => simp [smSorted]
  | cons q r ih =>
    obtain ⟨k, v⟩ := p
    obtain ⟨l, w⟩ := q
    simp only [smSorted, Bool.and_eq_true, decide_eq_true_eq]
    rw [ih]
    constructor
    · rintro ⟨h, h1, h2⟩
      refine ⟨fun q hq => ?_, h1, h2⟩
      rcases List.mem_cons.1 hq with rfl | hq
      · exact h
      · exact lt_trans h (h1 q hq)
    · rintro ⟨h, h1, h2⟩
      exact ⟨h _ List.mem_cons_self, h1, h2⟩

theorem smSorted_smDel {α : Type} {m : SMap α} (h : smSorted m = true) (i : Nat) : smSorted (smDel m i) = true := by
  induction m with
  | nil => rfl
  | cons p r ih =>
    rw [smSorted_cons] at h
    unfold smDel
    rw [List.filter_cons]
    split
    · rw [smSorted_cons]
      exact ⟨fun q hq => h.1 q (List.mem_filter.1 hq).1, ih h.2⟩
    · exact ih h.2

theorem mem_smIns {α : Type} {i : Nat} {v : α} {m : SMap α} {q : Nat × α} (h : q ∈ smIns i v m) : q = (i, v) ∨ q ∈ m := by
  induction m with
  | nil => simpa [smIns] using h
  | cons p r ih =>
    obtain ⟨k, w⟩ := p
    unfold smIns at h
    split at h
    · simpa using h
    · rcases List.mem_cons.1 h with rfl | h
      · exact .inr List.mem_cons_self
      · exact (ih h).imp id (List.mem_cons_of_mem _)

theorem smSorted_smIns {α : Type} {m : SMap α} (h : smSorted m = true) {i : Nat} (v : α) (hi : ∀ p ∈ m, p.1 ≠ i) :
    smSorted (smIns i v m) = true := by
  induction m with
  | nil => rfl
  | cons p r ih =>
    obtain ⟨k, w⟩ := p
    have h' := (smSorted_cons _ _).1 h
    unfold smIns
    split
    · rename_i hik
      rw [smSorted_cons]
      refine ⟨fun q hq => ?_, h⟩
      rcases List.mem_cons.1 hq with rfl | hq
      · exact hik
      · exact lt_trans hik (h'.1 q hq)
    · rename_i hik
      rw [smSorted_cons]
      refine ⟨fun q hq => ?_, ih h'.2 fun q hq => hi q (List.mem_cons_of_mem _ hq)⟩
      rcases mem_smIns hq with rfl | hq
      · have := hi (k, w) List.mem_cons_self
        simp only at this ⊢
        omega
      · exact h'.1 q hq

theorem smDel_ne {α : Type} (m : SMap α) (i : Nat) : ∀ p ∈ smDel m i, p.1 ≠ i := fun p hp => by
  simp only [smDel, List.mem_filter, bne_iff_ne] at hp; exact hp.2

namespace Machine

/-! ### The canonical form -/

theorem memSet_wf {m : List Host.Cell} (h : Memory.wf m = true) (a : Nat) (b : Byte) : Memory.wf (smSet 0 m a b) = true := by
  simp only [Memory.wf, Bool.and_eq_true, List.all_eq_true] at h ⊢
  unfold smSet
  split
  · exact ⟨smSorted_smDel h.1 a, fun c hc => h.2 c (List.mem_filter.1 hc).1⟩
  · rename_i hb
    refine ⟨smSorted_smIns (smSorted_smDel h.1 a) b (smDel_ne m a), fun c hc => ?_⟩
    rcases mem_smIns hc with rfl | hc
    · simpa using hb
    · exact h.2 c (List.mem_filter.1 hc).1

theorem memPut_wf {m : List Host.Cell} (h : Memory.wf m = true) (a : Nat) (bs : List Byte) : Memory.wf (memPut m a bs) = true := by
  induction bs generalizing m a with
  | nil => exact h
  | cons b r ih => exact ih (memSet_wf h a b) (a + 1)

/-- Every write of memory keeps the canonical form. -/
theorem putMem_wf {s : State} (h : Memory.wf s.mem = true) (a : Nat) (bs : List Byte) : Memory.wf (s.putMem a bs).mem = true :=
  memPut_wf h a bs

theorem putMemNat_wf {s : State} (h : Memory.wf s.mem = true) (a n v : Nat) : Memory.wf (s.putMemNat a n v).mem = true :=
  memPut_wf h a _

/-! ### Reads after writes -/

theorem smGet_memPut (m : List Host.Cell) (a x : Nat) (bs : List Byte) :
    smGet 0 (memPut m a bs) x = if a ≤ x ∧ x < a + bs.length then (bs[x - a]?).getD 0 else smGet 0 m x := by
  induction bs generalizing m a with
  | nil => simp [memPut]
  | cons b r ih =>
    rw [memPut, ih, smGet_smSet, List.length_cons]
    by_cases hx : x = a
    · subst hx; simp
    · by_cases hlt : a + 1 ≤ x ∧ x < a + 1 + r.length
      · rw [if_pos hlt, if_pos (by omega), show x - a = (x - (a + 1)) + 1 by omega]; rfl
      · rw [if_neg hlt, if_neg hx, if_neg (by omega)]

/-- A byte of memory after a write. -/
theorem memByte_putMem (s : State) (a x : Nat) (bs : List Byte) :
    (s.putMem a bs).memByte x = if a ≤ x ∧ x < a + bs.length then (bs[x - a]?).getD 0 else s.memByte x :=
  smGet_memPut s.mem a x bs

/-- Bytes outside a write read as before. -/
theorem memByte_putMem_other {s : State} {a x : Nat} {bs : List Byte} (h : x < a ∨ a + bs.length ≤ x) :
    (s.putMem a bs).memByte x = s.memByte x := by
  rw [memByte_putMem, if_neg (by omega)]

theorem memBytes_putMem_self (s : State) (a : Nat) (bs : List Byte) : (s.putMem a bs).memBytes a bs.length = bs := by
  unfold State.memBytes
  apply List.ext_getElem?
  intro i
  by_cases hi : i < bs.length
  · simp [hi, memByte_putMem]
  · simp [hi]

/-! ### Little-endian numbers -/

@[simp] theorem leBytes_length (n x : Nat) : (leBytes n x).length = n := by
  induction n generalizing x with
  | zero => rfl
  | succ n ih => simp [leBytes, ih]

theorem leNat_leBytes (n x : Nat) : leNat (leBytes n x) = x % 256 ^ n := by
  induction n generalizing x with
  | zero => simp [leBytes, leNat, Nat.mod_one]
  | succ n ih =>
    have h : 256 ^ (n + 1) = 256 * 256 ^ n := by rw [pow_succ, Nat.mul_comm]
    rw [leBytes, leNat, ih, BitVec.toNat_ofNat, h, Nat.mod_mul]

/-- A number reads back as written (R4). -/
theorem memNat_putMemNat (s : State) (a n v : Nat) : (s.putMemNat a n v).memNat a n = v % 256 ^ n := by
  have h := memBytes_putMem_self s a (leBytes n v)
  rw [leBytes_length] at h
  rw [State.memNat, State.putMemNat, h, leNat_leBytes]

@[simp] theorem memByte_setStrand (s : State) (n a : Nat) (x : Strand) : (s.setStrand n x).memByte a = s.memByte a := rfl
@[simp] theorem memByte_setCore (s : State) (n a : Nat) (x : Core) : (s.setCore n x).memByte a = s.memByte a := rfl
@[simp] theorem memByte_setDie (s : State) (n a : Nat) (x : Die) : (s.setDie n x).memByte a = s.memByte a := rfl

/-- A byte of a scratchpad after a write. -/
theorem spm_putSpm (s : State) (core off x : Nat) (bs : List Byte) :
    smGet 0 ((s.putSpm core off bs).coreAt core).spm x =
      if off ≤ x ∧ x < off + bs.length then (bs[x - off]?).getD 0 else smGet 0 (s.coreAt core).spm x := by
  simp only [State.putSpm, State.modCore, coreAt_setCore, if_true, smGet_memPut]

end Machine
end Sys2Proof
end

