-- ==== Sys2Proof/Laws/Scratchpad.lean ====
section
/-!
SUPPORT. What a read of a scratchpad without failing check bits, active copy and bound copy answers: its bytes, and the machine as it
was (R20, R23, R89).
-/
namespace Sys2Proof.Machine

theorem foldl_fix {α β : Type} {g : α → β → α} {s : α} (l : List β) (h : ∀ x ∈ l, g s x = s) : l.foldl g s = s := by
  induction l with
  | nil => rfl
  | cons x r ih =>
    rw [List.foldl_cons, h x List.mem_cons_self]
    exact ih fun y hy => h y (List.mem_cons_of_mem _ hy)

/-- Nothing is bound: a function over the attachments changes nothing. -/
theorem mapBound_plain {s : State} {core : Nat} (f : State → Nat → Nat → Attachment → State × Attachment)
    (h : ∀ k, k < Config.slots → ∀ p ∈ (s.strandAt (core * Config.slots + k)).sync, p.2.att = none) : s.mapBound core f = s := by
  unfold State.mapBound
  refine foldl_fix _ fun k hk => if_pos ?_
  simp only [List.all_eq_true, Option.isNone_iff_eq_none]
  exact h k (List.mem_range.mp hk)

/-- No copy range is active: nothing waits on a watermark. -/
theorem behindMark_plain {s : State} {core : Nat} (h : s.plainSpm core) (off n : Nat) : s.behindMark core off n = false := by
  unfold State.behindMark
  simp only [List.any_eq_false]
  intro p hp
  simp [h.2.1 p hp]

/-- Nothing is bound: an access fills nothing. -/
theorem touchSpm_plain {s : State} {core : Nat} (h : s.plainSpm core) (off n : Nat) (sup : Bool) (task : Nat) :
    s.touchSpm core off n sup task = (s, none) := by
  have hb : s.boundAt core off n = [] := by
    unfold State.boundAt
    simp only [List.flatMap_eq_nil_iff, List.filterMap_eq_nil_iff]
    intro k hk p hp
    simp [h.2.2 k (List.mem_range.mp hk) p hp]
  simp [State.touchSpm, hb]

theorem readSpm_plain {s : State} {core : Nat} (h : s.plainSpm core) (off n : Nat) : s.readSpm core off n = (s, s.spmBytes core off n) := by
  simp [State.readSpm, touchSpm_plain h]

/-- A read of a plain scratchpad within the strand's window, or by another core's agent. -/
theorem fetchSpm_plain {s : State} {core : Nat} (h : s.plainSpm core) (w : Who) (off n : Nat) (own : Bool)
    (hw : ∀ k, w.strand = some k → own = true → (s.strandAt k).inWindow off n = true) :
    s.fetchSpm w core off n own = (s, .bytes (s.spmBytes core off n)) := by
  have hb := behindMark_plain h off n
  have hr := touchSpm_plain h off n w.sup w.task
  unfold State.fetchSpm State.scanSpm
  cases hs : w.strand with
  | none => simp [hb, hr, h.1]
  | some k => cases ho : own <;> simp [hb, hr, h.1, hw k hs, ho]

/-- An entry's read of bytes of its own scratchpad that no earlier entry of another engine is to write (R28, R252, R86). -/
theorem unit_own {s : State} {e : Entry} (h : s.plainSpm e.core) (hu : e.undef = false) {off n : Nat} (hint : Nat) (ho : off < 0x400000)
    (hr : e.races s (localBase + off) n = false)
    (hw : ∀ k, e.strand = some k → (s.strandAt k).inWindow off n = true) :
    Rd.unit { s } e (localBase + off) n hint = ({ s }, s.spmBytes e.core off n) := by
  have hv : (BitVec.ofNat 64 (localBase + off)).toNat = localBase + off := by
    rw [BitVec.toNat_ofNat]
    unfold localBase
    omega
  have hl : isLocal (localBase + off) = true := by
    unfold isLocal localBase
    simp only [Bool.and_eq_true, decide_eq_true_eq]
    omega
  have hp : s.place e.core e.sup .rd 3 (BitVec.ofNat 64 (localBase + off)) = (s, .ok (.spm e.core off true)) := by
    simp [State.place, hv, hl, localPlace, ho]
  have hf := fetchSpm_plain h (e.who s) off n true fun k hk _ => hw k hk
  simp [Rd.unit, hp, State.fetchPlace, hf, hu, hr]

/-- A map record in the own scratchpad (R294). -/
theorem record_own {s : State} {e : Entry} (h : s.plainSpm e.core) (hu : e.undef = false) {v : View} {rec off : Nat} (hv : v.base + rec * 4096 = localBase + off)
    (h8 : (localBase + off) % 8 = 0) (ho : off + 4096 ≤ 0x400000) (hr : ∀ i, i < 328 → e.races s (localBase + (off + 8 * i)) 8 = false)
     (hw : ∀ k i, e.strand = some k → i < 328 → (s.strandAt k).inWindow (off + 8 * i) 8 = true) :
    Rd.record { s } e v rec = ({ s }, (List.range 328).flatMap fun i => s.spmBytes e.core (off + 8 * i) 8) := by
  have step (n : Nat) (hn : n ≤ 328) : (List.range n).foldl (fun (x : Rd × List Byte) i =>
      ((Rd.bytes x.1 e (v.base + rec * 4096 + 8 * i) 8 0).1, x.2 ++ (Rd.bytes x.1 e (v.base + rec * 4096 + 8 * i) 8 0).2)) ({ s }, []) =
      ({ s }, (List.range n).flatMap fun i => s.spmBytes e.core (off + 8 * i) 8) := by
    induction n with
    | zero => rfl
    | succ n ih =>
      have hb : Rd.bytes { s } e (v.base + rec * 4096 + 8 * n) 8 0 = ({ s }, s.spmBytes e.core (off + 8 * n) 8) := by
        have : (v.base + rec * 4096 + 8 * n) % 8 = 0 := by omega
        rw [Rd.bytes, if_pos (by simp [this]), hv, Nat.add_assoc, unit_own h hu 0 (by omega) (hr n (by omega)) fun k hk => hw k n hk (by omega)]
      rw [List.range_succ, List.foldl_append, ih (by omega), List.flatMap_append]
      simp [hb]
  exact step 328 (Nat.le_refl _)

end Sys2Proof.Machine
end

