-- ==== Sys2Proof/Laws/Records.lean ====
section
/-!
SUPPORT. A map record reads back as it was written (R301).
-/
namespace Sys2Proof.Machine

/-- Block `i` of blocks of two bytes. -/
theorem take_blocks {α β : Type} {f : α → List β} (hf : ∀ a, (f a).length = 2) (l : List α) (rest : List β) (i : Nat) (h : i < l.length) :
    ((l.flatMap f ++ rest).drop (2 * i)).take 2 = f l[i] := by
  induction l generalizing i with
  | nil => simp at h
  | cons a r ih =>
    have h2 : (f a).length = 2 := hf a
    cases i with
    | zero => simp [List.flatMap_cons, List.append_assoc, h2]
    | succ i =>
      have : 2 * (i + 1) = (f a).length + 2 * i := by omega
      rw [List.flatMap_cons, List.append_assoc, this, ← List.drop_drop, List.drop_left]
      simpa using ih i (by simpa using h)

theorem u16List_length (l : List Nat) (n d : Nat) : (u16List l n d).length = 2 * n := by
  simp [u16List, List.length_flatMap, Nat.mul_comm]

/-- Entry `i` of a list of 16-bit entries. -/
theorem u16List_entry (l : List Nat) (n d i : Nat) (rest : List Byte) (h : i < n) (hv : (l[i]?).getD d < 65536) :
    leNat (((u16List l n d ++ rest).drop (2 * i)).take 2) = (l[i]?).getD d := by
  have := take_blocks (f := fun i => leBytes 2 ((l[i]?).getD d)) (fun _ => leBytes_length _ _) (List.range n) rest i (by simpa using h)
  rw [u16List, this, leNat_leBytes]
  simpa using hv

theorem u16List_map (l : List Nat) (n d : Nat) (rest : List Byte) (hl : l.length = n) (hv : ∀ x ∈ l, x < 65536) :
    ((List.range n).map fun i => leNat (((u16List l n d ++ rest).drop (2 * i)).take 2)) = l := by
  apply List.ext_getElem
  · simp [hl]
  · intro i h1 h2
    have hg : (l[i]?).getD d = l[i] := by simp [h2]
    rw [List.getElem_map, List.getElem_range, u16List_entry l n d i rest (by simpa using h1) (by rw [hg]; exact hv _ (List.getElem_mem h2)), hg]

/-- The fields of a record fit their places. -/
structure MapRec.Fits (r : MapRec) : Prop where
  wrows : r.wrows < 2 ^ 16
  present : r.present < 2 ^ 16
  nbkt : r.nbkt < 256
  nbits : r.nbits < 16
  rep : r.rep < 4
  valid : r.valid = true
  ovf : r.ovf < 2 ^ 16
  k : r.k < 2 ^ 16
  ver : r.ver < 2 ^ 24
  member : r.member.length = 1024 ∧ ∀ x ∈ r.member, x < 65536
  repidx : r.repidx.length = 128 ∧ ∀ x ∈ r.repidx, x < 65536
  count : r.count.length = 128 ∧ ∀ x ∈ r.count, x < 65536

theorem crcOf_lt (bs : List Byte) : crcOf bs < 2 ^ 32 := BitVec.isLt _

theorem recOf_written (r : MapRec) (h : r.Fits) (rest : List Byte) : recOf (r.header true ++ r.tables ++ rest) = (r, crcOf r.tables) := by
  have hl : (r.header true).length = 64 := leBytes_length _ _
  have hc := crcOf_lt r.tables
  obtain ⟨h1, h2, h3, h4, h5, h6, h7, h8, h9, ⟨h10, h10a⟩, ⟨h11, h11a⟩, ⟨h12, h12a⟩⟩ := h
  have hm : ((List.range 1024).map fun i => leNat (((r.header true ++ r.tables ++ rest).drop (0x40 + 2 * i)).take 2)) = r.member := by
    have hx (i : Nat) : (r.header true ++ r.tables ++ rest).drop (0x40 + 2 * i) =
        (u16List r.member 1024 0xFFFF ++ (u16List r.repidx 128 0xFFFF ++ u16List r.count 128 0 ++ rest)).drop (2 * i) := by
      rw [← List.drop_drop, List.append_assoc, show 0x40 = (r.header true).length from hl.symm, List.drop_left]
      simp [MapRec.tables]
    simp only [hx]
    exact u16List_map _ _ _ _ h10 h10a
  have hq : ((List.range 128).map fun i => leNat (((r.header true ++ r.tables ++ rest).drop (0x840 + 2 * i)).take 2)) = r.repidx := by
    have hx (i : Nat) : (r.header true ++ r.tables ++ rest).drop (0x840 + 2 * i) =
        (u16List r.repidx 128 0xFFFF ++ (u16List r.count 128 0 ++ rest)).drop (2 * i) := by
      rw [← List.drop_drop, show 0x840 = (r.header true ++ u16List r.member 1024 0xFFFF).length by simp [hl, u16List_length]]
      rw [show r.header true ++ r.tables ++ rest = (r.header true ++ u16List r.member 1024 0xFFFF) ++
        (u16List r.repidx 128 0xFFFF ++ (u16List r.count 128 0 ++ rest)) by simp [MapRec.tables], List.drop_left]
    simp only [hx]
    exact u16List_map _ _ _ _ h11 h11a
  have hn : ((List.range 128).map fun i => leNat (((r.header true ++ r.tables ++ rest).drop (0x940 + 2 * i)).take 2)) = r.count := by
    have hx (i : Nat) : (r.header true ++ r.tables ++ rest).drop (0x940 + 2 * i) = (u16List r.count 128 0 ++ rest).drop (2 * i) := by
      rw [← List.drop_drop, show 0x940 = (r.header true ++ u16List r.member 1024 0xFFFF ++ u16List r.repidx 128 0xFFFF).length by simp [hl, u16List_length]]
      rw [show r.header true ++ r.tables ++ rest = (r.header true ++ u16List r.member 1024 0xFFFF ++ u16List r.repidx 128 0xFFFF) ++
        (u16List r.count 128 0 ++ rest) by simp [MapRec.tables], List.drop_left]
    simp only [hx]
    exact u16List_map _ _ _ _ h12 h12a
  have hh : leNat ((r.header true ++ r.tables ++ rest).take 64) = r.wrows + r.present * 2 ^ 16 + r.nbkt * 2 ^ 32 + r.nbits * 2 ^ 40 + r.rep * 2 ^ 44 + 2 ^ 46 +
      r.ovf * 2 ^ 48 + r.k * 2 ^ 64 + r.ver * 2 ^ 80 + crcOf r.tables * 2 ^ 128 := by
    rw [List.append_assoc, show 64 = (r.header true).length from hl.symm, List.take_left, MapRec.header, leNat_leBytes]
    refine Nat.mod_eq_of_lt ?_
    simp only [if_true]
    norm_num only at *
    omega
  unfold recOf
  simp only [hm, hq, hn, hh]
  refine Prod.ext ?_ ?_
  · cases r
    simp only [MapRec.mk.injEq, and_true] at *
    norm_num only [Nat.testBit_eq_decide_div_mod_eq, decide_eq_true_eq] at *
    simp only [h6]
    refine ⟨?_, ?_, ?_, ?_, ?_, ?_, ?_, ?_, ?_⟩
    all_goals first | omega | (rw [decide_eq_true_eq]; omega)
  · norm_num only at *
    omega

/-- The tests of R303 on a record as it was written: the check field is right, the others are the record's own. -/
theorem recOk_written (r : MapRec) (h : r.Fits) (rest : List Byte) (ver w : Nat) (reuse : Option (Nat × Nat)) :
    recOk (r.header true ++ r.tables ++ rest) ver w reuse = (r.ver == ver && r.wrows == w && decide (r.nbkt ≤ 128) && decide (4 ≤ r.nbits) && decide (r.nbits ≤ 11) &&
      r.rep != 3 && ((r.member.zipIdx).all fun (m, i) => m == 0xFFFF || (decide (i < w) && decide (m < r.nbkt))) &&
      ((List.range r.nbkt).all fun b => decide ((r.repidx[b]?).getD 0xFFFF < w) && decide (1 ≤ (r.count[b]?).getD 0)) &&
      match reuse with
      | some (rep, m) => r.rep == rep && decide (r.nbkt ≤ m)
      | none => true) := by
  have hl : (r.header true).length = 64 := leBytes_length _ _
  have ht : r.tables.length = 0xA00 := by simp [MapRec.tables, u16List_length]
  have hb : ((r.header true ++ r.tables ++ rest).drop 0x40).take 0xA00 = r.tables := by
    rw [List.append_assoc, show 0x40 = (r.header true).length from hl.symm, List.drop_left, show 0xA00 = r.tables.length from ht.symm, List.take_left]
  unfold recOk
  rw [recOf_written r h rest, hb]
  cases reuse <;> simp [h.valid]

/-- A record written into a plain scratchpad reads back. -/
theorem record_put {s : State} {e : Entry} {v : View} {rec off : Nat} {bs : List Byte} (h : (s.putSpm e.core off bs).plainSpm e.core) (hu : e.undef = false)
    (hb : bs.length = 4096) (hr : ∀ i, i < 328 → e.races (s.putSpm e.core off bs) (localBase + (off + 8 * i)) 8 = false) (hv : v.base + rec * 4096 = localBase + off) (h8 : (localBase + off) % 8 = 0) (ho : off + 4096 ≤ 0x400000)
    (hw : ∀ k i, e.strand = some k → i < 328 → (s.strandAt k).inWindow (off + 8 * i) 8 = true) :
    Rd.record { s := s.putSpm e.core off bs } e v rec = ({ s := s.putSpm e.core off bs }, bs.take 2624) := by
  rw [record_own h hu hv h8 ho hr hw]
  refine congrArg _ (List.ext_getElem? fun i => ?_)
  have hx (a : Nat) : (s.putSpm e.core off bs).spmBytes e.core (off + 8 * a) 8 = (List.range 8).map fun j => if 8 * a + j < 4096 then (bs[8 * a + j]?).getD 0
      else smGet 0 (s.coreAt e.core).spm (off + 8 * a + j) := by
    unfold State.spmBytes
    refine List.map_congr_left fun j _ => ?_
    simp only [spm_putSpm, hb]
    by_cases hj : 8 * a + j < 4096
    · rw [if_pos (by omega), if_pos hj, show off + 8 * a + j - off = 8 * a + j by omega]
    · rw [if_neg (by omega), if_neg hj]
  have key (n : Nat) (hn : n ≤ 328) : (List.range n).flatMap (fun a => (s.putSpm e.core off bs).spmBytes e.core (off + 8 * a) 8) = bs.take (8 * n) := by
    induction n with
    | zero => simp
    | succ n ih =>
      rw [List.range_succ, List.flatMap_append, ih (by omega), List.flatMap_singleton, hx, show 8 * (n + 1) = 8 * n + 8 by omega, List.take_add]
      refine congrArg _ (List.ext_getElem (by simp; omega) fun j h1 h2 => ?_)
      have hj : j < 8 := by simpa using h1
      have hl : 8 * n + j < bs.length := by omega
      simp [show 8 * n + j < 4096 by omega, hl]
  rw [key 328 (Nat.le_refl _)]

end Sys2Proof.Machine
end

