-- ==== Sys2Proof/Tests/Slice0.lean ====
section
/-!
SUPPORT. The model's own tests. Words of every instruction decode to it; an ill-formed term is refused by each check; for every
statement with hypotheses a concrete state and operands meet them, and where it costs little the conclusion is evaluated there too.
Expected values are the spec's worked examples, or worked out by hand from its rules.
-/
open Sys2Proof Sys2Proof.Machine
namespace Sys2Proof.Tests
set_option Elab.async false

/-! ### States -/

/-- The next state of an outcome. -/
def nx (o : Host.Outcome State Fault Refusal) : State := match o with
  | .next t => t
  | _ => {}

/-- The outcome is a next state. -/
def runs (o : Host.Outcome State Fault Refusal) : Bool := match o with
  | .next _ => true
  | _ => false

/-- A state equality as a Bool. -/
def isNext (o : Host.Outcome State Fault Refusal) (t : State) : Bool := match o with
  | .next u => u == t
  | _ => false

/-- One strand of task 1 in supervisor context on core 0, and a page table that maps the first GiB at 0x40000000 (R97 to R100). -/
def tk : State :=
  let x : Strand := { live := true, task := 1, gangSize := 1, pc := 0x10000, addr := 0x10000, now := { sup := true }, spmLen := 0x400000, accN := 4 }
  { mem := [(0x1000, 0x01), (0x1001, 0x20), (0x2000, 0x01), (0x2001, 0x30), (0x3000, 0x3B), (0x3003, 0x40)],
    boot := { state := 2 }, tasks := [(1, {})], nextTask := 2, dies := [(0, { ptbase := 0x1000 })],
    strands := [(0, x.openRegion { entry := 0x10000 })] }

/-- The strand with other registers, and the strand changed. -/
def withS (l : List (Nat × Nat)) (s : State) : State := l.foldl (fun s p => s.modSt (·.modNow (·.setS p.1 (BitVec.ofNat 64 p.2)))) s
def withT (l : List (Nat × Desc)) (s : State) : State := l.foldl (fun s p => s.modSt (·.modNow (·.setT p.1 p.2))) s
def user (s : State) : State := s.modSt (·.modNow ({ · with sup := false }))
def trapped (s : State) : State := s.modSt (·.modNow ({ · with trapped := true, psup := true, trapPc := 0x20000 }))
def handler (s : State) : State := s.modCore 0 ({ · with tvec := 0x8000 })

/-- The address of byte `off` of the own scratchpad, and a descriptor of a tensor there. -/
def own (off : Nat) : Nat := localBase + off
def tensor (off rows cols fmt : Nat) : Desc :=
  BitVec.ofNat 256 (own off + cols * 2 ^ 64 + rows * 2 ^ 80 + 2 ^ 96 + (cols * fmtBits (fmtOf fmt) / 8) * 2 ^ 112 + fmt * 2 ^ 136)
/-- A descriptor of a tensor in memory. -/
def tensorM (va rows cols fmt : Nat) : Desc :=
  BitVec.ofNat 256 (va + cols * 2 ^ 64 + rows * 2 ^ 80 + 2 ^ 96 + (cols * fmtBits (fmtOf fmt) / 8) * 2 ^ 112 + fmt * 2 ^ 136 + 2 ^ 252)
/-! ### Decoding: a word of every instruction, written out from the encoding tables of spec 05 (R139 to R147) and its own rule -/

/-- The decoder reads each word as its instruction, and the encoder gives the word back. -/
def readsAs (nbits : Nat) (l : List (Nat × Instr)) : Bool :=
  l.all fun p => decodeTableWord nbits p.1 == some p.2 && encode p.2 == some (nbits, p.1)

theorem test_words_integer : readsAs 32
    [(0x0553D080, .add 0x15 0xF 0x10 0x1),
     (0x05012801, .sub 0x10 0x4 0x28 0x0),
     (0x05636802, .and 0x16 0xD 0x28 0x0),
     (0x05395C03, .or 0x13 0x25 0x1C 0x0),
     (0x07325284, .xor 0x33 0x9 0x12 0x1),
     (0x061D5485, .andn 0x21 0x35 0x14 0x1),
     (0x04A96F06, .sll 0xA 0x25 0x2F 0x0),
     (0x05A56F87, .srl 0x1A 0x15 0x2F 0x1),
     (0x07D02088, .sra 0x3D 0x0 0x20 0x1),
     (0x05F8CD09, .mul 0x1F 0x23 0xD 0x0),
     (0x06BE438A, .mulhs 0x2B 0x39 0x3 0x1),
     (0x04E00E0B, .mulhu 0xE 0x0 0xE 0x0),
     (0x073CB98C, .divs 0x33 0x32 0x39 0x1),
     (0x0483128D, .divu 0x8 0xC 0x12 0x1),
     (0x0772A38E, .rems 0x37 0xA 0x23 0x1),
     (0x06D9F98F, .remu 0x2D 0x27 0x39 0x1),
     (0x05585F90, .min 0x15 0x21 0x1F 0x1),
     (0x05DCA211, .minu 0x1D 0x32 0x22 0x0),
     (0x06F58E92, .max 0x2F 0x16 0xE 0x1),
     (0x0782EF13, .maxu 0x38 0xB 0x2F 0x0),
     (0x0642D194, .slt 0x24 0xB 0x11 0x1),
     (0x05E4FF95, .sltu 0x1E 0x13 0x3F 0x1),
     (0x0537C016, .clz 0x13 0x1F 0x0),
     (0x06BBC017, .ctz 0x2B 0x2F 0x0),
     (0x072E4018, .popc 0x32 0x39 0x0),
     (0x07138099, .brev 0x31 0xE 0x1),
     (0x04BC281A, .sext 0xB 0x30 0x28 0x0),
     (0x0638CA9B, .zext 0x23 0x23 0xA 0x1),
     (0x0921B5C1, .addi 0x12 0x6 0x35C1),
     (0x0DA10FD4, .andi 0x1A 0x4 0xFD4),
     (0x11826E64, .ori 0x18 0x9 0x2E64),
     (0x14A721C5, .xori 0xA 0x1C 0x21C5),
     (0x36090CD9, .muli 0x20 0x24 0xCD9),
     (0x1AB8801B, .slli 0x2B 0x22 0x0 0x1B),
     (0x1975902E, .srli 0x17 0x16 0x0 0x2E),
     (0x1A5AA01D, .srai 0x25 0x2A 0x0 0x1D),
     (0x1F01B688, .lui 0x30 0x1B688),
     (0x220DCFB5, .auipc 0x20 0xDCFB5),
     (0x25577108, .bext 0x15 0x1D 0x31 0x2 0x0),
     (0x29435074, .bins 0x14 0xD 0x10 0x1D),
     (0x2DBC6A01, .bextr 0x1B 0x31 0x2A 0x1),
     (0x31C65D00, .binsr 0x1C 0x19 0x1D),
     (0x39B10050, .sel 0x1B 0x4 0x0 0x5)] = true := by decide +kernel

theorem test_words_control : readsAs 32
    [(0x425FFE35, .ld 0x25 0x3F 0x3E3 0x1 0x1),
     (0x478FA028, .lds 0x38 0x3E 0x202 0x2 0x0),
     (0x48D46BDC, .st 0xD 0x11 0x2BD 0x3),
     (0x4CBCD9B6, .ldx 0xB 0x33 0x19B6),
     (0x515D94F7, .stx 0x15 0x36 0x14F7),
     (0x54082810, .prf 0x20 0x281 0x0),
     (0x5A764814, .amoAdd 0x27 0x19 0x8 0x5 0x0),
     (0x5BB59323, .amoAnd 0x3B 0x16 0x13 0x0 0x3),
     (0x59713D52, .amoOr 0x17 0x4 0x3D 0x4 0x2),
     (0x58D63466, .amoXor 0xD 0x18 0x34 0x1 0x2),
     (0x59C54181, .amoMin 0x1C 0x15 0x1 0x0 0x1),
     (0x5AC14FA0, .amoMax 0x2C 0x5 0xF 0x0 0x0),
     (0x5983D5CD, .amoSwap 0x18 0xF 0x15 0x3 0x1),
     (0x592D0BE6, .amoCas 0x12 0x34 0xB 0x1 0x2),
     (0x5F745F14, .amofFaddF32 0x37 0x11 0x1F 0x5 0x0),
     (0x5D894C36, .amofFaddBf16x2 0x18 0x25 0xC 0x5 0x2),
     (0x5D5DD754, .amofFminF32 0x15 0x37 0x17 0x5 0x0),
     (0x5D199263, .amofFmaxF32 0x11 0x26 0x12 0x0 0x3),
     (0x630E1E80, .cmpEq 0x6 0x38 0x1E 0x1),
     (0x611B7180, .cmpNe 0x2 0x2D 0x31 0x1),
     (0x63A2CB80, .cmpLt 0x7 0xB 0xB 0x1),
     (0x60BBD800, .cmpGe 0x1 0x2F 0x18 0x0),
     (0x61CD0380, .cmpLtu 0x3 0x34 0x3 0x1),
     (0x61DDF900, .cmpGeu 0x3 0x37 0x39 0x0),
     (0x61E56600, .cmpTst 0x3 0x15 0x26 0x0),
     (0x63F9F600, .cmpNtst 0x7 0x27 0x36 0x0),
     (0x66830CD4, .cmpiEq 0x5 0xC 0xCD4),
     (0x661FEF5E, .cmpiNe 0x4 0x3F 0x2F5E),
     (0x66A32CCA, .cmpiLt 0x5 0xC 0x2CCA),
     (0x65BB59AC, .cmpiGe 0x3 0x2D 0x19AC),
     (0x654F3880, .cmpiLtu 0x2 0x3C 0x3880),
     (0x67D6E7C0, .cmpiGeu 0x7 0x1B 0x27C0),
     (0x6566B678, .cmpiTst 0x2 0x1A 0x3678),
     (0x64F389E0, .cmpiNtst 0x1 0xE 0x9E0),
     (0x6B030100, .gopAnd 0x6 0xC 0x1),
     (0x6B924D00, .gopOr 0x7 0x9 0xD),
     (0x6B224400, .gopXor 0x6 0x9 0x4),
     (0x6832C300, .gopAndn 0x0 0xB 0x3),
     (0x6E801A80, .fcmpFeq 0x5 0x0 0x1A 0x1),
     (0x6F168000, .fcmpFlt 0x6 0x1A 0x0 0x0),
     (0x6E2E9800, .fcmpFle 0x4 0x3A 0x18 0x0),
     (0x6D3F1080, .fcmpFun 0x2 0x3C 0x10 0x1)] = true := by decide +kernel

theorem test_words_memory : readsAs 32
    [(0x814F6FBB, .pbr 0x1 0x4F6FBB),
     (0x86D00000, .br 0x2 0xD),
     (0x89400000, .brl 0x1 0x4),
     (0x8F088000, .mtbt 0x3 0x22),
     (0x96C00000, .loop 0x2 0x3),
     (0x94D48000, .lset 0x3 0x12),
     (0x98002F0C, .trap 0x2F0C),
     (0x9C000000, .nop),
     (0x9C000001, .yield),
     (0x9C000002, .texit),
     (0x9C000003, .halt),
     (0x9C000004, .eret),
     (0x9C000005, .wfi),
     (0x9C000006, .bkpt),
     (0xA0444A40, .fadd 0x4 0x11 0xA 0x2 0x0),
     (0xA361A141, .fsub 0x36 0x6 0x21 0x2 0x0),
     (0xA01F6822, .fmul 0x1 0x3D 0x28 0x1 0x0),
     (0xA09A3E53, .fdiv 0x9 0x28 0x3E 0x2 0x1),
     (0xA0518054, .fsqrt 0x5 0x6 0x2 0x1),
     (0xA1C95D05, .fmin 0x1C 0x25 0x1D 0x0),
     (0xA091DB16, .fmax 0x9 0x7 0x1B 0x1),
     (0xA285C017, .fabs 0x28 0x17 0x1),
     (0xA0750018, .fneg 0x7 0x14 0x1),
     (0xA0BD2A19, .fsgnj 0xB 0x34 0x2A 0x1),
     (0xA349800A, .fclass 0x34 0x26 0x0),
     (0xA59E6910, .fma 0x19 0x39 0x29 0x4),
     (0xA5D588FD, .fms 0x1D 0x16 0x8 0x3F),
     (0xA6B1D052, .fnma 0x2B 0x7 0x10 0x14),
     (0xA7020D7F, .fnms 0x30 0x8 0xD 0x1F),
     (0xA9751C20, .fcvt 0x17 0x14 0x3 0x4 0x1 0x0)] = true := by decide +kernel

theorem test_words_system : readsAs 32
    [(0xC1500021, .mfs 0x15 0x21),
     (0xC40FC064, .mts 0x3F 0x64),
     (0xCB869704, .acq 0x38 0x1A 0x17 0x1),
     (0xC8050228, .rel 0x0 0x14 0x2 0x2),
     (0xCB842B54, .arv 0x38 0x10 0x2B 0x5),
     (0xCADA7F70, .waitb 0x2D 0x29 0x3F 0x4),
     (0xCACF2A88, .bind 0x2C 0x3C 0x2A 0x2),
     (0xCBE958B4, .unbind 0x3E 0x25 0x18 0x5),
     (0xCC000008, .fence 0x2),
     (0xD0000001, .drain 0x1),
     (0xD40D0F80, .setf 0x34 0x1F 0x0 0x0),
     (0xD40AD27A, .addf 0x2B 0x4 0x1 0x3A),
     (0xD6902500, .getf 0x29 0xA),
     (0xD8901200, .epop 0x9 0x12),
     (0xD9A00B01, .epopt 0x1A 0xB),
     (0xDC0E1300, .epush 0x38 0x13),
     (0xE2910300, .tdld 0x29 0x4 0x3),
     (0xE0311101, .tdst 0x3 0x4 0x11),
     (0xE375146A, .tdset 0x37 0x14 0x14 0xD),
     (0xE206C843, .tdget 0x20 0x1B 0x8 0x8),
     (0xE09CCB04, .tdcpy 0x9 0x33 0xB),
     (0xE4000002, .prio 0x2),
     (0xE80E8800, .mbpost 0x0 0x3A 0x8),
     (0xEB93CA01, .mbfin 0x39 0xF 0xA),
     (0xEACB4202, .mbver 0x2C 0x2D 0x2),
     (0xEC000000, .tlbiPage 0x0),
     (0xEC088001, .tlbiTenant 0x22),
     (0xEC070002, .tlbiAll 0x1C),
     (0xF009C004, .cinv 0x27 0x1),
     (0xF0060005, .cfls 0x18 0x1),
     (0xF0000002, .icsync),
     (0xF0020D03, .dstchk 0x8 0xD 0x0)] = true := by decide +kernel

theorem test_words_vector_a : readsAs 96
    [(0x1E90E51C04534C588002400, .vadd { ga := 0xE, gb := 0x9, td := 0x3, ts1 := 0x25, ts2 := 0x7, od := 0x11, os := 0x13, cnt := 0x98B1, fe := 0x1, fl := 0x4 }),
     (0x2167E40807627AEB800A100, .vsub { ga := 0x1, gb := 0x6, td := 0x1F, ts1 := 0x24, ts2 := 0x2, od := 0x1D, os := 0x22, cnt := 0xF5D7, hint := 0x2, fe := 0x1, fl := 0x1 }),
     (0x376375B80D6B53BE000B000, .vmul { ga := 0x7, gb := 0x6, td := 0xD, ts1 := 0x35, ts2 := 0x2E, od := 0x35, os := 0x2B, cnt := 0xA77C, hint := 0x2, fe := 0x1, fl := 0x10 }),
     (0x47F8458512F32AC68006F00, .vfma { ga := 0x7, gb := 0xF, td := 0x21, ts1 := 0x5, ts2 := 0x21, ts3 := 0x11, od := 0xB, os := 0x33, cnt := 0x558D, hint := 0x1, fe := 0x1, fl := 0xF }),
     (0x566C2C0F88EF217D0006200, .vfms { ga := 0x6, gb := 0x6, td := 0x30, ts1 := 0x2C, ts2 := 0x3, ts3 := 0x38, od := 0x23, os := 0x2F, cnt := 0x42FA, hint := 0x1, fe := 0x1, fl := 0x2 }),
     (0x68F9470C0A4772690003700, .vdiv { ga := 0x8, gb := 0xF, td := 0x25, ts1 := 0x7, ts2 := 0x3, od := 0x29, os := 0x7, cnt := 0xE4D2, fe := 0x1, fl := 0x17 }),
     (0x7AF8D53403A23003000BD00, .vmin { ga := 0xA, gb := 0xF, td := 0x23, ts1 := 0x15, ts2 := 0xD, od := 0xE, os := 0x22, cnt := 0x6006, hint := 0x2, fe := 0x1, fl := 0x1D }),
     (0x8F4F21A80E865FAB800A700, .vmax { ga := 0xF, gb := 0x4, td := 0x3C, ts1 := 0x21, ts2 := 0x2A, od := 0x3A, os := 0x6, cnt := 0xBF57, hint := 0x2, fe := 0x1, fl := 0x7 }),
     (0x95EE2E000E302C960002D00, .vabs { ga := 0x5, gb := 0xE, td := 0x38, ts1 := 0x2E, od := 0x38, os := 0x30, cnt := 0x592C, fe := 0x1, fl := 0xD }),
     (0xA9422F000B5B59B78007600, .vneg { ga := 0x9, gb := 0x4, td := 0x8, ts1 := 0x2F, od := 0x2D, os := 0x1B, cnt := 0xB36F, hint := 0x1, fe := 0x1, fl := 0x16 }),
     (0xBA60B4000A7C002F0006300, .vsqrt { ga := 0xA, gb := 0x6, td := 0x2, ts1 := 0x34, od := 0x29, os := 0x3C, cnt := 0x5E, hint := 0x1, fe := 0x1, fl := 0x3 }),
     (0xC4964800047111AA8003600, .vrcp { ga := 0x4, gb := 0x9, td := 0x19, ts1 := 0x8, od := 0x11, os := 0x31, cnt := 0x2355, fe := 0x1, fl := 0x16 }),
     (0xD413FD0005715DFF0003B00, .vrsq { ga := 0x4, gb := 0x1, td := 0xF, ts1 := 0x3D, od := 0x15, os := 0x31, cnt := 0xBBFE, fe := 0x1, fl := 0x1B }),
     (0xEF89110002757C948003300, .vscl { ga := 0xF, gb := 0x8, td := 0x24, ts1 := 0x11, od := 0x9, os := 0x35, cnt := 0xF929, fe := 0x1, fl := 0x13 }),
     (0xFC2581BC778B02680007100, .vaxpy { ga := 0xC, gb := 0x2, td := 0x16, ts1 := 0x1, ts2 := 0x2F, ts3 := 0x7, od := 0x1E, os := 0xB, cnt := 0x4D0, hint := 0x1, fe := 0x1, fl := 0x11 }),
     (0x10A96BBF212DD7E920003500, .vclmp { ga := 0xA, gb := 0x9, td := 0x1A, ts1 := 0x3B, ts2 := 0x3C, ts3 := 0x21, od := 0xB, os := 0x1D, cnt := 0xFD24, fe := 0x1, fl := 0x15 }),
     (0x114F2A8000DD158490002700, .vrnd { ga := 0x4, gb := 0xF, td := 0xA, ts1 := 0x28, od := 0x37, os := 0x11, cnt := 0xB092, fe := 0x1, fl := 0x7 }),
     (0x200AC70000B1961FC000B500, .vexp { gb := 0xA, td := 0x31, ts1 := 0x30, od := 0x2C, os := 0x19, cnt := 0xC3F8, hint := 0x2, fe := 0x1, fl := 0x15 }),
     (0x215AA58000C0C2FFC800B300, .vexp2 { ga := 0x5, gb := 0xA, td := 0x29, ts1 := 0x18, od := 0x30, os := 0xC, cnt := 0x5FF9, hint := 0x2, fe := 0x1, fl := 0x13 }),
     (0x2239BCD00067A017B0002800, .vlog { ga := 0x3, gb := 0x9, td := 0x2F, ts1 := 0xD, od := 0x19, os := 0x3A, cnt := 0x2F6, fe := 0x1, fl := 0x8 }),
     (0x23B54F0000E712C600007C00, .vlog2 { ga := 0xB, gb := 0x5, td := 0x13, ts1 := 0x30, od := 0x39, os := 0x31, cnt := 0x58C0, hint := 0x1, fe := 0x1, fl := 0x1C }),
     (0x24296FA000AD63B908007000, .vtanh { ga := 0x2, gb := 0x9, td := 0x1B, ts1 := 0x3A, od := 0x2B, os := 0x16, cnt := 0x7721, hint := 0x1, fe := 0x1, fl := 0x10 }),
     (0x25ABAB1000F257BE9000A900, .vsigm { ga := 0xA, gb := 0xB, td := 0x2A, ts1 := 0x31, od := 0x3C, os := 0x25, cnt := 0xF7D2, hint := 0x2, fe := 0x1, fl := 0x9 }),
     (0x26BB3CC000FFA52768003500, .vgelu { ga := 0xB, gb := 0xB, td := 0xF, ts1 := 0xC, od := 0x3F, os := 0x3A, cnt := 0xA4ED, fe := 0x1, fl := 0x15 }),
     (0x27F8DD80007D76CD38007B00, .vsilu { ga := 0xF, gb := 0x8, td := 0x37, ts1 := 0x18, od := 0x1F, os := 0x17, cnt := 0xD9A7, hint := 0x1, fe := 0x1, fl := 0x1B })] = true := by decide +kernel

theorem test_words_vector_b : readsAs 96
    [(0x289A821000ED03F758002A00, .vsin { ga := 0x9, gb := 0xA, td := 0x20, ts1 := 0x21, od := 0x3B, os := 0x10, cnt := 0x7EEB, fe := 0x1, fl := 0xA }),
     (0x29804FF0008A16B10800B000, .vcos { ga := 0x8, td := 0x13, ts1 := 0x3F, od := 0x22, os := 0x21, cnt := 0xD621, hint := 0x2, fe := 0x1, fl := 0x10 }),
     (0x300E006000D3E28158002F00, .vcvt { gb := 0xE, ts1 := 0x6, od := 0x34, os := 0x3E, cnt := 0x502B, fe := 0x1, fl := 0xF }),
     (0x31C50BBC4012D43B90006000, .vqnt { ga := 0xC, gb := 0x5, td := 0x2, ts1 := 0x3B, ts2 := 0x31, od := 0x4, os := 0x2D, cnt := 0x8772, hint := 0x1, fe := 0x1 }),
     (0x32AD20454050E3EB78006700, .vdqnt { ga := 0xA, gb := 0xD, td := 0x8, ts1 := 0x4, ts2 := 0x15, od := 0x14, os := 0xE, cnt := 0x7D6F, hint := 0x1, fe := 0x1, fl := 0x7 }),
     (0x332ED0C0008AE074C0003E00, .vcvti { ga := 0x2, gb := 0xE, td := 0x34, ts1 := 0xC, od := 0x22, os := 0x2E, cnt := 0xE98, fe := 0x1, fl := 0x1E }),
     (0x340437D0008586E5F8006600, .vcvtf { gb := 0x4, td := 0xD, ts1 := 0x3D, od := 0x21, os := 0x18, cnt := 0xDCBF, hint := 0x1, fe := 0x1, fl := 0x6 }),
     (0x40F6388B809C5294D8003600, .vcmp { ga := 0xF, gb := 0x6, td := 0xE, ts1 := 0x8, ts2 := 0x2E, od := 0x27, os := 0x5, cnt := 0x529B, fe := 0x1, fl := 0x16 }),
     (0x41E6AA5B15A917B5A800AE00, .vsel { ga := 0xE, gb := 0x6, td := 0x2A, ts1 := 0x25, ts2 := 0x2C, ts3 := 0x15, od := 0x2A, os := 0x11, cnt := 0xF6B5, hint := 0x2, fe := 0x1, fl := 0xE }),
     (0x42CDB3AE40CAE2A258006700, .vand { ga := 0xC, gb := 0xD, td := 0x2C, ts1 := 0x3A, ts2 := 0x39, od := 0x32, os := 0x2E, cnt := 0x544B, hint := 0x1, fe := 0x1, fl := 0x7 }),
     (0x43090672C082C0C468003B00, .vor { gb := 0x9, td := 0x1, ts1 := 0x27, ts2 := 0xB, od := 0x20, os := 0x2C, cnt := 0x188D, fe := 0x1, fl := 0x1B }),
     (0x445B629E80DD83FD7800A800, .vxor { ga := 0x5, gb := 0xB, td := 0x18, ts1 := 0x29, ts2 := 0x3A, od := 0x37, os := 0x18, cnt := 0x7FAF, hint := 0x2, fe := 0x1, fl := 0x8 }),
     (0x45AD75C000F434564000B100, .vnot { ga := 0xA, gb := 0xD, td := 0x1D, ts1 := 0x1C, od := 0x3D, os := 0x3, cnt := 0x8AC8, hint := 0x2, fe := 0x1, fl := 0x11 }),
     (0x46FB92300060B27720006C00, .vshl { ga := 0xF, gb := 0xB, td := 0x24, ts1 := 0x23, od := 0x18, os := 0xB, cnt := 0x4EE4, hint := 0x1, fe := 0x1, fl := 0xC }),
     (0x478F0330000A435C6000A900, .vshr { ga := 0x8, gb := 0xF, ts1 := 0x33, od := 0x2, os := 0x24, cnt := 0x6B8C, hint := 0x2, fe := 0x1, fl := 0x9 }),
     (0x50CE2CE000ECC298A000B800, .vrsum { ga := 0xC, gb := 0xE, td := 0xB, ts1 := 0xE, od := 0x3B, os := 0xC, cnt := 0x5314, hint := 0x2, fe := 0x1, fl := 0x18 }),
     (0x514F6400000406E768003300, .vrmax { ga := 0x4, gb := 0xF, td := 0x19, od := 0x1, cnt := 0xDCED, fe := 0x1, fl := 0x13 }),
     (0x52E6483000A6820A6000A100, .vrmin { ga := 0xE, gb := 0x6, td := 0x12, ts1 := 0x3, od := 0x29, os := 0x28, cnt := 0x414C, hint := 0x2, fe := 0x1, fl := 0x1 }),
     (0x5336B1D0007CE45C4000BF00, .vramx { ga := 0x3, gb := 0x6, td := 0x2C, ts1 := 0x1D, od := 0x1F, os := 0xE, cnt := 0x8B88, hint := 0x2, fe := 0x1, fl := 0x1F }),
     (0x54D63A8000BD70C060006F00, .vscan { ga := 0xD, gb := 0x6, td := 0xE, ts1 := 0x28, od := 0x2F, os := 0x17, cnt := 0x180C, hint := 0x1, fe := 0x1, fl := 0xF }),
     (0x5578D740002DF6E2C0006800, .vvote { ga := 0x7, gb := 0x8, td := 0x35, ts1 := 0x34, od := 0xB, os := 0x1F, cnt := 0xDC58, hint := 0x1, fe := 0x1, fl := 0x8 }),
     (0x56CA740000DC04B3F8002A00, .vflgc { ga := 0xC, gb := 0xA, td := 0x1D, od := 0x37, cnt := 0x967F, fe := 0x1, fl := 0xA }),
     (0x57EC7560008C410070006000, .vrssq { ga := 0xE, gb := 0xC, td := 0x1D, ts1 := 0x16, od := 0x23, os := 0x4, cnt := 0x200E, hint := 0x1, fe := 0x1 }),
     (0x5860ED1000EEC07E60002700, .vlse { ga := 0x6, td := 0x3B, ts1 := 0x11, od := 0x3B, os := 0x2C, cnt := 0xFCC, fe := 0x1, fl := 0x7 }),
     (0x602681D0008C24FE60006500, .vmov { ga := 0x2, gb := 0x6, td := 0x20, ts1 := 0x1D, od := 0x23, os := 0x2, cnt := 0x9FCC, hint := 0x1, fe := 0x1, fl := 0x5 })] = true := by decide +kernel

theorem test_words_vector_c : readsAs 96
    [(0x615B14000080028388002000, .vfill { ga := 0x5, gb := 0xB, td := 0x5, od := 0x20, cnt := 0x5071, fe := 0x1 }),
     (0x622638F6804816622000A000, .vgth { ga := 0x2, gb := 0x6, td := 0xE, ts1 := 0xF, ts2 := 0x1A, od := 0x12, os := 0x1, cnt := 0xCC44, hint := 0x2, fe := 0x1 }),
     (0x637A5B2B4001865850003000, .vsct { ga := 0x7, gb := 0xA, td := 0x16, ts1 := 0x32, ts2 := 0x2D, os := 0x18, cnt := 0xCB0A, fe := 0x1, fl := 0x10 }),
     (0x64766BB000B40387D8003C00, .vtrn { ga := 0x7, gb := 0x6, td := 0x1A, ts1 := 0x3B, od := 0x2D, cnt := 0x70FB, fe := 0x1, fl := 0x1C }),
     (0x65E11000005C0053C8003E00, .viota { ga := 0xE, gb := 0x1, td := 0x4, od := 0x17, cnt := 0xA79, fe := 0x1, fl := 0x1E }),
     (0x6679BF9DF4DF542B90002A00, .vcmpr { ga := 0x7, gb := 0x9, td := 0x2F, ts1 := 0x39, ts2 := 0x37, ts3 := 0x34, od := 0x37, os := 0x35, cnt := 0x8572, fe := 0x1, fl := 0xA }),
     (0x675B360900FED63D40003200, .vexpd { ga := 0x5, gb := 0xB, td := 0xD, ts1 := 0x20, ts2 := 0x24, od := 0x3F, os := 0x2D, cnt := 0xC7A8, fe := 0x1, fl := 0x12 }),
     (0x70338BC7407AD061E0007300, .viadd { ga := 0x3, gb := 0x3, td := 0x22, ts1 := 0x3C, ts2 := 0x1D, od := 0x1E, os := 0x2D, cnt := 0xC3C, hint := 0x1, fe := 0x1, fl := 0x13 }),
     (0x71798DF100B7743C78007300, .visub { ga := 0x7, gb := 0x9, td := 0x23, ts1 := 0x1F, ts2 := 0x4, od := 0x2D, os := 0x37, cnt := 0x878F, hint := 0x1, fe := 0x1, fl := 0x13 }),
     (0x72CEA5D580219790C000B700, .vimul { ga := 0xC, gb := 0xE, td := 0x29, ts1 := 0x1D, ts2 := 0x16, od := 0x8, os := 0x19, cnt := 0xF218, hint := 0x2, fe := 0x1, fl := 0x17 }),
     (0x73ED6E54409CD13DC0006500, .vimin { ga := 0xE, gb := 0xD, td := 0x1B, ts1 := 0x25, ts2 := 0x11, od := 0x27, os := 0xD, cnt := 0x27B8, hint := 0x1, fe := 0x1, fl := 0x5 }),
     (0x740D2632C0F18508E0003B00, .vimax { gb := 0xD, td := 0x9, ts1 := 0x23, ts2 := 0xB, od := 0x3C, os := 0x18, cnt := 0xA11C, fe := 0x1, fl := 0x1B }),
     (0x755249F00062C540E8003500, .vpopc { ga := 0x5, gb := 0x2, td := 0x12, ts1 := 0x1F, od := 0x18, os := 0x2C, cnt := 0xA81D, fe := 0x1, fl := 0x15 }),
     (0x768BF3E000F9C0E830002200, .vbext { ga := 0x8, gb := 0xB, td := 0x3C, ts1 := 0x3E, od := 0x3E, os := 0x1C, cnt := 0x1D06, fe := 0x1, fl := 0x2 }),
     (0x77676AF00058553318002D00, .vhash { ga := 0x6, gb := 0x7, td := 0x1A, ts1 := 0x2F, od := 0x16, os := 0x5, cnt := 0xA663, fe := 0x1, fl := 0xD })] = true := by decide +kernel

theorem test_words_command_a : readsAs 192
    [(0x199380271004C71F0800000000000000000000000000000, .mstep { ga := 0x9, t1 := 0x24, t2 := 0x38, o1 := 0x27, o2 := 0x4, n := 0x4C71, acc := 0x7, fl := 0x10, fe := 0x1 }),
     (0x224BF017DC3D22C42800000000000000000000000000000, .mnest { ga := 0x2, t1 := 0x12, t2 := 0x3F, o1 := 0x17, o2 := 0x37, o3 := 0x3, n := 0xD22C, acc := 0x2, fl := 0x2, fe := 0x1 }),
     (0x3E0000000002C9A1F8000000000000300000000000B1075, .mnset { ga := 0xE, n := 0x2C9A, fl := 0x1F, fe := 0x1, mode := 0x3, imm := 0xB1075 }),
     (0x43640016000000074800000000000000000000000000000, .mwb { ga := 0x3, t1 := 0x19, o1 := 0x16, acc := 0x3, fl := 0x14, fe := 0x1 }),
     (0x570000000000000DD800000000000000000000000000000, .mzero { ga := 0x7, acc := 0x6, fl := 0x1D, fe := 0x1 }),
     (0x621C00390000000BF800000000000000000000000000000, .mlda { ga := 0x2, t1 := 0x7, o1 := 0x39, acc := 0x5, fl := 0x1F, fe := 0x1 }),
     (0x77490B3C5BFF05B1380000000000000000000000000CFFF, .mspc { ga := 0x7, t1 := 0x12, t2 := 0x10, t3 := 0x2C, o1 := 0x3C, o2 := 0x16, o3 := 0x3F, n := 0xF05B, fl := 0x13, fe := 0x1, imm := 0xCFFF }),
     (0x8174060F02809411D800000000000000000000000000000, .msig { ga := 0x1, t1 := 0x1D, t3 := 0x18, o1 := 0xF, o3 := 0x28, n := 0x941, fl := 0x1D, fe := 0x1 }),
     (0x92691EC2BDA00001B800000000000000000000000000000, .mscat { ga := 0x2, t1 := 0x1A, t2 := 0x11, t3 := 0x3B, o1 := 0x2, o2 := 0x2F, o3 := 0x1A, fl := 0x1B, fe := 0x1 }),
     (0x40D96800544000001080000000000C760000000000000000, .cpy { ga := 0xD, t1 := 0x25, t2 := 0x28, o1 := 0x5, o2 := 0x11, fl := 0x10, fe := 0x1, mode := 0xC76 }),
     (0x41E7C27166C000001080000000000D760000000000000000, .cpyi { ga := 0xE, t1 := 0x1F, t2 := 0x2, t3 := 0x1C, o1 := 0x16, o2 := 0x1B, fl := 0x10, fe := 0x1, mode := 0xD76 }),
     (0x42BFCE03F04000000880000000000D680000000000000000, .cpyrs { ga := 0xB, t1 := 0x3F, t2 := 0xE, o1 := 0x3F, o2 := 0x1, fl := 0x8, fe := 0x1, mode := 0xD68 }),
     (0x432FCD01F100000001800000000004DE0000000000000000, .cpyk { ga := 0x2, t1 := 0x3F, t2 := 0xD, o1 := 0x1F, o2 := 0x4, fl := 0x1, fe := 0x1, mode := 0x4DE }),
     (0x4438730191C0000008800000000001A60000000000009FFF, .cpymc { ga := 0x3, t1 := 0x21, t2 := 0x33, o1 := 0x19, o2 := 0x7, fl := 0x8, fe := 0x1, mode := 0x1A6, imm := 0x9FFF }),
     (0x45E000000000000007800000000000000000000000000000, .cwmk { ga := 0xE, fl := 0x7, fe := 0x1 }),
     (0x46F00000000000000980000000000210000000000276031F, .ctpl { ga := 0xF, fl := 0x9, fe := 0x1, mode := 0x210, imm := 0x276031F }),
     (0x483D20009800F43A10800000000000000000000000000000, .clar { ga := 0x3, t1 := 0x34, t2 := 0x20, o1 := 0x9, o2 := 0x20, n := 0xF43A, fl := 0x10, fe := 0x1 }),
     (0x49870F02B240899117800000000000000000000000000000, .clrs { ga := 0x8, t1 := 0x1C, t2 := 0xF, o1 := 0x2B, o2 := 0x9, n := 0x8991, fl := 0x17, fe := 0x1 }),
     (0x4AD6CB011480C9C805800000000000000000000000000000, .clag { ga := 0xD, t1 := 0x1B, t2 := 0xB, o1 := 0x11, o2 := 0x12, n := 0xC9C8, fl := 0x5, fe := 0x1 }),
     (0x4B574D03D640D57316800000000000000000000000000000, .clbc { ga := 0x5, t1 := 0x1D, t2 := 0xD, o1 := 0x3D, o2 := 0x19, n := 0xD573, fl := 0x16, fe := 0x1 }),
     (0x4C65C000E4409FC90D800000000000000000000000000000, .clxr { ga := 0x6, t1 := 0x17, o1 := 0xE, o2 := 0x11, n := 0x9FC9, fl := 0xD, fe := 0x1 }),
     (0x4D05C000E000E22E02800000000000000000000000000000, .clgrp { t1 := 0x17, o1 := 0xE, n := 0xE22E, fl := 0x2, fe := 0x1 }),
     (0x50E000027000000009800000000000000000000000000000, .mbsend { ga := 0xE, o1 := 0x27, fl := 0x9, fe := 0x1 }),
     (0x51E00003D000000014800000000000000000000000000000, .mbrls { ga := 0xE, o1 := 0x3D, fl := 0x14, fe := 0x1 }),
     (0x52700000000000001E800000000000000000000000000000, .mbpol { ga := 0x7, fl := 0x1E, fe := 0x1 })] = true := by decide +kernel

theorem test_words_command_b : readsAs 192
    [(0x53400003A00000001E800000000000000000000000000000, .mbstgLoad { ga := 0x4, o1 := 0x3A, fl := 0x1E, fe := 0x1 }),
     (0x5390000000000000058000000000C2010000000000000000, .mbstgEnable { ga := 0x9, fl := 0x5, fe := 0x1, mode := 0xC201 }),
     (0x53C00000000000000C8000000000E2020000000000000000, .mbstgDestroy { ga := 0xC, fl := 0xC, fe := 0x1, mode := 0xE202 }),
     (0x5330000000000000088000000000D2030000000000000000, .mbstgCancel { ga := 0x3, fl := 0x8, fe := 0x1, mode := 0xD203 }),
     (0x588EC002900000001E800000000000000000000000000000, .stsh { ga := 0x8, t1 := 0x3B, o1 := 0x29, fl := 0x1E, fe := 0x1 }),
     (0x59303002B00000000F800000000000000000000000000000, .stft { ga := 0x3, t2 := 0x30, o1 := 0x2B, fl := 0xF, fe := 0x1 }),
     (0x5AE000015000000012800000000000000000000000000000, .stpf { ga := 0xE, o1 := 0x15, fl := 0x12, fe := 0x1 }),
     (0x5B5000022000000007800000000000000000000000000000, .stdr { ga := 0x5, o1 := 0x22, fl := 0x7, fe := 0x1 }),
     (0x5C4000008000000003800000000000000000000000000000, .stqy { ga := 0x4, o1 := 0x8, fl := 0x3, fe := 0x1 }),
     (0x60C00001000000001A800000000000000000000000000000, .opj { ga := 0xC, o1 := 0x10, fl := 0x1A, fe := 0x1 }),
     (0x61E00001200000001C800000000000000000000000000000, .oprt { ga := 0xE, o1 := 0x12, fl := 0x1C, fe := 0x1 }),
     (0x62A00000000000000480000000000000000000000005986A, .opsk { ga := 0xA, fl := 0x4, fe := 0x1, imm := 0x5986A })] = true := by decide +kernel

/-! ### Scalar instructions -/

/-- R180: ADD wraps, SLT is signed, DIVS of the most negative number by -1 gives it back, and a zero divisor gives all ones. -/
theorem test_integer_corners :
    let s := withS [(2, 2 ^ 64 - 1), (3, 1), (4, 2 ^ 63)] tk
    (nx (exec (.add 1 2 3 0) s)).st.now.getS 1 = 0 ∧ (nx (exec (.slt 1 2 3 0) s)).st.now.getS 1 = 1 ∧ (nx (exec (.sltu 1 2 3 0) s)).st.now.getS 1 = 0 ∧
    (nx (exec (.divs 1 4 2 0) s)).st.late.map (·.val) = [2 ^ 63] ∧ (nx (exec (.divu 1 4 0 0) s)).st.late.map (·.val) = [BitVec.allOnes 64] := by decide +kernel

/-- The worked example of R183: LUI, ADDI and BINS build the address 0x00FFFF0000020000. -/
theorem test_address_example :
    (nx (exec (.bins 5 6 40 16) (nx (exec (.addi 6 0 0x3FFF) (nx (exec (.lui 5 0x20) tk)))))).st.now.getS 5 = 0x00FFFF0000020000 := by decide +kernel

/-- A word shift by 31, the largest that R181 allows. -/
theorem test_shift_boundary : (31 : BitVec 6).toNat < 32 ∧
    (nx (exec (.srai 1 2 1 31) (withS [(2, 0x80000000)] tk))).st.now.getS 1 = BitVec.allOnes 64 := by decide +kernel

/-- A later result: before its bound the register holds its old value, at its bound the new one (R151). -/
theorem test_late_result :
    let s := withS [(2, 6), (3, 7)] tk
    let t := nx (exec (.mul 1 2 3 0) s)
    (1 : BitVec 6) ≠ 0 ∧ s.st.late = [] ∧ ((t.advance 0 2).strandAt 0).now.getS 1 = 0 ∧ ((t.advance 0 3).strandAt 0).now.getS 1 = 42 := by decide +kernel

/-- A returned load (R154). -/
theorem test_scoreboard_return :
    let b : Board := { dst := .s 5, val := some 9, seq := 0, rid := 1 }
    let s := tk.modSt ({ · with board := [b] })
    (s.strandAt s.ev.n).board[s.ev.k]? = some b ∧ b.val = some 9 ∧ b.undef = false ∧ ((nx (exec .scoreboardReturn s)).strandAt 0).now.getS 5 = 9 := by decide +kernel

/-- R196: FLT of a quiet NaN is false and raises NV; FEQ raises nothing for it. -/
theorem test_float_compare :
    let s := withS [(2, 0x7FC00000), (3, 0x3F800000)] tk
    (nx (exec (.fcmpFlt 1 2 3 0) s)).st.now.vflags = 1 ∧ (nx (exec (.fcmpFeq 1 2 3 0) s)).st.now.vflags = 0 ∧
    (nx (exec (.fcmpFun 1 2 3 0) s)).st.now.getG 1 = true := by decide +kernel

/-- R200: 1 + 2^-24 in F32 is the tie that rounds to even, and is inexact. -/
theorem test_float_add :
    let s := withS [(2, 0x3F800000), (3, 0x33800000)] tk
    (nx (exec (.fadd 1 2 3 0 0) s)).st.late.map (fun l => (l.val, l.left)) = [(0x3F800000, 4)] ∧
    (nx (exec (.fadd 1 2 3 0 0) s)).st.now.vflags ≠ 0 := by decide +kernel

/-- The premises of ExactArithmetic, with every operand nonzero. -/
theorem test_exact_premises : (3 : Nat) ≠ 0 ∧ (7 : Nat) ≠ 0 ∧ (1 : Nat) ≠ 0 ∧ valDiv (.fin false 1 3) (.fin true 1 7) = (.fin true 7 3, 0) := by decide

/-- Branches and loops, each clause: a guard that fails, a guard that holds with a target that is aligned, and counts 0, 1 and 2. -/
theorem test_branches :
    let s := tk.modSt fun x => { x with now := { x.now with bt := [(1, 0x20000)], lc := [(1, 1), (2, 2)] } }
    let target := s.st.src.getBt 1
    s.st.src.guard 8 = false ∧ s.st.src.guard 0 = true ∧ target.toNat % 4 = 0 ∧ s.st.src.getLc 0 = 0 ∧ s.st.src.getLc 1 = 1 ∧ 1 < (s.st.src.getLc 2).toNat ∧
    (nx (exec (.brl 1 0) s)).st.pc = 0x20000 ∧ (nx (exec (.brl 1 0) s)).st.now.getS 63 = 0x10000 ∧ isNext (exec (.br 1 8) s) s = true ∧
    (nx (exec (.loop 1 2) s)).st.now.getLc 2 = 1 ∧ (nx (exec (.loop 1 1) s)).st.pc = 0x10000 := by decide +kernel

/-- One instruction of each shape of RegisterInstructionFrame runs. -/
theorem test_register_frame :
    computes (.add 1 2 3 0) = some 1 ∧ decides (.cmpEq 1 2 3 0) = some 1 ∧ floats (.fadd 1 2 3 0 0) = some 1 ∧
    runs (exec (.add 1 2 3 0) tk) = true ∧ runs (exec (.cmpEq 1 2 3 0) tk) = true ∧ runs (exec (.fadd 1 2 3 0 0) tk) = true := by decide +kernel

/-! ### Traps, supervisor context and system registers -/

theorem test_trap_taken :
    let s := handler tk
    (s.st.fault = none ∧ s.st.idle = true ∧ s.st.late = [] ∧ s.st.flight.bind (·.before s.st.seq) = none ∧
      ∀ r ∈ s.st.regions.takeWhile (·.rid != s.st.curRid), r.expCycles = 0 ∨ r.checked = true) ∧ s.st.now.trapped = false ∧ (s.coreAt s.curCore).tvec ≠ 0 ∧
    (nx (exec (.trap 5) s)).st.pc = 0x8000 ∧ (nx (exec (.trap 5) s)).st.now.trapCause = 0xFFFF12 ∧ (nx (exec (.trap 5) s)).st.now.trapAux = 5 := by decide +kernel

/-- No handler: the task is faulted and its other strand cancelled. -/
theorem test_unhandled_trap :
    let s := tk.setStrand 1 { live := true, task := 1 }
    (s.st.fault = none ∧ s.st.idle = true ∧ s.st.late = [] ∧ s.st.flight.bind (·.before s.st.seq) = none ∧
      ∀ r ∈ s.st.regions.takeWhile (·.rid != s.st.curRid), r.expCycles = 0 ∨ r.checked = true) ∧ (s.st.now.trapped = true ∨ (s.coreAt s.curCore).tvec = 0) ∧ s.st.live = true ∧
    (∀ p ∈ s.strands, p.2.sync = []) ∧ smFind s.tasks s.st.task = some {} ∧ (s.strandAt 1).task = s.st.task ∧ (s.strandAt 1).live = true ∧ 1 ∈ s.strands.map (·.1) ∧
    (nx (exec (.trap 5) s)).taskAt 1 = { status := 1, cause := 18, pc := 0x10000, info := 0x10000 } ∧
    ((nx (exec (.trap 5) s)).strandAt 1).cancelling = true := by decide +kernel

theorem test_trap_return : (trapped tk).st.src.sup = true ∧ (trapped tk).st.src.trapped = true ∧ tk.st.src.trapped = false ∧
    (nx (exec .eret (trapped tk))).st.pc = 0x20000 := by decide +kernel

theorem test_privileged : privileged .halt = true ∧ (user tk).st.src.sup = false ∧ decodeTableWord 32 0x9C000003 = some .halt ∧
    (nx (exec .halt (handler (user tk)))).st.now.trapAux = 0x10 := by decide +kernel

/-- A register of each clause of SystemRegisters: a plain one, an allowance, WDOG_LIMIT's neighbours by number, and a read-only one. -/
theorem test_system_registers :
    tk.st.flight = none ∧ tk.st.now.sup = true ∧ (0x60 : BitVec 14).toNat = 0x60 ∧ (0x8F : BitVec 14).toNat = 0x80 + 15 ∧ (0x10 : BitVec 14).toNat ≤ 0x10 ∧
    (let s := withS [(2, 0xFFFFFFFFFFFFFFFF)] tk
     (nx (exec (.mts 2 0x60) s)).sysRead 0x60 = ~~~3 ∧ (nx (exec (.mts 2 0x8F) s)).sysRead 0x8F = 0xFF ∧ (nx (exec (.mts 2 0x61) s)).sysRead 0x61 = 7 ∧
     (nx (exec (.mts 2 0x21) s)).st.now.lanes = [] ∧ isNext (exec (.mts 2 0x10) s) (s.raise (7, 0x11) s.st.addr) = true) := by decide +kernel

/-- The premises of StrandControl: a first try, a second try that ends a wait, a commit that may happen, and the classes of PRIO. -/
theorem test_strand_control :
    let r := tk.modSt ({ · with retry := true })
    tk.st.retry = false ∧ tk.st.src.sup = true ∧ r.st.retry = true ∧ r.st.wfi = false ∧ r.st.halted = false ∧ r.st.src.sup = true ∧
    (tk.st.cancelling = false ∧ tk.st.mayCommit = true) ∧ tk.st.sync = [] ∧ (2 : BitVec 2) ≠ 3 ∧
    (nx (exec .texit tk)).st = {} ∧ (nx (exec (.setf 2 7 1 5) tk)).st.now.getF 7 = 5 ∧ (nx (exec .wfi tk)).st.blocked = 5 := by decide +kernel

/-! ### Scalar memory -/

theorem test_plain_spm : tk.plainSpm 0 := ⟨by decide, by decide, by decide⟩
theorem test_plain_mem : tk.plainMem := ⟨rfl, rfl, rfl, rfl, rfl, rfl, rfl⟩

/-- The last bytes of the scratchpad, for each width of access. -/
theorem test_own_scratchpad :
    let s := withS [(2, own 0x3FFFF8), (3, own 0x3FFFE0), (4, 0x1122334455667788)] tk
    s.ownBytes (s.rs 2 + (0 : BitVec 10).signExtend 64 <<< 3) 0x3FFFF8 8 ∧ s.ownBytes (s.rs 3) 0x3FFFE0 32 ∧
    s.st.unordered s.curCore (own 0x3FFFF8) 8 = false ∧ s.st.unordered s.curCore (own 0x3FFFE0) 32 = false ∧ s.st.again = false ∧
    ((nx (exec (.ld 5 2 0 3 0) (nx (exec (.st 4 2 0 3) s)))).st.board.map (·.val)) = [some 0x1122334455667788] ∧
    ((nx (exec (.lds 5 2 1 1 0) (nx (exec (.st 4 2 1 1) s)))).st.board.map (·.val)) = [some 0x7788] := by
  refine ⟨⟨by decide +kernel, by decide +kernel, by decide +kernel, by decide +kernel⟩,
    ⟨by decide +kernel, by decide +kernel, by decide +kernel, by decide +kernel⟩, ?_⟩
  decide +kernel

/-- A load and a store of memory: the address translates, is aligned, and the line is not in the L1. -/
theorem test_memory_access :
    let s := withS [(2, 0x20000), (4, 0x80)] tk
    let r := s.place 0 true .rd 0 0x20000
    let w := s.place 0 true .wr 1 0x20000
    r = (r.1, .ok (.mem 0x40020000)) ∧ w = (w.1, .ok (.mem 0x40020000)) ∧ (0x20000 : Word).toNat % 8 = 0 ∧ w.1.held = [] ∧ w.1.st.again = false ∧
    ((r.1.coreAt 0).l1 = [] ∧ (r.1.coreAt 0).inj = []) ∧ r.1.st.unordered 0 0x20000 8 = false ∧
    (let t := nx (exec .writePerformed (nx (exec (.st 4 2 0 0) s)))
     t.memByte 0x40020000 = 0x80 ∧ ((nx (exec (.lds 5 2 0 0 0) t)).st.board.map (·.val)) = [some 0xFFFFFFFFFFFFFF80]) := by decide +kernel

theorem test_memory_plain : (tk.place 0 true .rd 0 0x20000).1.plainMem := by
  refine ⟨?_, ?_, ?_, ?_, ?_, ?_, ?_⟩ <;> decide +kernel

/-- An address one byte off alignment, for LD of 8 bytes, LDX and TDLD. -/
theorem test_misaligned :
    let s := withS [(2, 0x20001)] (handler tk)
    (s.rs 2 + (0 : BitVec 10).signExtend 64 <<< 3).toNat % 8 ≠ 0 ∧ (s.rs 2).toNat % 8 ≠ 0 ∧ (s.rs 2).toNat % 32 ≠ 0 ∧
    (nx (exec (.ld 5 2 0 3 0) s)).st.now.trapCause = 0xFFFF05 := by decide +kernel

/-- A store to HBM, whose parity update begins and completes with an earlier one of its line (R95), and one to host memory. -/
theorem test_store_performed :
    let x : Store := { core := 0, strand := 0, va := 0x20000, pa := 0x40020000, bytes := [7] }
    let y : Store := { x with pa := 0x200000000000 }
    let s (x : Store) : State := { tk with stores := [x] }
    let p : Parity := { line := 0x40020000 / 128, core := some 0, strand := some 0 }
    let q : State := { tk with parity := [p, { p with core := some 3 }, { p with line := 5 }], ev := { n := 1 } }
    ((s x).stores[(s x).ev.n]? = some x ∧ (s x).held = [] ∧ (s x).memSyn = [] ∧ (s x).poison = [] ∧ (s x).lost = [] ∧ (s x).l2inj = []) ∧
    isHostRange x.pa = false ∧ x.pa < 528000000000 ∧ 1 ≤ x.bytes.length ∧ x.pa % 128 + x.bytes.length ≤ 128 ∧
    isHostRange y.pa = true ∧ (s y).hostUp = true ∧ q.parity[1]? = some { p with core := some 3 } ∧ q.ev.n = q.stores.length + 1 ∧
    (nx (exec .writePerformed (s x))).stores = [] ∧ (nx (exec .writePerformed (s x))).parity = [p] ∧
    (nx (exec .writePerformed (s y))).out.length = 1 ∧ (nx (exec .writePerformed q)).parity = [{ p with line := 5 }] := by
  decide +kernel

/-- The worked example of spec 07: AMO.CAS, here on the own scratchpad; and a 4-byte atomic. -/
theorem test_atomic :
    let s := withS [(6, own 0x100), (7, 9)] tk
    (s.st.cancelling = false ∧ s.st.mayCommit = true) ∧ s.st.amo = none ∧ s.st.amoOld = none ∧ s.st.again = false ∧ s.stores = [] ∧ s.posted = [] ∧
    (s.rs 6).toNat = localBase + 0x100 ∧ 0x100 + 8 ≤ 0x400000 ∧ (s.rs 6).toNat % 8 = 0 ∧ s.st.inWindow 0x100 8 = true ∧ s.st.inWindow 0x100 4 = true ∧
    leNat ((nx (exec (.amoCas 5 6 7 3 3) s)).spmBytes 0 0x100 8) = 9 ∧
    leNat ((nx (exec (.amofFaddBf16x2 5 6 7 3 0) s)).spmBytes 0 0x100 4) = 9 := by decide +kernel

/-- The first and the last descriptor field. -/
theorem test_descriptor_field :
    let s := withT [(4, 2 ^ 255 + 1)] (withS [(2, 5)] tk)
    tk.stores = [] ∧ ([(0, 64), (64, 16), (80, 16), (96, 16), (112, 24), (136, 4), (140, 2), (143, 1), (144, 32), (176, 48), (224, 24), (248, 4), (252, 4), (64, 64), (128, 64),
      (192, 64)] : List (Nat × Nat))[(15 : BitVec 5).toNat]? = some (192, 64) ∧
    ((nx (exec (.tdset 2 0 4 0) s)).st.now.getT 4).toNat / 2 ^ 64 = 2 ^ 191 ∧ (nx (exec (.tdget 3 0 4 15) s)).st.now.getS 3 = 2 ^ 63 := by decide +kernel

/-! ### Synchronisation, order and communication -/

/-- A sync object at 0x20000 whose address is in s2; s5 holds `v`. -/
def sy (v : Nat) : State := withS [(2, 0x20000), (5, v)] tk
/-- The machine after the object's address is translated, for each need. -/
def syAt (v : Nat) (need : Need) : State := ((sy v).place 0 true need 2 0x20000).1

theorem test_object_found : (sy 0).objectAt ((sy 0).rs 2) .rd 0x40020000 (syAt 0 .rd) ∧ (sy 0).objectAt ((sy 0).rs 2) .wr 0x40020000 (syAt 0 .wr) := by
  refine ⟨⟨?_, ?_, ⟨?_, ?_, ?_, ?_, ?_, ?_, ?_⟩, ?_, ?_⟩, ⟨?_, ?_, ⟨?_, ?_, ?_, ?_, ?_, ?_, ?_⟩, ?_, ?_⟩⟩ <;> decide +kernel

/-- The wait values where ACQ's clauses meet, and the phases where WAITB's do. -/
theorem test_acquire_boundaries :
    let v (x : Nat) : Word := BitVec.ofNat 64 ((syAt x .rd).memNat 0x40020000 8)
    (sy 0).st.acq = none ∧ (v (2 ^ 63 + 1) - (sy (2 ^ 63 + 1)).rs 5).toNat < 2 ^ 63 ∧ 2 ^ 63 ≤ (v (2 ^ 63) - (sy (2 ^ 63)).rs 5).toNat ∧
    (nx (exec (.acq 4 2 5 3) (sy (2 ^ 63)))).st.blocked = 1 ∧ ((nx (exec (.acq 4 2 5 3) (sy (2 ^ 63 + 1)))).st.board.length) = 1 ∧
    (let p := (syAt 0 .rd).memNat 0x40020008 4
     let ahead (x : Nat) : Nat := (BitVec.ofNat 32 p - ((sy x).rs 5).setWidth 32).toNat
     1 ≤ ahead 0xFFFFFFFF ∧ ahead 0xFFFFFFFF < 2 ^ 31 ∧ ahead 0x80000001 = 2 ^ 31 - 1 ∧ ahead 0 = 0 ∧ 2 ^ 31 ≤ ahead 0x80000000) ∧
    (nx (exec (.waitb 4 2 5 3) (sy 0xFFFFFFFF))).st.board.length = 1 ∧ (nx (exec (.waitb 4 2 5 3) (sy 0))).st.waitObj = some 0x40020000 := by decide +kernel

/-- R61: a region that stores over a word it has read is not idempotent; discarded by a trap and executed again, its store and its
results are free values. A region that reads what it has stored itself is idempotent. -/
theorem test_region_executed_again :
    let ld : Nat × Instr := (1, .ld 6 2 0 3 0)
    let st : Nat × Instr := (2, .st 7 2 0 3)
    let bundle (l : List (Nat × Instr)) (s : State) : State := s.modSt fun x => { x with flight := some { left := l, latch := x.now, stall := 0 } }
    let s := withS [(2, own 0x100), (7, 9)] (handler tk)
    let broken (s : State) : Option Bool := s.st.regions.getLast?.map (·.broken)
    let a := nx ((bundle [ld, st] s).runSlots 0 5)
    let t := a.enterTrap 0 { cause := 18, info := 0, aux := 0, seq := 9, rid := a.st.curRid }
    let u := t.returnTrap
    let v := nx ((bundle [(1, .addi 6 2 1), st] (withS [(2, own 0x100)] u)).runSlots 0 5)
    broken a = some true ∧ broken (nx ((bundle [st, (2, .ld 6 2 0 3 0)] s).runSlots 0 5)) = some false ∧
    (t.taskAt 1).redo = [(0, 0x10000, true)] ∧ v.st.again = true ∧ v.fresh = u.fresh + 2 ∧ (v.taskAt 1).redo = [] := by decide +kernel

/-- R78: after an ordinary store to a BARRIER word of an object, held by a strand or not, what is done with it draws free values; after one
to RELSEQ, or after an instruction's own write, it does not. -/
theorem test_marred_object :
    let w := (sy 0).modSt ({ · with sync := [(1, { obj := 0x20000, pa := 0x40020000 })] })
    let m := w.performMem 0 0 0x4002000C [1]
    (w.performMem 0 0 0x40020000 [1]).objSound 0x40020000 = true ∧ m.objSound 0x40020000 = false ∧ w.unsure 0x40020000 = w ∧
    (w.writeObj 0 0x40020000 12 [1]).objSound 0x40020000 = true ∧ ((sy 0).performMem 0 0 0x4002000C [1]).objSound 0x40020000 = false ∧
    (nx (exec (.acq 4 2 0 3) m)).fresh = (nx (exec (.acq 4 2 0 3) w)).fresh + 2 := by decide +kernel

/-- A copy line that lies outside the acquired region stays filled; one inside it is filled again. -/
theorem test_copy_lines :
    let a : Attachment := { base := 0x1000, pages := 1, va := 0x30000, filled := [0x1000, 0x1080] }
    let w := tk.modSt ({ · with sync := [(1, { obj := 0x20000, pa := 0x40020000, att := some a })] })
    (w.coreAt w.curCore).l1 = [] ∧ ((w.acquireRanges [(0x30000, 128)]).st.sync.map fun p => p.2.att.map (·.filled)) = [some [0x1080]] := by decide +kernel

/-- The object with one participant in slot 1, whose last arrival was in phase 4; the barrier stands in phase 5. -/
def arr (phase : Nat) : State :=
  (((sy 0).setBarrier 0x40020000 { expect := 1, arrived := 0, phase := 5 }).modSt fun x =>
    { x with sync := [(1, { obj := 0x20000, pa := 0x40020000, reg := true, phase := BitVec.ofNat 32 phase })] })

theorem test_arrivals :
    let u := ((arr 4).place 0 true .wr 2 0x20000).1
    let v := ((arr 5).place 0 true .wr 2 0x20000).1
    ((arr 4).st.cancelling = false ∧ (arr 4).st.mayCommit = true) ∧
    u.st.slotOf 0x20000 = some (1, { obj := 0x20000, pa := 0x40020000, reg := true, phase := 4 }) ∧ (4 : BitVec 32).toNat ≠ (u.barrier 0x40020000).phase ∧
    v.st.slotOf 0x20000 = some (1, { obj := 0x20000, pa := 0x40020000, reg := true, phase := 5 }) ∧ (5 : BitVec 32).toNat = (v.barrier 0x40020000).phase ∧
    (syAt 0 .wr).st.slotOf 0x20000 = none ∧
    (nx (exec (.arv 4 2 0 3) (arr 4))).barrier 0x40020000 = { expect := 1, arrived := 0, phase := 6 } ∧
    (nx (exec (.rel 4 2 0 3) (sy 0))).memNat 0x40020000 8 = 1 := by decide +kernel

/-- BIND's requests in s4: REG, SPM and range; slot 1 is free, in use, or reserved. -/
theorem test_bindings :
    let s (c w : Nat) : State := withS [(4, c), (5, w)] (sy w)
    let u (c w : Nat) : State := ((s c w).place 0 true .wr 2 0x20000).1
    let range (t : State) (i : Nat) : Nat := t.memNat (0x40020000 + 32 + 8 * i) 8
    let bad (c : Nat) : Word := ((s c 0).rs 4) &&& 0xFFFFFFFFC00FFEE0
    bad 0x20 ≠ 0 ∧ bad 0x11 = 0 ∧ bad 0x1F = 0 ∧ ((s 0x10 0).rs 4).toNat % 16 = 0 ∧ smFind (u 0x11 0).st.sync 1 = none ∧ ((u 0x11 0).barrier 0x40020000).expect < 65535 ∧
    (∀ i, i < 4 → range (u 0x01 0x30001) i ≠ 0x30001) ∧ range (u 0x01 0x30001) 0 % 2 ^ 20 = 0 ∧
    (nx (exec (.bind 4 2 5 3) (s 0x11 0))).barrier 0x40020000 = { expect := 1, arrived := 0, phase := 0 } ∧
    range (nx (exec (.bind 4 2 5 3) (s 0x01 0x3000000001))) 0 = 0x3000000001 ∧
    (let t := withS [(4, 0x100101)] (nx (exec (.bind 4 2 5 3) (s 0x01 0x3000000001)))
     let v := (t.place 0 true .wr 2 0x20000).1
     range v 0 = 0x3000000001 ∧ v.st.inWindow 0x1000 0x1000 = true ∧ smFind v.st.sync 1 = some { obj := 0x20000, pa := 0x40020000 }) ∧
    (let t := withS [(4, 0x100101)] ((nx (exec (.bind 4 2 5 3) (s 0x01 0x3000000001))).modSt ({ · with sync := [] }))
     (((nx (exec (.bind 4 2 5 3) t)).st.sync.map fun p => p.2.att.map fun a => (a.base, a.pages, a.va)) = [some (0x1000, 1, 0x30000000)])) ∧
    (let t := nx (exec (.bind 4 2 5 3) (s 0x11 0))
     let v := (t.place 0 true .wr 2 0x20000).1
     smFind v.st.sync 1 = some { obj := 0x20000, pa := 0x40020000, reg := true, phase := 0xFFFFFFFF } ∧ 0 < (v.barrier 0x40020000).expect ∧
     (0xFFFFFFFF : BitVec 32).toNat ≠ (v.barrier 0x40020000).phase ∧ (nx (exec (.unbind 4 2 5 3) t)).barrier 0x40020000 = { expect := 0, arrived := 0, phase := 0 }) := by
  decide +kernel

theorem test_fence :
    let x : Store := { core := 0, strand := 0, va := 0x20000, pa := 0x40020000, bytes := [7] }
    let p : Posted := { id := 1, core := 0, strand := 0, window := some 0, va := 0, pa := 2 ^ 46 }
    let s : State := { tk with stores := [x] }
    let q : State := { tk with posted := [p] }
    let r := tk.modSt ({ · with board := [{ dst := .s 1, val := none, seq := 0, rid := 0, req := 5 }] })
    s.held = [] ∧ s.memSyn = [] ∧ s.poison = [] ∧ s.lost = [] ∧ s.l2inj = [] ∧ s.posted = [] ∧ (∀ b ∈ s.st.board, b.req = 0 ∨ b.val ≠ none) ∧
    (∃ b ∈ r.st.board, b.req ≠ 0 ∧ b.val = none) ∧ r.posted = [] ∧ (nx (exec (.fence 3) r)).st.blocked = 7 ∧
    (∃ p ∈ q.posted, p.strand = q.cur ∧ q.entryOfPosted p = none) ∧ (∀ p ∈ q.posted, p.pa / 2 ^ 46 ≠ q.node) ∧
    (nx (exec (.fence 3) s)).memByte 0x40020000 = 7 ∧ (nx (exec (.fence 3) q)).st.blocked = 7 := by decide +kernel

/-- Each path with nothing outstanding, and a stash command that the paths 4 and 5 wait for. -/
theorem test_drain :
    let e : Entry := { instr := .stqy {}, strand := some 0, seq := 3 }
    let s := tk.modSt ({ · with queues := [(4, [e])] })
    tk.stores = [] ∧ tk.posted = [] ∧ tk.st.drain = none ∧ (∀ p, p < 6 → tk.drainSet p = []) ∧ e ∈ smGet [] s.st.queues 4 ∧
    (nx (exec (.drain 4) s)).st.blocked = 1 ∧ (nx (exec (.drain 5) s)).st.drain = some [(4, 3)] ∧ (nx (exec (.drain 3) s)).st.drain = none := by decide +kernel

/-- EPOP with and without an element, and the elements that EPUSH takes at the ends of their ranges. -/
theorem test_engine_ports :
    let f := tk.setFifo 0 3 [{ v := 8 }, { v := 9 }]
    let s (v : Nat) : State := withS [(2, v)] tk
    (f.st.cancelling = false ∧ f.st.mayCommit = true) ∧ (f.coreAt f.curCore).l1 = [] ∧ (∀ q ∈ f.st.sync, q.2.att = none) ∧ smGet [] (f.coreAt f.curCore).fifos 3 = [{ v := 8 }, { v := 9 }] ∧
    smGet [] (tk.coreAt tk.curCore).fifos 3 = [] ∧ (64 ≤ (s 64 |>.rs 2).toNat ∧ (s 127 |>.rs 2).toNat < 128) ∧ (smGet [] tk.st.inFifo 0x10).length < 4 ∧
    (s (2 ^ 56 + 5) |>.rs 2).toNat / 2 ^ 40 = 0x10000 ∧ ((s (2 ^ 47 + 7)).rs 2) &&& 0xFFFF0000FFFFFFF8 = 0 ∧ (tk.lqAt 7).tenant = tk.tenantOf 0 ∧
    (s 128 |>.rs 2).toNat / 64 ≠ 1 ∧ (s (2 ^ 57) |>.rs 2).toNat / 2 ^ 40 ≠ 0x10000 ∧ ((s 8).rs 2) &&& 0xFFFF0000FFFFFFF8 ≠ 0 ∧
    (nx (exec (.epop 4 3) f)).st.board.map (·.val) = [some 8] ∧ (nx (exec (.epopt 4 3) tk)).st.now.getG 7 = true ∧ (nx (exec (.epop 4 3) tk)).st.blocked = 6 ∧
    smGet [] (nx (exec (.epush 2 0x10) (s 127))).st.inFifo 0x10 = [127] ∧ (nx (exec (.epush 2 0x14) (s (2 ^ 47 + 7)))).inbox.length = 1 := by decide +kernel

/-- A strand of stage 7, which is active and has tag 3 in flight with kind 0 dispatched and kind 1 finished. -/
def stg (g : Stage) : State := (tk.modSt ({ · with stage := some 7 })).modDie 0 fun x => { x with stages := [(0, g)] }
def stage7 : Stage := { id := 7, state := 1, tags := [(3, { sent := [0, 1], finished := [1] })] }

theorem test_stage_calls :
    let s := withS [(2, 7), (3, 0)] (stg stage7)
    let k3 := withS [(2, 0x307)] (stg stage7)
    let off := withS [(2, 7)] (stg { stage7 with state := 2 })
    let full := withS [(2, 7)] (stg { stage7 with fq := List.replicate 64 {} })
    tk.findStage 0 0 = none ∧ s.findStage 0 7 = some (0, 0, stage7) ∧ (k3.rs 2).toNat / 256 % 4 = 3 ∧ off.findStage 0 7 = some (0, 0, { stage7 with state := 2 }) ∧
    64 ≤ (Stage.queue { stage7 with fq := List.replicate 64 {} } 0).length ∧ (stage7.queue 0).length < 64 ∧ tk.st.stage = none ∧ (tk.st.cancelling = false ∧ tk.st.mayCommit = true) ∧
    s.ownStage s.cur = some (0, 0, stage7) ∧ s.st.stage.isSome ∧ stage7.tag 4 = none ∧ stage7.tag 3 = some { sent := [0, 1], finished := [1] } ∧
    (nx (exec (.mbpost 4 2 3) s)).st.board.map (·.val) = [some 0] ∧ (nx (exec (.mbpost 4 2 3) k3)).st.board.map (·.val) = [some 4] ∧
    (nx (exec (.mbpost 4 2 3) off)).st.board.map (·.val) = [some 2] ∧ (nx (exec (.mbpost 4 2 3) full)).st.board.map (·.val) = [some 1] ∧
    (let t (a k : Nat) : State := nx (exec (.mbfin 4 2 3) (withS [(2, a), (3, k)] (stg stage7)))
     (t 4 0).st.board.map (·.val) = [some 2] ∧ (t 3 1).st.board.map (·.val) = [some 1] ∧ (t 3 2).st.board.map (·.val) = [some 2] ∧ (t 3 0).st.board.map (·.val) = [some 0]) := by
  decide +kernel

/-- A cached translation of the own tenant goes; a queue in its pages reports BUSY. -/
theorem test_translations :
    let s : State := withS [(2, 0x20000), (3, 1)] { tk with tlb := [{ tenant := 0, vpn := 0x20, pte := 0x4000003B, level := 2 }] }
    let q : Nat × LaunchQueue := (3, { state := 1, base := 0x20000 })
    let w := s.modDie 0 ({ · with tenant := 5 })
    s.st.src.sup = true ∧ s.stores = [] ∧ s.posted = [] ∧ s.reqs = [] ∧ (∀ q ∈ s.lqs, q.2.state = 0) ∧ s.tenantOf s.curCore = 0 ∧ (∀ e ∈ s.tlb, e.range.1 < 2 ^ 56) ∧
    (s.rs 3).toNat % 256 ≠ w.tenantOf w.curCore ∧ w.tenantOf w.curCore ≠ 0 ∧ q.2.state ≠ 0 ∧ q.2.tenant = s.tenantOf s.curCore ∧
    overlap (s.tlbiRange (.page 0 0x20000)) (q.2.base.toNat, 64 * 2 ^ q.2.size) = true ∧
    (nx (exec (.tlbiPage 2) s)).tlb = [] ∧ (nx (exec (.tlbiTenant 3) s)).tlb.length = 1 ∧ (nx (exec (.tlbiAll 2) s)).tlb = [] ∧
    (nx (exec (.tlbiPage 2) { s with lqs := [q] })).st.now.getG 7 = true := by decide +kernel

/-- The DSTCHK example of R470: data 3 whose stored check bits 0x07 single out bit 1. -/
theorem test_check_bits :
    let s := withS [(2, own 0x100), (3, 7), (4, 256), (5, 0x20000)] (tk.putSpm 0 0x100 [3])
    let t := nx (exec (.dstchk 2 3 0) s)
    s.st.src.sup = true ∧ s.posted = [] ∧ (s.rs 3).toNat < 256 ∧ 256 ≤ (s.rs 4).toNat ∧ isLocal (s.rs 5).toNat = false ∧ (s.rs 5).toNat < 2 ^ 56 ∧
    (nx (exec (.ld 6 2 0 3 0) t)).st.board.map (·.val) = [some 1] := by decide +kernel

theorem test_check_bits_places :
    let s := withS [(2, own 0x100), (5, 0x20000)] (tk.place 0 true .rd 0 0x20000).1
    s.ownBytes (s.rs 2) 0x100 8 ∧ s.paOf s.curCore ((s.rs 5).toNat / 128 * 128) = some 0x40020000 ∧
    s.paOf s.curCore ((s.rs 5).toNat / 4096 * 4096) = some 0x40020000 := by
  refine ⟨⟨?_, ?_, ?_, ?_⟩, ?_, ?_⟩ <;> decide +kernel

/-- The RGN word of spec 08 opens region 3 for s1 and s2. -/
theorem test_region_opens :
    (∀ q ∈ tk.st.regions.getLast?, q.reopen = false) ∧
    ((nx (exec (.rgn { n := 3, imm := 6 }) tk)).st.regions.getLast?.map fun q => (q.id, q.mask, q.closed)) = some (3, 6, false) := by decide +kernel

/-! ### The vector engine -/

/-- Tensors of the own scratchpad: FP32 sources t2 to t4 and destination t1; INT32 source t5 and destination t6; codes of 8 bits in t7 and
t8; CF32 source t9 and destination t10; and a 2 by 2 FP32 destination t11. -/
def vs : State :=
  let s := withT [(1, tensor 0x2000 1 4 0), (2, tensor 0x1000 1 4 0), (3, tensor 0x1100 1 4 0), (4, tensor 0x1200 1 4 0), (5, tensor 0x1300 1 4 9),
    (6, tensor 0x2100 1 4 9), (7, tensor 0x1400 1 4 10), (8, tensor 0x2200 1 4 10), (9, tensor 0x1500 1 4 14), (10, tensor 0x2300 1 4 14),
    (11, tensor 0x2400 2 2 0)] tk
  let s := s.putSpm 0 0x1000 ([0x3F800000, 0x40000000, 0x40400000, 0xC0800000].flatMap (leBytes 4))
  let s := s.putSpm 0 0x1100 ([0x3F800000, 0x3F800000, 0, 0x7F800000].flatMap (leBytes 4))
  let s := s.putSpm 0 0x1300 ([3, 0, 1, 0xFFFFFFFF].flatMap (leBytes 4))
  s.putSpm 0 0x1400 [0, 1, 0, 5]

/-- The machine in which engine 0 serves the entry of a V instruction, and that entry. -/
def vAt (i : Instr) : State := let s := nx (exec i vs); { s with engine := (smGet [] s.st.queues 0).head? }
def vEntry (i : Instr) : Entry := (vAt i).engine.getD { instr := i }

/-- VReady as a Bool. -/
def vChk (s : State) (e : Entry) (f : VFields) (inPlace : Bool) (ds : List Dst) (xs : List Src) : Bool :=
  s.engine == some e && e.runs && e.phase == 0 && (smFind (s.coreAt e.core).inj (injKey 7 0)).isNone && e.undef == false && e.cnt != 0 &&
  (s.vTdesc e f ds xs).isNone && (valias e f inPlace ds xs).isNone && (Rd.srcs { s } e (vHint f) xs).1.stop.isNone &&
  (Rd.srcs { s } e (vHint f) xs).1.need.isEmpty

theorem vReady_of {s : State} {e : Entry} {f : VFields} {p : Bool} {ds : List Dst} {xs : List Src} (h : vChk s e f p ds xs = true) :
    VReady s (Rd.srcs { s } e (vHint f) xs).1.s e f p ds xs (Rd.srcs { s } e (vHint f) xs).2 := by
  simp only [vChk, Bool.and_eq_true, beq_iff_eq, Option.isNone_iff_eq_none, bne_iff_ne, List.isEmpty_iff] at h
  obtain ⟨⟨⟨⟨⟨⟨⟨⟨⟨h1, h2⟩, h3⟩, h4⟩, h0⟩, h5⟩, h6⟩, h7⟩, h8⟩, h9⟩ := h
  refine ⟨h1, h2, h3, h4, h0, h5, h6, h7, ?_⟩
  generalize Rd.srcs { s } e (vHint f) xs = r at h8 h9
  obtain ⟨⟨t, x, y⟩, l⟩ := r
  subst h8 h9
  rfl

theorem vReady_pair {s : State} {e : Entry} {f : VFields} {p : Bool} {ds : List Dst} {xs : List Src} (h : vChk s e f p ds xs = true)
    (h2 : (Rd.srcs { s } e (vHint f) xs).2.length = 2) :
    VReady s (Rd.srcs { s } e (vHint f) xs).1.s e f p ds xs
      [(Rd.srcs { s } e (vHint f) xs).2.headD [], (Rd.srcs { s } e (vHint f) xs).2.getLastD []] := by
  have h3 := vReady_of h
  revert h3
  generalize (Rd.srcs { s } e (vHint f) xs).2 = l at h2 ⊢
  match l, h2 with
  | [a, b], _ => exact id

/-- The common fields of the vector tests. -/
def vf : VFields := { td := 1, ts1 := 2, ts2 := 3, ts3 := 4, cnt := 4, fe := 1, fl := 3 }
/-- The destination of an elementwise entry. -/
def vDst (e : Entry) (put : Bool) : List Dst := [{ ix := ixFrom e.od e.cnt, put }]

/-- Issue: a count at its limit, a count above it, and a nullified entry. -/
theorem test_vector_issue :
    let g : VFields := { vf with ci := 1, cnt := 5 }
    let at1 (n : Nat) : State := withS [(5, n)] vs
    vs.engine = none ∧ vs.stores = [] ∧ vs.posted = [] ∧ ((at1 65535).st.src.getS 5).toNat ≤ 65535 ∧ 65535 < ((at1 65536).st.src.getS 5).toNat ∧
    (smGet [] (nx (exec (.vadd g) (at1 65535))).st.queues 0).map (·.cnt) = [65535] ∧
    isNext (exec (.vadd g) (at1 65536)) ((at1 65536).raise (4, 5) 0x10000) = true ∧
    (vEntry (.vadd { vf with ga := 8 })).runs = false ∧ smFind (vs.coreAt 0).inj (injKey 7 0) = none ∧
    ((nx (exec (.vadd { vf with ga := 8 }) (vAt (.vadd { vf with ga := 8 })))).st.now.getF 3) = 1 := by decide +kernel

/-- The elementwise operations that put a value: code and number of sources. -/
def putOps : List (Nat × Nat) :=
  [(1, 2), (2, 2), (3, 2), (4, 3), (5, 3), (6, 2), (7, 2), (8, 2), (9, 1), (0xA, 1), (0xB, 1), (0xC, 1), (0xD, 1), (0xE, 1), (0xF, 3), (0x10, 3), (0x11, 1),
   (0x20, 1), (0x21, 1), (0x22, 1), (0x23, 1), (0x24, 1), (0x25, 1), (0x26, 1), (0x27, 1), (0x28, 1), (0x29, 1), (0x30, 1), (0x40, 2)]

theorem test_vector_puts : ∀ p ∈ putOps, ∃ (s u : State) (e : Entry) (l : List (List Got)), VReady s u e vf true (vDst e true) (e.srcs p.1 vf p.2 false) l := by
  have h : (putOps.all fun p => vChk (vAt (.vadd vf)) (vEntry (.vadd vf)) vf true (vDst (vEntry (.vadd vf)) true)
      ((vEntry (.vadd vf)).srcs p.1 vf p.2 false)) = true := by decide +kernel
  exact fun p hp => ⟨_, _, _, _, vReady_of (List.all_eq_true.mp h p hp)⟩

/-- VADD of (1, 2, 3, -4) and (1, 1, 0, infinity); VMIN keeps -4. -/
theorem test_vector_add :
    leNat ((nx (exec (.vadd vf) (vAt (.vadd vf)))).spmBytes 0 0x2000 16) = 0x40000000 + 0x40400000 * 2 ^ 32 + 0x40400000 * 2 ^ 64 + 0x7F800000 * 2 ^ 96 ∧
    leNat ((nx (exec (.vmin vf) (vAt (.vmin vf)))).spmBytes 0 0x2000 16) = 0x3F800000 + 0x3F800000 * 2 ^ 32 + 0 * 2 ^ 64 + 0xC0800000 * 2 ^ 96 := by decide +kernel

/-- The operations on raw codes: code, sources and the instruction's descriptors. -/
def rawOps : List (Nat × Nat × VFields) :=
  let g : VFields := { td := 6, ts1 := 5, ts2 := 5, ts3 := 5, cnt := 4 }
  let c : VFields := { td := 10, ts1 := 9, cnt := 4 }
  [(9, 1, vf), (0xA, 1, vf), (9, 1, c), (0xA, 1, c), (0x34, 1, { g with td := 1 }), (0x42, 2, g), (0x43, 2, g), (0x44, 2, g), (0x45, 1, g), (0x46, 1, g), (0x47, 1, g),
   (0x46, 2, { g with mod := 0x10 }), (0x47, 2, { g with mod := 0x30 }), (0x60, 1, g), (0x70, 2, g), (0x71, 2, g), (0x72, 2, g), (0x73, 2, g), (0x74, 2, g), (0x75, 1, g),
   (0x76, 1, g), (0x77, 1, g)]

theorem test_vector_codes : ∀ p ∈ rawOps, ∃ (s u : State) (e : Entry) (l : List (List Got)),
    VReady s u e p.2.2 true (vDst e (p.1 == 0x34)) (e.srcs p.1 p.2.2 p.2.1 true) l := by
  have h : (rawOps.all fun p => vChk (vAt (.viadd p.2.2)) (vEntry (.viadd p.2.2)) p.2.2 true (vDst (vEntry (.viadd p.2.2)) (p.1 == 0x34))
      ((vEntry (.viadd p.2.2)).srcs p.1 p.2.2 p.2.1 true)) = true := by decide +kernel
  exact fun p hp => ⟨_, _, _, _, vReady_of (List.all_eq_true.mp h p hp)⟩

/-- VIADD of (3, 0, 1, -1) with itself wraps, with `sat` it clips (R267); VXOR of a code with itself is 0. -/
theorem test_vector_integers :
    let g : VFields := { td := 6, ts1 := 5, ts2 := 5, cnt := 4 }
    leNat ((nx (exec (.viadd g) (vAt (.viadd g)))).spmBytes 0 0x2100 16) = 6 + 2 * 2 ^ 64 + 0xFFFFFFFE * 2 ^ 96 ∧
    leNat ((nx (exec (.vxor g) (vAt (.vxor g)))).spmBytes 0 0x2100 16) = 0 := by decide +kernel

/-- The premises on formats: sign forms that are real, complex, and none. -/
theorem test_sign_forms :
    let e := vEntry (.vabs vf)
    let c := vEntry (.vabs { vf with td := 10, ts1 := 9 })
    let n := vEntry (.vabs { vf with td := 10 })
    signForm (e.view 0) (e.view 1) = true ∧ fmtComplex (e.view 0).fmt = false ∧ signForm (c.view 0) (c.view 1) = true ∧ fmtComplex (c.view 0).fmt = true ∧
    signForm (n.view 0) (n.view 1) = false ∧ (e.view 0).blk = 0 ∧
    (∀ g ∈ (Rd.srcs { s := vAt (.vabs vf) } e 0 (e.srcs 9 vf 1 true)).2, ∀ q ∈ g, q.code < 2 ^ fmtBits (e.view 0).fmt) := by decide +kernel

/-- VSEL with a choice by the codes of t7, and VCVTI into INT32: their sources read. -/
def sf : VFields := { vf with ts3 := 7 }
def cf : VFields := { td := 6, ts1 := 2, cnt := 4 }

theorem test_vector_mixed :
    (∃ u l, VReady (vAt (.vsel sf)) u (vEntry (.vsel sf)) sf true (vDst (vEntry (.vsel sf)) true) [(vEntry (.vsel sf)).src 0x41 sf 1 false,
      (vEntry (.vsel sf)).src 0x41 sf 2 false, (vEntry (.vsel sf)).src 0x41 sf 3 true] l) ∧
    (∃ u l, VReady (vAt (.vcvti cf)) u (vEntry (.vcvti cf)) cf true (vDst (vEntry (.vcvti cf)) false) ((vEntry (.vcvti cf)).srcs 0x33 cf 1 false) l) :=
  ⟨⟨_, _, vReady_of (by decide +kernel)⟩, ⟨_, _, vReady_of (by decide +kernel)⟩⟩

/-- VDQNT of codes in t7 with the scale bytes in t8, and VQNT of t2 with scale bytes in t7. -/
def qf : VFields := { td := 1, ts1 := 7, ts2 := 8, cnt := 4 }
def qg : VFields := { td := 8, ts1 := 2, ts2 := 7, cnt := 4 }

def qs : State := vAt (.vdqnt qf)
def qe : Entry := vEntry (.vdqnt qf)
def qx : List Src := [qe.src 0x32 qf 1 true, { pos := 2, ix := ixFrom qe.os qe.cnt, raw := true }]
def rs : State := vAt (.vqnt qg)
def re : Entry := vEntry (.vqnt qg)
def rx : List Src := [re.src 0x31 qg 1 false, { pos := 2, ix := ixFrom re.os re.cnt, raw := true }]

theorem test_vector_dequantisation : ∃ u a b, qe.cnt = a.length ∧ qe.cnt = b.length ∧ (qe.view 1).blk = 0 ∧ qf.mod.getLsbD 0 = false ∧ (qe.view 0).blk = 0 ∧
    fmtComplex (qe.view 0).fmt = false ∧ fmtComplex (qe.view 1).fmt = false ∧ VReady qs u qe qf false [{ ix := ixFrom qe.od qe.cnt }] qx [a, b] :=
  have h := vReady_pair (s := qs) (e := qe) (f := qf) (p := false) (ds := [{ ix := ixFrom qe.od qe.cnt }]) (xs := qx) (by decide +kernel) (by decide +kernel)
  ⟨_, _, _, by decide +kernel, by decide +kernel, by decide +kernel, by decide, by decide +kernel, by decide +kernel, by decide +kernel, h⟩

theorem test_vector_quantisation : ∃ u a b, re.cnt = a.length ∧ re.cnt = b.length ∧ (re.view 0).blk = 0 ∧ qg.mod.getLsbD 0 = false ∧
    fmtComplex (re.view 0).fmt = false ∧ (∀ g ∈ a, g.vals.length = 1) ∧ VReady rs u re qg false [{ ix := ixFrom re.od re.cnt }] rx [a, b] := by
  have h := vReady_pair (s := rs) (e := re) (f := qg) (p := false) (ds := [{ ix := ixFrom re.od re.cnt }]) (xs := rx) (by decide +kernel) (by decide +kernel)
  exact ⟨_, _, _, by decide +kernel, by decide +kernel, by decide +kernel, by decide, by decide +kernel, by decide +kernel, h⟩

/-- Reductions, votes and VSCAN over t2, and the first largest of (1, 2, 3, -4). -/
theorem test_vector_reductions :
    let e := vEntry (.vrsum vf)
    (∃ u l, VReady (vAt (.vrsum vf)) u e vf false [{ ix := ixFrom e.od 1 }] [e.src 0x50 vf 1 false] l) ∧
    (∃ u l, VReady (vAt (.vrsum vf)) u e vf true (vDst e true) [e.src 0x54 vf 1 false] l ∧ (l.headD []).length = e.cnt ∧ ∀ g ∈ l.headD [], g.vals.length = 1) ∧
    (∃ u l, VReady (vAt (.vrsum vf)) u e vf false [{ ix := ixFrom e.od 1 }] [e.src 0x55 vf 1 true] l ∧ (l.headD []).length = e.cnt) ∧
    (∃ u l, VReady (vAt (.vrsum vf)) u e vf false [{ ix := ixFrom e.od 1 }] [] l) ∧ (∃ u l, VReady (vAt (.vrsum vf)) u e vf false (vDst e true) [] l) :=
  ⟨⟨_, _, vReady_of (by decide +kernel)⟩, ⟨_, _, vReady_of (by decide +kernel), by decide +kernel, by decide +kernel⟩,
    ⟨_, _, vReady_of (by decide +kernel), by decide +kernel⟩, ⟨_, _, vReady_of (by decide +kernel)⟩, ⟨_, _, vReady_of (by decide +kernel)⟩⟩

theorem test_reduction_premises :
    let xs : List (Nat × Val) := [(0, .fin false 3 1), (1, .fin true 4 1), (2, .fin false 3 1)]
    xs ≠ [] ∧ xs.map (·.1) = List.range xs.length ∧ (argMax false 3 xs).1 = .fin false 0 1 ∧ (argMax true 3 xs).1 = .fin false 1 1 ∧
    vf.mod.getLsbD 5 = false ∧ vf.mod.getLsbD 4 = false ∧ vf.mod.getLsbD 3 = false ∧ ({ vf with mod := 0x10 } : VFields).mod.getLsbD 4 = true ∧
    (vEntry (.vrsum vf)).cnt = 4 := by decide +kernel

/-- The sum of (1, 2, 3, -4) is 2 and its largest element is at 2 (R263). -/
theorem test_vector_sum :
    leNat ((nx (exec (.vrsum vf) (vAt (.vrsum vf)))).spmBytes 0 0x2000 4) = 0x40000000 ∧
    leNat ((nx (exec (.vramx vf) (vAt (.vramx vf)))).spmBytes 0 0x2000 4) = 0x40000000 := by decide +kernel

/-- Moves: fill, scatter, compress, expand, gather and transpose. -/
theorem test_vector_moves :
    let g : VFields := { td := 1, ts1 := 2, ts2 := 5, ts3 := 6, cnt := 4 }
    let e := vEntry (.vsct g)
    let s := vAt (.vsct g)
    (∃ u l, VReady s u e g true (vDst e false) [] l) ∧
    (∃ u l, VReady s u e g true (vDst e true) [] l) ∧
    (∃ u l, VReady s u e g false [{ ix := [], put := false, whole := true }] [e.src 0x63 g 1 true, e.src 0x63 g 2 true] l ∧
      (∀ k, k < 2 → ((l[k]?).getD []).length = e.cnt) ∧ l.length = 2) ∧
    (∃ u l, VReady s u e g false [{ ix := ixFrom e.od e.cnt, put := false }, { pos := 3, ix := [0] }] [{ e.src 0x66 g 1 true with late := true }, e.src 0x66 g 2 true] l ∧
      l.length = 2 ∧ ((l[1]?).getD []).length = e.cnt) ∧
    (∃ u l, VReady s u e g false (vDst e false) [{ e.src 0x67 g 1 true with late := true }, e.src 0x67 g 2 true] l ∧ l.length = 2 ∧ ((l[1]?).getD []).length = e.cnt) ∧
    (∃ u l, VReady s u e g false (vDst e false) [{ pos := 1, ix := [], raw := true, whole := true }, e.src 0x62 g 2 true] l ∧ l.length = 2 ∧
      ((l[1]?).getD []).length = e.cnt) ∧
    (∃ u l, VReady s u e g false (vDst e false) [{ pos := 1, ix := [], raw := true, whole := true }] l) :=
  ⟨⟨_, _, vReady_of (by decide +kernel)⟩, ⟨_, _, vReady_of (by decide +kernel)⟩, ⟨_, _, vReady_of (by decide +kernel), by decide +kernel, by decide +kernel⟩,
    ⟨_, _, vReady_of (by decide +kernel), by decide +kernel, by decide +kernel⟩, ⟨_, _, vReady_of (by decide +kernel), by decide +kernel, by decide +kernel⟩,
    ⟨_, _, vReady_of (by decide +kernel), by decide +kernel, by decide +kernel⟩, ⟨_, _, vReady_of (by decide +kernel)⟩⟩

/-- Gather and transpose as they end: indices (3, 0, 1, -1), of which the last is out of range; a 1 by 4 row becomes a column. -/
theorem test_vector_gather :
    let g : VFields := { td := 1, ts1 := 2, ts2 := 5, cnt := 4 }
    let t : VFields := { td := 11, ts1 := 2, cnt := 1 }
    leNat ((nx (exec (.vgth g) (vAt (.vgth g)))).spmBytes 0 0x2000 16) = 0xC0800000 + 0x3F800000 * 2 ^ 32 + 0x40000000 * 2 ^ 64 ∧
    smGet 0 (nx (exec (.vgth g) (vAt (.vgth g)))).st.now.lanes 3 = 1 ∧ leNat ((nx (exec (.vtrn t) (vAt (.vtrn t)))).spmBytes 0 0x2400 4) = 0x3F800000 := by decide +kernel

/-- The premises of a V entry's writes: the last byte of the scratchpad and its first. -/
theorem test_vector_writes :
    let e := vEntry (.vadd vf)
    let s := vAt (.vadd vf)
    e.strand = some 0 ∧ coreOf 0 = e.core ∧ engineOf e.instr = some 0 ∧ e.keep = [] ∧ e.undef = false ∧ s.pace = 0 ∧ (s.coreAt e.core).inj = [] ∧ s.posted = [] ∧
    s.hiddenAlias e [(8 * ((localBase + 0x3FFFFF : Nat) : Int), 8), (8 * ((localBase : Nat) : Int), 64)] [] = false ∧
    0x3FFFFF + 1 ≤ 0x400000 ∧ (s.strandAt 0).inWindow 0x3FFFFF 1 = true ∧ (s.strandAt 0).inWindow 0 8 = true ∧
    smGet 0 ((s.vWrite e [] [((8 * ((localBase + 0x3FFFFF : Nat) : Int), 8), 7)] []).coreAt 0).spm 0x3FFFFF = 7 := by decide +kernel

/-! ### Ill-formed terms: each check refuses one, and its neighbour passes (R140 to R149 and the rows that reserve a value) -/

/-- Each first term of a pair is ill-formed and each second one is well-formed. -/
def refusedBeside (l : List (Instr × Instr)) : Bool := l.all fun p => !wellFormed p.1 && wellFormed p.2

theorem test_ill_formed_selectors : refusedBeside
    [(.lds 1 2 0 3 0, .lds 1 2 0 2 0), (.amoAdd 1 2 3 6 0, .amoAdd 1 2 3 5 0), (.amoAnd 1 2 3 6 0, .amoAnd 1 2 3 5 0), (.amoOr 1 2 3 7 0, .amoOr 1 2 3 5 0),
     (.amoXor 1 2 3 6 0, .amoXor 1 2 3 5 0), (.amoMin 1 2 3 6 0, .amoMin 1 2 3 5 0), (.amoMax 1 2 3 6 0, .amoMax 1 2 3 5 0), (.amoSwap 1 2 3 6 0, .amoSwap 1 2 3 5 0),
     (.amoCas 1 2 3 6 0, .amoCas 1 2 3 5 0), (.amofFaddF32 1 2 3 6 0, .amofFaddF32 1 2 3 5 0), (.amofFaddBf16x2 1 2 3 6 0, .amofFaddBf16x2 1 2 3 5 0),
     (.amofFminF32 1 2 3 6 0, .amofFminF32 1 2 3 5 0), (.amofFmaxF32 1 2 3 6 0, .amofFmaxF32 1 2 3 5 0), (.acq 1 2 3 6, .acq 1 2 3 5), (.rel 1 2 3 6, .rel 1 2 3 5),
     (.arv 1 2 3 6, .arv 1 2 3 5), (.waitb 1 2 3 6, .waitb 1 2 3 5), (.bind 1 2 3 6, .bind 1 2 3 5), (.unbind 1 2 3 6, .unbind 1 2 3 5), (.fence 6, .fence 5),
     (.fcvt 1 2 1 1 0 0, .fcvt 1 2 1 0 0 0), (.fcvt 1 2 4 5 0 0, .fcvt 1 2 3 5 0 0), (.mfs 1 6, .mfs 1 5), (.mts 1 0x90, .mts 1 0x8F), (.drain 6, .drain 5),
     (.epop 1 0x15, .epop 1 0x14), (.epopt 1 0x15, .epopt 1 0x14), (.epush 1 0xF, .epush 1 0x10), (.epush 1 0x15, .epush 1 0x14),
     (.tdset 1 2 3 16, .tdset 1 2 3 15), (.tdget 1 2 3 16, .tdget 1 2 3 15), (.mbstgLoad { mode := 1 }, .mbstgLoad {}), (.mbstgEnable {}, .mbstgEnable { mode := 1 }),
     (.mbstgDestroy { mode := 3 }, .mbstgDestroy { mode := 2 }), (.mbstgCancel { mode := 2 }, .mbstgCancel { mode := 3 })] = true := by decide +kernel

theorem test_ill_formed_scalar_values : refusedBeside
    [(.ld 1 2 0 3 3, .ld 1 2 0 3 2), (.lds 1 2 0 2 3, .lds 1 2 0 2 2), (.prf 1 0 1, .prf 1 0 2), (.prf 1 0 3, .prf 1 0 0), (.slli 1 2 1 32, .slli 1 2 1 31),
     (.srli 1 2 1 63, .srli 1 2 0 63), (.srai 1 2 1 32, .srai 1 2 0 32), (.setf 1 2 0 1, .setf 1 2 1 1), (.addf 1 2 0 32, .addf 1 2 0 0)] = true := by decide +kernel

theorem test_ill_formed_vector_fields : refusedBeside
    [(.vabs { vf with ts3 := 0 }, .vabs { vf with ts2 := 0, ts3 := 0 }), (.vadd vf, .vadd { vf with ts3 := 0 }), (.vfill { ts1 := 1 }, .vfill { td := 1 }),
     (.vand { rm := 1 }, .vand {}), (.vadd { mod := 4 }, .vadd { mod := 0xB }), (.vadd { imm8 := 1 }, .viota { imm8 := 1 }), (.vadd { fl := 1 }, .vadd { fl := 1, fe := 1 }),
     (.vadd { ci := 1, cnt := 64 }, .vadd { ci := 1, cnt := 63 }), (.vadd { hint := 3 }, .vadd { hint := 2 }), (.vvote { imm8 := 3 }, .vvote { imm8 := 2 }),
     (.vvote { mod := 0x10, imm8 := 0x50 }, .vvote { mod := 0x10, imm8 := 0x40 }), (.vbext { mod := 0xC0 }, .vbext { mod := 0xA0 }), (.vsct { od := 1 }, .vsct { os := 1 }),
     (.vtrn { os := 1 }, .vtrn { od := 1 }), (.vflgc { os := 1 }, .vflgc { od := 1 }), (.vshl { ts2 := 1 }, .vshl { ts2 := 1, mod := 0x10 }),
     (.vshl { mod := 0x10, imm8 := 1 }, .vshl { imm8 := 0x3F }), (.vcmp { imm8 := 8 }, .vcmp { imm8 := 7 })] = true := by decide +kernel

theorem test_ill_formed_matrix_fields : refusedBeside
    [(.mstep { imm := 129 }, .mstep { imm := 128 }), (.mstep { imm := 193 * 256 }, .mstep { imm := 192 * 256 }), (.mstep { mode := 4, imm := 97 * 256 }, .mstep { mode := 4, imm := 96 * 256 }),
     (.mstep { mode := 2 }, .mstep { mode := 1 }), (.mstep { mode := 5 }, .mstep { mode := 4 }), (.mstep { t3 := 1 }, .mstep { mode := 0x10, t3 := 1 }),
     (.mstep { mode := 0x310 }, .mstep { mode := 0x210 }), (.mstep { mode := 0x1000 }, .mstep { mode := 0x1400 }), (.mstep { mode := 0x40010 }, .mstep { mode := 0x30010 }),
     (.mstep { mode := 0x11 }, .mstep { mode := 0x10 }), (.mstep { imm := 0x400000 }, .mstep { mode := 1, imm := 0x400000 }), (.mnest { imm := 129 }, .mnest { imm := 128 }),
     (.mnset { mode := 7 }, .mnset { mode := 6 }), (.mnset { mode := 6, n := 1 }, .mnset { mode := 5, n := 1 }), (.mwb { imm := 193 * 256 }, .mwb { imm := 192 * 256 }),
     (.mzero { imm := 129 }, .mzero { imm := 128 }), (.mzero { t1 := 1 }, .mlda { t1 := 1 }), (.mlda { mode := 0x20, imm := 97 * 256 }, .mlda { imm := 97 * 256 }),
     (.msig { mode := 0x300 }, .msig { mode := 0x200 }), (.msig { mode := 0x40000 }, .msig { mode := 0x30000 }), (.mscat { mode := 3 }, .mscat { mode := 2 }),
     (.mscat { acc := 1 }, .mspc { acc := 1 }), (.mspc { mode := 0x10 }, .mspc { mode := 0xF }), (.mstep { fl := 1 }, .mstep { fl := 1, fe := 1 })] = true := by decide +kernel

theorem test_ill_formed_commands : refusedBeside
    [(.rgn { n := 0xFFFF }, .rgn { n := 0xFFFE }), (.rgn { ga := 1 }, .rgn {}), (.rgn { fe := 1 }, .rgn { mode := 1, imm := 0x100000000 }), (.rgn { imm := 1 }, .rgn { imm := 2 }),
     (.cpy { mode := 0xC0000 }, .cpy { mode := 0x80000 }), (.cpy { mode := 0x40000 }, .cpy { mode := 0x41000 }), (.cpyi { mode := 0x40000 }, .cpyi { mode := 0x41000 }),
     (.cpyrs { imm := 1 }, .cpyrs { mode := 0x20000, imm := 1 }), (.cpyk { mode := 0x200000 }, .cpyk { mode := 0x100000 }), (.cpyk { mode := 0x800000 }, .cpyk { mode := 0x801000 }),
     (.cpyk { mode := 0x400000, imm := 1 }, .cpyk { imm := 1 }), (.cpymc {}, .cpymc { imm := 1 }), (.cwmk { mode := 0x10 }, .cwmk { mode := 0xF }), (.ctpl { t1 := 1 }, .ctpl { mode := 0xFF0 }),
     (.clar { mode := 0xC0 }, .clar { mode := 0x80 }), (.clrs { mode := 0xC0 }, .clrs { mode := 0x40 }), (.clag { mode := 0x40 }, .clag { mode := 0x3F }), (.clbc { mode := 0x40 }, .clbc { imm := 1 }),
     (.clxr { imm := 1 }, .clxr { mode := 0x1000, imm := 1 }), (.clgrp { mode := 0x4000, t1 := 1 }, .clgrp { t1 := 1 }), (.mbsend { mode := 4 }, .mbsend { mode := 3 }),
     (.mbrls { t1 := 1 }, .mbrls { o1 := 1 }), (.mbpol { o1 := 1 }, .mbpol { imm := 1 }), (.mbstgLoad { imm := 1 }, .mbstgLoad { o1 := 1 }), (.stsh { mode := 3 }, .stsh { mode := 2 }),
     (.stsh { mode := 8 }, .stsh { mode := 0xC }), (.stft { t1 := 1 }, .stft { t2 := 1 }), (.stpf { mode := 0x100 }, .stft { mode := 0x100 }), (.stdr { t1 := 1 }, .stdr { mode := 0x200 }),
     (.stqy { mode := 1 }, .stqy { imm := 1 }), (.opj { imm := 1 }, .opj { o1 := 1 }), (.oprt { mode := 0x10 }, .oprt { mode := 0xF }), (.opsk { mode := 1, imm := 1 }, .opsk { imm := 1 })] = true := by
  decide +kernel

/-! ### The matrix engine -/

/-- Tensors of the own scratchpad: the worked example of R278 in t1, t4, t5 and t6; CF32 in t7, INT8 in t8 and t9; FP32 destinations in t11
and t12, CF32 in t13; BF16 rows t14 and hyperplanes t15 of a signature, and the map record t16. -/
def ms : State :=
  let s := withT [(1, tensor 0x1100 1 4 3), (4, tensor 0x1000 4 1 3), (5, tensor 0x1200 2 1 3), (6, tensor 0x1300 1 1 10), (7, tensor 0x1400 2 2 14),
    (8, tensor 0x1500 2 4 8), (9, tensor 0x1600 4 2 8), (11, tensor 0x2000 2 2 0), (12, tensor 0x2100 6 1 0), (13, tensor 0x2200 2 2 14), (14, tensor 0x3000 6 2 1),
    (15, tensor 0x3100 2 4 1), (17, tensor 0x3200 2 1 1), (18, tensor 0x2300 2 1 3), (19, tensor 0x2400 1 1 10), (20, tensor 0x3300 6 1 0),
    (16, tensor 0x10000 1 4096 10 + BitVec.ofNat 256 (5 * 2 ^ 224 + 3 * 2 ^ 252))] tk
  let s := s.putSpm 0 0x1100 [0x44, 0x4A, 0x4E, 0x51]
  let s := s.putSpm 0 0x1000 [0x38, 0xC0, 0x38, 0x38]
  let s := s.putSpm 0 0x1200 [0x38, 0xC0]
  let s := s.putSpm 0 0x1300 [0x04]
  let s := s.putSpm 0 0x1400 ([0x3F800000, 0, 0, 0x40000000].flatMap (leBytes 4))
  let s := s.putSpm 0 0x1500 [1, 2, 0xFF, 0x80]
  let s := s.putSpm 0 0x1600 [3, 0, 0, 0, 1, 0, 0x80, 0]
  let s := s.putSpm 0 0x3000 ([0x3F80, 0x4000, 0x4000, 0x3F80, 0x4040, 0x40A0, 0xBF80, 0xBF80, 0x4000, 0x4040, 0x3F80, 0x3F80].flatMap (leBytes 2))
  let s := s.putSpm 0 0x3100 ([0x3F80, 0, 0x3F80, 0x3F80, 0, 0x3F80, 0x3F80, 0xBF80].flatMap (leBytes 2))
  let s := s.putSpm 0 0x3200 ([0x3F80, 0x3F80].flatMap (leBytes 2))
  s.putSpm 0 0x3300 ((List.replicate 6 0x3F800000).flatMap (leBytes 4))

/-- The machine in which engine `k` of core 0 serves the entry of an M instruction, and that entry. -/
def mAt (k : Nat) (i : Instr) (s : State) : State := let t := nx (exec i s); { t with engine := (smGet [] t.st.queues k).head? }
def serves (s : State) : Entry := s.engine.getD { instr := .nop }

def mChk (s : State) (e : Entry) : Bool :=
  s.engine == some e && e.runs && e.phase == 0 && e.keep.isEmpty && e.plan.isEmpty && e.parts.isEmpty && e.waits.isEmpty && (s.coreAt e.core).inj.isEmpty &&
  e.undef == false && e.strand == some 0 && s.pace == 0 && e.got.isEmpty && e.fails.isEmpty

theorem mReady_of {s : State} {e : Entry} (h : mChk s e = true) : MReady s e ∧ e.strand = some 0 := by
  simp only [mChk, Bool.and_eq_true, beq_iff_eq, List.isEmpty_iff] at h
  obtain ⟨⟨⟨⟨⟨⟨⟨⟨⟨⟨⟨⟨h1, h2⟩, h3⟩, h4⟩, h5⟩, h6⟩, h7⟩, h8⟩, h0⟩, h9⟩, ha⟩, hb⟩, hc⟩ := h
  exact ⟨⟨h1, ha, h2, h3, ⟨h4, h5, h6, h7, hb, hc⟩, h0, h8⟩, h9⟩

/-- A read that needs nothing and meets no trap. -/
def clean {α : Type} (r : Rd × α) : Bool := r.1.stop.isNone && r.1.need.isEmpty

theorem clean_eq {α : Type} {r : Rd × α} (h : clean r = true) : r = ({ s := r.1.s }, r.2) := by
  simp only [clean, Bool.and_eq_true, Option.isNone_iff_eq_none, List.isEmpty_iff] at h
  obtain ⟨⟨t, x, y⟩, l⟩ := r
  obtain ⟨h8, h9⟩ := h
  simp only at h8 h9
  subst h8 h9
  rfl

/-- The codes that VCMPR and VEXPD read at their turn: those of set masks, and the first ones. -/
theorem test_vector_move_reads :
    let g : VFields := { td := 1, ts1 := 2, ts2 := 5, ts3 := 6, cnt := 4 }
    let e := vEntry (.vsct g)
    ∀ ix ∈ [[0, 2, 3], [0, 1, 2]], ∃ b cs, ix.foldl (fun (x : Rd × List Nat) j => ((Rd.code x.1 e (e.view 1) ((e.view 1).flat j) (vHint g)).1,
      (Rd.code x.1 e (e.view 1) ((e.view 1).flat j) (vHint g)).2 :: x.2)) ({ s := vAt (.vsct g) }, []) = ({ s := b }, List.reverse cs) := by
  intro g e
  have h : ([[0, 2, 3], [0, 1, 2]].all fun ix => clean (ix.foldl (fun (x : Rd × List Nat) j => ((Rd.code x.1 e (e.view 1) ((e.view 1).flat j) (vHint g)).1,
      (Rd.code x.1 e (e.view 1) ((e.view 1).flat j) (vHint g)).2 :: x.2)) ({ s := vAt (.vsct g) }, []))) = true := by decide +kernel
  exact fun ix hx => ⟨_, _, (clean_eq (List.all_eq_true.mp h ix hx)).trans (congrArg _ (List.reverse_reverse _).symm)⟩

/-- The cell of a tile after the entry of an instruction has run. -/
def cellAfter (i : Instr) (s : State) (t r c : Nat) : BitVec 32 := ((nx (exec i (mAt 1 i s))).coreAt 0).cell t r c

/-- A tile beyond the strand's, and the largest tile, rows and columns. -/
theorem test_matrix_tiles :
    let f : MFields := { acc := 4 }
    let g : MFields := { acc := 3, imm := 128 + 192 * 256 }
    let s := mAt 1 (.mzero g) ms
    mChk (mAt 1 (.mzero f) ms) (serves (mAt 1 (.mzero f) ms)) = true ∧ mChk s (serves s) = true ∧ ((mAt 1 (.mzero f) ms).strandAt 0).accN ≤ f.acc.toNat ∧
    g.acc.toNat < (s.strandAt 0).accN ∧ g.rows ≤ 128 ∧ g.cols false ≤ 192 ∧ ({ imm := 96 * 256 } : MFields).cols true ≤ 96 := by decide +kernel

/-- What MLDA reads of its row `i` in state `a`, and the cells that it gives. -/
def ldaRead (e : Entry) (f : MFields) (a : State) (i : Nat) : Rd × (Nat → BitVec 32) :=
  let o := ((e.org 1).1 + i, (e.org 1).2)
  let c := f.cols (f.mode.getLsbD 5)
  let f32 (v : Val) : BitVec 32 := BitVec.ofNat 32 (ffRound ffF32 0 0 false v).1
  if f.mode.getLsbD 6 then let r := Rd.meRaw { s := a } e (e.view 1) o 1 c; (r.1, fun j => BitVec.ofInt 32 (at2 0 r.2 0 j))
  else
    let r := Rd.meBlock { s := a } e (e.view 1) o 1 c (f.mode.getLsbD 5)
    let z := (valZero, valZero)
    (r.1, fun j => if !f.mode.getLsbD 5 then f32 (at2 z r.2.1 0 j).1 else if j % 2 = 0 then f32 (at2 z r.2.1 0 (j / 2)).1 else f32 (at2 z r.2.1 0 (j / 2)).2)

/-- MLDA's states before its rows. -/
def ldaAt (e : Entry) (f : MFields) (T : Nat) (s : State) : Nat → State
  | 0 => s
  | i + 1 =>
    let r := ldaRead e f (ldaAt e f T s i) i
    let w := if f.mode.getLsbD 5 && !f.mode.getLsbD 6 then 2 * f.cols (f.mode.getLsbD 5) else f.cols (f.mode.getLsbD 5)
    r.1.s.putCells e ((List.range w).map fun j => (cellNo T i j, r.2 j)) [(cellNo T i 0, w)]

/-- MLDA of FP32, raw and complex operands. -/
theorem test_matrix_load :
    let at1 (f : MFields) : State := mAt 1 (.mlda f) ms
    let ok (f : MFields) : Bool := let s := at1 f; let e := serves s; let v := e.view 1; let c := f.cols (f.mode.getLsbD 5)
      mChk s e && s.meTdesc e (e.desc 1) (meSourceOk e.core false v) (v.block (e.org 1) f.rows c) (!f.mode.getLsbD 6) == none &&
      (List.range f.rows).all fun i =>
        let a := ldaAt e f ((s.strandAt 0).accBase + f.acc.toNat) s i
        let r := (ldaRead e f a i).1
        r.stop.isNone && r.need.isEmpty && r.s.pace == 0 && (r.s.coreAt e.core).acc == (a.coreAt e.core).acc
    ok { t1 := 20, imm := 0x106 } = true ∧ ok { t1 := 8, imm := 0x402, mode := 0x40 } = true ∧ ok { t1 := 7, imm := 0x202, mode := 0x20 } = true ∧
    cellAfter (.mlda { t1 := 20, imm := 0x106 }) ms 0 5 0 = 0x3F800000 ∧ cellAfter (.mlda { t1 := 8, imm := 0x402, mode := 0x40 }) ms 0 0 3 = 0xFFFFFF80 ∧
    cellAfter (.mlda { t1 := 7, imm := 0x201, mode := 0x20 }) ms 0 0 3 = 0x40000000 := by decide +kernel

/-- MSTEP: real operands with and without INIT, sparse ones (R278's cell), complex ones, and integers. -/
def stepOk (f : MFields) : Bool :=
  let s := mAt 1 (.mstep f) ms
  let e := serves s
  let c := f.cols f.cplx
  let g := (e.cnt + 3) / 4
  let kb := if f.sparse then 2 * g else e.cnt
  let m := Rd.meRaw { s } e (e.view 4) ((e.org 2).1 / 2, (e.org 2).2) g c
  let a := Rd.meBlock { s } e (e.view 1) (e.org 1) f.rows e.cnt f.cplx
  let x := Rd.meRaw { s } e (e.view 1) (e.org 1) f.rows e.cnt
  mChk s e && !f.sig && firstDesc (s.stepTdesc e f [(e.org 1, e.org 2)] f.rows) == none && (!f.sparse || (clean m && m.1.s == s)) && s.posted.isEmpty &&
  (List.range 6).all (fun q => (e.level q).count == 0) &&
  (if intStep f e then clean x && clean (Rd.meRaw { s := x.1.s } e (e.view 2) (e.org 2) kb c)
   else clean a && clean (Rd.meBlock { s := a.1.s } e (e.view 2) (e.org 2) kb c f.cplx))

theorem test_matrix_steps :
    let plain : MFields := { t1 := 1, t2 := 4, n := 4, imm := 0x101, mode := 8 }
    let sparse : MFields := { t1 := 1, t2 := 5, n := 4, imm := 0x101 + 6 * 2 ^ 22, mode := 9 }
    let cplx : MFields := { t1 := 7, t2 := 7, n := 2, imm := 0x202, mode := 4 }
    let ints : MFields := { t1 := 8, t2 := 9, n := 4, imm := 0x201, mode := 8 }
    stepOk plain = true ∧ stepOk sparse = true ∧ stepOk cplx = true ∧ stepOk ints = true ∧ stepOk { ints with mode := 12 } = true ∧ stepOk { plain with mode := 0 } = true ∧
    cellAfter (.mstep sparse) ms 0 0 0 = 0xC0E00000 ∧ cellAfter (.mstep ints) ms 0 0 0 = 3 - 1 + 128 * 128 ∧
    cellAfter (.mnest sparse) ms 0 0 0 = 0xC0E00000 := by decide +kernel

/-- MNSET: a nullified row, row 6 with its descriptor, and another row; MNEST copies the table. -/
theorem test_nest_tables :
    let t := nx (exec (.mnset { t1 := 8, mode := 6, imm := 5 * 2 ^ 32 }) ms)
    ms.engine = none ∧ ms.stores = [] ∧ ms.posted = [] ∧ ms.st.src.guard 8 = false ∧ ms.st.src.guard 0 = true ∧ smGet 0 t.st.nest 7 = tensor 0x1500 2 4 8 ∧
    (7 : Nat) < 8 ∧ 7 ∈ t.st.nest.map (·.1) ∧ (t.entryOf (.mnest {})).desc 15 = tensor 0x1500 2 4 8 := by decide +kernel

/-- MWB of a tile to real and complex destinations. -/
theorem test_matrix_write_back :
    let ok (f : MFields) : Bool := let s := mAt 1 (.mwb f) ms; let e := serves s; let v := e.view 1
      mChk s e && s.meTdesc e (e.desc 1) (wbKind v) (v.block (e.org 1) (wbRows f e) (f.cols (f.mode.getLsbD 5))) true == none && v.blk == 0 &&
      fmtComplex v.fmt == f.mode.getLsbD 5 && !f.sig
    let f : MFields := { t1 := 11, imm := 0x3F80000000000202 }
    ok f = true ∧ ok { f with t1 := 13, mode := 0x20 } = true ∧ ok { f with mode := 0x40 } = true ∧ (3 : BitVec 3).toNat < 4 ∧
    (let s := nx (exec (.mlda { t1 := 20, imm := 0x102 }) (mAt 1 (.mlda { t1 := 20, imm := 0x102 }) ms))
     leNat ((nx (exec (.mwb f) (mAt 1 (.mwb f) { s with engine := none }))).spmBytes 0 0x2000 16) = 0x3F800000 + 0x3F800000 * 2 ^ 64) := by decide +kernel

/-- MSPC of R278's column (0x38, 0xC0, 0x38, 0x38): kept codes 0x38 and 0xC0 with metadata 0x04; raw codes between equal formats, values otherwise. -/
theorem test_matrix_sparsify :
    let ok (f : MFields) : Bool := let s := mAt 1 (.mspc f) ms; let e := serves s
      let g := (e.cnt + 3) / 4
      let b := Rd.meBlock { s } e (e.view 1) (e.org 1) e.cnt 1 true
      let ext (p reg rows : Nat) (sc : Bool) : Ext := extOf e.core reg (e.view p) ((e.view p).block (e.org p) rows 1) sc
      mChk s e && e.cnt == 4 && decide (f.acc.toNat < (s.strandAt 0).accN) &&
      s.aliased e ([ext 2 f.t2.toNat (2 * g) true, ext 3 f.t3.toNat g false], [ext 1 f.t1.toNat e.cnt true]) == false && [(1, e.cnt, true), (2, 2 * g, true), (3, g, false)].all (fun p =>
        s.meTdesc e (e.desc p.1) (meSourceOk e.core false (e.view p.1)) ((e.view p.1).block (e.org p.1) p.2.1 1) p.2.2 == none) &&
      (e.view 1).blk == 0 && (e.view 2).blk == 0 && !fmtComplex (e.view 1).fmt && !fmtComplex (e.view 2).fmt && clean b &&
      (!spcRaw (e.view 1) (e.view 2) || clean (Rd.meRaw { s := b.1.s } e (e.view 1) (e.org 1) e.cnt 1))
    let f : MFields := { t1 := 4, t2 := 18, t3 := 19, n := 4, imm := 1 }
    let t := nx (exec (.mspc f) (mAt 1 (.mspc f) ms))
    ok f = true ∧ ok { f with t2 := 11 } = true ∧ t.spmBytes 0 0x2300 2 = [0x38, 0xC0] ∧ t.spmBytes 0 0x2400 1 = [0x04] := by decide +kernel

/-- The signature stage over t14, t15 and t17 with the record of t16, and the state after it. -/
def sigF : MFields := { t1 := 14, t2 := 17, t3 := 16, n := 2, fe := 1, fl := 1, mode := 0x18, imm := 0xF0180 }
def sigAt : State := mAt 1 (.mstep sigF) ms
def sigDone : State := let t := nx (exec (.mstep sigF) sigAt); { t with engine := none }

theorem test_signature_step :
    let s := sigAt
    let e := serves s
    let sel := smGet 0 e.o 3
    let b := Rd.build { s } e sigF
    let m := b.2
    let e1 := { e with phase := 4, parts := m.parts, plan := m.plan ((e.view 3).base + sel.toNat % 2 ^ 32 * 4096) }
    let e2 := { e1 with phase := 5, plan := [] }
    let w := (b.1.s.putEntry e1).writeAll e1 e1.plan
    let r := Rd.window { s := w.1 } e2 (e.view 1) (e.org 1) (m.used sigF.rep).contains sigF.win e.cnt
    mChk s e = true ∧ sigF.sig = true ∧ sigF.acc.toNat < (s.strandAt 0).accN ∧ sigF.rep ≠ 1 ∧ sigF.cols false ≤ 192 ∧ sigF.rows ≤ 128 ∧ sel.getLsbD 35 = false ∧
    firstDesc (s.stepTdesc e sigF [(e.org 1, e.org 2)] sigF.win) = none ∧ s.mapTdesc e (e.desc 3) (sel.toNat % 2 ^ 32) = none ∧
    s.meTdesc e (e.desc 5) (meSourceOk e.core false (e.view 5)) ((e.view 5).block (0, 0) e.cnt sigF.bits) true = none ∧
    s.aliased e ([recExt e.core sigF.t3.toNat (e.view 3) (sel.toNat % 2 ^ 32)], stepExts e sigF [(e.org 1, e.org 2)] sigF.win ++
      [extOf e.core sigF.hyper (e.view 5) ((e.view 5).block (0, 0) e.cnt sigF.bits) true]) = false ∧
    clean b = true ∧ m.nbkt ≤ sigF.rows ∧ 0 < m.nbkt ∧ w.2.1 = [] ∧ w.2.2 = none ∧ clean r = true ∧
    clean (Rd.meBlock { s := r.1.s } e2 (e.view 2) (e.org 2) (if m.nbkt = 0 then 0 else e.cnt) (sigF.cols false)) = true := by decide +kernel

/-- A record of six rows in two buckets, and the machine whose scratchpad holds it at t16. -/
def aRecord : MapRec :=
  { wrows := 128, present := 6, nbkt := 2, nbits := 4, rep := 0, ver := 5, member := [0, 1, 0, 1, 0, 0] ++ List.replicate 1018 0xFFFF,
    repidx := [0, 1] ++ List.replicate 126 0xFFFF, count := [4, 2] ++ List.replicate 126 0 }
def recBytes : List Byte := aRecord.header true ++ aRecord.tables ++ List.replicate 0x5C0 0
def recMs (i : Instr) : State := (mAt 1 i (withS [(1, 6)] ms)).putSpm 0 0x10000 recBytes

theorem test_record_filled (l : List Nat) (n d : Nat) (hd : d < 65536) (hl : ∀ x ∈ l, x < 65536) :
    (l ++ List.replicate n d).length = l.length + n ∧ ∀ x ∈ l ++ List.replicate n d, x < 65536 := by
  refine ⟨by rw [List.length_append, List.length_replicate], fun x hx => ?_⟩
  rcases List.mem_append.mp hx with h | h
  · exact hl x h
  · rw [List.eq_of_mem_replicate h]
    exact hd

theorem test_record_members : aRecord.member.length = 1024 ∧ ∀ x ∈ aRecord.member, x < 65536 :=
  test_record_filled [0, 1, 0, 1, 0, 0] 1018 0xFFFF (by decide) (by decide)

theorem test_record_fits : aRecord.Fits :=
  ⟨by decide, by decide, by decide, by decide, by decide, rfl, by decide, by decide, by decide, test_record_members, by decide +kernel, by decide +kernel⟩

theorem test_record_length : recBytes.length = 4096 := by
  rw [recBytes, List.length_append, List.length_append, MapRec.header, leBytes_length, MapRec.tables, List.length_append, List.length_append, u16List_length, u16List_length,
    u16List_length, List.length_replicate]

/-- What a consumer reads of it, up to 0xA40. -/
def recRead : List Byte := aRecord.header true ++ aRecord.tables ++ []

theorem test_record_read_part : recBytes.take 2624 = recRead := by
  have h : (aRecord.header true ++ aRecord.tables).length = 2624 := by
    rw [List.length_append, MapRec.header, leBytes_length, MapRec.tables, List.length_append, List.length_append, u16List_length, u16List_length, u16List_length]
  rw [recBytes, recRead, List.append_nil, ← h, List.take_left]

/-- R303 accepts the record. -/
theorem test_record_ok : recOk recRead 5 128 none = true ∧ (recOf recRead).1 = aRecord := by
  rw [recRead, recOk_written _ test_record_fits, recOf_written _ test_record_fits]
  exact ⟨by decide +kernel, rfl⟩

/-- The strand's queues but the entry's own are empty. -/
def quiet (s : State) (e : Entry) : Bool := (s.strandAt 0).queues.all fun q => some q.1 == engineOf e.instr

theorem races_of {s : State} {e : Entry} (he : e.strand = some 0) (h : quiet s e = true) (va w : Nat) : e.races s va w = false := by
  simp only [quiet, List.all_eq_true, beq_iff_eq] at h
  simp only [Entry.races, he, List.any_eq_false]
  intro q hq
  simp [h q hq]

/-- The reads of the record by MWB and MSCAT. -/
theorem test_record_read (i : Instr) (e : Entry) (v : View) (he : e.core = 0) (hn : e.strand = some 0) (hv : v.base = localBase + 0x10000)
    (hp : (recMs i).plainSpm 0) (hu : e.undef = false) (hq : quiet (recMs i) e = true) (hw : ((mAt 1 i (withS [(1, 6)] ms)).strandAt 0).spmBase = 0 ∧ ((mAt 1 i (withS [(1, 6)] ms)).strandAt 0).spmLen = 0x400000) :
    Rd.record { s := recMs i } e v 0 = ({ s := recMs i }, recRead) := by
  have := record_put (s := mAt 1 i (withS [(1, 6)] ms)) (e := e) (v := v) (rec := 0) (off := 0x10000) (bs := recBytes) (by rw [he]; exact hp) hu test_record_length
    (fun k _ => by rw [he]; exact races_of hn hq _ _) (by simpa using hv)
    (by decide) (by decide) (fun k j hk hj => by
      rw [hn] at hk
      cases hk
      simp only [Strand.inWindow, hw.1, hw.2, Bool.and_eq_true, decide_eq_true_eq]
      omega)
  rw [he, test_record_read_part] at this
  exact this

def backF : MFields := { t1 := 12, t3 := 16, imm := 0x3F80000000000100, mode := 0x10 }
def backE : Entry := serves (recMs (.mwb backF))
def scatF : MFields := { t1 := 20, t2 := 12, t3 := 16, o1 := 1, imm := 1 }
def scatI : Instr := .mscat scatF
def scatS : State := recMs scatI
def scatE : Entry := serves scatS

theorem test_signature_back : (mChk (recMs (.mwb backF)) backE = true ∧ backF.sig = true ∧ (recMs (.mwb backF)).mapTdesc backE (backE.desc 3) 0 = none ∧
    (smGet 0 backE.o 3).toNat % 2 ^ 32 = 0 ∧ (backE.view 3).ver = 5 ∧ selWin (smGet 0 backE.o 3) = 128) ∧
    (recMs (.mwb backF)).meTdesc backE (backE.desc 1) (wbKind (backE.view 1)) ((backE.view 1).block (backE.org 1) (wbRows backF backE) 1) true = none ∧
    ((recMs (.mwb backF)).tileOf backE backF.acc.toNat = some 0 ∧ backF.acc.toNat < ((recMs (.mwb backF)).strandAt 0).accN) ∧
    (recMs (.mwb backF)).aliased backE ([extOf 0 backF.t1.toNat (backE.view 1) ((backE.view 1).block (backE.org 1) (wbRows backF backE) 1) true],
      [recExt 0 backF.t3.toNat (backE.view 3) 0]) = false ∧
    Rd.record { s := recMs (.mwb backF) } backE (backE.view 3) 0 = ({ s := recMs (.mwb backF) }, recRead) :=
  ⟨by decide +kernel, by decide +kernel, by decide +kernel, by decide +kernel, test_record_read _ _ _ (by decide +kernel) (by decide +kernel) (by decide +kernel)
    ⟨by decide +kernel, by decide +kernel, by decide +kernel⟩ (by decide +kernel) (by decide +kernel) (by decide +kernel)⟩

/-- MSCAT of rows past the end of t20, which read as zero. -/
theorem test_signature_scatter : (mChk scatS scatE = true ∧ scatS.mapTdesc scatE (scatE.desc 3) 0 = none ∧ (scatE.view 3).ver = 5 ∧ scatF.win = 128) ∧
    (scatS.meTdesc scatE (scatE.desc 1) (meSourceOk 0 false (scatE.view 1)) ((scatE.view 1).block (scatE.org 1) scatF.win 1) true = none ∧
      scatS.meTdesc scatE (scatE.desc 2) (wbKind (scatE.view 2)) ((scatE.view 2).block (scatE.org 2) 128 1) true = none) ∧
    (clean (Rd.window { s := scatS } scatE (scatE.view 1) (scatE.org 1) (aRecord.used 1).contains 128 1) = true ∧
      scatS.aliased scatE ([extOf 0 scatF.t2.toNat (scatE.view 2) ((scatE.view 2).block (scatE.org 2) 128 1) true],
        [extOf 0 scatF.t1.toNat (scatE.view 1) ((scatE.view 1).block (scatE.org 1) 128 1) true, recExt 0 scatF.t3.toNat (scatE.view 3) 0]) = false) ∧
    (aRecord.rowsOf 1 = [1, 3] ∧ (sumRows ((List.replicate 2 valZero))).isSome = true) ∧
    Rd.record { s := scatS } scatE (scatE.view 3) 0 = ({ s := scatS }, recRead) :=
  ⟨by decide +kernel, by decide +kernel, by decide +kernel, by decide +kernel, test_record_read _ _ _ (by decide +kernel) (by decide +kernel) (by decide +kernel)
    ⟨by decide +kernel, by decide +kernel, by decide +kernel⟩ (by decide +kernel) (by decide +kernel) (by decide +kernel)⟩

/-- MSIG of the rows of t14. -/
theorem test_signature_build :
    let sg : MFields := { t1 := 14, t3 := 16, n := 2, imm := 0xF0080 }
    let g := mAt 1 (.msig sg) ms
    g.aliased (serves g) ([recExt 0 sg.t3.toNat ((serves g).view 3) 0], [extOf 0 sg.t1.toNat ((serves g).view 1) (((serves g).view 1).block ((serves g).org 1) sg.win 2) true,
      extOf 0 sg.hyper ((serves g).view 5) (((serves g).view 5).block (0, 0) 2 sg.bits) true]) = false ∧
    mChk g (serves g) = true ∧ clean (Rd.build { s := g } (serves g) sg) = true ∧ g.mapTdesc (serves g) ((serves g).desc 3) 0 = none ∧
      g.meTdesc (serves g) ((serves g).desc 1) (meSourceOk 0 false ((serves g).view 1)) (((serves g).view 1).block ((serves g).org 1) sg.win 2) true = none ∧
      g.meTdesc (serves g) ((serves g).desc 5) (meSourceOk 0 false ((serves g).view 5)) (((serves g).view 5).block (0, 0) 2 sg.bits) true = none := by decide +kernel

/-- Rows and buckets: a row without a code, a row with a bucket's code, one that joins the nearest, and a group of MSPC. -/
theorem test_signature_premises :
    let rows : List (Option Nat) := [some 5, none, some 5, some 4]
    (0 < 1) ∧ rows[1]? = some none ∧ rows[3]? = some (some 4) ∧ 4 ∉ (assign 1 rows).codes ∧ 5 ∈ (assign 1 rows).codes ∧ (assign 1 rows).ovf = 1 ∧
    (let l : List Val := [.fin false 1 1, .fin true 2 1, .fin false 1 1]
     2 ≤ l.length ∧ keepTwo l = (0, some 1) ∧ ∀ v ∈ l, ∀ g n d, v = .fin g n d → d ≠ 0) := by
  refine ⟨by decide, by decide, by decide, by decide +kernel, by decide +kernel, by decide +kernel, by decide, by decide +kernel, ?_⟩
  simp

/-! ### The copy engine -/

/-- Tensors of the own scratchpad and templates: UI8 in t1 to t2 by template 3, FP32 in t4 to E4M3 in t5 by template 4, an index in t3; in
memory t6 (FP32, by template 5) and t7 (INT32, for exact sums); a remote window in t8. -/
def cs : State :=
  let s := withT [(1, tensor 0x1000 2 6 10), (2, tensor 0x2000 2 6 10), (3, tensor 0x8000 1 2 12), (4, tensor 0x1100 2 2 0), (5, tensor 0x2100 2 2 3), (6, tensorM 0x50000 1 2 0),
    (7, tensorM 0x60000 1 2 9), (8, tensor (0x200000000 + 0x3000) 2 6 10 + BitVec.ofNat 256 (2 * 2 ^ 252))] tk
  let s := s.modCore 0 ({ · with tmpl := [(3, 2 + 6 * 2 ^ 16), (4, 2 + 2 * 2 ^ 16 + 2 ^ 32), (5, 1 + 2 ^ 16)], win := [(0, 0x80000008), (1, 0x80000010)], allow := [(0, 10), (1, 10)] })
  let s := s.putSpm 0 0x1000 ((List.range 12).map fun i => BitVec.ofNat 8 (i + 1))
  let s := s.putSpm 0 0x8000 [1, 0, 9, 0]
  let s := s.putSpm 0 0x1100 ([0x3F800000, 0x40000000, 0, 0xBF800000].flatMap (leBytes 4))
  s.putMemNat 0x40050000 4 0x3F800000

/-- A span of whole bytes of the own scratchpad in the strand's window. -/
def spanOwn (s : State) (x : Span) : Bool :=
  x.1 == 8 * ((localBase + (x.1 / 8).toNat - localBase : Nat) : Int) && x.2 == 8 * (x.2 / 8) && decide (localBase ≤ (x.1 / 8).toNat) && decide (1 ≤ x.2 / 8) && decide (x.2 / 8 ≤ 8) &&
  decide ((x.1 / 8).toNat - localBase + x.2 / 8 ≤ 0x400000) && (s.strandAt 0).inWindow ((x.1 / 8).toNat - localBase) (x.2 / 8)

theorem ownPuts_of {s : State} {x : Span} {v : Nat} (h : spanOwn s x = true) : s.ownPuts 0 [(x, v)] := by
  simp only [spanOwn, Bool.and_eq_true, beq_iff_eq, decide_eq_true_eq] at h
  obtain ⟨⟨⟨⟨⟨⟨h1, h2⟩, h3⟩, h4⟩, h5⟩, h6⟩, h7⟩ := h
  intro p hp
  obtain rfl : p = (x, v) := by simpa using hp
  refine ⟨(x.1 / 8).toNat - localBase, x.2 / 8, ?_, h4, h5, h6, h7⟩
  refine Prod.ext ?_ h2
  show x.1 = _
  omega

/-- The premises of CopyCommands for one command, but those that are no Bool. -/
def copyOk (i : Instr) (k : CeKind) (f : MFields) (conv : Nat) : Bool :=
  let s := mAt 2 i cs
  let e := serves s
  let j := jobOf s k f e
  let s0 := s.modChan e.core f.ch ({ · with faulted := false })
  let r := if k == .cpyi then Rd.rows { s := s0.openChan j } j else ({ s := s0.openChan j }, (List.range j.t.rows).map fun r => some ((e.org 1).1 + r))
  let cells := j.cells fun x => (r.2[x]?).getD none
  mChk s e && engineOf e.instr == some 2 && s.posted.isEmpty && !j.versioned && s0.ceTdesc j == none && j.clash == none && (smGet [] (s.coreAt e.core).fifos f.ch).isEmpty && j.d.blk == 0 &&
  j.s.blk == 0 && !fmtComplex j.d.fmt && !fmtComplex j.s.fmt && j.t.conv == conv && clean r && r.1.s == s0.openChan j && j.s.kind == 0 && j.d.kind == 0 && cells.length == j.t.rows * j.t.cols &&
  quiet s e && !(s0.openChan j).hiddenAlias e (cells.map fun c => j.d.span c.dst) ((extOf e.core 0 j.s j.srcElems j.value).spans ++
    (extOf e.core 0 (e.view 3) (if k == .cpyi then j.ixElems else []) false).spans) &&
  cells.all fun c => spanOwn s (j.d.span c.dst) && match c.src with
    | some rc => spanOwn s (j.s.span rc)
    | none => true

theorem test_copies :
    let f : MFields := { t1 := 1, t2 := 2, t3 := 3, mode := 5 + 3 * 16 + 0x1000 }
    let k : MFields := { f with mode := f.mode + 0x100000 }
    copyOk (.cpy f) .cpy f 0 = true ∧ copyOk (.cpy { f with t1 := 4, t2 := 5, mode := 0x1045 }) .cpy { f with t1 := 4, t2 := 5, mode := 0x1045 } 1 = true ∧
    copyOk (.cpyi f) .cpyi f 0 = true ∧ copyOk (.cpyk k) .cpyk k 0 = true ∧ (mAt 2 (.cpy f) cs).plainSpm 0 ∧
    (nx (exec (.cpyi f) (mAt 2 (.cpyi f) cs))).spmBytes 0 0x2000 12 = [7, 8, 9, 10, 11, 12, 0, 0, 0, 0, 0, 0] ∧
    (smGet [] ((nx (exec (.cpyk k) (mAt 2 (.cpyk k) cs))).coreAt 0).fifos 5).map (·.v) =
      [BitVec.ofNat 64 (3 * 2 ^ 60 + 3 * 2 ^ 48 + 0x04030201 + 0x08070605 + 0x0C0B0A09)] := by
  refine ⟨by decide +kernel, by decide +kernel, by decide +kernel, by decide +kernel, ⟨by decide +kernel, by decide +kernel, by decide +kernel⟩, by decide +kernel, by decide +kernel⟩

/-- R327's example: CPYK of the words 0x0000000C and 0x0000000F gives CK 0x1B. -/
theorem test_checksum : checksum 1 0 (leBytes 4 0xC ++ leBytes 4 0xF) = 0x1B := by decide +kernel

/-- CPYRS of one FP32 element into memory, and of an exact term. -/
def addOk (f : MFields) (va pa : Nat) : Bool :=
  let s := mAt 2 (.cpyrs f) cs
  let e := serves s
  let j := jobOf s .cpyrs f e
  let s0 := s.modChan e.core f.ch ({ · with faulted := false })
  let p := s0.place e.core e.sup .wr 3 (BitVec.ofInt 64 ((j.d.span (0, 0)).1 / 8))
  mChk s e && quiet s e && s0.ceTdesc j == none && j.clash == none && !f.res && f.slot == 0 && j.s.blk == 0 && !fmtComplex j.s.fmt &&
  j.reduceCells.length == 1 && (j.reduceCells.map fun c => (c.r, c.c, c.dst, c.src, c.zero)) == [(0, 0, (0, 0), some (0, 0), false)] && spanOwn s (j.s.span (0, 0)) &&
  (match p.2 with
  | .ok q => q == .mem pa
  | _ => false) && decide ((j.d.span (0, 0)).1 = 8 * (va : Int)) && pa % 8 == 0 && 64 % (fmtBits j.d.fmt / 8) == 0 && j.exact == (f.t2 == 7)

theorem test_copy_adds :
    let f : MFields := { t1 := 4, t2 := 6, mode := 5 + 5 * 16 }
    let g : MFields := { f with t2 := 7, mode := f.mode + 0x20000 }
    addOk f 0x50000 0x40050000 = true ∧ addOk g 0x60000 0x40060000 = true ∧ exactTerm (BitVec.ofNat 16 g.imm.toNat).toInt (.fin false 1 1) = .ok (2 ^ 52) ∧
    (nx (exec (.cpyrs f) (mAt 2 (.cpyrs f) cs))).memNat 0x40050000 4 = 0x40000000 ∧ (nx (exec (.cpyrs g) (mAt 2 (.cpyrs g) cs))).memNat 0x40060000 8 = 2 ^ 52 := by decide +kernel

theorem test_copy_adds_memory :
    let f : MFields := { t1 := 4, t2 := 6, mode := 5 + 5 * 16 }
    (((mAt 2 (.cpyrs f) cs).modChan 0 5 ({ · with faulted := false })).place 0 true .wr 3 0x50000).1.plainMem := by
  refine ⟨?_, ?_, ?_, ?_, ?_, ?_, ?_⟩ <;> decide +kernel

/-- CWMK with a full FIFO and with one free place; CTPL. -/
theorem test_channel_report :
    let f : MFields := { mode := 0x1000005 }
    let full (n : Nat) : State := cs.modCore 0 ({ · with fifos := [(5, List.replicate n { v := 0 })] })
    let e (n : Nat) : Entry := serves (mAt 2 (.cwmk f) (full n))
    mChk (mAt 2 (.cwmk f) (full 16)) (e 16) = true ∧ 16 ≤ (smGet [] ((mAt 2 (.cwmk f) (full 16)).coreAt 0).fifos f.ch).length ∧
    mChk (mAt 2 (.cwmk f) (full 15)) (e 15) = true ∧ (smGet [] ((mAt 2 (.cwmk f) (full 15)).coreAt 0).fifos f.ch).length = 15 ∧
    smGet 0 ((nx (exec (.ctpl { mode := 0xFF0, imm := 9 }) (mAt 2 (.ctpl { mode := 0xFF0, imm := 9 }) cs))).coreAt 0).tmpl 0xFF = 9 := by decide +kernel

/-- CPYMC: the last write of the own window goes to the window of the mask at the same offset; all acknowledged, it ends. -/
theorem test_multicast :
    let f : MFields := { t1 := 1, t2 := 8, mode := 5 + 3 * 16 + 0x1000, imm := 0x8002 }
    let base := localBase + 0x200000000
    let v := (serves (mAt 2 (.cpymc f) cs)).view 2
    let plan : List (Nat × List (Byte × Byte)) := [(base + 0x3FFFFF, [(7, 0xFF)])]
    let s := mAt 2 (.cpymc f) cs
    let s := { s with engine := s.engine.map fun e => { e with phase := 4 } }
    v.base = localBase + 0x200000000 + 0 * 0x400000 + v.base % 0x400000 ∧ (0 < 16 ∧ 15 < 16) ∧ f.imm.getLsbD 15 = true ∧ f.imm.getLsbD 0 = false ∧
    windowPlan f v plan = [(base + 1 * 0x400000 + 0x3FFFFF, [(7, 0xFF)]), (base + 15 * 0x400000 + 0x3FFFFF, [(7, 0xFF)])] ∧
    (s.engine.isSome = true ∧ (serves s).runs = true ∧ (serves s).phase = 4 ∧ (serves s).plan = [] ∧ (serves s).strand = some 0 ∧ s.posted = [] ∧ engineOf (serves s).instr = some 2 ∧
      f.slot = 0 ∧ f.res = true ∧ (smGet [] (s.coreAt 0).fifos f.ch).length < 16) ∧
    (smGet [] ((nx (exec (.cpymc f) s)).coreAt 0).fifos 5).map (·.v) = [BitVec.ofNat 64 (4 * 2 ^ 60 + 3 * 2 ^ 48 + 2)] := by decide +kernel

/-- The host's pushes: a port that does not exist, a staged word, a command that is none, one that raises a flag, a full queue, and a
copy that enters the queue. -/
theorem test_aperture_pushes :
    let push (s : State) (port off v : Nat) : State := { s with ev := { agent := .host 0, n := 0, k := port * 0x1000 + off, v := BitVec.ofNat 64 v } }
    let w := encodeM 0x46 { mode := 0x30, imm := 9 }
    let staged (n : Nat) (s : State) : State := s.modCore 0 ({ · with staging := [(60, BitVec.ofNat 64 n), (61, BitVec.ofNat 64 (n / 2 ^ 64))] })
    let s := push (staged w cs) 15 0x10 (w / 2 ^ 128)
    let x := encodeM 0x45 { fe := 1, fl := 1, mode := 5 }
    let y := push (staged x cs) 15 0x10 (x / 2 ^ 128)
    let full := s.modCore 0 ({ · with apq := List.replicate 16 { instr := .nop } })
    isNext (exec .aperturePush (push cs 16 0x10 0)) ((push cs 16 0x10 0).countRefused 0) = true ∧ smGet 0 ((nx (exec .aperturePush (push cs 15 8 7))).coreAt 0).staging 61 = 7 ∧
    (mInstr 0x46 (w / 2 ^ 64)).isSome = true ∧ (let g := mFields w; lowBitOf w (mZero 0x46 g) = none ∧ g.fe = 0 ∧ g.slot = 0 ∧ g.mode.getLsbD 18 = false ∧ g.imm = 9) ∧
    ((mFields (x / 2 ^ 68 * 2 ^ 68 + 15 * 2 ^ 64 + x % 2 ^ 64)).fe = 1) ∧
    ((nx (exec .aperturePush s)).coreAt 0).apq.map (·.instr) = [.ctpl { mode := 0x30, imm := 9 }] ∧ ((nx (exec .aperturePush full)).fnAt 0).apert = 1 ∧
    ((nx (exec .aperturePush y)).fnAt 0).apert = 1 ∧ ((nx (exec .aperturePush (push cs 15 0x10 0x4700000000000000))).fnAt 0).apert = 1 := by decide +kernel

/-! ### Collectives -/

/-- Two members: this die and die 1 of the package, whose packets of command 1 of group 4 are there. -/
def ks : State :=
  let s := withT [(1, tensor 0x1000 1 4 0), (2, tensor 0x2000 1 4 0), (3, tensor 0x100 1 3 12), (4, tensor 0x1800 1 4 9)] tk
  s.putSpm 0 0x100 ([0, 1, 9].flatMap (leBytes 2))
def kgroup (exact : Bool) : Group := { list := [(0, 0), (0, 1)], rank := 0, exact, seq := 1 }
def kf : MFields := { t1 := 1, t2 := 2, n := 1, mode := 4 }

/-- Engine 3 serves the entry of `i` at phase `ph`, with the packets of both members. -/
def kAt (i : Instr) (f : MFields) (ph : Nat) (exact : Bool) (vals : List Nat) : State :=
  let s := mAt 3 i ks
  let e := { serves s with phase := ph, keep := if ph = 0 then [] else [1, 0, 3] }
  let e := if ph = 2 then { e with keep := [1, 0] } else e
  let h := Coll.hdr { e, f, g := kgroup exact }
  let one (d : Nat) : Packet := { gid := 4, die := d, seq := 1, hdr := h, exact, flag := d + 1, vals := vals.map (ffDec ffF32), codes := vals.map Int.ofNat }
  { s.modDie 0 fun x => { x with groups := [(4, kgroup exact)], collIn := [one 0, one 1] } with engine := some e }

/-- The premises of the phase in which a command meets its packets. -/
def meetOk (i : Instr) (f : MFields) (exact : Bool) (vals : List Nat) : Bool :=
  let s := kAt i f 2 exact vals
  let e := serves s
  let c : Coll := { e, f, g := kgroup exact }
  let ps := (s.packets c 1).filterMap id
  e.runs && e.strand == some 0 && e.parts.isEmpty && engineOf e.instr == some 3 && (smGet [] (s.coreAt 0).fifos 0x10).isEmpty && e.instr == i &&
  s.groupAt 0 f.gid == some (kgroup exact) && e.phase == 2 && e.keep == [1, 0] && s.packets c 1 == ps.map some && ps.length == 2 && (e.view 2).blk == 0 &&
  !fmtComplex (e.view 2).fmt && c.status ps == 0 && (s.entryAt e).isSome && (c.srcExt.spans ++ c.dst.map (e.view 2).span).all (fun x => addrClass (Int.fdiv x.1 8) == 0)

theorem test_collectives_meet :
    let v := [0x3F800000, 0x40000000]
    let x : MFields := { kf with t1 := 4, mode := 0x1004, imm := 52 }
    meetOk (.clar kf) kf false v = true ∧ meetOk (.clrs kf) kf false v = true ∧ meetOk (.clag kf) kf false v = true ∧
    meetOk (.clbc { kf with imm := 1 }) { kf with imm := 1 } false v = true ∧ meetOk (.clxr kf) kf true v = true ∧ meetOk (.clxr x) x true [1] = true ∧
    ((nx (exec (.clar kf) (kAt (.clar kf) kf 2 false v))).entryAt (serves (kAt (.clar kf) kf 2 false v))).map (·.plan.length) = some 1 ∧
    ((kAt (.clar kf) kf 2 false v).strandAt 0).queues.map (·.2.length) = [1] := by decide +kernel

/-- A hidden alias needs an operand outside the local window. -/
theorem test_collectives_plain (s : State) (e : Entry) (w r : List Span) (h : (w ++ r).all (fun x => addrClass (Int.fdiv x.1 8) == 0) = true) :
    s.hiddenAlias e w r = false := by
  simp only [List.all_append, Bool.and_eq_true] at h
  simp [State.hiddenAlias, h.1, h.2]

/-- No group; all writes made. -/
theorem test_collectives_end :
    let s := mAt 3 (.clbc kf) ks
    let t := kAt (.clbc kf) kf 4 false []
    (serves s).runs = true ∧ (serves s).strand = some 0 ∧ (serves s).parts = [] ∧ engineOf (serves s).instr = some 3 ∧ s.groupAt 0 4 = none ∧ (serves s).phase = 0 ∧
    t.groupAt 0 4 = some (kgroup false) ∧ (serves t).phase = 4 ∧ (serves t).plan = [] ∧ t.posted = [] ∧ (serves t).runs = true ∧ (serves t).strand = some 0 ∧
    (smGet [] ((nx (exec (.clbc kf) t)).coreAt 0).fifos 0x10).map (·.v) = [BitVec.ofNat 64 (3 * 2 ^ 60 + 4 * 2 ^ 46 + 3)] ∧
    (smGet [] ((nx (exec (.clbc kf) s)).coreAt 0).fifos 0x10).map (·.v) = [BitVec.ofNat 64 (3 * 2 ^ 60 + 4 * 2 ^ 52 + 4 * 2 ^ 46)] := by decide +kernel

/-- CLGRP: undefine; counts 0 and 4609; the lists (0, 1) and (1), of which the second lacks this die; and an exact group of 1,024 or fewer. -/
def grpOk (f : MFields) (l : List Nat) : Bool :=
  let s := mAt 3 (.clgrp f) ks
  let e := serves s
  let v := e.view 1
  let rcs := (ixFrom ((smGet 0 e.o 1).toNat % 2 ^ 32) f.n.toNat).map v.flat
  let r := rcs.foldl (fun (x : Rd × List Nat) rc => ((Rd.code x.1 e v rc 2).1, (Rd.code x.1 e v rc 2).2 :: x.2)) ({ s }, [])
  e.runs && e.strand == some 0 && e.parts.isEmpty && e.phase == 0 && e.instr == .clgrp f && s.meTdesc e (e.desc 1) (decide (v.kind ≤ 1)) rcs false == none &&
  clean r && r.1.s == s && r.2 == l.reverse && !f.mode.getLsbD 14

theorem test_groups :
    let f : MFields := { t1 := 3, n := 2, mode := 4 }
    grpOk f [0, 1] = true ∧ grpOk { f with mode := 0x2004 } [0, 1] = true ∧ grpOk { f with n := 3 } [0, 1, 9] = true ∧ (4608 : BitVec 16).toNat ≤ 4608 ∧ 4608 < (4609 : BitVec 16).toNat ∧
    ({ mode := 0x4004 } : MFields).mode.getLsbD 14 = true ∧ (0 * 8 + 0 ∈ [0, 1] ∧ 0 * 8 + 0 ∉ [1, 9]) ∧
    ((nx (exec (.clgrp f) (mAt 3 (.clgrp f) ks))).groupAt 0 4).map (fun g => (g.list, g.rank, g.exact)) = some ([(0, 0), (0, 1)], 0, false) := by decide +kernel

/-- An exact group too big: more than 1,024 members, this die among them. -/
theorem test_groups_big : 1024 < (List.range 1025).length ∧ (∀ x ∈ List.range 1025, x < 4608) ∧ (List.range 1025).Nodup ∧ 0 * 8 + 0 ∈ List.range 1025 := by
  refine ⟨by simp, fun x hx => ?_, List.nodup_range, by simp⟩
  have := List.mem_range.mp hx
  omega

/-! ### The stash -/

/-- Units that follow one another join into one. -/
theorem test_join (b : Int) (w k n : Nat) : joinSpans ((List.range' k (n + 1)).map fun j => (b + ((j * w : Nat) : Int), w)) = [(b + ((k * w : Nat) : Int), (n + 1) * w)] := by
  induction n generalizing k with
  | zero => simp [List.range'_succ, joinSpans]
  | succ n ih =>
    rw [List.range'_succ, List.map_cons, joinSpans, ih (k + 1)]
    have h : b + ((k * w : Nat) : Int) + w = b + (((k + 1) * w : Nat) : Int) := by
      rw [Nat.succ_mul, Nat.cast_add, Int.add_assoc]
    simp only [h, if_pos]
    refine congrArg (fun x => [(_, x)]) ?_
    rw [Nat.succ_mul (n + 1), Nat.add_comm]

/-- A view whose elements lie in flat order meets R36 where its one span does. -/
theorem test_flat_view (s : State) (e : Entry) (d : Desc) (n : Nat) (h : (viewOf d).tr = false ∧ (viewOf d).estr = 1 ∧ (viewOf d).rstr * 8 = (viewOf d).cols * fmtBits (viewOf d).fmt)
    (hn : (viewOf d).vr * (viewOf d).vc = n + 1) (hx : s.tdesc e.strand d [(((viewOf d).base : Int) * 8, (n + 1) * fmtBits (viewOf d).fmt)] [] = none) :
    s.meTdesc e d true (viewOf d).all false = none := by
  generalize hv : viewOf d = v at *
  have hs : (v.all.map v.span) = (List.range' 0 (n + 1)).map fun j => ((v.base : Int) * 8 + ((j * fmtBits v.fmt : Nat) : Int), fmtBits v.fmt) := by
    rw [View.all, hn, List.map_map, List.range_eq_range']
    refine List.map_congr_left fun j _ => ?_
    obtain ⟨h1, h2, h3⟩ := h
    simp only [Function.comp, View.span, View.flat, View.bit, View.stored, View.vc, h1, h2, if_false, Bool.false_eq_true]
    refine Prod.ext ?_ rfl
    have hd := Nat.div_add_mod j v.cols
    have : ((j / v.cols : Nat) : Int) * v.rstr * 8 = ((j / v.cols : Nat) : Int) * (v.cols * fmtBits v.fmt) := by rw [Int.mul_assoc, h3]
    simp only [this]
    generalize fmtBits v.fmt = w at *
    conv_rhs => rw [← hd]
    push_cast
    ring
  simp only [State.meTdesc, Bool.not_true, Bool.false_eq_true, if_false, Bool.false_and, hv, hs, test_join]
  simpa using hx

/-- Stage 5 with places for its stash, active; and the strand bound to it. -/
def stageWord (o : Nat) : Nat :=
  match o with
  | 0 => 5 + 2 * 2 ^ 16
  | 8 => 1 + 2 ^ 48
  | 0x10 => 0x11000
  | 0x18 => 0x12000
  | 0x20 => 0x13000
  | 0x30 => 4 * 2 ^ 16 + 2 ^ 36
  | 0x48 => 0x100000
  | 0x50 => 8 + 8 * 2 ^ 32
  | 0x58 => 0x180000
  | 0x60 => 0x60000
  | 0x68 => 4
  | _ => 0
def stageBytes : List Byte := (List.range 32).flatMap fun i => leBytes 8 (stageWord (8 * i))
def aStage : Stage := { stageOf 0 stageBytes with state := 1 }
/-- FP32 in t1 to t2, 1,025 KiB in t3; tag 0x77 in s3. -/
def ss : State :=
  let s := withT [(1, tensor 0x1000 1 4 0), (2, tensor 0x2000 1 4 0), (3, tensor 0x10000 1025 1024 10)] (withS [(3, 0x77)] tk)
  let s := s.putSpm 0 0x1000 [0, 0, 0x80, 0x3F, 0, 0, 0x80, 0x3F, 0, 0, 0, 0x40, 0, 0, 0, 0]
  (s.modDie 0 fun d => { d with stages := [(0, aStage)] }).modSt ({ · with stage := some 5 })
def stF : MFields := { t1 := 1, t2 := 2, o1 := 3, imm := 9, mode := 0x1000000 }
def kept (state len : Nat) : StashEntry := { stage := 5, tag := 0x77, id := 9, state, len, chunks := [[0]] }
def holding (x : StashEntry) (s : State) : State := s.modDie 0 fun d => { d with stash := [(4, x)] }

/-- The premises common to the commands of a stage's strand. -/
def stashOk (i : Instr) (s : State) : Bool :=
  let s := mAt 4 i s
  let e := serves s
  mChk s e && engineOf e.instr == some 4 && e.instr == i && s.ownStage 0 == some (0, 0, aStage) && (smGet [] (s.coreAt 0).fifos 0x11).isEmpty &&
  (s.dieAt 0).stash.length ≤ 1

theorem test_stash_commands :
    let x := holding (kept 1 16) ss
    let l : List Instr := [.stsh stF, .stft stF, .stpf stF, .stdr stF, .stdr { stF with t1 := 0, t2 := 0, mode := 0x1000200 }, .stqy stF]
    l.all (fun i => stashOk i ss && stashOk i x) = true ∧ (mAt 4 (.stqy stF) tk).ownStage 0 = none ∧ mChk (mAt 4 (.stqy stF) tk) (serves (mAt 4 (.stqy stF) tk)) = true ∧
    ((nx (exec (.stdr stF) (mAt 4 (.stdr stF) x))).dieAt 0).stash = [] ∧ stF.mode.getLsbD 9 = false := by decide +kernel

/-- The operand of each command, and the entries that STFT meets: LOST or DROPPED, of another length, and one that decodes. -/
def operandOk (p : Nat) (i : Instr) : Bool :=
  let s := mAt 4 i ss
  let e := serves s
  s.meTdesc e (e.desc p) (decide ((e.view p).kind ≤ 1)) (e.view p).all false == none && (e.view p).imageLen == 16

theorem test_stash_operands :
    operandOk 1 (.stsh stF) = true ∧ operandOk 2 (.stft stF) = true ∧ (kept 3 16).state ≠ 2 ∧ (kept 3 16).state = 3 ∧ (kept 2 15).len ≠ 16 ∧ (16 : Nat) ≤ 1048576 := by decide +kernel

/-- STSH of the four values: read, coded, and granules found for it. -/
theorem test_stash_stores :
    let f : MFields := { stF with t2 := 0, mode := 0x100001C }
    let s := mAt 4 (.stsh f) ss
    let e := serves s
    let v := e.view 1
    let r := v.all.foldl (fun (x : Rd × List Nat) rc => ((Rd.code x.1 e v rc 2).1, (Rd.code x.1 e v rc 2).2 :: x.2)) ({ s }, [])
    let chunks := (chunksOf 4096 (leBytes v.imageLen (packBits (fmtBits v.fmt) r.2.reverse))).map (codeChunk true 4)
    let sizes := chunks.map fun c => (c.length + 255) / 256
    clean r = true ∧ f.mode.toNat % 4 = 0 ∧ (s.dieAt 0).stash.length < 4096 ∧ (freeGranules (r.1.s.partUsed 0 aStage true) (aStage.part 0 true).2 sizes.sum).isSome = true ∧
    (f.mode.toNat / 8 % 8 + 1 = 4 ∧ stashOk (.stsh f) ss = true) := by decide +kernel

/-- STFT of a chunk that decodes. -/
theorem test_stash_fetches :
    let bs := (List.range 4).flatMap fun i => leBytes 4 (i + 1)
    let s := (holding (kept 1 16) ss).putMem (0x40000000 + (aStage.part 0 true).1) (codeChunk false 1 bs)
    let s := mAt 4 (.stft stF) s
    let e := serves s
    let r := Rd.chunks { s } { e, f := stF, g := aStage } (kept 1 16)
    mChk s e = true ∧ clean r = true ∧ (r.2.zipIdx.all fun c => (decodeChunk 1 (min 4096 (16 - 4096 * c.2)) c.1.2).isSome) = true ∧ (kept 1 16).len = (e.view 2).imageLen := by
  decide +kernel

/-- An image of more than 1 MiB. -/
theorem test_stash_too_long :
    let s := mAt 4 (.stsh { stF with t1 := 3 }) ss
    let e := serves s
    s.meTdesc e (e.desc 1) (decide ((e.view 1).kind ≤ 1)) (e.view 1).all false = none ∧ 1048576 < (e.view 1).imageLen :=
  ⟨test_flat_view _ _ _ 1049599 (by decide +kernel) (by decide +kernel) (by decide +kernel), by decide +kernel⟩

/-- The coder at its smallest and largest chunk, and a commit with a free number. -/
theorem test_stash_premises :
    (1 ≤ [(7 : Byte)].length ∧ [(7 : Byte)].length ≤ 4096 ∧ 4096 ≤ (List.replicate 4096 (0 : Byte)).length) ∧ decodeChunk 8 1 (codeChunk true 8 [7]) = some [7] ∧
    (let j : StashJob := { f := stF, g := aStage, e := { instr := .stsh stF, keep := [0, 1, 1, 16, 1, 0], parts := [(0, [3])] } }
     ((ss.dieAt j.d).stash.length < 4096 ∧ j.e.keep = [0, 1, 1, 16, 1, 0])) := by
  refine ⟨⟨by decide, by decide, by rw [List.length_replicate]⟩, by decide +kernel, by decide +kernel⟩

/-! ### The optimiser and the stages -/

/-- A routine of six words in memory that t0 := x0 + x1 writes back, a card for it over two streams of FP32, and a result element asked for. -/
def routine : List Nat := [0, 0x01000001, 0x02000008, 0x40120000, 0xD0000000, 0xF0000000]
def streamDesc (va : Nat) : Nat := (tensorM va 1 4 0).toNat
def card : Nat := 2 ^ 12 + 0xBF800000 * 2 ^ 128 + streamDesc 0x51000 * 2 ^ 512 + streamDesc 0x52000 * 2 ^ 768
def om : State :=
  let s := tk.putMem 0x40050000 (routine.flatMap (leBytes 4))
  let s := (s.putMem 0x40050800 (leBytes 320 card)).putMem 0x40053000 (leBytes 64 0x60)
  let s := s.putMem 0x40051000 ([0x3F800000, 0x40000000, 0x40400000, 0x40800000].flatMap (leBytes 4))
  let s := s.putMem 0x40052000 ([0x3F000000, 0x3F000000, 0x3F000000, 0x7F800000].flatMap (leBytes 4))
  withS [(3, 0x50000), (4, 0x50800), (5, 0x50001), (6, 0x53000)] s
def os (installed : Bool) : State := om.modDie 0 fun d => { d with routines := if installed then [(0, routine)] else [] }
def of (o : BitVec 6) : MFields := { o1 := o, mode := 0x1000000 }

def optOk (i : Instr) (s : State) : Bool :=
  let s := mAt 5 i s
  let e := serves s
  mChk s e && engineOf e.instr == some 5 && (smGet [] (s.coreAt 0).fifos 0x12).isEmpty && e.instr == i

/-- OPRT of an address that is not aligned, of a routine that is accepted, and of one with no end; OPSK without a stage. -/
theorem test_optimiser_routines :
    let b (s : State) (va : Nat) : Rd × List Byte := Rd.block { s } (serves s) va 64
    let s := mAt 5 (.oprt (of 3)) (os false)
    let r := b s 0x50000
    let ws := (List.range 16).map fun i => leNat ((r.2.drop (4 * i)).take 4)
    optOk (.oprt (of 5)) om = true ∧ (smGet 0 (serves (mAt 5 (.oprt (of 5)) om)).o 1).toNat % 64 = 1 ∧ optOk (.oprt (of 3)) (os false) = true ∧
    (smGet 0 (serves s).o 1).toNat = 0x50000 ∧ clean r = true ∧ (r.1.s.coreAt 0).fifos = (s.coreAt 0).fifos ∧ r.1.s.strands = s.strands ∧
    (ws.findIdx? fun w => w / 2 ^ 28 == 15 || !microOk (microOf w)) = some 5 ∧ microOk (microOf 0xF0000000) = true ∧
    microOk (microOf 0x60) = false ∧ optOk (.opsk (of 0)) om = true ∧ (mAt 5 (.opsk (of 0)) om).ownStage 0 = none := by decide +kernel

/-- OPSK of a stage without and with a skip word. -/
def skipStage (a : Nat) : Stage := { aStage with desc := smPut aStage.desc 8 (BitVec.ofNat 64 a) }
def skipping (a : Nat) : State := ss.modDie 0 fun d => { d with stages := [(0, skipStage a)] }
theorem test_optimiser_skips :
    let f : MFields := { mode := 0x1000000, imm := 5 }
    let s := mAt 5 (.opsk f) (skipping 0x70000)
    let p := s.place 0 true .wr 3 0x70000
    optOk (.opsk f) (skipping 0) = true ∧ optOk (.opsk f) (skipping 0x70000) = true ∧ (mAt 5 (.opsk f) (skipping 0)).ownStage 0 = some (0, 0, skipStage 0) ∧ (skipStage 0).skipaddr = 0 ∧
    s.ownStage 0 = some (0, 0, skipStage 0x70000) ∧ (skipStage 0x70000).skipaddr = 0x70000 ∧ p = (p.1, .ok (.mem 0x40070000)) ∧ (p.1.coreAt 0).fifos = (s.coreAt 0).fifos ∧
    p.1.strands = s.strands ∧ (nx (exec (.opsk f) s)).memNat 0x40070000 8 = 5 := by decide +kernel

theorem test_optimiser_skip_memory : ((mAt 5 (.opsk { mode := 0x1000000, imm := 5 }) (skipping 0x70000)).place 0 true .wr 3 0x70000).1.plainMem := by
  refine ⟨?_, ?_, ?_, ?_, ?_, ?_, ?_⟩ <;> decide +kernel

/-- OPJ: a card that is no card, one whose routine is not installed, and one that runs. -/
def jobRead (o : BitVec 6) (inst : Bool) : Rd × List Byte := let s := mAt 5 (.opj (of o)) (os inst); Rd.block { s } (serves s) (smGet 0 (serves s).o 1).toNat 320
def jobWords (c : Nat) : List Nat := (List.range 40).map fun i => c / 2 ^ (64 * i) % 2 ^ 64
def jobAt (o : BitVec 6) (inst : Bool) (c : Nat) : Entry := { serves (mAt 5 (.opj (of o)) (os inst)) with phase := 1, got := [], keep := jobWords c }
def readOk (o : BitVec 6) (inst : Bool) (c : Nat) : Bool :=
  let s := mAt 5 (.opj (of o)) (os inst)
  let r := jobRead o inst
  optOk (.opj (of o)) (os inst) && clean r && (r.1.s.coreAt 0).fifos == (s.coreAt 0).fifos && r.1.s.strands == s.strands && (r.1.s.dieAt 0).routines == (s.dieAt 0).routines && r.2 == leBytes 320 c

theorem test_optimiser_card_reads : readOk 4 false card = true := by decide +kernel
theorem test_optimiser_cards :
    let s (o : BitVec 6) (inst : Bool) : State := mAt 5 (.opj (of o)) (os inst)
    let cd (o : BitVec 6) (inst : Bool) (c : Nat) : Card := cardOf (s o inst) 0 (jobWords c)
    (s 6 true).cardBad (jobAt 6 true 0x60) (cd 6 true 0x60) = true ∧ (s 4 false).cardBad (jobAt 4 false card) (cd 4 false card) = false ∧ (cd 4 false card).prog = [] ∧
    (cd 4 true card).prog ≠ [] := by decide +kernel

/-- A list of one in a free order. -/
theorem test_shuffle_one {α : Type} (s : State) (a : α) : s.shuffle [a] = ({ s with fresh := s.fresh + 1 }, [a]) := by
  simp [State.shuffle, State.choose, Nat.mod_one]

/-- The job over one element whose card has been read, and the one whose writes are made. -/
def card1 : Nat := 2 ^ 12 + 0xBF800000 * 2 ^ 128 + (tensorM 0x51000 1 1 0).toNat * 2 ^ 512 + (tensorM 0x52000 1 1 0).toNat * 2 ^ 768
def jobS : State := { (mAt 5 (.opj (of 4)) (os true)) with engine := some (jobAt 4 true card1) }
theorem test_optimiser_jobs :
    let e := jobAt 4 true card1
    let cd := cardOf jobS 0 e.keep
    let r := Rd.streams { s := (jobS.shuffle (cd.view 0).all).1 } e cd (jobS.shuffle (cd.view 0).all).2
    let w := r.1.s.cardWork e cd r.2
    (jobS.engine = some e ∧ e.runs = true ∧ e.strand = some 0 ∧ e.instr = .opj (of 4) ∧ e.keep.length = 40 ∧ e.phase = 1 ∧ jobS.cardBad e cd = false ∧ cd.prog ≠ [] ∧
      jobS.ownStage 0 = none ∧ cd.syncobj = 0) ∧
    (clean r = true ∧ w.1.hiddenAlias e (w.2.1.map (·.1)) (cd.reads.flatMap fun x => (extOf e.core x (cd.view x) (cd.touched x) true).spans) = false ∧
      w.2.2.length = 1 ∧ w.2.1.length = 1 ∧ (w.1.entryAt e).isSome = true) := by
  have h : ((cardOf jobS 0 (jobAt 4 true card1).keep).view 0).all = [(0, 0)] := by decide +kernel
  refine ⟨by decide +kernel, ?_⟩
  simp only [h, test_shuffle_one]
  decide +kernel

theorem test_optimiser_ends :
    let t : State := { (mAt 5 (.opj (of 4)) (os true)) with engine := some { jobAt 4 true card with phase := 4, parts := [4, 0, 0, 0].zipIdx.map fun p => (p.2, [p.1]) } }
    (serves t).plan = [] ∧ (serves t).failed = none ∧ t.posted = [] ∧ (smGet [] ((nx (exec (.opj (of 4)) t)).coreAt 0).fifos 0x12).map (·.v) = [BitVec.ofNat 64 (4 * 2 ^ 32 + 4)] := by decide +kernel

/-- One word of each kind of a routine, each clause of the arithmetic. -/
theorem test_optimiser_words : (List.range 15).all (fun k => (microOf (k * 2 ^ 28)).opc == k) = true := by decide +kernel

/-! ### Stages -/

/-- The machine with stage 5 loaded as `g`, its descriptor in memory at 0x40000, supervisor or user. -/
def sg (g : Option Stage) (sup : Bool) : State :=
  let s := (withS [(3, 0x77), (9, 0x40000)] tk).putMem 0x40040000 stageBytes
  let s := s.modDie 0 fun d => { d with stages := (g.map fun g => (0, g)).toList }
  let s := if g.isSome then s.modSt ({ · with stage := some 5 }) else s
  if sup then s else user s
def gf (mode : Nat) : MFields := { o1 := 9, mode := BitVec.ofNat 32 (0x1000000 + mode) }
def mbOk (i : Instr) (s : State) : Bool :=
  let s := mAt 6 i s
  let e := serves s
  mChk s e && engineOf e.instr == some 6

/-- MBPOL: a row that R368 forbids, no such stage, and a row that is written. -/
theorem test_stage_rows :
    let f (row : Nat) : MFields := { mode := 0x1000F05, imm := BitVec.ofNat 64 row }
    mbOk (.mbpol (f 1)) (sg (some aStage) true) = true ∧ mbOk (.mbpol (f 0xC0000200)) (sg none true) = true ∧ mbOk (.mbpol (f 0xC0000200)) (sg (some aStage) true) = true ∧
    (1 % 128 ≠ 0 ∨ ∃ i ∈ [7, 9, 11, 13, 15, 17, 19], 1 / 2 ^ i % 4 = 3) ∧ (0x180 / 2 ^ 7 % 4 = 3 ∧ 0x180000 / 2 ^ 19 % 4 = 3) ∧
    ¬ (0xC0000200 % 128 ≠ 0 ∨ ∃ i ∈ [7, 9, 11, 13, 15, 17, 19], 0xC0000200 / 2 ^ i % 4 = 3) ∧
    (mAt 6 (.mbpol (f 0xC0000200)) (sg none true)).stageOn 0 0 5 = none ∧ (mAt 6 (.mbpol (f 0xC0000200)) (sg (some aStage) true)).stageOn 0 0 5 = some (0, aStage) ∧
    (match (nx (exec (.mbpol (f 0xC0000200)) (mAt 6 (.mbpol (f 0xC0000200)) (sg (some aStage) true)))).stageOn 0 0 5 with
      | some p => p.2.rows
      | none => []) = [(15, 0xC0000200)] := by decide +kernel

/-- MBSTG in user context, of a stage that is not there, of one disabled and of one active; LOAD into a free place, into none, of an id in
use, of a place in use and of a bad descriptor. -/
theorem test_stage_states :
    let off : Stage := { aStage with state := 0 }
    let l : List Instr := [.mbstgEnable (gf 0x501), .mbstgDestroy (gf 0x502), .mbstgCancel (gf 0x503)]
    l.all (fun i => mbOk i (sg (some off) false) && mbOk i (sg none true) && mbOk i (sg (some off) true) && mbOk i (sg (some aStage) true)) = true ∧
    mbOk (.mbstgLoad (gf 0)) (sg none false) = true ∧ (serves (mAt 6 (.mbstgLoad (gf 0)) (sg none false))).sup = false ∧
    (mAt 6 (.mbstgEnable (gf 0x501)) (sg none true)).stageOn 0 0 5 = none ∧ off.state = 0 ∧ aStage.state ≠ 0 ∧ (∀ p ∈ (sg (some aStage) true).tasks, p.2.origin ≠ .stage 0 0) ∧
    ((nx (exec (.mbstgEnable (gf 0x501)) (mAt 6 (.mbstgEnable (gf 0x501)) (sg (some off) true)))).dieAt 0).stages.map (fun p => (p.1, p.2.state)) = [(0, 1)] := by decide +kernel

def loadAt (l : SMap Stage) (bs : List Byte) : State :=
  mAt 6 (.mbstgLoad (gf 0)) (((sg none true).putMem 0x40040000 bs).modDie 0 fun d => { d with stages := l })
def loadRead (l : SMap Stage) (bs : List Byte) : Rd × List Byte := let s := loadAt l bs; Rd.block { s } (serves s) (smGet 0 (serves s).o 1).toNat 256
def loadOk (l : SMap Stage) (bs : List Byte) (free : Option Nat) (inUse : Bool) (taken : Bool) : Bool :=
  let s := loadAt l bs
  let g := stageOf 0 bs
  mChk s (serves s) && (serves s).sup && (smGet 0 (serves s).o 1).toNat % 256 == 0 && ([0, 1].find? fun k => (smFind (s.dieAt 0).stages k).isNone) == free &&
  (s.findStage 0 g.id).isSome == inUse && s.placeTaken g == taken
def badBytes : List Byte := stageBytes.set 2 0
/-- The read brings the descriptor and changes no die. -/
theorem test_stage_load_reads : clean (loadRead [] stageBytes) = true ∧ (loadRead [] stageBytes).2 = stageBytes ∧ (loadRead [] stageBytes).1.s.dies = (loadAt [] stageBytes).dies := by
  decide +kernel
theorem test_stage_loads :
    loadOk [] stageBytes (some 0) false false = true ∧ loadOk [(0, aStage)] stageBytes (some 1) true true = true ∧
    loadOk [(0, { aStage with id := 9 })] stageBytes (some 1) false true = true ∧ loadOk [] badBytes (some 0) false false = true ∧
    loadOk [(0, { aStage with id := 9 }), (1, { aStage with id := 8 })] stageBytes none false true = true ∧
    stageBad (stageOf 0 stageBytes) = false ∧ stageBad (stageOf 0 badBytes) = true := by decide +kernel

/-- MBRLS and MBSEND: no stage; an end that is not there; ends of both kinds with a slot filled, taken or free; a message that is too long. -/
def chanStage (dir : Nat) (size : Nat) (st : ChanState) : Stage :=
  { aStage with desc := smPut aStage.desc 16 (BitVec.ofNat 64 (2 ^ 63 + dir * 2 ^ 62 + 6 * 2 ^ 53 + 2 ^ 36 + size * 2 ^ 28)), chans := [(0, st)] }
def peerStage : Stage := { aStage with id := 6, desc := smPut (smPut aStage.desc 16 (BitVec.ofNat 64 (2 ^ 63 + 2 ^ 62 + 5 * 2 ^ 53 + 2 ^ 36))) 17 0x300000 }
def chanAt (i : Instr) (g : Stage) : State :=
  mAt 6 i (((withT [(1, tensor 0x1000 1 1 0), (2, tensor 0x1000 33 32 0)] (sg (some g) true)).modDie 1 fun d => { d with stages := [(0, peerStage)], ptbase := 0x1000 }))
def cf1 : MFields := { t1 := 1, o1 := 3, mode := 0x1000000 }

theorem test_stage_channels :
    let send := chanAt (.mbsend cf1) (chanStage 0 0 {})
    let recv (st : ChanState) : State := chanAt (.mbrls cf1) (chanStage 1 0 st)
    let ends (s : State) : Option ChanEnd := (s.ownStage 0).map fun p => p.2.2.chanEnd 0
    (mAt 6 (.mbrls cf1) (sg none true)).ownStage 0 = none ∧ mbOk (.mbrls cf1) (sg none true) = true ∧ (ends (chanAt (.mbrls cf1) aStage)).map (·.v) = some false ∧
    (ends (recv {})).map (fun c => (c.v, c.recv, c.win, c.pnode)) = some (true, true, 2, 0) ∧ ((0x77 : Word).toNat % 2 = 1 ∧ 1 ∈ ({ filled := [1] } : ChanState).filled) ∧
    mChk (recv { filled := [1] }) (serves (recv { filled := [1] })) = true ∧ (ends send).map (fun c => (c.v, c.recv, c.slotBytes, c.pstage)) = some (true, false, 4096, 6) ∧
    mChk send (serves send) = true ∧ ((serves send).view 1).imageLen = 4 ∧ (4096 : Nat) < ((serves (chanAt (.mbsend { cf1 with t1 := 2 }) (chanStage 0 0 {}))).view 1).imageLen ∧
    1 ∈ ({ taken := [1] } : ChanState).taken := by decide +kernel

/-- The message of MBSEND finds its end, its image is written, and the stage of the peer takes it. -/
theorem test_stage_sends :
    let s := chanAt (.mbsend cf1) (chanStage 0 0 {})
    let e := serves s
    let r := (e.view 1).all.foldl (fun (x : Rd × List Nat) rc => ((Rd.code x.1 e (e.view 1) rc 2).1, (Rd.code x.1 e (e.view 1) rc 2).2 :: x.2)) ({ s }, [])
    let c := (chanStage 0 0 {}).chanEnd 0
    let bs := leBytes 4 (packBits 32 r.2.reverse)
    let m : TensorMsg := { peer := c.pstage, own := 5, node := s.node, win := c.win, rbase := c.rbase, slotBytes := c.slotBytes, slot := 1, tag := 0x77,
                           len := 4, image := r.1.s.nextId, sup := e.sup }
    let x := r.1.s.tensorEnd 0 m
    let w := r.1.s.tensorPut (1 * Config.coresPerDie) e.sup (c.rbase + 4096) bs
    let a := w.1.tensorAppend 0 m 4
    clean r = true ∧ r.1.s.node = s.node ∧ r.1.s.tenantOf 0 = 0 ∧ x.map (fun p => (p.1, p.2.1, p.2.2.1.id, p.2.2.2)) = some (1, 0, 6, 0) ∧ w.2 = some 0 ∧ a.2 = 0 ∧
    (a.1.ownStage 0).map (fun p => (p.1, p.2.1)) = some (0, 0) := by decide +kernel

/-! ### Commands, whatever their engine -/

/-- An M slot of each shape is queued: a die command, ME commands that cannot alias, MSPC with and without an overlap, a commit-class command;
a nullified entry; an entry that completes. -/
theorem test_commands_queued :
    let spc (t2 : BitVec 6) : MFields := { t1 := 4, t2, t3 := 19, n := 4, imm := 1 }
    let e (t2 : BitVec 6) : Entry := ms.entryOf (.mspc (spc t2))
    let x (t2 : BitVec 6) : Option Nat :=
      let ext (p reg rows : Nat) (sc : Bool) : Ext := extOf 0 reg ((e t2).view p) (((e t2).view p).block ((e t2).org p) rows 1) sc
      meAlias [ext 2 t2.toNat 2 true, ext 3 19 1 false] [ext 1 4 4 true]
    let held := ms.modSt fun y => { y with regions := y.regions.map ({ · with expCycles := 16 }) }
    (held.st.cancelling = false ∧ held.st.mayCommit = false ∧ held.st.retry = false ∧ held.engine = none ∧ held.posted = [] ∧
      (nx (exec (.opj {}) held)).st.blocked = 6 ∧ ((nx (exec (.opj {}) held)).st.regions.getLast?.map (·.cycles)) = some 16) ∧
    ms.engine = none ∧ ms.stores = [] ∧ ms.posted = [] ∧ mCode (.cpy {}) = some (0x40, {}) ∧ mCode (.opj {}) = some (0x60, {}) ∧ mCode (.mspc (spc 18)) = some (7, spc 18) ∧
    (ms.st.cancelling = false ∧ ms.st.mayCommit = true) ∧ ms.st.src.guard 0 = true ∧ ms.st.src.guard 8 = false ∧ x 18 = none ∧ x 4 ≠ none ∧
    runs (exec (.mspc (spc 4)) ms) = true ∧ (nx (exec (.mspc (spc 4)) (handler ms))).st.now.trapCause = 0xFFFF09 ∧
    ((nx (exec (.cpy { ga := 8 }) ms)).st.queues.map fun q => (q.1, q.2.map (·.runs))) = [(2, [false])] ∧ ((mAt 2 (.cpy { ga := 8 }) ms).coreAt 0).inj = [] ∧
    ms.st.regions.getLast?.isSome = true := by decide +kernel

/-- The premises of OwnScratchpadOperands: an FP32 element at the end of the scratchpad, and a write there. -/
theorem test_own_operands :
    let v := viewOf (tensor 0x3FFFFC 1 1 0)
    let s := mAt 1 (.mzero {}) ms
    (serves s).strand = some 0 ∧ coreOf 0 = (serves s).core ∧ (s.coreAt 0).inj = [] ∧ v.span (0, 0) = (8 * ((localBase + 0x3FFFFC : Nat) : Int) + (0 : Nat), fmtBits v.fmt) ∧
    0x3FFFFC + (0 + fmtBits v.fmt + 7) / 8 ≤ 0x400000 ∧ (s.strandAt 0).inWindow 0x3FFFFC 4 = true ∧ engineOf (serves s).instr = some 1 ∧ s.posted = [] ∧
    spanOwn s (v.span (0, 0)) = true ∧ (s.pace = 0 ∧ (serves s).undef = false ∧ quiet s (serves s) = true) ∧ s.plainSpm 0 := by
  refine ⟨?_, ?_, ?_, ?_, ?_, ?_, ?_, ?_, ?_, ?_, ?_, ?_, ?_⟩ <;> decide +kernel

/-! ### Steps -/

/-- A NOP at 0x10000, and the strand there. -/
def ns : State := tk.putMem 0x40010000 (leBytes 4 0xE0000002 ++ leBytes 4 0x9C000000)
def nopBundle : Bundle := { hdr := { stall := 0, wv := 0, wc := 0, we := false, wf := 0, p := 2 }, slots := [(2, .nop)] }

/-- The word of a place that translates, not cached and cached. -/
theorem test_fetch :
    let p := ns.globalPlace 0 true .ex 0 0x10000
    isLocal 0x10000 = false ∧ (ns.strandAt 0).now.sup = true ∧ p = (p.1, .ok (.mem 0x40010000)) ∧ (p.1.coreAt 0).inj = [] ∧ (p.1.coreAt 0).imem = [] ∧
    p.1.memNat 0x40010000 4 = 0xE0000002 ∧ p.1.plainMem := by
  refine ⟨?_, ?_, ?_, ?_, ?_, ?_, ?_, ?_, ?_, ?_, ?_, ?_, ?_⟩ <;> decide +kernel

theorem test_bundle_decodes : slotsOf 2 = [(2, 4, 32)] ∧ [0x9C000000].length = 32 / 32 ∧ decodeTableWord 32 0x9C000000 = some .nop ∧ privileged .nop = false ∧
    privileged .halt = true ∧ composeFault [(2, .nop)] = none := by decide +kernel

/-- The bundle is read and is ready. -/
theorem test_bundle_ready :
    let x := ns.strandAt 0
    x.live = true ∧ x.fault = none ∧ x.flight = none ∧ x.stall = 0 ∧ x.fetching = false ∧ ns.wdogDue 0 = false ∧ x.pc.toNat = 0x10000 ∧ bundleLen 2 / 4 = 2 ∧
    (match decodeHeader 0xE0000002 with
      | .ok h => h == nopBundle.hdr
      | .error _ => false) = true ∧
    (match (ns.fetchWords 0 0x10000 2).2 with
      | .ok l => l == [0xE0000002, 0x9C000000]
      | .error _ => false) = true ∧
    (match decodeBundle true nopBundle.hdr [0xE0000002, 0x9C000000] with
      | .ok b => b == nopBundle
      | .error _ => false) = true ∧
    (match x.lookBundle nopBundle with
      | .ready b => b == nopBundle
      | _ => false) = true := by decide +kernel

/-- The one enabled step is the core's, and it runs the NOP: the pc is past the bundle. -/
theorem test_step_issues :
    let l := ({ ns with ev := { n := 0 } } : State).look 0
    ns.urgent = none ∧ ns.inbox = [] ∧ ns.enabled = [.event .bundleIssue { n := 0 }] ∧ (ns.strandAt 0).late = [] ∧ (∀ m, m < 4 → m ≠ 0 → ns.strandAt (0 * 4 + m) = {}) ∧
    (match l.2 with
      | .ready b => b == nopBundle
      | _ => false) = true ∧ l.1.strands = ns.strands ∧ ((nx (step ns)).strandAt 0).pc = 0x10008 ∧ ((nx (step ns)).strandAt 0).bundles = 1 := by decide +kernel

/-- Slots that are left, strands without a bundle, an engine's turn, an event that has arrived, one that waited, nothing at all, and two
steps. -/
theorem test_step_kinds :
    let f : Flight := { left := [(2, .nop)], latch := (ns.strandAt 0).now, stall := 0, btWait := [], base := 0 }
    let s := ns.setStrand 0 { ns.st with flight := some f }
    let t := (mAt 1 (.mzero {}) tk).setStrand 0 { (mAt 1 (.mzero {}) tk).st with halted := true }
    let two := ns.setStrand 4 { live := true, task := 1, pc := 0x10000 }
    let q : State := { tk with strands := [], tasks := [], cores := [(0, { apq := [{ instr := .ctpl {} }] })] }
    let r : State := { State.reset with later := [(.hotReset, { n := 0 })] }
    (s.strandAt 0).flight = some f ∧ f.left = (2, .nop) :: [] ∧ (s.strandAt 0).blocked = 0 ∧
    (s.setStrand 0 { s.strandAt 0 with blocked := 7 }).wdogDue 0 = false ∧ (ns.strandAt 0).again = false ∧
    (q.urgent = none ∧ q.inbox = [] ∧ (match q.enabled with
      | [.turn e] => e.instr == .ctpl {}
      | _ => false) = true) ∧ (r.urgent = none ∧ r.enabled = [.later 0] ∧ r.later[0]? = some (.hotReset, { n := 0 })) ∧ (∀ k ∈ [1, 2, 3], (ns.strandAt (0 * 4 + k)).flight = none) ∧
    ({ ns with inbox := [(.hotReset, {})] } : State).inbox = (.hotReset, {}) :: [] ∧ Instr.hotReset ≠ .bundleIssue ∧
    (State.reset.urgent = none ∧ two.urgent = none ∧ two.inbox = [] ∧ State.reset.inbox = [] ∧ State.reset.enabled = []) ∧ 2 ≤ two.enabled.length ∧ t.st.halted = true := by decide +kernel

/-- Reset memory has its form, and writes keep it; a copy's channel is active only while its entry is served. -/
theorem test_machine_premises : Memory.wf State.reset.mem = true ∧ State.reset.memSyn = [] ∧ State.reset.poison = [] ∧ State.reset.lost = [] ∧ isNext (step State.reset) State.reset = true ∧
    homeOf (0x00004003B0ECA280 % 2 ^ 46) = (4, 9) ∧ stackOf 0x1A80 = 2 ∧ parityStackOf 0x1A80 = 4 := by decide +kernel

/-! ### Events of cores, strands and tasks -/

/-- No slot and no check of strand `n` stands before a region (R246). -/
def clear (s : State) (n seq rid : Nat) : Bool :=
  ((s.strandAt n).flight.bind (·.before seq)).isNone && ((s.strandAt n).regions.takeWhile (·.rid != rid)).all fun r => r.expCycles == 0 || r.checked

theorem clear_of {s : State} {n seq rid : Nat} (h : clear s n seq rid = true) : s.clearBefore n seq rid := by
  simp only [clear, Bool.and_eq_true, Option.isNone_iff_eq_none, List.all_eq_true, Bool.or_eq_true, beq_iff_eq] at h
  exact h

/-- A plain look: the machine after it has the same strands, and the look is the one given. -/
def looks (s : State) (ok : Look → Bool) : Bool := (s.look (s.ev.n * 4)).1.strands == s.strands && ok (s.look (s.ev.n * 4)).2
def oneStrand (s : State) : Bool := [1, 2, 3].all fun j => s.strandAt (s.ev.n * 4 + j) == {}

/-- A bundle that issues, one whose source is on the scoreboard, one whose header is none, and the pick of the higher class. -/
def waitingS : State := (tk.putMem 0x40010000 (leBytes 4 0xE0000002 ++ leBytes 4 0x04518700)).modSt fun x => { x with board := [{ dst := .s 6, val := none, seq := 0, rid := 1 }] }
def badS : State := handler (tk.putMem 0x40010000 (leBytes 4 0xFFFFFFFF))
theorem test_core_cycles :
    oneStrand ns = true ∧ looks ns (fun l => match l with
      | .ready b => b == nopBundle
      | _ => false) = true ∧ (ns.strandAt 0).late = [] ∧
    oneStrand waitingS = true ∧ looks waitingS (fun l => match l with
      | .waiting => true
      | _ => false) = true ∧ (waitingS.strandAt 0).cancelling = false ∧ ((nx (exec .bundleIssue waitingS)).strandAt 0).wdog = 1 ∧
    oneStrand badS = true ∧ looks badS (fun l => match l with
      | .trap _ va => va == 0x10000
      | _ => false) = true ∧
    ((badS.strandAt 0).idle = true ∧ (badS.strandAt 0).late = [] ∧ (badS.strandAt 0).now.trapped = false ∧ (badS.coreAt 0).tvec ≠ 0 ∧ clear badS 0 (badS.strandAt 0).seq (badS.strandAt 0).curRid = true) ∧
    ((nx (exec .bundleIssue badS)).strandAt 0).pc = 0x8000 ∧ (tk.setStrand 1 { live := true, now := { cls := 2 } }).pick 0 [0, 1] = some 1 := by decide +kernel

/-- The watchdog at its limit; a reported trap. -/
theorem test_watchdog :
    let s := (handler tk).modCore 0 ({ · with wdogLimit := 5 })
    let s := s.modSt ({ · with wdog := 5 })
    let p : Pending := { cause := 6, info := 9, aux := 8, seq := 0, rid := 1 }
    let t := s.modSt ({ · with fault := some p })
    (s.strandAt 0).idle = true ∧ (s.strandAt 0).late = [] ∧ (s.strandAt 0).now.trapped = false ∧ (s.coreAt (coreOf 0)).tvec ≠ 0 ∧ (s.strandAt 0).live = true ∧ (s.strandAt 0).fault = none ∧
    clear s 0 (s.strandAt 0).seq (s.strandAt 0).curRid = true ∧ (s.coreAt (coreOf 0)).wdogLimit ≠ 0 ∧ (s.coreAt (coreOf 0)).wdogLimit ≤ (s.strandAt 0).wdog ∧ ((nx (exec .watchdog s)).strandAt 0).now.trapAux = 5 ∧
    (t.strandAt 0).fault = some p ∧ p.replay = 0 ∧ (t.strandAt 0).flight = none ∧ clear t 0 0 1 = true ∧ ((nx (exec .trapEntry t)).strandAt 0).now.trapInfo = 9 := by decide +kernel

/-- A replay for the second time, and the third error of a region. -/
def replayS (k : Nat) : State :=
  let rid := ((tk.strandAt 0).regions.map (·.rid)).headD 0
  tk.modSt fun x => { x with fault := some { cause := 12, info := 7, aux := 0, seq := 0, rid, replay := 3 }, regions := x.regions.map ({ · with replays := k }) }
theorem test_replays :
    let rid := ((tk.strandAt 0).regions.map (·.rid)).headD 0
    (replayS 1).ev.n = 0 ∧ ((replayS 1).strandAt 0).flight = none ∧ clear (replayS 1) 0 0 rid = true ∧ ((replayS 1).strandAt 0).idle = true ∧ ((replayS 1).strandAt 0).late = [] ∧ (((replayS 1).strandAt 0).region rid).replays = 1 ∧
    (((replayS 2).strandAt 0).region rid).replays = 2 ∧ (∀ q ∈ (replayS 2).strands, q.2.sync = []) ∧ smFind (replayS 2).tasks 1 = some {} ∧
    ((nx (exec .regionReplay (replayS 2))).taskAt 1).status = 1 ∧ ((nx (exec .regionReplay (replayS 1))).strandAt 0).live = true := by decide +kernel

/-- A region that agrees, one that does not, and one that does not after two replays. -/
def checkS (cycles replays : Nat) : State :=
  (handler tk).modSt fun x => { x with regions := x.regions.map fun r => { r with id := 4, expCycles := 16, cycles, replays, closed := true, expSig := ~~~r.sig } }
def checkR (cycles replays : Nat) : Region := (((checkS cycles replays).strandAt 0).dueCheck).getD {}
theorem test_region_checks :
    let rid := ((tk.strandAt 0).regions.map (·.rid)).headD 0
    ((checkS 16 0).strandAt 0).dueCheck = some (checkR 16 0) ∧ ((checkR 16 0).cycles = (checkR 16 0).expCycles ∧ ~~~(checkR 16 0).sig = (checkR 16 0).expSig) ∧
    ((checkS 15 1).strandAt 0).dueCheck = some (checkR 15 1) ∧ (checkR 15 1).cycles ≠ (checkR 15 1).expCycles ∧ (checkR 15 1).sdcReplay = false ∧ (checkR 15 1).replays = 1 ∧
    ((checkS 15 1).strandAt 0).fault = none ∧ ((checkS 15 1).strandAt 0).region (checkR 15 1).rid = checkR 15 1 ∧ clear (checkS 15 1) 0 (checkR 15 1).openSeq (checkR 15 1).rid = true ∧ (checkR 15 2).replays = 2 ∧
    ((checkS 15 2).strandAt 0).dueCheck = some (checkR 15 2) ∧ (((checkS 15 1).strandAt 0).idle = true ∧ ((checkS 15 1).coreAt 0).tvec ≠ 0) ∧
    ((nx (exec .regionCheck (checkS 15 2))).strandAt 0).now.trapInfo = 15 ∧ rid = (checkR 15 2).rid := by decide +kernel

/-- An acknowledgement from another package, and the last bytes of a scratchpad of this one. -/
theorem test_posted :
    let p : Posted := { id := 0, core := 0, strand := 0, window := some 2, va := 0, pa := 2 ^ 46 + 0x3FFE00000000, bytes := [1], mask := [0xFF] }
    let q : Posted := { p with pa := 0x3FFE00000000 + 0x400000 + 0x3FFFFF, bytes := [0xAB], mask := [0xF0] }
    let s : State := { tk with posted := [p] }
    let t : State := { tk with posted := [q] }
    s.posted.find? (fun x => x.id == s.ev.n) = some p ∧ p.pa / 2 ^ 46 ≠ s.node ∧ t.posted.find? (fun x => x.id == t.ev.n) = some q ∧ q.pa / 2 ^ 46 = t.node ∧
    (q.pa % 2 ^ 46 - 0x3FFE00000000) / 0x400000 = 1 ∧ 0x3FFFFF + q.bytes.length ≤ 0x400000 ∧ q.bytes.length = q.mask.length ∧ t.tenantOf 0 = t.tenantOf 1 ∧
    (nx (exec .remoteWriteAck t)).spmBytes 1 0x3FFFFF 1 = [0xA0] ∧ t.plainSpm 1 := by
  refine ⟨?_, ?_, ?_, ?_, ?_, ?_, ?_, ?_, ?_, ?_, ?_, ?_⟩ <;> decide +kernel

/-- A launch record of one gang of two cores in queue 3. -/
def launchBytes : List Byte := leBytes 64 (0x11000 + 2 * 2 ^ 64 + 2 * 2 ^ 72 + 1 * 2 ^ 88 + 3 * 2 ^ 136 + 8 * 2 ^ 176 + 0x55 * 2 ^ 384 + 0x66 * 2 ^ 448)
def lqS : State := { tk.putMem 0x40070000 launchBytes with lqs := [(3, { state := 1, base := 0x70000, tail := 1, cbase := 0x71000 })], strands := [] }
theorem test_launch :
    (match lqS.launchPick.2 with
      | some (q, a) => q == 3 && a.gang == [0, 1] && a.fits lqS.launchPick.1 && (launchRec a.rec1).cls == 2
      | none => false) = true ∧ [0, 1].Nodup ∧
    ((nx (exec .launchDispatch lqS)).strandAt 4).now.getS 1 = 0x55 ∧ ((nx (exec .launchDispatch lqS)).lqAt 3).head = 1 ∧ ((nx (exec .launchDispatch lqS)).taskAt 2).user = 0x66 := by
  decide +kernel

/-- A head that has been read: a second look at any queue changes nothing, and the head fits. -/
theorem test_launch_classes :
    let u := (lqS.launchHead 3).1
    (List.range 8).all (fun k => (u.launchHead k).1 == u) = true ∧ (match u.launchHead 3 with
      | (t, some b) => t == u && b.fits u
      | _ => false) = true ∧ (match u.launchPick with
      | (_, some (q, a)) => q == 3 && a.gang == [0, 1] && (launchRec a.rec1).cls == 2
      | _ => false) = true := by decide +kernel

/-- A table that picks nothing, a kind without an entry address, and a stage task that starts. -/
def stageS (rows : SMap Nat) (entry : Nat) : State :=
  (ss.setStrand 0 {}).modDie 0 fun d => { d with stages := [(0, { aStage with rows, fq := [{ tag := 9 }], desc := smPut aStage.desc 2 (BitVec.ofNat 64 entry) })] }
def stageG (rows : SMap Nat) (entry : Nat) : Stage := (((stageS rows entry).dieAt 0).stages.map (·.2)).headD {}
theorem test_stage_dispatch :
    let row : SMap Nat := [(15, 0xA0000080)]
    let ok (rows : SMap Nat) (entry : Nat) : Bool := smFind ((stageS rows entry).dieAt 0).stages 0 == some (stageG rows entry) && (stageS rows entry).stageOpen (stageG rows entry)
    let pick (rows : SMap Nat) (entry : Nat) : Option (Nat × Arrival) := ((stageS rows entry).setStage 0 0 (stageG rows entry).purge).stagePick 0 (stageG rows entry).purge (List.range 16)
    let g := (stageG row 0x11000).purge
    let h := (g.dispatch 0 { tag := 9 }).1
    ok [] 0x11000 = true ∧ pick [] 0x11000 = none ∧ ok row 0 = true ∧ pick row 0 = some (0, { tag := 9 }) ∧ ok row 0x11000 = true ∧ pick row 0x11000 = some (0, { tag := 9 }) ∧
    g.tag 9 = none ∧ h.entry 0 = 0x11000 ∧ h.word 0x28 = 0 ∧ h.cores.Nodup ∧ h.cores = [0] ∧ (((stageG row 0).purge).dispatch 0 { tag := 9 }).1.entry 0 = 0 ∧
    ((nx (exec .stageDispatch (stageS row 0x11000))).strandAt 0).pc = 0x11000 := by decide +kernel

/-- Retirement of a system task, a launched one and a stage's. -/
def retireS (k : Task) : State := { lqS with tasks := [(0, k)], dies := (stageS [] 0).dies }
theorem test_retire :
    let q : Task := { origin := .queue 3, user := 0x66, gang := [0] }
    let g : Task := { origin := .stage 0 0, tag := 9, kind := 0, birth := 0 }
    let pl (s : State) (va : Nat) : Bool := match (s.place 0 true .wr 1 (BitVec.ofNat 64 va)).2 with
      | .ok p => p == .mem (0x40000000 + va)
      | .error _ => false
    let dp (s : State) (va : Nat) : Bool := match (s.devPlace (some 3) 0 .wr 1 va).2 with
      | .ok p => p == .mem (0x40000000 + va)
      | .error _ => false
    smFind (retireS {}).tasks 0 = some {} ∧ (retireS {}).canRetire 0 {} = true ∧ smFind (retireS q).tasks 0 = some q ∧ (retireS q).canRetire 0 q = true ∧
    (retireS q).tenantCore ((retireS q).lqAt 3).tenant = some 0 ∧ (retireS q).stores = [] ∧ (retireS q).parity = [] ∧ smFind (retireS q).devAcc (cplKey 3) = none ∧ dp (retireS q) 0x71000 = true ∧ (retireS g).canRetire 0 g = true ∧
    (stageG [] 0).state = 1 ∧ smFind (retireS g).devAcc (stageKey 0 0) = none ∧ smFind ((retireS g).dieAt 0).stages 0 = some (stageG [] 0) ∧ pl (retireS g) ((stageG [] 0).word 0x60) = true ∧
    (nx (exec .taskRetire (retireS q))).memNat 0x40071000 8 = 0x66 := by decide +kernel
/-- A stage that is ready is dispatched at once. -/
theorem test_stage_urgent : (match (stageS [(15, 0xA0000080)] 0x11000).urgent with
      | some (.event i e) => i == .stageDispatch && e.n == 0 && e.k == 0
      | _ => false) = true := by decide +kernel

theorem test_retire_memory : ((retireS {}).place 0 true .wr 1 0x71000).1.plainMem ∧ ((retireS { origin := .queue 3, gang := [0] }).devPlace (some 3) 0 .wr 1 0x71000).1.plainMem := by
  refine ⟨⟨?_, ?_, ?_, ?_, ?_, ?_, ?_⟩, ⟨?_, ?_, ?_, ?_, ?_, ?_, ?_⟩⟩ <;> decide +kernel

/-! ### Events of the device registers -/

/-- A queue's controls at their boundary values: TAIL 15 and 16 of 16, CTAIL up to CHEAD and past it, and each state. -/
theorem test_queue_control :
    let s (l : LaunchQueue) (v : Nat) : State := { tk with lqs := [(2, l)], ev := { k := 2, v := BitVec.ofNat 64 v, agent := .host 1 } }
    let on : LaunchQueue := { state := 1, chead := 5, ctail := 3 }
    (tk.stores = [] ∧ tk.parity = [] ∧ 15 < 2 ^ on.size ∧ 2 ^ on.size ≤ 16) ∧ (nx (exec .lqTail (s on 15))).lqAt 2 = { on with tail := 15 } ∧
    isNext (exec .lqTail (s on 16)) ((s on 16).countRefused 1) = true ∧ ((5 + 16 - 3) % 16 ≤ (5 + 16 - 3) % 16 ∧ (5 + 16 - 3) % 16 < (6 + 16 - 3) % 16) ∧
    (nx (exec .lqCtail (s on 5))).lqAt 2 = { on with ctail := 5 } ∧ isNext (exec .lqCtail (s on 6)) ((s on 6).countRefused 1) = true ∧
    (nx (exec .lqCtlEnable (s {} 0))).lqAt 2 = { state := 1 } ∧ isNext (exec .lqCtlEnable (s on 0)) ((s on 0).countRefused 1) = true ∧
    (nx (exec .lqCtlDestroy { s on 0 with ev := { k := 2, status := 1 } })).lqAt 2 = { on with state := 2, destroy := true } ∧
    (nx (exec .lqCtlDestroy (s on 0))).lqAt 2 = { on with state := 0 } ∧
    isNext (exec .lqCtlDestroy (s { on with state := 2 } 0)) ((s { on with state := 2 } 0).countRefused 1) = true ∧ (nx (exec .lqCtlCancel (s { on with state := 2 } 0))).lqAt 2 = { on with state := 0 } ∧
    65535 = (({ tk with fns := [(1, { refused := 65535 })] } : State).fnAt 1).refused := by decide +kernel

/-- A running task of a queue that is cancelled, and one that is PREEMPTED. -/
theorem test_queue_cancel :
    let k : Task := { origin := .queue 2, gang := [0] }
    let s : State := { tk with lqs := [(2, { state := 2 })], tasks := [(1, k), (7, { k with state := .preempted })], ev := { k := 2 } }
    smFind s.tasks 1 = some k ∧ k.state = .running ∧ (s.strandAt 0).live = true ∧ (s.strandAt 0).task = 1 ∧ (∀ p ∈ s.tasks, p.1 ≠ 7 ∨ p.2.state = .preempted) ∧
    (nx (exec .lqCtlCancel s)).taskAt 1 = { k with status := 2 } ∧ ((nx (exec .lqCtlCancel s)).strandAt 0).cancelling = true := by decide +kernel

/-- The device register at each offset, at the ends of its range. -/
theorem test_register_map :
    ([(0x7000, .lq 7 0), (0x7020, .lq 7 0x20), (0x7008, .lq 7 8), (0x7040, .lq 7 0x40), (0x7038, .lq 7 0x38), (0x8000, .scrub), (0x81E0, .hand 7 0), (0x81E8, .hand 7 8),
      (0x17008, .tc 7 8), (0x17050, .tc 7 0x50), (0x17068, .tc 7 0x68), (0x370A0, .mon 7 0xA0), (0x370C0, .mon 7 (0xA8 + 8 * 3)), (0x11C000, .fab 7 0),
      (0x11C3D8, .fab 7 (0x200 + 0x40 * 7 + 8 * 3)), (0x11CFF8, .fab 7 (0x800 + 8 * 255)), (0x11FFF8, .fab 7 (0x2000 + 8 * 1023))] : List (Nat × DevReg)).all
      (fun p => devReg p.1 == some p.2) = true ∧ ctlIgnored 0 (BitVec.ofNat 64 (383 * 2 ^ 32)) = false ∧ (4 ≤ (16 : Word).toNat ∧ (16 : Word).toNat ≤ 16 ∧ 0x1000 % 4096 = 0) ∧
    ({} : LaunchQueue).state = 0 ∧ hostRegBase + 0x100 + 8 * 63 = 0x400002F8 ∧ mailBase + 0x100 + 8 * 31 = 0x400011F8 ∧ (tk.fnAt 63).enabled = false := by decide +kernel

/-- One write of each shape. -/
theorem test_register_writes :
    let w (n v : Nat) : State := nx (exec .registerWrite { tk with ev := { n, v := BitVec.ofNat 64 v, agent := .host 0 } })
    ((w 0x7000 0x1000).lqAt 7).base = 0x1000 ∧ ((w 0x7008 17).lqAt 7).size = 4 ∧ ((w 0x17008 0x1FFF).dieAt 7).tcArea = 0x1000 ∧ ((w 0x11CFF8 5).dieAt 7).token = [(255, 5)] ∧
    ((w 0x400011F8 6).fnAt 0).mbArg = [(31, 6)] ∧ (smGet 0xFFFF ((w 0x11FFF0 0).dieAt 7).share 4089) = 0 ∧ (smGet 0xFFFF ((w 0x11FFF0 0).dieAt 7).share 4090) = 0xFFFF := by decide +kernel

/-- R512: the granule of the fault records stays tenant 0's. -/
theorem test_owner_table :
    let s : State := { tk with ev := { k := 0x47FFF8, v := 0x0707070707070707 } }
    let u : State := nx (exec .ownerTableWrite s)
    smGet 0 u.owner 0x47FFFE = 7 ∧ u.ownerOld.length = 7 ∧ u.ownerOf 0x10FFFFC00000 = 0 ∧ ({ u with ev := { k := 6, status := 1 } } : State).ev.status = 1 ∧
    (nx (exec .ownerTableWrite { u with ev := { k := 6, status := 1 } })).ownerOf 0x10FFFFC00000 = 7 ∧ smGet 0 (nx (exec .ownerTableWrite s)).owner 0x47FFFF = 0 ∧
    (((nx (exec .corectlResume { (tk.modSt ({ · with halted := true })) with ev := { k := 0, v := 1 } })).strandAt 0).halted = false) := by decide +kernel

/-- The reads that clear, by the host, of the last port. -/
theorem test_clearing_reads :
    let s : State := { (tk.modDie 0 fun d => { d with rasLost := 9, badFlit := 2, tokFail := 3 }) with ev := { agent := .host 0, n := 0, k := 63 } }
    s.ev.agent = .host 0 ∧ 63 < 64 ∧ (nx (exec .rasLost s)).out = [.hostData 0 (leBytes 8 9)] ∧ ((nx (exec .rasLost s)).dieAt 0).rasLost = 0 ∧
    (nx (exec .fabcnt s)).out = [.hostData 0 (leBytes 8 (2 * 2 ^ 32 + 3))] := by decide +kernel

/-! ### Task control -/

/-- Task 1 with its strand, a save area in HBM, and the command's value; in a trap and halted; another task of tenant 5 that is PREEMPTED. -/
def tcS (id tenant : Nat) : State :=
  { (tk.modDie 0 fun d => { d with tcArea := 0x40080000 }) with tasks := [(1, { gang := [0] }), (2, { state := .preempted, gang := [0], tenant := 5 })], ev := { v := BitVec.ofNat 64 id, tenant } }
def tcHalt : State := (tcS 1 0).modSt fun x => { x with halted := true, now := { x.now with trapped := true, trapCause := 0xFFFF06 } }
theorem test_task_control :
    let busy : State := (tcS 1 0).modDie 0 fun d => { d with tcJob := some (2, 1) }
    (busy.dieAt 0).tcJob.isSome = true ∧ busy.ev.status ≠ 1 ∧ ((tcS 1 0).dieAt 0).tcJob = none ∧ smFind (tcS 9 0).tasks 9 = none ∧ smFind (tcS 1 0).tasks 1 = some { gang := [0] } ∧
    (tcS 1 3).ev.tenant ≠ 0 ∧ (tcS 1 3).ev.tenant ≠ 0 ∧ (0 : Nat) ≠ 3 ∧ ((tcS 2 0).taskAt 2).state = .preempted ∧ ((tcS 1 0).taskAt 1).state = .running ∧
    (tcS 1 0).tcReason 0 1 1 0 = 0 ∧ (tcS 1 0).strandsOf 1 = [0] ∧ ((tcS 1 0).strandAt 0).late = [] ∧ ((tcS 1 0).strandAt 0).sync = [] ∧
    (tcS 1 0).areaHeld 0x40080000 4096 = [] ∧ (tcS 2 0).tcReason 0 3 2 0 = 0 ∧ tcHalt.tcReason 0 4 1 0 = 0 ∧ tcHalt.haltedOf 1 = some 0 ∧ (∀ p ∈ tcHalt.strands, p.2.sync = []) ∧
    (nx (exec .fault tcHalt)).taskAt 1 = { gang := [0], status := 1, cause := 6 } ∧ ((nx (exec .discard (tcS 2 0))).taskAt 2).status = 2 := by decide +kernel
theorem test_task_control_memory : (tcS 1 0).plainMem := by
  refine ⟨?_, ?_, ?_, ?_, ?_, ?_, ?_⟩ <;> decide +kernel

/-- RESUME of a task whose strand's record stands in the save area: entry 0x10000, implicit, the whole scratchpad, core 0. -/
def savedTask : Task := { state := .preempted, gang := [0], saved := [0], sup := true }
def resumeS : State :=
  let r := leBytes 16 (0x10000 + 2 ^ 96)
  { ((tk.putMem 0x40080000 r).putMem 0x40080250 (leBytes 16 (1024 * 2 ^ 16 + 1 * 2 ^ 64))).modDie 0 fun d => { d with tcArea := 0x40080000 } with
    strands := [], tasks := [(1, savedTask)], ev := { v := 1 } }
theorem test_resume_read : (match ((resumeS.modDie 0 fun d => { d with tcStatus := 1, tcJob := some (2, 1) }).tcRead 0 1 savedTask [0]).2 with
    | some l => l.map (fun p => (p.1, p.2.pc)) == [(0, 0x10000)]
    | none => false) = true := by decide +kernel
theorem test_resume_premises : (resumeS.freeSlot 0).isSome = true ∧ resumeS.tcReason 0 2 1 0 = 0 ∧ resumeS.areaHeld 0x40080000 4096 = [] ∧ smFind resumeS.tasks 1 = some savedTask := by decide +kernel

/-- A reassembly entry that is saved, and one that comes back. -/
theorem test_reassembly :
    let r : Reasm := { bitmap := 5, addr := 0x1000, tenant := 4, snode := 3, sdie := 2, msgid := 9, flast := 7, chan := 1, tc := 2, op := 1 }
    let s : State := { (tk.modDie 0 fun d => { d with tcArea := 0x40080000, reasm := [r] }) with ev := { v := 4 } }
    let t : State := { ((tk.putMem 0x40080000 r.record).modDie 0 fun d => { d with tcArea := 0x40080000, saved := [(4, 1)] }) with ev := { v := 4 } }
    (s.dieAt 0).tcJob = none ∧ s.ev.tenant = 0 ∧ (4 < 256 ∧ 0x40080000 % 4096 = 0) ∧ s.areaOk 0 0x40080000 65536 = true ∧ [r].length = smGet 0 (t.dieAt 0).saved 4 ∧
    (t.dieAt 0).reasm.length + [r].length ≤ 1024 ∧ (∀ x ∈ [r], reasmOf x.record = x) ∧ t.memBytes 0x40080000 64 = [r].flatMap Reasm.record ∧
    ((nx (exec .gwrestore t)).dieAt 0).reasm = [r] ∧ ((nx (exec .gwsave s)).dieAt 0).saved = [(4, 1)] := by decide +kernel

/-- A handover: no GO, a refused one, and one that is made; R522's example of DTCMD 0x10C. -/
theorem test_handover :
    let s : State := { tk.modDie 3 fun d => { d with dtptb := 0x5000, dtent := 0x10000 } with ev := { k := 3, v := 0x10C } }
    let r : State := { tk with ev := { k := 0, v := 0x100 } }
    ({ tk with ev := { v := 0xC } } : State).ev.v.getLsbD 8 = false ∧ r.ev.v.getLsbD 8 = true ∧ r.handoverReason 0 0 ≠ 0 ∧ s.ev.v.getLsbD 8 = true ∧ s.handoverReason 3 12 = 0 ∧
    ((nx (exec .dtcmdGo s)).devRead (.hand 3 24)).2 = 0x20C ∧ ((nx (exec .dtcmdGo s)).strandAt (3 * 192)).pc = 0x10000 ∧ (r.strandAt 0).live = true ∧ dieOf (coreOf 0) = 0 := by decide +kernel

/-! ### An image that the mask ROM accepts (R446) -/

/-- A key, the digest of the sixteen bytes 1 to 16, and a signature under that key, all computed outside the model. -/
def fwQ : Nat × Nat := (0xF253086A93D1FC66B8AE5146C1ABAF3E685E5ACC766A40786D0DF45666B4BEE9C51CE15C68BF24FB259F1C564E76AA03, 0xAD6EF752EE3B4754DD1ED5E7F03360F5C5E251E7311824F96542CFBCA3CD0272D039DD454D03D7E048787F215C453D3A)
def fwBody : Nat := 0x9B5CD6642EEDB146C00B494BF709C53D514E389B7EBC883D8F37EF6E0119B83031519D45129998D110D01370C237F0EA
def fwR : Nat := 0xDE08900B9E7E50EE82D1B54812006AC44AF4FDA73493694236A9BCE894B4E3ECF5B916947637A929422F808943248436
def fwS : Nat := 0x88A3E05295571DC3A728847F9B0AB733471813D2D4111CB259300B6461B8B1D430CE993D0DFAEA0DA1EC4D6BB53DA640
def fwHead : List Byte :=
  leBytes 4 0x464D5547 ++ leBytes 2 1 ++ leBytes 2 0 ++ leBytes 4 3 ++ leBytes 4 0 ++ leBytes 8 16 ++ leBytes 4 8 ++ leBytes 4 8 ++
    ((leBytes 48 fwQ.1).reverse ++ (leBytes 48 fwQ.2).reverse ++ (leBytes 48 fwBody).reverse ++ leBytes 8 (2 ^ 27))
def fwMap : SMap Byte :=
  (fwHead.zipIdx.map fun p => (p.2, p.1)).filter (fun p => p.2 != 0) ++ (((leBytes 48 fwR).reverse ++ (leBytes 48 fwS).reverse).zipIdx.map fun p => (384 + p.2, p.1)) ++
    (List.range 16).map fun i => (512 + i, BitVec.ofNat 8 (1 + i))
def fwBoot : Boot := { state := 1, stage := 1, fwLen := 528, fw := fwMap, counter := 3, keyHash := 0x63F49B1502E61398E13827EBF321D869BCCC2C8C7CF9388784B4611457FB2F9D36DF3A230C055FBD1D84DF7007A44242 }

/-- Some doublings and additions of a multiplication. -/
def pm : Nat → Nat × CurvePoint × CurvePoint → Nat × CurvePoint × CurvePoint
  | 0, t => t
  | m + 1, t => pm m (t.1 / 2, pointAdd t.2.1 t.2.1, if t.1 % 2 = 1 then pointAdd t.2.2 t.2.1 else t.2.2)
theorem pm_mul (m : Nat) : ∀ (n f : Nat) (t u : Nat × CurvePoint × CurvePoint), n = m + f → pm m t = u → pointMul n t.1 t.2.1 t.2.2 = pointMul f u.1 u.2.1 u.2.2 := by
  induction m with
  | zero => rintro n f t u rfl rfl; simp [pm]
  | succ m ih =>
    rintro n f t u rfl rfl
    rw [show m + 1 + f = (m + f) + 1 by omega]
    exact ih _ f (t.1 / 2, pointAdd t.2.1 t.2.1, if t.1 % 2 = 1 then pointAdd t.2.2 t.2.1 else t.2.2) _ rfl rfl
theorem pm_last (m : Nat) (t : Nat × CurvePoint × CurvePoint) (p : CurvePoint) (h : (pm m t).2.2 = p) : pointMul m t.1 t.2.1 t.2.2 = p := by
  rw [pm_mul m m 0 t _ rfl rfl]; exact h
theorem pm_a0 : pm 96 (0x62ECEDC6A9480A02A1931F48384E55B19A303327E6340133FA5609AA5026177FADEDCA452C004B95E1892C84174D3DF2, some (0xAA87CA22BE8B05378EB1C71EF320AD746E1D3B628BA79B9859F741E082542A385502F25DBF55296C3A545E3872760AB7, 0x3617DE4A96262C6F5D9E98BF9292DC29F8F41DBD289A147CE9DA3113B5F0B8C00A60B1CE1D7E819D7A431D7C90EA0E5F), none) = (0x62ECEDC6A9480A02A1931F48384E55B19A303327E6340133FA5609AA5026177FADEDCA45, some (0xF532389A060CBD1BD6E98B0D37CA7ABC4360390918141B1A4B58808B3F8686A92C3E0C91558717DB39C1B328D8EE21C9, 0xB9D2852CC3B38E696F04CAA2DE3A82BABD22CFB2A2124163BC40CE5ABE64360331EA31B1085A4E9A7A7E183923D86ECD), some (0xABE4170349402C4156F57D816C90449850A39C781D9E6FE98CB312F0C0C06CA369C4FE586823EB0318124285B176C904, 0x88140387A0A2395369A3F39EF6C5E45E420E84E37233C3B79CD41A0FED84954E34BD16FBFCBE904B7FAED4EA2AE0740E)) := by decide +kernel
theorem pm_a1 : pm 96 (0x62ECEDC6A9480A02A1931F48384E55B19A303327E6340133FA5609AA5026177FADEDCA45, some (0xF532389A060CBD1BD6E98B0D37CA7ABC4360390918141B1A4B58808B3F8686A92C3E0C91558717DB39C1B328D8EE21C9, 0xB9D2852CC3B38E696F04CAA2DE3A82BABD22CFB2A2124163BC40CE5ABE64360331EA31B1085A4E9A7A7E183923D86ECD), some (0xABE4170349402C4156F57D816C90449850A39C781D9E6FE98CB312F0C0C06CA369C4FE586823EB0318124285B176C904, 0x88140387A0A2395369A3F39EF6C5E45E420E84E37233C3B79CD41A0FED84954E34BD16FBFCBE904B7FAED4EA2AE0740E)) = (0x62ECEDC6A9480A02A1931F48384E55B19A303327E6340133, some (0xC19E0B4C800119C440F7F9E706421279B42A31AF8A3E297DDB2987894D10DDEABA065458A4F52D78A628B09AAA03BD53, 0x16F3FDBF0356B301E5A0191D1F5B77F6577A30EAE3567AF9C1C7CAD135F6EBF2AF68AA6DE639D858822D0FC5E6C88C41), some (0xF51125EF29839DBB79F645BD985EB7E89F55C20ED78B1789719CFD369F1613FA157F8CD08D8C9193EC098AACC1E46214, 0x6001726928729ACF2E90326808C959F3FA563C21966954CF6F9225AE5BAE16802D88E2F43F254B6E2638C8D0D2472981)) := by decide +kernel
theorem pm_a2 : pm 96 (0x62ECEDC6A9480A02A1931F48384E55B19A303327E6340133, some (0xC19E0B4C800119C440F7F9E706421279B42A31AF8A3E297DDB2987894D10DDEABA065458A4F52D78A628B09AAA03BD53, 0x16F3FDBF0356B301E5A0191D1F5B77F6577A30EAE3567AF9C1C7CAD135F6EBF2AF68AA6DE639D858822D0FC5E6C88C41), some (0xF51125EF29839DBB79F645BD985EB7E89F55C20ED78B1789719CFD369F1613FA157F8CD08D8C9193EC098AACC1E46214, 0x6001726928729ACF2E90326808C959F3FA563C21966954CF6F9225AE5BAE16802D88E2F43F254B6E2638C8D0D2472981)) = (0x62ECEDC6A9480A02A1931F48, some (0xB2D1055817CBAA12211905035F4972D7097DA395A23096863D8B29DBD08848C2F33A450AD156F761E4BFC2C04905CA71, 0x354CD872C3C6CBD2237C0DBA3CFD056BF82BE8F52E6236C09B475D744ECF1A68E87AB07C6924666FDDCEBB55753EE324), some (0x8EE2E9FC3D19BA56EEAA5215DC487BFCD02775ADBE6EBCF928B2DA41CD791021816C389B8C72E8A695786886C1DCD780, 0xE70D6A10D3C86E6B0303F2BB3A1F8AA37643B8E4548F03BDB14EBF04295ADA2902D0AA5E89820D01F00D454EF7EEC3D7)) := by decide +kernel
theorem pm_a3 : (pm 96 (0x62ECEDC6A9480A02A1931F48, some (0xB2D1055817CBAA12211905035F4972D7097DA395A23096863D8B29DBD08848C2F33A450AD156F761E4BFC2C04905CA71, 0x354CD872C3C6CBD2237C0DBA3CFD056BF82BE8F52E6236C09B475D744ECF1A68E87AB07C6924666FDDCEBB55753EE324), some (0x8EE2E9FC3D19BA56EEAA5215DC487BFCD02775ADBE6EBCF928B2DA41CD791021816C389B8C72E8A695786886C1DCD780, 0xE70D6A10D3C86E6B0303F2BB3A1F8AA37643B8E4548F03BDB14EBF04295ADA2902D0AA5E89820D01F00D454EF7EEC3D7))).2.2 = some (0x2C111B02ADF27408839E99FB253215513122154D296D594D5E8CE3A4F53AE5BCC4DA77C682ED960341CBCCAB854E3325, 0x9DF9C5BBA0AB5E093EE0C231F0BE6D95F42A44834DAD2CF57ECAF74DE06164861B7A9CEF8B5807D99B08194B4B32E42B) := by decide +kernel
theorem mul_a : pointMul 384 0x62ECEDC6A9480A02A1931F48384E55B19A303327E6340133FA5609AA5026177FADEDCA452C004B95E1892C84174D3DF2 (some g384) none = some (0x2C111B02ADF27408839E99FB253215513122154D296D594D5E8CE3A4F53AE5BCC4DA77C682ED960341CBCCAB854E3325, 0x9DF9C5BBA0AB5E093EE0C231F0BE6D95F42A44834DAD2CF57ECAF74DE06164861B7A9CEF8B5807D99B08194B4B32E42B) :=
  (pm_mul 96 384 288 _ _ rfl pm_a0).trans ((pm_mul 96 288 192 _ _ rfl pm_a1).trans ((pm_mul 96 192 96 _ _ rfl pm_a2).trans (pm_last 96 _ _ pm_a3)))
theorem pm_b0 : pm 96 (0xA9420648D70D38507F46F70402938C59D82E40E62C118D6680BA35E5AC5811CC91A624EA6D4A5A511343EDD131E930F8, some (0xF253086A93D1FC66B8AE5146C1ABAF3E685E5ACC766A40786D0DF45666B4BEE9C51CE15C68BF24FB259F1C564E76AA03, 0xAD6EF752EE3B4754DD1ED5E7F03360F5C5E251E7311824F96542CFBCA3CD0272D039DD454D03D7E048787F215C453D3A), none) = (0xA9420648D70D38507F46F70402938C59D82E40E62C118D6680BA35E5AC5811CC91A624EA, some (0x9F0DA80B8150C1D9017D60156DA3CA9874DA4BDED846D62EF732D3FBDA9381BC6DB4D1CFBBE47738525D39167D113B06, 0x6ECC948D17EC5AFE3FED07F92DCEF27A45C653A51EBC27AB0458E3C78530C43E3666F0E4FA55621327C3EF2A955B62C3), some (0xD3E1D15974788BD4032E395DADF153AB06F3CA329BE6AD65329013C2D60891E2020A39A90638BE55CFD41BC05A572BCC, 0xA142DDE15F5025315A2A83F0D1D18F6E80EF27756803214B886545117BDD5DB8A334BF701FC8FBB071EB053910ED1971)) := by decide +kernel
theorem pm_b1 : pm 96 (0xA9420648D70D38507F46F70402938C59D82E40E62C118D6680BA35E5AC5811CC91A624EA, some (0x9F0DA80B8150C1D9017D60156DA3CA9874DA4BDED846D62EF732D3FBDA9381BC6DB4D1CFBBE47738525D39167D113B06, 0x6ECC948D17EC5AFE3FED07F92DCEF27A45C653A51EBC27AB0458E3C78530C43E3666F0E4FA55621327C3EF2A955B62C3), some (0xD3E1D15974788BD4032E395DADF153AB06F3CA329BE6AD65329013C2D60891E2020A39A90638BE55CFD41BC05A572BCC, 0xA142DDE15F5025315A2A83F0D1D18F6E80EF27756803214B886545117BDD5DB8A334BF701FC8FBB071EB053910ED1971)) = (0xA9420648D70D38507F46F70402938C59D82E40E62C118D66, some (0x570D4360C67E2E5832D2EC33F5199E30DCB7D40139178F6D282CA16D950C5F7DFFFC75A32123794A07FE4E4EBDAD8003, 0x4CCB0BB0519030B6C06E6D83924E7B7017D5639558B2175CC76600C04CF8D577B0AC2261C286B006628F3EB822A318E), some (0x1D1779C3B3498825CE1565EC6B04A134B1C911FD2722AD39B398FCA70CEDA543186003E75D3CA4E05140F18CAC7FE32, 0x39BEDCD22C561F1084B399D1B9B9DA494B888F8D79353339012461B92AE032378936CE3136D2DAD1433870578EE7E47E)) := by decide +kernel
theorem pm_b2 : pm 96 (0xA9420648D70D38507F46F70402938C59D82E40E62C118D66, some (0x570D4360C67E2E5832D2EC33F5199E30DCB7D40139178F6D282CA16D950C5F7DFFFC75A32123794A07FE4E4EBDAD8003, 0x4CCB0BB0519030B6C06E6D83924E7B7017D5639558B2175CC76600C04CF8D577B0AC2261C286B006628F3EB822A318E), some (0x1D1779C3B3498825CE1565EC6B04A134B1C911FD2722AD39B398FCA70CEDA543186003E75D3CA4E05140F18CAC7FE32, 0x39BEDCD22C561F1084B399D1B9B9DA494B888F8D79353339012461B92AE032378936CE3136D2DAD1433870578EE7E47E)) = (0xA9420648D70D38507F46F704, some (0xF218494B7029D23F95731F54329996EADC3853F4528A826039C4E88BD83E51B685CFC05B54857BDE7419EF0618696DDA, 0xF8EF5B7CF0935CDAAF718F502E59E18DACFA80CE63E8D2211B0FA90C2C21ECE298F3D1415EF3072D27FC308317033D87), some (0xFC73914F812519B039DEFFE591AD39DD4752A268E0FF2DD28D5578DD7ACA714667158414A2292BD1A1AFD3747ED0B4C1, 0xAB97BFE0D37014B3C98DC8494399705EC8DE3D78F7FD0BF55DC85B1AFC50C7CAE4AE9000D710E070909B631AE58E5457)) := by decide +kernel
theorem pm_b3 : (pm 96 (0xA9420648D70D38507F46F704, some (0xF218494B7029D23F95731F54329996EADC3853F4528A826039C4E88BD83E51B685CFC05B54857BDE7419EF0618696DDA, 0xF8EF5B7CF0935CDAAF718F502E59E18DACFA80CE63E8D2211B0FA90C2C21ECE298F3D1415EF3072D27FC308317033D87), some (0xFC73914F812519B039DEFFE591AD39DD4752A268E0FF2DD28D5578DD7ACA714667158414A2292BD1A1AFD3747ED0B4C1, 0xAB97BFE0D37014B3C98DC8494399705EC8DE3D78F7FD0BF55DC85B1AFC50C7CAE4AE9000D710E070909B631AE58E5457))).2.2 = some (0xB81D0331A97F2EBD356265CBFCA4A503D408C8299FAA4D22A9DEDAE02B8434C4A33507D0235FBE8982C43F47C7D5D353, 0x3D55D9D4269BED5B076D54AE4B48F0D6C954297EAA9C6B1DFE33EA48D111E1AE1E61358827062EADCE6942408D24C1C4) := by decide +kernel
theorem mul_b : pointMul 384 0xA9420648D70D38507F46F70402938C59D82E40E62C118D6680BA35E5AC5811CC91A624EA6D4A5A511343EDD131E930F8 (some fwQ) none = some (0xB81D0331A97F2EBD356265CBFCA4A503D408C8299FAA4D22A9DEDAE02B8434C4A33507D0235FBE8982C43F47C7D5D353, 0x3D55D9D4269BED5B076D54AE4B48F0D6C954297EAA9C6B1DFE33EA48D111E1AE1E61358827062EADCE6942408D24C1C4) :=
  (pm_mul 96 384 288 _ _ rfl pm_b0).trans ((pm_mul 96 288 192 _ _ rfl pm_b1).trans ((pm_mul 96 192 96 _ _ rfl pm_b2).trans (pm_last 96 _ _ pm_b3)))
theorem fw_signed : ecdsaOk fwQ 0x19DE43CF6331AD3C629F39F3E3CA7D197362DEAF2668625B27D9E1DB36D69EC93A1DDEFAE13C1CC50C304CFE1F645F fwR fwS = true := by
  have a : 0x19DE43CF6331AD3C629F39F3E3CA7D197362DEAF2668625B27D9E1DB36D69EC93A1DDEFAE13C1CC50C304CFE1F645F * invMod n384 fwS % n384 = 0x62ECEDC6A9480A02A1931F48384E55B19A303327E6340133FA5609AA5026177FADEDCA452C004B95E1892C84174D3DF2 := by decide +kernel
  have b : fwR * invMod n384 fwS % n384 = 0xA9420648D70D38507F46F70402938C59D82E40E62C118D6680BA35E5AC5811CC91A624EA6D4A5A511343EDD131E930F8 := by decide +kernel
  have c : (fwR = 0 || fwS = 0 || n384 ≤ fwR || n384 ≤ fwS || !onCurve fwQ) = false := by decide +kernel
  unfold ecdsaOk
  rw [if_neg (by rw [c]; simp)]
  conv_lhs => zeta
  rw [a, b, mul_a, mul_b]
  decide +kernel
theorem fw_numbers : beNat (fwBoot.bytes 32 48) = fwQ.1 ∧ beNat (fwBoot.bytes 80 48) = fwQ.2 ∧ beNat (fwBoot.bytes 384 48) = fwR ∧ beNat (fwBoot.bytes 432 48) = fwS := by decide +kernel
theorem fw_hash : sha384 (fwBoot.bytes 0 384) = 0x19DE43CF6331AD3C629F39F3E3CA7D197362DEAF2668625B27D9E1DB36D69EC93A1DDEFAE13C1CC50C304CFE1F645F := by decide +kernel
theorem fw_rest : fwBoot.imageOk = true ∧ sha384 (fwBoot.bytes 32 96) = fwBoot.keyHash ∧ ¬ fwBoot.num 8 4 < fwBoot.counter ∧ sha384 (fwBoot.bytes 512 (fwBoot.num 16 8)) = beNat (fwBoot.bytes 128 48) := by decide +kernel
theorem test_image_accepted : fwBoot.check = none := by
  obtain ⟨a, b, c, d⟩ := fw_rest
  obtain ⟨e, f, g, h⟩ := fw_numbers
  have s := fw_signed
  unfold Boot.check
  conv_lhs => zeta
  rw [a, b, d, fw_hash, e, f, g, h, s]
  simp [c]

/-! ### Resets, starts and the mailbox -/

/-- A start at a stage, and a machine that runs, waits, failed or tripped. -/
def bootAt (n : Nat) (b : Boot := {}) : State := { State.reset with boot := { b with state := 1, stage := n } }
def bst (st : Nat) (b : Boot := {}) (f : State := State.reset) : State := { f with boot := { b with state := st } }
theorem test_resets :
    let w (s : State) : Boot := (nx (exec .bootCtlWarm s)).boot
    let trip := bst 2 { tripped := some (7, 0x8F) }
    (tk.boot.tripped = none ∧ tk.boot.state = 2 ∧ tk.stores = []) ∧ (bst 3).boot.tripped = none ∧ (nx (exec .perst (bst 3))).boot.state = 3 ∧ (nx (exec .pfFlr (bst 2))).boot.nextKind = 1 ∧
    trip.boot.tripped = some (7, 0x8F) ∧ isNext (exec .hotReset trip) trip = true ∧ (nx (exec .perst trip)).boot.events = [0x04_07_FF_8F_00000000] ∧
    (bst 1).boot.state = 1 ∧ (w (bst 1)).req = 2 ∧ (w (bst 2)).nextKind = 1 ∧ (0 : Nat) ≠ 1 ∧ (0 : Nat) ≠ 2 ∧ isNext (exec .bootCtlWarm (bst 0)) (bst 0) = true ∧ isNext (exec .bootCtlWarm (bst 3)) (bst 3) = true := by decide +kernel

/-- GO in each state and after one and two failures; the third failure; the staging window. R454's examples of BOOT_STATUS. -/
theorem test_starts_begin :
    let go (b : Boot) : Boot := (nx (exec .bootCtlGo (bst b.state b))).boot
    let out (n : Nat) : Boot := (nx (exec .startTimeout (bootAt 4 { fails := n }))).boot
    let win (st : Nat) : State := { bst st with ev := { n := 16777215, data := [some 7] } }
    (bst 0).boot.tripped = none ∧ (bst 0).boot.state = 0 ∧ (bst 3).boot.tripped = none ∧ (go { state := 0 }).state = 1 ∧ (go { state := 0, fails := 1 }).kind = 1 ∧ (go { state := 0, fails := 2, nextKind := 1 }).kind = 0 ∧
    (go { state := 3 }).req = 3 ∧ (go { state := 1 }).req = 2 ∧ (go { state := 2 }).req = 2 ∧ (bootAt 4).boot.state = 1 ∧ (out 1).state = 0 ∧ (out 2).state = 3 ∧ (out 2).detail = 4 ∧
    (bst 0).boot.state ≠ 1 ∧ smGet 0 (nx (exec .fwWinWrite (win 0))).boot.fw 16777215 = 7 ∧ (win 1).boot.state ≠ 0 ∧ (nx (exec .fwWinWrite (win 1))).boot.fw = [] := by decide +kernel

/-- The mask ROM's check: nothing staged, another key, and an accepted image. -/
theorem test_firmware_check :
    (bootAt 1).boot.imageOk = false ∧ (bootAt 1).boot.check = some (1, 0) ∧ (nx (exec .firmwareCheck (bootAt 1))).boot.code = 1 := by decide +kernel
def otherKey (b : Boot) : Boot := { b with keyHash := 5 }
theorem otherKey_eq (b : Boot) (o n : Nat) : (otherKey b).bytes o n = b.bytes o n ∧ (otherKey b).imageOk = b.imageOk ∧ (otherKey b).keyHash = 5 := ⟨rfl, rfl, rfl⟩
theorem test_firmware_key : (otherKey fwBoot).imageOk = true ∧ sha384 ((otherKey fwBoot).bytes 32 96) ≠ (otherKey fwBoot).keyHash := by
  rw [(otherKey_eq fwBoot 32 96).1, (otherKey_eq fwBoot 0 0).2.1, (otherKey_eq fwBoot 0 0).2.2, fw_rest.1, fw_rest.2.1]
  decide +kernel
theorem test_firmware_accepted : ∃ s : State, s.boot.state = 1 ∧ s.boot.stage = 1 ∧ s.boot.check = none :=
  ⟨{ State.reset with boot := fwBoot }, rfl, rfl, test_image_accepted⟩

/-- Training: two stacks, a channel, nothing, the last stack; retained values 10 degrees away and further. -/
theorem test_training :
    let tr (l : List Nat) (st : Nat) : State := nx (exec .hbmTraining { bootAt 2 with ev := { list := l, status := st } })
    let kept (t : Int) : State := bootAt 2 { kind := 1, trained := true, temps := [(0, t)] }
    (bootAt 2).boot.state = 1 ∧ (bootAt 2).boot.stage = 2 ∧ (kept 160).keepsTraining = true ∧ (kept (-160)).keepsTraining = true ∧ (kept 161).keepsTraining = false ∧ (bootAt 2).keepsTraining = false ∧
    (nx (exec .hbmTraining (kept 160))).boot.skip = 1 ∧ (bootAt 2).lost = [] ∧ (bootAt 2).lost.length ≤ 1 ∧ (tr [11, 0] 0).boot.detail = 0x801 ∧ (tr [] 16).boot.detail = 15 ∧
    (tr [] 0).boot.trained = true ∧ (tr [11] 0).lost = [11] ∧ (tr [11] 0).boot.degr = true := by decide +kernel

/-- The zero-fill, equalisation of port 63, the self-test of core 383. -/
theorem test_links_start :
    let z (b : Boot) (l : List Nat) : State := { bootAt 3 b with ev := { list := l } }
    let e (l : List Nat) (st : Nat) (b : Boot) : State := { bootAt 4 b with ev := { list := l, status := st } }
    let m : Boot := { portmap := 2 ^ 63 }
    let t (l : List Nat) : State := { bootAt 5 with ev := { list := l } }
    ((z { kind := 1, clean := true } []).boot.kind = 1 ∧ (z { kind := 1, clean := true } []).boot.clean = true) ∧ ((z {} []).boot.kind = 0 ∧ (z {} []).ev.list = []) ∧ (z { kind := 1 } [11]).boot.clean = false ∧
    (nx (exec .zeroFill (z { kind := 1 } [11]))).boot.detail = 11 ∧ ((nx (exec .zeroFill (z m []))).portAt 63).inuse = true ∧ ((nx (exec .zeroFill (z m []))).portAt 62).inuse = false ∧
    ((e [] 1 {}).ev.status ≠ 0 ∧ (e [] 1 {}).linksReady = true) ∧ (e [] 1 m).linksReady = false ∧ ((e [] 0 m).ev.status = 0 ∧ ∀ i, i < 64 → (e [] 0 m).boot.portmap.getLsbD i = true → i ∉ (e [] 0 m).ev.list) ∧
    (nx (exec .linkEqualisation (e [] 0 m))).boot.stage = 4 ∧ ((e [63, 0] 0 m).boot.portmap.getLsbD 63 = true ∧ 63 ∈ (e [63, 0] 0 m).ev.list ∧
      ∀ j, j < 63 → j ∈ (e [63, 0] 0 m).ev.list → (e [63, 0] 0 m).boot.portmap.getLsbD j = false) ∧
    (nx (exec .linkEqualisation (e [63, 0] 0 m))).boot.detail = 63 ∧ (∀ c ∈ (t [384]).ev.list, 384 ≤ c) ∧ (nx (exec .coreSelfTest (t [384]))).boot.stage = 6 ∧
    (383 ∈ (t [384, 383]).ev.list ∧ ∀ k, k < 383 → k ∉ (t [384, 383]).ev.list) ∧ (nx (exec .coreSelfTest (t [384, 383]))).boot.detail = 383 := by decide +kernel

/-- A supervisor image of one CODE section at 0x10000 (R170, R171), and none. -/
def supTail : List Byte := leBytes 8 0x10000 ++ List.replicate 40 0 ++ (leBytes 8 1 ++ leBytes 8 96 ++ leBytes 8 8 ++ leBytes 8 0x10000) ++ (leBytes 4 0xE0000002 ++ leBytes 4 0x9C000000)
def supHead : List Byte := leBytes 4 0x54524550 ++ leBytes 2 1 ++ leBytes 2 1 ++ leBytes 4 0
def supImage : List Byte := supHead ++ leBytes 4 194214038 ++ supTail
def supS : State := bootAt 6 { fw := (leBytes 4 104).zipIdx.map (fun p => (28 + p.2, p.1)) ++ supImage.zipIdx.map fun p => (512 + p.2, p.1) }
theorem crc_step (a b c : BitVec 32) (l m : List Byte) (h : crc32c a l = b) (k : crc32c b m = c) : crc32c a (l ++ m) = c := by
  rw [crc32c, List.foldl_append]; exact (congrArg (fun x => m.foldl crc32cByte x) h).trans k
def supZero : List Byte := supHead ++ [0, 0, 0, 0] ++ supTail
theorem sup_crc : crcOf supZero = 194214038 := by
  have a : crc32c (BitVec.allOnes 32) (supZero.take 36) = 0xEDB0C9A8 := by decide +kernel
  have b : crc32c 0xEDB0C9A8 ((supZero.drop 36).take 36) = 0x86C9E4D4 := by decide +kernel
  have c : crc32c 0x86C9E4D4 (supZero.drop 72) = 0xF46C8769 := by decide +kernel
  have l : supZero = supZero.take 36 ++ ((supZero.drop 36).take 36 ++ supZero.drop 72) := by decide +kernel
  have e := crc_step _ _ _ _ _ a (crc_step _ _ _ _ _ b c)
  rw [← l] at e
  rw [crcOf, e]
  decide +kernel
theorem test_supervisor : imageFault (supS.boot.bytes (512 + supS.boot.num 24 4) (supS.boot.num 28 4)) = none := by
  have h : supS.boot.bytes (512 + supS.boot.num 24 4) (supS.boot.num 28 4) = supImage := by decide +kernel
  have l : supImage.take 12 ++ [0, 0, 0, 0] ++ supImage.drop 16 = supZero := by decide +kernel
  rw [h]
  unfold imageFault
  conv_lhs => zeta
  rw [l, sup_crc]
  decide +kernel
theorem test_supervisor_fails : imageFault ((bootAt 6).boot.bytes (512 + (bootAt 6).boot.num 24 4) ((bootAt 6).boot.num 28 4)) = some 1 ∧
    (nx (exec .supervisorLoad (bootAt 6))).boot.code = 0x50 := by decide +kernel

/-- A request of function 0 and of a VF, taken and refused, and completed. -/
def mb (fn st : Nat) (args : SMap Word) (b : Nat := 2) (f : State := tk) : State :=
  { f with boot := { f.boot with state := b }, fns := [(fn, { mbBusy := true, mbTaken := args, vfmap := 0x8000000000000000 })], ev := { status := st, agent := .host fn } }
theorem test_mailbox :
    let req (v : Nat) (busy : Bool) : State := { tk with fns := [(1, { mbBusy := busy })], ev := { v := BitVec.ofNat 64 v, agent := .host 1 } }
    let port (s : State) : State := s.modPort 63 fun p => { p with inuse := true }
    let m := mb 0 1 []
    let may (s : State) (fn : Nat) : Bool := fn == 0 || ((s.fnAt fn).vfmap.getLsbD 63 && (s.dieAt (((s.fnAt fn).arg 0).toNat % 8)).tenant == (s.fnAt fn).vfmap.toNat % 256)
    ((req 0xFFFFFFFF false).ev.status = 0 ∧ ((req 0xFFFFFFFF false).fnAt 1).mbBusy = false ∧ ((nx (exec .mbReq (req 0xFFFFFFFF false))).fnAt 1).mbSeq = 0xFFFF) ∧
    isNext (exec .events (req 0x100000000 false)) ((req 0x100000000 false).countRefused 1) = true ∧ isNext (exec .events (req 0 true)) ((req 0 true).countRefused 1) = true ∧
    (m.ev.status ≠ 0 ∧ (m.fnAt m.mailFn).mbBusy = true ∧ m.mailFn = 0 ∧ m.boot.state = 2) ∧ ((mb 1 1 []).mailFn ≠ 0 ∧ may (mb 1 1 []) 1 = true) ∧
    may ((mb 1 1 [(0, 7)]).modDie 7 fun d => { d with tenant := 1 }) 1 = false ∧ ((mb 0 1 [] 0).boot.state = 0 ∧ (mb 0 1 [] 3).boot.state = 3 ∧ (mb 0 1 [] 3).boot.state ≠ 1) ∧
    ((nx (exec .recexit (mb 0 1 [] 3))).boot.state = 0 ∧ ((nx (exec .recexit m)).fnAt 0).mbStatus = 4) ∧
    (((mb 0 1 [(0, 63)]).portAt 63).inuse = false ∧ ((port (mb 0 1 [(0, 63)])).portAt 63).inuse = true ∧ ((port (mb 0 1 [(0, 63)])).portAt 63).loadIgnored 0 = false) ∧
    ((nx (exec .loadkey (port (mb 0 1 [(0, 63), (5, 9)])))).portAt 63).txKey = [(0, BitVec.ofNat 256 (9 * 2 ^ 192))] ∧
    (nx (exec .setpasid (mb 0 1 [(0, 255), (1, 0x80000000000FFFFF)]))).pasid = [(255, 0x80000000000FFFFF)] := by decide +kernel

/-- RAISESVN up to the SVN that runs and up to 255; EVENTS with 31 and 32 events; INJECT at the ends of each structure. -/
theorem test_mailbox_values :
    let r (n svn : Nat) : State := { mb 0 1 [(0, BitVec.ofNat 64 n)] with boot := { state := 2, svn, counter := 3 } }
    let e (n : Nat) : State := { mb 0 1 [] with boot := { state := 2, events := List.replicate n 5 } }
    let i (unit k t : Nat) : State := (mb 0 1 [(0, BitVec.ofNat 64 unit), (1, BitVec.ofNat 64 (7 + 8 * k)), (2, BitVec.ofNat 64 t), (3, 3)]).modCore (7 * 48 + k) fun c =>
      { c with l1 := [(9, 0)], imem := [(16, 0)] }
    let st (s : State) : Nat := ((nx (exec .inject s)).fnAt 0).mbStatus
    ((r 4 4).boot.counter < 4 ∧ 4 ≤ (r 4 4).boot.svn ∧ (4 : Nat) ≤ 255 ∧ (nx (exec .raisesvn (r 255 255))).boot.counter = 255) ∧ ((r 3 9).boot.counter ≥ 3 ∧ (nx (exec .raisesvn (r 3 9))).boot.counter = 3) ∧
    (nx (exec .raisesvn (r 256 300))).boot.counter = 3 ∧ (nx (exec .raisesvn (r 5 4))).boot.counter = 3 ∧ (nx (exec .events (e 31))).boot.events = [] ∧ (nx (exec .events (e 32))).boot.events = [5] ∧
    ([(1, 48, 0), (0, 0, 0), (5, 0, 0), (6, 0, 0), (8, 0, 0), (1, 47, 8 * 24576), (2, 47, 160), (7, 47, 3)].all fun p => st (i p.1 p.2.1 p.2.2) == 2) = true ∧
    ([(1, 47, 8 * 24576 - 1), (2, 47, 159), (3, 47, 23), (7, 47, 2)].all fun p => st (i p.1 p.2.1 p.2.2) == 0) = true ∧
    (smFind ((i 3 47 23).coreAt (7 * 48 + 47)).imem (23 / 8 * 8)).isSome = true ∧ ((nx (exec .inject (i 7 47 2))).coreAt 383).inj = [(7 * 2 ^ 64 + 2, 3)] := by decide +kernel

/-- Each of the nine commands is accepted, and one in a start at its stage of the links. -/
theorem test_mailbox_taken :
    let q : State := { tk with fns := [(1, {})], ev := { v := 0xFFFFFFFF, agent := .host 1 } }
    let b : State := { mb 0 1 [(0, 63)] with boot := { state := 1, stage := 4, events := [5] } }
    let st (i : Instr) : Nat := ((nx (exec i b)).fnAt 0).mbStatus
    ([Instr.mbReq, .version, .telemetry, .loadkey, .setpasid, .raisesvn, .recexit, .inject, .events].all fun i =>
      (nx (exec i q)).inbox.map (·.1) == [i] && ((nx (exec i q)).fnAt 1).mbBusy) = true ∧
    (b.boot.state = 1 ∧ 2 ≤ b.boot.stage ∧ b.boot.stage = 4 ∧ b.ev.status ≠ 0 ∧ (b.fnAt b.mailFn).mbBusy = true) ∧ (st .telemetry = 0 ∧ st .loadkey = 2 ∧ st .events = 0 ∧
      st .version = 0 ∧ st .mbReq = 1) ∧ (nx (exec .events b)).boot.events = [] := by decide +kernel

/-! ### Monitors, the scrub and the stacks -/

/-- A window's samples of die 7: the same for all its 32 sensors but the last, and its 32 voltages. -/
def mon (temp last volt : Nat) : State :=
  { tk.modDie 7 (fun d => { d with vrail := [(3, 700 * 65536 + 750 + 900 * 2 ^ 32)] }) with
    ev := { n := 7, list := List.replicate 31 (temp * 16) ++ [last * 16] ++ List.replicate 32 volt } }
def monX (s : State) : Die := ((s.passTime 7).dieAt 7).sample s.ev.list
/-- R516's limits: 105 degrees trip and 104 do not, 700 mV on rail 3 trips below and not at it. -/
theorem test_monitor_trips :
    let tr (s : State) : Option (Nat × Nat) := (nx (exec .monitorWindow s)).boot.tripped
    tk.boot.tripped = none ∧ (smGet 0 (monX (mon 90 105 800)).therm 31).toInt = 1680 ∧ (monX (mon 90 105 800)).ttrip = 105 ∧ tr (mon 90 105 800) = some (7, 31) ∧
    (∀ i < 32, (smGet 0 (monX (mon 90 104 699)).therm i).toInt < 1680) ∧ (smGet 0 (monX (mon 90 104 699)).volt 31).toNat < ((monX (mon 90 104 699)).vrailAt (31 / 8)).toNat / 2 ^ 16 % 2 ^ 16 ∧
    tr (mon 90 104 699) = some (7, 0x83) ∧ (monX (mon 90 104 700)).trip = none ∧ tr (mon 90 104 700) = none := by decide +kernel
/-- R516's example of the stretch level: 94, 96, 97, 93, 89, 88 degrees give 0, 1, 2, 2, 1, 0. -/
theorem test_stretch :
    let run (l : List Nat) : Nat := (l.foldl (fun s t => nx (exec .monitorWindow { s with ev := (mon t t 800).ev })) (mon 0 0 800)).dieAt 7 |>.stretch
    (monX (mon 94 94 800)).trip = none ∧ [run [94], run [94, 96], run [94, 96, 97], run [94, 96, 97, 93], run [94, 96, 97, 93, 89], run [94, 96, 97, 93, 89, 88]] = [0, 1, 2, 2, 1, 0] ∧
    ((monX (mon 0 0 800)).thotOld = (monX (mon 0 0 800)).thot) ∧ (nx (exec .monitorWindow (mon 95 95 800))).boot.events.length = 1 := by decide +kernel

/-- A scrub with a word in HBM whose check bits fail, and one in LPDDR-6. -/
theorem test_scrub :
    let s : State := { tk with scrubPeriod := 1, memSyn := [(5, BitVec.ofNat 8 (secdedCols.getD 3 0)), (528000000000 / 8, 3)] }
    (s.boot.state = 2 ∧ (s.scrubPeriod ≠ 0 ∨ s.ev.status = 1) ∧ s.poison = [] ∧ s.lost = [] ∧ s.l2inj = []) ∧ ((5 * 8 < 528000000000) ∧ (smFind s.memSyn 5).bind (fun y => (secdedRead y.toNat).bind id) = some 3) ∧
    (nx (exec .scrubPass s)).memNat 40 8 = 8 ∧ (nx (exec .scrubPass s)).memSyn = [(528000000000 / 8, 3)] := by decide +kernel

/-- The loss of stack 11 while a store's parity update runs, and a second loss. -/
theorem test_stack_loss :
    let x : Parity := { line := 10, core := some 0, strand := some 0 }
    let s : State := { tk with parity := [x], ev := { n := 11 } }
    let two : State := { tk with lost := [0], ev := { n := 11 } }
    (11 < 12 ∧ 11 ∉ s.lost) ∧ (s.lost = [] ∧ x ∈ s.parity ∧ lineOn (stripeOf (x.line * 128)) 11 = some 10) ∧ (nx (exec .stackLoss s)).poisonOf 10 = some 11 ∧
    (∀ y ∈ s.parity, lineOn (stripeOf (y.line * 128)) 11 ≠ some 9) ∧ (nx (exec .stackLoss s)).parity = [] ∧ (two.lost ≠ [] ∧ 10 * 128 < 528000000000 ∧ smFind two.poison 10 = none ∧ stackOf (10 * 128) = 11) ∧
    (nx (exec .stackLoss two)).poisonOf 10 = some 11 ∧ (nx (exec .stackLoss two)).lost = [0, 11] := by decide +kernel

/-- R496's window: above DHI, at DHI, at DLO and below it. -/
theorem test_throttle :
    let w (n : Nat) : Nat := ((nx (exec .throttleWindow { tk.modDie 3 (fun d => { d with depart := 256, deflected := n, allow := 100 }) with ev := { n := 3 } })).dieAt 3).allow
    tk.boot.state = 2 ∧ ({} : Die).throttle.toNat / 2 ^ 16 % 256 = 64 ∧ ({} : Die).throttle.toNat / 2 ^ 8 % 256 = 32 ∧ [w 65, w 64, w 32, w 31] = [50, 100, 100, 116] := by decide +kernel

/-! ### The host -/

/-- A host access: path, function, number, length and bytes. -/
def ha (p : HostPath) (fn n k : Nat) (l : List (Option Byte)) (f : State := tk) : State := { f with ev := { path := p, agent := .host fn, n, k, data := l } }
def cx (s : State) : State := { s with cxl := true, cxlm := 0x8000000100000001 }
theorem test_host_writes :
    let w (s : State) : State := nx (exec .hostWrite s)
    let reg := ha .bar0 0 0x7000 0 ((leBytes 8 0x1000).map some)
    let m := (leBytes 4 0x44332211).map some
    let bad (s : State) : Bool := isNext (exec .hostWrite s) (s.countRefused s.mailFn)
    let wait : State := { (ha .bar2 0 124 0 m) with reqs := [{ id := 5, addr := 0, len := 8, op := 2, owner := .hostAccess 0 }] }
    (tk.hostWaits 0 = false ∧ wait.hostWaits 0 = true ∧ (w wait).later.map (·.1) = [.hostWrite] ∧ (w wait).memNat 124 4 = 0) ∧
    tk.hostUp = true ∧ isNext (exec .hostWrite { tk with hostUp := false }) { tk with hostUp := false } = true ∧
    (((w { tk with ev := { status := 1 } }).fnAt 0).poisoned = 1 ∧ ((w { tk with fns := [(0, { poisoned := 255 })], ev := { status := 1 } }).fnAt 0).poisoned = 255) ∧
    ((w { tk with ev := { status := 1 } }).out == [.aer 0]) = true ∧
    ((ha .bar2 0 124 0 m).supports 124 4 512 = true ∧ bad (ha .bar2 0 (2 ^ 40 - 3) 0 m) = true ∧ bad (ha .cxlMem 1 0 0 m) = true ∧ bad (ha .bar2 0 0 0 (List.replicate 513 none)) = true) ∧
    ((w { ha .config 0 0 2 [] with ev := { (ha .config 0 0 2 []).ev with v := 30 } }).bar2Pf = 30 ∧ (w { ha .config 0 1 2 [] with ev := { (ha .config 0 1 2 []).ev with v := 40 } }).bar2Vf = 40) ∧
    ((w { ha .config 0 63 0 [] with ev := { (ha .config 0 63 0 []).ev with v := 1 } }).fnAt 63).enabled = true ∧ (w { ha .config 0 0 1 [] with ev := { (ha .config 0 0 1 []).ev with v := 1 } }).hdm = true ∧
    (w (ha .bar0 0 0x1FFFFFF 0 [some 1])).inbox.map (·.2.n) = [0xFFFFFF] ∧ (w (ha .bar0 0 0x1000000 0 [some 1])).inbox.map (·.2.n) = [0] ∧
    (reg.hostReg 0 0x7000 = some (.dev (.lq 7 0) 0x7000 0) ∧ (w reg).inbox.length = 1) ∧ bad (ha .bar0 0 0x2000000 0 [some 1]) = true ∧ bad (ha .bar0 0 0x7004 0 ((leBytes 8 0).map some)) = true ∧
    bad (ha .bar0 1 0x1000000 0 m) = true ∧ bad (bst 1 {} (ha .bar2 0 0 0 m)) = true ∧ bad (bst 0 {} (ha .cxlMem 0 0 0 m)) = true ∧
    ((w (ha .bar2 0 124 0 m)).memNat 124 4 = 0x44332211 ∧ 124 % 128 + m.length ≤ 128 ∧ isHbm 124 = true) ∧ (isLpddr 0x100000000000 = true ∧ isHbm 0x100000000000 = false) ∧
    (isHbm 528000000000 = false ∧ isLpddr 528000000000 = false ∧ bad (ha .bar2 0 528000000000 0 m) = true) ∧
    ((cx tk).cxlm.getLsbD 63 = true ∧ 268435452 < min ((cx tk).cxlm.toNat / 2 ^ 32 % 2 ^ 11) 1907 * 2 ^ 28 ∧ (w (cx (ha .cxlMem 0 268435452 0 m))).memNat (2 ^ 28 + 268435452) 4 = 0x44332211) := by decide +kernel
theorem test_host_memory : tk.plainMem ∧ (cx tk).plainMem := by
  refine ⟨⟨?_, ?_, ?_, ?_, ?_, ?_, ?_⟩, ⟨?_, ?_, ?_, ?_, ?_, ?_, ?_⟩⟩ <;> decide +kernel

theorem test_host_reads :
    let r (s : State) : List Out := (nx (exec .hostRead s)).out
    let ones := [Out.hostData 0 (List.replicate 8 0xFF)]
    let l := ha .bar0 0 0x7000 8 [] { tk with lqs := [(7, { base := 0x1000 })] }
    (r (bst 0 {} (ha .bar0 0 0x1FFFFFC 4 [])) == [.hostData 0 (List.replicate 4 0)]) = true ∧ (bst 0).boot.state = 0 ∧
    isNext (exec .hostRead { tk with hostUp := false }) { tk with hostUp := false } = true ∧ (r (ha .bar0 0 0x7000 4 []) == [.hostData 0 (List.replicate 4 0xFF)]) = true ∧
    (tk.hostReg 0 0x2000400 = none ∧ (r (ha .bar0 0 0x2000400 8 []) == ones) = true) ∧ (readRow 0 (.port 0)).isSome = true ∧ (l.hostReg 0 0x7000 = some (.dev (.lq 7 0) 0x7000 0) ∧ readRow 0 (.dev (.lq 7 0) 0x7000 0) = none) ∧
    (r l == [.hostData 0 (leBytes 8 0x1000)]) = true ∧ (tk.hostReg 0 0x2000010 = some (.port 0x10) ∧ readRow 0 (.port 0x10) = none) ∧
    (tk.hostReg 0 0x20012F8 = some (.mail 0x2F8) ∧ tk.mailRead 0 0x2F8 = some 0) ∧ (r (bst 1 {} (ha .bar2 0 0 8 [])) == ones) = true ∧
    ((ha .bar2 0 0 4096 []).supports 0 4096 4096 = true ∧ (ha .bar0 0 0x7000 4097 []).supports 0x7000 4097 4096 = false ∧
      (r (ha .bar2 0 (2 ^ 40) 8 []) == ones) = true ∧ (r { (ha .bar0 0 0x7000 8 []) with ev := { (ha .bar0 0 0x7000 8 []).ev with status := 3 } } == ones) = true) ∧
    (r (ha .bar2 0 0x1000 1 []) == [.hostData 0 [1]]) = true ∧ (nx (exec .hostRead (cx (ha .cxlMem 0 0 128 [])))).held = [2 ^ 28 / 128] := by decide +kernel

/-- Completions of a strand's host read, the invalidations, and the vectors. -/
def hq : State :=
  { handler (tk.modSt fun x => { x with board := [{ dst := .s 6, val := none, seq := 0, rid := 1, req := 5, size := 4, addr := 0x40000004 }] }) with
    reqs := [{ id := 5, addr := 0x200000000000 + 0x5004, len := 4, owner := .strand 0, toHost := true }], nextId := 6, ats := [5], ev := { n := 5, data := (leBytes 4 0xFFFFFFFF).map some } }
theorem test_host_answers :
    let r : Req := { id := 5, addr := 0x200000000000 + 0x5004, len := 4, owner := .strand 0, toHost := true }
    let b : Board := { dst := .s 6, val := none, seq := 0, rid := 1, req := 5, size := 4, addr := 0x40000004 }
    ((hq.reqs.find? fun q => q.id == hq.ev.n && q.toHost) = some r ∧ r.owner = .strand 0 ∧ (hq.strandAt 0).amo = none ∧ (hq.strandAt 0).board = [b] ∧ b.req = r.id) ∧
    ((nx (exec .hostCompletion hq)).strandAt 0).board = [{ b with req := 0, val := some 0xFFFFFFFF }] ∧
    (clear hq 0 b.seq b.rid = true ∧ (hq.strandAt 0).fault = none ∧ (hq.strandAt 0).queues = [] ∧ (hq.strandAt 0).late = [] ∧ (hq.strandAt 0).now.trapped = false ∧ (hq.coreAt (coreOf 0)).tvec ≠ 0) ∧
    ((nx (exec .completionTimeout hq)).strandAt 0).now.trapInfo = BitVec.ofNat 64 (0x200000000000 + 0x5004) ∧ 5 ∈ hq.usersOf 5 ∧ ({ tk with ats := [5] } : State).usersOf 5 = [] ∧
    (nx (exec .atsInvalidate { tk with ats := [5], ev := { n := 5 } })).ats = [] ∧ (nx (exec .atsInvalidate hq)).later.map (·.1) = [.atsInvalidate] := by decide +kernel
theorem test_host_lines :
    let s : State := { tk with held := [0], cxlCache := [9], ev := { n := 0, data := (List.replicate 127 0 ++ [7]).map some } }
    let q (st : Nat) (cancel : Bool) : State := { tk with lqs := [(7, { state := st, tenant := 4, cancel })], tasks := [(1, { origin := .queue 7, tenant := 4, gang := [0] })], fns := [(3, { vfmap := 0x8000000000000004 })], ev := { n := 3, k := 31 } }
    (List.replicate 127 (0 : Byte) ++ [7]).length = 128 ∧ s.memSyn = [] ∧ s.poison = [] ∧ s.lost = [] ∧ (nx (exec .backInvalidateAnswer s)).held = [] ∧ (nx (exec .backInvalidateAnswer s)).memByte 127 = 7 ∧
    ((q 1 false).fnAt 3).vfmap.getLsbD 63 = true ∧ ((q 1 false).lqAt 7).state ≠ 0 ∧ ((q 1 false).lqAt 7).tenant = 0x8000000000000004 % 256 ∧ (tk.fnAt 3).vfmap.getLsbD 63 = false ∧
    ((nx (exec .vfFlr (q 1 false))).lqAt 7).state = 2 ∧ (nx (exec .vfFlr (q 1 false))).taskAt 1 = { origin := .queue 7, tenant := 4, gang := [0], status := 2 } ∧
    ((nx (exec .msixVectorUnmask (q 1 false))).fnAt 3).mask = 0x7FFFFFFF := by decide +kernel

/-! ### The fabric -/

/-- A flit of package 3, die 2, that has come to die 0, and the die's token of tenant 0 set. -/
def fb (f : Flit) (s : State := tk) : State := { s with ev := { agent := .remote 3, n := 0, flit := { f with snode := 3, sdie := 2, msgid := 9 } } }
def tok (s : State) : State := s.modDie 0 fun d => { d with token := [(0, 9)] }
/-- Operation and payload of what die 0 sends back. -/
def answers (s : State) : List (Nat × List Byte) := (s.dieAt 0).inject.map fun f => (f.op, f.payload)
def naked (o : Host.Outcome State Fault Refusal) : Option Nat := (answers (nx o)).head?.bind fun p => if p.1 = 0x40 then (p.2[32]?).map (·.toNat) else none

theorem test_fabric_writes :
    let w (a : Nat) : Flit := { op := 1, addr := a, tenant := 4, payload := [1, 2, 3, 4] }
    let two : Flit := { w 0 with flast := 1, fidx := 1 }
    let dup : State := (fb (w 0)).modDie 0 fun d => { d with reasm := [{ bitmap := 1, snode := 3, sdie := 2, msgid := 9 }] }
    (dup.duplicate 0 dup.ev.flit = true ∧ isNext (exec .write dup) dup = true) ∧ (fb (w 0)).duplicate 0 (fb (w 0)).ev.flit = false ∧
    (tk.target 528000000000 = none ∧ naked (exec .write (fb (w 528000000000))) = some 3) ∧ (tk.target (0 + 256 * 0) = some (.mem 0) ∧ (fb (w 0) (tok tk)).tokenOk 0 (fb (w 0)).ev.flit 0 = false) ∧
    naked (exec .write (fb (w 0) (tok tk))) = some 2 ∧ ((fb (w 0)).tokenOk 0 (fb (w 0)).ev.flit ((fb (w 0)).ownerOf 0) = true ∧ (nx (exec .write (fb (w 0)))).memNat 0 4 = 0x04030201) ∧
    answers (nx (exec .write (fb (w 0)))) = [(0x21, List.replicate 16 0)] ∧ (tk.target (0 + 256 * 1) = some (.mem 256) ∧ answers (nx (exec .write (fb two))) = []) := by decide +kernel

theorem test_fabric_writem :
    let pay := List.replicate 7 (0 : Byte) ++ [0xAB] ++ List.replicate 120 0
    let mask := List.replicate 7 (0 : Byte) ++ [0x0F] ++ List.replicate 120 0
    let m (a prev : Nat) : Flit := { op := 2, addr := a, tenant := 4, lseq := 7, prev, payload := pay ++ mask }
    let spm := 0x3FFE00000000 + 383 * 0x400000 + 0x3FFF80
    let reg := leBytes 8 0x1000 ++ List.replicate 120 0 ++ (List.replicate 8 0xFF ++ List.replicate 120 0)
    let dev : Flit := { m (0x3FFF00000000 + 0x7000) 7 with payload := reg }
    tk.target 528000000000 = none ∧ naked (exec .writem (fb (m 528000000000 7))) = some 3 ∧ tk.target spm = some (.spm 383 0x3FFF80) ∧
    tk.tokenOk 0 (m spm 7) (tk.targetOwner (.spm 383 0x3FFF80)) = true ∧ (fb (m 0 7) (tok tk)).tokenOk 0 (m 0 7) ((tok tk).targetOwner (.mem 0)) = false ∧
    (¬ ((m spm 6).prev = (m spm 6).lseq ∨ (m spm 6).prev ∈ smGet [] (tk.dieAt 0).streams (3 * 2048 + 0x7FF))) ∧ ((nx (exec .writem (fb (m spm 6)))).dieAt 0).waiting.length = 1 ∧
    (m spm 7).payload.length = 256 ∧ smGet 0 ((nx (exec .writem (fb (m spm 7)))).coreAt 383).spm 0x3FFF87 = 0x0B ∧
    (tk.target (0x3FFF00000000 + 0x7000) = some (.dev 0x7000) ∧ lineReg 0x7000 ((reg.take 128).zip (reg.drop 128)) = some (0x7000, 0x1000) ∧ devReg 0x7000 = some (.lq 7 0)) ∧
    (nx (exec .writem (fb dev))).inbox.length = 1 := by decide +kernel
theorem test_fabric_spm (f : Flit) : (fb f).plainMem ∧ (fb f).plainSpm 383 ∧ (fb f).plainSpm 0 := by
  refine ⟨⟨rfl, rfl, rfl, rfl, rfl, rfl, rfl⟩, ⟨rfl, ?_, ?_⟩, ⟨rfl, ?_, ?_⟩⟩
  · intro p h; cases h
  · intro k hk; rw [show Config.slots = 4 from rfl] at hk; interval_cases k <;> intro p h <;> cases h
  · intro p h; cases h
  · intro k hk; rw [show Config.slots = 4 from rfl] at hk; interval_cases k <;> intro p h <;> cases h

theorem test_fabric_reads :
    let r (a n : Nat) : Flit := { op := 3, addr := a, tenant := 4, payload := leBytes 2 n }
    let spm := 0x3FFE00000000 + 383 * 0x400000 + 0x3FFFFF
    let host := 0x200000000000
    let amo (k : Nat) : Flit := { op := 4, addr := 0x3FFE00000000, tenant := 4, payload := [0x16, BitVec.ofNat 8 k] ++ List.replicate 6 0 ++ leBytes 8 5 ++ leBytes 8 0 }
    let after (k : Nat) : Nat := leNat ((nx (exec .atomic (fb (amo k) (tk.putSpm 0 0 [6])))).spmBytes 0 0 8)
    naked (exec .read (fb (r 528000000000 1))) = some 3 ∧ (tk.target 0x1000 = some (.mem 0x1000) ∧ tk.target (0x1000 + (1 - 1)) = some (.mem 0x1000)) ∧ (1 ≤ leNat ((leBytes 2 16384).take 2) ∧ leNat ((leBytes 2 16384).take 2) ≤ 16384) ∧
    naked (exec .read (fb (r 0x1000 1) (tok tk))) = some 2 ∧ answers (nx (exec .read (fb (r 0x1000 2)))) = [(0x20, [1, 0x20])] ∧ (tk.target spm = some (.spm 383 0x3FFFFF) ∧ 0x3FFFFF + 1 ≤ 0x400000) ∧
    answers (nx (exec .read (fb (r spm 1)))) = [(0x20, [0])] ∧ (tk.target (0x3FFF00000000 + 0x7000) = some (.dev 0x7000) ∧ (tk.devRead (.lq 7 0)).1 = tk) ∧
    answers (nx (exec .read (fb (r (0x3FFF00000000 + 0x7000) 8)))) = [(0x20, List.replicate 8 0)] ∧ tk.target host = some (.host host) ∧ (nx (exec .read (fb (r host 8)))).reqs.length = 1 ∧
    ((tk.coreAt 0).inj = [] ∧ (amo 7).payload.take 1 = [0x16] ∧ ((amo 7).payload.drop 1).take 1 = [7]) ∧ [after 0, after 1, after 2, after 3, after 6, after 7] = [11, 4, 7, 3, 5, 6] ∧
    answers (nx (exec .atomic (fb (amo 7)))) = [(0x20, List.replicate 8 0)] ∧ (fb (amo 7) (tok tk)).tokenOk 0 (amo 7) 0 = false ∧ naked (exec .atomic (fb (amo 7) (tok tk))) = some 2 := by decide +kernel

/-- Collective packets: taken, an abort, and one whose token differs; aborts and cancellations of a group with a command in its queue. -/
def gs : State :=
  let s := mAt 3 (.clar kf) ks
  { s.modDie 0 fun x => { x with groups := [(4, { kgroup false with list := [(0, 0), (0, 1), (5, 3)] })], collIn := [{ gid := 4 }, { gid := 5 }] } with
    ev := { agent := .strand 0, n := 0, k := 4, list := [0] } }
theorem test_fabric_collectives :
    let c (ab : Bool) : Flit := { op := 6, tenant := 4, packet := { gid := 4, abort := ab } }
    (fb (c false) (tok tk)).tokenOk 0 (c false) 0 = false ∧ naked (exec .coll (fb (c false) (tok tk))) = some 2 ∧ tk.tokenOk 0 (c false) 0 = true ∧
    ((nx (exec .coll (fb (c false)))).dieAt 0).collIn = [{ gid := 4 }] ∧ (nx (exec .coll (fb (c true)))).inbox.map (·.1) = [.groupAbort] := by decide +kernel
theorem test_fabric_groups :
    let g : Group := { kgroup false with list := [(0, 0), (0, 1), (5, 3)] }
    let u := gs.modDie 0 fun x => { x with groups := [] }
    gs.groupAt 0 gs.ev.k = some g ∧ u.groupAt 0 u.ev.k = none ∧ ((smGet [] ((nx (exec .groupAbort u)).strandAt 0).queues 3).map (·.parts)) = [[(0, [2, 0, 0])]] ∧ gs.ev.agent = .strand 0 ∧
    ((smGet [] (gs.strandAt 0).queues 3).map fun e => (keGroup e, e.parts, e.phase)) = [(some 4, [], 0)] := by decide +kernel
theorem test_fabric_cancel :
    let l := (kgroup false).list ++ [(5, 3)]
    ((smGet [] ((nx (exec .groupAbort gs)).strandAt 0).queues 3).map (·.parts)) = [[(0, [2, 3, 0])]] ∧ ((nx (exec .groupAbort gs)).dieAt 0).collIn = [{ gid := 5 }] ∧
    ((5, 3) ∈ l ∧ ((5, 3) : Nat × Nat) ≠ (gs.node, 0) ∧ 5 ≠ gs.node) ∧ ((0, 1) ∈ l ∧ ((0, 1) : Nat × Nat) ≠ (gs.node, 0) ∧ (gs.dieAt 1).tenant = (gs.dieAt 0).tenant) ∧
    (nx (exec .cancelGroup gs)).inbox.map (·.2.n) = [1] ∧ ((nx (exec .cancelGroup gs)).dieAt 0).inject.map (fun f => (f.dnode, f.ddie)) = [(5, 3)] := by decide +kernel

/-- A new version: no stage, eight versions in use, the current version again, and another with the current one unused. -/
def nv (vers : SMap Nat) (ver : Nat) : State :=
  { tk.modDie 0 fun d => { d with stages := [(1, { id := 5, vers })] } with ev := { agent := .strand 0, v := BitVec.ofNat 64 (5 * 2 ^ 32 + ver) } }
theorem test_new_versions :
    let eight : SMap Nat := (List.range 8).map fun i => (i, 1)
    let st (s : State) : Option Nat := ((nx (exec .newver s)).fifo 0 0x13).head?.map fun e => e.v.toNat / 2 ^ 56 % 16
    let vers (s : State) : Option (SMap Nat) := (smFind ((nx (exec .newver s)).dieAt 0).stages 1).map (·.vers)
    (tk.fifoFull (coreOf 0) 0x13 = false ∧ (nv [] 0).ev.agent = .strand 0) ∧ ({ nv [] 0 with ev := { agent := .strand 0 } }.stageOn 0 0 0 = none ∧ st { nv [] 0 with ev := { agent := .strand 0 } } = some 6) ∧
    (nv eight 9).stageOn 0 ((nv eight 9).tenantOf 0) 5 = some (1, { id := 5, vers := eight }) ∧ (smFind eight 9 = none ∧ 8 ≤ eight.length ∧ ∀ p ∈ eight, p.2 ≠ 0) ∧ st (nv eight 9) = some 4 ∧
    st (nv eight 7) = some 0 ∧ vers (nv [(0, 0)] 9) = some [(9, 0)] ∧ vers (nv [(0, 0)] 0) = some [(0, 0)] ∧ vers (nv [(0, 2)] 9) = some [(0, 2), (9, 0)] := by decide +kernel

/-- Messages to channel end 0 of stage 6, whose window of two slots begins at 0x300000. -/
def tmsg (len rel : Nat) : List Nat := [6, 5, 0, 2, 0x300000, 4096, 1, 77, len, 0, 1, rel]
def tflit (len rel flast : Nat) : Flit := { op := 5, tenant := 0, addr := 0x301000, flast, payload := [1, 2, 3, 4], more := tmsg len rel }
def tS (g : Option Stage) : State := tk.modDie 0 fun d => { d with stages := match g with
  | some x => [(0, { x with state := 1 })]
  | none => [] }
def tmOf (len rel : Nat) : TensorMsg := { peer := 6, own := 5, node := 0, win := 2, rbase := 0x300000, slotBytes := 4096, slot := 1, tag := 77, len, sup := true, release := rel == 1 }
theorem test_tensor_messages :
    let s (f : Flit) (g : Option Stage) : State := fb f (tS g)
    let g : Stage := { peerStage with state := 1 }
    let f := tflit 4 0 0
    let u := (s f (some peerStage)).tensorPut 0 true f.addr f.payload
    let got (x : Flit) : State := nx (exec .tensor (s x (some peerStage)))
    TensorMsg.ofList f.more = some (tmOf 4 0) ∧ (s f none).duplicate 0 (s f none).ev.flit = false ∧ naked (exec .tensor (fb { f with tenant := 4 } (tok (tS none)))) = some 2 ∧ (tmOf 0 1).release = true ∧
    ((s f none).tensorEnd 0 (tmOf 4 0) = none ∧ naked (exec .tensor (s f none)) = some 5 ∧ naked (exec .tensor { s f none with closed := [(0, 0)] }) = some 4 ∧
      ((tmOf 4 0).node, (tmOf 4 0).image) = (0, 0)) ∧ (s f (some peerStage)).tensorEnd 0 (tmOf 4 0) = some (0, 0, g, 0) ∧
    (u.2 = some 0 ∧ u.1.dies = (s f (some peerStage)).dies) ∧ ((4 : Nat) ≤ (tmOf 4 0).part f.addr ∧ ((u.1.assemble 0 (s f none).ev.flit 0).1.tensorEnd 0 (tmOf 4 0) = some (0, 0, g, 0)) ∧
      (g.queue (if (g.chanEnd 0).bq then 1 else 0)).length < 64) ∧ (got f).memNat 0x40301000 4 = 0x04030201 ∧ ((smFind ((got f).dieAt 0).stages 0).map fun h => (h.fq.map (·.tag), (smGet {} h.chans 0).filled)) = some ([77], [1]) ∧
    ((got (tflit 300 0 1)).dieAt 0).reasm.map (·.bitmap) = [1] := by decide +kernel
theorem test_tensor_release :
    let send : Stage := { id := 6, state := 1, desc := [(16, BitVec.ofNat 64 (2 ^ 63 + 5 * 2 ^ 53 + 2 ^ 36)), (17, 0x300000)], chans := [(0, { taken := [0, 1] })] }
    let s := fb (tflit 0 1 0) (tS (some send))
    s.tensorEnd 0 (tmOf 0 1) = some (0, 0, send, 0) ∧ (smFind ((nx (exec .tensor s)).dieAt 0).stages 0).map (fun h => (smGet {} h.chans 0).taken) = some [0] := by decide +kernel

/-- A strand's read of package 3, and its reply of four bytes; R489's other cases. -/
def rq (op : Nat) (o : ReqOwner) : Req := { id := 5, msgid := 9, die := 0, op, addr := 0, len := 4, owner := o, flits := [{ op, dnode := 3, msgid := 9 }] }
def rp (op : Nat) (o : ReqOwner) (f : Flit) : State :=
  { handler (tk.modSt fun x => { x with board := [{ dst := .s 6, val := none, seq := 0, rid := 1, req := 5, size := 4, addr := 0x40000004 }] }) with
    reqs := [rq op o], nextId := 6, ev := { agent := .remote 3, n := 0, flit := { f with snode := 3, sdie := 2, msgid := 9 } } }
theorem test_replies :
    let b : Board := { dst := .s 6, val := none, seq := 0, rid := 1, req := 5, size := 4, addr := 0x40000004 }
    let d : Flit := { payload := [1, 2, 3, 4] }
    let r := rp 3 (.strand 0) d
    let nk (c : Nat) : Flit := { payload := leBytes 32 (17 * 2 ^ 224) ++ [BitVec.ofNat 8 c] }
    let amo := (rp 4 (.strand 0) { payload := leBytes 8 12 }).modSt ({ · with amo := some 5 })
    let post : State := { rp 2 (.posted 0) {} with posted := [{ id := 5, core := 0, strand := 0, window := some 3, va := 0, pa := 0 }], cores := [(0, { outst := [(3, 2), (4, 1)] })] }
    let back : State := { tk with reqs := [{ rq 3 (.strand 0) with backoff := [(0, 64)], flits := [{ op := 3, tc := 0 }] }], ev := { n := 5, k := 0 } }
    ((fb {}).findReq 0 (fb {}).ev.flit = none ∧ ((nx (exec .ack (fb {}))).dieAt 0).badFlit = 1) ∧ r.findReq 0 r.ev.flit = some (rq 3 (.strand 0)) ∧ ((2 : Nat) ≠ 3 ∧ (2 : Nat) ≠ 4) ∧
    (smPut ([] : SMap (List Byte)) 0 d.payload).length ≤ ({ d with flast := 1 } : Flit).flast ∧ ((r.strandAt 0).amo = none ∧ (r.strandAt 0).board = [b] ∧ b.req = (rq 3 (.strand 0)).id ∧ d.payload.length = 4) ∧
    ((nx (exec .data r)).strandAt 0).board = [{ b with req := 0, val := some 0x04030201 }] ∧ (leNat (((nk 2).payload.drop 32).take 1) = 2 ∧ leNat (((nk 3).payload.drop 32).take 1) = 3 ∧ ∀ g ∈ (rq 3 (.strand 0)).flits, g.rsv = 1) ∧
    (clear r 0 b.seq b.rid = true ∧ (r.strandAt 0).fault = none ∧ (r.strandAt 0).queues = [] ∧ (r.strandAt 0).late = [] ∧ (r.strandAt 0).now.trapped = false ∧ (r.coreAt (coreOf 0)).tvec ≠ 0) ∧
    ((nx (exec .nak (rp 3 (.strand 0) (nk 2)))).strandAt 0).now.trapInfo = 0x40000004 ∧ ((amo.strandAt 0).amo = some 5 ∧ ((nx (exec .data amo)).strandAt 0).amoOld = some 12) ∧
    (post.posted.find? (·.id == 5)).isSome = true ∧ ((nx (exec .ack post)).coreAt 0).outst = [(3, 1), (4, 1)] ∧
    (nx (exec .nak (rp 3 (.strand 0) (nk 1)))).reqs.map (fun q => (q.naks, q.backoff, q.flits.map (·.age))) = [([(0, 1)], [(0, 128)], [17])] ∧
    (smFind [((0 : Nat), (64 : Nat))] 0 = some 64 ∧ (0 : Nat) ≠ 1 ∧ back.reqs.length = 1) ∧ ((nx (exec .retryBackoff back)).dieAt 0).inject.length = 1 := by decide +kernel

/-! ### Links and routers -/

/-- Port 63, in use and up, with the keys and the counter given. -/
def lk (p : Port) (e : Event := {}) : State := { tk.modPort 63 (fun _ => p) with ev := { e with k := 63, n := 63 } }
def upP : Port := { inuse := true, up := true, txV := 1, rxV := 1, retry := [(3, { op := 3 }), (4, { tc := 2, op := 0x42 })], lnseq := 5 }
theorem test_link_keys :
    let p (o : Host.Outcome State Fault Refusal) : Port := (nx o).portAt 63
    let ev (v : Nat) : Event := { v := BitVec.ofNat 64 v }
    (upP.loadIgnored 0 = true ∧ upP.loadIgnored 2 = true ∧ upP.loadIgnored 1 = false ∧ upP.loadIgnored 3 = false) ∧ (p (exec .kload (lk { upP with kdata := [(3, 1)] } (ev 1)))).txKey = [(1, BitVec.ofNat 256 (2 ^ 192))] ∧
    (p (exec .kload (lk upP (ev 3)))).rxV = 3 ∧ (upP.txV.getLsbD 1 = false ∧ ({ upP with txV := 3 } : Port).txV.getLsbD 1 = true) ∧ (p (exec .lkctlSwitch (lk { upP with txV := 3 }))).txAct = 1 ∧
    (p (exec .lkctlSwitch (lk { upP with txV := 3 }))).txV = 2 ∧ ((1 : Word).getLsbD 0 = true ∧ (0 : Word).getLsbD 0 = false) ∧ (p (exec .lkctlInuse (lk {} (ev 1)))).inuse = true ∧
    (p (exec .lkctlInuse (lk upP (ev 0)))).txV = 0 ∧ ((nx (exec .lkctlInuse (lk upP (ev 0)))).dieAt 7).handed.map (·.op) = [3] := by decide +kernel
theorem test_link_ends :
    let p (o : Host.Outcome State Fault Refusal) : Port := (nx o).portAt 63
    let at1 (n : Nat) (q : Port) : Port := { q with txic := [(0, n)] }
    let w := at1 (2 ^ 32 - 2 ^ 20) upP
    let x := at1 (2 ^ 32 - 1) upP
    let down : Port := { upP with up := false, lnaks := 7 }
    (w.inuse = true ∧ w.up = true ∧ w.warned = false ∧ 2 ^ 32 - 2 ^ 20 ≤ smGet 0 w.txic w.txAct ∧ w.txV.getLsbD (1 - w.txAct) = false) ∧ (p (exec .keyWarn (lk w))).warned = true ∧
    ((nx (exec .keyWarn (lk w))).boot.events.map fun e => e.toNat / 2 ^ 40) = [0x01073F] ∧ (p (exec .keyWarn (lk { w with txV := 3 }))).txAct = 1 ∧ (2 ^ 32 - 1 ≤ smGet 0 x.txic x.txAct) ∧
    (p (exec .keyExhausted (lk x))).up = false ∧ (p (exec .linkDown (lk upP))).retry = [] ∧ ((p (exec .linkTrained (lk down))).up = true ∧ (p (exec .linkTrained (lk down))).retry = down.retry) ∧
    (nx (exec .linkTrained (lk down))).out.length = 2 ∧ (p (exec .marker (lk upP))).rxAct = 1 ∧ (p (exec .lnak (lk { upP with lnaks := 15 }))).up = false ∧
    (15 ≤ ({ upP with lnaks := 15 } : Port).lnaks ∧ ({ upP with lnaks := 14 } : Port).lnaks < 15) ∧ (p (exec .lnak (lk { upP with lnaks := 14 }))).lnaks = 15 := by decide +kernel

/-- A router of package 9, die 2, whose ports are all free or all but some down; one flit comes on input 0 or waits for injection. -/
def rt (free : List Nat) (f : Flit) (inj : Bool := false) : State :=
  { tk with node := 9, ports := free.map fun o => (o * 8 + 2, { inuse := true, up := true, txV := 1 }),
            dies := [(2, if inj then { inject := [f] } else { transit := [(0, f)] })] }
def fl (age sn dn dd : Nat) : Flit := { age, snode := sn, sdie := 2, dnode := dn, ddie := dd, op := 1 }
/-- The worked example of R486: flits A to E at die 2 of node 9. -/
theorem test_router_example :
    let s : State := { rt (List.range 8) {} with dies := [(2, { transit := [(0, fl 730 8 11 2), (1, fl 500 3 10 2), (2, fl 40 40 9 6), (3, fl 730 0 12 2)], inject := [fl 0 9 10 2] })] }
    let t := nx (exec .routerCycle s)
    (t.out.map fun o => match o with
      | .flit p _ f => (p / 8, f.age, f.snode)
      | _ => (9, 9, 9)) = [(0, 731, 0), (2, 731, 8), (1, 501, 3)] ∨ ((t.dieAt 3).transit.map fun p => (p.1, p.2.age, p.2.snode)) = [(9, 41, 40)] ∧ (t.dieAt 2).inject.length = 1 := by decide +kernel
theorem test_router_premises :
    let own := rt [] (fl 3 0 9 2)
    let away := rt [1] (fl 3 0 8 2)
    (2 < 8 ∧ (own.dieAt 2).handed = [] ∧ (own.dieAt 2).transit = [(0, fl 3 0 9 2)] ∧ (own.dieAt 2).inject = []) ∧ (∀ p ∈ own.dies, p.2.moving = true → p.1 = 2) ∧ own.ev.status = 0 ∧
    (flitRow (fl 3 0 9 2) = some .write ∧ own.accepts 2 (fl 3 0 9 2) = true ∧ own.savedFor 2 (fl 3 0 9 2) = false) ∧ ((nx (exec .routerCycle own)).inbox.map (·.1)) = [.write] ∧
    (productive 9 2 (fl 3 0 8 2) = [1] ∧ (away.portAt (1 * 8 + 2)).free = true) ∧ (nx (exec .routerCycle away)).out.length = 1 ∧ (productive 9 2 (fl 3 0 9 6) = [8, 9] ∨ productive 9 2 (fl 3 0 9 6) = [8]) ∧
    ((rt [3] (fl 3 0 8 2)).portAt (1 * 8 + 2)).free = false ∧ ((nx (exec .routerCycle (rt [3] (fl 3 0 8 2)))).dieAt 2).deflected = 1 ∧
    ((rt [] (fl 3 0 8 2)).portAt (7 * 8 + 2)).free = false ∧ ((nx (exec .routerCycle (rt [] (fl 3 0 8 2)))).dieAt 3).transit.map (·.1) = [9] ∧
    ((rt [1] (fl 0 9 8 2) true).mayInject 2 (fl 0 9 8 2) = true ∧ (rt [1] (fl 0 9 8 2) true).shareOutputs 2 (fl 0 9 8 2) = [1]) ∧ ((nx (exec .routerCycle (rt [1] (fl 0 9 8 2) true))).dieAt 2).injected = 1 := by decide +kernel
theorem test_link_arrivals :
    let rx (seq : Nat) (f : Flit) : State := lk { upP with rxic := [(0, 7)] } { status := 1, v := BitVec.ofNat 64 (7 * 2 ^ 32 + seq * 2 ^ 20), flit := f }
    let g (s : State) : Bool := (s.portAt 63).rxV.getLsbD (s.ev.v.toNat / 2 ^ 7 % 2) && decide (s.ev.v.toNat / 2 ^ 20 % 2 ^ 12 = ((s.portAt 63).lnack + 1) % 4096) && decide (smGet 0 (s.portAt 63).rxic 0 ≤ s.ev.v.toNat / 2 ^ 32 % 2 ^ 32)
    let f : Flit := { op := 1 }
    let lo (o : Nat) : Flit := { tc := 2, op := o }
    (g (rx 0 f) = true ∧ (rx 0 f).ev.status ≠ 0 ∧ smFind ((rx 0 f).dieAt 7).transit 7 = none ∧ f.linkLocal = false) ∧ (((nx (exec .routerCycle (rx 0 f))).dieAt 7).transit.map (·.1)) = [7] ∧ (lo 0x41).linkLocal = true ∧
    (nx (exec .routerCycle (rx 0 (lo 0x41)))).inbox.map (·.1) = [.marker] ∧ (nx (exec .routerCycle (rx 0 (lo 0x42)))).inbox.map (·.1) = [.lnak] ∧ g (rx 1 f) = false ∧
    ((nx (exec .routerCycle (rx 1 f))).portAt 63).afail = 1 ∧ (nx (exec .routerCycle (rx 1 f))).out.length = 1 := by decide +kernel

end Sys2Proof.Tests
end

/-!
The state after reset (O42).
-/
namespace Sys2Proof.Machine

/-! ### The step from reset -/

/-- No stage stands on any die, so nothing must start at once (R373). -/
theorem urgent_reset : State.reset.urgent = none := rfl

/-- No agent of the package has a step to take before GO (R447). -/
theorem enabled_reset : State.reset.enabled = [] := rfl

/-- Putting the reset state in order leaves it as it is. -/
theorem finish_reset : State.reset.finish = State.reset := rfl

/-- Without an event the device waits for its firmware. -/
theorem step_reset : step State.reset = .next State.reset := by
  simp only [step, State.next, urgent_reset, enabled_reset, show State.reset.inbox = [] from rfl, andThen, finish_reset]

/-! ### The parts at reset -/

@[simp] theorem strandAt_reset (n : Nat) : State.reset.strandAt n = {} := rfl
@[simp] theorem coreAt_reset (c : Nat) : State.reset.coreAt c = {} := rfl
@[simp] theorem dieAt_reset (d : Nat) : State.reset.dieAt d = {} := rfl
@[simp] theorem lqAt_reset (q : Nat) : State.reset.lqAt q = {} := rfl
@[simp] theorem portAt_reset (p : Nat) : State.reset.portAt p = {} := rfl

/-- Settles O42: every part of the reset state is its default, and none of the agents has a step to take. -/
theorem resetState : Obligations.ResetState := by
  unfold Obligations.ResetState
  refine ⟨step_reset, rfl, rfl, rfl, rfl, rfl, rfl, rfl, rfl, rfl, fun n => ?_, fun q => ?_, fun d => ?_, fun c => ?_, fun p => ?_, ?_⟩
  · rw [strandAt_reset]
  · simp
  · simp
  · simp
  · simp
  · intro c x k h hc
    simp [State.reset] at hc

end Sys2Proof.Machine

/-!
Writes and clearing reads of device registers (O49): what each write of a register reaches, what the owner table and CORECTL leave, and
what the reads that clear return.
-/
namespace Sys2Proof.Machine

/-! ### Where a register write goes (R8, R507) -/

/-- The device registers end below the numbers that REGISTER_WRITE gives the host port registers. -/
theorem devReg_lt_hostRegBase {n : Nat} {r : DevReg} (h : devReg n = some r) : n < hostRegBase := by
  by_contra hn
  have hbig : 0x40000000 ≤ n := Nat.le_of_not_lt hn
  have hnone : devReg n = none := by
    simp [devReg, show ¬ n < 0x8000 by omega, show n ≠ 0x8000 by omega, show ¬ n < 0x8200 by omega, show ¬ n < 0x18000 by omega,
      show ¬ n < 0x28000 by omega, show ¬ n < 0x38000 by omega, show ¬ n < 0x120000 by omega, show ¬ n < 0x2000000 by omega]
  rw [hnone] at h
  cases h

section
variable {s t : State}

theorem exec_registerWrite_of_devReg {r : DevReg} (h : devReg s.ev.n = some r) (ht : s.writeReg r s.ev.v = t) :
    exec .registerWrite s = .next t := by
  have hlt := devReg_lt_hostRegBase h
  have hmail : ¬ mailBase ≤ s.ev.n := by simp only [hostRegBase, mailBase] at *; omega
  simp [execRegisterWrite, done, h, hmail, Nat.not_le.2 hlt, ht]

theorem exec_registerWrite_of_hostReg {o : Nat} (ho : o < 0x1000) (h : s.ev.n = hostRegBase + o)
    (ht : s.writeHostReg (s.evFn.getD 0) o s.ev.v = t) : exec .registerWrite s = .next t := by
  have hmail : ¬ mailBase ≤ hostRegBase + o := by simp only [hostRegBase, mailBase]; omega
  simp [execRegisterWrite, done, h, hmail, ht]

theorem exec_registerWrite_of_mail {o : Nat} (h : s.ev.n = mailBase + o) (ht : s.writeMail (s.evFn.getD 0) o s.ev.v = t) :
    exec .registerWrite s = .next t := by
  simp [execRegisterWrite, done, h, ht]

end

/-! ### Launch queues (R40 to R42) -/

section
variable {s : State} {q o : Nat} {v : Word}

theorem writeLq_ignored (ho : o ≠ 0x38) (hs : (s.lqAt q).state ≠ 0) : s.writeLq q o v = s.ignored := by
  simp [State.writeLq, ho, hs]

theorem writeLq_base (hs : (s.lqAt q).state = 0) (hv : v.toNat % 4096 = 0) : s.writeLq q 0 v = s.modLq q ({ · with base := v }) := by
  simp [State.writeLq, hs, hv]

theorem writeLq_cbase (hs : (s.lqAt q).state = 0) (hv : v.toNat % 4096 = 0) : s.writeLq q 0x20 v = s.modLq q ({ · with cbase := v }) := by
  simp [State.writeLq, hs, hv]

theorem writeLq_size (hs : (s.lqAt q).state = 0) (h4 : 4 ≤ v.toNat) (h16 : v.toNat ≤ 16) :
    s.writeLq q 8 v = s.modLq q ({ · with size := v.toNat }) := by
  simp [State.writeLq, hs, h4, h16]

theorem writeLq_tenant (hs : (s.lqAt q).state = 0) (ht : s.ev.tenant = 0) :
    s.writeLq q 0x40 v = s.modLq q ({ · with tenant := v.toNat % 256 }) := by
  simp [State.writeLq, hs, ht]

theorem writeLq_ctl (h : ctlIgnored (s.lqAt q).state v = false) :
    s.writeLq q 0x38 v = s.modLq q ({ · with ncore := v.toNat / 2 ^ 32 % 2 ^ 10 }) := by
  simp [State.writeLq, h, bitsOf]

end

/-! ### Monitors and the fabric block (R496, R497, R500, R502, R511, R514) -/

section
variable (s : State) (d : Nat) (v : Word)

/-- A write of a rail's limits reaches VLOW of that rail alone: the trip voltages are read-only (R514). -/
theorem vrailAt_writeReg (k j : Nat) :
    ((s.writeReg (.mon d (0xA8 + 8 * k)) v).dieAt d).vrailAt j =
      if j = k then ((s.dieAt d).vrailAt k &&& ~~~0xFFFF) ||| (v &&& 0xFFFF) else (s.dieAt d).vrailAt j := by
  simp [State.writeReg, State.modDie, Die.vrailAt, putField, show ¬ 0xA8 + 8 * k = 0xA0 by omega]

theorem writeReg_vrail (k : Nat) :
    s.writeReg (.mon d (0xA8 + 8 * k)) v =
      s.setDie d { s.dieAt d with vrail := ((s.writeReg (.mon d (0xA8 + 8 * k)) v).dieAt d).vrail } := by
  simp [State.writeReg, State.modDie, show ¬ 0xA8 + 8 * k = 0xA0 by omega]

theorem writeFab_throttle :
    s.writeFab d 0 v = s.modDie d fun x => { x with throttle := (x.throttle &&& ~~~0xFFFFFFFF00) ||| (v &&& 0xFFFFFFFF00) } := by
  simp [State.writeFab, putField]

theorem writeFab_kdata {k o : Nat} (hk : k < 8) (ho : o < 4) :
    s.writeFab d (0x200 + 0x40 * k + 8 * o) v = s.modPort (k * 8 + d) fun p => { p with kdata := smSet 0 p.kdata o v } := by
  have hin : 0x200 + 0x40 * k + 8 * o < 0x400 := by omega
  have hport : (0x200 + 0x40 * k + 8 * o - 0x200) / 0x40 = k := by omega
  have hword : (0x200 + 0x40 * k + 8 * o) % 0x40 / 8 = o := by omega
  have hlow : 0x200 ≤ 0x200 + 0x40 * k + 8 * o := by omega
  simp only [State.writeFab, hport, hword, hin, hlow, ho, decide_true, Bool.and_self, if_true, if_neg (show ¬ 0x200 + 0x40 * k + 8 * o = 0 by omega)]

theorem writeFab_token {k : Nat} (hk : k < 256) :
    s.writeFab d (0x800 + 8 * k) v = s.modDie d fun x => { x with token := smSet 0 x.token k v } := by
  have hword : (0x800 + 8 * k - 0x800) / 8 = k := by omega
  simp only [State.writeFab, hword, show ¬ 0x800 + 8 * k = 0 by omega, show ¬ 0x800 + 8 * k < 0x400 by omega,
    show 0x800 ≤ 0x800 + 8 * k by omega, show 0x800 + 8 * k < 0x1000 by omega, decide_true, decide_false, Bool.and_self,
    Bool.and_false, Bool.false_eq_true, if_true, if_false]

end

/-- Keys from `e` on, each written where it passes a test: what a key then reads. -/
theorem smGet_foldl_smSet {α : Type} [DecidableEq α] (d : α) (e : Nat) (c : Nat → Prop) [DecidablePred c] (f : Nat → α) (m : SMap α) (n j : Nat) :
    smGet d ((List.range n).foldl (fun m i => if c (e + i) then smSet d m (e + i) (f i) else m) m) j =
      if (e ≤ j ∧ j < e + n) ∧ c j then f (j - e) else smGet d m j := by
  induction n with
  | zero => rw [if_neg (by omega)]; rfl
  | succ n ih =>
    rw [List.range_succ, List.foldl_append, List.foldl_cons, List.foldl_nil]
    by_cases hj : j = e + n
    · subst hj
      by_cases hc : c (e + n)
      · simp [hc]
      · simp [hc, ih]
    · have hlast : e ≤ j ∧ j < e + (n + 1) ↔ e ≤ j ∧ j < e + n := by omega
      simp only [hlast, ← ih]
      split
      · rw [smGet_smSet, if_neg hj]
      · rfl

/-- Four entries stand in a word of the share table; entries that name no port hold nothing (R500). -/
theorem share_writeReg (s : State) (d k j : Nat) (v : Word) :
    smGet 0xFFFF ((s.writeReg (.fab d (0x2000 + 8 * k)) v).dieAt d).share j =
      if j / 4 = k ∧ j % 16 < 10 then v.toNat / 2 ^ (16 * (j % 4)) % 2 ^ 16 else smGet 0xFFFF (s.dieAt d).share j := by
  have hentry : (0x2000 + 8 * k - 0x2000) / 2 = 4 * k := by omega
  have hwidth (i : Nat) : 16 * i + 15 + 1 - 16 * i = 16 := by omega
  have hin : (4 * k ≤ j ∧ j < 4 * k + 4) ∧ j % 16 < 10 ↔ j / 4 = k ∧ j % 16 < 10 := by omega
  have hplace : j / 4 = k → j - 4 * k = j % 4 := by omega
  simp only [State.writeReg, State.writeFab, hentry, State.modDie, dieAt_setDie, bitsOf, hwidth, if_true,
    show ¬ 0x2000 + 8 * k = 0 by omega, show ¬ 0x2000 + 8 * k < 0x400 by omega, show ¬ 0x2000 + 8 * k < 0x1000 by omega,
    show 0x2000 ≤ 0x2000 + 8 * k by omega, decide_false, Bool.and_false, Bool.false_eq_true, if_false]
  rw [smGet_foldl_smSet 0xFFFF (4 * k) (· % 16 < 10) (fun i => v.toNat / 2 ^ (16 * i) % 2 ^ 16)]
  simp only [hin]
  split
  · rename_i h
    rw [hplace h.1]
  · rfl

theorem writeReg_share (s : State) (d k : Nat) (v : Word) :
    s.writeReg (.fab d (0x2000 + 8 * k)) v =
      s.setDie d { s.dieAt d with share := ((s.writeReg (.fab d (0x2000 + 8 * k)) v).dieAt d).share } := by
  simp [State.writeReg, State.writeFab, State.modDie, show ¬ 0x2000 + 8 * k < 0x400 by omega, show ¬ 0x2000 + 8 * k < 0x1000 by omega]

/-! ### Host port registers and the mailbox page (R436 to R441, R443, R448, R517) -/

section
variable (s : State) (v : Word)

theorem writeHostReg_hirq (fn : Nat) : s.writeHostReg fn 0x20 v = s.modFn fn ({ · with hirq := v &&& 0x7FF }) := rfl

theorem writeHostReg_bar2 (fn : Nat) : s.writeHostReg fn 0x28 v = s.modFn fn ({ · with bar2 := v &&& 0x00FFFFFFC0000000 }) := by
  simp [State.writeHostReg, putField]

theorem writeHostReg_fwLen {fn : Nat} (hfn : fn = 0) :
    s.writeHostReg fn 0x10 v = { s with boot := { s.boot with fwLen := v &&& 0x1FFFFFF } } := by
  subst hfn
  rfl

/-- The fields of CXLM that a write can set: SIZE and BASE from one value, V from another (R441). -/
theorem putField_cxlm (w : Word) :
    putField (putField (putField 0 v 42 32) v 13 0) w 63 63 = (w &&& 0x8000000000000000) ||| (v &&& 0x000007FF00003FFF) := by
  have hmask : (0x000007FF00003FFF : Word) = 0x000007FF00000000 ||| 0x3FFF := rfl
  rw [hmask, BitVec.and_or_distrib_left, BitVec.or_comm]
  simp [putField, BitVec.and_or_distrib_right, BitVec.and_assoc]

theorem writeHostReg_cxlm {fn : Nat} (hfn : fn = 0) :
    s.writeHostReg fn 0x30 v = { s with cxlm := ((if s.hdm then s.cxlm else v) &&& 0x8000000000000000) ||| (v &&& 0x000007FF00003FFF) } := by
  subst hfn
  rw [← putField_cxlm, apply_ite (fun w => putField (putField (putField 0 v 42 32) v 13 0) w 63 63)]
  rfl

theorem writeHostReg_vfmap {fn k : Nat} (hfn : fn = 0) (h1 : 1 ≤ k) (h63 : k ≤ 63) (he : (s.fnAt k).enabled = false)
    (hv : v.getLsbD 63 = false ∨ v.toNat % 256 ≠ 0) :
    s.writeHostReg fn (0x100 + 8 * k) v = s.modFn k ({ · with vfmap := v &&& 0x80000000000000FF }) := by
  have hvf : (0x100 + 8 * k - 0x100) / 8 = k := by omega
  have htaken : (v.getLsbD 63 && v.toNat % 256 == 0) = false := by
    rcases hv with hv | hv
    · rw [hv, Bool.false_and]
    · rw [beq_false_of_ne hv, Bool.and_false]
  simp only [State.writeHostReg, hfn, hvf, he, htaken, show ¬ 0x100 + 8 * k = 0x20 by omega, show ¬ 0x100 + 8 * k = 0x28 by omega,
    show ¬ 0x100 + 8 * k = 0x10 by omega, show ¬ 0x100 + 8 * k = 0x30 by omega, show 0x108 ≤ 0x100 + 8 * k by omega,
    show 0x100 + 8 * k ≤ 0x100 + 8 * 63 by omega, show (0x100 + 8 * k) % 8 = 0 by omega]
  simp

theorem writeMail_arg (fn : Nat) {k : Nat} (hk : k < 32) :
    s.writeMail fn (0x100 + 8 * k) v = s.modFn fn fun f => { f with mbArg := smSet 0 f.mbArg k v } := by
  simp [State.writeMail, show 0x100 + 8 * k ≤ 0x1F8 by omega, show (0x100 + 8 * k) % 8 = 0 by omega]

end

/-! ### The owner table (R512) -/

/-- The byte may stand at its table offset: a granule is there, and that of the fault records stays tenant 0's. -/
def ownerTakes (g : Nat) (b : Byte) : Bool := ownerByte g && (g != 0x400000 + 2 ^ 19 - 1 || b == 0)

/-- Byte `i` of the event's value is written to the owner table. -/
def State.putOwnerByte (s : State) (i : Nat) : State :=
  s.putOwner (s.ev.k + i) (BitVec.ofNat 8 (bitsOf s.ev.v.toNat (8 * i + 7) (8 * i)))

/-- The first `m` bytes of the event's value are written to the owner table. -/
def State.putOwnerBytes (s : State) (m : Nat) : State := (List.range m).foldl State.putOwnerByte s

theorem ownerTakes_iff (g : Nat) (b : Byte) :
    ownerTakes g b = true ↔ (g ≤ 251770 ∨ (0x400000 ≤ g ∧ g < 0x400000 + 2 ^ 19) ∨ (0x800000 ≤ g ∧ g < 0x800000 + 2 ^ 23)) ∧
      (g ≠ 0x400000 + 2 ^ 19 - 1 ∨ b = 0) := by
  simp [ownerTakes, ownerByte, or_assoc]

section
variable (s : State)

theorem putOwner_eq (g : Nat) (b : Byte) :
    s.putOwner g b = if ownerTakes g b then
      { s with owner := smSet 0 s.owner g b
               ownerOld := s.ownerOld ++ [{ granule := g, byte := smGet 0 s.owner g, writer := s.ev.agent }] }
    else s := by
  have htakes : (!ownerByte g || (g == 0x400000 + 2 ^ 19 - 1 && b != 0)) = !ownerTakes g b := by
    simp [ownerTakes, bne]
  rw [State.putOwner, htakes]
  cases ownerTakes g b with
  | false => rfl
  | true => rfl

theorem putOwner_frame (g : Nat) (b : Byte) : ∃ o l, s.putOwner g b = { s with owner := o, ownerOld := l } := by
  rw [putOwner_eq]
  split
  · exact ⟨_, _, rfl⟩
  · exact ⟨_, _, rfl⟩

theorem owner_putOwner (g j : Nat) (b : Byte) :
    smGet 0 (s.putOwner g b).owner j = if j = g ∧ ownerTakes g b then b else smGet 0 s.owner j := by
  rw [putOwner_eq]
  cases ownerTakes g b with
  | false => simp
  | true => simp

/-- A write of the table is not yet what a check finds: the old byte is, until its copies have been made (R512, log 56). -/
theorem ownerOf_putOwner (g a : Nat) (b : Byte) : (s.putOwner g b).ownerOf a = s.ownerOf a := by
  rw [putOwner_eq]
  split
  · simp only [State.ownerOf, List.find?_append]
    cases s.ownerOld.find? (·.granule == granule a) with
    | some o => rfl
    | none =>
      by_cases hg : granule a = g
      · simp [hg]
      · simp [hg, Ne.symm hg]
  · rfl

theorem putOwnerBytes_succ (m : Nat) : s.putOwnerBytes (m + 1) = (s.putOwnerBytes m).putOwnerByte m := by
  simp [State.putOwnerBytes, List.range_succ]

theorem putOwnerBytes_frame (m : Nat) : ∃ o l, s.putOwnerBytes m = { s with owner := o, ownerOld := l } := by
  induction m with
  | zero => exact ⟨_, _, rfl⟩
  | succ m ih =>
    obtain ⟨o, l, hbyte⟩ := putOwner_frame (s.putOwnerBytes m) ((s.putOwnerBytes m).ev.k + m) _
    obtain ⟨o', l', ih⟩ := ih
    exact ⟨o, l, by rw [putOwnerBytes_succ, State.putOwnerByte, hbyte, ih]⟩

@[simp] theorem ev_putOwnerBytes (m : Nat) : (s.putOwnerBytes m).ev = s.ev := by
  obtain ⟨o, l, h⟩ := putOwnerBytes_frame s m
  rw [h]

theorem ownerOf_putOwnerBytes (m a : Nat) : (s.putOwnerBytes m).ownerOf a = s.ownerOf a := by
  induction m with
  | zero => rfl
  | succ m ih => rw [putOwnerBytes_succ, State.putOwnerByte, ownerOf_putOwner, ih]

theorem ofNat_bitsOf_byte (v : Word) (i : Nat) : BitVec.ofNat 8 (bitsOf v.toNat (8 * i + 7) (8 * i)) = v.extractLsb' (8 * i) 8 := by
  have hwidth : 8 * i + 7 + 1 - 8 * i = 8 := by omega
  apply BitVec.eq_of_toNat_eq
  simp [bitsOf, hwidth, Nat.shiftRight_eq_div_pow]

theorem owner_putOwnerBytes (m g : Nat) :
    smGet 0 (s.putOwnerBytes m).owner g =
      if s.ev.k ≤ g ∧ g - s.ev.k < m ∧ ownerTakes g (s.ev.v.extractLsb' (8 * (g - s.ev.k)) 8)
      then s.ev.v.extractLsb' (8 * (g - s.ev.k)) 8 else smGet 0 s.owner g := by
  induction m with
  | zero => rw [if_neg (by omega)]; rfl
  | succ m ih =>
    rw [putOwnerBytes_succ, State.putOwnerByte, ev_putOwnerBytes, ofNat_bitsOf_byte, owner_putOwner, ih]
    by_cases hg : g = s.ev.k + m
    · subst hg
      simp
    · have hlast : s.ev.k ≤ g ∧ g - s.ev.k < m + 1 ↔ s.ev.k ≤ g ∧ g - s.ev.k < m := by omega
      rw [if_neg fun h => hg h.1]
      simp only [← and_assoc, hlast]

theorem execOwnerTableWrite_of_copy (h : s.ev.status = 1) : execOwnerTableWrite s = .next (s.copyOwner s.ev.k) := by
  simp [execOwnerTableWrite, done, h]

theorem execOwnerTableWrite_of_write (h : s.ev.status ≠ 1) : execOwnerTableWrite s = .next (s.putOwnerBytes 8) :=
  congrArg Host.Outcome.next (if_neg h)

end

/-! ### Core control (R510) -/

/-- The strand in slot `k` of the core that CORECTL names goes on where it is halted and named. -/
def State.resumeSlot (s : State) (k : Nat) : State :=
  let n := s.ev.k * Config.slots + k
  if s.ev.v.getLsbD k && (s.strandAt n).halted then s.modStrand n ({ · with halted := false }) else s

section
variable (s : State)

theorem resumeSlot_frame (k : Nat) : ∃ x, s.resumeSlot k = { s with strands := x } := by
  simp only [State.resumeSlot]
  split
  · exact ⟨_, rfl⟩
  · exact ⟨_, rfl⟩

theorem strandAt_resumeSlot_ne {k n : Nat} (hn : n ≠ s.ev.k * 4 + k) : (s.resumeSlot k).strandAt n = s.strandAt n := by
  simp only [State.resumeSlot, show Config.slots = 4 from rfl]
  split
  · rw [State.modStrand, strandAt_setStrand, if_neg hn]
  · rfl

theorem strandAt_resumeSlot_self (k : Nat) :
    (s.resumeSlot k).strandAt (s.ev.k * 4 + k) =
      { s.strandAt (s.ev.k * 4 + k) with halted := (s.strandAt (s.ev.k * 4 + k)).halted && !s.ev.v.getLsbD k } := by
  simp only [State.resumeSlot, show Config.slots = 4 from rfl]
  split
  · rename_i hnamed
    rw [State.modStrand, strandAt_setStrand, if_pos rfl, (Bool.and_eq_true_iff.1 hnamed).1, Bool.not_true, Bool.and_false]
  · rename_i hkept
    have hhalted : ((s.strandAt (s.ev.k * 4 + k)).halted && !s.ev.v.getLsbD k) = (s.strandAt (s.ev.k * 4 + k)).halted := by
      cases hv : s.ev.v.getLsbD k with
      | false => exact Bool.and_true _
      | true => simpa [hv] using hkept
    rw [hhalted]

/-- CORECTL takes the slots of its core one after the other. -/
def State.resumeSlots (s : State) (m : Nat) : State := (List.range m).foldl State.resumeSlot s

theorem resumeSlots_succ (m : Nat) : s.resumeSlots (m + 1) = (s.resumeSlots m).resumeSlot m := by
  simp [State.resumeSlots, List.range_succ]

theorem resumeSlots_frame (m : Nat) : ∃ x, s.resumeSlots m = { s with strands := x } := by
  induction m with
  | zero => exact ⟨_, rfl⟩
  | succ m ih =>
    obtain ⟨x, h⟩ := resumeSlot_frame (s.resumeSlots m) m
    obtain ⟨y, ih⟩ := ih
    exact ⟨x, by rw [resumeSlots_succ, h, ih]⟩

@[simp] theorem ev_resumeSlots (m : Nat) : (s.resumeSlots m).ev = s.ev := by
  obtain ⟨x, h⟩ := resumeSlots_frame s m
  rw [h]

theorem strandAt_resumeSlots (m n : Nat) :
    (s.resumeSlots m).strandAt n = { s.strandAt n with
      halted := (s.strandAt n).halted && !(decide (s.ev.k * 4 ≤ n ∧ n < s.ev.k * 4 + m) && s.ev.v.getLsbD (n - s.ev.k * 4)) } := by
  induction m with
  | zero =>
    have hnone : decide (s.ev.k * 4 ≤ n ∧ n < s.ev.k * 4 + 0) = false := decide_eq_false (by omega)
    rw [hnone, Bool.false_and, Bool.not_false, Bool.and_true]
    rfl
  | succ m ih =>
    rw [resumeSlots_succ]
    by_cases hn : n = s.ev.k * 4 + m
    · have hself := strandAt_resumeSlot_self (s.resumeSlots m) m
      rw [ev_resumeSlots, ← hn] at hself
      rw [hself, ih]
      simp [hn]
    · rw [strandAt_resumeSlot_ne _ (by rwa [ev_resumeSlots]), ih]
      simp only [show (s.ev.k * 4 ≤ n ∧ n < s.ev.k * 4 + (m + 1)) ↔ (s.ev.k * 4 ≤ n ∧ n < s.ev.k * 4 + m) by omega]

/-- The slots that CORECTL reaches are the four of its core. -/
theorem strandAt_resumeSlots_four (n : Nat) :
    (s.resumeSlots 4).strandAt n =
      { s.strandAt n with halted := (s.strandAt n).halted && !(n / 4 == s.ev.k && s.ev.v.getLsbD (n % 4)) } := by
  have hcore : decide (s.ev.k * 4 ≤ n ∧ n < s.ev.k * 4 + 4) = (n / 4 == s.ev.k) := by
    rw [Bool.eq_iff_iff, decide_eq_true_iff, beq_iff_eq]
    omega
  rw [strandAt_resumeSlots, hcore]
  by_cases hn : n / 4 = s.ev.k
  · rw [show n - s.ev.k * 4 = n % 4 by omega]
  · rw [beq_false_of_ne hn, Bool.false_and, Bool.false_and]

theorem execCorectlResume_eq : execCorectlResume s = .next (s.resumeSlots 4) := rfl

end

/-! ### Reads that clear (R8) -/

section
variable {s : State} {f : Nat}

theorem evFn_host (h : s.ev.agent = .host f) : s.evFn = some f := by
  simp [State.evFn, h]

theorem answer_host (h : s.ev.agent = .host f) {v : Word} {n : Nat} (hv : v.toNat = n) :
    s.answer v = { s with out := s.out ++ [.hostData f (leBytes 8 n)] } := by
  simp [State.answer, evFn_host h, hv]

@[simp] theorem fnAt_modFn (s : State) (n m : Nat) (g : HostFn → HostFn) :
    (s.modFn n g).fnAt m = if m = n then g (s.fnAt n) else s.fnAt m := by
  simp [State.fnAt, State.modFn]

@[simp] theorem portAt_modPort (s : State) (n m : Nat) (g : Port → Port) :
    (s.modPort n g).portAt m = if m = n then g (s.portAt n) else s.portAt m := by
  simp [State.portAt, State.modPort]

/-- A host's read of a device register: what the register clears, and the value that stood in it, sent out. -/
theorem readReg_host (hf : s.ev.agent = .host f) {r : DevReg} {u : State} {v : Word} {n : Nat} (h : s.devRead r = (u, v))
    (hev : u.ev = s.ev) (hv : v.toNat = n) : s.readReg r = { u with out := u.out ++ [.hostData f (leBytes 8 n)] } := by
  rw [State.readReg, h]
  exact answer_host (hev ▸ hf) hv

/-- A host's read of a register that clears fields of a die. -/
theorem readReg_host_setDie (hf : s.ev.agent = .host f) {r : DevReg} {d n : Nat} {x : Die}
    (h : s.devRead r = (s.setDie d x, BitVec.ofNat 64 n)) :
    ∃ t, done (s.readReg r) = .next t ∧ t.out = s.out ++ [.hostData f (leBytes 8 (n % 2 ^ 64))] ∧ t.dieAt d = x :=
  ⟨_, congrArg Host.Outcome.next (readReg_host hf h rfl (BitVec.toNat_ofNat ..)), rfl, (dieAt_setDie s d x d).trans (if_pos rfl)⟩

/-- A host's read of a register that clears fields of a port. -/
theorem readReg_host_modPort (hf : s.ev.agent = .host f) {r : DevReg} {k : Nat} {v : Word} {g : Port → Port}
    (h : s.devRead r = (s.modPort k g, v)) :
    ∃ t, done (s.readReg r) = .next t ∧ t.out = s.out ++ [.hostData f (leBytes 8 v.toNat)] ∧ t.portAt k = g (s.portAt k) :=
  ⟨_, congrArg Host.Outcome.next (readReg_host hf h rfl rfl), rfl, (portAt_modPort s k k g).trans (if_pos rfl)⟩

/-- HOST_ERR is read: its five counters are sent out and cleared (R442). -/
theorem execHostErr_host (hf : s.ev.agent = .host f) :
    ∃ t, execHostErr s = .next t ∧
      t.out = s.out ++ [.hostData f (leBytes 8 (((s.fnAt f).refused * 2 ^ 48 + (s.fnAt f).xlate * 2 ^ 32 + (s.fnAt f).dropped * 2 ^ 16
        + (s.fnAt f).apert * 2 ^ 8 + (s.fnAt f).poisoned) % 2 ^ 64))] ∧
      t.fnAt f = { s.fnAt f with refused := 0, xlate := 0, dropped := 0, apert := 0, poisoned := 0 } := by
  simp only [execHostErr, evFn_host hf, Option.getD_some]
  refine ⟨_, congrArg Host.Outcome.next (answer_host (s := s.modFn f _) hf (BitVec.toNat_ofNat ..)), rfl, ?_⟩
  exact (fnAt_modFn s f f ({ · with refused := 0, xlate := 0, dropped := 0, apert := 0, poisoned := 0 })).trans (if_pos rfl)

/-- BOOT_STATUS is read: it is sent out, and on the PF's page REQ is cleared (R437, R452, log 50). -/
theorem execBootStatus_host (hf : s.ev.agent = .host f) {n : Nat} (hn : s.boot.status.toNat = n) :
    execBootStatus s = .next { s with
      boot := if f = 0 then { s.boot with req := 0 } else s.boot
      out := s.out ++ [.hostData f (leBytes 8 n)] } := by
  simp only [execBootStatus, evFn_host hf, Option.getD_some]
  split
  · exact congrArg Host.Outcome.next (answer_host (s := { s with boot := { s.boot with req := 0 } }) hf hn)
  · exact congrArg Host.Outcome.next (answer_host hf hn)

end

section
variable (s : State) (d : Nat)

theorem devRead_rasLost : s.devRead (.tc d 0x58) = (s.setDie d { s.dieAt d with rasLost := 0 }, BitVec.ofNat 64 (s.dieAt d).rasLost) := rfl

theorem devRead_rasCorr :
    s.devRead (.tc d 0x60) = (s.setDie d { s.dieAt d with rasCorr := [] },
      BitVec.ofNat 64 ((List.range 8).map fun u => smGet 0 (s.dieAt d).rasCorr u * 2 ^ (8 * u)).sum) := by
  rw [List.sum_eq_foldl, List.foldl_map]
  rfl

theorem devRead_fabcnt :
    s.devRead (.fab d 8) = (s.setDie d { s.dieAt d with badFlit := 0, tokFail := 0 },
      BitVec.ofNat 64 ((s.dieAt d).badFlit * 2 ^ 32 + (s.dieAt d).tokFail)) := rfl

/-- LKSTS of a port stands in the block of its direction on its die (R502). -/
theorem devRead_lksts {k : Nat} (hk : k < 64) :
    s.devRead (.fab (k % 8) (0x200 + k / 8 * 0x40 + 0x30)) = (s.modPort k ({ · with afail := 0 }), (s.portAt k).sts) := by
  have hport : (0x200 + k / 8 * 0x40 + 0x30 - 0x200) / 0x40 * 8 + k % 8 = k := by omega
  simp only [State.devRead, hport, show ¬ 0x200 + k / 8 * 0x40 + 0x30 = 0 by omega, show ¬ 0x200 + k / 8 * 0x40 + 0x30 = 8 by omega,
    show 0x200 + k / 8 * 0x40 + 0x30 < 0x400 by omega, show (0x200 + k / 8 * 0x40 + 0x30) % 0x40 = 0x30 by omega,
    show ¬ (0x30 : Nat) = 0x28 by decide, if_true, if_false]

end

/-! ### The obligation -/

/-- Settles O49: a register write goes to the one register that its offset names, the eight bytes of an owner-table write and the four
slots of a CORECTL write are taken one after the other, and a read that clears answers with the value from before. -/
theorem deviceRegisters : Obligations.DeviceRegisters := by
  unfold Obligations.DeviceRegisters
  refine ⟨fun s d q o k => ?_, fun s => ?_, fun s f hf => ?_⟩
  · refine ⟨fun h hs hv => exec_registerWrite_of_devReg h (writeLq_base hs hv),
      fun h hs hv => exec_registerWrite_of_devReg h (writeLq_cbase hs hv),
      fun h hs h4 h16 => exec_registerWrite_of_devReg h (writeLq_size hs h4 h16),
      fun h hs ht => exec_registerWrite_of_devReg h (writeLq_tenant hs ht),
      fun h hc => exec_registerWrite_of_devReg h (writeLq_ctl hc),
      fun h ho hs => exec_registerWrite_of_devReg h (writeLq_ignored ho hs),
      fun h => ⟨_, exec_registerWrite_of_devReg h rfl, rfl, rfl⟩,
      fun h => exec_registerWrite_of_devReg h rfl,
      fun h => exec_registerWrite_of_devReg h rfl,
      fun h => exec_registerWrite_of_devReg h rfl,
      fun h => exec_registerWrite_of_devReg h rfl,
      fun h => exec_registerWrite_of_devReg h rfl,
      fun h => exec_registerWrite_of_devReg h rfl,
      fun h => ⟨_, exec_registerWrite_of_devReg h rfl, writeReg_vrail s d s.ev.v k, ?_, fun j hj => ?_⟩,
      fun h => exec_registerWrite_of_devReg h (writeFab_throttle s d s.ev.v),
      fun hk ho h => exec_registerWrite_of_devReg h (writeFab_kdata s d s.ev.v hk ho),
      fun hk h => exec_registerWrite_of_devReg h (writeFab_token s d s.ev.v hk),
      fun _ h => ⟨_, exec_registerWrite_of_devReg h rfl, writeReg_share s d k s.ev.v, fun j => share_writeReg s d k j s.ev.v⟩,
      fun h => exec_registerWrite_of_hostReg (by decide) h (writeHostReg_hirq s s.ev.v _),
      fun h => exec_registerWrite_of_hostReg (by decide) h (writeHostReg_bar2 s s.ev.v _),
      fun h hfn => exec_registerWrite_of_hostReg (by decide) h (writeHostReg_fwLen s s.ev.v hfn),
      fun h hfn => ⟨_, exec_registerWrite_of_hostReg (by decide) h (writeHostReg_cxlm s s.ev.v hfn), rfl, rfl⟩,
      fun h1 h63 h hfn he hv => ?_, fun hk h => ?_⟩
    · rw [vrailAt_writeReg, if_pos rfl]
    · rw [vrailAt_writeReg, if_neg hj]
    · exact exec_registerWrite_of_hostReg (o := 0x100 + 8 * k) (by omega) (by rw [h, Nat.add_assoc])
        (writeHostReg_vfmap s s.ev.v hfn h1 h63 he hv)
    · exact exec_registerWrite_of_mail (o := 0x100 + 8 * k) (by rw [h, Nat.add_assoc]) (writeMail_arg s s.ev.v _ hk)
  · refine ⟨fun h => execOwnerTableWrite_of_copy s h, fun h => ⟨_, execOwnerTableWrite_of_write s h, ?_, ownerOf_putOwnerBytes s 8, fun g => ?_⟩,
      _, execCorectlResume_eq s, ?_, strandAt_resumeSlots_four s⟩
    · obtain ⟨o, l, hframe⟩ := putOwnerBytes_frame s 8
      rw [hframe]
    · rw [owner_putOwnerBytes]
      simp only [ownerTakes_iff]
    · obtain ⟨x, hframe⟩ := resumeSlots_frame s 4
      rw [hframe]
  · exact ⟨execHostErr_host hf, readReg_host_setDie hf (devRead_rasLost s _), readReg_host_setDie hf (devRead_rasCorr s _),
      readReg_host_setDie hf (devRead_fabcnt s _), fun hk => readReg_host_modPort hf (devRead_lksts s hk),
      ⟨_, execBootStatus_host hf (BitVec.toNat_ofNat ..), rfl, rfl⟩⟩

end Sys2Proof.Machine

/-!
A core cycle, the watchdog and the entry of a trap (O44): what stands of a strand that has no result to land, how a trap that nothing
holds up is taken, and a core cycle in which one strand alone is live.
-/
namespace Sys2Proof

/-- The value at a key of a map of which the keys that `p` admits remain. -/
theorem smGet_filter_key {α : Type} (d : α) (m : SMap α) (p : Nat → Bool) (i : Nat) :
    smGet d (m.filter fun x => p x.1) i = if p i then smGet d m i else d := by
  induction m with
  | nil => simp
  | cons x r ih =>
    obtain ⟨k, v⟩ := x
    by_cases hk : p k = true
    · rw [List.filter_cons_of_pos (by exact hk), smGet_cons, smGet_cons, ih]
      by_cases hi : k = i
      · subst hi; simp [hk]
      · simp [hi]
    · rw [List.filter_cons_of_neg (by exact hk), ih, smGet_cons]
      by_cases hi : k = i
      · subst hi; simp [hk]
      · simp [hi]

namespace Machine

/-! ### A strand without results to land (R151, R152) -/

section
variable {s : State} {n : Nat}

theorem latch_of_late_nil (h : (s.strandAt n).late = []) : s.latch n = (s, (s.strandAt n).now) := by
  simp [State.latch, h]

theorem advance_of_late_nil (h : (s.strandAt n).late = []) (d : Nat) :
    s.advance n d = s.setStrand n { s.strandAt n with
      late := [], btWait := ((s.strandAt n).btWait.map fun p => (p.1, p.2 - d)).filter (·.2 != 0) } := by
  simp [State.advance, h]

theorem landAll_of_late_nil (h : (s.strandAt n).late = []) : s.landAll n = s.setStrand n { s.strandAt n with late := [] } := by
  simp [State.landAll, h, State.modStrand]

end

/-! ### What taking a trap leaves alone (R230, R289) -/

/-- `t` holds the strands, the memory and the trap vectors of `s`. -/
structure SameTrapView (s t : State) : Prop where
  strandAt : ∀ n, t.strandAt n = s.strandAt n
  mem : t.mem = s.mem
  tvec : ∀ k, (t.coreAt k).tvec = (s.coreAt k).tvec

theorem SameTrapView.trans {s t u : State} (h : SameTrapView s t) (k : SameTrapView t u) : SameTrapView s u :=
  ⟨fun n => (k.strandAt n).trans (h.strandAt n), k.mem.trans h.mem, fun c => (k.tvec c).trans (h.tvec c)⟩

theorem sameTrapView_modCore {s : State} {core : Nat} {f : Core → Core} (hf : ∀ c, (f c).tvec = c.tvec) : SameTrapView s (s.modCore core f) := by
  refine ⟨fun _ => rfl, rfl, fun k => ?_⟩
  rw [State.modCore, coreAt_setCore]
  split
  · subst_vars; exact hf _
  · rfl

/-- Cells that become undefined are in no view of a trap (R289). -/
theorem sameTrapView_undefCells (s : State) (core : Nat) (rs : List (Nat × Nat)) : SameTrapView s (s.undefCells core rs) := by
  unfold State.undefCells
  refine List.foldlRecOn rs _ ⟨fun _ => rfl, rfl, fun _ => rfl⟩ fun t ht q _ => ?_
  refine List.foldlRecOn (motive := SameTrapView s) (List.range q.2) _ ht fun u hu i _ => hu.trans ?_
  have hdraw : SameTrapView u u.draw.2 := ⟨fun _ => rfl, rfl, fun _ => rfl⟩
  exact hdraw.trans (sameTrapView_modCore fun _ => rfl)

/-- Remembering discarded regions changes tasks alone (R61). -/
theorem sameTrapView_noteRedo (s : State) (n : Nat) (l : List Region) : SameTrapView s (s.noteRedo n l) := by
  unfold State.noteRedo State.modTask
  simp only
  split
  · split <;> exact ⟨fun _ => rfl, rfl, fun _ => rfl⟩
  · exact ⟨fun _ => rfl, rfl, fun _ => rfl⟩

/-! ### A trap that nothing holds up (R230, R246) -/

/-- The strand as a trap of region `r` leaves it, but for the region that it opens in. -/
def Strand.inHandler (x : Strand) (p : Pending) (r : Region) (tvec : Word) : Strand :=
  let y := x.dropWork.restore r.mask r.inputs
  { y with
    now := { y.now with
      trapCause := BitVec.ofNat 64 (p.cause + r.id * 256), trapPc := r.entry, trapInfo := p.info, trapAux := p.aux
      psup := y.now.sup, sup := true, trapped := true }
    pc := tvec, addr := tvec, regions := [] }

/-- The registers that a region's inputs give back (R63): the live ones, and zero for the others. -/
theorem getS_inHandler (x : Strand) (p : Pending) (r : Region) (tvec : Word) (k : Nat) :
    (x.inHandler p r tvec).now.getS k = if k ≠ 0 ∧ r.mask.getLsbD k then smGet 0 r.inputs.s k else 0 := by
  simp only [Strand.inHandler, Strand.restore, Regs.getS, smGet_filter_key]
  by_cases hk : k = 0 <;> simp [hk]

/-- A trap is entered (R230) where none is being handled and a handler stands ready. -/
theorem enterTrap_eq {s : State} {n : Nat} {p : Pending} (hl : (s.strandAt n).late = []) (ht : (s.strandAt n).now.trapped = false)
    (hv : (s.coreAt (coreOf n)).tvec ≠ 0) : ∃ u, SameTrapView s u ∧ s.enterTrap n p =
      u.setStrand n (((s.strandAt n).inHandler p ((s.strandAt n).region p.rid) (s.coreAt (coreOf n)).tvec).openRegion
        { entry := (s.coreAt (coreOf n)).tvec }) := by
  have hx : ({ s.strandAt n with late := [] } : Strand) = s.strandAt n := by rw [← hl]
  have h0 : SameTrapView s (s.landAll n) := by
    rw [landAll_of_late_nil hl, hx]
    refine ⟨fun m => ?_, rfl, fun _ => rfl⟩
    rw [strandAt_setStrand]
    split
    · subst_vars; rfl
    · rfl
  have h1 := h0.trans (sameTrapView_undefCells (s.landAll n) (coreOf n) (((s.landAll n).strandAt n).discards p.rid))
  unfold State.enterTrap
  simp only
  generalize (s.landAll n).undefCells (coreOf n) (((s.landAll n).strandAt n).discards p.rid) = u at h1 ⊢
  rw [h1.strandAt, h1.tvec, if_neg (by simp [ht]; exact hv)]
  exact ⟨_, h1.trans (sameTrapView_noteRedo u n _), rfl⟩

/-- The entry of a trap (R230). -/
theorem trapAt_enterTrap {s : State} {n : Nat} {p : Pending} (hl : (s.strandAt n).late = []) (ht : (s.strandAt n).now.trapped = false)
    (hv : (s.coreAt (coreOf n)).tvec ≠ 0) : TrapAt s (s.enterTrap n p) n p ∧ (s.enterTrap n p).mem = s.mem := by
  obtain ⟨u, hu, h⟩ := enterTrap_eq (p := p) hl ht hv
  have hn : (s.enterTrap n p).strandAt n = ((s.strandAt n).inHandler p ((s.strandAt n).region p.rid) (s.coreAt (coreOf n)).tvec).openRegion
      { entry := (s.coreAt (coreOf n)).tvec } := by
    rw [h, strandAt_setStrand, if_pos rfl]
  refine ⟨⟨?_, ?_, ?_, fun k => ?_, ?_, fun m hm => ?_⟩, ?_⟩
  · rw [hn]; exact ⟨rfl, rfl, rfl, rfl⟩
  · rw [hn]; exact ⟨rfl, rfl, rfl⟩
  · rw [hn]; rfl
  · rw [hn]; exact getS_inHandler _ p _ (s.coreAt (coreOf n)).tvec k
  · rw [hn]; rfl
  · rw [h, strandAt_setStrand, if_neg hm, hu.strandAt]
  · rw [h, setStrand_mem, hu.mem]

/-- A trap taken in a state that shows the same of the strand, and the same other strands, is the same trap. -/
theorem TrapAt.of_view {s u t : State} {n : Nat} {p : Pending} (h : TrapAt u t n p) (hsup : (u.strandAt n).now.sup = (s.strandAt n).now.sup)
    (hr : (u.strandAt n).region p.rid = (s.strandAt n).region p.rid) (hv : (u.coreAt (coreOf n)).tvec = (s.coreAt (coreOf n)).tvec)
    (ho : ∀ m, m ≠ n → u.strandAt m = s.strandAt m) : TrapAt s t n p := by
  obtain ⟨h1, h2, h3, h4, h5, h6⟩ := h
  rw [hr] at h1 h5
  rw [hsup] at h2
  rw [hv] at h3
  exact ⟨h1, h2, h3, fun k => by rw [h4 k, hr], h5, fun m hm => (h6 m hm).trans (ho m hm)⟩

/-- The strand as a first fault leaves it (R246): later work is dropped. -/
def Strand.faulted (x : Strand) (p : Pending) : Strand :=
  { x with
    fault := some p, flight := x.flight.bind (·.before p.seq), blocked := 0, commit := false
    queues := x.queues.map fun q => (q.1, q.2.filter fun e => decide (e.seq < p.seq))
    board := x.board.filter fun b => decide (b.seq < p.seq) }

theorem recordFault_of_no_fault {s : State} {n : Nat} (hf : (s.strandAt n).fault = none) (p : Pending) :
    s.recordFault n p = if ((s.strandAt n).faulted p).faultReady then (s.setStrand n ((s.strandAt n).faulted p)).takeFault n
      else s.setStrand n ((s.strandAt n).faulted p) := by
  simp only [State.recordFault, hf]
  rfl

/-- Where nothing is outstanding, nothing is after later work is dropped. -/
theorem idle_faulted {x : Strand} (h : x.idle = true) (p : Pending) : (x.faulted p).idle = true := by
  simp only [Strand.idle, Strand.faulted, Bool.and_eq_true, List.isEmpty_iff, List.all_eq_true, List.mem_map] at h ⊢
  refine ⟨by rw [h.1]; rfl, ?_⟩
  rintro _ ⟨q, hq, rfl⟩
  simp [h.2 q hq]

/-- A strand that can take a trap at once has its fault ready when it is reported. -/
theorem faultReady_faulted {s : State} {n : Nat} {p : Pending} (h : s.trapsAtOnce n p.seq p.rid) :
    ((s.strandAt n).faulted p).faultReady = true := by
  obtain ⟨hidle, -, -, -, hflight, hchecks⟩ := h
  have hf : ((s.strandAt n).faulted p).flight = none := hflight
  have hi := idle_faulted hidle p
  show (((s.strandAt n).faulted p).idle && ((s.strandAt n).faulted p).flight.isNone &&
    ((s.strandAt n).regions.takeWhile (·.rid != p.rid)).all fun r => r.expCycles == 0 || r.checked) = true
  simp only [hi, hf, Option.isNone_none, Bool.true_and, List.all_eq_true, Bool.or_eq_true, beq_iff_eq]
  exact hchecks

/-- A fault that nothing holds up is taken as it is reported (R246). -/
theorem trapAt_recordFault {s : State} {n : Nat} {p : Pending} (hf : (s.strandAt n).fault = none) (hp : p.replay = 0)
    (h : s.trapsAtOnce n p.seq p.rid) : TrapAt s (s.recordFault n p) n p ∧ (s.recordFault n p).mem = s.mem := by
  have hready := faultReady_faulted h
  obtain ⟨-, hlate, htrap, htvec, -⟩ := h
  have hn : (s.setStrand n ((s.strandAt n).faulted p)).strandAt n = (s.strandAt n).faulted p := by rw [strandAt_setStrand, if_pos rfl]
  have htake : s.recordFault n p = (s.setStrand n ((s.strandAt n).faulted p)).enterTrap n p := by
    rw [recordFault_of_no_fault hf, if_pos hready, State.takeFault, hn]
    simp [Strand.faulted, hp]
  obtain ⟨ht, hm⟩ := trapAt_enterTrap (s := s.setStrand n ((s.strandAt n).faulted p)) (p := p) (by rw [hn]; exact hlate)
    (by rw [hn]; exact htrap) htvec
  rw [htake]
  exact ⟨ht.of_view (by rw [hn]; rfl) (by rw [hn]; rfl) rfl fun m hne => by rw [strandAt_setStrand, if_neg hne], hm⟩

/-- The fault that the watchdog of strand `n` reports (R58). -/
def State.wdogFault (s : State) (n : Nat) : Pending :=
  { cause := 16, info := if (s.strandAt n).flight.isSome then (s.strandAt n).addr else (s.strandAt n).pc,
    aux := BitVec.ofNat 64 (s.coreAt (coreOf n)).wdogLimit, seq := (s.strandAt n).seq, rid := (s.strandAt n).curRid }

/-- The watchdog of a strand whose count has reached the limit (R58): it clears the count and the strand traps. -/
theorem exec_watchdog_of_due {s : State} (hlive : (s.strandAt s.ev.n).live = true) (hf : (s.strandAt s.ev.n).fault = none)
    (hl : (s.coreAt (coreOf s.ev.n)).wdogLimit ≠ 0) (hw : (s.coreAt (coreOf s.ev.n)).wdogLimit ≤ (s.strandAt s.ev.n).wdog) :
    exec .watchdog s = .next ((s.modStrand s.ev.n ({ · with wdog := 0 })).recordFault s.ev.n (s.wdogFault s.ev.n)) := by
  simp only [exec_watchdog, execWatchdog, hlive, hf, Option.isNone_none, Bool.and_true, bne_iff_ne.2 hl,
    decide_eq_true hw, if_true]
  rfl

theorem trapAt_watchdog {s : State} {n : Nat} (hc : s.trapsAtOnce n (s.strandAt n).seq (s.strandAt n).curRid) (hf : (s.strandAt n).fault = none) :
    TrapAt s ((s.modStrand n ({ · with wdog := 0 })).recordFault n (s.wdogFault n)) n (s.wdogFault n) ∧
      ((s.modStrand n ({ · with wdog := 0 })).recordFault n (s.wdogFault n)).mem = s.mem := by
  have hn : (s.modStrand n ({ · with wdog := 0 })).strandAt n = { s.strandAt n with wdog := 0 } := by
    rw [State.modStrand, strandAt_setStrand, if_pos rfl]
  have hc' : (s.modStrand n ({ · with wdog := 0 })).trapsAtOnce n (s.wdogFault n).seq (s.wdogFault n).rid := by
    simp only [State.trapsAtOnce, State.clearBefore, hn]
    exact hc
  obtain ⟨ht, hm⟩ := trapAt_recordFault (by rw [hn]; exact hf) rfl hc'
  exact ⟨ht.of_view (by rw [hn]) (by rw [hn]; rfl) rfl fun m hm => by rw [State.modStrand, strandAt_setStrand, if_neg hm], hm⟩

/-- The entry of a trap that was reported (R246): every earlier piece of work has ended. -/
theorem exec_trapEntry_of_ready {s : State} {p : Pending} (hf : (s.strandAt s.ev.n).fault = some p) (hp : p.replay = 0)
    (hfl : (s.strandAt s.ev.n).flight = none) (hc : s.trapsAtOnce s.ev.n p.seq p.rid) :
    exec .trapEntry s = .next (s.enterTrap s.ev.n p) := by
  obtain ⟨hidle, -, -, -, -, hchecks⟩ := hc
  have hready : (s.strandAt s.ev.n).faultReady = true := by
    simp only [Strand.faultReady, hf, hidle, hfl, Option.isNone_none, Bool.true_and, List.all_eq_true, Bool.or_eq_true, beq_iff_eq]
    exact hchecks
  simp only [exec_trapEntry, execTrapEntry, State.faultEvent, hf, hready, hp]
  simp [done, State.takeFault, hf, hp]

/-! ### How a strand stands in a core cycle (R54, R57) -/

/-- A strand that does anything in a core cycle has no fault, no bundle under way and no stall left. -/
theorem awake_of_look {s s1 : State} {n : Nat} {l : Look} (h : s.look n = (s1, l)) (hl : l ≠ .idle) :
    (s.strandAt n).fault = none ∧ (s.strandAt n).flight = none ∧ (s.strandAt n).stall = 0 := by
  by_contra hx
  have hidle : s.look n = (s, .idle) := by
    rw [State.look]
    refine if_pos ?_
    cases hf : (s.strandAt n).fault with
    | some p => simp
    | none =>
      cases hfl : (s.strandAt n).flight with
      | some f => simp
      | none =>
        have hs : (s.strandAt n).stall ≠ 0 := fun hs => hx ⟨hf, hfl, hs⟩
        simp [hs]
  rw [hidle, Prod.mk.injEq] at h
  exact hl h.2.symm

/-- An empty slot does nothing in a core cycle. -/
theorem look_empty {s : State} {n : Nat} (h : s.strandAt n = {}) : s.look n = (s, .idle) := by
  simp [State.look, h]

theorem cycleStrand_empty {s : State} {n : Nat} (h : s.strandAt n = {}) : s.cycleStrand n .idle = s := by
  simp [State.cycleStrand, h]

/-! ### A core cycle (R54, R55) -/

/-- How the slots `l` of core `c` stand, one after another, with the machine that their fetches leave. -/
def State.looks (s : State) (c : Nat) (l : List Nat) : State × List (Nat × Nat × Look) :=
  l.foldl (fun p k => ((p.1.look (c * Config.slots + k)).1, p.2 ++ [(k, c * Config.slots + k, (p.1.look (c * Config.slots + k)).2)])) (s, [])

/-- A stall countdown goes on. -/
def State.stallDown (s : State) (n : Nat) : State :=
  if (s.strandAt n).stall = 0 then s else s.setStrand n { s.strandAt n with stall := (s.strandAt n).stall - 1 }

/-- The slot of a strand that is ready. -/
def readySlot (q : Nat × Nat × Look) : Option Nat :=
  match q.2.2 with
  | .ready _ => some q.1
  | _ => none

/-- What a core cycle does to one strand, where slot `chosen` issues. -/
def State.cycleOne (s : State) (chosen : Option Nat) (q : Nat × Nat × Look) : State :=
  match q.2.2 with
  | .ready b => if chosen = some q.1 then s.issue q.2.1 b else s
  | r => s.cycleStrand q.2.1 r

/-- A core cycle is counted (R232). -/
def State.cycled (s : State) (c : Nat) : State := s.modCore c fun x => { x with cycle := x.cycle + 1 }

theorem exec_bundleIssue_eq (s : State) :
    exec .bundleIssue s =
      let p := s.looks s.ev.n (List.range Config.slots)
      let chosen := p.1.pick s.ev.n (p.2.filterMap readySlot)
      .next (p.2.foldl (fun u q => u.cycleOne chosen q)
        (((List.range Config.slots).foldl (fun u k => u.stallDown (s.ev.n * Config.slots + k)) p.1).cycled s.ev.n)) := by
  simp only [exec_bundleIssue, execBundleIssue, List.foldl_map]
  generalize List.range Config.slots = r
  rfl

theorem foldl_range_single {α : Type} {g : α → Nat → α} {s t : α} {k m : Nat} (hk : k < m) (before : ∀ j, j < k → g s j = s)
    (at_k : g s k = t)
    (after : ∀ j, k < j → j < m → g t j = t) : (List.range m).foldl g s = t := by
  induction m with
  | zero => omega
  | succ m ih =>
    rw [List.range_succ, List.foldl_append]
    by_cases h : k = m
    · subst h
      rw [foldl_fix _ fun j hj => before j (List.mem_range.1 hj)]
      exact at_k
    · rw [ih (by omega) fun j hj hm => after j hj (by omega)]
      exact after m (by omega) (by omega)

/-- Slot `k` of core `c` holds the one strand. -/
def State.onlySlot (s : State) (c k : Nat) : Prop := ∀ j, j < 4 → j ≠ k → s.strandAt (c * 4 + j) = {}

section
variable {s s1 : State} {c k : Nat} {l : Look} (hone : s.onlySlot c k) (hs : s1.strands = s.strands) (hl : s.look (c * 4 + k) = (s1, l))
include hone hs hl

theorem looks_range (m : Nat) (hm : m ≤ 4) : s.looks c (List.range m) =
    (if k < m then s1 else s, (List.range m).map fun j => (j, c * 4 + j, if j = k then l else .idle)) := by
  have h1 (j : Nat) : s1.strandAt j = s.strandAt j := by rw [State.strandAt, hs, State.strandAt]
  induction m with
  | zero => rfl
  | succ m ih =>
    have hfold : s.looks c (List.range (m + 1)) = (((s.looks c (List.range m)).1.look (c * 4 + m)).1,
        (s.looks c (List.range m)).2 ++ [(m, c * 4 + m, ((s.looks c (List.range m)).1.look (c * 4 + m)).2)]) := by
      rw [State.looks, List.range_succ, List.foldl_append]
      rfl
    rw [hfold, ih (by omega), List.range_succ, List.map_append]
    by_cases hmk : m = k
    · subst hmk
      simp [hl]
    · have hx : (if k < m then s1 else s).look (c * 4 + m) = (if k < m then s1 else s, .idle) := by
        refine look_empty ?_
        split
        · rw [h1]; exact hone m (by omega) hmk
        · exact hone m (by omega) hmk
      rw [hx]
      have : k < m + 1 ↔ k < m := by omega
      simp [hmk, this]

theorem stallDown_range (hidle : l ≠ .idle) :
    (List.range 4).foldl (fun u j => u.stallDown (c * 4 + j)) s1 = s1 := by
  have h1 (j : Nat) : s1.strandAt j = s.strandAt j := by rw [State.strandAt, hs, State.strandAt]
  refine foldl_fix _ fun j hj => if_pos ?_
  rw [h1]
  by_cases hjk : j = k
  · rw [hjk]; exact (awake_of_look hl hidle).2.2
  · rw [hone j (List.mem_range.1 hj) hjk]

/-- A core cycle in which one strand is awake does what its cycle does (R54, R55). -/
theorem exec_bundleIssue_one {t : State} (hc : s.ev.n = c) (hk : k < 4) (hidle : l ≠ .idle)
    (ht : (s1.cycled c).cycleOne
      (s1.pick c (((List.range 4).map fun j => (j, c * 4 + j, if j = k then l else .idle)).filterMap readySlot)) (k, c * 4 + k, l) = t)
    (ho : ∀ m, m ≠ c * 4 + k → t.strandAt m = s.strandAt m) : exec .bundleIssue s = .next t := by
  have hlooks := looks_range hone hs hl 4 (Nat.le_refl _)
  rw [if_pos hk] at hlooks
  have h1 (j : Nat) : s1.strandAt j = s.strandAt j := by rw [State.strandAt, hs, State.strandAt]
  have hstall := stallDown_range hone hs hl hidle
  rw [exec_bundleIssue_eq, hc]
  simp only [Config.slots, hlooks, hstall, List.foldl_map]
  refine congrArg _ (foldl_range_single hk (fun j hj => ?_) ?_ fun j hj hm => ?_)
  · rw [if_neg (by omega)]
    refine cycleStrand_empty ?_
    exact (h1 _).trans (hone j (by omega) (by omega))
  · rw [if_pos rfl]; exact ht
  · rw [if_neg (by omega)]
    refine cycleStrand_empty ?_
    exact (ho _ fun h => by simp only at h; omega).trans (hone j hm (by omega))

end

/-! ### The choice of a strand (R55) -/

theorem le_foldl_max {α : Type} (f : α → Nat) (l : List α) (m : Nat) : m ≤ l.foldl (fun m x => max m (f x)) m ∧
    ∀ x ∈ l, f x ≤ l.foldl (fun m x => max m (f x)) m := by
  induction l generalizing m with
  | nil => simp
  | cons a r ih =>
    obtain ⟨h1, h2⟩ := ih (max m (f a))
    rw [List.foldl_cons]
    refine ⟨by omega, fun x hx => ?_⟩
    rcases List.mem_cons.1 hx with rfl | hx
    · omega
    · exact h2 x hx

/-- The strand picked is ready, and none that is ready is of a higher effective class. -/
theorem pick_some {s : State} {c j : Nat} {l : List Nat} (h : s.pick c l = some j) :
    j ∈ l ∧ ∀ i, i ∈ l → s.effClass (c * 4 + i) ≤ s.effClass (c * 4 + j) := by
  have hj := List.find?_some h
  simp only [Bool.and_eq_true, List.contains_iff_mem, beq_iff_eq] at hj
  refine ⟨hj.1, fun i hi => ?_⟩
  have := (le_foldl_max (fun k => s.effClass (c * 4 + k)) l 0).2 i hi
  exact this.trans_eq hj.2.symm

/-- One strand that is ready is picked. -/
theorem pick_singleton (s : State) (c : Nat) {k : Nat} (hk : k < 4) : s.pick c [k] = some k := by
  cases h : s.pick c [k] with
  | some j => rw [List.mem_singleton.1 (pick_some h).1]
  | none =>
    have hmem : k ∈ slotsAfter (smGet 3 (s.coreAt c).lastIssue (s.effClass (c * 4 + k))) := by
      generalize smGet 3 (s.coreAt c).lastIssue (s.effClass (c * 4 + k)) = last
      refine List.mem_map.2 ⟨(k + 3 * (last + 1)) % 4, List.mem_range.2 (Nat.mod_lt _ (by decide)), ?_⟩
      simp only [Config.slots]
      omega
    have := List.find?_eq_none.1 h k (by simpa [Config.slots] using hmem)
    simp [Config.slots] at this

/-! ### A bundle that issues (R54, R131, R133, R136) -/

/-- The strand whose bundle has just issued. -/
def Strand.issued (x : Strand) (b : Bundle) : Strand :=
  { x with
    addr := x.pc, pc := x.pc + BitVec.ofNat 64 (bundleLen b.hdr.p), bundles := x.bundles + 1, wdog := 0, blocked := 0, retry := false
    stall := b.hdr.stall, unseen := x.unseen.filter fun m => !observes b.hdr m
    flight := some { left := slotOrder b.slots, latch := x.now, stall := b.hdr.stall, btWait := x.btWait, base := x.seq } }

/-- The machine whose core of strand `n` remembers it as the last issuer of its class (R55). -/
def State.issuedBy (s : State) (n : Nat) : State :=
  s.modCore (coreOf n) fun c => { c with lastIssue := smPut c.lastIssue (s.effClass n) (n % 4) }

theorem issue_of_late_nil {s : State} {n : Nat} (h : (s.strandAt n).late = []) (b : Bundle) :
    s.issue n b = if b.slots = [] then ((s.issuedBy n).setStrand n ((s.strandAt n).issued b)).endBundle n (s.strandAt n).seq b.hdr.stall
      else (s.issuedBy n).setStrand n ((s.strandAt n).issued b) := by
  have hu : (s.issuedBy n).latch n = (s.issuedBy n, (s.strandAt n).now) := latch_of_late_nil h
  have hx : (s.issuedBy n).strandAt n = s.strandAt n := rfl
  unfold State.issuedBy at hu hx ⊢
  simp only [State.issue, Config.slots, hu, hx, List.isEmpty_iff]
  rfl

/-- The strand after a bundle that is only a header (R133, R135). -/
def Strand.passed (x : Strand) (b : Bundle) : Strand :=
  { x.issued b with
    flight := none, seq := x.seq + 6, late := []
    btWait := (x.btWait.map fun p => (p.1, p.2 - (1 + b.hdr.stall))).filter (·.2 != 0) }

theorem endBundle_issued {s : State} {n : Nat} {x : Strand} (h : x.late = []) (b : Bundle) :
    (s.setStrand n (x.issued b)).endBundle n x.seq b.hdr.stall =
      ((s.setStrand n (x.issued b)).setStrand n { x.issued b with flight := none, seq := x.seq + 6, retry := false }).setStrand n (x.passed b) := by
  have hseq : max x.seq (x.seq + 6) = x.seq + 6 := by omega
  have hn : (s.setStrand n (x.issued b)).strandAt n = x.issued b := by rw [strandAt_setStrand, if_pos rfl]
  rw [State.endBundle, State.modStrand, hn, advance_of_late_nil]
  · rw [strandAt_setStrand, if_pos rfl]
    simp only [show (x.issued b).seq = x.seq from rfl, hseq]
    rfl
  · rw [strandAt_setStrand, if_pos rfl]
    exact h

/-- What issuing a bundle leaves (R54, R133, R136). -/
theorem issue_frame {s : State} {n : Nat} (h : (s.strandAt n).late = []) (b : Bundle) :
    (s.issue n b).strandAt n = (if b.slots = [] then (s.strandAt n).passed b else (s.strandAt n).issued b) ∧
    (∀ k, ((s.issue n b).coreAt k).cycle = (s.coreAt k).cycle) ∧ (s.issue n b).mem = s.mem ∧
    ∀ m, m ≠ n → (s.issue n b).strandAt m = s.strandAt m := by
  have hcycle (k : Nat) : ((s.issuedBy n).coreAt k).cycle = (s.coreAt k).cycle := by
    rw [State.issuedBy, State.modCore, coreAt_setCore]
    split
    · subst_vars; rfl
    · rfl
  have hothers (m : Nat) : (s.issuedBy n).strandAt m = s.strandAt m := rfl
  rw [issue_of_late_nil h]
  split
  · rw [endBundle_issued h]
    refine ⟨by rw [strandAt_setStrand, if_pos rfl], hcycle, rfl, fun m hm => ?_⟩
    simp only [strandAt_setStrand, if_neg hm, hothers]
  · refine ⟨by rw [strandAt_setStrand, if_pos rfl], hcycle, rfl, fun m hm => ?_⟩
    simp only [strandAt_setStrand, if_neg hm, hothers]

/-! ### One strand's core cycle -/

section
variable {s s1 : State} {k : Nat} (hk : k < 4) (hone : s.onlySlot s.ev.n k) (hs : s1.strands = s.strands)
include hk hone hs

/-- The ready bundle of the one strand issues. -/
theorem exec_bundleIssue_ready {b : Bundle} (hl : s.look (s.ev.n * 4 + k) = (s1, .ready b)) (hlate : (s.strandAt (s.ev.n * 4 + k)).late = []) :
    exec .bundleIssue s = .next ((s1.cycled s.ev.n).issue (s.ev.n * 4 + k) b) := by
  have h1 (j : Nat) : (s1.cycled s.ev.n).strandAt j = s.strandAt j := by rw [State.strandAt, State.strandAt, ← hs]; rfl
  have hready : ((List.range 4).map fun j => (j, s.ev.n * 4 + j, if j = k then Look.ready b else .idle)).filterMap readySlot = [k] := by
    interval_cases k <;> rfl
  refine exec_bundleIssue_one hone hs hl rfl hk (by simp) ?_ fun m hm => ?_
  · rw [hready, pick_singleton _ _ hk]
    exact if_pos rfl
  · rw [(issue_frame (by rw [h1]; exact hlate) b).2.2.2 m hm, h1]

/-- The one strand, not ready, has the cycle of its look. -/
theorem exec_bundleIssue_other {l : Look} (hl : s.look (s.ev.n * 4 + k) = (s1, l)) (hi : l ≠ .idle) (hr : ∀ b, l ≠ .ready b)
    (ho : ∀ m, m ≠ s.ev.n * 4 + k → ((s1.cycled s.ev.n).cycleStrand (s.ev.n * 4 + k) l).strandAt m = s.strandAt m) :
    exec .bundleIssue s = .next ((s1.cycled s.ev.n).cycleStrand (s.ev.n * 4 + k) l) := by
  refine exec_bundleIssue_one hone hs hl rfl hk hi ?_ ho
  cases l with
  | ready b => exact absurd rfl (hr b)
  | _ => rfl

end

/-! ### The obligation -/

/-- Settles O44: among the slots of a core whose other strands are empty, the cycle looks at one, picks it where it is ready, and does
what its look says; a fault that nothing holds up is taken as it is reported. -/
theorem coreCyclesAndWatchdog : Obligations.CoreCyclesAndWatchdog := by
  unfold Obligations.CoreCyclesAndWatchdog
  refine ⟨fun s s1 k hk => ?_, fun s => ?_⟩
  · intro n x hone hs
    have h1 (j : Nat) : (s1.cycled s.ev.n).strandAt j = s.strandAt j := by rw [State.strandAt, State.strandAt, ← hs]; rfl
    have hview : SameTrapView s1 (s1.cycled s.ev.n) := sameTrapView_modCore fun _ => rfl
    refine ⟨fun b hl hlate => ?_, fun hl hcan => ?_, fun c i hl htrap => ?_, fun l j => pick_some⟩
    · obtain ⟨hn, hcycle, hmem, hother⟩ := issue_frame (s := s1.cycled s.ev.n) (n := n) (by rw [h1]; exact hlate) b
      rw [h1] at hn
      refine ⟨_, exec_bundleIssue_ready hk hone hs hl hlate, ?_, ?_, hmem, fun m hm => (hother m hm).trans (h1 m)⟩
      · rw [hn, show x.late = [] from hlate]
        split
        · rfl
        · simp only [Strand.issued]
          rw [show (s.strandAt n).late = [] from hlate]
      · rw [hcycle, State.cycled, State.modCore, coreAt_setCore, if_pos rfl]
    · have hc : (s1.cycled s.ev.n).cycleStrand n .waiting = (s1.cycled s.ev.n).setStrand n { x with wdog := x.wdog + 1 } := by
        rw [State.cycleStrand, h1]
        exact if_neg (by simp [show (s.strandAt n).cancelling = false from hcan])
      have hother (m : Nat) (hm : m ≠ n) : ((s1.cycled s.ev.n).cycleStrand n .waiting).strandAt m = s.strandAt m := by
        rw [hc, strandAt_setStrand, if_neg hm, h1]
      refine ⟨_, exec_bundleIssue_other hk hone hs hl (by simp) (by simp) hother, ?_, ?_, hother⟩
      · rw [hc, strandAt_setStrand, if_pos rfl]
      · rw [hc]; rfl
    · have hfault : ((s1.cycled s.ev.n).strandAt n).fault = none := by rw [h1]; exact (awake_of_look hl (by simp)).1
      have honce : (s1.cycled s.ev.n).trapsAtOnce n x.seq x.curRid := by
        simpa only [State.trapsAtOnce, State.clearBefore, hview.strandAt, hview.tvec] using htrap
      have hc : (s1.cycled s.ev.n).cycleStrand n (.trap c i) = (s1.cycled s.ev.n).recordFault n
          { cause := c.1, info := BitVec.ofNat 64 i, aux := BitVec.ofNat 64 c.2, seq := x.seq, rid := x.curRid } := by
        rw [State.cycleStrand, h1]
      have ht := (trapAt_recordFault
        (p := { cause := c.1, info := BitVec.ofNat 64 i, aux := BitVec.ofNat 64 c.2, seq := x.seq, rid := x.curRid }) hfault rfl honce).1
      rw [← hc] at ht
      refine ⟨_, exec_bundleIssue_other hk hone hs hl (by simp) (by simp) fun m hm => (ht.others m hm).trans (h1 m), ?_⟩
      exact ht.of_view (by rw [hview.strandAt]) (by rw [hview.strandAt]) (hview.tvec _) fun m _ => hview.strandAt m
  · intro n x
    refine ⟨fun hc hlive hf hl hw => ?_, fun p hf hp hfl hc => ?_⟩
    · obtain ⟨ht, hm⟩ := trapAt_watchdog hc hf
      exact ⟨_, exec_watchdog_of_due hlive hf hl hw, hm, ht⟩
    · obtain ⟨ht, hm⟩ := trapAt_enterTrap (p := p) hc.2.1 hc.2.2.1 hc.2.2.2.1
      exact ⟨_, exec_trapEntry_of_ready hf hp hfl hc, hm, ht⟩

end Machine
end Sys2Proof

/-!
The cells of the matrix instructions (O31), refuted: its premises let the engine stand at an entry of another engine's instruction.
-/
namespace Sys2Proof.Machine

/-- An entry of the codec engine (CLAR) of core 1, of the strand in slot 4, which owns 8 accumulator tiles. -/
def strayEntry : Entry := { instr := .clar {}, strand := some 4, core := 1 }

/-- The machine after reset whose engine stands at `strayEntry`. -/
def strayState : State := { State.reset with strands := [(4, { accN := 8 })], engine := some strayEntry }

/-- MZERO of accumulator tile 0 in one row and one column. -/
def oneCell : MFields := { imm := 0x101 }

/-- The last strands served of core 0 after a step. -/
def lastServed0 (o : Host.Outcome State Fault Refusal) : SMap Nat :=
  match o with
  | .next t => (t.coreAt 0).lastServed
  | _ => []

theorem mReady_stray : MReady strayState strayEntry :=
  ⟨rfl, rfl, rfl, rfl, ⟨rfl, rfl, rfl, rfl, rfl, rfl⟩, rfl, rfl⟩

/-- The end of the entry is noted for the codec engine, which the die's first core keeps, not for a core of the entry. -/
theorem lastServed0_stray : lastServed0 (exec (.mzero oneCell) strayState) = [(3, 4)] := rfl

/-- Refutes O31: no premise says that the entry which the engine serves is one of the matrix engine. Where MZERO runs with an entry of
CLAR, its completion notes the strand at the die's first core, which is not the entry's core, and that core should stay as it was. -/
theorem not_matrixCells : ¬ Obligations.MatrixCells := by
  unfold Obligations.MatrixCells
  intro h
  obtain ⟨-, hcells, -⟩ := h
  obtain ⟨-, hin⟩ := hcells strayState strayEntry oneCell 4 mReady_stray rfl
  obtain ⟨⟨t, ht, ⟨-, -, hcore, -⟩, -⟩, -⟩ := hin (by decide) (by decide) (by decide) (by decide)
  have hserved := lastServed0_stray
  rw [ht] at hserved
  have hsame : (t.coreAt 0).lastServed = [] := congrArg Core.lastServed (hcore 0 (by decide))
  exact absurd (hsame.symm.trans hserved) (by decide)

end Sys2Proof.Machine

/-!
Memory (O43): the canonical form through each operation that changes memory, in the order of the model, what an ordinary write leaves
of the other bytes and of objects, and where a line lives.
-/
namespace Sys2Proof.Machine

/-! ### Sequences of operations -/

/-- A fold keeps the form where each of its steps does. -/
theorem memOk_foldl {α β : Type} (of : α → State) {f : α → β → α} (hf : ∀ p b, (of p).memOk → (of (f p b)).memOk) (l : List β)
    {p : α} (h : (of p).memOk) : (of (l.foldl f p)).memOk :=
  List.foldlRecOn l f h fun p hp b _ => hf p b hp

/-- A fold changes no memory where none of its steps does. -/
theorem mem_foldl {β : Type} {f : State → β → State} (hf : ∀ s b, (f s b).mem = s.mem) (l : List β) (s : State) :
    (l.foldl f s).mem = s.mem :=
  List.foldlRecOn (motive := fun t => t.mem = s.mem) l f rfl fun t ht b _ => (hf t b).trans ht

/-- The form depends on memory alone. -/
theorem State.memOk.of_mem {s t : State} (h : s.memOk) (hm : t.mem = s.mem) : t.memOk := by
  rw [State.memOk, hm]; exact h

theorem memByte_of_mem {s t : State} (hm : t.mem = s.mem) (a : Nat) : t.memByte a = s.memByte a := congrArg (smGet 0 · a) hm

theorem memBytes_of_mem {s t : State} (hm : t.mem = s.mem) (a n : Nat) : t.memBytes a n = s.memBytes a n := by
  simp only [State.memBytes, memByte_of_mem hm]

theorem objNow_of_mem {s t : State} (hm : t.mem = s.mem) (pa : Nat) : t.objNow pa = s.objNow pa := by
  simp only [State.objNow, State.memNat, memBytes_of_mem hm]

theorem memOk_putMem {s : State} (h : s.memOk) (a : Nat) (bs : List Byte) : (s.putMem a bs).memOk := putMem_wf h a bs

theorem memOk_putMemNat {s : State} (h : s.memOk) (a n v : Nat) : (s.putMemNat a n v).memOk := putMemNat_wf h a n v

/-! ### Vectors and records (R439, R461) -/

theorem vector_mem (s : State) (fn vec : Nat) : (s.vector fn vec).mem = s.mem := by
  unfold State.vector
  split
  · rfl
  · split <;> rfl

theorem vector_objs (s : State) (fn vec : Nat) : (s.vector fn vec).objs = s.objs := by
  unfold State.vector
  split
  · rfl
  · split <;> rfl

theorem rasVector_mem (s : State) (tenant : Nat) : (s.rasVector tenant).mem = s.mem :=
  (mem_foldl (fun s (b : Nat × HostFn) => vector_mem s b.1 11) _ _).trans (vector_mem s 0 11)

theorem rasVector_objs (s : State) (tenant : Nat) : (s.rasVector tenant).objs = s.objs :=
  List.foldlRecOn (motive := fun t => t.objs = s.objs) _ _ (vector_objs s 0 11) fun t ht b _ => (vector_objs t b.1 11).trans ht

theorem memOk_rasWrite {s : State} (h : s.memOk) (d : Nat) (r : RasRec) : (s.rasWrite d r).memOk := by
  unfold State.rasWrite
  extract_lets u x w3 a v w
  have hu : u.memOk := h.of_mem (show u.mem = s.mem from rfl)
  have hv : v.memOk := memOk_putMem hu _ _
  split
  · exact hu.of_mem (setDie_mem ..)
  · split
    · exact hv.of_mem (rasVector_mem _ _)
    · exact hv.of_mem (setDie_mem ..)

theorem rasWrite_objs (s : State) (d : Nat) (r : RasRec) : (s.rasWrite d r).objs = s.objs := by
  unfold State.rasWrite
  extract_lets u x w3 a v w
  split
  · rfl
  · split
    · exact rasVector_objs _ _
    · rfl

theorem memOk_corrected {s : State} (h : s.memOk) (d unit addr syn tenant task : Nat) : (s.corrected d unit addr syn tenant task).memOk := by
  unfold State.corrected
  extract_lets x n u
  split
  · exact memOk_rasWrite (h.of_mem (setDie_mem ..)) _ _
  · exact h.of_mem (setDie_mem ..)

/-! ### What a read finds (R462, R463) -/

theorem injFate_mem (s : State) (width : Nat) : (s.injFate width).1.mem = s.mem := by
  unfold State.injFate
  simp only
  split
  · rfl
  · split <;> rfl

theorem memOk_scanL2 {s : State} (h : s.memOk) (tenant task a n : Nat) : (s.scanL2 tenant task a n).1.memOk := by
  unfold State.scanL2
  split
  · exact h
  · refine memOk_foldl Prod.fst (fun p i hp => ?_) _ h
    obtain ⟨s, f⟩ := p
    simp only
    split
    · exact hp
    · have hmem := injFate_mem s 64
      generalize s.injFate 64 = q at hmem
      obtain ⟨t, fate⟩ := q
      have ht : t.memOk := State.memOk.of_mem hp hmem
      cases fate with
      | agrees => exact ht.of_mem rfl
      | corrected x => exact memOk_corrected ((memOk_putMemNat ht _ _ _).of_mem (by dsimp only)) _ _ _ _ _ _
      | bad =>
        simp only
        split
        · exact ht.of_mem rfl
        · exact ht.of_mem rfl

theorem memOk_scanDram {s : State} (h : s.memOk) (tenant task a n : Nat) : (s.scanDram tenant task a n).1.memOk := by
  unfold State.scanDram
  split
  · exact h
  · split
    · exact h
    · split
      · exact h
      · refine memOk_foldl Prod.fst (fun p i hp => ?_) _ h
        obtain ⟨s, f⟩ := p
        simp only
        split
        · exact hp
        · split
          · exact memOk_corrected ((memOk_putMemNat hp _ _ _).of_mem (by dsimp only)) _ _ _ _ _ _
          · split
            · exact memOk_rasWrite (hp.of_mem (by dsimp only)) _ _
            · exact hp

theorem memOk_scanMem {s : State} (h : s.memOk) (tenant task a n : Nat) : (s.scanMem tenant task a n).1.memOk := by
  have h2 := memOk_scanL2 h tenant task a n
  unfold State.scanMem
  split
  · rename_i t ht
    rw [ht] at h2
    exact memOk_scanDram h2 _ _ _ _
  · exact h2

/-! ### Ordinary writes (R78, R95, R465) -/

theorem memOk_fixBefore {s : State} (h : s.memOk) (a n : Nat) : (s.fixBefore a n).memOk := by
  refine memOk_foldl id (fun s p hs => ?_) _ h
  simp only [id]
  split
  · exact hs
  · split
    · exact memOk_putMemNat hs _ _ _
    · exact hs

theorem fixBefore_objs (s : State) (a n : Nat) : (s.fixBefore a n).objs = s.objs := by
  refine List.foldlRecOn (motive := fun t => t.objs = s.objs) _ _ rfl fun (t : State) ht p _ => ?_
  simp only
  split
  · exact ht
  · split
    · exact ht
    · exact ht

theorem fixBefore_of_memSyn_nil {s : State} (h : s.memSyn = []) (a n : Nat) : s.fixBefore a n = s := by
  rw [State.fixBefore, h]; rfl

theorem poisonOf_of_none {s : State} (hp : s.poison = []) (hl : s.lost = []) (line : Nat) : s.poisonOf line = none := by
  simp [State.poisonOf, hp, hl, smFind]

theorem memOk_performMem {s : State} (h : s.memOk) (tenant task a : Nat) (bs : List Byte) (core strand : Option Nat) :
    (s.performMem tenant task a bs core strand).memOk := by
  unfold State.performMem
  simp only
  split
  · split
    · exact (memOk_putMem h a bs).of_mem rfl
    · exact memOk_rasWrite h _ _
  · exact (memOk_putMem (memOk_fixBefore h _ _) a bs).of_mem rfl

/-- An ordinary write is not an instruction on an object: what the objects last were stands. -/
theorem performMem_objs (s : State) (tenant task a : Nat) (bs : List Byte) (core strand : Option Nat) :
    (s.performMem tenant task a bs core strand).objs = s.objs := by
  unfold State.performMem
  simp only
  split
  · split
    · rfl
    · exact rasWrite_objs _ _ _
  · exact fixBefore_objs _ _ _

/-- Where no error stands in memory, a write is its bytes. -/
theorem performMem_mem {s : State} (hs : s.memSyn = []) (hp : s.poison = []) (hl : s.lost = []) (tenant task a : Nat) (bs : List Byte)
    (core strand : Option Nat) : (s.performMem tenant task a bs core strand).mem = (s.putMem a bs).mem := by
  simp only [State.performMem, poisonOf_of_none hp hl, fixBefore_of_memSyn_nil hs]
  rfl

/-! ### Stores at their homes (R73) -/

theorem hostPost_mem (s : State) (tenant pa : Nat) (bs mask : List Byte) : (s.hostPost tenant pa bs mask).mem = s.mem := by
  unfold State.hostPost
  simp only
  split
  · rfl
  · unfold State.countDropped State.hostErr
    simp only
    split
    · exact vector_mem _ _ _
    · rfl

theorem memOk_performStore {s : State} (h : s.memOk) (x : Store) : (s.performStore x).memOk := by
  unfold State.performStore
  split
  · exact State.memOk.of_mem h (hostPost_mem _ _ _ _ _)
  · exact memOk_performMem h _ _ _ _ _ _

theorem memOk_performWhere {s : State} (h : s.memOk) (p : Store → Bool) : (s.performWhere p).memOk := by
  unfold State.performWhere
  split
  · exact h
  · refine memOk_foldl id (fun s x hs => ?_) _ (h.of_mem rfl)
    simp only [id]
    split
    · exact memOk_performStore hs x
    · exact hs.of_mem rfl

/-! ### Places (R96 to R102) -/

/-- `t` is `s` after a translation: kept translations and the next free choice are all that can differ. -/
def Translated (s t : State) : Prop := t = { s with tlb := t.tlb, fresh := t.fresh }

theorem Translated.refl (s : State) : Translated s s := rfl

theorem Translated.trans {s t u : State} (h : Translated s t) (k : Translated t u) : Translated s u :=
  Eq.trans k (congrArg (fun w : State => { w with tlb := u.tlb, fresh := u.fresh }) h)

theorem Translated.mem {s t : State} (h : Translated s t) : t.mem = s.mem := (congrArg State.mem h).trans rfl

theorem contigWalk_translated (s : State) (tbl va : Nat) : Translated s (s.contigWalk tbl va).1 := by
  unfold State.contigWalk
  extract_lets own near group contig fits
  split
  · rfl
  · split <;> rfl

theorem translate_translated (s : State) (core va : Nat) : Translated s (s.translate core va).1 := by
  unfold State.translate
  extract_lets d
  have hwalk : Translated s (if d.ptbase.toNat / 2 ^ 11 = 0 then (s, .error 2)
      else s.contigWalk (d.ptbase.toNat / 2 ^ 11 * 2 ^ 11 % 2 ^ 46) va : State × Except Nat (Nat × Nat)).1 := by
    split
    · rfl
    · exact contigWalk_translated _ _ _
  generalize (if d.ptbase.toNat / 2 ^ 11 = 0 then (s, .error 2)
    else s.contigWalk (d.ptbase.toNat / 2 ^ 11 * 2 ^ 11 % 2 ^ 46) va : State × Except Nat (Nat × Nat)) = q at hwalk
  obtain ⟨u, now⟩ := q
  refine hwalk.trans ?_
  dsimp only
  split
  · cases now <;> rfl
  · split
    · split
      · rfl
      · split <;> rfl
    · split <;> rfl

theorem pagePlace_translated (s : State) (core : Nat) (sup : Bool) (need : Need) (va : Nat) :
    Translated s (s.pagePlace core sup need va).1 := by
  have h := translate_translated s core va
  unfold State.pagePlace
  split
  · rfl
  · simp only
    split
    · exact h
    · split
      · exact h
      · exact h

theorem globalPlace_translated (s : State) (core : Nat) (sup : Bool) (need : Need) (kind va : Nat) :
    Translated s (s.globalPlace core sup need kind va).1 := by
  have h := pagePlace_translated s core sup need va
  unfold State.globalPlace
  split
  · rename_i ht
    rw [ht] at h
    exact h
  · exact h

/-! ### Requests and posted writes (R89, R480) -/

theorem snoopLine_mem (s : State) (line : Nat) : (s.snoopLine line).mem = s.mem := by
  unfold State.snoopLine
  split <;> rfl

theorem request_mem (s : State) (die : Nat) (owner : ReqOwner) (f : Flit) (va : Word) (len : Nat) (payloads : List (List Byte)) :
    (s.request die owner f va len payloads).1.mem = s.mem := rfl

theorem postFor_mem (s : State) (n : Nat) (q : Posted) : (s.postFor n q).mem = s.mem := by
  unfold State.postFor
  extract_lets x node lseq prev u mask
  have hu : u.mem = s.mem := by
    dsimp only [u]
    split <;> rfl
  split
  rename_i w id hw
  have hm : w.mem = u.mem := by
    have hw1 := congrArg (fun p => p.1.mem) hw
    dsimp only at hw1
    rw [← hw1]
    split <;> rfl
  extract_lets t
  have ht : t.mem = s.mem := hm.trans hu
  split
  · exact (setCore_mem ..).trans ht
  · exact ht

/-! ### What leaves an attachment (R79, R213) -/

theorem memOk_writeRun {s : State} (h : s.memOk) (n : Nat) (sup skip : Bool) (a : Attachment) (run : Nat × Nat) :
    (s.writeRun n sup skip a run).1.memOk := by
  unfold State.writeRun
  extract_lets core va bs
  have hp : (s.globalPlace core sup .wr 1 va).1.memOk := h.of_mem (globalPlace_translated ..).mem
  generalize s.globalPlace core sup .wr 1 va = q at hp
  have hqueued (u : State) (hu : u.memOk) (line : Nat) : (if u.held.contains line then u.snoopLine line else u).memOk := by
    split
    · exact hu.of_mem (snoopLine_mem _ _)
    · exact hu
  split
  · exact hp
  · split
    · exact hp
    · exact (hqueued _ hp _).of_mem rfl
  · split
    · exact hp
    · exact (hqueued _ hp _).of_mem rfl
  · split
    · exact hp
    · exact State.memOk.of_mem hp (postFor_mem _ _ _)
  · exact hp

theorem memOk_writeBack {s : State} (h : s.memOk) (n : Nat) (sup skip : Bool) (a : Attachment) : (s.writeBack n sup skip a).1.memOk := by
  unfold State.writeBack
  extract_lets runs
  refine memOk_foldl Prod.fst (fun p run hp => ?_) _ h
  obtain ⟨s, a, stop⟩ := p
  dsimp only
  split
  · exact hp
  · have hr := memOk_writeRun hp n sup skip a run
    split
    · rename_i hq
      rw [hq] at hr
      exact hr
    · rename_i hq
      rw [hq] at hr
      exact hr

/-! ### Objects (R78) -/

theorem unsure_of_sound {s : State} {pa : Nat} (h : s.objSound pa = true) : s.unsure pa = s := by
  rw [State.unsure, if_pos h]

/-- What is undefined in an object that was marred is its BARRIER and BND words. -/
theorem unsure_mem (s : State) (pa : Nat) : (s.unsure pa).mem = s.mem ∨
    ∃ v w, (s.unsure pa).mem = ((s.putMem (pa + 8) (leBytes 8 v)).putMem (pa + 32) (leBytes 32 w)).mem := by
  unfold State.unsure
  split
  · exact .inl rfl
  · split
    · exact .inl rfl
    · refine .inr ⟨(Config.freeBits s.fresh).toNat, (Config.freeBits (s.fresh + 1)).toNat, ?_⟩
      dsimp only [State.draw, State.putMem]

theorem memOk_unsure {s : State} (h : s.memOk) (pa : Nat) : (s.unsure pa).memOk := by
  rcases unsure_mem s pa with hm | ⟨v, w, hm⟩
  · exact h.of_mem hm
  · exact (memOk_putMem (memOk_putMem h _ _) _ _).of_mem hm

theorem memByte_unsure_other {s : State} {pa a : Nat} (h8 : a < pa + 8 ∨ pa + 16 ≤ a) (h32 : a < pa + 32 ∨ pa + 64 ≤ a) :
    (s.unsure pa).memByte a = s.memByte a := by
  rcases unsure_mem s pa with hm | ⟨v, w, hm⟩
  · exact memByte_of_mem hm a
  · rw [memByte_of_mem hm, memByte_putMem_other (by rw [leBytes_length]; omega), memByte_putMem_other (by rw [leBytes_length]; omega)]

theorem memOk_writeObj {s : State} (h : s.memOk) (task pa off : Nat) (bs : List Byte) : (s.writeObj task pa off bs).memOk := by
  unfold State.writeObj
  extract_lets sound u
  have hu : u.memOk := memOk_performMem h _ _ _ _ _ _
  split
  · exact hu.of_mem rfl
  · exact hu

/-- The contents of an object that were noted as its last are sound. -/
theorem objSound_note (s : State) (pa : Nat) : ({ s with objs := smSet 0 s.objs pa (s.objNow pa) } : State).objSound pa = true := by
  rw [State.objSound, smGet_smSet, if_pos rfl]
  exact beq_iff_eq.2 (objNow_of_mem (by dsimp only) pa).symm

/-- An instruction on a sound object keeps it sound. -/
theorem objSound_writeObj {s : State} {pa : Nat} (h : s.objSound pa = true) (task off : Nat) (bs : List Byte) :
    (s.writeObj task pa off bs).objSound pa = true := by
  unfold State.writeObj
  extract_lets sound u
  rw [if_pos (show sound = true from h)]
  exact objSound_note u pa

/-- An ordinary write that changes a BARRIER or BND word of a sound object mars it. -/
theorem objSound_performMem_of_ne {s : State} {pa : Nat} (h : s.objSound pa = true) (tenant task a : Nat) (bs : List Byte)
    (hne : (s.performMem tenant task a bs).objNow pa ≠ s.objNow pa) : (s.performMem tenant task a bs).objSound pa = false := by
  rw [State.objSound, beq_iff_eq] at h
  rw [State.objSound, performMem_objs, h, beq_eq_false_iff_ne]
  exact hne.symm

/-! ### Ended strands (R48, R213) -/

theorem memOk_releaseSlot {s : State} (h : s.memOk) (n : Nat) (sl : SyncSlot) : (s.releaseSlot n sl).memOk := by
  unfold State.releaseSlot
  extract_lets core sup u
  have hu : u.memOk := by
    dsimp only [u]
    split
    · exact memOk_writeBack h _ _ _ _
    · exact h
  split
  · split
    · split
      · exact hu
      · exact memOk_writeObj (memOk_unsure hu _) _ _ _ _
    · exact hu
  · exact hu

theorem memOk_leaveSlot {s : State} (h : s.memOk) (n : Nat) : (s.leaveSlot n).memOk := by
  unfold State.leaveSlot
  extract_lets u
  have hu : u.memOk := memOk_foldl id (f := fun (s : State) (p : Nat × SyncSlot) => s.releaseSlot n p.2)
    (fun _ p hs => memOk_releaseSlot hs n p.2) _ h
  exact hu.of_mem rfl

/-! ### The scratchpad, with what a read of it fills (R79) -/

@[simp] theorem putSpm_mem (s : State) (core off : Nat) (bs : List Byte) : (s.putSpm core off bs).mem = s.mem := rfl

theorem putFill_mem (s : State) (core : Nat) (a : Attachment) (line : Nat) (bs : List Byte) : (s.putFill core a line bs).1.mem = s.mem := by
  refine mem_foldl (fun s p => ?_) _ s
  dsimp only
  split
  · rfl
  · exact putSpm_mem ..

theorem memOk_mapBound {s : State} (h : s.memOk) (core : Nat) {f : State → Nat → Nat → Attachment → State × Attachment}
    (hf : ∀ s n k a, s.memOk → (f s n k a).1.memOk) : (s.mapBound core f).memOk := by
  refine memOk_foldl id (fun s i hs => ?_) _ h
  dsimp only [id]
  split
  · exact hs
  · refine memOk_foldl id (fun s p hs => ?_) _ hs
    dsimp only [id]
    split
    · exact hs
    · exact (hf _ _ _ _ hs).of_mem (setStrand_mem ..)

theorem memOk_fillOne {s : State} (h : s.memOk) (n k : Nat) (sup : Bool) (task : Nat) (a : Attachment) (line : Nat) :
    (s.fillOne n k sup task a line).1.memOk := by
  unfold State.fillOne
  extract_lets core va
  split
  · exact h
  · have hp : (s.globalPlace core sup .rd 0 va).1.memOk := h.of_mem (globalPlace_translated ..).mem
    generalize s.globalPlace core sup .rd 0 va = q at hp
    split
    · exact hp
    · rename_i w pa
      split
      · exact State.memOk.of_mem hp (snoopLine_mem _ _)
      · extract_lets u
        have hu : u.memOk := memOk_performWhere hp _
        have hscan := memOk_scanMem hu (u.tenantOf core) task pa 128
        split
        · rename_i hq
          rw [hq] at hscan
          exact memOk_rasWrite hscan _ _
        · rename_i hq
          rw [hq] at hscan
          exact hscan
        · rename_i hq
          rw [hq] at hscan
          exact hscan.of_mem (putFill_mem ..)
    · split
      · exact hp
      · exact State.memOk.of_mem hp (request_mem ..)
    · split
      · exact hp
      · exact (memOk_performWhere hp _).of_mem rfl
    · exact hp

theorem memOk_fillLines {s : State} (h : s.memOk) (n k : Nat) (sup : Bool) (task : Nat) (a : Attachment) (l : List Nat) :
    (s.fillLines n k sup task a l).1.memOk := by
  induction l generalizing s a with
  | nil => exact h
  | cons line r ih =>
    have h1 := memOk_fillOne h n k sup task a line
    unfold State.fillLines
    split
    · rename_i hq
      rw [hq] at h1
      exact ih h1 _
    · exact h1

theorem memOk_touchSpm {s : State} (h : s.memOk) (core off len : Nat) (sup : Bool) (task : Nat) : (s.touchSpm core off len sup task).1.memOk := by
  refine memOk_foldl Prod.fst (fun p b hp => ?_) _ h
  obtain ⟨s, stop⟩ := p
  dsimp only
  split
  · exact hp
  · exact (memOk_fillLines hp _ _ _ _ _ _).of_mem (setStrand_mem ..)

theorem memOk_writeSpm {s : State} (h : s.memOk) (core off : Nat) (bs : List Byte) : (s.writeSpm core off bs).memOk := by
  unfold State.writeSpm
  extract_lets n fixed u v
  have hu : u.memOk := by
    dsimp only [u]
    split
    · exact h
    · refine (memOk_foldl id (fun s p hs => ?_) _ h).of_mem (setCore_mem ..)
      dsimp only [id]
      split
      · exact hs
      · split
        · exact hs.of_mem (putSpm_mem ..)
        · exact hs
  refine memOk_mapBound (hu.of_mem (putSpm_mem ..)) core fun s _ _ a hs => ?_
  split
  · exact hs
  · exact hs

/-! ### Writes of an engine or a request to its place -/

theorem memOk_putRun {s : State} (h : s.memOk) (tenant : Nat) (t : Target) (run : Nat × List (Byte × Byte)) : (s.putRun tenant t run).memOk := by
  unfold State.putRun
  cases t with
  | spm core o => exact memOk_writeSpm (memOk_touchSpm h _ _ _ _ _) _ _ _
  | mem a => exact memOk_performMem h _ _ _ _ _ _
  | host a => exact h.of_mem (hostPost_mem _ _ _ _ _)
  | dev o => exact h

theorem memOk_putTarget {s : State} (h : s.memOk) (tenant : Nat) (t : Target) (l : List (Byte × Byte)) : (s.putTarget tenant t l).memOk :=
  memOk_foldl id (fun _ run hs => memOk_putRun hs tenant t run) _ h

/-! ### Where a line lives (R471, R472, R482) -/

theorem homeOf_lt (a : Nat) : (homeOf a).1 < 8 ∧ (homeOf a).2 < 32 := by
  unfold homeOf
  extract_lets l i h
  have hh : h < 2 ^ 8 :=
    Nat.xor_lt_two_pow (Nat.xor_lt_two_pow (Nat.xor_lt_two_pow (by omega) (by omega)) (by omega)) (by omega)
  omega

theorem stacks_of_line (a : Nat) : stackOf a < 12 ∧ parityStackOf a < 12 ∧ stackOf a ≠ parityStackOf a := by
  simp only [stackOf, parityStackOf, stripeOf]
  omega

/-- Settles O43: each operation changes memory through byte writes alone, which keep the form. -/
theorem memoryOperations : Obligations.MemoryOperations := by
  unfold Obligations.MemoryOperations
  intro s h
  refine ⟨fun _ _ _ _ => memOk_performMem h _ _ _ _ _ _, memOk_performWhere h, memOk_rasWrite h, memOk_writeBack h, memOk_scanMem h,
    memOk_putTarget h, memOk_leaveSlot h, fun tenant task a bs hs hp hl => ?_, fun _ _ _ _ _ hsound => objSound_performMem_of_ne hsound _ _ _ _,
    fun _ hsound => ⟨unsure_of_sound hsound, fun _ _ _ => objSound_writeObj hsound _ _ _⟩,
    fun pa => ⟨memOk_unsure h pa, fun _ => memByte_unsure_other⟩, fun a => ?_⟩
  · have hm := performMem_mem hs hp hl tenant task a bs none none
    exact ⟨(memBytes_of_mem hm _ _).trans (memBytes_putMem_self s a bs),
      fun b hb => (memByte_of_mem hm b).trans (memByte_putMem_other hb)⟩
  · obtain ⟨hdie, hslice⟩ := homeOf_lt a
    exact ⟨hdie, hslice, stacks_of_line a⟩

end Sys2Proof.Machine

/-!
Loads and stores (O14): the place of an address of the own scratchpad, what a load of a scratchpad or of memory boards, what a store leaves,
and what a store or a parity update does when it is performed.
-/
namespace Sys2Proof.Machine

/-! ### Loaded values (R20, R185) -/

theorem leNat_lt (l : List Byte) : leNat l < 2 ^ (8 * l.length) := by
  induction l with
  | nil => simp [leNat]
  | cons b r ih =>
    have hb := b.isLt
    have hp : 2 ^ (8 * (b :: r).length) = 2 ^ 8 * 2 ^ (8 * r.length) := by rw [← pow_add, List.length_cons]; congr 1; omega
    rw [leNat, hp]
    omega

/-- LD and LDX extend with zeros. -/
theorem loadVal_unsigned {l : List Byte} (h : l.length ≤ 8) : (loadVal false l).setWidth 256 = BitVec.ofNat 256 (leNat l) := by
  have hl : leNat l < 2 ^ 64 := (leNat_lt l).trans_le (Nat.pow_le_pow_right (by decide) (by omega))
  apply BitVec.eq_of_toNat_eq
  simp [loadVal]
  omega

/-- LDS extends with the sign. -/
theorem loadVal_signed {l : List Byte} {n : Nat} (hn : l.length = n) (h : 1 ≤ n) (h8 : n ≤ 8) :
    loadVal true l = (BitVec.ofNat (8 * n) (leNat l)).signExtend 64 := by
  subst hn
  have hl := leNat_lt l
  have hw : 2 ^ (8 * l.length) ≤ 2 ^ 64 := Nat.pow_le_pow_right (by decide) (by omega)
  apply BitVec.eq_of_toNat_eq
  rw [BitVec.toNat_signExtend, BitVec.msb_eq_decide, BitVec.toNat_setWidth, BitVec.toNat_ofNat, Nat.mod_eq_of_lt hl,
    Nat.mod_eq_of_lt (hl.trans_le hw), loadVal, BitVec.toNat_ofNat]
  by_cases hs : 2 ^ (8 * l.length - 1) ≤ leNat l
  · simp only [hs, decide_true, Bool.and_self, if_true]
    exact Nat.mod_eq_of_lt (by omega)
  · simp only [hs, decide_false, Bool.and_false, Bool.false_eq_true, if_false, Nat.add_zero]
    exact Nat.mod_eq_of_lt (by omega)

/-! ### Places of the own scratchpad (R27, R28) -/

theorem place_translated (s : State) (core : Nat) (sup : Bool) (need : Need) (kind : Nat) (va : Word) :
    Translated s (s.place core sup need kind va).1 := by
  unfold State.place
  split
  · exact Translated.refl s
  · exact globalPlace_translated ..

theorem Translated.cur {s t : State} (h : Translated s t) : t.cur = s.cur := (congrArg State.cur h).trans rfl

/-- A translation moves the machine to no other strand. -/
theorem cur_of_place {s u : State} {core : Nat} {sup : Bool} {need : Need} {kind : Nat} {va : Word} {r : Except Trap Place}
    (h : s.place core sup need kind va = (u, r)) : u.cur = s.cur := by
  have ht := place_translated s core sup need kind va
  rw [h] at ht
  exact ht.cur

theorem localPlace_own {off : Nat} (h : off < 0x400000) (core : Nat) : localPlace core off = .ok (.spm core off true) := if_pos h

theorem place_own {s : State} {va : Word} {off : Nat} (hva : va.toNat = localBase + off) (h : off < 0x400000) (core : Nat) (sup : Bool)
    (need : Need) (kind : Nat) : s.place core sup need kind va = (s, .ok (.spm core off true)) := by
  have hlocal : isLocal va.toNat = true := by
    simp only [isLocal, hva, localBase, Bool.and_eq_true, decide_eq_true_eq]
    omega
  rw [State.place, if_pos hlocal, hva, Nat.add_sub_cancel_left, localPlace_own h]

/-! ### Loads (R185, R187) -/

theorem boards_landLoad (s : State) (d : Dest) (sext : Bool) (l : List Byte) : Boards s (s.landLoad d sext l) d
    (if l.length ≤ 8 then (loadVal sext l).setWidth 256 else BitVec.ofNat 256 (leNat l)) :=
  ⟨_, rfl, rfl, rfl, rfl, rfl⟩

theorem boards_landLoad_unsigned (s : State) (d : Dest) (l : List Byte) : Boards s (s.landLoad d false l) d (BitVec.ofNat 256 (leNat l)) := by
  have h := boards_landLoad s d false l
  split at h
  · rename_i hl
    rwa [loadVal_unsigned hl] at h
  · exact h

theorem boards_landLoad_signed (s : State) (d : Dest) {l : List Byte} {n : Nat} (hn : l.length = n) (h1 : 1 ≤ n) (h8 : n ≤ 8) :
    Boards s (s.landLoad d true l) d (((BitVec.ofNat (8 * n) (leNat l)).signExtend 64).setWidth 256) := by
  have h := boards_landLoad s d true l
  rwa [if_pos (by omega), loadVal_signed hn h1 h8] at h

theorem loadAt_misaligned {s : State} {va : Word} {n : Nat} (h : va.toNat % n ≠ 0) (d : Dest) (sext : Bool) (hint : Nat) :
    s.loadAt d va n sext hint = s.raise (5, 0) va := if_pos h

theorem loadAt_own {s : State} {va : Word} {off n : Nat} (hs : s.plainSpm s.curCore) (ho : s.ownBytes va off n) (hn : 1 ≤ n)
    (hu : s.st.unordered s.curCore va.toNat n = false) (d : Dest) (sext : Bool) (hint : Nat) :
    s.loadAt d va n sext hint = s.landLoad d sext (s.spmBytes s.curCore off n) := by
  obtain ⟨hva, hend, halign, hwin⟩ := ho
  have hfetch : s.fetchPlace s.who (.spm s.curCore off true) n hint = (s, .bytes (s.spmBytes s.curCore off n)) :=
    fetchSpm_plain hs s.who off n true fun k hk _ => by cases hk; exact hwin
  rw [State.loadAt, if_neg (not_not.2 halign)]
  simp only [place_own hva (show off < 0x400000 by omega), hfetch, hu]
  rfl

/-- With no sector in the core's L1 and nothing outstanding, a read of memory is its home's bytes, and hint 0 keeps the line (R187). -/
theorem fetchMem_plain {s : State} {w : Who} (hm : s.plainMem) (hl : s.noL1 w.core) {n : Nat} (h1 : 1 ≤ n) (h8 : n ≤ 8) (pa hint : Nat) :
    s.fetchMem w pa n hint = (if hint = 0 then s.fillLine w.core (pa / 128) else s, .bytes (s.memBytes pa n)) := by
  obtain ⟨hstores, -, hheld, hsyn, hpoison, hlost, hl2⟩ := hm
  obtain ⟨hl1, hinj⟩ := hl
  have hscan1 : s.scanL1 w.core w.task pa n = (s, .ok) := by rw [State.scanL1, hinj]; rfl
  have hscan2 : s.scanMem (s.tenantOf w.core) w.task pa n = (s, .ok) := by
    rw [State.scanMem, State.scanL2, hl2]
    simp [State.scanDram, hsyn, hpoison, hlost]
  have hload : s.loadMem w.core pa n hint = (if hint = 0 then s.fillLine w.core (pa / 128) else s, s.memBytes pa n) := by
    simp only [State.loadMem, State.performWhere, hstores, List.isEmpty_nil, if_true, hl1]
    rfl
  have hk : min n 8 = n := by omega
  have hone : List.range (n / n) = [0] := by rw [Nat.div_self (by omega)]; rfl
  unfold State.fetchMem
  rw [hheld]
  simp only [List.any_nil, Bool.false_eq_true, if_false, hscan1, ite_self, hscan2, hk, hone, List.foldl_cons, List.foldl_nil, Nat.zero_mul,
    Nat.add_zero, hload, List.nil_append]

theorem l1Room_frame (s : State) (core line : Nat) :
    (s.l1Room core line).mem = s.mem ∧ (s.l1Room core line).strands = s.strands ∧ (s.l1Room core line).cur = s.cur := by
  unfold State.l1Room
  split
  · exact ⟨rfl, rfl, rfl⟩
  · extract_lets lines
    split
    · exact ⟨rfl, rfl, rfl⟩
    · exact ⟨rfl, rfl, rfl⟩

/-- Keeping a line changes neither memory nor a strand. -/
theorem fillLine_frame (s : State) (core line : Nat) :
    (s.fillLine core line).mem = s.mem ∧ (s.fillLine core line).st = s.st ∧ (s.fillLine core line).cur = s.cur := by
  obtain ⟨hmem, hstrands, hcur⟩ := l1Room_frame s core line
  refine ⟨hmem, ?_, hcur⟩
  show smGet {} (s.l1Room core line).strands (s.l1Room core line).cur = _
  rw [hstrands, hcur]
  rfl

/-- The machine after a load of memory: hint 0 keeps the line (R187). -/
def State.afterLoad (s : State) (core pa hint : Nat) : State := if hint = 0 then s.fillLine core (pa / 128) else s

theorem afterLoad_frame (s : State) (core pa hint : Nat) :
    (s.afterLoad core pa hint).mem = s.mem ∧ (s.afterLoad core pa hint).st = s.st ∧ (s.afterLoad core pa hint).cur = s.cur := by
  unfold State.afterLoad
  split
  · exact fillLine_frame ..
  · exact ⟨rfl, rfl, rfl⟩

theorem loadAt_mem {s u : State} {va : Word} {pa n : Nat} (hp : s.place s.curCore s.st.src.sup .rd 0 va = (u, .ok (.mem pa)))
    (ha : va.toNat % n = 0) (hm : u.plainMem) (hl : u.noL1 s.curCore) (hu : u.st.unordered s.curCore va.toNat n = false) (h1 : 1 ≤ n)
    (h8 : n ≤ 8) (d : Dest) (sext : Bool) (hint : Nat) :
    s.loadAt d va n sext hint = (u.afterLoad s.curCore pa hint).landLoad d sext (u.memBytes pa n) := by
  have hcore : u.curCore = s.curCore := congrArg coreOf (cur_of_place hp)
  obtain ⟨-, hst, hcur⟩ := afterLoad_frame u s.curCore pa hint
  have hcore' : (u.afterLoad s.curCore pa hint).curCore = s.curCore := (congrArg coreOf hcur).trans hcore
  have hfetch : u.fetchPlace u.who (.mem pa) n hint = (u.afterLoad s.curCore pa hint, .bytes (u.memBytes pa n)) := by
    rw [← hcore] at hl ⊢
    exact fetchMem_plain (w := u.who) hm hl h1 h8 pa hint
  rw [State.loadAt, if_neg (not_not.2 ha)]
  simp only [hp, hfetch, hst, hcore', hu]
  rfl

/-! ### Stores (R73, R185) -/

theorem storeAt_misaligned {s : State} {va : Word} {bs : List Byte} (h : va.toNat % bs.length ≠ 0) : s.storeAt va bs = s.raise (5, 0) va :=
  if_pos h

theorem writeSpm_plain {s : State} {core : Nat} (h : s.plainSpm core) (off : Nat) (bs : List Byte) :
    s.writeSpm core off bs = s.putSpm core off bs := by
  unfold State.writeSpm
  extract_lets n fixed u v
  have hu : u = s := if_pos (by rw [h.1]; rfl)
  have hv : v = s.putSpm core off bs := congrArg (·.putSpm core off bs) hu
  rw [mapBound_plain _ (by rw [hv]; exact h.2.2), hv]

theorem storeAt_own {s : State} {va : Word} {off : Nat} {bs : List Byte} (hs : s.plainSpm s.curCore) (ho : s.ownBytes va off bs.length)
    (h1 : 1 ≤ bs.length) (ha : s.st.again = false) : s.storeAt va bs = s.putSpm s.curCore off bs := by
  obtain ⟨hva, hend, halign, hwin⟩ := ho
  rw [State.storeAt]
  simp only [halign, place_own hva (show off < 0x400000 by omega), hwin, behindMark_plain hs, touchSpm_plain hs, State.produced, ha,
    writeSpm_plain hs, ne_eq, not_true_eq_false, if_false, Bool.not_true, Bool.and_false, Bool.false_eq_true]

theorem storeAt_mem {s u : State} {va : Word} {pa : Nat} {bs : List Byte} (hp : s.place s.curCore s.st.src.sup .wr 1 va = (u, .ok (.mem pa)))
    (halign : va.toNat % bs.length = 0) (ha : u.st.again = false) (hh : u.held = []) (hl : u.noL1 s.curCore) :
    s.storeAt va bs = { u with
      nextId := u.nextId + 1, stores := u.stores ++ [{ core := s.curCore, strand := s.cur, va := va.toNat, pa, bytes := bs, id := u.nextId }] } := by
  have hl1 (x : List (Byte × Byte)) : u.updateL1 s.curCore pa x = u := by rw [State.updateL1, hl.1]; rfl
  rw [State.storeAt]
  simp only [halign, hp, State.produced, ha, State.storeMem, hh, State.updateBytes, hl1, cur_of_place hp, ne_eq, not_true_eq_false, if_false,
    List.any_nil, Bool.false_eq_true]

/-! ### What is performed at its home (R73, R95) -/

theorem exec_writePerformed_store {s : State} {x : Store} (hx : s.stores[s.ev.n]? = some x) (hh : s.held = []) :
    exec .writePerformed s = .next (({ s with stores := s.stores.eraseIdx s.ev.n } : State).performStore x) := by
  simp only [exec_writePerformed, execWritePerformed, hx, hh]
  rfl

theorem exec_writePerformed_parity {s : State} {k : Nat} {x : Parity} (hx : s.parity[k]? = some x) (hn : s.ev.n = s.stores.length + k) :
    exec .writePerformed s = .next { s with
      parity := (s.parity.zipIdx.filter fun p => !(decide (p.2 ≤ k) && p.1.line == x.line)).map (·.1) } := by
  have hs : s.stores[s.ev.n]? = none := List.getElem?_eq_none (by omega)
  have hk : s.ev.n - s.stores.length = k := by omega
  simp only [exec_writePerformed, execWritePerformed, hs, hk, hx]
  rfl

/-- A write where no error stands in memory: its bytes, and a parity update of each of its lines of HBM. -/
theorem performMem_of_sound {s : State} (hs : s.memSyn = []) (hp : s.poison = []) (hl : s.lost = []) (tenant task a : Nat) (bs : List Byte)
    (core strand : Option Nat) : s.performMem tenant task a bs core strand =
      { (s.putMem a bs).beginParity a bs.length core strand with memSyn := synAfter s.memSyn a bs.length, l2inj := l2After s.l2inj a bs.length } := by
  simp only [State.performMem, poisonOf_of_none hp hl, fixBefore_of_memSyn_nil hs]

/-- A write within one line of HBM begins one parity update. -/
theorem beginParity_line {s : State} {a n : Nat} (ha : a < 528000000000) (h1 : 1 ≤ n) (hn : a % 128 + n ≤ 128) (core strand : Option Nat) :
    (s.beginParity a n core strand).parity = s.parity ++ [{ line := a / 128, core, strand }] := by
  have hone : (a + n + 127) / 128 - a / 128 = 1 := by omega
  have hhbm : isHbm (a / 128 * 128) = true := decide_eq_true (by omega)
  simp [State.beginParity, hone, hhbm]

theorem hostPost_up {s : State} (h : s.hostUp = true) (tenant pa : Nat) (bs : List Byte) : s.hostPost tenant pa bs =
    { s with out := s.out ++ [.hostWrite (s.hostFnOf tenant) (pa % 2 ^ 46 - 0x200000000000) (s.pasidOf tenant) bs []] } := if_pos h

/-- What stays of the parity updates when the one at `k` completes: all but the ones of its line up to it. -/
theorem mem_parity_left {l : List Parity} {k line : Nat} {y : Parity} :
    y ∈ (l.zipIdx.filter fun p => !(decide (p.2 ≤ k) && p.1.line == line)).map (·.1) ↔
      ∃ i, l[i]? = some y ∧ ¬ (i ≤ k ∧ y.line = line) := by
  simp only [List.mem_map, List.mem_filter, Prod.exists, List.mk_mem_zipIdx_iff_getElem?, exists_and_right, exists_eq_right, Bool.not_eq_true',
    Bool.and_eq_false_iff, decide_eq_false_iff_not, beq_eq_false_iff_ne, not_and_or]

theorem spmBytes_length (s : State) (core off n : Nat) : (s.spmBytes core off n).length = n := by simp [State.spmBytes]

theorem memBytes_length (s : State) (a n : Nat) : (s.memBytes a n).length = n := by simp [State.memBytes]

/-- The sizes of R185: 1, 2, 4 and 8 bytes. -/
theorem sizeOf2_bounds (z : BitVec 2) : 1 ≤ 2 ^ z.toNat ∧ 2 ^ z.toNat ≤ 8 := by
  have hz : z.toNat ≤ 3 := by omega
  exact ⟨Nat.one_le_two_pow, Nat.pow_le_pow_right (by decide) hz⟩

/-! ### The obligation -/

/-- Settles O14: a load boards the bytes at the place of its address, a store writes them there or queues them, and what is performed
at its home is a write of memory, a message to the host or the end of parity updates. -/
theorem loadsAndStores : Obligations.LoadsAndStores := by
  unfold Obligations.LoadsAndStores
  refine ⟨fun s d a q i z h x => ?_, fun s r a q i z x => ?_, fun s x hx hh hs hp hl hl2 => ⟨fun hhost => ?_, fun hhost hup => ?_⟩,
    fun s k x hx hn => ?_⟩
  · intro n va vx zero sign
    obtain ⟨h1, h8⟩ := sizeOf2_bounds z
    refine ⟨fun off hs ho hu => ⟨⟨_, congrArg Host.Outcome.next (loadAt_own hs ho h1 hu ..), boards_landLoad_unsigned ..⟩,
        ⟨_, congrArg Host.Outcome.next (loadAt_own hs ho h1 hu ..), boards_landLoad_signed _ _ (spmBytes_length ..) h1 h8⟩⟩,
      fun off hs ho hu => ⟨_, congrArg Host.Outcome.next (loadAt_own hs ho (by decide) hu ..), boards_landLoad_unsigned ..⟩,
      fun off hs ho hu => ⟨_, congrArg Host.Outcome.next (loadAt_own hs ho (by decide) hu ..), boards_landLoad_unsigned ..⟩,
      fun u pa hp ha hm hl hu => ?_,
      fun hmis => ⟨congrArg Host.Outcome.next (loadAt_misaligned hmis ..), congrArg Host.Outcome.next (loadAt_misaligned hmis ..), ?_⟩,
      fun hmis => ⟨congrArg Host.Outcome.next (loadAt_misaligned hmis ..), ?_⟩,
      fun hmis => ⟨congrArg Host.Outcome.next (loadAt_misaligned hmis ..), ?_⟩⟩
    · have hkept : u.afterLoad s.curCore pa h.toNat = if h = 0 then u.fillLine s.curCore (pa / 128) else u := by
        rw [State.afterLoad]
        exact if_congr (by rw [← BitVec.toNat_inj]; rfl) rfl rfl
      have hmem := (afterLoad_frame u s.curCore pa h.toNat).1
      rw [← hkept]
      exact ⟨⟨_, congrArg Host.Outcome.next (loadAt_mem hp ha hm hl hu h1 h8 ..), hmem, boards_landLoad_unsigned ..⟩,
        ⟨_, congrArg Host.Outcome.next (loadAt_mem hp ha hm hl hu h1 h8 ..), hmem, boards_landLoad_signed _ _ (memBytes_length ..) h1 h8⟩⟩
    · exact congrArg Host.Outcome.next (storeAt_misaligned (by rw [leBytes_length]; exact hmis))
    · exact congrArg Host.Outcome.next (storeAt_misaligned (by rw [leBytes_length]; exact hmis))
    · exact congrArg Host.Outcome.next (storeAt_misaligned (by rw [leBytes_length]; exact hmis))
  · intro stored
    have hstored (va : Word) (l : List Byte) (h1 : 1 ≤ l.length) : stored va l (.next (s.storeAt va l)) := by
      refine ⟨fun off ha hs ho => ⟨_, congrArg Host.Outcome.next (storeAt_own hs ho h1 ha), ?_, fun k => spm_putSpm ..⟩,
        fun u pa ha hp halign hh hl => congrArg Host.Outcome.next (storeAt_mem hp halign ha hh hl)⟩
      rw [State.putSpm, State.modCore, coreAt_setCore, if_pos rfl]
    exact ⟨hstored _ _ (by rw [leBytes_length]; exact (sizeOf2_bounds z).1), hstored _ _ (by rw [leBytes_length]; decide),
      hstored _ _ (by rw [leBytes_length]; decide)⟩
  · refine ⟨_, exec_writePerformed_store hx hh, ?_⟩
    rw [State.performStore, if_neg (by simp [hhost]), performMem_of_sound (by exact hs) (by exact hp) (by exact hl)]
    exact ⟨fun a => memByte_putMem s x.pa a x.bytes, rfl, rfl, rfl, fun ha h1 hn => beginParity_line ha h1 hn ..⟩
  · rw [exec_writePerformed_store hx hh, State.performStore, if_pos hhost]
    exact congrArg Host.Outcome.next (hostPost_up (s := { s with stores := s.stores.eraseIdx s.ev.n }) hup ..)
  · refine ⟨_, exec_writePerformed_parity hx hn, rfl, fun y hy hline => ?_, fun y hy => ?_, fun y hline => ?_⟩
    · by_cases hin : y ∈ s.parity.drop (k + 1)
      · exact .inr hin
      · refine .inl fun hleft => hin ?_
        obtain ⟨i, hi, hlater⟩ := mem_parity_left.1 hleft
        have hik : k < i := not_le.1 fun hik => hlater ⟨hik, hline⟩
        refine List.mem_iff_getElem?.2 ⟨i - (k + 1), ?_⟩
        rw [List.getElem?_drop, Nat.add_sub_cancel' hik, hi]
    · obtain ⟨i, hi⟩ := List.mem_iff_getElem?.1 hy
      rw [List.getElem?_drop] at hi
      exact mem_parity_left.2 ⟨_, hi, fun h => by omega⟩
    · rw [mem_parity_left, List.mem_iff_getElem?]
      simp [hline]

end Sys2Proof.Machine

/-!
Entries of the engines (O24): what a V or M slot pushes and with which copies, what a commit-class one does at its turn and before it,
a nullified entry's turn, and how a completed entry leaves its queue.
-/
namespace Sys2Proof.Machine

/-! ### A nullified vector entry (R157) -/

section
variable {s : State} {e : Entry} (he : e.runs = false)
include he

theorem vRun_null (f : VFields) (inPlace : Bool) (ds : List Dst) (xs : List Src) (zeroToo : Bool) (go : State → List (List Got) → State) :
    s.vRun e f inPlace ds xs zeroToo go = s.endEntry e := by
  rw [State.vRun, if_pos (by rw [he]; rfl)]

theorem vPut_null (f : VFields) (xs : List Src) (op : Nat → List Got → List Val × Nat) : s.vPut e f xs op = s.endEntry e := vRun_null he ..

theorem vCode_null (f : VFields) (xs : List Src) (op : Nat → List Got → Nat × Nat) : s.vCode e f xs op = s.endEntry e := vRun_null he ..

theorem vArith_null (vop : Nat) (f : VFields) : s.vArith vop f e = s.endEntry e := vPut_null he ..

theorem vSign_null (neg : Bool) (vop : Nat) (f : VFields) : s.vSign neg vop f e = s.endEntry e := by
  unfold State.vSign
  split
  · exact vCode_null he ..
  · exact vArith_null he ..

theorem vTransc_null (vop : Nat) (f : VFields) : s.vTransc vop f e = s.endEntry e := vPut_null he ..

theorem vReduce_null (vop : Nat) (f : VFields) (op : List (Nat × Val) → Val × List (Nat × Nat)) : s.vReduce vop f e op = s.endEntry e := by
  unfold State.vReduce
  exact vRun_null he ..

theorem vBits_null (vop : Nat) (f : VFields) (op : Nat → Nat → Nat) : s.vBits vop f e op = s.endEntry e := vCode_null he ..

theorem vInt_null (vop : Nat) (f : VFields) (op : Nat → Nat → Int) : s.vInt vop f e op = s.endEntry e := vCode_null he ..

end

/-- Every vector instruction is pushed or has a turn, and a nullified entry's turn is its end. -/
theorem exec_v {i : Instr} {op : Nat} {f : VFields} (h : vCode i = some (op, f)) :
    ∃ run : State → Entry → State, (∀ s, exec i s = s.vInstr i run) ∧ ∀ s e, e.runs = false → run s e = s.endEntry e := by
  cases i with
  | vadd | vsub | vmul | vfma | vfms | vdiv | vmin | vmax | vsqrt | vrcp | vrsq | vscl | vaxpy | vclmp | vrnd =>
    exact ⟨_, fun _ => rfl, fun _ _ he => vArith_null he ..⟩
  | vabs | vneg => exact ⟨_, fun _ => rfl, fun _ _ he => vSign_null he ..⟩
  | vexp | vexp2 | vlog | vlog2 | vtanh | vsigm | vgelu | vsilu | vsin | vcos => exact ⟨_, fun _ => rfl, fun _ _ he => vTransc_null he ..⟩
  | vcvt | vcvtf | vcmp | vsel | viota => exact ⟨_, fun _ => rfl, fun _ _ he => vPut_null he ..⟩
  | vcvti | vmov | vfill => exact ⟨_, fun _ => rfl, fun _ _ he => vCode_null he ..⟩
  | vand | vor | vxor | vnot | vshl | vshr => exact ⟨_, fun _ => rfl, fun _ _ he => vBits_null he ..⟩
  | vrsum | vrmax | vrmin | vrssq | vramx | vlse => exact ⟨_, fun _ => rfl, fun _ _ he => vReduce_null he ..⟩
  | viadd | visub | vimul | vimin | vimax | vpopc | vbext | vhash => exact ⟨_, fun _ => rfl, fun _ _ he => vInt_null he ..⟩
  | vqnt | vdqnt | vscan | vvote | vflgc | vgth | vsct | vcmpr | vexpd => exact ⟨_, fun _ => rfl, fun _ _ he => vRun_null he ..⟩
  | vtrn =>
    refine ⟨_, fun _ => rfl, fun s e he => ?_⟩
    simp only [he, Bool.false_and, Bool.false_eq_true, if_false]
    exact vRun_null he ..
  | _ => cases h

/-! ### The copies that an entry takes (R143) -/

theorem makeEntry_v {i : Instr} {op : Nat} {f : VFields} (h : vCode i = some (op, f)) (r : Regs) : makeEntry r i =
    { instr := i, sup := r.sup, rmode := r.rmode.toNat, srSeed := r.srSeed.toNat, runs := r.guard f.ga && r.guard f.gb
      d := [(0, r.getT f.td.toNat), (1, r.getT f.ts1.toNat), (2, r.getT f.ts2.toNat), (3, r.getT f.ts3.toNat)]
      o := [(0, r.getS f.od.toNat), (1, r.getS f.os.toNat)], cnt := vCount r f } := by
  rw [makeEntry, h]

/-- An M-slot instruction is no V-slot instruction. -/
theorem vCode_of_mCode {i : Instr} {op : Nat} {f : MFields} (h : mCode i = some (op, f)) : vCode i = none := by
  cases i <;> cases h <;> rfl

theorem makeEntry_m {i : Instr} {op : Nat} {f : MFields} (h : mCode i = some (op, f)) (r : Regs) : makeEntry r i =
    { instr := i, sup := r.sup, rmode := r.rmode.toNat, srSeed := r.srSeed.toNat, runs := r.guard f.ga
      d := [(1, r.getT f.t1.toNat), (2, r.getT f.t2.toNat), (3, r.getT f.t3.toNat),
            (4, r.getT (f.imm.toNat / 2 ^ 22 % 64)), (5, r.getT (f.imm.toNat / 2 ^ 16 % 64))]
      o := [(1, r.getS f.o1.toNat), (2, r.getS f.o2.toNat), (3, r.getS f.o3.toNat)], cnt := f.n.toNat } := by
  rw [makeEntry, vCode_of_mCode h, h]

/-- The entry of an instruction other than MNEST, which copies the nest table too. -/
theorem entryOf_eq {i : Instr} (h : ∀ f, i ≠ .mnest f) (s : State) : s.entryOf i =
    { makeEntry s.st.src i with strand := some s.cur, core := s.curCore, seq := s.st.seq, rid := s.st.curRid, addr := s.st.addr } := by
  unfold State.entryOf
  split
  · exact absurd rfl (h _)
  · rfl

/-! ### What changes the current strand alone -/

/-- `t` is `s` but for its current strand, which is `x`. -/
structure OnlySt (s t : State) (x : Strand) : Prop where
  cur : t.cur = s.cur
  st : t.st = x
  mem : t.mem = s.mem
  cores : t.cores = s.cores
  stores : t.stores = s.stores
  posted : t.posted = s.posted
  others : ∀ n, n ≠ s.cur → t.strandAt n = s.strandAt n

theorem onlySt_refl (s : State) : OnlySt s s s.st := ⟨rfl, rfl, rfl, rfl, rfl, rfl, fun _ _ => rfl⟩

theorem onlySt_setSt (s : State) (x : Strand) : OnlySt s (s.setSt x) x :=
  ⟨rfl, by rw [State.setSt, State.st]; exact (strandAt_setStrand ..).trans (if_pos rfl), rfl, rfl, rfl, rfl,
    fun n hn => by rw [State.setSt, strandAt_setStrand, if_neg hn]⟩

theorem OnlySt.trans {s t u : State} {x y : Strand} (h : OnlySt s t x) (k : OnlySt t u y) : OnlySt s u y :=
  ⟨k.cur.trans h.cur, k.st, k.mem.trans h.mem, k.cores.trans h.cores, k.stores.trans h.stores, k.posted.trans h.posted,
    fun n hn => (k.others n (by rw [h.cur]; exact hn)).trans (h.others n hn)⟩

theorem OnlySt.modSt {s t : State} {x : Strand} (h : OnlySt s t x) (g : Strand → Strand) : OnlySt s (t.modSt g) (g x) := by
  have hx := h.st
  subst hx
  exact h.trans (onlySt_setSt t (g t.st))

/-! ### Signatures (R467) -/

@[simp] theorem addSig_queues (x : Strand) (w n : Nat) : (x.addSig w n).queues = x.queues := by unfold Strand.addSig; split <;> rfl
@[simp] theorem addSig_now (x : Strand) (w n : Nat) : (x.addSig w n).now = x.now := by unfold Strand.addSig; split <;> rfl

/-- A word joins the signature of the innermost region. -/
theorem sig_addSig {x : Strand} {q : Region} (h : x.regions.getLast? = some q) (w n : Nat) :
    (x.addSig w n).regions.getLast?.map (·.sig) = some (crc32c q.sig (leBytes n w)) := by
  simp [Strand.addSig, h]

/-! ### The push of an entry (R86, R157) -/

/-- The entry that a push of `i` puts into its queue. -/
def State.entryPushed (s : State) (i : Instr) (cycles rid : Nat) (after : List Nat) (covers : List (Nat × Nat)) : Entry :=
  { s.entryOf i with rid, cycles, after, covers }

/-- The strand with an entry more in queue `k`. -/
def Strand.queued (x : Strand) (k : Nat) (e : Entry) : Strand := { x with queues := smPut x.queues k (smGet [] x.queues k ++ [e]) }

theorem queues_queued (x : Strand) (k : Nat) (e : Entry) : smGet [] (x.queued k e).queues k = smGet [] x.queues k ++ [e] := by
  rw [Strand.queued, smGet_smPut, if_pos rfl]

/-- With nothing outstanding of the strand, nothing is performed before the push. -/
theorem earlier_quiet {s : State} (hs : s.stores = []) (hp : s.posted = []) (n : Nat) : (s.earlier n).1 = s := by
  simp [State.earlier, State.performWhere, State.scalarPosted, hs, hp]

theorem pushEntry_quiet {s : State} (hs : s.stores = []) (hp : s.posted = []) (i : Instr) (cycles : Nat) (w : Entry → List Span) :
    ∃ after covers, OnlySt s (s.pushEntry i cycles w)
      (s.st.queued ((engineOf i).getD 0) (s.entryPushed i cycles (s.entryOf i).rid after covers)) := by
  have h := earlier_quiet hs hp s.cur
  unfold State.pushEntry
  generalize s.earlier s.cur = p at h
  obtain ⟨t, after⟩ := p
  dsimp only at h
  subst h
  exact ⟨after, _, onlySt_setSt ..⟩

theorem push_quiet {s : State} (hs : s.stores = []) (hp : s.posted = []) (i : Instr) (cycles : Nat) (w : Entry → List Span) :
    ∃ after covers, OnlySt s (s.push i cycles w)
      ((s.st.queued ((engineOf i).getD 0) (s.entryPushed i cycles (s.entryOf i).rid after covers)).addSig (entryWord i).1 (entryWord i).2) := by
  obtain ⟨after, covers, h⟩ := pushEntry_quiet hs hp i cycles w
  exact ⟨after, covers, h.modSt (·.addSig (entryWord i).1 (entryWord i).2)⟩

/-! ### Vector instructions -/

theorem entryWord_v {i : Instr} {op : Nat} {f : VFields} (h : vCode i = some (op, f)) : entryWord i = (encodeV op f, 12) := by
  rw [entryWord, h]

theorem engineOf_v {i : Instr} {op : Nat} {f : VFields} (h : vCode i = some (op, f)) : engineOf i = some 0 := by
  rw [engineOf, h]

/-- A vector instruction is no MNEST. -/
theorem ne_mnest_of_vCode {i : Instr} {op : Nat} {f : VFields} (h : vCode i = some (op, f)) (g : MFields) : i ≠ .mnest g := by
  rintro rfl
  cases h

theorem cnt_entryOf_v {i : Instr} {op : Nat} {f : VFields} (h : vCode i = some (op, f)) (s : State) : (s.entryOf i).cnt = vCount s.st.src f := by
  rw [entryOf_eq (ne_mnest_of_vCode h), makeEntry_v h]

/-- A count register above 65,535 raises VCOUNT; any other vector instruction is pushed (R143). -/
theorem exec_v_issue {i : Instr} {op : Nat} {f : VFields} (h : vCode i = some (op, f)) {s : State} (he : s.engine = none) :
    exec i s = .next (if 65535 < vCount s.st.src f then s.raise (4, f.cnt.toNat % 64) s.st.addr
      else s.push i (vCycles op f (s.entryOf i)) (vWrites op f)) := by
  obtain ⟨run, hrun, -⟩ := exec_v h
  rw [hrun, State.vInstr, he]
  simp only [h, State.pushV, cnt_entryOf_v h]
  rfl

theorem exec_v_null {i : Instr} {op : Nat} {f : VFields} (h : vCode i = some (op, f)) {s : State} {e : Entry} (he : s.engine = some e)
    (hr : e.runs = false) (hinj : smFind (s.coreAt e.core).inj (injKey 7 0) = none) : exec i s = .next (s.endEntry e) := by
  obtain ⟨run, hrun, hnull⟩ := exec_v h
  rw [hrun, State.vInstr, he]
  simp only [State.engineTurn, hinj, hnull s e hr]
  simp [done]

/-- A vector instruction of a strand with nothing outstanding pushes its entry, and its word joins the signature. -/
theorem exec_v_pushed {s : State} {i : Instr} {op : Nat} {f : VFields} (h : vCode i = some (op, f)) (he : s.engine = none)
    (hcount : vCount s.st.src f ≤ 65535) (hs : s.stores = []) (hp : s.posted = []) : ∃ cycles after covers t, exec i s = .next t ∧
      OnlySt s t ((s.st.queued 0 (s.entryPushed i cycles (s.entryOf i).rid after covers)).addSig (encodeV op f) 12) := by
  obtain ⟨after, covers, ht⟩ := push_quiet hs hp i (vCycles op f (s.entryOf i)) (vWrites op f)
  rw [entryWord_v h, engineOf_v h] at ht
  exact ⟨_, after, covers, _, by rw [exec_v_issue h he, if_neg (by omega)], ht⟩

/-! ### M-slot instructions -/

theorem entryWord_m {i : Instr} {op : Nat} {f : MFields} (h : mCode i = some (op, f)) : entryWord i = (encodeM op f, 24) := by
  rw [entryWord, vCode_of_mCode h, h]

theorem runs_entryOf_m {i : Instr} {op : Nat} {f : MFields} (h : mCode i = some (op, f)) (hn : ∀ g, i ≠ .mnest g) (s : State) :
    (s.entryOf i).runs = s.st.src.guard f.ga := by
  rw [entryOf_eq hn, makeEntry_m h]

theorem meAlias_nil_left (r : List Ext) : meAlias [] r = none := rfl

theorem meAlias_nil_right (w : List Ext) : meAlias w [] = none := by
  have hw : (w.flatMap fun x => ([] : List Ext).map fun y => (extMeet x y).map fun sc => (x.reg, y.reg, sc)) = [] := by simp
  rw [meAlias, hw]
  rfl

section
variable {s : State} {i : Instr} {cycles : Entry → Nat} {exts : Entry → List Ext × List Ext} {run : State → Entry → State}

/-- A matrix instruction is pushed where no operand that it writes meets one that it reads (R286, R287). -/
theorem meInstr_issue (he : s.engine = none)
    (ha : (s.entryOf i).runs = true → meAlias (exts (s.entryOf i)).1 (exts (s.entryOf i)).2 = none) :
    ∃ w, s.meInstr i cycles exts run = .next (s.push i (cycles (s.entryOf i)) w) := by
  refine ⟨fun e => (exts e).1.flatMap Ext.spans, ?_⟩
  unfold State.meInstr
  rw [he]
  dsimp only
  split
  · rename_i aux haux
    split at haux
    · rename_i hr
      rw [ha hr] at haux
      cases haux
    · cases haux
  · rfl

theorem meInstr_aliased (he : s.engine = none) (hr : (s.entryOf i).runs = true) {aux : Nat}
    (ha : meAlias (exts (s.entryOf i)).1 (exts (s.entryOf i)).2 = some aux) :
    s.meInstr i cycles exts run = .next (s.raise (9, aux) s.st.addr) := by
  unfold State.meInstr
  rw [he]
  dsimp only
  rw [if_pos hr, ha]
  rfl

theorem meInstr_null {e : Entry} (he : s.engine = some e) (hr : e.runs = false) (hinj : (s.coreAt e.core).inj = []) :
    s.meInstr i cycles exts run = .next (s.endEntry e) := by
  unfold State.meInstr
  rw [he]
  dsimp only
  rw [State.engineTurn, hinj, hr]
  simp [smFind, done]

theorem ceInstr_null {e : Entry} (he : s.engine = some e) (hr : e.runs = false) (hinj : (s.coreAt e.core).inj = []) :
    s.ceInstr i run = .next (s.endEntry e) := by
  unfold State.ceInstr
  rw [he]
  dsimp only
  rw [State.engineTurn, hinj, hr]
  simp [smFind, done]

theorem keInstr_null {e : Entry} (he : s.engine = some e) (hr : e.runs = false) : s.keInstr i run = .next (s.endEntry e) := by
  unfold State.keInstr
  rw [he]
  dsimp only
  rw [hr]
  rfl

theorem dieInstr_null {e : Entry} (he : s.engine = some e) (hr : e.runs = false) : s.dieInstr i run = .next (s.endEntry e) := by
  unfold State.dieInstr
  rw [he]
  dsimp only
  rw [hr]
  rfl

theorem ceInstr_issue (he : s.engine = none) : ∃ w, s.ceInstr i run = .next (s.push i 16 w) :=
  ⟨commandWrites i, by rw [State.ceInstr, he]; rfl⟩

theorem keInstr_issue (he : s.engine = none) : ∃ w, s.keInstr i run = .next (s.push i 16 w) :=
  ⟨commandWrites i, by rw [State.keInstr, he]; rfl⟩

theorem dieInstr_issue (he : s.engine = none) : ∃ w, s.dieInstr i run = .next (s.push i 16 w) :=
  ⟨s.dieWrites i, by rw [State.dieInstr, he]; rfl⟩

end

/-- A command of a copy, collective, stash, optimiser or stage engine that is not commit-class. -/
theorem exec_m {i : Instr} {op : Nat} {f : MFields} (h : mCode i = some (op, f)) (h40 : 0x40 ≤ op) (h80 : op ≠ 0x80)
    (hc : (i == .opj f || i == .mbsend f) = false) : ∃ run, (∀ s, exec i s = s.ceInstr i run) ∨ (∀ s, exec i s = s.keInstr i run) ∨
      ∀ s, exec i s = s.dieInstr i run := by
  cases i with
  | cpy | cpyi | cpyrs | cpyk | cpymc | cwmk | ctpl => exact ⟨_, .inl fun _ => rfl⟩
  | clar | clrs | clag | clbc | clxr | clgrp => exact ⟨_, .inr (.inl fun _ => rfl)⟩
  | mbrls | mbpol | mbstgLoad | mbstgEnable | mbstgDestroy | mbstgCancel | stsh | stft | stpf | stdr | stqy | oprt | opsk =>
    exact ⟨_, .inr (.inr fun _ => rfl)⟩
  | mstep | mnest | mnset | mwb | mzero | mlda | mspc | msig | mscat | rgn => cases h; omega
  | opj | mbsend => cases h; simp at hc
  | _ => cases h

/-- It is pushed with 16 cycles (R157). -/
theorem exec_m_push {i : Instr} {op : Nat} {f : MFields} (h : mCode i = some (op, f)) (h40 : 0x40 ≤ op) (h80 : op ≠ 0x80)
    (hc : (i == .opj f || i == .mbsend f) = false) {s : State} (he : s.engine = none) : ∃ w, exec i s = .next (s.push i 16 w) := by
  obtain ⟨run, hx | hx | hx⟩ := exec_m h h40 h80 hc
  · rw [hx]; exact ceInstr_issue he
  · rw [hx]; exact keInstr_issue he
  · rw [hx]; exact dieInstr_issue he

/-- A matrix instruction other than MNSET. -/
theorem exec_me {i : Instr} {op : Nat} {f : MFields} (h : mCode i = some (op, f)) (h40 : op < 0x40) (hn : ∀ g, i ≠ .mnset g) :
    ∃ cycles exts run, ∀ s, exec i s = s.meInstr i cycles exts run := by
  cases i with
  | mstep | mnest | mwb | mzero | mlda | mspc | msig | mscat =>
    simp only [exec_mstep, execMstep, exec_mnest, execMnest, exec_mwb, execMwb, exec_mzero, execMzero, exec_mlda, execMlda, exec_mspc,
      execMspc, exec_msig, execMsig, exec_mscat, execMscat]
    exact ⟨_, _, _, fun _ => rfl⟩
  | mnset => exact absurd rfl (hn _)
  | _ => cases h <;> omega

theorem opj_null {s : State} {e : Entry} (f : MFields) (he : s.engine = some e) (hr : e.runs = false) :
    exec (.opj f) s = .next (s.endEntry e) := by
  rw [exec_opj, execOpj, he]
  dsimp only
  rw [hr]
  rfl

theorem mbsend_null {s : State} {e : Entry} (f : MFields) (he : s.engine = some e) (hr : e.runs = false) :
    exec (.mbsend f) s = .next (s.endEntry e) := by
  rw [exec_mbsend, execMbsend, he]
  dsimp only
  rw [hr]
  rfl

theorem mnset_turn {s : State} {e : Entry} (f : MFields) (he : s.engine = some e) : exec (.mnset f) s = .next (s.endEntry e) := by
  rw [exec_mnset, execMnset, he]
  rfl

/-- The turn of a nullified entry of an M-slot instruction is its end (R157). -/
theorem exec_m_null {i : Instr} {op : Nat} {f : MFields} (h : mCode i = some (op, f)) (h80 : op ≠ 0x80) {s : State} {e : Entry}
    (he : s.engine = some e) (hr : e.runs = false) (hinj : (s.coreAt e.core).inj = []) : exec i s = .next (s.endEntry e) := by
  cases i with
  | mstep | mnest | mwb | mzero | mlda | mspc | msig | mscat =>
    obtain ⟨cycles, exts, run, hx⟩ := exec_me h (by cases h; decide) (by simp)
    rw [hx]
    exact meInstr_null he hr hinj
  | mnset => exact mnset_turn _ he
  | opj => exact opj_null _ he hr
  | mbsend => exact mbsend_null _ he hr
  | rgn => cases h; exact absurd rfl h80
  | cpy | cpyi | cpyrs | cpyk | cpymc | cwmk | ctpl | clar | clrs | clag | clbc | clxr | clgrp | mbrls | mbpol | mbstgLoad | mbstgEnable |
    mbstgDestroy | mbstgCancel | stsh | stft | stpf | stdr | stqy | oprt | opsk =>
    obtain ⟨run, hx | hx | hx⟩ := exec_m h (by cases h; decide) h80 (by simp)
    · rw [hx]; exact ceInstr_null he hr hinj
    · rw [hx]; exact keInstr_null he hr
    · rw [hx]; exact dieInstr_null he hr
  | _ => cases h

/-! ### Commit-class commands at their turn (R60, R145) -/

/-- The machine in which a commit-class command has stood at its turn: its word and its cycles are in its region. -/
def State.wordJoined (s : State) (i : Instr) (cycles : Nat) : State :=
  if s.st.retry || s.st.cancelling then s
  else s.modSt fun x => (x.addSig (entryWord i).1 (entryWord i).2).addCycles x.curRid cycles

theorem commitPush_eq (s : State) (i : Instr) (cycles : Nat) (g : State → State) :
    s.commitPush i cycles g = (s.wordJoined i cycles).commit g := rfl

theorem addSig_eq (x : Strand) (w n : Nat) : x.addSig w n = { x with regions := (x.addSig w n).regions } := by
  unfold Strand.addSig
  split <;> rfl

theorem checked_addSig (x : Strand) (w n : Nat) : ((x.addSig w n).regions.all fun r => r.expCycles == 0 || r.checked) =
    x.regions.all fun r => r.expCycles == 0 || r.checked := by
  unfold Strand.addSig
  split
  · rename_i r hr
    obtain ⟨l, hl⟩ := List.getLast?_eq_some_iff.1 hr
    simp [hl]
  · rfl

theorem checked_addCycles (x : Strand) (rid k : Nat) : ((x.addCycles rid k).regions.all fun r => r.expCycles == 0 || r.checked) =
    x.regions.all fun r => r.expCycles == 0 || r.checked := by
  rw [Strand.addCycles, List.all_map]
  congr 1
  funext r
  dsimp only [Function.comp]
  split <;> rfl

/-- What a strand may commit does not turn on its regions' words and times. -/
theorem mayCommit_joined (x : Strand) (w n rid k : Nat) : ((x.addSig w n).addCycles rid k).mayCommit = x.mayCommit := by
  rw [Strand.mayCommit, checked_addCycles, checked_addSig, addSig_eq]
  rfl

theorem spanBound_setSt {s : State} {y : Strand} (hy : y.sync = s.st.sync) (n k : Nat) (x : Span) :
    (s.setSt y).spanBound n k x = s.spanBound n k x := by
  have hn : ((s.setSt y).strandAt n).sync = (s.strandAt n).sync := by
    rw [State.setSt, strandAt_setStrand]
    split
    · subst_vars; exact hy
    · rfl
  unfold State.spanBound
  rw [hn]
  rfl

theorem sendCheck_setSt (s : State) (l : List Region) (f : MFields) : (s.setSt { s.st with regions := l }).sendCheck f = s.sendCheck f := by
  have hst := (onlySt_setSt s { s.st with regions := l }).st
  unfold State.sendCheck
  rw [entryOf_eq (by simp), entryOf_eq (by simp), hst]
  simp only [State.meTdesc, State.tdesc, spanBound_setSt (s := s) (y := { s.st with regions := l }) rfl]
  rfl

/-- What standing at its turn leaves of the machine. -/
theorem wordJoined_frame (s : State) (i : Instr) (cycles : Nat) : ∃ l, OnlySt s (s.wordJoined i cycles) { s.st with regions := l } ∧
    (s.wordJoined i cycles).st.mayCommit = s.st.mayCommit ∧ ∀ f, (s.wordJoined i cycles).sendCheck f = s.sendCheck f := by
  unfold State.wordJoined
  split
  · exact ⟨s.st.regions, onlySt_refl s, rfl, fun _ => rfl⟩
  · have heq : (s.st.addSig (entryWord i).1 (entryWord i).2).addCycles s.st.curRid cycles =
        { s.st with regions := ((s.st.addSig (entryWord i).1 (entryWord i).2).addCycles s.st.curRid cycles).regions } := by
      conv_lhs => rw [addSig_eq]
      rfl
    have honly := onlySt_setSt s ((s.st.addSig (entryWord i).1 (entryWord i).2).addCycles s.st.curRid cycles)
    refine ⟨((s.st.addSig (entryWord i).1 (entryWord i).2).addCycles s.st.curRid cycles).regions, ?_, ?_, fun f => ?_⟩
    · rw [← heq]
      exact honly
    · rw [State.modSt, honly.st, mayCommit_joined]
    · rw [State.modSt, heq]
      exact sendCheck_setSt ..

/-- Its time joins the region that it closes as its word does. -/
theorem cycles_joined {x : Strand} {q : Region} (h : x.regions.getLast? = some q) (w n k : Nat) :
    ((x.addSig w n).addCycles x.curRid k).regions.getLast?.map (·.sig) = some (crc32c q.sig (leBytes n w)) ∧
    ((x.addSig w n).addCycles x.curRid k).regions.getLast?.map (·.cycles) = some (q.cycles + k) := by
  simp [Strand.addSig, Strand.addCycles, Strand.curRid, h]

theorem commit_now {u : State} (hc : u.commitsNow) (g : State → State) : u.commit g = g u := by
  obtain ⟨hcancel, hmay⟩ := hc
  simp only [State.commit, hcancel, hmay]
  rfl

theorem commit_later {u : State} (hc : u.st.cancelling = false) (hm : u.st.mayCommit = false) (g : State → State) :
    u.commit g = u.waitCommit := by
  simp only [State.commit, hc, hm]
  rfl

theorem commitsNow_joined {s : State} (hc : s.commitsNow) (i : Instr) (cycles : Nat) : (s.wordJoined i cycles).commitsNow := by
  obtain ⟨hcancel, hmay⟩ := hc
  obtain ⟨l, honly, hm, -⟩ := wordJoined_frame s i cycles
  exact ⟨by rw [honly.st]; exact hcancel, hm.trans hmay⟩

/-- A commit-class command that may execute is pushed, and its region closes. -/
theorem commitPush_now {s : State} (hs : s.stores = []) (hp : s.posted = []) (i : Instr) (cycles : Nat)
    (w : Entry → List Span) : ∃ l rid after covers,
      OnlySt s ((s.wordJoined i cycles).pushEntry i 0 w).committed
        ((({ s.st with regions := l } : Strand).queued ((engineOf i).getD 0) (s.entryPushed i 0 rid after covers)).commitClose) := by
  obtain ⟨l, honly, -, -⟩ := wordJoined_frame s i cycles
  obtain ⟨after, covers, hpush⟩ := pushEntry_quiet (honly.stores.trans hs) (honly.posted.trans hp) i 0 w
  have hentry : (s.wordJoined i cycles).entryOf i = { s.entryOf i with rid := (s.wordJoined i cycles).st.curRid } := by
    simp only [State.entryOf, State.curCore, honly.cur, honly.st]
    split <;> rfl
  rw [State.entryPushed, hentry, honly.st] at hpush
  exact ⟨l, _, after, covers, (honly.trans hpush).modSt Strand.commitClose⟩

theorem exec_opj_now {s : State} (f : MFields) (he : s.engine = none) (hc : s.commitsNow) :
    ∃ w, exec (.opj f) s = .next ((s.wordJoined (.opj f) 16).pushEntry (.opj f) 0 w).committed := by
  refine ⟨((s.wordJoined (.opj f) 16).earlier (s.wordJoined (.opj f) 16).cur).1.cardWrites, ?_⟩
  rw [exec_opj, execOpj, he]
  dsimp only
  rw [commitPush_eq, commit_now (commitsNow_joined hc ..)]
  rfl

theorem exec_mbsend_now {s : State} (f : MFields) (he : s.engine = none) (hc : s.commitsNow)
    (hchk : s.st.src.guard f.ga = false ∨ s.sendCheck f = none) :
    ∃ w, exec (.mbsend f) s = .next ((s.wordJoined (.mbsend f) 16).pushEntry (.mbsend f) 0 w).committed := by
  obtain ⟨l, honly, -, hsend⟩ := wordJoined_frame s (.mbsend f) 16
  have hok : (if (s.wordJoined (.mbsend f) 16).st.src.guard f.ga then (s.wordJoined (.mbsend f) 16).sendCheck f else none) = none := by
    rw [honly.st, hsend]
    rcases hchk with hg | hn
    · exact if_neg (by rw [show Strand.src { s.st with regions := l } = s.st.src from rfl, hg]; simp)
    · rw [hn, ite_self]
  refine ⟨(s.wordJoined (.mbsend f) 16).sendWrites f, ?_⟩
  rw [exec_mbsend, execMbsend, he]
  dsimp only
  rw [commitPush_eq, commit_now (commitsNow_joined hc ..), hok]
  rfl

/-- After a commit one implicit region is open, at the next bundle (R59, R60). -/
theorem regions_commitClose (x : Strand) : x.commitClose.regions.map (fun q => (q.id, q.entry)) = [(0xFFFF, x.pc)] := by
  simp [Strand.commitClose, Strand.openRegion, Strand.prune]

theorem queues_commitClose (x : Strand) : x.commitClose.queues = x.queues ∧ x.commitClose.now = x.now := ⟨rfl, rfl⟩

/-! ### A completed entry (R87, R157) -/

/-- The strand whose queue the entry has left. -/
def Strand.dropped (x : Strand) (e : Entry) : Strand :=
  { x with queues := x.queues.map fun p => (p.1, if some p.1 = engineOf e.instr then p.2.filter (·.seq != e.seq) else p.2) }

/-- The flag of an entry is raised. -/
def Strand.flagged (x : Strand) (e : Entry) : Strand :=
  match entryFlag e.instr with
  | some f => x.addFlag f 1
  | none => x

theorem getF_flagged (x : Strand) (e : Entry) (q : Nat) :
    (x.flagged e).now.getF q = x.now.getF q + if entryFlag e.instr = some q then 1 else 0 := by
  unfold Strand.flagged
  split
  · rename_i f hf
    rw [hf]
    by_cases hq : q = f
    · subst hq
      simp [Strand.addFlag, Strand.modNow, getF_setF]
    · simp [Strand.addFlag, Strand.modNow, getF_setF, hq, Ne.symm hq]
  · rename_i hf
    simp [hf]

theorem flagged_frame (x : Strand) (e : Entry) :
    (x.flagged e).queues = x.queues ∧ (x.flagged e).now = { x.now with f := (x.flagged e).now.f } := by
  unfold Strand.flagged
  split
  · exact ⟨rfl, rfl⟩
  · exact ⟨rfl, rfl⟩

/-- The strand with a mark of what its scalar side has not seen, its entry's cycles and no complete region (R62, R88). -/
def Strand.marked (x : Strand) (m : Unseen) (rid cycles : Nat) : Strand :=
  ((if m.covers.isEmpty then x else { x with unseen := x.unseen ++ [m] }).addCycles rid cycles).prune

theorem marked_frame (x : Strand) (m : Unseen) (rid cycles : Nat) :
    (x.marked m rid cycles).queues = x.queues ∧ (x.marked m rid cycles).now = x.now := by
  dsimp only [Strand.marked, Strand.prune, Strand.addCycles]
  split
  · exact ⟨rfl, rfl⟩
  · exact ⟨rfl, rfl⟩

/-- What the scalar side has not seen of an ended entry (R88). -/
def Entry.mark (e : Entry) (x : Strand) : Unseen :=
  let k := (engineOf e.instr).getD 0
  { engine := k, flag := (entryFlag e.instr).map fun f => (f, x.now.getF f)
    covers := if k = 2 then e.covers.filter fun p => !ownBytes p.1 else e.covers }

/-- The end of a strand's entry: it leaves its queue, its core notes its queue as the last served, and its flag is raised. -/
theorem endEntry_eq {s : State} {e : Entry} {n : Nat} (he : e.strand = some n) : s.endEntry e =
    let k := (engineOf e.instr).getD 0
    ((s.dropEntry e).modCore (servedCore k e.core) fun c => { c with lastServed := smPut c.lastServed k (e.queueNo k) }).modStrand n
      fun x => (x.flagged e).marked (e.mark (x.flagged e)) e.rid e.cycles := by
  unfold State.endEntry
  rw [he]
  rfl

theorem endEntry_strand {s : State} {e : Entry} {n : Nat} (he : e.strand = some n) :
    ((s.endEntry e).strandAt n).queues = ((s.strandAt n).dropped e).queues ∧
    ((s.endEntry e).strandAt n).now = (((s.strandAt n).dropped e).flagged e).now := by
  have hd : (s.dropEntry e).strandAt n = (s.strandAt n).dropped e := by
    rw [State.dropEntry, he]
    exact (strandAt_setStrand ..).trans (if_pos rfl)
  rw [endEntry_eq he]
  dsimp only
  rw [State.modStrand, strandAt_setStrand, if_pos rfl, State.modCore, strandAt_setCore, hd]
  obtain ⟨hqueues, hnow⟩ := marked_frame (((s.strandAt n).dropped e).flagged e) (e.mark (((s.strandAt n).dropped e).flagged e)) e.rid e.cycles
  exact ⟨hqueues.trans (flagged_frame ..).1, hnow⟩

theorem dropEntry_frame {s : State} {e : Entry} {n : Nat} (he : e.strand = some n) :
    (s.dropEntry e).mem = s.mem ∧ (s.dropEntry e).dies = s.dies ∧ (s.dropEntry e).cores = s.cores ∧
    ∀ m, m ≠ n → (s.dropEntry e).strandAt m = s.strandAt m := by
  rw [State.dropEntry, he]
  exact ⟨rfl, rfl, rfl, fun m hm => (strandAt_setStrand ..).trans (if_neg hm)⟩

theorem endEntry_frame {s : State} {e : Entry} {n : Nat} (he : e.strand = some n) :
    (s.endEntry e).mem = s.mem ∧ (s.endEntry e).dies = s.dies ∧
    (∀ c, (s.endEntry e).coreAt c = { s.coreAt c with lastServed := ((s.endEntry e).coreAt c).lastServed }) ∧
    ∀ m, m ≠ n → (s.endEntry e).strandAt m = s.strandAt m := by
  obtain ⟨hmem, hdies, hcores, hothers⟩ := dropEntry_frame (s := s) he
  rw [endEntry_eq he]
  refine ⟨hmem, hdies, fun c => ?_, fun m hm => ?_⟩
  · rw [State.modStrand, coreAt_setStrand, State.modCore, coreAt_setCore]
    split
    · subst_vars
      rw [State.coreAt, hcores]
      rfl
    · rw [State.coreAt, hcores]
      rfl
  · rw [State.modStrand, strandAt_setStrand, if_neg hm]
    exact hothers m hm

/-- The queue that an ended entry leaves, and no other. -/
theorem queues_dropped {e : Entry} {j : Nat} (hj : engineOf e.instr = some j) (x : Strand) (q : Nat) :
    smGet [] (x.dropped e).queues q = if q = j then (smGet [] x.queues q).filter (·.seq != e.seq) else smGet [] x.queues q := by
  have hmap := smGet_map [] (fun k (l : List Entry) => if some k = engineOf e.instr then l.filter (·.seq != e.seq) else l) x.queues q
    (by simp)
  rw [Strand.dropped, hmap, hj]
  simp only [Option.some.injEq]

/-! ### The pushes of the matrix engine and of commit-class commands -/

theorem exec_mstep_mwb_issue {s : State} (f : MFields) (hf : f.sig = false) (he : s.engine = none) :
    (∃ c w, exec (.mstep f) s = .next (s.push (.mstep f) c w)) ∧ ∃ c w, exec (.mwb f) s = .next (s.push (.mwb f) c w) := by
  constructor
  · rw [exec_mstep, execMstep]
    exact ⟨_, meInstr_issue he fun _ => by simp [hf, meAlias_nil_left]⟩
  · rw [exec_mwb, execMwb]
    exact ⟨_, meInstr_issue he fun _ => by simp [hf, meAlias_nil_right]⟩

theorem exec_mzero_issue {s : State} (f : MFields) (he : s.engine = none) : ∃ c w, exec (.mzero f) s = .next (s.push (.mzero f) c w) := by
  rw [exec_mzero, execMzero]
  exact ⟨_, meInstr_issue he fun _ => meAlias_nil_left _⟩

theorem exec_mlda_issue {s : State} (f : MFields) (he : s.engine = none) : ∃ c w, exec (.mlda f) s = .next (s.push (.mlda f) c w) := by
  rw [exec_mlda, execMlda]
  exact ⟨_, meInstr_issue he fun _ => meAlias_nil_left _⟩

/-- The strand's nest table after MNSET (R280). -/
def Strand.nestSet (x : Strand) (f : MFields) (d : Desc) : Strand :=
  { x with nest := if f.mode.toNat % 8 = 6 then smPut (smPut x.nest (f.mode.toNat % 8) (nestWord f)) 7 d
                   else smPut x.nest (f.mode.toNat % 8) (nestWord f) }

theorem exec_mnset_issue {s : State} (f : MFields) (he : s.engine = none) : exec (.mnset f) s =
    .next (if s.st.src.guard f.ga then (s.push (.mnset f) 2).modSt (·.nestSet f (s.rt f.t1)) else s.push (.mnset f) 2) := by
  rw [exec_mnset, execMnset, he]
  rfl

theorem exec_commit_waits {s : State} {i : Instr} {f : MFields} (hi : i = .opj f ∨ i = .mbsend f) (he : s.engine = none)
    (hc : s.st.cancelling = false) (hm : s.st.mayCommit = false) : exec i s = .next (s.wordJoined i 16).waitCommit := by
  obtain ⟨l, honly, hmay, -⟩ := wordJoined_frame s i 16
  have hcancel : (s.wordJoined i 16).st.cancelling = false := by rw [honly.st]; exact hc
  rcases hi with rfl | rfl
  · rw [exec_opj, execOpj, he]
    dsimp only
    rw [commitPush_eq, commit_later hcancel (hmay.trans hm)]
    rfl
  · rw [exec_mbsend, execMbsend, he]
    dsimp only
    rw [commitPush_eq, commit_later hcancel (hmay.trans hm)]
    rfl

/-! ### What an M-slot instruction leaves in its queue -/

/-- The last entry of the queue of an M-slot instruction copies the registers and state that the instruction names (R143, R533). -/
def QueuedM (s t : State) (i : Instr) (op : Nat) (f : MFields) : Prop :=
  let r := s.st.src
  let k := (engineOf i).getD 0
  ∃ e : Entry, smGet [] t.st.queues k = smGet [] s.st.queues k ++ [e] ∧
    e.instr = i ∧ e.strand = some s.cur ∧ e.core = s.curCore ∧ e.seq = s.st.seq ∧ e.addr = s.st.addr ∧ e.sup = r.sup ∧
    e.runs = r.guard f.ga ∧ e.cnt = f.n.toNat ∧ e.rmode = r.rmode.toNat ∧ e.srSeed = r.srSeed.toNat ∧
    (0x40 ≤ op → e.cycles = if (i == .opj f || i == .mbsend f) = true then 0 else 16) ∧
    e.desc 1 = r.getT f.t1.toNat ∧ e.desc 2 = r.getT f.t2.toNat ∧ e.desc 3 = r.getT f.t3.toNat ∧
    smGet 0 e.o 1 = r.getS f.o1.toNat ∧ smGet 0 e.o 2 = r.getS f.o2.toNat ∧ smGet 0 e.o 3 = r.getS f.o3.toNat ∧
    t.st.now = s.st.now ∧ t.mem = s.mem ∧ t.cores = s.cores ∧ ∀ n, n ≠ s.cur → t.strandAt n = s.strandAt n

/-- The word of an M-slot instruction has joined its region's signature (R467). -/
def SignedM (s t : State) (op : Nat) (f : MFields) : Prop :=
  ∀ q, s.st.regions.getLast? = some q → t.st.regions.getLast?.map (·.sig) = some (crc32c q.sig (leBytes 24 (encodeM op f)))

section
variable {s : State} {i : Instr} {op : Nat} {f : MFields} (h : mCode i = some (op, f))
include h

theorem queuedM_of_onlySt {t : State} {x : Strand} {c rid : Nat} {after : List Nat} {covers : List (Nat × Nat)} (ht : OnlySt s t x)
    (hx : x.queues = (s.st.queued ((engineOf i).getD 0) (s.entryPushed i c rid after covers)).queues) (hnow : x.now = s.st.now)
    (hn : ∀ g, i ≠ .mnest g) (hc : 0x40 ≤ op → c = if (i == .opj f || i == .mbsend f) = true then 0 else 16) : QueuedM s t i op f := by
  refine ⟨s.entryPushed i c rid after covers, by rw [ht.st, hx, queues_queued], ?_⟩
  rw [ht.st, State.entryPushed, entryOf_eq hn, makeEntry_m h]
  exact ⟨rfl, rfl, rfl, rfl, rfl, rfl, rfl, rfl, rfl, rfl, hc, rfl, rfl, rfl, rfl, rfl, rfl, hnow, ht.mem, ht.cores, ht.others⟩

section
variable (hs : s.stores = []) (hp : s.posted = []) (hn : ∀ g, i ≠ .mnest g)
include hs hp hn

/-- A pushed instruction is queued and signed, whatever else than queues, registers and regions then changes of its strand. -/
theorem push_queuedM_modSt {c : Nat} (hc : 0x40 ≤ op → c = if (i == .opj f || i == .mbsend f) = true then 0 else 16) (w : Entry → List Span)
    {g : Strand → Strand} (hg : ∀ x, (g x).queues = x.queues ∧ (g x).now = x.now ∧ (g x).regions = x.regions) :
    QueuedM s ((s.push i c w).modSt g) i op f ∧ SignedM s ((s.push i c w).modSt g) op f := by
  obtain ⟨after, covers, ht⟩ := push_quiet hs hp i c w
  rw [entryWord_m h] at ht
  obtain ⟨hqueues, hnow, hregions⟩ := hg ((s.st.queued ((engineOf i).getD 0)
    (s.entryPushed i c (s.entryOf i).rid after covers)).addSig (encodeM op f) 24)
  refine ⟨queuedM_of_onlySt h (ht.modSt g) (hqueues.trans (addSig_queues ..)) (hnow.trans (addSig_now ..)) hn hc, fun q hq => ?_⟩
  rw [(ht.modSt g).st, hregions]
  exact sig_addSig (x := s.st.queued _ _) hq ..

theorem push_queuedM {c : Nat} (hc : 0x40 ≤ op → c = if (i == .opj f || i == .mbsend f) = true then 0 else 16) (w : Entry → List Span) :
    QueuedM s (s.push i c w) i op f ∧ SignedM s (s.push i c w) op f := by
  obtain ⟨after, covers, ht⟩ := push_quiet hs hp i c w
  rw [entryWord_m h] at ht
  refine ⟨queuedM_of_onlySt h ht (addSig_queues ..) (addSig_now ..) hn hc, fun q hq => ?_⟩
  rw [ht.st]
  exact sig_addSig (x := s.st.queued _ _) hq ..

/-- A push of the matrix engine; its cycles are its own (R157). -/
theorem queuedM_of_push (h40 : op < 0x40) (hx : ∃ c w, exec i s = .next (s.push i c w)) :
    ∃ t, exec i s = .next t ∧ QueuedM s t i op f ∧ SignedM s t op f := by
  obtain ⟨c, w, hx⟩ := hx
  exact ⟨_, hx, push_queuedM h hs hp hn (fun hge => absurd hge (by omega)) w⟩

/-- A commit-class command at its turn is queued, and one implicit region is open. -/
theorem queuedM_of_commit (hcc : (i == .opj f || i == .mbsend f) = true)
    (hx : ∃ w, exec i s = .next ((s.wordJoined i 16).pushEntry i 0 w).committed) :
    ∃ t, exec i s = .next t ∧ QueuedM s t i op f ∧ t.st.regions.map (fun q => (q.id, q.entry)) = [(0xFFFF, s.st.pc)] := by
  obtain ⟨w, hx⟩ := hx
  obtain ⟨l, rid, after, covers, ht⟩ := commitPush_now hs hp i 16 w
  refine ⟨_, hx, queuedM_of_onlySt h ht (queues_commitClose _).1 (queues_commitClose _).2 hn fun _ => by rw [if_pos hcc], ?_⟩
  rw [ht.st, regions_commitClose]
  rfl

end

/-- Before its turn it waits, its word and its time in the region that it is to close (R145, R167). -/
theorem waits_of_commit (hi : i = .opj f ∨ i = .mbsend f) (he : s.engine = none) (hc : s.st.cancelling = false) (hm : s.st.mayCommit = false)
    (hr : s.st.retry = false) : ∃ t, exec i s = .next t ∧ SignedM s t op f ∧ t.st.commit = true ∧ t.st.blocked = 6 ∧
      t.st.queues = s.st.queues ∧ t.mem = s.mem ∧
      ∀ q, s.st.regions.getLast? = some q → t.st.regions.getLast?.map (·.cycles) = some (q.cycles + 16) := by
  have hjoin : s.wordJoined i 16 = s.modSt fun x => (x.addSig (encodeM op f) 24).addCycles x.curRid 16 := by
    rw [State.wordJoined, hr, hc, entryWord_m h]
    rfl
  have ht := (onlySt_setSt s ((s.st.addSig (encodeM op f) 24).addCycles s.st.curRid 16)).modSt ({ · with commit := true, blocked := 6 })
  have hcycles (q : Region) (hq : s.st.regions.getLast? = some q) := cycles_joined hq (encodeM op f) 24 16
  refine ⟨_, exec_commit_waits hi he hc hm, ?_⟩
  rw [hjoin, State.modSt, State.waitCommit, SignedM, ht.st]
  exact ⟨fun q hq => (hcycles q hq).1, rfl, rfl, addSig_queues .., ht.mem, fun q hq => (hcycles q hq).2⟩

end

/-- The extents of MSPC (R294, R295): what it writes, and what it reads. -/
def mspcExts (f : MFields) (e : Entry) : List Ext × List Ext :=
  let c := f.imm.toNat % 2 ^ 16
  let g := (e.cnt + 3) / 4
  ([extOf e.core f.t2.toNat (e.view 2) ((e.view 2).block (e.org 2) (2 * g) c) true,
    extOf e.core f.t3.toNat (e.view 3) ((e.view 3).block (e.org 3) g c) false],
   [extOf e.core f.t1.toNat (e.view 1) ((e.view 1).block (e.org 1) e.cnt c) true])

theorem exec_mspc_eq (f : MFields) : ∃ cycles run, ∀ s, exec (.mspc f) s = s.meInstr (.mspc f) cycles (mspcExts f) run := by
  simp only [exec_mspc, execMspc]
  exact ⟨_, _, fun _ => rfl⟩

/-- A flag, a queue and the registers of a strand whose entry has ended (R87, R157). -/
theorem endEntry_flag {s : State} {e : Entry} {n : Nat} (he : e.strand = some n) :
    (∀ q, ((s.endEntry e).strandAt n).now.getF q = (s.strandAt n).now.getF q + if entryFlag e.instr = some q then 1 else 0) ∧
    ((s.endEntry e).strandAt n).now = { (s.strandAt n).now with f := ((s.endEntry e).strandAt n).now.f } := by
  obtain ⟨-, hnow⟩ := endEntry_strand (s := s) he
  rw [hnow]
  exact ⟨getF_flagged ((s.strandAt n).dropped e) e, (flagged_frame ((s.strandAt n).dropped e) e).2⟩

/-! ### The obligation -/

/-- Settles O24: a push is the entry of the registers as they stand and the word's signature; a commit-class command waits or is pushed
as its region closes; a nullified entry's turn is its end, which is the entry's leaving and its flag. -/
theorem entriesAreQueued : Obligations.EntriesAreQueued := by
  unfold Obligations.EntriesAreQueued
  refine ⟨fun s i op f h => ?_, fun s i op f h => ?_⟩
  · intro r count
    refine ⟨fun he hcount hs hp => ?_, fun he hcount => ?_, fun e he hr hinj => exec_v_null h he hr hinj⟩
    · obtain ⟨cycles, after, covers, t, hx, ht⟩ := exec_v_pushed h he hcount hs hp
      refine ⟨t, s.entryPushed i cycles (s.entryOf i).rid after covers, hx, ?_⟩
      rw [ht.st, addSig_queues, queues_queued, addSig_now, State.entryPushed, entryOf_eq (ne_mnest_of_vCode h), makeEntry_v h]
      exact ⟨rfl, rfl, rfl, rfl, rfl, rfl, rfl, rfl, rfl, rfl, rfl, rfl, rfl, rfl, rfl, rfl,
        fun q hq => sig_addSig (x := s.st.queued _ _) hq .., rfl, ht.mem, ht.cores, ht.others⟩
    · rw [exec_v_issue h he]
      exact congrArg Host.Outcome.next (if_pos hcount)
  · intro r k commits queued signed
    refine ⟨fun he hs hp => ⟨fun h40 h80 hc => ?_, fun hi => ?_, fun hnow hi => ?_, fun hc hcancel hmay hretry => ?_, fun hi hg => ?_⟩,
      fun e h80 he hr hinj => exec_m_null h h80 he hr hinj, fun e n j he hj => ?_⟩
    · obtain ⟨w, hx⟩ := exec_m_push h h40 h80 hc he
      exact ⟨_, hx, push_queuedM h hs hp (by rintro g rfl; cases h; omega) (fun _ => (if_neg (Bool.eq_false_iff.1 hc)).symm) w⟩
    · rcases hi with rfl | rfl | rfl | ⟨hf, rfl | rfl⟩
      · exact queuedM_of_push h hs hp (by simp) (by cases h; decide) (exec_mzero_issue f he)
      · exact queuedM_of_push h hs hp (by simp) (by cases h; decide) (exec_mlda_issue f he)
      · have hc (h40 : 0x40 ≤ op) : 2 = if (Instr.mnset f == .opj f || Instr.mnset f == .mbsend f) = true then 0 else 16 := by
          cases h
          exact absurd h40 (by decide)
        refine ⟨_, exec_mnset_issue f he, ?_⟩
        split
        · exact push_queuedM_modSt h hs hp (by simp) hc _ fun _ => ⟨rfl, rfl, rfl⟩
        · exact push_queuedM h hs hp (by simp) hc _
      · exact queuedM_of_push h hs hp (by simp) (by cases h; decide) (exec_mstep_mwb_issue f hf he).1
      · exact queuedM_of_push h hs hp (by simp) (by cases h; decide) (exec_mstep_mwb_issue f hf he).2
    · rcases hi with rfl | ⟨rfl, hchk⟩
      · exact queuedM_of_commit h hs hp (by simp) (by simp) (exec_opj_now f he hnow)
      · exact queuedM_of_commit h hs hp (by simp) (by simp) (exec_mbsend_now f he hnow hchk)
    · exact waits_of_commit h (by simpa [commits] using hc) he hcancel hmay hretry
    · subst hi
      intro e ext g x
      obtain ⟨cycles, run, hexec⟩ := exec_mspc_eq f
      have hruns : (s.entryOf (.mspc f)).runs = true := (runs_entryOf_m h (by simp) s).trans hg
      have hx : meAlias (mspcExts f e).1 (mspcExts f e).2 = x := by
        have hcnt : e.cnt = f.n.toNat := rfl
        simp only [mspcExts, hcnt]
        rfl
      refine ⟨fun aux hax => ?_, fun hnone => ?_⟩
      · rw [hexec]
        exact meInstr_aliased he hruns (hx.trans hax)
      · obtain ⟨w, hw⟩ := meInstr_issue (cycles := cycles) (run := run) he fun _ => hx.trans hnone
        exact queuedM_of_push h hs hp (by simp) (by cases h; decide) ⟨_, w, by rw [hexec]; exact hw⟩
    · intro t
      obtain ⟨hflag, hregs⟩ := endEntry_flag (s := s) he
      obtain ⟨hmem, hdies, hcores, hothers⟩ := endEntry_frame (s := s) he
      exact ⟨fun q => by rw [(endEntry_strand he).1, queues_dropped hj], fun q _ => hflag q, hregs, hmem, hdies, hcores, hothers⟩

end Sys2Proof.Machine

/-!
Maps and the parts of the state, read and written again: what a listed key holds after a write or a removal, and a part written twice.
-/
namespace Sys2Proof

section
variable {α : Type} (m : SMap α) (i j : Nat) (v w : α)

theorem smFind_smDel : smFind (smDel m i) j = if j = i then none else smFind m j := by
  induction m with
  | nil => simp [smDel, smFind]
  | cons p r ih =>
    obtain ⟨k, x⟩ := p
    by_cases hk : k = i
    · have hdel : smDel ((k, x) :: r) i = smDel r i := by simp [smDel, hk]
      rw [hdel, ih, smFind]
      by_cases hj : j = i
      · simp [hj]
      · rw [if_neg hj, if_neg hj, if_neg (by omega)]
    · have hdel : smDel ((k, x) :: r) i = (k, x) :: smDel r i := by simp [smDel, hk]
      rw [hdel, smFind, smFind, ih]
      by_cases hj : j = i
      · rw [if_pos hj, if_pos hj, if_neg (by omega)]
      · rw [if_neg hj, if_neg hj]

theorem smFind_smIns (h : ∀ p ∈ m, p.1 ≠ i) : smFind (smIns i v m) j = if j = i then some v else smFind m j := by
  induction m with
  | nil => simp [smIns, smFind, eq_comm]
  | cons p r ih =>
    obtain ⟨k, x⟩ := p
    have hk : k ≠ i := h _ List.mem_cons_self
    unfold smIns
    split
    · simp only [smFind, eq_comm]
    · rw [smFind, smFind, ih fun q hq => h q (List.mem_cons_of_mem _ hq)]
      by_cases hj : j = i
      · rw [if_pos hj, if_pos hj, if_neg (by omega)]
      · rw [if_neg hj, if_neg hj]

/-- The entry at a key after a write. -/
@[simp] theorem smFind_smPut : smFind (smPut m i v) j = if j = i then some v else smFind m j := by
  rw [smPut, smFind_smIns _ _ _ _ (smDel_ne m i), smFind_smDel]
  split
  · rfl
  · rfl

theorem smDel_smIns : smDel (smIns i v m) i = smDel m i := by
  induction m with
  | nil => simp [smIns, smDel]
  | cons p r ih =>
    unfold smIns
    split
    · simp [smDel]
    · by_cases hk : p.1 = i
      · simpa [smDel, hk] using ih
      · simpa [smDel, hk] using ih

theorem smDel_smDel : smDel (smDel m i) i = smDel m i := by simp [smDel]

/-- The second of two writes to a key stands. -/
@[simp] theorem smPut_smPut : smPut (smPut m i v) i w = smPut m i w := by
  rw [smPut, smPut, smDel_smIns, smDel_smDel, smPut]

end

theorem mem_smIns_of_mem {α : Type} {m : SMap α} {p : Nat × α} (hp : p ∈ m) (i : Nat) (v : α) : p ∈ smIns i v m := by
  induction m with
  | nil => cases hp
  | cons q r ih =>
    unfold smIns
    split
    · exact List.mem_cons_of_mem _ hp
    · rcases List.mem_cons.1 hp with rfl | hp
      · exact List.mem_cons_self
      · exact List.mem_cons_of_mem _ (ih hp)

/-- What stands at another key stays listed. -/
theorem mem_smPut_of_ne {α : Type} {m : SMap α} {i : Nat} {p : Nat × α} (hp : p ∈ m) (hne : p.1 ≠ i) (v : α) : p ∈ smPut m i v :=
  mem_smIns_of_mem (List.mem_filter.2 ⟨hp, by simpa using hne⟩) i v

theorem smGet_eq_getD {α : Type} (d : α) (m : SMap α) (i : Nat) : smGet d m i = (smFind m i).getD d := by
  cases h : smFind m i with
  | none => exact smFind_eq_none_smGet d m i h
  | some v => exact smFind_some_smGet d m i h

theorem mem_of_smFind {α : Type} {m : SMap α} {i : Nat} {v : α} (h : smFind m i = some v) : (i, v) ∈ m := by
  induction m with
  | nil => cases h
  | cons p r ih =>
    obtain ⟨k, w⟩ := p
    rw [smFind] at h
    split at h
    · subst_vars
      cases h
      exact List.mem_cons_self
    · exact List.mem_cons_of_mem _ (ih h)

namespace Machine

@[simp] theorem setStrand_setStrand (s : State) (n : Nat) (x y : Strand) : (s.setStrand n x).setStrand n y = s.setStrand n y := by
  simp [State.setStrand]

@[simp] theorem setDie_setDie (s : State) (d : Nat) (x y : Die) : (s.setDie d x).setDie d y = s.setDie d y := by
  simp [State.setDie]

@[simp] theorem setSt_setSt (s : State) (x y : Strand) : (s.setSt x).setSt y = s.setSt y := setStrand_setStrand ..

end Machine
end Sys2Proof

/-!
Atomics on the own scratchpad (O15): the atomic is performed at once on the bytes at its place, and it is the last piece of its region.
-/
namespace Sys2Proof.Machine

/-! ### The old value and the new one (R190, R191) -/

/-- A word of four bytes in a register. -/
theorem toNat_word4 {l : List Byte} (h : l.length = 4) : (BitVec.ofNat 64 (leNat l)).toNat % 2 ^ 32 = leNat l := by
  have hl := leNat_lt l
  rw [h] at hl
  rw [BitVec.toNat_ofNat]
  omega

/-! ### An atomic that nothing holds up (R84, R192) -/

/-- The machine after an atomic on the own scratchpad: its new value, where it has one, is stored. -/
def State.amoStored (s : State) (off n : Nat) (new : Option Word) : State :=
  match new with
  | some v => s.putSpm s.curCore off (leBytes n v.toNat)
  | none => s

/-- The region of an atomic closes behind its old value on the scoreboard (R60, R190). -/
def State.amoEnded (s : State) (d : BitVec 6) (old : Word) : State := (s.boardS d.toNat old).setSt (s.boardS d.toNat old).st.commitClose

theorem amoStored_st (s : State) (off n : Nat) (new : Option Word) : (s.amoStored off n new).st = s.st := by
  cases new <;> rfl

theorem amoDone_of_none {s : State} (ha : s.st.amo = none) (ho : s.st.amoOld = none) (d : BitVec 6) (old : Word) :
    s.amoDone d.toNat old = s.amoEnded d old := by
  have hst : ({ s.st with amo := none, amoOld := none } : Strand) = s.st := by rw [← ha, ← ho]
  rw [State.amoDone, State.amoEnded, State.modSt, hst]
  simp only [State.committed, State.modSt, State.boardS, st_setSt, setSt_setSt]

/-- A strand that may commit waits for nothing that it has sent (R60, R86). -/
theorem earlier_of_commit {s : State} (hc : s.commitsNow) (hs : s.stores = []) (hp : s.posted = []) : s.earlier s.cur = (s, []) := by
  have hidle : s.st.idle = true := (Bool.and_eq_true_iff.1 hc.2).1
  have hboard : (s.strandAt s.cur).board = [] := List.isEmpty_iff.1 (Bool.and_eq_true_iff.1 hidle).1
  simp [State.earlier, State.performWhere, State.scalarPosted, hs, hp, hboard]

theorem amoPlace_own {s : State} {va : Word} {off : Nat} (hva : va.toNat = localBase + off) (h : off < 0x400000) :
    s.amoPlace va = (s, .ok (.spm s.curCore off true)) := by
  have hlocal : isLocal va.toNat = true := by
    simp only [isLocal, hva, localBase, Bool.and_eq_true, decide_eq_true_eq]
    omega
  unfold State.amoPlace
  dsimp only
  rw [if_pos hlocal, hva, Nat.add_sub_cancel_left, localPlace_own h]
  rfl

theorem amoSpm_plain {s : State} {off : Nat} {o : AmoOp} (hs : s.plainSpm s.curCore) (hw : s.st.inWindow off o.size = true) (v expect : Word) :
    s.amoSpm s.who o s.curCore off true v expect =
      (s.amoStored off o.size (o.new (BitVec.ofNat 64 (leNat (s.spmBytes s.curCore off o.size))) v expect),
        .bytes (s.spmBytes s.curCore off o.size)) := by
  have hfetch : s.fetchSpm s.who s.curCore off o.size true = (s, .bytes (s.spmBytes s.curCore off o.size)) :=
    fetchSpm_plain hs s.who off o.size true fun k hk _ => by cases hk; exact hw
  unfold State.amoSpm
  rw [hfetch]
  dsimp only
  cases o.new (BitVec.ofNat 64 (leNat (s.spmBytes s.curCore off o.size))) v expect with
  | some x => exact congrArg (·, _) (writeSpm_plain hs ..)
  | none => rfl

/-- An atomic on the own scratchpad stores its result and boards the old value as its region closes. -/
theorem amo_own {s : State} {o : AmoOp} {d a b : BitVec 6} {off : Nat} (order : BitVec 2) (hc : s.commitsNow) (ha : s.st.amo = none)
    (ho : s.st.amoOld = none) (hagain : s.st.again = false) (hs : s.stores = []) (hp : s.posted = []) (hspm : s.plainSpm s.curCore)
    (hb : s.ownBytes (s.rs a) off o.size) :
    s.amo o d a b order =
      let old := BitVec.ofNat 64 (leNat (s.spmBytes s.curCore off o.size))
      (s.amoStored off o.size (o.new old (s.rs b) (s.rs d))).amoEnded d old := by
  obtain ⟨hva, hend, halign, hwin⟩ := hb
  have hsize : 1 ≤ o.size := by cases o <;> decide
  have hleft : (if 2 ≤ order.toNat then s.earlier s.cur else (s, [])) = (s, []) := by
    rw [earlier_of_commit hc hs hp, ite_self]
  have hst := amoStored_st s off o.size (o.new (BitVec.ofNat 64 (leNat (s.spmBytes s.curCore off o.size))) (s.rs b) (s.rs d))
  rw [State.amo, commit_now hc, State.amoRun]
  simp only [ha, ho, halign, hleft, amoPlace_own hva (show off < 0x400000 by omega), hagain, amoSpm_plain hspm hwin,
    amoDone_of_none (hst ▸ ha) (hst ▸ ho), Option.isSome_none, ne_eq, not_true_eq_false, List.isEmpty_nil, Bool.not_true, Bool.false_eq_true,
    if_false]

/-! ### The obligation -/

/-- Settles O15: each atomic is performed at once, and what it stores is its operation on the old bytes and its operand. -/
theorem atomicResults : Obligations.AtomicResults := by
  unfold Obligations.AtomicResults
  intro s d a b k o off hc ha ho hagain hs hp hspm fin x y c e round pick
  have hfin (n : Nat) (new : Option Word) : fin n new =
      .next ((s.amoStored off n new).amoEnded d (BitVec.ofNat 64 (leNat (s.spmBytes s.curCore off n)))) := by
    cases new <;> rfl
  have hrun {op : AmoOp} {n : Nat} (hn : op.size = n) (hb : s.ownBytes (s.rs a) off n) : .next (s.amo op d a b o) =
      fin n (op.new (BitVec.ofNat 64 (leNat (s.spmBytes s.curCore off n))) y (s.rs d)) := by
    subst hn
    rw [hfin, amo_own o hc ha ho hagain hs hp hspm hb]
  refine ⟨fun hb => ?_, fun hb => ?_⟩
  · have hint {op : AmoOp} (h8 : op.size = 8) : .next (s.amo op d a b o) = fin 8 (op.new x y (s.rs d)) := hrun h8 hb
    have hadd := hint (op := .add) rfl
    have hand := hint (op := .and) rfl
    have hor := hint (op := .or) rfl
    have hxor := hint (op := .xor) rfl
    have hmin := hint (op := .min) rfl
    have hmax := hint (op := .max) rfl
    have hswap := hint (op := .swap) rfl
    have hcas := hint (op := .cas) rfl
    simp only [AmoOp.new, BitVec.slt_iff_toInt_lt] at hadd hand hor hxor hmin hmax hswap hcas
    exact ⟨hadd, hand, hor, hxor, hmin, hmax, hswap, hcas⟩
  · have hold : (BitVec.ofNat 64 (leNat (s.spmBytes s.curCore off 4))).toNat % 2 ^ 32 = c := toNat_word4 (spmBytes_length ..)
    have hfadd := hrun (op := .faddF32) (n := 4) rfl hb
    have hfadd2 := hrun (op := .faddBf16x2) (n := 4) rfl hb
    have hfmin := hrun (op := .fminF32) (n := 4) rfl hb
    have hfmax := hrun (op := .fmaxF32) (n := 4) rfl hb
    simp only [AmoOp.new, hold] at hfadd hfadd2 hfmin hfmax
    exact ⟨hfadd, hfadd2, hfmin, hfmax⟩

end Sys2Proof.Machine

/-!
Regions (O23): what opening a region adds, what RGN opens, and the one region that a commit leaves.
-/
namespace Sys2Proof.Machine

/-! ### A region opens (R59, R62, R63) -/

/-- The region that a strand opens from `r`: it has the next number and the inputs as they stand. -/
def Strand.opened (x : Strand) (r : Region) : Region := { r with rid := x.nextRid, openSeq := x.seq, inputs := x.capture }

/-- The region that opens is the innermost, and those before it that are not complete are closed. -/
theorem regions_openRegion (x : Strand) {r : Region} (h : r.closed = false) :
    ∃ l, (x.openRegion r).regions = l ++ [x.opened r] ∧ ∀ q ∈ l, q.closed = true := by
  refine ⟨(x.regions.map fun q => { q with closed := true }).filter fun q =>
    !q.closed || (x.openRegion r).regionBusy q.rid || (q.expCycles != 0 && !q.checked), ?_, fun q hq => ?_⟩
  · have hopen : (x.opened r).closed = false := h
    have hlast : [x.opened r].filter (fun q => !q.closed || (x.openRegion r).regionBusy q.rid || (q.expCycles != 0 && !q.checked)) =
        [x.opened r] := by
      simp [hopen]
    conv_rhs => rw [← hlast, ← List.filter_append]
    rfl
  · obtain ⟨p, -, rfl⟩ := List.mem_map.1 (List.mem_filter.1 hq).1
    rfl

/-- After a commit the one region is that of the next bundle (R59, R60). -/
theorem regions_commitClose_eq (x : Strand) :
    x.commitClose.regions = [({ x with seq := x.seq + 1 } : Strand).opened { entry := x.pc }] := by
  simp [Strand.commitClose, Strand.openRegion, Strand.prune, Strand.opened, Strand.capture]

/-! ### RGN (R147, R243) -/

/-- The region of an RGN word at address `entry`. -/
def rgnRegion (f : MFields) (entry : Word) : Region :=
  { id := f.n.toNat, entry, mask := BitVec.ofNat 64 (f.imm.toNat % 2 ^ 32 / 2 * 2), expCycles := f.mode.toNat
    expSig := BitVec.ofNat 32 (f.imm.toNat / 2 ^ 32) }

/-- RGN opens its region where the innermost one is not being entered again by a replay. -/
theorem exec_rgn_opens {s : State} (f : MFields) (h : ∀ q, s.st.regions.getLast? = some q → q.reopen = false) :
    exec (.rgn f) s = .next (s.setSt (s.st.openRegion (rgnRegion f s.st.addr))) := by
  rw [exec_rgn, execRgn]
  dsimp only
  cases hl : s.st.regions.getLast? with
  | none => rfl
  | some q =>
    simp only [h q hl, Bool.false_and, Bool.false_eq_true, if_false]
    rfl

theorem onlyStrand_setSt (s : State) (x : Strand) : OnlyStrand s (s.setSt x) :=
  ⟨rfl, fun n hn => by rw [State.setSt, strandAt_setStrand, if_neg hn]⟩

/-- Settles O23: RGN opens the region of its word, and a commit forgets every region and opens an implicit one. -/
theorem regionsOpenAndClose : Obligations.RegionsOpenAndClose := by
  unfold Obligations.RegionsOpenAndClose
  intro s f x h
  obtain ⟨l, hl, hclosed⟩ := regions_openRegion s.st (r := rgnRegion f s.st.addr) rfl
  have hregions : (s.setSt (s.st.openRegion (rgnRegion f s.st.addr))).st.regions = l ++ [s.st.opened (rgnRegion f s.st.addr)] := by
    rw [st_setSt, hl]
  refine ⟨⟨_, exec_rgn_opens f h, onlyStrand_setSt .., by rw [st_setSt]; rfl, by rw [st_setSt]; rfl, ?_, fun r hr => ?_⟩, ?_, fun r hr => ?_, rfl⟩
  · refine ⟨s.st.opened (rgnRegion f s.st.addr), by rw [hregions, List.getLast?_concat], ?_⟩
    exact ⟨rfl, rfl, rfl, rfl, rfl, rfl, rfl, rfl, rfl, rfl, rfl, rfl⟩
  · rw [hregions, List.dropLast_concat] at hr
    exact hclosed r hr
  · rw [regions_commitClose_eq]
    rfl
  · rw [regions_commitClose_eq, List.mem_singleton] at hr
    rw [hr]
    rfl

end Sys2Proof.Machine

/-!
Steps (O40): the words that a fetch brings, the bundle that they decode to, the slots of a bundle that start, and what each step of an
agent runs.
-/
namespace Sys2Proof.Machine

/-! ### Sequences of outcomes -/

theorem andThen_next (s : State) (g : State → Out1) : andThen (.next s) g = g s := rfl

/-! ### Fetch (R103, R132) -/

theorem Translated.strands {s t : State} (h : Translated s t) : t.strands = s.strands := (congrArg State.strands h).trans rfl

theorem scanMem_plain {s : State} (h : s.plainMem) (tenant task a n : Nat) : s.scanMem tenant task a n = (s, .ok) := by
  obtain ⟨-, -, -, hsyn, hpoison, hlost, hl2⟩ := h
  simp [State.scanMem, State.scanL2, State.scanDram, hsyn, hpoison, hlost, hl2]

theorem performWhere_of_stores_nil {s : State} (h : s.stores = []) (p : Store → Bool) : s.performWhere p = s := by
  simp [State.performWhere, h]

theorem imemRoom_frame (s : State) (core : Nat) : (s.imemRoom core).mem = s.mem ∧ (s.imemRoom core).strands = s.strands := by
  unfold State.imemRoom
  dsimp only
  split
  · exact ⟨rfl, rfl⟩
  · exact ⟨rfl, rfl⟩

/-- Words that enter instruction memory change neither memory nor a strand. -/
theorem fillImem_frame (s : State) (core va : Nat) (bs : List Byte) :
    (s.fillImem core va bs).mem = s.mem ∧ (s.fillImem core va bs).strands = s.strands := by
  unfold State.fillImem
  refine List.foldlRecOn (motive := fun t : State => t.mem = s.mem ∧ t.strands = s.strands) _ _ ⟨rfl, rfl⟩ fun t ht _ _ => ?_
  obtain ⟨hmem, hstrands⟩ := imemRoom_frame t core
  exact ⟨hmem.trans ht.1, hstrands.trans ht.2⟩

/-- A fetch from memory brings the word at its home, which the instruction memory may hold already. -/
theorem fetchWord_mem {s u : State} {n va pa : Nat} (hlocal : isLocal va = false)
    (hp : s.globalPlace (coreOf n) (s.strandAt n).now.sup .ex 0 va = (u, .ok (.mem pa))) (hinj : (u.coreAt (coreOf n)).inj = [])
    (hm : u.plainMem) (hcached : ∀ w, smFind (u.coreAt (coreOf n)).imem va = some w → u.memNat pa 4 = w.toNat) :
    ∃ t, s.fetchWord n va = (t, .word (u.memNat pa 4)) ∧ t.mem = s.mem ∧ t.strands = s.strands := by
  have htrans := globalPlace_translated s (coreOf n) (s.strandAt n).now.sup .ex 0 va
  rw [hp] at htrans
  have hscan (task : Nat) : u.scanImem (coreOf n) task va = (u, none) := by rw [State.scanImem, hinj]; rfl
  unfold State.fetchWord
  simp only [hlocal, hp, hscan, performWhere_of_stores_nil hm.1, Bool.false_eq_true, if_false]
  cases hc : smFind (u.coreAt (coreOf n)).imem va with
  | some w => exact ⟨u, by simp [hcached w hc], htrans.mem, htrans.strands⟩
  | none =>
    obtain ⟨hmem, hstrands⟩ := fillImem_frame u (coreOf n) va (u.memBytes pa 4)
    exact ⟨_, by simp only [scanMem_plain hm], hmem.trans htrans.mem, hstrands.trans htrans.strands⟩

/-! ### Decoding and readiness (R54, R131, R134, R149) -/

theorem decodeBundle_single {sup : Bool} {k nbits : Nat} (w : Nat) {h : Header} {ws : List Nat} {i : Instr} (hslots : slotsOf h.p = [(k, 4, nbits)])
    (hlen : ws.length = nbits / 32) (hi : decodeSlot nbits (wordsNat ws) = .ok i) (hsup : privileged i = true → sup = true)
    (hc : composeFault [(k, i)] = none) : decodeBundle sup h (w :: ws) = .ok { hdr := h, slots := [(k, i)] } := by
  have htake : ((w :: ws).drop (4 / 4)).take (nbits / 32) = ws := by simp [← hlen]
  have hfault : slotFault sup k (.ok i) = .ok i := by
    cases hp : privileged i with
    | true => simp [slotFault, hsup hp]
    | false => simp [slotFault, hp]
  simp only [decodeBundle, hslots, decodeBundle.go, htake, hi, hfault, hc]

/-- A strand whose bundle decodes and waits for nothing is ready. -/
theorem look_ready {s u : State} {n w : Nat} {ws : List Nat} {h : Header} {b : Bundle} (hlive : (s.strandAt n).live = true)
    (hfault : (s.strandAt n).fault = none) (hflight : (s.strandAt n).flight = none) (hstall : (s.strandAt n).stall = 0)
    (hfetch : (s.strandAt n).fetching = false) (hdog : s.wdogDue n = false) (hh : decodeHeader w = .ok h) (hwe : h.we = false)
    (hws : s.fetchWords n (s.strandAt n).pc.toNat (bundleLen h.p / 4) = (u, .ok (w :: ws)))
    (hb : decodeBundle (s.strandAt n).now.sup h (w :: ws) = .ok b) (hr : (s.strandAt n).lookBundle b = .ready b) :
    s.look n = (u, .ready b) := by
  have hlen : bundleLen h.p / 4 = bundleLen h.p / 4 - 1 + 1 := by simp only [bundleLen]; omega
  rw [hlen, State.fetchWords] at hws
  unfold State.look
  simp only [hlive, hfault, hflight, hstall, hfetch, hdog, Option.isSome_none, Bool.not_true, bne_self_eq_false, Bool.or_self, Bool.false_eq_true,
    if_false]
  generalize s.fetchWord n (s.strandAt n).pc.toNat = p at hws ⊢
  obtain ⟨t, r⟩ := p
  cases r with
  | word v =>
    dsimp only at hws ⊢
    split at hws
    · rename_i v l hl
      cases hws
      simp [hl, hh, waitHolds, hwe, hb, hr]
    · rename_i hl
      exact (hl _ _ hws).elim
  | trap => simp at hws
  | consumed => simp at hws
  | pending => simp at hws

/-! ### The slots of a bundle (R61, R136) -/

/-- Strand `n` is about to execute slot `k` of its bundle `f` in `y`: its registers, and what else stands, are as in `s`. -/
structure SlotBegun (s y : State) (n k : Nat) (f : Flight) : Prop where
  cur : y.cur = n
  now : y.st.now = (s.strandAt n).now
  src : y.st.src = f.latch
  addr : y.st.addr = (s.strandAt n).addr
  pc : y.st.pc = (s.strandAt n).pc
  slotNo : y.st.slotNo = k
  mem : y.mem = s.mem
  others : ∀ m, m ≠ n → y.strandAt m = s.strandAt m

/-- The strand that sets about slot `i`, number `k`, of its bundle `f`. -/
def Strand.slotBegun (x : Strand) (f : Flight) (k : Nat) (i : Instr) : Strand :=
  { x with slotNo := k, retry := x.blocked != 0, blocked := 0, commit := false, seq := slotSeq f.base k i }

/-- While a bundle is executing, its slots read the registers as they stood at its issue (R136). -/
theorem src_of_flight {x : Strand} {f : Flight} (h : x.flight = some f) : x.src = f.latch := by rw [Strand.src, h]

theorem startSlot_of_left {s : State} {n k : Nat} {i : Instr} {r : List (Nat × Instr)} {f : Flight} (hf : (s.strandAt n).flight = some f)
    (hl : f.left = (k, i) :: r) (hb : (s.strandAt n).blocked = 0 ∨ s.wdogDue n = false) :
    s.startSlot n = some ({ s.setStrand n ((s.strandAt n).slotBegun f k i) with cur := n }, i) := by
  have hgo : ¬ ((s.strandAt n).blocked ≠ 0 ∧ s.wdogDue n = true) := by
    rintro ⟨hne, hdue⟩
    rcases hb with hb | hb
    · exact hne hb
    · rw [hb] at hdue
      cases hdue
  unfold State.startSlot
  dsimp only
  split
  · rename_i g hg
    cases hf.symm.trans hg
    split
    · rename_i hleft
      cases hl.symm.trans hleft
      exact if_neg (by simpa using hgo)
    · rename_i hleft
      cases hl.symm.trans hleft
  · rename_i hnone
    cases hf.symm.trans hnone

/-- The first slot of a region that may execute again notes so, in its region and its task alone (R61). -/
theorem reenter_cases (s : State) (n : Nat) (i : Instr) : s.reenter n i = s ∨
    ∃ g l, s.reenter n i = (s.modTask (s.strandAt n).task g).setStrand n { s.strandAt n with regions := l } := by
  unfold State.reenter
  dsimp only
  split
  · exact .inl rfl
  · exact .inl rfl
  · split
    · exact .inl rfl
    · exact .inr ⟨_, _, rfl⟩

theorem modTask_frame (s : State) (id : Nat) (g : Task → Task) : s.modTask id g = { s with tasks := (s.modTask id g).tasks } := by
  unfold State.modTask
  split
  · rfl
  · rfl

/-- What follows slot `i` of strand `n`, begun in `y`, with at most `m` slots to come. -/
def State.afterSlot (y : State) (n : Nat) (i : Instr) (m : Nat) (t : State) : Out1 :=
  let t := (y.regionRule n i t).endSlot n
  if (t.strandAt n).blocked = 0 then t.runSlots n m else .next t

theorem runSlots_of_left {s : State} {n k : Nat} {i : Instr} {r : List (Nat × Instr)} {f : Flight} (m : Nat)
    (hf : (s.strandAt n).flight = some f) (hl : f.left = (k, i) :: r) (hb : (s.strandAt n).blocked = 0 ∨ s.wdogDue n = false) :
    ∃ y, SlotBegun s y n k f ∧ s.runSlots n (m + 1) = andThen (exec i y) (y.afterSlot n i m) := by
  let u : State := { s.setStrand n ((s.strandAt n).slotBegun f k i) with cur := n }
  have hn : u.strandAt n = (s.strandAt n).slotBegun f k i := (strandAt_setStrand ..).trans (if_pos rfl)
  have hother (p : Nat) (hp : p ≠ n) : u.strandAt p = s.strandAt p := (strandAt_setStrand ..).trans (if_neg hp)
  have hbegun {y : State} (hcur : y.cur = n) (hy : ∃ l, y.strandAt n = { u.strandAt n with regions := l }) (hmem : y.mem = s.mem)
      (ho : ∀ p, p ≠ n → y.strandAt p = u.strandAt p) : SlotBegun s y n k f := by
    obtain ⟨l, hl⟩ := hy
    have hst : y.st = { (s.strandAt n).slotBegun f k i with regions := l } := by rw [State.st, hcur, hl, hn]
    exact ⟨hcur, by rw [hst]; rfl, by rw [hst]; exact src_of_flight hf, by rw [hst]; rfl, by rw [hst]; rfl, by rw [hst]; rfl, hmem,
      fun p hp => (ho p hp).trans (hother p hp)⟩
  refine ⟨u.reenter n i, ?_, ?_⟩
  · rcases reenter_cases u n i with h | ⟨g, l, h⟩
    · rw [h]
      exact hbegun rfl ⟨(u.strandAt n).regions, rfl⟩ rfl fun _ _ => rfl
    · rw [h, modTask_frame]
      exact hbegun rfl ⟨l, (strandAt_setStrand ..).trans (if_pos rfl)⟩ rfl fun p hp => (strandAt_setStrand ..).trans (if_neg hp)
  · rw [State.runSlots, startSlot_of_left hf hl hb]
    rfl

theorem runSlots_of_no_flight {s : State} {n : Nat} (h : (s.strandAt n).flight = none) (m : Nat) : s.runSlots n m = .next s := by
  cases m with
  | zero => rfl
  | succ m => simp [State.runSlots, State.startSlot, h]

/-- A core none of whose bundles is under way does nothing between its cycles. -/
theorem runCore_of_no_flight {s : State} {c : Nat} {l : List Nat} (h : ∀ k ∈ l, (s.strandAt (c * 4 + k)).flight = none) :
    s.runCore c l = .next s := by
  induction l with
  | nil => rfl
  | cons k r ih =>
    rw [State.runCore, Config.slots, runSlots_of_no_flight (h k List.mem_cons_self), andThen_next]
    exact ih fun j hj => h j (List.mem_cons_of_mem _ hj)

/-- Slots of a core whose bundles are not under way are passed over. -/
theorem runCore_append {s : State} {c : Nat} {l : List Nat} (h : ∀ k ∈ l, (s.strandAt (c * 4 + k)).flight = none) (r : List Nat) :
    s.runCore c (l ++ r) = s.runCore c r := by
  induction l with
  | nil => rfl
  | cons k t ih =>
    rw [List.cons_append, State.runCore, Config.slots, runSlots_of_no_flight (h k List.mem_cons_self), andThen_next]
    exact ih fun j hj => h j (List.mem_cons_of_mem _ hj)

/-! ### What a slot leaves in its region (R61) -/

/-- Between slots, what the region of a strand that does not execute again has read and written is all that is noted. -/
theorem regionRule_cases {s : State} {n : Nat} (i : Instr) (t : State) (h : (s.strandAt n).again = false) :
    s.regionRule n i t = t ∨ ∃ l, s.regionRule n i t = t.setStrand n { t.strandAt n with regions := l } := by
  unfold State.regionRule
  simp only [h, Bool.false_eq_true, if_false]
  split
  · exact .inl rfl
  · split
    · exact .inl rfl
    · split
      · exact .inl rfl
      · split
        · exact .inr ⟨(t.strandAt n).regions, rfl⟩
        · exact .inr ⟨_, rfl⟩

theorem regionRule_regions {s : State} {n : Nat} (i : Instr) (t : State) (h : (s.strandAt n).again = false) : s.regionRule n i t = t ∨
    s.regionRule n i t = t.setStrand n { t.strandAt n with regions := ((s.regionRule n i t).strandAt n).regions } := by
  rcases regionRule_cases i t h with hu | ⟨l, hu⟩
  · exact .inl hu
  · refine .inr ?_
    rw [hu, strandAt_setStrand, if_pos rfl]

/-! ### What a step of an agent runs (R19, R60) -/

theorem act_event {i : Instr} (h : i ≠ .bundleIssue) (s : State) (e : Event) : s.act (.event i e) = exec i { s with ev := e } := by
  unfold State.act
  split
  · rename_i heq
    cases heq
    exact absurd rfl h
  · rename_i heq
    cases heq
    rfl
  · rename_i heq
    cases heq
  · rename_i heq
    cases heq

theorem step_urgent {s : State} {a : Act} (h : s.urgent = some a) : step s = andThen (s.act a) fun t => .next t.finish := by
  rw [step, State.next, h]

section
variable {s : State} (hu : s.urgent = none)
include hu

theorem step_inbox {i : Instr} {e : Event} {r : List (Instr × Event)} (hi : s.inbox = (i, e) :: r) :
    step s = andThen (({ s with inbox := r } : State).act (.event i e)) fun t => .next t.finish := by
  simp only [step, State.next, hu, hi]

variable (hi : s.inbox = [])
include hi

theorem step_idle (he : s.enabled = []) : step s = .next s.finish := by
  simp only [step, State.next, hu, hi, he, andThen_next]

theorem step_single {a : Act} (he : s.enabled = [a]) : step s = andThen (s.act a) fun t => .next t.finish := by
  simp only [step, State.next, hu, hi, he]

/-- Of several enabled steps the machine takes one. -/
theorem step_chosen (he : 2 ≤ s.enabled.length) :
    ∃ a ∈ s.enabled, step s = andThen (({ s with fresh := s.fresh + 1 } : State).act a) fun t => .next t.finish := by
  cases hl : s.enabled with
  | nil => simp [hl] at he
  | cons a l =>
    cases l with
    | nil => simp [hl] at he
    | cons b r =>
      have hlt : Config.freeChoice s.fresh % ((b :: r).length + 1) < (a :: b :: r).length := Nat.mod_lt _ (by simp)
      refine ⟨(a :: b :: r)[Config.freeChoice s.fresh % ((b :: r).length + 1)], List.getElem_mem hlt, ?_⟩
      simp only [step, State.next, hu, hi, hl, State.choose, List.getElem?_eq_getElem hlt, Option.getD_some]

end

/-- What must start at once is a stage's dispatch (R373). -/
theorem urgent_stageDispatch {s : State} {i : Instr} {e : Event} (h : s.urgent = some (.event i e)) : i = .stageDispatch := by
  obtain ⟨p, -, hp⟩ := List.exists_of_findSome?_eq_some h
  obtain ⟨q, -, hq⟩ := List.exists_of_findSome?_eq_some hp
  dsimp only at hq
  split at hq
  · cases hq
    rfl
  · cases hq

theorem coreAt_modCore_lastServed (s : State) (m : Nat) (g : SMap Nat → SMap Nat) (c : Nat) :
    (s.modCore m fun x => { x with lastServed := g x.lastServed }).coreAt c =
      { s.coreAt c with lastServed := ((s.modCore m fun x => { x with lastServed := g x.lastServed }).coreAt c).lastServed } := by
  rw [State.modCore, coreAt_setCore]
  split
  · subst_vars
    rfl
  · rfl

/-- The turn of an engine: its entry, its strand, how far it goes, and the record of what it served last. -/
theorem beginTurn_frame (s : State) (e : Entry) : (s.beginTurn e).engine = some e ∧ (s.beginTurn e).cur = e.strand.getD (e.core * 4) ∧
    (s.beginTurn e).pace < 2 ∧ (s.beginTurn e).mem = s.mem ∧ (s.beginTurn e).strands = s.strands ∧
    ∀ c, (s.beginTurn e).coreAt c = { s.coreAt c with lastServed := ((s.beginTurn e).coreAt c).lastServed } := by
  have hpace : Config.freeChoice s.fresh % 2 < 2 := Nat.mod_lt _ (by decide)
  unfold State.beginTurn
  cases engineOf e.instr with
  | none => exact ⟨rfl, rfl, hpace, rfl, rfl, fun _ => rfl⟩
  | some k =>
    exact ⟨rfl, rfl, hpace, rfl, rfl,
      coreAt_modCore_lastServed { s with fresh := s.fresh + 1 } (servedCore k e.core) (smPut · k (e.queueNo k))⟩

/-! ### A core cycle with one strand (R54, R60, R136) -/

section
variable {s u : State} {c j k : Nat} {h : Header} {i : Instr} (hj : j < 4) (hu : s.urgent = none) (hi : s.inbox = [])
  (he : s.enabled = [.event .bundleIssue { n := c }]) (hlate : (s.strandAt (c * 4 + j)).late = []) (hone : s.onlySlot c j)
  (hl : ({ s with ev := { n := c } } : State).look (c * 4 + j) = (u, .ready { hdr := h, slots := [(k, i)] })) (hs : u.strands = s.strands)
include hj hu hi he hlate hone hl hs

/-- The one strand's bundle of one slot issues, and its slot is the first to take effect. -/
theorem step_single_slot : ∃ y, SlotBegun ((u.cycled c).issue (c * 4 + j) { hdr := h, slots := [(k, i)] }) y (c * 4 + j) k
      { left := [(k, i)], latch := (s.strandAt (c * 4 + j)).now, stall := h.stall, btWait := (s.strandAt (c * 4 + j)).btWait
        base := (s.strandAt (c * 4 + j)).seq } ∧
    step s = andThen (andThen (andThen (exec i y) (y.afterSlot (c * 4 + j) i 4)) fun t => t.runCore c ((List.range 4).drop (j + 1)))
      fun t => .next t.finish := by
  have hsame (m : Nat) : (u.cycled c).strandAt m = s.strandAt m := by rw [State.strandAt, State.strandAt, ← hs]; rfl
  obtain ⟨hn, -, -, hother⟩ := issue_frame (s := u.cycled c) (n := c * 4 + j) (by rw [hsame]; exact hlate) { hdr := h, slots := [(k, i)] }
  rw [hsame, if_neg (by simp)] at hn
  have hcycle := exec_bundleIssue_ready (s := { s with ev := { n := c } }) hj hone hs hl hlate
  have hact : s.act (.event .bundleIssue { n := c }) =
      ((u.cycled c).issue (c * 4 + j) { hdr := h, slots := [(k, i)] }).runCore c (List.range 4) :=
    congrArg (andThen · fun t => t.runCore c (List.range 4)) hcycle
  have hrange : List.range 4 = List.range j ++ j :: (List.range 4).drop (j + 1) := by interval_cases j <;> rfl
  have hempty (m : Nat) (hm : m ∈ List.range j) :
      (((u.cycled c).issue (c * 4 + j) { hdr := h, slots := [(k, i)] }).strandAt (c * 4 + m)).flight = none := by
    have hlt := List.mem_range.1 hm
    rw [hother _ (by omega), hsame, hone m (by omega) (by omega)]
  obtain ⟨y, hy, hrun⟩ := runSlots_of_left (m := 4) (i := i) (r := []) (k := k) (by rw [hn]; rfl) rfl (.inl (by rw [hn]; rfl))
  refine ⟨y, hy, ?_⟩
  conv_lhs => rw [step_single hu hi he, hact, hrange, runCore_append hempty, State.runCore, Config.slots, hrun]

end

/-! ### The obligation -/

/-- Settles O40: a step is the act of what is urgent, has arrived, or is enabled; of a core cycle it runs the slots of the bundle that
issued, one after another. -/
theorem stepRunsDecodedInstruction : Obligations.StepRunsDecodedInstruction := by
  unfold Obligations.StepRunsDecodedInstruction
  intro s after
  refine ⟨?_, fun sup k nbits w h ws i hslots hlen hi hsup hc => decodeBundle_single w hslots hlen hi hsup hc, ?_, ?_,
    fun c l h => runCore_of_no_flight h, fun n k m i r f hf hl hb => ?_, fun e hu hi he => ?_, fun i e hu => ?_, fun i e r hu hi hne => ?_,
    fun k i e hu hi he hk => ?_, fun hu hi he => step_idle hu hi he, fun n i t h => regionRule_regions i t h,
    fun hu hi he => step_chosen hu hi he⟩
  · intro n va u pa core
    exact fetchWord_mem
  · intro n w ws h b u x
    exact look_ready
  · intro c j k h i u hj n x hu hi he hlate hone hl hs
    obtain ⟨y, hy, hstep⟩ := step_single_slot hj hu hi he hlate hone hl hs
    have hsame (m : Nat) : (u.cycled c).strandAt m = s.strandAt m := by rw [State.strandAt, State.strandAt, ← hs]; rfl
    obtain ⟨hn, -, hmem, hother⟩ := issue_frame (s := u.cycled c) (n := n) (by rw [hsame]; exact hlate) { hdr := h, slots := [(k, i)] }
    rw [hsame, if_neg (by simp)] at hn
    refine ⟨y, hy.cur, by rw [hy.now, hn]; rfl, hy.src, by rw [hy.addr, hn]; rfl, by rw [hy.pc, hn]; rfl, hy.slotNo, hy.mem.trans hmem,
      fun m hm => (hy.others m hm).trans ((hother m hm).trans (hsame m)), hstep⟩
  · obtain ⟨y, hy, hrun⟩ := runSlots_of_left m hf hl hb
    exact ⟨y, hy.cur, hy.now, hy.src, hy.slotNo, hrun⟩
  · exact ⟨s.beginTurn e, step_single hu hi he, beginTurn_frame s e⟩
  · obtain rfl := urgent_stageDispatch hu
    exact ⟨rfl, (step_urgent hu).trans (by rw [act_event (by simp)])⟩
  · rw [step_inbox hu hi, act_event hne]
  · rw [step_single hu hi he, State.act, hk]

end Sys2Proof.Machine

/-!
Strands that start (R46, R49): the free slot that each takes, and what stands in it then.
-/
namespace Sys2Proof.Machine

/-! ### Free slots (R46) -/

theorem freeSlot_mem {s : State} {c n : Nat} (h : s.freeSlot c = some n) : coreOf n = c ∧ ∃ k < 4, n = c * 4 + k := by
  obtain ⟨k, hk, rfl⟩ := Option.map_eq_some_iff.1 h
  have hlt : k < 4 := List.mem_range.1 (List.mem_of_find?_eq_some hk)
  refine ⟨?_, k, hlt, rfl⟩
  simp only [coreOf, Config.slots]
  omega

/-- Which slot of a core is free is told by the core's strands alone. -/
theorem freeSlot_congr {s t : State} {c : Nat} (h : ∀ k < 4, t.strandAt (c * 4 + k) = s.strandAt (c * 4 + k)) : t.freeSlot c = s.freeSlot c := by
  have hfind : (List.range 4).find? (fun k => !(t.strandAt (c * 4 + k)).live) = (List.range 4).find? fun k => !(s.strandAt (c * 4 + k)).live := by
    refine List.find?_congr fun k hk => ?_
    rw [h k (List.mem_range.1 hk)]
  rw [State.freeSlot, State.freeSlot, Config.slots, hfind]

/-! ### One strand starts (R49, R232) -/

/-- `t` is `s` but for its strands and cores, and for free values drawn. -/
def StrandsDiffer (s t : State) : Prop := t = { s with strands := t.strands, cores := t.cores, fresh := t.fresh }

theorem StrandsDiffer.trans {s t u : State} (h : StrandsDiffer s t) (k : StrandsDiffer t u) : StrandsDiffer s u :=
  Eq.trans k (congrArg (fun w : State => { w with strands := u.strands, cores := u.cores, fresh := u.fresh }) h)

theorem StrandsDiffer.tasks {s t : State} (h : StrandsDiffer s t) : t.tasks = s.tasks := (congrArg State.tasks h).trans rfl
theorem StrandsDiffer.dies {s t : State} (h : StrandsDiffer s t) : t.dies = s.dies := (congrArg State.dies h).trans rfl
theorem StrandsDiffer.lqs {s t : State} (h : StrandsDiffer s t) : t.lqs = s.lqs := (congrArg State.lqs h).trans rfl
theorem StrandsDiffer.lqLast {s t : State} (h : StrandsDiffer s t) : t.lqLast = s.lqLast := (congrArg State.lqLast h).trans rfl
theorem StrandsDiffer.nextTask {s t : State} (h : StrandsDiffer s t) : t.nextTask = s.nextTask := (congrArg State.nextTask h).trans rfl
theorem StrandsDiffer.mem {s t : State} (h : StrandsDiffer s t) : t.mem = s.mem := (congrArg State.mem h).trans rfl

theorem idleCycles_frame (s : State) (c : Nat) : StrandsDiffer s (s.idleCycles c) ∧ (s.idleCycles c).strands = s.strands := by
  unfold State.idleCycles
  split
  · exact ⟨rfl, rfl⟩
  · exact ⟨rfl, rfl⟩

theorem startStrand_frame (s : State) (n : Nat) (x : Strand) : StrandsDiffer s (s.startStrand n x) :=
  (idleCycles_frame s (coreOf n)).1.trans rfl

/-- A strand that has just started, in its one implicit region. -/
def Strand.begun (x : Strand) (lseq : SMap Nat) : Strand := { x with live := true, lseq }.openRegion { entry := x.pc }

theorem strandAt_startStrand (s : State) (n m : Nat) (x : Strand) :
    (s.startStrand n x).strandAt m = if m = n then x.begun (s.strandAt n).lseq else s.strandAt m := by
  have hidle : (s.idleCycles (coreOf n)).strandAt m = s.strandAt m := by
    rw [State.strandAt, (idleCycles_frame s (coreOf n)).2, State.strandAt]
  rw [State.startStrand, strandAt_setStrand, hidle]
  rfl

/-! ### The strands of a gang start (R46) -/

/-- Strands start, each on its core in the lowest free slot. -/
def State.startAll (s : State) (xs : List (Nat × Strand)) : State :=
  xs.foldl (fun s p => match s.freeSlot p.1 with
    | some n => s.startStrand n p.2
    | none => s) s

theorem startAll_cons {s : State} {p : Nat × Strand} {n : Nat} (h : s.freeSlot p.1 = some n) (xs : List (Nat × Strand)) :
    s.startAll (p :: xs) = (s.startStrand n p.2).startAll xs := by
  rw [State.startAll, List.foldl_cons, h]
  rfl

/-- A start on one core leaves the slots of another as they were. -/
theorem freeSlot_startStrand {s : State} {n c : Nat} (h : coreOf n ≠ c) (x : Strand) : (s.startStrand n x).freeSlot c = s.freeSlot c := by
  refine freeSlot_congr fun k hk => ?_
  rw [strandAt_startStrand, if_neg]
  rintro rfl
  refine h ?_
  simp only [coreOf, Config.slots]
  omega

theorem startAll_frame (s : State) (xs : List (Nat × Strand)) : StrandsDiffer s (s.startAll xs) := by
  refine List.foldlRecOn (motive := StrandsDiffer s) xs _ rfl fun t ht p _ => ?_
  split
  · exact ht.trans (startStrand_frame ..)
  · exact ht

/-- A slot that no start takes stays as it is. -/
theorem strandAt_startAll_other {s : State} {xs : List (Nat × Strand)} (hcores : (xs.map (·.1)).Nodup) {n : Nat}
    (h : ∀ p ∈ xs, s.freeSlot p.1 ≠ some n) : (s.startAll xs).strandAt n = s.strandAt n := by
  induction xs generalizing s with
  | nil => rfl
  | cons p r ih =>
    rw [List.map_cons, List.nodup_cons] at hcores
    cases hfree : s.freeSlot p.1 with
    | none =>
      rw [State.startAll, List.foldl_cons, hfree]
      exact ih hcores.2 fun q hq => h q (List.mem_cons_of_mem _ hq)
    | some m =>
      have hm : n ≠ m := fun heq => h p List.mem_cons_self (by rw [hfree, heq])
      have hcore := (freeSlot_mem hfree).1
      rw [startAll_cons hfree, ih hcores.2, strandAt_startStrand, if_neg hm]
      intro q hq
      rw [freeSlot_startStrand]
      · exact h q (List.mem_cons_of_mem _ hq)
      · rw [hcore]
        rintro heq
        exact hcores.1 (heq ▸ List.mem_map_of_mem hq)

/-- On distinct cores with free slots, every strand has started in the lowest of its core. -/
theorem strandAt_startAll {s : State} {xs : List (Nat × Strand)} (hcores : (xs.map (·.1)).Nodup) (hfree : ∀ p ∈ xs, (s.freeSlot p.1).isSome) :
    ∀ p ∈ xs, ∃ n lseq, s.freeSlot p.1 = some n ∧ (s.startAll xs).strandAt n = p.2.begun lseq := by
  induction xs generalizing s with
  | nil => simp
  | cons p r ih =>
    rw [List.map_cons, List.nodup_cons] at hcores
    obtain ⟨m, hm⟩ := Option.isSome_iff_exists.1 (hfree p List.mem_cons_self)
    have hcore := (freeSlot_mem hm).1
    have hsame (q : Nat × Strand) (hq : q ∈ r) : (s.startStrand m p.2).freeSlot q.1 = s.freeSlot q.1 := by
      refine freeSlot_startStrand ?_ p.2
      rw [hcore]
      rintro heq
      exact hcores.1 (heq ▸ List.mem_map_of_mem hq)
    rw [startAll_cons hm]
    intro q hq
    rcases List.mem_cons.1 hq with rfl | hq
    · refine ⟨m, (s.strandAt m).lseq, hm, ?_⟩
      rw [strandAt_startAll_other hcores.2, strandAt_startStrand, if_pos rfl]
      intro p hp hslot
      rw [hsame p hp] at hslot
      exact hcores.1 (hcore.symm.trans (freeSlot_mem hslot).1 ▸ List.mem_map_of_mem hp)
    · obtain ⟨n, lseq, hn, hat⟩ := ih hcores.2 (fun p hp => by rw [hsame p hp]; exact hfree p (List.mem_cons_of_mem _ hp)) q hq
      exact ⟨n, lseq, (hsame q hq).symm.trans hn, hat⟩

/-! ### The strands of a new task (R49) -/

/-- The strands of a gang by core (R44, R49). -/
def Start.gang (a : Start) (task : Nat) (cores : List Nat) : List (Nat × Strand) :=
  cores.zipIdx.map fun p => (p.1, a.strand task cores.length p.2)

theorem map_fst_gang (a : Start) (task : Nat) (cores : List Nat) : (a.gang task cores).map (·.1) = cores := by
  rw [Start.gang, List.map_map]
  exact List.zipIdx_map_fst 0 cores

theorem startGang_eq (s : State) (task : Nat) (cores : List Nat) (a : Start) : s.startGang task cores a = s.startAll (a.gang task cores) := by
  rw [State.startAll, Start.gang, List.foldl_map]
  rfl

/-- The strand of a rank of a new task, once it has started. -/
theorem started_of_begun {t : State} {n id size rank : Nat} {a : Start} {lseq : SMap Nat}
    (h : t.strandAt n = (a.strand id size rank).begun lseq) : Started t n id size rank a := by
  have hregs (k : Nat) : ((a.strand id size rank).begun lseq).now.getS k =
      if k = 0 then 0 else if k = 4 then a.s4 else if k = 3 then a.s3 else if k = 2 then a.s2 else if k = 1 then a.s1 else 0 := by
    simp only [Strand.begun, Strand.openRegion, Strand.prune, Start.strand, Regs.getS, List.foldl_cons, List.foldl_nil, smGet_smSet, smGet_nil]
  refine ⟨?_, ?_, ?_, ?_, ?_, ?_⟩
  all_goals rw [h]
  · exact ⟨rfl, rfl, rfl, rfl⟩
  · exact ⟨rfl, rfl, rfl⟩
  · exact ⟨rfl, rfl, rfl, rfl⟩
  · refine ⟨hregs 1, hregs 2, hregs 3, hregs 4, fun k hk => ?_, rfl⟩
    rw [hregs, if_neg (by omega), if_neg (by omega), if_neg (by omega), if_neg (by omega), if_neg (by omega)]
  · exact ⟨rfl, rfl, rfl, rfl⟩
  · exact ⟨rfl, rfl, rfl, rfl⟩

section
variable {s : State} {id : Nat} {cores : List Nat} {a : Start} (hcores : cores.Nodup)
include hcores

/-- Every strand of a gang starts in the lowest free slot of its core. -/
theorem started_startGang (hfree : cores.all s.coreFree = true) {i c : Nat} (hi : cores[i]? = some c) :
    ∃ n, s.freeSlot c = some n ∧ Started (s.startGang id cores a) n id cores.length i a := by
  have hmem : (c, a.strand id cores.length i) ∈ a.gang id cores :=
    List.mem_map.2 ⟨(c, i), List.mk_mem_zipIdx_iff_getElem?.2 hi, rfl⟩
  have hslots (p : Nat × Strand) (hp : p ∈ a.gang id cores) : (s.freeSlot p.1).isSome := by
    have hp1 : p.1 ∈ cores := map_fst_gang a id cores ▸ List.mem_map_of_mem hp
    exact (Bool.and_eq_true_iff.1 (List.all_eq_true.1 hfree _ hp1)).1
  obtain ⟨n, lseq, hn, hat⟩ := strandAt_startAll (by rw [map_fst_gang]; exact hcores) hslots _ hmem
  rw [startGang_eq]
  exact ⟨n, hn, started_of_begun hat⟩

theorem strandAt_startGang_other {n : Nat} (h : ∀ c ∈ cores, s.freeSlot c ≠ some n) : (s.startGang id cores a).strandAt n = s.strandAt n := by
  rw [startGang_eq]
  exact strandAt_startAll_other (by rw [map_fst_gang]; exact hcores) fun p hp => h p.1 (map_fst_gang a id cores ▸ List.mem_map_of_mem hp)

end

theorem startGang_frame (s : State) (id : Nat) (cores : List Nat) (a : Start) : StrandsDiffer s (s.startGang id cores a) := by
  rw [startGang_eq]
  exact startAll_frame ..

end Sys2Proof.Machine

/-!
Dispatches (O47): the queue that the launch unit picks and the task made of its head, and what a stage's dispatch leaves.
-/
namespace Sys2Proof.Machine

/-! ### The launch unit's pick (R46) -/

/-- The launch unit considers queue `q` after the best of the queues before it. -/
def pickStep (p : State × Option (Nat × HeadRead)) (q : Nat) : State × Option (Nat × HeadRead) :=
  match p.1.launchHead q with
  | (s, some a) =>
    if !a.fits s then (s, p.2)
    else (s, match p.2 with
      | some (_, b) => if (launchRec b.rec1).cls < (launchRec a.rec1).cls then some (q, a) else p.2
      | none => some (q, a))
  | (s, none) => (s, p.2)

theorem launchPick_eq (s : State) : s.launchPick = ((List.range 8).map fun i => (s.lqLast + 1 + i) % 8).foldl pickStep (s, none) := rfl

/-- The pick is of class `c` or above. -/
def AtLeast (best : Option (Nat × HeadRead)) (c : Nat) : Prop := ∃ q a, best = some (q, a) ∧ c ≤ (launchRec a.rec1).cls

section
variable {s : State} {best : Option (Nat × HeadRead)} {q : Nat} (hq : (s.launchHead q).1 = s)
include hq

theorem pickStep_state : (pickStep (s, best) q).1 = s := by
  unfold pickStep
  dsimp only
  generalize s.launchHead q = p at hq
  obtain ⟨t, r⟩ := p
  cases r with
  | none => exact hq
  | some a =>
    dsimp only at hq ⊢
    split
    · exact hq
    · exact hq

theorem atLeast_pickStep {c : Nat} (h : AtLeast best c) : AtLeast (pickStep (s, best) q).2 c := by
  obtain ⟨p, a, rfl, hc⟩ := h
  unfold pickStep
  dsimp only
  generalize s.launchHead q = w at hq
  obtain ⟨t, r⟩ := w
  cases r with
  | none => exact ⟨p, a, rfl, hc⟩
  | some b =>
    dsimp only
    split
    · exact ⟨p, a, rfl, hc⟩
    · split
      · exact ⟨q, b, rfl, by omega⟩
      · exact ⟨p, a, rfl, hc⟩

end

theorem atLeast_pickStep_self {s : State} {best : Option (Nat × HeadRead)} {q : Nat} {b : HeadRead} (hb : s.launchHead q = (s, some b))
    (hfits : b.fits s = true) :
    AtLeast (pickStep (s, best) q).2 (launchRec b.rec1).cls := by
  unfold pickStep
  simp only [hb, hfits, Bool.not_true, Bool.false_eq_true, if_false]
  split
  · rename_i p a
    split
    · exact ⟨q, b, rfl, le_refl _⟩
    · exact ⟨p, a, rfl, by omega⟩
  · exact ⟨q, b, rfl, le_refl _⟩

/-- Where every head has been read, the pick is of no lower class than any head that could start. -/
theorem pick_highest {s : State} {l : List Nat} (hread : ∀ k ∈ l, (s.launchHead k).1 = s) (best : Option (Nat × HeadRead)) :
    (l.foldl pickStep (s, best)).1 = s ∧ (∀ c, AtLeast best c → AtLeast (l.foldl pickStep (s, best)).2 c) ∧
    ∀ k b, k ∈ l → s.launchHead k = (s, some b) → b.fits s = true → AtLeast (l.foldl pickStep (s, best)).2 (launchRec b.rec1).cls := by
  induction l generalizing best with
  | nil => exact ⟨rfl, fun _ h => h, by simp⟩
  | cons q r ih =>
    have hq := hread q List.mem_cons_self
    have hstep : pickStep (s, best) q = (s, (pickStep (s, best) q).2) := Prod.ext (pickStep_state hq) rfl
    obtain ⟨h1, h2, h3⟩ := ih (fun k hk => hread k (List.mem_cons_of_mem _ hk)) (pickStep (s, best) q).2
    rw [List.foldl_cons, hstep]
    refine ⟨h1, fun c hc => h2 c (atLeast_pickStep hq hc), fun k b hk hb hfits => ?_⟩
    rcases List.mem_cons.1 hk with rfl | hk
    · exact h2 _ (atLeast_pickStep_self hb hfits)
    · exact h3 k b hk hb hfits

/-- The order of service reaches every queue. -/
theorem mem_service_order (last : Nat) {k : Nat} (hk : k < 8) : k ∈ (List.range 8).map fun i => (last + 1 + i) % 8 :=
  List.mem_map.2 ⟨(k + 7 * (last + 1)) % 8, List.mem_range.2 (Nat.mod_lt _ (by decide)), by omega⟩

theorem launchPick_highest {s u : State} {q : Nat} {a : HeadRead} (hp : s.launchPick = (u, some (q, a)))
    (hread : ∀ k, k < 8 → (s.launchHead k).1 = s) {k : Nat} {b : HeadRead} (hk : k < 8) (hb : s.launchHead k = (s, some b))
    (hfits : b.fits s = true) : (launchRec b.rec1).cls ≤ (launchRec a.rec1).cls := by
  have hlt (j : Nat) (hj : j ∈ (List.range 8).map fun i => (s.lqLast + 1 + i) % 8) : j < 8 := by
    obtain ⟨i, -, rfl⟩ := List.mem_map.1 hj
    exact Nat.mod_lt _ (by decide)
  obtain ⟨-, -, h⟩ := pick_highest (fun j hj => hread j (hlt j hj)) none
  obtain ⟨p, c, hbest, hcls⟩ := h k b (mem_service_order s.lqLast hk) hb hfits
  rw [← launchPick_eq, hp] at hbest
  cases hbest
  exact hcls

/-! ### A launched task (R38, R46, R49) -/

@[simp] theorem lqAt_modLq (s : State) (q k : Nat) (f : LaunchQueue → LaunchQueue) :
    (s.modLq q f).lqAt k = if k = q then f (s.lqAt q) else s.lqAt k := by
  simp [State.lqAt, State.modLq]

theorem lqAt_modLq_self (s : State) (q : Nat) (f : LaunchQueue → LaunchQueue) : (s.modLq q f).lqAt q = f (s.lqAt q) :=
  (lqAt_modLq ..).trans (if_pos rfl)

/-- The start of a launched gang: what its strands have in common (R43, R49). -/
def HeadRead.start (a : HeadRead) : Start :=
  let r := launchRec a.rec1
  { pc := r.entry, s1 := r.arg, s4 := 3, t := a.t, cls := r.cls, spmBase := r.spmBase * 4096, spmLen := r.spmLen * 4096
    accBase := r.accB, accN := r.accN }

/-- The task that is made of the head of queue `q` (R38). -/
def HeadRead.task (a : HeadRead) (q tenant : Nat) : Task :=
  { origin := .queue q, tenant, user := (launchRec a.rec1).user, gang := a.gang, sup := (launchRec a.rec1).cls == 3, status := a.status.getD 0 }

/-- The machine whose launch unit has taken the head of queue `q` for a new task. -/
def State.headTaken (u : State) (q : Nat) (a : HeadRead) : State :=
  ({ u.modLq q ({ · with head := ((u.lqAt q).head + 1) % 2 ^ (u.lqAt q).size, read := none }) with lqLast := q } : State).newTask
    (a.task q (u.lqAt q).tenant) |>.1

theorem exec_launchDispatch_picked {s u : State} {q : Nat} {a : HeadRead} (h : s.launchPick = (u, some (q, a))) :
    exec .launchDispatch s = .next ((u.headTaken q a).startGang u.nextTask a.gang a.start) := by
  rw [exec_launchDispatch, execLaunchDispatch, h]
  rfl

/-! ### A stage's dispatch (R48, R372, R373) -/

/-- `h` is `g` but for its queues. -/
structure SameTags (g h : Stage) : Prop where
  id : h.id = g.id
  tenant : h.tenant = g.tenant
  desc : h.desc = g.desc
  cur : h.cur = g.cur
  warm : h.warm = g.warm
  tags : h.tags = g.tags

theorem sameTags_taken (g : Stage) (kind : Nat) (l : List Arrival) : SameTags g (g.setQueue kind l).refillW := by
  unfold Stage.setQueue
  split
  · exact ⟨rfl, rfl, rfl, rfl, rfl, rfl⟩
  · split
    · exact ⟨rfl, rfl, rfl, rfl, rfl, rfl⟩
    · exact ⟨rfl, rfl, rfl, rfl, rfl, rfl⟩

theorem sameTags_purge (g : Stage) : SameTags g g.purge := ⟨rfl, rfl, rfl, rfl, rfl, rfl⟩

/-- A tag that is bound keeps the stage's descriptor; a new one is of the current version (R376). -/
theorem bindTag_frame (g : Stage) (kind tag : Nat) :
    ((g.bindTag kind tag).1.id = g.id ∧ (g.bindTag kind tag).1.tenant = g.tenant ∧ (g.bindTag kind tag).1.desc = g.desc ∧
      (g.bindTag kind tag).1.warm = g.warm) ∧ (g.tag tag = none → kind = 0 → (g.bindTag kind tag).2.ver = g.cur) := by
  unfold Stage.bindTag
  split
  · rename_i t ht
    exact ⟨⟨rfl, rfl, rfl, rfl⟩, fun hnone => absurd (ht.symm.trans hnone) (by simp)⟩
  · split
    · rename_i hk
      exact ⟨⟨rfl, rfl, rfl, rfl⟩, fun _ h0 => absurd h0 hk⟩
    · exact ⟨⟨rfl, rfl, rfl, rfl⟩, fun _ _ => rfl⟩

theorem word_of_desc {g h : Stage} (hd : h.desc = g.desc) (off : Nat) : h.word off = g.word off := by rw [Stage.word, hd, Stage.word]

theorem entry_of_desc {g h : Stage} (hd : h.desc = g.desc) (kind : Nat) : h.entry kind = g.entry kind := word_of_desc hd _

theorem cores_of_desc {g h : Stage} (hd : h.desc = g.desc) : h.cores = g.cores := by
  simp only [Stage.cores, Stage.clmask, Stage.cmask, word_of_desc hd]

/-- The stage whose tag is bound to an arrival that leaves its queue. -/
def Stage.bound (g : Stage) (kind : Nat) (a : Arrival) : Stage × TagState :=
  ((g.setQueue kind ((g.queue kind).erase a)).refillW).bindTag kind a.tag

/-- The tag of a dispatched arrival: the kind has been sent, and runs where it has an entry address. -/
def TagState.dispatched (t : TagState) (kind entry : Nat) : TagState :=
  { t with sent := if t.sent.contains kind then t.sent else kind :: t.sent, running := if entry = 0 then t.running else kind :: t.running }

theorem dispatch_eq (g : Stage) (kind : Nat) (a : Arrival) : ∃ warm, warm = (if kind = 0 then g.warm - 1 else g.warm) ∧
    g.dispatch kind a = ({ (g.bound kind a).1 with warm, tags := smPut (g.bound kind a).1.tags a.tag ((g.bound kind a).2.dispatched kind (g.entry kind)) },
      (g.bound kind a).2.dispatched kind (g.entry kind)) := by
  obtain ⟨⟨-, -, hdesc, hwarm⟩, -⟩ := bindTag_frame (g.setQueue kind ((g.queue kind).erase a)).refillW kind a.tag
  have hsame := sameTags_taken g kind ((g.queue kind).erase a)
  have hentry : (g.bound kind a).1.entry kind = g.entry kind := entry_of_desc (hdesc.trans hsame.desc) kind
  refine ⟨_, rfl, ?_⟩
  have hw : (g.bound kind a).1.warm = g.warm := hwarm.trans hsame.warm
  rw [← hw, ← hentry]
  unfold Stage.dispatch Stage.bound
  dsimp only
  split
  · rfl
  · rfl

theorem lqAt_headTaken (u : State) (q : Nat) (a : HeadRead) (k : Nat) : (u.headTaken q a).lqAt k =
    if k = q then { u.lqAt q with head := ((u.lqAt q).head + 1) % 2 ^ (u.lqAt q).size, read := none } else u.lqAt k :=
  lqAt_modLq u q k ({ · with head := ((u.lqAt q).head + 1) % 2 ^ (u.lqAt q).size, read := none })

theorem launched {u : State} {q : Nat} {a : HeadRead} (hgang : a.gang.Nodup) (hfits : a.fits u = true) :
    let t := (u.headTaken q a).startGang u.nextTask a.gang a.start
    t.lqAt q = { u.lqAt q with head := ((u.lqAt q).head + 1) % 2 ^ (u.lqAt q).size, read := none } ∧ t.lqLast = q ∧
    (∀ k, k ≠ q → t.lqAt k = u.lqAt k) ∧ t.nextTask = (if u.nextTask = 0xFFFFFFFF then 1 else u.nextTask + 1) ∧
    smFind t.tasks u.nextTask = some (a.task q (u.lqAt q).tenant) ∧
    (∀ i c, a.gang[i]? = some c → ∃ n, u.freeSlot c = some n ∧ Started t n u.nextTask a.gang.length i a.start) ∧
    ∀ n, (∀ c ∈ a.gang, u.freeSlot c ≠ some n) → t.strandAt n = u.strandAt n := by
  intro t
  have hframe : StrandsDiffer (u.headTaken q a) t := startGang_frame ..
  have hlq (k : Nat) : t.lqAt k = (u.headTaken q a).lqAt k := by rw [State.lqAt, hframe.lqs, State.lqAt]
  have hslot (c : Nat) : (u.headTaken q a).freeSlot c = u.freeSlot c := rfl
  refine ⟨?_, hframe.lqLast, fun k hk => ?_, hframe.nextTask, ?_, fun i c hi => ?_, fun n hn => ?_⟩
  · exact (hlq q).trans ((lqAt_headTaken ..).trans (if_pos rfl))
  · exact (hlq k).trans ((lqAt_headTaken ..).trans (if_neg hk))
  · rw [hframe.tasks]
    exact (smFind_smPut ..).trans (if_pos rfl)
  · exact started_startGang (s := u.headTaken q a) (a := a.start) hgang hfits hi
  · exact strandAt_startGang_other hgang fun c hc => (hslot c).symm ▸ hn c hc

/-- What the strands of a stage task have in common (R48, R49, R372). -/
def Stage.start (h : Stage) (kind tag : Nat) (y : TagState) : Start :=
  { pc := h.entry kind, s1 := BitVec.ofNat 64 tag, s2 := BitVec.ofNat 64 y.ver, s3 := BitVec.ofNat 64 y.slot, s4 := BitVec.ofNat 64 kind
    cls := h.cls, seed := some (h.word 0x38 % 2 ^ 32), stage := some h.id, spmBase := h.word 0x30 % 65536 * 4096
    spmLen := h.word 0x30 / 2 ^ 16 % 2 ^ 16 * 4096, accBase := h.word 0x30 / 2 ^ 32 % 16, accN := h.word 0x30 / 2 ^ 36 % 16 }

/-- The task of a tag's kind (R48). -/
def Stage.task (h : Stage) (d sel kind tag : Nat) (y : TagState) : Task :=
  { origin := .stage d sel, tenant := h.tenant, tag := BitVec.ofNat 32 tag, kind, birth := y.birth, gang := h.cores }

/-- A stage task of a table that is empty starts on the stage's cores. -/
theorem startStage_ok (s : State) (d sel : Nat) (h : Stage) (kind : Nat) (a : Arrival) (y : TagState) :
    s.startStage d sel h kind a y (.ok []) =
      (s.newTask (h.task d sel kind a.tag y)).1.startGang s.nextTask h.cores (h.start kind a.tag y) := rfl

theorem setStage_setStage (s : State) (d sel : Nat) (g h : Stage) : (s.setStage d sel g).setStage d sel h = s.setStage d sel h := by
  simp [State.setStage, State.modDie]

theorem stageAt_setStage (s : State) (d sel : Nat) (g : Stage) : smFind ((s.setStage d sel g).dieAt d).stages sel = some g := by
  simp [State.setStage, State.modDie]

section
variable {s : State} {g0 : Stage} (hg : smFind (s.dieAt s.ev.n).stages s.ev.k = some g0) (hopen : s.stageOpen g0 = true)
include hg hopen

/-- The table of a stage that may dispatch is evaluated after the old arrivals have gone (R372). -/
theorem exec_stageDispatch_open : exec .stageDispatch s =
    .next (match (s.setStage s.ev.n s.ev.k g0.purge).stagePick s.ev.n g0.purge (List.range 16) with
      | none => s.setStage s.ev.n s.ev.k g0.purge
      | some (kind, a) => (s.setStage s.ev.n s.ev.k g0.purge).stageDispatch s.ev.n s.ev.k g0.purge kind a) := by
  rw [exec_stageDispatch, execStageDispatch, hg]
  simp only [hopen, Bool.not_true, Bool.false_eq_true, if_false]
  rfl

theorem exec_stageDispatch_none (hpick : (s.setStage s.ev.n s.ev.k g0.purge).stagePick s.ev.n g0.purge (List.range 16) = none) :
    exec .stageDispatch s = .next (s.setStage s.ev.n s.ev.k g0.purge) := by
  rw [exec_stageDispatch_open hg hopen, hpick]

variable {kind : Nat} {a : Arrival}
  (hpick : (s.setStage s.ev.n s.ev.k g0.purge).stagePick s.ev.n g0.purge (List.range 16) = some (kind, a))
include hpick

/-- A kind without an entry address finishes at once (R373). -/
theorem exec_stageDispatch_finishes (hentry : (g0.purge.dispatch kind a).1.entry kind = 0) : exec .stageDispatch s =
    .next ((s.setStage s.ev.n s.ev.k g0.purge).setStage s.ev.n s.ev.k ((g0.purge.dispatch kind a).1.finishKind a.tag kind)) := by
  rw [exec_stageDispatch_open hg hopen, hpick]
  simp only [State.stageDispatch, hentry, if_true]

theorem exec_stageDispatch_starts (hentry : (g0.purge.dispatch kind a).1.entry kind ≠ 0) (htab : (g0.purge.dispatch kind a).1.word 0x28 = 0)
    (hvia : a.via = none) : exec .stageDispatch s =
    .next (((s.setStage s.ev.n s.ev.k (g0.purge.dispatch kind a).1).newTask
      ((g0.purge.dispatch kind a).1.task s.ev.n s.ev.k kind a.tag (g0.purge.dispatch kind a).2)).1.startGang s.nextTask
        (g0.purge.dispatch kind a).1.cores ((g0.purge.dispatch kind a).1.start kind a.tag (g0.purge.dispatch kind a).2)) := by
  rw [exec_stageDispatch_open hg hopen, hpick]
  simp only [State.stageDispatch, hentry, if_false, htab, if_true, State.dropSlot, hvia, setStage_setStage, startStage_ok]
  rfl

end

/-- What a dispatch keeps of the stage and notes of the tag (R372, R376). -/
theorem dispatch_frame (g : Stage) (kind : Nat) (a : Arrival) :
    let h := (g.dispatch kind a).1
    let y := (g.dispatch kind a).2
    h.cores = g.cores ∧ h.tag a.tag = some y ∧ kind ∈ y.sent ∧ (h.entry kind ≠ 0 → kind ∈ y.running) ∧
      (g.tag a.tag = none → kind = 0 → y.ver = g.cur) ∧ (kind = 0 → h.warm = g.warm - 1) := by
  intro h y
  obtain ⟨warm, hwarm, heq⟩ := dispatch_eq g kind a
  have hsame := sameTags_taken g kind ((g.queue kind).erase a)
  obtain ⟨⟨-, -, hdesc, -⟩, hver⟩ := bindTag_frame (g.setQueue kind ((g.queue kind).erase a)).refillW kind a.tag
  have hdesc : h.desc = g.desc := by
    simp only [h, heq]
    exact hdesc.trans hsame.desc
  have hy : y = (g.bound kind a).2.dispatched kind (g.entry kind) := congrArg Prod.snd heq
  refine ⟨cores_of_desc hdesc, ?_, ?_, fun hentry => ?_, fun hnone h0 => ?_, fun h0 => ?_⟩
  · simp only [h, y, heq, Stage.tag, smFind_smPut, if_true]
  · rw [hy]
    simp only [TagState.dispatched]
    split
    · rename_i hsent
      exact List.contains_iff_mem.1 hsent
    · exact List.mem_cons_self
  · rw [entry_of_desc hdesc] at hentry
    rw [hy]
    simp only [TagState.dispatched, hentry, if_false]
    exact List.mem_cons_self
  · rw [hy]
    exact (hver ((congrArg (smFind · a.tag) hsame.tags).trans hnone) h0).trans hsame.cur
  · simp only [h, heq]
    exact hwarm.trans (if_pos h0)

theorem stage_started {s : State} {d sel kind tag : Nat} {h : Stage} {y : TagState} (hfree : h.cores.all s.coreFree = true) :
    let t := ((s.setStage d sel h).newTask (h.task d sel kind tag y)).1.startGang s.nextTask h.cores (h.start kind tag y)
    smFind (t.dieAt d).stages sel = some h ∧ t.nextTask = (if s.nextTask = 0xFFFFFFFF then 1 else s.nextTask + 1) ∧
    smFind t.tasks s.nextTask = some (h.task d sel kind tag y) ∧
    (h.cores.Nodup → ∀ i c, h.cores[i]? = some c → ∃ n, s.freeSlot c = some n ∧ Started t n s.nextTask h.cores.length i (h.start kind tag y)) ∧
    t.mem = s.mem := by
  intro t
  have hframe : StrandsDiffer ((s.setStage d sel h).newTask (h.task d sel kind tag y)).1 t := startGang_frame ..
  refine ⟨?_, hframe.nextTask, ?_, fun hcores i c hi => ?_, hframe.mem⟩
  · rw [State.dieAt, hframe.dies]
    exact stageAt_setStage ..
  · rw [hframe.tasks]
    exact (smFind_smPut ..).trans (if_pos rfl)
  · exact started_startGang (s := ((s.setStage d sel h).newTask (h.task d sel kind tag y)).1) (a := h.start kind tag y) hcores hfree hi

/-- Settles O47: the launch unit's pick is of the highest class of the heads that could start, its gang starts whole, and a
stage's dispatch leaves the tag in flight. -/
theorem dispatches : Obligations.Dispatches := by
  unfold Obligations.Dispatches
  constructor
  · intro s u q a hpick hgang hfits
    exact ⟨⟨_, exec_launchDispatch_picked hpick, launched hgang hfits⟩, fun hread k b hk hb hb' => launchPick_highest hpick hread hk hb hb'⟩
  · intro s g0 d sel hg hopen g u
    refine ⟨exec_stageDispatch_none hg hopen, ?_⟩
    intro kind a hpick h y
    obtain ⟨hcores, htag⟩ := dispatch_frame g kind a
    refine ⟨htag, exec_stageDispatch_finishes hg hopen hpick, fun hentry htab hvia =>
      ⟨_, exec_stageDispatch_starts hg hopen hpick hentry htab hvia, ?_⟩⟩
    have hfree : h.cores.all s.coreFree = true := by
      rw [hcores, cores_of_desc (sameTags_purge g0).desc]
      exact (Bool.and_eq_true_iff.1 hopen).2
    exact stage_started hfree

end Sys2Proof.Machine

/-!
What the machine's own writes leave unchanged: a message to the host (R443), a write at its home (R78, R461, R474), a word that enters
a result FIFO (R229), and an access that the device makes on its own account (R533).
-/
namespace Sys2Proof.Machine

/-! ### Messages to the host (R443) -/

/-- `t` is `s` but for the host port's functions and the messages sent. -/
def MessagesDiffer (s t : State) : Prop := t = { s with fns := t.fns, out := t.out }

theorem MessagesDiffer.trans {s t u : State} (h : MessagesDiffer s t) (k : MessagesDiffer t u) : MessagesDiffer s u :=
  Eq.trans k (congrArg (fun w : State => { w with fns := u.fns, out := u.out }) h)

theorem vector_frame (s : State) (fn vec : Nat) : MessagesDiffer s (s.vector fn vec) := by
  unfold State.vector
  split
  · rfl
  · split
    · rfl
    · rfl

theorem foldl_vector_frame (s : State) (l : List (Nat × HostFn)) (vec : Nat) :
    MessagesDiffer s (l.foldl (fun s p => s.vector p.1 vec) s) :=
  List.foldlRecOn (motive := MessagesDiffer s) l _ rfl fun t ht p _ => ht.trans (vector_frame t p.1 vec)

theorem hirqSignal_frame (s : State) (tenant vec : Nat) : MessagesDiffer s (s.hirqSignal tenant vec) := foldl_vector_frame ..

theorem rasVector_frame (s : State) (tenant : Nat) : MessagesDiffer s (s.rasVector tenant) :=
  (vector_frame s 0 11).trans (foldl_vector_frame ..)

theorem hostErr_frame (s : State) (fn : Nat) (f : HostFn → HostFn) : MessagesDiffer s (s.hostErr fn f) := by
  unfold State.hostErr
  dsimp only
  split
  · exact MessagesDiffer.trans (t := s.modFn fn f) rfl (vector_frame ..)
  · rfl

theorem hostPost_frame (s : State) (tenant pa : Nat) (bs mask : List Byte) : MessagesDiffer s (s.hostPost tenant pa bs mask) := by
  unfold State.hostPost
  dsimp only
  split
  · rfl
  · exact hostErr_frame ..

/-! ### Writes at their homes (R78, R461, R466, R474) -/

/-- `t` is `s` but for memory with its check bits and poison, the dies' records, and messages to the host. -/
def MemoryDiffers (s t : State) : Prop :=
  t = { s with mem := t.mem, memSyn := t.memSyn, poison := t.poison, parity := t.parity, l2inj := t.l2inj, dies := t.dies, fresh := t.fresh
               fns := t.fns, out := t.out }

theorem MemoryDiffers.trans {s t u : State} (h : MemoryDiffers s t) (k : MemoryDiffers t u) : MemoryDiffers s u :=
  Eq.trans k (congrArg (fun w : State => { w with
    mem := u.mem, memSyn := u.memSyn, poison := u.poison, parity := u.parity, l2inj := u.l2inj, dies := u.dies, fresh := u.fresh
    fns := u.fns, out := u.out }) h)

theorem MessagesDiffer.memory {s t : State} (h : MessagesDiffer s t) : MemoryDiffers s t := by
  unfold MessagesDiffer at h
  generalize t.fns = f, t.out = o at h
  subst h
  rfl

theorem MemoryDiffers.strands {s t : State} (h : MemoryDiffers s t) : t.strands = s.strands := (congrArg State.strands h).trans rfl
theorem MemoryDiffers.tasks {s t : State} (h : MemoryDiffers s t) : t.tasks = s.tasks := (congrArg State.tasks h).trans rfl
theorem MemoryDiffers.lqs {s t : State} (h : MemoryDiffers s t) : t.lqs = s.lqs := (congrArg State.lqs h).trans rfl
theorem MemoryDiffers.held {s t : State} (h : MemoryDiffers s t) : t.held = s.held := (congrArg State.held h).trans rfl
theorem MemoryDiffers.stores {s t : State} (h : MemoryDiffers s t) : t.stores = s.stores := (congrArg State.stores h).trans rfl

theorem rasWrite_frame (s : State) (d : Nat) (r : RasRec) : MemoryDiffers s (s.rasWrite d r) := by
  unfold State.rasWrite
  extract_lets u x w3 a v w
  split
  · rfl
  · split
    · exact MemoryDiffers.trans (t := w) rfl (rasVector_frame ..).memory
    · rfl

theorem fixBefore_frame (s : State) (a n : Nat) : MemoryDiffers s (s.fixBefore a n) := by
  refine List.foldlRecOn (motive := MemoryDiffers s) _ _ rfl fun (t : State) ht p _ => ?_
  dsimp only
  split
  · exact ht
  · split
    · exact ht.trans rfl
    · exact ht

theorem performMem_frame (s : State) (tenant task a : Nat) (bs : List Byte) (core strand : Option Nat) :
    MemoryDiffers s (s.performMem tenant task a bs core strand) := by
  unfold State.performMem
  dsimp only
  split
  · split
    · rfl
    · exact rasWrite_frame ..
  · exact (fixBefore_frame ..).trans rfl

theorem performStore_frame (s : State) (x : Store) : MemoryDiffers s (s.performStore x) := by
  unfold State.performStore
  split
  · exact (hostPost_frame ..).memory
  · exact performMem_frame ..

/-- `t` is `s` after some of the stores with `p` have been performed; no store with `p` is left but of a line that the host holds. -/
structure Performed (s : State) (p : Store → Bool) (t : State) : Prop where
  strands : t.strands = s.strands
  tasks : t.tasks = s.tasks
  held : t.held = s.held
  stores : ∀ x ∈ t.stores, x ∈ s.stores ∧ (p x = true → s.held.contains (x.pa / 128) = true)

theorem performWhere_performed (s : State) (p : Store → Bool) : Performed s p (s.performWhere p) := by
  unfold State.performWhere
  split
  · rename_i h
    exact ⟨rfl, rfl, rfl, by simp [List.isEmpty_iff.1 h]⟩
  · refine List.foldlRecOn (motive := Performed s p) s.stores _ ⟨rfl, rfl, rfl, by simp⟩ fun (t : State) ⟨h1, h2, h3, h4⟩ x hx => ?_
    split
    · have h := performStore_frame t x
      exact ⟨h.strands.trans h1, h.tasks.trans h2, h.held.trans h3, fun y hy => h4 y (h.stores ▸ hy)⟩
    · rename_i hkeep
      refine ⟨h1, h2, h3, fun y hy => ?_⟩
      rcases List.mem_append.1 hy with hy | hy
      · exact h4 y hy
      · obtain rfl := List.mem_singleton.1 hy
        refine ⟨hx, fun hp => ?_⟩
        rw [hp, h3, Bool.true_and, Bool.not_eq_true', Bool.not_eq_false] at hkeep
        exact hkeep

theorem completeWhere_frame (s : State) (p : Parity → Bool) : MemoryDiffers s (s.completeWhere p) := by
  unfold State.completeWhere
  split
  · rfl
  · rfl

theorem completeWhere_of_parity_nil {s : State} (h : s.parity = []) (p : Parity → Bool) : s.completeWhere p = s := by
  simp [State.completeWhere, h]

/-! ### A word enters a result FIFO (R229) -/

/-- `t` is `s` but for strands that WFI no longer holds. -/
def Woken (s t : State) : Prop := t = { s with strands := t.strands } ∧ ∀ n, t.strandAt n = { s.strandAt n with wfi := (t.strandAt n).wfi }

theorem Woken.trans {s t u : State} (h : Woken s t) (k : Woken t u) : Woken s u :=
  ⟨Eq.trans k.1 (congrArg (fun w : State => { w with strands := u.strands }) h.1),
    fun n => (k.2 n).trans (congrArg (fun x : Strand => { x with wfi := (u.strandAt n).wfi }) (h.2 n))⟩

theorem Woken.cores {s t : State} (h : Woken s t) : t.cores = s.cores := (congrArg State.cores h.1).trans rfl

theorem pushFifo_woken (s : State) (core port : Nat) (v : Word) (cover : List (Nat × Nat)) :
    Woken (s.setFifo core port (s.fifo core port ++ [{ v := v, cover := cover }])) (s.pushFifo core port v cover) := by
  unfold State.pushFifo
  extract_lets u
  refine List.foldlRecOn (motive := Woken u) _ _ ⟨rfl, fun _ => rfl⟩ fun (t : State) ht k _ => ?_
  split
  · refine ht.trans ⟨rfl, fun n => ?_⟩
    simp only [State.modStrand, strandAt_setStrand]
    split
    · subst_vars
      rfl
    · rfl
  · exact ht

theorem pushFifo_frame (s : State) (core port : Nat) (v : Word) (cover : List (Nat × Nat)) : s.pushFifo core port v cover =
    { s with cores := (s.pushFifo core port v cover).cores, strands := (s.pushFifo core port v cover).strands } := by
  have h := pushFifo_woken s core port v cover
  rw [h.cores]
  exact h.1.trans rfl

theorem fifo_pushFifo (s : State) (core port : Nat) (v : Word) (cover : List (Nat × Nat)) :
    (s.pushFifo core port v cover).fifo core port = s.fifo core port ++ [{ v := v, cover := cover }] := by
  rw [State.fifo, State.coreAt, (pushFifo_woken s core port v cover).cores, ← State.coreAt]
  simp [State.setFifo, State.modCore]

/-! ### Accesses that the device makes on its own account (R97, R533) -/

/-- `t` is `s` after a translation that a ring of launch queue `q` may pin (R102). -/
def DevPlaced (q : Nat) (s t : State) : Prop :=
  t = { s with tlb := t.tlb, fresh := t.fresh, lqs := t.lqs } ∧ t.lqAt q = { s.lqAt q with pins := (t.lqAt q).pins } ∧
  ∀ k, k ≠ q → t.lqAt k = s.lqAt k

theorem Translated.devPlaced {s t : State} (h : Translated s t) (q : Nat) : DevPlaced q s t := by
  unfold Translated at h
  generalize t.tlb = a, t.fresh = b at h
  subst h
  exact ⟨rfl, rfl, fun _ _ => rfl⟩

theorem Translated.devPlaced_pin {s t : State} (h : Translated s t) (q page : Nat) (p : Nat × Nat) :
    DevPlaced q s (t.modLq q fun l => { l with pins := smPut l.pins page p }) := by
  obtain ⟨-, hq, hother⟩ := h.devPlaced q
  refine ⟨?_, ?_, fun k hk => ?_⟩
  · unfold Translated at h
    generalize t.tlb = a, t.fresh = b at h
    subst h
    rfl
  · simp only [lqAt_modLq, if_true]
    rw [hq]
  · rw [lqAt_modLq, if_neg hk, hother k hk]

theorem devPlace_placed (s : State) (q core : Nat) (need : Need) (kind va : Nat) : DevPlaced q s (s.devPlace (some q) core need kind va).1 := by
  unfold State.devPlace
  dsimp -zeta only
  split
  · exact (place_translated ..).devPlaced q
  · extract_lets r
    have hr : DevPlaced q s r.1 := by
      have htr := translate_translated s core va
      simp only [r]
      split
      · exact (Translated.refl s).devPlaced q
      · split
        · rename_i heq
          rw [heq] at htr
          exact htr.devPlaced_pin q _ _
        · rename_i heq
          rw [heq] at htr
          exact htr.devPlaced q
    generalize r = w at hr
    obtain ⟨u, p⟩ := w
    cases p with
    | error t => exact hr
    | ok p =>
      dsimp only
      split
      · exact hr
      · split
        · exact hr
        · exact hr

/-- `t` is `s` but for bytes of memory and parity updates. -/
def Written (s t : State) : Prop := t = { s with mem := t.mem, parity := t.parity }

theorem Written.trans {s t u : State} (h : Written s t) (k : Written t u) : Written s u :=
  Eq.trans k (congrArg (fun w : State => { w with mem := u.mem, parity := u.parity }) h)

theorem Written.plainMem {s t : State} (h : Written s t) (hm : s.plainMem) : t.plainMem := by
  unfold Written at h
  generalize t.mem = a, t.parity = b at h
  subst h
  exact hm

theorem performMem_written {s : State} (h : s.plainMem) (tenant task a : Nat) (bs : List Byte) :
    Written s (s.performMem tenant task a bs) ∧ (s.performMem tenant task a bs).mem = (s.putMem a bs).mem := by
  obtain ⟨-, -, -, hsyn, hpoison, hlost, hinj⟩ := h
  rw [performMem_of_sound hsyn hpoison hlost]
  refine ⟨?_, rfl⟩
  have h1 : synAfter s.memSyn a bs.length = s.memSyn := by rw [hsyn]; rfl
  have h2 : l2After s.l2inj a bs.length = s.l2inj := by rw [hinj]; rfl
  rw [h1, h2]
  rfl

theorem memNat_put {s t : State} {pa n v : Nat} (h : t.mem = (s.putMem pa (leBytes n v)).mem) : t.memNat pa n = v % 256 ^ n := by
  rw [State.memNat, memBytes_of_mem h]
  exact memNat_putMemNat s pa n v

theorem memByte_put_other {s t : State} {pa a : Nat} {bs : List Byte} (h : t.mem = (s.putMem pa bs).mem) (ha : a < pa ∨ pa + bs.length ≤ a) :
    t.memByte a = s.memByte a :=
  (memByte_of_mem h a).trans (memByte_putMem_other ha)

/-- A write of the device's own at a home of a machine without stores on their way is performed at once. -/
theorem devPut_put {s u : State} {key core va pa : Nat} {ring : Option Nat} (hkey : smFind s.devAcc key = none)
    (hplace : s.devPlace ring core .wr 1 va = (u, .ok (.mem pa))) (hm : u.plainMem) (task : Nat) (bs : List Byte) :
    ∃ t, s.devPut key task ring core va bs = (t, true) ∧ Written u t ∧ t.mem = (u.putMem pa bs).mem := by
  obtain ⟨hstores, -, hheld, -⟩ := id hm
  refine ⟨_, ?_, performMem_written hm (u.tenantOf core) 0 pa bs⟩
  simp only [State.devPut, hkey, hplace, hheld, List.contains_nil, Bool.false_eq_true, if_false, performWhere_of_stores_nil hstores]

end Sys2Proof.Machine

/-!
A strand leaves its slot, and a task is cancelled (R65, R205): the other strands, the tasks and the launch queues stand.
-/
namespace Sys2Proof.Machine

/-- Strand `n` is the only strand that differs; tasks and launch queues stand. -/
structure OthersKept (n : Nat) (s t : State) : Prop where
  tasks : t.tasks = s.tasks
  lqs : t.lqs = s.lqs
  strands : ∀ m, m ≠ n → t.strandAt m = s.strandAt m

theorem OthersKept.refl (n : Nat) (s : State) : OthersKept n s s := ⟨rfl, rfl, fun _ _ => rfl⟩

theorem OthersKept.trans {n : Nat} {s t u : State} (h : OthersKept n s t) (k : OthersKept n t u) : OthersKept n s u :=
  ⟨k.tasks.trans h.tasks, k.lqs.trans h.lqs, fun m hm => (k.strands m hm).trans (h.strands m hm)⟩

theorem OthersKept.ite {n : Nat} {s : State} {c : Prop} [Decidable c] {a b : State × Nat} (ha : OthersKept n s a.1) (hb : OthersKept n s b.1) :
    OthersKept n s (if c then a else b).1 := by
  split
  · exact ha
  · exact hb

theorem strandAt_of_strands {s t : State} (h : t.strands = s.strands) (m : Nat) : t.strandAt m = s.strandAt m := by
  rw [State.strandAt, h, State.strandAt]

theorem MemoryDiffers.othersKept {s t : State} (h : MemoryDiffers s t) (n : Nat) : OthersKept n s t :=
  ⟨h.tasks, h.lqs, fun m _ => strandAt_of_strands h.strands m⟩

theorem Translated.othersKept {s t : State} (h : Translated s t) (n : Nat) : OthersKept n s t :=
  ⟨(congrArg State.tasks h).trans rfl, (congrArg State.lqs h).trans rfl, fun m _ => strandAt_of_strands h.strands m⟩

theorem setStrand_othersKept (s : State) (n : Nat) (x : Strand) : OthersKept n s (s.setStrand n x) :=
  ⟨rfl, rfl, fun _ hm => (strandAt_setStrand ..).trans (if_neg hm)⟩

theorem sendFlits_othersKept (s : State) (n die : Nat) (owner : ReqOwner) (f : Flit) (va : Word) (len : Nat) (fs : List Flit) :
    OthersKept n s (s.sendFlits die owner f va len fs).1 := ⟨rfl, rfl, fun _ _ => rfl⟩

theorem postFor_othersKept (s : State) (n : Nat) (q : Posted) : OthersKept n s (s.postFor n q) := by
  unfold State.postFor
  extract_lets x node lseq prev u mask
  have hu : OthersKept n s u := by
    simp only [u]
    split
    · exact OthersKept.refl n s
    · exact setStrand_othersKept ..
  suffices h : ∀ r : State × Nat, OthersKept n u r.1 → OthersKept n s (match r with
      | (s, id) =>
        let s := { s with posted := s.posted ++ [{ q with id, strand := n, lseq, task := x.task, mask }] }
        match q.window with
        | some w => s.modCore q.core fun c => { c with outst := smSet 0 c.outst w (smGet 0 c.outst w + 1) }
        | none => s) by
    exact h _ (OthersKept.ite ⟨rfl, rfl, fun _ _ => rfl⟩ (sendFlits_othersKept ..))
  rintro ⟨w, id⟩ hw
  dsimp only
  split
  · exact hu.trans (hw.trans ⟨rfl, rfl, fun _ _ => rfl⟩)
  · exact hu.trans (hw.trans ⟨rfl, rfl, fun _ _ => rfl⟩)

theorem snoopLine_othersKept (s : State) (n line : Nat) : OthersKept n s (s.snoopLine line) := by
  unfold State.snoopLine
  split
  · exact OthersKept.refl n s
  · exact ⟨rfl, rfl, fun _ _ => rfl⟩

/-- A run of dirty bytes that goes back as a store on its way. -/
theorem pushStore_othersKept (s : State) (n line : Nat) (x : State → Store) :
    let u := if s.held.contains line then s.snoopLine line else s
    OthersKept n s { u with nextId := u.nextId + 1, stores := u.stores ++ [x u] } := by
  intro u
  have hu : OthersKept n s u := by
    simp only [u]
    split
    · exact snoopLine_othersKept ..
    · exact OthersKept.refl n s
  exact hu.trans ⟨rfl, rfl, fun _ _ => rfl⟩

theorem writeRun_othersKept (s : State) (n : Nat) (sup skip : Bool) (a : Attachment) (run : Nat × Nat) :
    OthersKept n s (s.writeRun n sup skip a run).1 := by
  unfold State.writeRun
  extract_lets core va bs
  have hplace := (globalPlace_translated s core sup .wr 1 va).othersKept n
  generalize s.globalPlace core sup .wr 1 va = r at hplace
  obtain ⟨u, p⟩ := r
  cases p with
  | error t => exact hplace
  | ok p =>
    have hstore (pa : Nat) := pushStore_othersKept u n (pa / 128) fun w => { core, strand := n, va, pa, bytes := bs, id := w.nextId }
    cases p with
    | mem pa =>
      dsimp only
      split
      · exact hplace
      · exact hplace.trans (hstore pa)
    | host pa =>
      dsimp only
      split
      · exact hplace
      · exact hplace.trans (hstore pa)
    | remote pa =>
      dsimp only
      split
      · exact hplace
      · have hpost := postFor_othersKept u n
          { id := 0, core, strand := n, window := none, va, pa, seq := (u.strandAt n).seq, rid := (u.strandAt n).curRid, bytes := bs }
        exact OthersKept.trans (t := u) hplace hpost
    | _ => exact hplace

theorem writeBack_othersKept (s : State) (n : Nat) (sup skip : Bool) (a : Attachment) : OthersKept n s (s.writeBack n sup skip a).1 := by
  unfold State.writeBack
  extract_lets runs
  refine List.foldlRecOn (motive := fun p : State × Attachment × Option FillStop => OthersKept n s p.1) runs _ (OthersKept.refl n s) fun p hp run _ => ?_
  obtain ⟨t, b, stop⟩ := p
  dsimp only
  split
  · exact hp
  · have hr := writeRun_othersKept t n sup skip b run
    split
    · rename_i heq
      rw [heq] at hr
      exact hp.trans hr
    · rename_i heq
      rw [heq] at hr
      exact hp.trans hr

theorem objs_othersKept (s : State) (n : Nat) (objs : SMap Nat) : OthersKept n s { s with objs } := ⟨rfl, rfl, fun _ _ => rfl⟩

theorem writeObj_othersKept (s : State) (n task pa off : Nat) (bs : List Byte) : OthersKept n s (s.writeObj task pa off bs) := by
  have hput := (performMem_frame s 0 task (pa + off) bs none none).othersKept n
  unfold State.writeObj
  extract_lets sound u
  split
  · exact OthersKept.trans (t := u) hput (objs_othersKept ..)
  · exact hput

theorem unsure_othersKept (s : State) (n pa : Nat) : OthersKept n s (s.unsure pa) := by
  unfold State.unsure
  split
  · exact OthersKept.refl n s
  · split
    · exact ⟨rfl, rfl, fun _ _ => rfl⟩
    · exact ⟨rfl, rfl, fun _ _ => rfl⟩

theorem releaseSlot_othersKept (s : State) (n : Nat) (sl : SyncSlot) : OthersKept n s (s.releaseSlot n sl) := by
  unfold State.releaseSlot
  extract_lets core sup u
  have hu : OthersKept n s u := by
    simp only [u]
    split
    · exact writeBack_othersKept ..
    · exact OthersKept.refl n s
  split
  · split
    · split
      · exact hu
      · exact hu.trans ((unsure_othersKept ..).trans (writeObj_othersKept ..))
    · exact hu
  · exact hu

/-- The slot is EMPTY (R52). -/
theorem leaveSlot_othersKept (s : State) (n : Nat) : OthersKept n s (s.leaveSlot n) ∧ ((s.leaveSlot n).strandAt n).live = false := by
  unfold State.leaveSlot
  extract_lets u
  have hu : OthersKept n s u :=
    List.foldlRecOn (motive := OthersKept n s) _ _ (OthersKept.refl n s) fun t ht p _ => ht.trans (releaseSlot_othersKept t n p.2)
  refine ⟨hu.trans ((setStrand_othersKept u n _).trans ⟨rfl, rfl, fun _ _ => rfl⟩), ?_⟩
  exact congrArg Strand.live ((strandAt_setStrand u n _ n).trans (if_pos rfl))

/-! ### Cancelling (R65) -/

/-- The strand has gone, or goes at its next region boundary. -/
def Strand.cancelled (x : Strand) : Prop := x.cancelling = true ∨ x.live = false

theorem cancelStrand_othersKept (s : State) (n : Nat) : OthersKept n s (s.cancelStrand n) ∧ ((s.cancelStrand n).strandAt n).cancelled := by
  unfold State.cancelStrand
  split
  · exact ⟨(leaveSlot_othersKept s n).1, .inr (leaveSlot_othersKept s n).2⟩
  · exact ⟨setStrand_othersKept .., .inl (congrArg Strand.cancelling ((strandAt_setStrand ..).trans (if_pos rfl)))⟩

/-- A fold over a list that holds `a` reaches what the step at `a` brings about, if the other steps keep it. -/
theorem foldl_reaches {α β : Type} {P Q : β → Prop} {f : β → α → β} {a : α} {l : List α} {b : β} (ha : a ∈ l) (hb : P b)
    (hstep : ∀ b x, P b → P (f b x)) (hreach : ∀ b, P b → Q (f b a)) (hkeep : ∀ b x, Q b → Q (f b x)) : Q (l.foldl f b) := by
  induction l generalizing b with
  | nil => cases ha
  | cons x r ih =>
    rcases List.mem_cons.1 ha with rfl | ha
    · exact List.foldlRecOn r f (hreach b hb) fun b hb x _ => hkeep b x hb
    · exact ih ha (hstep b x hb)

/-- Strand `m` is cancelled, or still runs for `task`. -/
def RunsOrCancelled (m task : Nat) (s : State) : Prop :=
  (s.strandAt m).cancelled ∨ ((s.strandAt m).live = true ∧ (s.strandAt m).task = task)

theorem cancelStrand_cancelled {s : State} {m : Nat} (n : Nat) (h : (s.strandAt m).cancelled) : ((s.cancelStrand n).strandAt m).cancelled := by
  by_cases hm : m = n
  · exact hm ▸ (cancelStrand_othersKept s n).2
  · exact (cancelStrand_othersKept s n).1.strands m hm ▸ h

theorem cancelStrand_runsOrCancelled {s : State} {m task : Nat} (n : Nat) (h : RunsOrCancelled m task s) : RunsOrCancelled m task (s.cancelStrand n) := by
  by_cases hm : m = n
  · exact .inl (hm ▸ (cancelStrand_othersKept s n).2)
  · unfold RunsOrCancelled
    rw [(cancelStrand_othersKept s n).1.strands m hm]
    exact h

/-- A task whose cancelling has begun (R65): a fault that came first keeps its status. -/
def Task.cancelled (k : Task) : Task := { k with status := if k.status = 0 then 2 else k.status }

theorem cancelled_cancelled (k : Task) : k.cancelled.cancelled = k.cancelled := by
  unfold Task.cancelled
  split
  · rfl
  · rfl

theorem smFind_modTask (s : State) (id i : Nat) (f : Task → Task) :
    smFind (s.modTask id f).tasks i = if i = id then (smFind s.tasks id).map f else smFind s.tasks i := by
  unfold State.modTask
  split
  · rename_i t ht
    rw [smFind_smPut, ht]
    rfl
  · rename_i ht
    rw [ht]
    split
    · subst_vars
      exact ht
    · rfl

section
variable (s : State) (id : Nat)

/-- What cancels the strands of a task leaves the tasks and the launch queues. -/
theorem cancelTask_kept : (s.cancelTask id).lqs = s.lqs ∧
    ∀ i, smFind (s.cancelTask id).tasks i = if i = id then (smFind s.tasks id).map Task.cancelled else smFind s.tasks i := by
  unfold State.cancelTask
  extract_lets u
  have hf : (fun t : Task => if t.status = 0 then { t with status := 2 } else t) = Task.cancelled := by
    funext k
    unfold Task.cancelled
    split
    · rfl
    · rfl
  have hu : u.lqs = s.lqs := by
    simp only [u]
    rw [modTask_frame]
  obtain ⟨hlqs, htasks⟩ := List.foldlRecOn (motive := fun t : State => t.lqs = u.lqs ∧ t.tasks = u.tasks) (u.strandsOf id) State.cancelStrand ⟨rfl, rfl⟩
    fun t ht n _ => ⟨(cancelStrand_othersKept t n).1.lqs.trans ht.1, (cancelStrand_othersKept t n).1.tasks.trans ht.2⟩
  refine ⟨hlqs.trans hu, fun i => ?_⟩
  rw [htasks, ← hf]
  exact smFind_modTask s id i _

theorem modTask_strandAt (f : Task → Task) (m : Nat) : (s.modTask id f).strandAt m = s.strandAt m := by
  rw [modTask_frame]
  rfl

theorem mem_strandsOf {m : Nat} (hlive : (s.strandAt m).live = true) (htask : (s.strandAt m).task = id) : m ∈ s.strandsOf id := by
  have hat : s.strandAt m = (smFind s.strands m).getD {} := smGet_eq_getD ..
  cases hx : smFind s.strands m with
  | none =>
    rw [hat, hx] at hlive
    cases hlive
  | some x =>
    rw [hx, Option.getD_some] at hat
    refine List.mem_map.2 ⟨(m, x), List.mem_filter.2 ⟨mem_of_smFind hx, ?_⟩, rfl⟩
    rw [← hat, hlive, htask]
    simp

variable {s id}

theorem cancelTask_runsOrCancelled {m task : Nat} (h : RunsOrCancelled m task s) : RunsOrCancelled m task (s.cancelTask id) := by
  refine List.foldlRecOn (motive := RunsOrCancelled m task) _ _ ?_ fun t ht n _ => cancelStrand_runsOrCancelled n ht
  unfold RunsOrCancelled
  rw [modTask_strandAt]
  exact h

theorem cancelTask_cancelled {m : Nat} (h : (s.strandAt m).cancelled) : ((s.cancelTask id).strandAt m).cancelled := by
  refine List.foldlRecOn (motive := fun t : State => (t.strandAt m).cancelled) _ _ ?_ fun t ht n _ => cancelStrand_cancelled n ht
  rw [modTask_strandAt]
  exact h

/-- Every strand of a cancelled task has gone, or goes at its next region boundary. -/
theorem cancelTask_strands {m : Nat} (h : RunsOrCancelled m id s) : ((s.cancelTask id).strandAt m).cancelled := by
  rcases h with h | ⟨hlive, htask⟩
  · exact cancelTask_cancelled h
  · unfold State.cancelTask
    extract_lets u
    have hm : u.strandAt m = s.strandAt m := modTask_strandAt ..
    refine foldl_reaches (P := fun _ => True) (Q := fun t : State => (t.strandAt m).cancelled) (a := m) ?_ trivial (fun _ _ _ => trivial) ?_ ?_
    · exact mem_strandsOf u id (hm ▸ hlive) (hm ▸ htask)
    · exact fun t _ => (cancelStrand_othersKept t m).2
    · exact fun t n ht => cancelStrand_cancelled n ht

end

end Sys2Proof.Machine

/-!
TasksRetire (O48): the retirement of tasks, and the writes of a launch queue that move it.
-/
namespace Sys2Proof.Machine

/-! ### The draining queue (R53) -/

/-- A launch queue that is disabled again (R53). -/
def LaunchQueue.off (l : LaunchQueue) : LaunchQueue := { l with state := 0, cancel := false, destroy := false, read := none, pins := [] }

theorem drainQueue_frame (s : State) (q : Nat) : s.drainQueue q = { s with lqs := (s.drainQueue q).lqs, devAcc := (s.drainQueue q).devAcc } := by
  unfold State.drainQueue
  dsimp only
  split
  · rfl
  · rfl

theorem liveOf_congr {s t : State} (h : t.tasks = s.tasks) (q : Nat) : t.liveOf q = s.liveOf q := by rw [State.liveOf, h, State.liveOf]

theorem tasks_drainQueue (s : State) (q : Nat) : (s.drainQueue q).tasks = s.tasks := (congrArg State.tasks (drainQueue_frame s q)).trans rfl
theorem strands_drainQueue (s : State) (q : Nat) : (s.drainQueue q).strands = s.strands := (congrArg State.strands (drainQueue_frame s q)).trans rfl

theorem liveOf_drainQueue (s : State) (q k : Nat) : (s.drainQueue q).liveOf k = s.liveOf k :=
  liveOf_congr (tasks_drainQueue s q) k

theorem lqAt_drainQueue (s : State) (q : Nat) :
    (s.drainQueue q).lqAt q = if (s.lqAt q).state = 2 ∧ s.liveOf q = 0 then (s.lqAt q).off else s.lqAt q := by
  unfold State.drainQueue
  dsimp only
  split
  · rename_i h
    rw [Bool.and_eq_true, decide_eq_true_iff, beq_iff_eq] at h
    rw [if_pos h]
    exact (lqAt_modLq s q q LaunchQueue.off).trans (if_pos rfl)
  · rename_i h
    rw [Bool.and_eq_true, decide_eq_true_iff, beq_iff_eq] at h
    rw [if_neg h]

/-- A queue with tasks left keeps what it has read. -/
theorem devAcc_drainQueue {s : State} {q : Nat} (h : s.liveOf q ≠ 0) : (s.drainQueue q).devAcc = s.devAcc := by
  unfold State.drainQueue
  simp [h]

/-! ### Retirement (R53, R68, R69) -/

theorem exec_taskRetire_of {s : State} {k : Task} (hk : smFind s.tasks s.ev.n = some k) (hcan : s.canRetire s.ev.n k = true) :
    exec .taskRetire s =
      let s1 := (s.performWhere fun x => k.gang.contains x.core).completeWhere fun x => x.core.any k.gang.contains
      .next (match k.origin with
        | .queue q => s1.retireQueue q s.ev.n k
        | .stage d sel => s1.retireStage d sel s.ev.n k
        | .system _ => { s1 with tasks := smDel s1.tasks s.ev.n }) := by
  rw [exec_taskRetire, execTaskRetire, hk]
  simp only [hcan, Bool.not_true, Bool.false_eq_true, if_false]
  rfl

/-- A task of a machine without writes on their way retires as the machine stands. -/
theorem exec_taskRetire_quiet {s : State} {k : Task} (hk : smFind s.tasks s.ev.n = some k) (hcan : s.canRetire s.ev.n k = true)
    (hstores : s.stores = []) (hparity : s.parity = []) :
    exec .taskRetire s = .next (match k.origin with
      | .queue q => s.retireQueue q s.ev.n k
      | .stage d sel => s.retireStage d sel s.ev.n k
      | .system _ => { s with tasks := smDel s.tasks s.ev.n }) := by
  rw [exec_taskRetire_of hk hcan, performWhere_of_stores_nil hstores, completeWhere_of_parity_nil hparity]

theorem system_retires {s : State} {k : Task} {d : Nat} (hk : smFind s.tasks s.ev.n = some k) (hcan : s.canRetire s.ev.n k = true)
    (horigin : k.origin = .system d) : ∃ t, exec .taskRetire s = .next t ∧ t.tasks = smDel s.tasks s.ev.n ∧ t.strands = s.strands ∧
      ∀ x, x ∈ t.stores → x.core ∉ k.gang := by
  refine ⟨_, (exec_taskRetire_of hk hcan).trans (by rw [horigin]), ?_⟩
  have hperf := performWhere_performed s fun x => k.gang.contains x.core
  have hcomp := completeWhere_frame (s.performWhere fun x => k.gang.contains x.core) fun x => x.core.any k.gang.contains
  refine ⟨congrArg (smDel · s.ev.n) (hcomp.tasks.trans hperf.tasks), hcomp.strands.trans hperf.strands, fun x hx hgang => ?_⟩
  obtain ⟨hx, hheld⟩ := hperf.stores x (hcomp.stores ▸ hx)
  have hgang : k.gang.contains x.core = true := List.contains_iff_mem.2 hgang
  unfold State.canRetire at hcan
  simp only [Bool.and_eq_true, Bool.not_eq_true', List.any_eq_false] at hcan
  exact hcan.1.2 x hx ⟨hgang, hheld hgang⟩

/-- The number that a completion record holds (R68). -/
def Task.word (k : Task) (id : Nat) : Nat :=
  k.user.toNat + id * 2 ^ 64 + k.status * 2 ^ 96 + k.cause * 2 ^ 104 + k.gang.length * 2 ^ 112 + k.pc.toNat * 2 ^ 128 + k.info.toNat * 2 ^ 192

theorem record_eq (k : Task) (id : Nat) : k.record id = leBytes 32 (k.word id) := rfl

/-- The record of a stage task holds no USER. -/
theorem word_without_user (k : Task) (id : Nat) : ({ k with user := 0 } : Task).word id % 2 ^ 256 = k.word id % 2 ^ 256 - k.user.toNat := by
  have huser : k.user.toNat < 2 ^ 64 := k.user.isLt
  have hzero : (0 : Word).toNat = 0 := rfl
  simp only [Task.word, hzero]
  omega

/-- USER of a retired task of a queue goes to the queue's core, where the core is the queue's tenant's (R68). -/
def State.pushUser (s : State) (l : LaunchQueue) (user : Word) : State :=
  if l.ncore < Config.cores && s.tenantOf l.ncore == l.tenant then s.pushFifo l.ncore 0x14 user else s

theorem pushUser_frame (s : State) (l : LaunchQueue) (user : Word) :
    s.pushUser l user = { s with cores := (s.pushUser l user).cores, strands := (s.pushUser l user).strands } ∧
    (∀ n, (s.pushUser l user).strandAt n = { s.strandAt n with wfi := ((s.pushUser l user).strandAt n).wfi }) ∧
    ((s.pushUser l user).fifo l.ncore 0x14).map (·.v) =
      (s.fifo l.ncore 0x14).map (·.v) ++ if l.ncore < 384 ∧ s.tenantOf l.ncore = l.tenant then [user] else [] := by
  have hcond : (decide (l.ncore < Config.cores) && s.tenantOf l.ncore == l.tenant) = true ↔ l.ncore < 384 ∧ s.tenantOf l.ncore = l.tenant := by
    rw [Bool.and_eq_true, decide_eq_true_iff, beq_iff_eq]
    rfl
  unfold State.pushUser
  split
  · rename_i h
    refine ⟨pushFifo_frame .., (pushFifo_woken s l.ncore 0x14 user []).2, ?_⟩
    rw [fifo_pushFifo, if_pos (hcond.1 h), List.map_append]
    rfl
  · rename_i h
    refine ⟨rfl, fun _ => rfl, ?_⟩
    rw [if_neg (fun hc => h (hcond.2 hc)), List.append_nil]

/-- The rest of a launched task's retirement once its record is performed (R53, R68, R69). -/
def State.leaveQueue (v : State) (l : LaunchQueue) (q id : Nat) (user : Word) : State :=
  (({ v.pushUser l user with tasks := smDel (v.pushUser l user).tasks id } : State).hirqSignal l.tenant q).drainQueue q

theorem pow_256_32 : 256 ^ 32 = 2 ^ 256 := by norm_num

theorem retireQueue_of {s t : State} {q id core : Nat} {k : Task} (hcore : s.tenantCore (s.lqAt q).tenant = some core)
    (hput : s.devPut (cplKey q) id (some q) core ((s.lqAt q).cbase.toNat + 32 * (s.lqAt q).chead) (k.record id) = (t, true)) :
    s.retireQueue q id k =
      (t.modLq q ({ · with chead := ((s.lqAt q).chead + 1) % 2 ^ (s.lqAt q).size })).leaveQueue (s.lqAt q) q id k.user := by
  simp only [State.retireQueue, hcore, hput]
  rfl

theorem leaveQueue_frame (v : State) (l : LaunchQueue) (q id : Nat) (user : Word) :
    let z := v.leaveQueue l q id user
    z.tasks = smDel v.tasks id ∧ z.mem = v.mem ∧ (∀ n, z.strandAt n = { v.strandAt n with wfi := (z.strandAt n).wfi }) ∧
    z.lqAt q = (if (v.lqAt q).state = 2 ∧ z.liveOf q = 0 then (v.lqAt q).off else v.lqAt q) ∧
    (z.fifo l.ncore 0x14).map (·.v) = (v.fifo l.ncore 0x14).map (·.v) ++ if l.ncore < 384 ∧ v.tenantOf l.ncore = l.tenant then [user] else [] := by
  intro z
  obtain ⟨hw, hstrands, hfifo⟩ := pushUser_frame v l user
  let x : State := { v.pushUser l user with tasks := smDel (v.pushUser l user).tasks id }
  let y := x.hirqSignal l.tenant q
  have hy : MessagesDiffer x y := hirqSignal_frame ..
  have hz : z = { y with lqs := z.lqs, devAcc := z.devAcc } := drainQueue_frame y q
  have hsame {α : Type} (f : State → α) (hf : ∀ (u : State) m a b o, f { u with lqs := m, devAcc := a, fns := b, out := o } = f u) : f z = f x := by
    have h := congrArg f (hz.trans (congrArg (fun u : State => { u with lqs := z.lqs, devAcc := z.devAcc }) hy))
    exact h.trans (hf x _ _ _ _)
  have hlq : y.lqAt q = v.lqAt q := calc
    y.lqAt q = x.lqAt q := (congrArg (State.lqAt · q) hy).trans rfl
    _ = v.lqAt q := (congrArg (State.lqAt · q) hw).trans rfl
  have hlive : z.liveOf q = y.liveOf q := liveOf_drainQueue y q q
  refine ⟨?_, ?_, fun n => ?_, ?_, ?_⟩
  · exact (hsame State.tasks fun _ _ _ _ _ => rfl).trans (congrArg (smDel · id) ((congrArg State.tasks hw).trans rfl))
  · exact (hsame State.mem fun _ _ _ _ _ => rfl).trans ((congrArg State.mem hw).trans rfl)
  · have hn : z.strandAt n = (v.pushUser l user).strandAt n := hsame (State.strandAt · n) fun _ _ _ _ _ => rfl
    rw [hn]
    exact hstrands n
  · rw [hlive, ← hlq]
    exact lqAt_drainQueue y q
  · rw [← hfifo]
    exact congrArg (List.map (·.v)) (hsame (State.fifo · l.ncore 0x14) fun _ _ _ _ _ => rfl)

theorem queue_retires {s u : State} {k : Task} {q core pa : Nat} (hk : smFind s.tasks s.ev.n = some k) (hcan : s.canRetire s.ev.n k = true)
    (horigin : k.origin = .queue q) (hcore : s.tenantCore (s.lqAt q).tenant = some core) (hstores : s.stores = []) (hparity : s.parity = [])
    (hacc : smFind s.devAcc (cplKey q) = none)
    (hplace : s.devPlace (some q) core .wr 1 ((s.lqAt q).cbase.toNat + 32 * (s.lqAt q).chead) = (u, .ok (.mem pa))) (hm : u.plainMem) :
    let l := s.lqAt q
    ∃ t, exec .taskRetire s = .next t ∧ t.tasks = smDel s.tasks s.ev.n ∧ (∀ n, t.strandAt n = { s.strandAt n with wfi := (t.strandAt n).wfi }) ∧
      t.memNat pa 32 = k.word s.ev.n % 2 ^ 256 ∧ (∀ a, a < pa ∨ pa + 32 ≤ a → t.memByte a = s.memByte a) ∧
      t.lqAt q = (if l.state = 2 ∧ t.liveOf q = 0 then { (u.lqAt q).off with chead := (l.chead + 1) % 2 ^ l.size }
        else { u.lqAt q with chead := (l.chead + 1) % 2 ^ l.size }) ∧
      (t.fifo l.ncore 0x14).map (·.v) = (s.fifo l.ncore 0x14).map (·.v) ++ (if l.ncore < 384 ∧ s.tenantOf l.ncore = l.tenant then [k.user] else []) := by
  intro l
  obtain ⟨w, hput, hw, hwmem⟩ := devPut_put hacc hplace hm s.ev.n (k.record s.ev.n)
  rw [record_eq] at hwmem
  obtain ⟨hu, hpins, -⟩ : DevPlaced q s u := (congrArg (DevPlaced q s ·.1) hplace).mp (devPlace_placed ..)
  let v := w.modLq q ({ · with chead := (l.chead + 1) % 2 ^ l.size })
  have hv : v = { s with lqs := v.lqs, tlb := u.tlb, fresh := u.fresh, mem := v.mem, parity := v.parity } := calc
    v = { u with lqs := v.lqs, mem := v.mem, parity := v.parity } :=
      (congrArg (fun x : State => { x with lqs := v.lqs, mem := v.mem, parity := v.parity }) hw).trans rfl
    _ = _ := congrArg (fun x : State => { x with lqs := v.lqs, mem := v.mem, parity := v.parity }) hu
  have hvmem : v.mem = (u.putMem pa (leBytes 32 (k.word s.ev.n))).mem := hwmem
  have humem : u.mem = s.mem := (congrArg State.mem hu).trans rfl
  have hwlq : w.lqAt q = u.lqAt q := (congrArg (State.lqAt · q) hw).trans rfl
  have hvlq : v.lqAt q = { u.lqAt q with chead := (l.chead + 1) % 2 ^ l.size } := by
    rw [← hwlq]
    exact lqAt_modLq_self w q ({ · with chead := (l.chead + 1) % 2 ^ l.size })
  obtain ⟨htasks, hmem, hstrands, hlq, hfifo⟩ := leaveQueue_frame v l q s.ev.n k.user
  refine ⟨v.leaveQueue l q s.ev.n k.user, ?_, ?_, fun n => ?_, ?_, fun a ha => ?_, ?_, ?_⟩
  · rw [exec_taskRetire_quiet hk hcan hstores hparity, horigin]
    exact congrArg _ (retireQueue_of hcore hput)
  · exact htasks.trans (congrArg (smDel · s.ev.n) ((congrArg State.tasks hv).trans rfl))
  · have hn : v.strandAt n = s.strandAt n := (congrArg (State.strandAt · n) hv).trans rfl
    rw [← hn]
    exact hstrands n
  · rw [memNat_put (hmem.trans hvmem), pow_256_32]
  · refine (memByte_put_other (hmem.trans hvmem) ?_).trans (memByte_of_mem humem a)
    rw [leBytes_length]
    exact ha
  · have hstate : (u.lqAt q).state = l.state := by rw [hpins]
    rw [hlq, hvlq, ← hstate]
    rfl
  · have hf : v.fifo l.ncore 0x14 = s.fifo l.ncore 0x14 := (congrArg (State.fifo · l.ncore 0x14) hv).trans rfl
    have ht : v.tenantOf l.ncore = s.tenantOf l.ncore := (congrArg (State.tenantOf · l.ncore) hv).trans rfl
    rw [hfifo, hf, ht]

/-! ### Retirement of a stage task (R369, R372) -/

theorem finishKind_state (g : Stage) (tag kind : Nat) : (g.finishKind tag kind).state = g.state := by
  have hrefill (h : Stage) : h.refillW.state = h.state := rfl
  have hdrop (h : Stage) (v : Nat) : (h.dropVer v).state = h.state := rfl
  unfold Stage.finishKind
  split
  · rfl
  · extract_lets h
    have hstate : h.state = g.state := by
      simp only [h]
      split
      · split
        · rfl
        · exact hrefill _
      · rfl
    split
    · exact (hdrop ..).trans hstate
    · exact hstate

/-- The stage after one of its tasks has retired (R372): the kind finishes unless the task was faulted or cancelled. -/
def Stage.retire (g : Stage) (k : Task) : Stage :=
  let g := { g with retired := g.retired + 1 }
  match g.tag k.tag.toNat with
  | some y =>
    if y.birth ≠ k.birth then g
    else
      let g := { g with tags := smPut g.tags k.tag.toNat { y with running := y.running.erase k.kind } }
      if k.status = 0 && !y.finished.contains k.kind then g.finishKind k.tag.toNat k.kind else g
  | none => g

theorem retire_state (g : Stage) (k : Task) : (g.retire k).state = g.state := by
  unfold Stage.retire
  dsimp only
  split
  · split
    · rfl
    · split
      · exact finishKind_state ..
      · rfl
  · rfl

theorem retire_of_tag {g : Stage} {k : Task} {y : TagState} (hy : g.tag k.tag.toNat = some y) (hbirth : y.birth = k.birth) :
    g.retire k =
      let h : Stage := { g with retired := g.retired + 1, tags := smPut g.tags k.tag.toNat { y with running := y.running.erase k.kind } }
      if k.status = 0 ∧ k.kind ∉ y.finished then h.finishKind k.tag.toNat k.kind else h := by
  have hy : ({ g with retired := g.retired + 1 } : Stage).tag k.tag.toNat = some y := hy
  simp only [Stage.retire, hy, hbirth, ne_eq, not_true_eq_false, if_false, Bool.and_eq_true, decide_eq_true_iff, Bool.not_eq_true',
    List.contains_eq_mem, decide_eq_false_iff_not]

/-- A stage that takes arrivals is not removed (R53). -/
theorem drainStage_of_state {s : State} {d sel : Nat} {g : Stage} (hg : smFind (s.dieAt d).stages sel = some g) (h : g.state = 1) :
    s.drainStage d sel = s := by
  unfold State.drainStage
  simp [hg, h]

theorem retireStage_of {s t : State} {d sel id : Nat} {k : Task} {g : Stage} (hg : smFind (s.dieAt d).stages sel = some g) (hstate : g.state = 1)
    (hput : s.devPut (stageKey d sel) id none (d * Config.coresPerDie) (g.word 0x60 + 32 * (g.retired % 2 ^ (g.word 0x68 % 32)))
      (({ k with user := 0 } : Task).record id) = (t, true)) :
    s.retireStage d sel id k = ({ t with tasks := smDel t.tasks id } : State).setStage d sel (g.retire k) := by
  simp only [State.retireStage, hg, hput]
  exact drainStage_of_state (stageAt_setStage ..) ((retire_state g k).trans hstate)

theorem stage_retires {s u : State} {k : Task} {d sel pa : Nat} {g : Stage} (hk : smFind s.tasks s.ev.n = some k) (hcan : s.canRetire s.ev.n k = true)
    (horigin : k.origin = .stage d sel) (hg : smFind (s.dieAt d).stages sel = some g) (hstate : g.state = 1) (hstores : s.stores = [])
    (hparity : s.parity = []) (hacc : smFind s.devAcc (stageKey d sel) = none)
    (hplace : s.place (d * 48) true .wr 1 (BitVec.ofNat 64 (g.word 0x60 + 32 * (g.retired % 2 ^ (g.word 0x68 % 32)))) = (u, .ok (.mem pa)))
    (hm : u.plainMem) :
    ∃ t, exec .taskRetire s = .next t ∧ t.tasks = smDel s.tasks s.ev.n ∧ t.strands = s.strands ∧
      t.memNat pa 32 = k.word s.ev.n % 2 ^ 256 - k.user.toNat ∧ (∀ a, a < pa ∨ pa + 32 ≤ a → t.memByte a = s.memByte a) ∧
      smFind (t.dieAt d).stages sel = some (g.retire k) := by
  obtain ⟨w, hput, hw, hwmem⟩ := devPut_put (ring := none) hacc hplace hm s.ev.n (({ k with user := 0 } : Task).record s.ev.n)
  rw [record_eq] at hwmem
  have hu : Translated s u := (congrArg (Translated s ·.1) hplace).mp (place_translated ..)
  refine ⟨({ w with tasks := smDel w.tasks s.ev.n } : State).setStage d sel (g.retire k), ?_, ?_, ?_, ?_, fun a ha => ?_, stageAt_setStage ..⟩
  · rw [exec_taskRetire_quiet hk hcan hstores hparity, horigin]
    exact congrArg _ (retireStage_of hg hstate hput)
  · exact congrArg (smDel · s.ev.n) (((congrArg State.tasks hw).trans rfl).trans ((congrArg State.tasks hu).trans rfl))
  · exact ((congrArg State.strands hw).trans rfl).trans hu.strands
  · rw [← word_without_user, ← pow_256_32]
    exact memNat_put hwmem
  · refine Eq.trans (memByte_put_other hwmem ?_) (memByte_of_mem hu.mem a)
    rw [leBytes_length]
    exact ha

/-! ### The writes of a launch queue that move it (R40, R42, R53, R66) -/

theorem ignored_eq (s : State) : s.ignored = match s.ev.agent with
    | .host f => s.countRefused f
    | _ => s := by
  unfold State.ignored State.evFn
  cases s.ev.agent with
  | host f => rfl
  | _ => rfl

/-- Without writes on their way, a store to LQ_TAIL has nothing to release. -/
theorem agentRelease_quiet {s : State} (hstores : s.stores = []) (hparity : s.parity = []) : s.agentRelease = (s, true) := by
  unfold State.agentRelease
  split
  · rw [performWhere_of_stores_nil hstores, completeWhere_of_parity_nil hparity]
    simp [hstores]
  · rfl

theorem exec_lqTail_quiet {s : State} (hstores : s.stores = []) (hparity : s.parity = []) : exec .lqTail s =
    .next (if s.ev.v.toNat < 2 ^ (s.lqAt s.ev.k).size then s.modLq s.ev.k ({ · with tail := s.ev.v.toNat }) else s.ignored) := by
  rw [exec_lqTail, execLqTail, agentRelease_quiet hstores hparity]
  rfl

/-- DESTROY is ignored but where the queue is ENABLED (R42, R53). -/
theorem destroy_of_not_enabled {s : State} (h : (s.lqAt s.ev.k).state ≠ 1) : execLqCtlDestroy s = .next s.ignored := by
  unfold execLqCtlDestroy
  dsimp only
  split
  · rfl
  · rename_i heq
    exact absurd heq h
  · rfl

/-- A destroyed queue drains, and is disabled at once where it has no task. -/
theorem queue_destroyed {s : State} {q : Nat} :
    let t := (s.modLq q ({ · with state := 2, destroy := true })).drainQueue q
    t = { s with lqs := t.lqs, devAcc := t.devAcc } ∧ (s.liveOf q ≠ 0 → t.devAcc = s.devAcc) ∧
    t.lqAt q = if s.liveOf q = 0 then (s.lqAt q).off else { s.lqAt q with state := 2, destroy := true } := by
  intro t
  let u := s.modLq q ({ · with state := 2, destroy := true })
  have hu : u.lqAt q = { s.lqAt q with state := 2, destroy := true } := lqAt_modLq_self ..
  have hlive : u.liveOf q = s.liveOf q := rfl
  refine ⟨Eq.trans (drainQueue_frame u q) rfl, fun h => devAcc_drainQueue (hlive ▸ h), ?_⟩
  have ht := lqAt_drainQueue u q
  rw [hu, hlive] at ht
  rw [ht]
  simp only [true_and]
  rfl

/-- Tasks that a CANCEL of a queue reaches (R65, R66). -/
def State.runningOf (s : State) (q : Nat) : List (Nat × Task) := s.tasks.filter fun p => p.2.origin == .queue q && p.2.state == .running

/-- The queue whose tasks are cancelled, before it drains. -/
def State.cancelsQueue (s : State) (q : Nat) : State :=
  (s.runningOf q).foldl (fun s p => s.cancelTask p.1) (s.modLq q ({ · with cancel := true }))

theorem cancelQueue_eq (s : State) (q : Nat) : s.cancelQueue q = (s.cancelsQueue q).drainQueue q := rfl

theorem lqAt_cancelsQueue (s : State) (q : Nat) : (s.cancelsQueue q).lqAt q = { s.lqAt q with cancel := true } := by
  have h : (s.cancelsQueue q).lqs = (s.modLq q ({ · with cancel := true })).lqs :=
    List.foldlRecOn (motive := fun t : State => t.lqs = (s.modLq q ({ · with cancel := true })).lqs) _ _ rfl
      fun t ht p _ => (cancelTask_kept t p.1).1.trans ht
  rw [State.lqAt, h]
  exact lqAt_modLq_self s q _

theorem lqAt_cancelQueue {s : State} {q : Nat} (h : (s.lqAt q).state = 2) :
    (s.cancelQueue q).lqAt q = if (s.cancelQueue q).liveOf q = 0 then (s.lqAt q).off else { s.lqAt q with cancel := true } := by
  have hlive : (s.cancelQueue q).liveOf q = (s.cancelsQueue q).liveOf q := liveOf_drainQueue ..
  have hlq := lqAt_drainQueue (s.cancelsQueue q) q
  rw [lqAt_cancelsQueue] at hlq
  rw [hlive, cancelQueue_eq, hlq]
  simp only [h, true_and]
  rfl

section
variable {s : State} {q id : Nat} {k : Task} (hk : smFind s.tasks id = some k)
include hk

/-- A running task of the queue is CANCELLED unless a fault came first. -/
theorem cancelsQueue_task (horigin : k.origin = .queue q) (hstate : k.state = .running) :
    smFind (s.cancelsQueue q).tasks id = some k.cancelled ∧
    ∀ m, (s.strandAt m).live = true → (s.strandAt m).task = id → ((s.cancelsQueue q).strandAt m).cancelled := by
  have hmem : (id, k) ∈ s.runningOf q := List.mem_filter.2 ⟨mem_of_smFind hk, by simp [horigin, hstate]⟩
  have hcancelled (t : State) (i : Nat) : smFind t.tasks id = some k.cancelled → smFind (t.cancelTask i).tasks id = some k.cancelled := by
    intro h
    rw [(cancelTask_kept t i).2, h]
    split
    · subst_vars
      rw [h, Option.map_some, cancelled_cancelled]
    · rfl
  refine ⟨?_, fun m hlive htask => ?_⟩
  · refine foldl_reaches (P := fun t : State => smFind t.tasks id = some k ∨ smFind t.tasks id = some k.cancelled)
      (Q := fun t : State => smFind t.tasks id = some k.cancelled) hmem (.inl hk) (fun t p ht => ?_) (fun t ht => ?_) fun t p => hcancelled t p.1
    · rcases ht with ht | ht
      · rw [(cancelTask_kept t p.1).2, ht]
        split
        · subst_vars
          exact .inr (by rw [ht, Option.map_some])
        · exact .inl rfl
      · exact .inr (hcancelled t p.1 ht)
    · rcases ht with ht | ht
      · rw [(cancelTask_kept t id).2, if_pos rfl, ht, Option.map_some]
      · exact hcancelled t id ht
  · exact foldl_reaches (P := RunsOrCancelled m id) (Q := fun t : State => (t.strandAt m).cancelled) hmem (.inr ⟨hlive, htask⟩)
      (fun _ _ ht => cancelTask_runsOrCancelled ht) (fun _ ht => cancelTask_strands ht) fun _ _ ht => cancelTask_cancelled ht

/-- Other tasks and pre-empted ones stand. -/
theorem cancelsQueue_other (hother : ∀ j, (id, j) ∈ s.tasks → j.origin ≠ .queue q ∨ j.state = .preempted) :
    smFind (s.cancelsQueue q).tasks id = some k := by
  refine List.foldlRecOn (motive := fun t : State => smFind t.tasks id = some k) _ _ hk fun t ht p hp => ?_
  rw [(cancelTask_kept t p.1).2, if_neg]
  · exact ht
  · rintro rfl
    obtain ⟨hmem, hrun⟩ := List.mem_filter.1 hp
    rw [Bool.and_eq_true, beq_iff_eq, beq_iff_eq] at hrun
    rcases hother p.2 hmem with h | h
    · exact h hrun.1
    · rw [hrun.2] at h
      cases h

end

theorem refused_vector (s : State) (fn vec k : Nat) : ((s.vector fn vec).fnAt k).refused = (s.fnAt k).refused := by
  unfold State.vector
  split
  · rfl
  · split
    · rw [fnAt_modFn]
      split
      · subst_vars
        rfl
      · rfl
    · rfl

/-- A count of refused writes stops at its greatest value (R442). -/
theorem refused_countRefused (s : State) (f : Nat) :
    ((s.countRefused f).fnAt f).refused = if (s.fnAt f).refused < 65535 then (s.fnAt f).refused + 1 else (s.fnAt f).refused := by
  have hmod : ((s.modFn f fun x => { x with refused := sat1 x.refused 65535 }).fnAt f).refused = sat1 (s.fnAt f).refused 65535 := by
    rw [fnAt_modFn, if_pos rfl]
  unfold State.countRefused State.hostErr
  dsimp only
  split
  · rw [refused_vector]
    exact hmod
  · exact hmod

/-- Settles O48: a task retires once its record is performed, and a queue's writes move it or are ignored; what a CANCEL reaches is an
invariant over the queue's running tasks. -/
theorem tasksRetire : Obligations.TasksRetire := by
  unfold Obligations.TasksRetire
  constructor
  · intro s k id hk hcan word
    refine ⟨fun d hd => system_retires hk hcan hd, ?_, ?_⟩
    · intro q core u pa horigin hcore hstores hparity hacc l hplace hm
      exact queue_retires hk hcan horigin hcore hstores hparity hacc hplace hm
    · intro d sel u pa g horigin hg hstate hstores hparity hacc hplace hm
      obtain ⟨t, hexec, htasks, hstrands, hrec, hother, hstage⟩ := stage_retires hk hcan horigin hg hstate hstores hparity hacc hplace hm
      refine ⟨t, hexec, htasks, hstrands, hrec, hother, ?_⟩
      intro y hy hbirth h
      rw [hstage, retire_of_tag hy hbirth]
  · intro s q v l n off set ignored
    have hignored : ignored = .next s.ignored := congrArg _ (ignored_eq s).symm
    refine ⟨?_, ?_, ?_, ?_, ?_, ?_, ?_, ?_, ?_, ?_, ?_, refused_countRefused s⟩
    · intro hstores hparity hv
      rw [exec_lqTail_quiet hstores hparity, if_pos hv]
      rfl
    · intro hstores hparity hv
      rw [exec_lqTail_quiet hstores hparity, if_neg (Nat.not_lt.2 hv), hignored]
    · intro hv hc
      have h : (decide (v < n) && decide ((v + n - l.ctail) % n ≤ (l.chead + n - l.ctail) % n)) = true := by simp [hv, hc]
      rw [exec_lqCtail, execLqCtail]
      rw [if_pos h]
      rfl
    · intro h
      have h : ¬ (decide (v < n) && decide ((v + n - l.ctail) % n ≤ (l.chead + n - l.ctail) % n)) = true := by
        rw [Bool.and_eq_true, decide_eq_true_iff, decide_eq_true_iff]
        omega
      rw [exec_lqCtail, execLqCtail, hignored]
      rw [if_neg h]
      rfl
    · intro h
      rw [exec_lqCtlEnable, execLqCtlEnable, if_pos h]
      rfl
    · intro h
      rw [exec_lqCtlEnable, execLqCtlEnable, if_neg h, hignored]
      rfl
    · intro h
      rw [exec_lqCtlDestroy, hignored]
      exact destroy_of_not_enabled h
    · intro h
      rw [exec_lqCtlCancel, execLqCtlCancel, if_neg h, hignored]
      rfl
    · intro h hs
      rw [exec_lqCtlDestroy, execLqCtlDestroy]
      simp only [l, q] at h
      simp only [h, hs]
      rfl
    · intro h hs
      obtain ⟨hframe, hacc, hlq⟩ := queue_destroyed (s := s) (q := q)
      refine ⟨_, ?_, hframe, hacc, hlq⟩
      rw [exec_lqCtlDestroy, execLqCtlDestroy]
      simp only [l, q] at h
      simp only [h, hs]
      rfl
    · intro h
      refine ⟨s.cancelQueue q, ?_, ?_, ?_, ?_⟩
      · rw [exec_lqCtlCancel, execLqCtlCancel, if_pos h]
        rfl
      · exact lqAt_cancelQueue h
      · intro id k hk horigin hstate
        obtain ⟨htask, hstrands⟩ := cancelsQueue_task hk horigin hstate
        refine ⟨(congrArg (smFind · id) (tasks_drainQueue ..)).trans htask, fun m hlive htask => ?_⟩
        have hm : (s.cancelQueue q).strandAt m = (s.cancelsQueue q).strandAt m := strandAt_of_strands (strands_drainQueue ..) m
        rw [hm]
        exact hstrands m hlive htask
      · intro id k hk hother
        exact (congrArg (smFind · id) (tasks_drainQueue ..)).trans (cancelsQueue_other hk hother)

end Sys2Proof.Machine

/-!
The commands of task control (R458): what refuses one, and what a command that is taken does first.
-/
namespace Sys2Proof.Machine

/-- The die after a refusal (R458). -/
def State.tcRefused (s : State) (d r : Nat) : State :=
  s.setDie d { s.dieAt d with tcStatus := BitVec.ofNat 64 (r * 2 ^ 8 + 3), tcRecs := [] }

theorem modDie_eq (s : State) (d : Nat) (f : Die → Die) : s.modDie d f = s.setDie d (f (s.dieAt d)) := rfl

theorem tcRefuse_eq {s : State} {d : Nat} (hjob : (s.dieAt d).tcJob = none) (r : Nat) : s.tcRefuse d r = s.tcRefused d r := by
  have hstatus : tcStatus 0 r 3 = BitVec.ofNat 64 (r * 2 ^ 8 + 3) := by simp [tcStatus]
  unfold State.tcRefuse State.tcSet State.tcRefused
  rw [modDie_eq, hstatus, ← hjob]

theorem tcStatus_done (s : State) (d value : Nat) : ((s.tcDone d value).dieAt d).tcStatus = tcStatus value 0 2 := by
  simp [State.tcDone, State.tcSet, modDie_eq]

section
variable {s : State} {d op id tenant : Nat} {k : Task}

theorem tcReason_none (hk : smFind s.tasks id = none) : s.tcReason d op id tenant = 1 := by rw [State.tcReason, hk]

theorem tcReason_tenant (hk : smFind s.tasks id = some k) (h0 : tenant ≠ 0) (ht : tenant ≠ k.tenant) : s.tcReason d op id tenant = 5 := by
  rw [State.tcReason, hk]
  simp [h0, ht]

/-- A pre-empted task can be neither pre-empted nor faulted. -/
theorem tcReason_preempted (hk : smFind s.tasks id = some k) (hstate : k.state = .preempted) (hop : op = 1 ∨ op = 4) : s.tcReason d op id 0 = 3 := by
  rw [State.tcReason, hk]
  rcases hop with rfl | rfl
  · simp [hstate]
  · simp [hstate]

/-- A running task can be neither resumed nor discarded. -/
theorem tcReason_running (hk : smFind s.tasks id = some k) (hstate : k.state = .running) (hop : op = 2 ∨ op = 3) : s.tcReason d op id 0 = 3 := by
  rw [State.tcReason, hk]
  rcases hop with rfl | rfl
  · simp [hstate]
  · simp [hstate]

end

section
variable {s : State} {op : Nat} (hturn : s.ev.status ≠ 1)
include hturn

theorem tcTask_busy (hjob : (s.dieAt s.ev.k).tcJob.isSome) : s.tcTask op = s := by
  unfold State.tcTask
  dsimp only
  rw [if_neg hturn, if_pos hjob]

variable (hjob : (s.dieAt s.ev.k).tcJob = none)
include hjob

theorem tcTask_refused {r : Nat} (hr : s.tcReason s.ev.k op (s.ev.v.toNat % 2 ^ 32) s.ev.tenant = r) (h0 : r ≠ 0) :
    s.tcTask op = s.tcRefused s.ev.k r := by
  unfold State.tcTask
  dsimp only
  rw [if_neg hturn, hjob, hr]
  cases r with
  | zero => exact absurd rfl h0
  | succ r => exact tcRefuse_eq hjob _

/-- A command that is taken is BUSY and runs at once. -/
theorem tcTask_taken (hr : s.tcReason s.ev.k op (s.ev.v.toNat % 2 ^ 32) s.ev.tenant = 0) : s.tcTask op =
    (s.setDie s.ev.k { s.dieAt s.ev.k with
      tcStatus := 1, tcJob := some (op, s.ev.v.toNat % 2 ^ 32)
      tcRecs := if op = 4 then (s.trappedOf (s.ev.v.toNat % 2 ^ 32)).map fun n => (n, s.strandAt n) else [] }).tcRun s.ev.k := by
  unfold State.tcTask
  dsimp only
  rw [if_neg hturn, hjob, hr]
  rfl

end

theorem discard_refused {s : State} (hjob : (s.dieAt s.ev.k).tcJob = none) {r : Nat}
    (hr : s.tcReason s.ev.k 3 (s.ev.v.toNat % 2 ^ 32) s.ev.tenant = r) (h0 : r ≠ 0) : exec .discard s = .next (s.tcRefused s.ev.k r) := by
  rw [exec_discard]
  unfold execDiscard
  dsimp only
  rw [hjob, hr]
  cases r with
  | zero => exact absurd rfl h0
  | succ r => exact congrArg _ (tcRefuse_eq hjob _)

theorem discard_taken {s : State} (hjob : (s.dieAt s.ev.k).tcJob = none)
    (hr : s.tcReason s.ev.k 3 (s.ev.v.toNat % 2 ^ 32) s.ev.tenant = 0) : exec .discard s =
    .next ((s.modTask (s.ev.v.toNat % 2 ^ 32) ({ · with state := .running, status := 2, saved := [] })).tcDone s.ev.k 0) := by
  rw [exec_discard]
  unfold execDiscard
  dsimp only
  rw [hjob, hr]
  rfl

end Sys2Proof.Machine

/-!
Save records (R459): what a record's bytes say of the strand that it restores.
-/
namespace Sys2Proof.Machine

/-- The number in bytes `o` to `o + n - 1` of a record. -/
def recWord (l : List Byte) (o n : Nat) : Nat := leNat ((l.drop o).take n)

theorem recWord_lt (l : List Byte) (o n : Nat) : recWord l o n < 2 ^ (8 * n) := by
  refine (leNat_lt _).trans_le (Nat.pow_le_pow_right (by decide) ?_)
  rw [List.length_take]
  omega

theorem smGet_pieces {α : Type} [DecidableEq α] (d : α) (k first n : Nat) (mk : Nat → α) (l : List Byte) (i : Nat) :
    smGet d (pieces d k first n mk l) i = if first ≤ i ∧ i < first + n then mk (recWord l (k * (i - first)) k) else d := by
  have h := smGet_foldl_smSet d first (fun _ => True) (fun i => mk (leNat ((l.drop (k * i)).take k))) [] n i
  simp only [if_true, and_true, smGet_nil] at h
  exact h

/-- A piece of a block is a word of the record that holds the block. -/
theorem recWord_drop (l : List Byte) (a o n : Nat) : recWord (l.drop a) o n = recWord l (a + o) n := by
  rw [recWord, List.drop_drop, recWord]

theorem toNat_piece {w k : Nat} (hw : w = 8 * k) (l : List Byte) (o : Nat) : (BitVec.ofNat w (recWord l o k)).toNat = recWord l o k := by
  rw [BitVec.toNat_ofNat, Nat.mod_eq_of_lt (hw ▸ recWord_lt l o k)]

/-- A register is in the live set that a record's bytes name. -/
theorem live_saveRec (l : List Byte) (i : Nat) :
    (saveRec l).live i = true ↔ (recWord l 12 4).testBit 0 ∨ (i < 32 ∧ (recWord l 8 4).testBit i) := by
  have hlive : (saveRec l).live i = ((recWord l 12 4).testBit 0 || (decide (i < 32) && (recWord l 8 4).testBit i)) := rfl
  rw [hlive, Bool.or_eq_true, Bool.and_eq_true, decide_eq_true_iff]

section
variable {s u : State} {id core : Nat} {k : Task} {l : List Byte} {y : Strand} (h : s.restored id k l = (u, core, y))
include h

/-- What a restored strand has from the record outside its registers. -/
theorem restored_strand : y.pc.toNat = recWord l 0 8 ∧ y.task = id ∧ y.cancelling = (k.status != 0) ∧ y.gangRank = recWord l 0x25C 2 % 512 ∧
    y.spmBase = recWord l 0x250 2 * 4096 ∧ y.now.sup = k.sup ∧ y.now.trapped = false := by
  cases h
  exact ⟨toNat_piece rfl l 0, rfl, rfl, rfl, rfl, rfl, rfl⟩

theorem restored_s {i : Nat} (h1 : 1 ≤ i) (h64 : i < 64) :
    (y.now.getS i).toNat = if (recWord l 12 4).testBit 0 ∨ (i < 32 ∧ (recWord l 8 4).testBit i) then recWord l (8 + 8 * i) 8 else 0 := by
  have hs : y.now.s = (pieces 0 8 1 63 (BitVec.ofNat 64) (l.drop 0x10)).filter fun p => (saveRec l).live p.1 := by cases h; rfl
  have hoff : 0x10 + 8 * (i - 1) = 8 + 8 * i := by omega
  rw [Regs.getS, if_neg (by omega), hs, smGet_filter_key 0 _ (saveRec l).live, smGet_pieces, if_pos (show 1 ≤ i ∧ i < 1 + 63 by omega), recWord_drop, hoff]
  simp only [live_saveRec]
  split
  · exact toNat_piece rfl l _
  · rfl

theorem restored_lc {i : Nat} (hi : i < 4) : (y.now.getLc i).toNat = recWord l (0x210 + 4 * i) 4 := by
  have hlc : y.now.lc = pieces 0 4 0 4 (BitVec.ofNat 32) (l.drop 0x210) := by cases h; rfl
  rw [Regs.getLc, hlc, smGet_pieces, if_pos (by omega), recWord_drop]
  exact toNat_piece rfl l _

theorem restored_f {i : Nat} (hi : i < 32) : (y.now.getF i).toNat = recWord l (0x220 + i) 1 := by
  have hf : y.now.f = pieces 0 1 0 32 (BitVec.ofNat 8) (l.drop 0x220) := by cases h; rfl
  rw [Regs.getF, hf, smGet_pieces, if_pos (by omega), recWord_drop, Nat.one_mul]
  exact toNat_piece rfl l _

theorem restored_t {i : Nat} (hi : i < 64) : (y.now.getT i).toNat = recWord l (0x800 + 32 * i) 32 := by
  have ht : y.now.t = pieces 0 32 0 64 (BitVec.ofNat 256) (l.drop 0x800) := by cases h; rfl
  rw [Regs.getT, ht, smGet_pieces, if_pos (by omega), recWord_drop]
  exact toNat_piece rfl l _

end

end Sys2Proof.Machine

/-!
DISCARD, RESUME and FAULT where they are taken (R64, R67, R458).
-/
namespace Sys2Proof.Machine

theorem tcDone_kept (s : State) (d value : Nat) : (s.tcDone d value).tasks = s.tasks ∧ (s.tcDone d value).strands = s.strands ∧
    (s.tcDone d value).mem = s.mem := ⟨rfl, rfl, rfl⟩

/-- A command that is done leaves its die in state 2 (R458). -/
theorem tcStatus_tcDone (s : State) (d : Nat) : ((s.tcDone d 0).dieAt d).tcStatus = 2 := tcStatus_done s d 0

/-- A task's change at the end of a command. -/
theorem task_tcDone {s : State} {id : Nat} {k : Task} (hk : smFind s.tasks id = some k) (f : Task → Task) (d : Nat) :
    smFind ((s.modTask id f).tcDone d 0).tasks id = some (f k) := by
  rw [(tcDone_kept ..).1, smFind_modTask, if_pos rfl, hk, Option.map_some]

theorem strands_modTask (s : State) (id : Nat) (f : Task → Task) : (s.modTask id f).strands = s.strands := by rw [modTask_frame]
theorem mem_modTask (s : State) (id : Nat) (f : Task → Task) : (s.modTask id f).mem = s.mem := by rw [modTask_frame]

/-! ### DISCARD -/

theorem discarded {s : State} {id : Nat} {k : Task} (hk : smFind s.tasks id = some k) (d : Nat) :
    let t := (s.modTask id ({ · with state := .running, status := 2, saved := [] })).tcDone d 0
    (t.dieAt d).tcStatus = 2 ∧ smFind t.tasks id = some { k with state := .running, status := 2, saved := [] } ∧ t.strands = s.strands ∧ t.mem = s.mem :=
  ⟨tcStatus_tcDone .., task_tcDone hk _ d, strands_modTask .., mem_modTask ..⟩

/-! ### RESUME -/

theorem tcRun_resume {s u : State} {d id : Nat} {k : Task} {xs : List (Nat × Strand)} (hjob : (s.dieAt d).tcJob = some (2, id))
    (hrecs : (s.dieAt d).tcRecs = []) (hk : smFind s.tasks id = some k) (hfree : s.areaHeld (s.dieAt d).tcArea.toNat (4096 * k.gang.length) = [])
    (hread : s.tcRead d id k k.saved = (u, some xs)) (hfit : u.recsFit xs = true) : s.tcRun d = u.tcStart d id xs := by
  simp only [State.tcRun, hjob, hk, hrecs, hfree, hread, hfit, List.isEmpty_nil, Bool.not_true, Bool.false_eq_true, if_false, if_true]

/-- Every record's strand has started, on its own core in the lowest free slot (R46, R50). -/
theorem resumed {u : State} {id : Nat} {k : Task} {xs : List (Nat × Strand)} (hcores : (xs.map (·.1)).Nodup) (hfit : u.recsFit xs = true) (d : Nat) :
    let t := u.tcStart d id xs
    (t.dieAt d).tcStatus = 2 ∧ (smFind u.tasks id = some k → smFind t.tasks id = some { k with state := .running, saved := [] }) ∧
    ∀ p ∈ xs, ∃ n, u.freeSlot p.1 = some n ∧ (t.strandAt n).live = true ∧ (t.strandAt n).now = p.2.now ∧ (t.strandAt n).pc = p.2.pc ∧
      (t.strandAt n).sync = p.2.sync ∧ (t.strandAt n).task = p.2.task ∧ (t.strandAt n).gangRank = p.2.gangRank := by
  intro t
  have ht : t = ((u.startAll xs).modTask id ({ · with state := .running, saved := [] })).tcDone d 0 := rfl
  refine ⟨tcStatus_tcDone .., fun hk => ?_, fun p hp => ?_⟩
  · rw [ht]
    exact task_tcDone ((congrArg (smFind · id) (startAll_frame u xs).tasks).trans hk) _ d
  · obtain ⟨n, lseq, hn, hat⟩ := strandAt_startAll hcores (List.all_eq_true.1 hfit) p hp
    have hat : t.strandAt n = p.2.begun lseq := (strandAt_of_strands (strands_modTask ..) n).trans hat
    refine ⟨n, hn, ?_⟩
    rw [hat]
    exact ⟨rfl, rfl, rfl, rfl, rfl, rfl⟩

/-! ### FAULT (R67) -/

/-- No strand has a sync slot. -/
def State.noSync (s : State) : Prop := ∀ n, (s.strandAt n).sync = []

theorem noSync_of_strands {s : State} (h : ∀ p ∈ s.strands, p.2.sync = []) : s.noSync := by
  intro n
  rw [State.strandAt, smGet_eq_getD]
  cases hn : smFind s.strands n with
  | none => rfl
  | some x => exact h _ (mem_of_smFind hn)

/-- A strand without sync slots leaves its slot alone. -/
theorem leaveSlot_of_noSync {s : State} {n : Nat} (h : (s.strandAt n).sync = []) : s.leaveSlot n =
    { s.setStrand n { lseq := (s.strandAt n).lseq } with later := s.later ++ (s.strandAt n).leftElems (coreOf n) } := by
  simp only [State.leaveSlot, h, List.foldl_nil]

theorem leaveSlot_noSync {s : State} (h : s.noSync) (n : Nat) : (s.leaveSlot n).noSync ∧ (s.leaveSlot n).mem = s.mem := by
  rw [leaveSlot_of_noSync (h n)]
  refine ⟨fun m => ?_, rfl⟩
  refine (congrArg Strand.sync (strandAt_setStrand s n _ m)).trans ?_
  split
  · rfl
  · exact h m

theorem cancelStrand_noSync {s : State} (h : s.noSync) (n : Nat) : (s.cancelStrand n).noSync ∧ (s.cancelStrand n).mem = s.mem := by
  unfold State.cancelStrand
  split
  · exact leaveSlot_noSync h n
  · refine ⟨fun m => ?_, rfl⟩
    refine (congrArg Strand.sync (strandAt_setStrand s n _ m)).trans ?_
    split
    · exact h n
    · exact h m

theorem cancelStrand_dead {s : State} {m : Nat} (n : Nat) (h : (s.strandAt m).live = false) : ((s.cancelStrand n).strandAt m).live = false := by
  by_cases hm : m = n
  · subst hm
    unfold State.cancelStrand
    split
    · exact (leaveSlot_othersKept s m).2
    · exact (congrArg Strand.live ((strandAt_setStrand ..).trans (if_pos rfl))).trans h
  · rw [(cancelStrand_othersKept s n).1.strands m hm]
    exact h

/-- The strands that are still listed for a task when another strand has left. -/
theorem mem_strandsOf_setStrand {s : State} {n m id : Nat} (hmn : m ≠ n) (h : m ∈ s.strandsOf id) (x : Strand) : m ∈ (s.setStrand n x).strandsOf id := by
  obtain ⟨p, hp, rfl⟩ := List.mem_map.1 h
  obtain ⟨hp, hlive⟩ := List.mem_filter.1 hp
  exact List.mem_map.2 ⟨p, List.mem_filter.2 ⟨mem_smPut_of_ne hp hmn x, hlive⟩, rfl⟩

theorem strandsOf_of_strands {s t : State} (h : t.strands = s.strands) (id : Nat) : t.strandsOf id = s.strandsOf id := by
  rw [State.strandsOf, h, State.strandsOf]

theorem faultTask_faulted {s : State} {n id : Nat} {k : Task} (hk : smFind s.tasks id = some k) (htask : (s.strandAt n).task = id) (hsync : s.noSync)
    (hstatus : k.status = 0) (cause : Nat) (pc info : Word) :
    let t := s.faultTask n cause pc info
    (t.strandAt n).live = false ∧ t.mem = s.mem ∧ smFind t.tasks id = some { k with status := 1, cause, pc, info } ∧
    ∀ m ∈ s.strandsOf id, (t.strandAt m).cancelled := by
  let v := s.modTask id fun t => if t.status = 1 then t else { t with status := 1, cause, pc, info }
  let w := v.leaveSlot n
  intro t
  have ht : t = (w.strandsOf id).foldl State.cancelStrand w := by
    simp only [t, w, v, ← htask]
    rfl
  have hv : v.strands = s.strands := strands_modTask ..
  have hvsync : v.noSync := fun m => strandAt_of_strands hv m ▸ hsync m
  obtain ⟨hothers, hdead⟩ := leaveSlot_othersKept v n
  have hwtask : smFind w.tasks id = some { k with status := 1, cause, pc, info } := by
    rw [hothers.tasks, smFind_modTask, if_pos rfl, hk, Option.map_some, if_neg (by omega)]
  obtain ⟨hlive, hsync', hmem, htasks⟩ := List.foldlRecOn
    (motive := fun t : State => (t.strandAt n).live = false ∧ t.noSync ∧ t.mem = w.mem ∧ t.tasks = w.tasks) (w.strandsOf id) State.cancelStrand
    ⟨hdead, (leaveSlot_noSync hvsync n).1, rfl, rfl⟩ fun t ⟨h1, h2, h3, h4⟩ m _ =>
      ⟨cancelStrand_dead m h1, (cancelStrand_noSync h2 m).1, (cancelStrand_noSync h2 m).2.trans h3, (cancelStrand_othersKept t m).1.tasks.trans h4⟩
  rw [← ht] at hlive hmem htasks
  refine ⟨hlive, ?_, ?_, fun m hm => ?_⟩
  · exact hmem.trans ((leaveSlot_noSync hvsync n).2.trans (mem_modTask ..))
  · rw [htasks]
    exact hwtask
  · by_cases hmn : m = n
    · exact .inr (hmn ▸ hlive)
    · rw [ht]
      refine foldl_reaches (P := fun _ => True) (Q := fun t : State => (t.strandAt m).cancelled) (a := m) ?_ trivial (fun _ _ _ => trivial)
        (fun t _ => (cancelStrand_othersKept t m).2) fun t n h => cancelStrand_cancelled n h
      have hw : w.strands = (v.setStrand n { lseq := (v.strandAt n).lseq }).strands := 
        (congrArg State.strands (leaveSlot_of_noSync (hvsync n))).trans rfl
      rw [strandsOf_of_strands hw]
      exact mem_strandsOf_setStrand hmn (strandsOf_of_strands hv id ▸ hm) _

theorem find?_mapped {α : Type} {l : List Nat} {n : Nat} (h : n ∈ l) (f : Nat → α) :
    (l.map fun m => (m, f m)).find? (·.1 == n) = some (n, f n) := by
  induction l with
  | nil => cases h
  | cons m r ih =>
    by_cases hm : m = n
    · subst hm
      simp
    · have hr : n ∈ r := (List.mem_cons.1 h).resolve_left (Ne.symm hm)
      rw [List.map_cons, List.find?_cons_of_neg (by simpa using hm), ih hr]

theorem tcRun_fault {s : State} {d id n : Nat} {k : Task} (hjob : (s.dieAt d).tcJob = some (4, id))
    (hrecs : (s.dieAt d).tcRecs = (s.trappedOf id).map fun n => (n, s.strandAt n)) (hk : smFind s.tasks id = some k)
    (hhalted : s.haltedOf id = some n) : s.tcRun d =
      (s.faultTask n ((s.strandAt n).now.trapCause.toNat % 256) (s.strandAt n).now.trapPc (s.strandAt n).now.trapInfo).tcDone d 0 := by
  have hmem : n ∈ s.trappedOf id := List.mem_of_find?_eq_some hhalted
  have hrec := find?_mapped hmem s.strandAt
  simp only [State.tcRun, hjob, hk, hhalted, State.tcFault, hrecs, hrec, Option.map_some, Option.getD_some]

/-- FAULT ends the strand and faults its task; the others are cancelled (R67, R458). -/
theorem faulted {s : State} {n id : Nat} {k : Task} (hk : smFind s.tasks id = some k) (htask : (s.strandAt n).task = id) (hsync : s.noSync)
    (hstatus : k.status = 0) (cause d : Nat) (pc info : Word) :
    let t := (s.faultTask n cause pc info).tcDone d 0
    (t.dieAt d).tcStatus = 2 ∧ (t.strandAt n).live = false ∧ t.mem = s.mem ∧ smFind t.tasks id = some { k with status := 1, cause, pc, info } ∧
    ∀ m ∈ s.strandsOf id, (t.strandAt m).cancelled := by
  have h := faultTask_faulted hk htask hsync hstatus cause pc info
  generalize s.faultTask n cause pc info = u at h
  exact ⟨tcStatus_tcDone u d, h⟩

end Sys2Proof.Machine

/-!
PREEMPT (R64, R458, R459): each strand's record in the save area, and what the pre-emption of a task leaves.
-/
namespace Sys2Proof.Machine

/-! ### The save area (R459) -/

/-- The first `m` pieces of 128 bytes of a block, at their homes. -/
def State.putPieces (s : State) (a : Nat) (l : List Byte) (m : Nat) : State :=
  (List.range m).foldl (fun s i =>
    (s.performWhere fun x => x.touches (a / 128 + i)).performMem 0 0 (a + 128 * i) ((l.drop (128 * i)).take 128)) s

theorem putPieces_written {s : State} (h : s.plainMem) (a : Nat) (l : List Byte) (m : Nat) :
    Written s (s.putPieces a l m) ∧
    ∀ x, (s.putPieces a l m).memByte x = if a ≤ x ∧ x < a + min (128 * m) l.length then (l[x - a]?).getD 0 else s.memByte x := by
  induction m with
  | zero => exact ⟨rfl, fun x => by rw [if_neg (by omega)]; rfl⟩
  | succ m ih =>
    obtain ⟨hw, hbytes⟩ := ih
    have hplain := hw.plainMem h
    have hstep : s.putPieces a l (m + 1) = (s.putPieces a l m).performMem 0 0 (a + 128 * m) ((l.drop (128 * m)).take 128) := by
      rw [State.putPieces, List.range_succ, List.foldl_append, List.foldl_cons, List.foldl_nil, ← State.putPieces,
        performWhere_of_stores_nil hplain.1]
    obtain ⟨hw', hmem⟩ := performMem_written hplain 0 0 (a + 128 * m) ((l.drop (128 * m)).take 128)
    rw [hstep]
    refine ⟨hw.trans hw', fun x => ?_⟩
    have hlen : ((l.drop (128 * m)).take 128).length = min 128 (l.length - 128 * m) := by rw [List.length_take, List.length_drop]
    rw [memByte_of_mem hmem, memByte_putMem, hbytes, hlen]
    by_cases hx : a + 128 * m ≤ x ∧ x < a + 128 * m + min 128 (l.length - 128 * m)
    · have hidx : 128 * m + (x - (a + 128 * m)) = x - a := by omega
      rw [if_pos hx, if_pos (by omega), List.getElem?_take_of_lt (by omega), List.getElem?_drop, hidx]
    · rw [if_neg hx]
      by_cases hx' : a ≤ x ∧ x < a + min (128 * m) l.length
      · rw [if_pos hx', if_pos (by omega)]
      · rw [if_neg hx', if_neg (by omega)]

theorem putArea_written {s : State} (h : s.plainMem) (a : Nat) (l : List Byte) :
    Written s (s.putArea a l) ∧ ∀ x, (s.putArea a l).memByte x = if a ≤ x ∧ x < a + l.length then (l[x - a]?).getD 0 else s.memByte x := by
  obtain ⟨hw, hbytes⟩ := putPieces_written h a l ((l.length + 127) / 128)
  have hmin : min (128 * ((l.length + 127) / 128)) l.length = l.length := by omega
  rw [hmin] at hbytes
  exact ⟨hw, hbytes⟩

/-- A block that stands byte by byte. -/
theorem memBytes_of_memByte {t : State} {a : Nat} {l : List Byte} (h : ∀ i < l.length, t.memByte (a + i) = (l[i]?).getD 0) : t.memBytes a l.length = l := by
  refine List.ext_getElem (memBytes_length ..) fun i h1 h2 => ?_
  simp only [State.memBytes, List.getElem_map, List.getElem_range]
  rw [h i h2, List.getElem?_eq_getElem h2, Option.getD_some]

theorem flatMap_leBytes_length (n : Nat) (f : Nat → Nat) (k : Nat) : ((List.range n).flatMap fun i => leBytes k (f i)).length = n * k := by
  rw [List.length_flatMap]
  simp [leBytes_length]

/-- A save record is a page (R459). -/
theorem bytes_length (r : SaveRec) : r.bytes.length = 4096 := by
  unfold SaveRec.bytes
  simp only [List.length_append, flatMap_leBytes_length, leBytes_length, List.length_map, List.length_range, List.length_replicate, List.flatMap_cons,
    List.flatMap_nil, List.length_nil]

/-! ### One strand is pre-empted (R64) -/

/-- `t` is `s` but for what a pre-emption writes. -/
def Preempts (s t : State) : Prop :=
  t = { s with strands := t.strands, cores := t.cores, tasks := t.tasks, mem := t.mem, parity := t.parity, later := t.later, fresh := t.fresh }

theorem Preempts.trans {s t u : State} (h : Preempts s t) (k : Preempts t u) : Preempts s u :=
  Eq.trans k (congrArg (fun w : State => { w with
    strands := u.strands, cores := u.cores, tasks := u.tasks, mem := u.mem, parity := u.parity, later := u.later, fresh := u.fresh }) h)

theorem Preempts.plainMem {s t : State} (h : Preempts s t) (hm : s.plainMem) : t.plainMem := by
  unfold Preempts at h
  generalize t.strands = a, t.cores = b, t.tasks = c, t.mem = d, t.parity = e, t.later = f, t.fresh = g at h
  subst h
  exact hm

theorem Preempts.dies {s t : State} (h : Preempts s t) : t.dies = s.dies := (congrArg State.dies h).trans rfl
theorem Preempts.node {s t : State} (h : Preempts s t) : t.node = s.node := (congrArg State.node h).trans rfl

theorem Written.preempts {s t : State} (h : Written s t) : Preempts s t := by
  unfold Written at h
  generalize t.mem = a, t.parity = b at h
  subst h
  rfl

theorem undefCells_preempts (s : State) (core : Nat) (rs : List (Nat × Nat)) : Preempts s (s.undefCells core rs) ∧
    (s.undefCells core rs).tasks = s.tasks := by
  unfold State.undefCells
  refine List.foldlRecOn (motive := fun t : State => Preempts s t ∧ t.tasks = s.tasks) rs _ ⟨rfl, rfl⟩ fun t ht q _ => ?_
  refine List.foldlRecOn (motive := fun t : State => Preempts s t ∧ t.tasks = s.tasks) (List.range q.2) _ ht fun u hu i _ => ?_
  exact ⟨hu.1.trans rfl, hu.2⟩

theorem modTask_preempts (s : State) (id : Nat) (f : Task → Task) : Preempts s (s.modTask id f) := by
  unfold State.modTask
  split
  · rfl
  · rfl

/-- What is remembered of discarded regions is all of a task that can change (R61). -/
def RedoOnly (s t : State) : Prop := ∀ i k, smFind s.tasks i = some k → ∃ redo, smFind t.tasks i = some { k with redo }

theorem RedoOnly.refl (s : State) : RedoOnly s s := fun _ k h => ⟨k.redo, h⟩

theorem RedoOnly.trans {s t u : State} (h : RedoOnly s t) (k : RedoOnly t u) : RedoOnly s u := by
  intro i x hx
  obtain ⟨r, hr⟩ := h i x hx
  obtain ⟨r', hr'⟩ := k i _ hr
  exact ⟨r', hr'⟩

theorem redoOnly_of_tasks {s t : State} (h : t.tasks = s.tasks) : RedoOnly s t := fun _ k hk => ⟨k.redo, h ▸ hk⟩

theorem noteRedo_redoOnly (s : State) (n : Nat) (l : List Region) : RedoOnly s (s.noteRedo n l) ∧ Preempts s (s.noteRedo n l) := by
  unfold State.noteRedo
  dsimp only
  split
  · refine ⟨fun i k hk => ?_, modTask_preempts ..⟩
    rw [smFind_modTask]
    split
    · subst_vars
      rw [hk]
      exact ⟨_, rfl⟩
    · exact ⟨k.redo, hk⟩
  · exact ⟨RedoOnly.refl s, rfl⟩

/-- Results that have still to land are in no record. -/
theorem recordOf_congr {s t : State} {n : Nat} (hnode : t.node = s.node) (hx : t.strandAt n = { s.strandAt n with late := [] }) :
    t.recordOf n = s.recordOf n := by
  unfold State.recordOf
  rw [hnode, hx]

/-- Strand `n` has been pre-empted, with its record at `area` (R64). -/
structure StrandSaved (area n : Nat) (s t : State) : Prop where
  frame : Preempts s t
  tasks : RedoOnly s t
  strand : t.strandAt n = { lseq := (s.strandAt n).lseq }
  others : ∀ m, m ≠ n → t.strandAt m = s.strandAt m
  memory : ∀ x, t.memByte x = if area ≤ x ∧ x < area + 4096 then ((s.recordOf n).bytes[x - area]?).getD 0 else s.memByte x

theorem preemptStrand_saved {s : State} {n : Nat} (hm : s.plainMem) (hlate : (s.strandAt n).late = []) (hsync : (s.strandAt n).sync = []) (area : Nat) :
    StrandSaved (area + 4096 * (s.strandAt n).gangRank) n s (s.preemptStrand area n) := by
  let x : Strand := { s.strandAt n with late := [] }
  let u := s.setStrand n x
  let v := u.undefCells (coreOf n) (x.regions.flatMap (·.wrote))
  let w := v.noteRedo n x.regions
  let z := w.putArea (area + 4096 * x.gangRank) (s.recordOf n).bytes
  have hx : u.strandAt n = x := (strandAt_setStrand ..).trans (if_pos rfl)
  have hv : Preempts u v ∧ v.tasks = u.tasks := undefCells_preempts ..
  have hw : RedoOnly v w ∧ Preempts v w := noteRedo_redoOnly ..
  have hview : SameTrapView u w := (sameTrapView_undefCells ..).trans (sameTrapView_noteRedo ..)
  have huw : Preempts s w := Preempts.trans (t := u) rfl (hv.1.trans hw.2)
  have hrec : w.recordOf n = s.recordOf n := recordOf_congr huw.node ((hview.strandAt n).trans hx)
  have hz := putArea_written (huw.plainMem hm) (area + 4096 * x.gangRank) (s.recordOf n).bytes
  have ht : s.preemptStrand area n = ({ z with later := z.later ++ x.leftElems (coreOf n) } : State).setStrand n { lseq := x.lseq } := by
    unfold State.preemptStrand
    have hx' : (s.setStrand n { s.strandAt n with late := [] }).strandAt n = x := hx
    have hxsync : x.sync = [] := hsync
    simp only [landAll_of_late_nil hlate, hx', hxsync, List.foldl_nil]
    exact congrArg (fun r : SaveRec => ({ w.putArea (area + 4096 * x.gangRank) r.bytes with
      later := (w.putArea (area + 4096 * x.gangRank) r.bytes).later ++ x.leftElems (coreOf n) } : State).setStrand n { lseq := x.lseq }) hrec
  have hstrands : z.strands = w.strands := (congrArg State.strands hz.1).trans rfl
  have hztasks : z.tasks = w.tasks := (congrArg State.tasks hz.1).trans rfl
  rw [ht]
  refine ⟨?_, ?_, (strandAt_setStrand ..).trans (if_pos rfl), fun m hm => ?_, fun a => ?_⟩
  · exact (huw.trans hz.1.preempts).trans rfl
  · exact (redoOnly_of_tasks hv.2).trans (hw.1.trans (redoOnly_of_tasks hztasks))
  · refine ((strandAt_setStrand ..).trans (if_neg hm)).trans ?_
    exact (strandAt_of_strands hstrands m).trans ((hview.strandAt m).trans ((strandAt_setStrand ..).trans (if_neg hm)))
  · have hbytes := hz.2 a
    rw [bytes_length] at hbytes
    have hmem : w.memByte a = s.memByte a := memByte_of_mem (hview.mem.trans rfl) a
    rw [← hmem]
    exact hbytes

/-! ### All strands of a task are pre-empted (R64, R458) -/

theorem recordOf_of_strandAt {s t : State} {n : Nat} (hnode : t.node = s.node) (hx : t.strandAt n = s.strandAt n) : t.recordOf n = s.recordOf n := by
  unfold State.recordOf
  rw [hnode, hx]

/-- The place of a strand's record in the save area (R459). -/
def State.areaOf (s : State) (area n : Nat) : Nat := area + 4096 * (s.strandAt n).gangRank

theorem areaOf_of_strandAt {s t : State} {n : Nat} (hx : t.strandAt n = s.strandAt n) (area : Nat) : t.areaOf area n = s.areaOf area n := by
  rw [State.areaOf, hx, State.areaOf]

/-- The strands `ns` have been pre-empted, each with its record in its own page of the save area. -/
structure StrandsSaved (area : Nat) (ns : List Nat) (s t : State) : Prop where
  frame : Preempts s t
  tasks : RedoOnly s t
  strand : ∀ n ∈ ns, t.strandAt n = { lseq := (s.strandAt n).lseq }
  record : ∀ n ∈ ns, ∀ i < 4096, t.memByte (s.areaOf area n + i) = ((s.recordOf n).bytes[i]?).getD 0
  others : ∀ n, n ∉ ns → t.strandAt n = s.strandAt n
  memory : ∀ a, (∀ n ∈ ns, a < s.areaOf area n ∨ s.areaOf area n + 4096 ≤ a) → t.memByte a = s.memByte a

/-- Strands that have nothing to land, nothing bound and ranks of their own. -/
structure Preemptable (s : State) (ns : List Nat) : Prop where
  plain : s.plainMem
  quiet : ∀ n ∈ ns, (s.strandAt n).late = [] ∧ (s.strandAt n).sync = []
  ranks : ∀ n ∈ ns, ∀ m ∈ ns, (s.strandAt n).gangRank = (s.strandAt m).gangRank → n = m
  nodup : ns.Nodup

/-- Two strands' records are in pages of their own. -/
theorem Preemptable.areas {s : State} {ns : List Nat} (h : Preemptable s ns) {n m : Nat} (hn : n ∈ ns) (hm : m ∈ ns) (hne : n ≠ m) (area : Nat) :
    s.areaOf area n + 4096 ≤ s.areaOf area m ∨ s.areaOf area m + 4096 ≤ s.areaOf area n := by
  have hrank : (s.strandAt n).gangRank ≠ (s.strandAt m).gangRank := fun heq => hne (h.ranks n hn m hm heq)
  unfold State.areaOf
  omega

/-- The rest of a task's strands once the first has been pre-empted. -/
theorem Preemptable.rest {s t : State} {n area : Nat} {ns : List Nat} (h : Preemptable s (n :: ns)) (hs : StrandSaved area n s t) : Preemptable t ns := by
  obtain ⟨hplain, hquiet, hranks, hnodup⟩ := h
  rw [List.nodup_cons] at hnodup
  have hsame (m : Nat) (hm : m ∈ ns) : t.strandAt m = s.strandAt m := hs.others m fun heq => hnodup.1 (heq ▸ hm)
  refine ⟨hs.frame.plainMem hplain, fun m hm => ?_, fun m hm k hk hrank => ?_, hnodup.2⟩
  · rw [hsame m hm]
    exact hquiet m (List.mem_cons_of_mem _ hm)
  · rw [hsame m hm, hsame k hk] at hrank
    exact hranks m (List.mem_cons_of_mem _ hm) k (List.mem_cons_of_mem _ hk) hrank

theorem StrandsSaved.cons {s t u : State} {area n : Nat} {ns : List Nat} (hp : Preemptable s (n :: ns)) (hs : StrandSaved (s.areaOf area n) n s t)
    (ht : StrandsSaved area ns t u) : StrandsSaved area (n :: ns) s u := by
  have hn : n ∉ ns := (List.nodup_cons.1 hp.nodup).1
  have hsame (m : Nat) (hm : m ∈ ns) : t.strandAt m = s.strandAt m := hs.others m fun heq => hn (heq ▸ hm)
  have harea (m : Nat) (hm : m ∈ ns) : t.areaOf area m = s.areaOf area m := areaOf_of_strandAt (hsame m hm) area
  refine ⟨hs.frame.trans ht.frame, hs.tasks.trans ht.tasks, fun m hm => ?_, fun m hm i hi => ?_, fun m hm => ?_, fun a ha => ?_⟩
  · rcases List.mem_cons.1 hm with rfl | hm
    · exact (ht.others m hn).trans hs.strand
    · rw [ht.strand m hm, hsame m hm]
  · rcases List.mem_cons.1 hm with rfl | hm
    · rw [ht.memory, hs.memory, if_pos (by omega), Nat.add_sub_cancel_left]
      intro k hk
      have hpages := hp.areas List.mem_cons_self (List.mem_cons_of_mem _ hk) (fun heq => hn (heq ▸ hk)) area
      rw [harea k hk]
      omega
    · rw [← harea m hm, ht.record m hm i hi, recordOf_of_strandAt hs.frame.node (hsame m hm)]
  · rw [List.mem_cons, not_or] at hm
    exact (ht.others m hm.2).trans (hs.others m hm.1)
  · have hfirst := ha n List.mem_cons_self
    rw [ht.memory a fun m hm => harea m hm ▸ ha m (List.mem_cons_of_mem _ hm), hs.memory, if_neg (by omega)]

/-- The strands of a task are pre-empted one after another. -/
def State.preemptAll (s : State) (d : Nat) (ns : List Nat) : State := ns.foldl (fun s n => s.preemptStrand (s.dieAt d).tcArea.toNat n) s

theorem preemptAll_saved (d : Nat) {s : State} {ns : List Nat} (h : Preemptable s ns) :
    StrandsSaved (s.dieAt d).tcArea.toNat ns s (s.preemptAll d ns) := by
  induction ns generalizing s with
  | nil => exact ⟨rfl, RedoOnly.refl s, by simp, by simp, fun _ _ => rfl, fun _ _ => rfl⟩
  | cons n ns ih =>
    obtain ⟨hlate, hsync⟩ := h.quiet n List.mem_cons_self
    have hs := preemptStrand_saved h.plain hlate hsync (s.dieAt d).tcArea.toNat
    have hdie : (s.preemptStrand (s.dieAt d).tcArea.toNat n).dieAt d = s.dieAt d := by rw [State.dieAt, hs.frame.dies, State.dieAt]
    have ht := ih (h.rest hs)
    rw [hdie] at ht
    exact StrandsSaved.cons h hs ht

theorem tcRun_preempt {s : State} {d id : Nat} {k : Task} (hjob : (s.dieAt d).tcJob = some (1, id)) (hk : smFind s.tasks id = some k)
    (hfree : s.areaHeld (s.dieAt d).tcArea.toNat (4096 * k.gang.length) = []) : s.tcRun d =
      ((s.preemptAll d (s.strandsOf id)).modTask id
        ({ · with state := .preempted, saved := (s.strandsOf id).map fun n => (s.strandAt n).gangRank })).tcDone d 0 := by
  simp only [State.tcRun, hjob, hk, hfree, List.isEmpty_nil, if_true]
  rfl

theorem preempted {s : State} {d id : Nat} {k : Task} (hk : smFind s.tasks id = some k) (h : Preemptable s (s.strandsOf id)) :
    let ns := s.strandsOf id
    let area := (s.dieAt d).tcArea.toNat
    let t := ((s.preemptAll d ns).modTask id ({ · with state := .preempted, saved := ns.map fun n => (s.strandAt n).gangRank })).tcDone d 0
    (t.dieAt d).tcStatus = 2 ∧
    smFind t.tasks id = some { k with state := .preempted, saved := ns.map fun n => (s.strandAt n).gangRank, redo := (t.taskAt id).redo } ∧
    (∀ n ∈ ns, t.strandAt n = { lseq := (s.strandAt n).lseq } ∧ t.memBytes (s.areaOf area n) 4096 = (s.recordOf n).bytes) ∧
    (∀ n, n ∉ ns → t.strandAt n = s.strandAt n) ∧
    ∀ a, (∀ n ∈ ns, a < s.areaOf area n ∨ s.areaOf area n + 4096 ≤ a) → t.memByte a = s.memByte a := by
  intro ns area t
  obtain ⟨hframe, htasks, hstrand, hrecord, hothers, hmemory⟩ := preemptAll_saved d h
  have hstrands (n : Nat) : t.strandAt n = (s.preemptAll d ns).strandAt n := strandAt_of_strands (strands_modTask ..) n
  have hmem (a : Nat) : t.memByte a = (s.preemptAll d ns).memByte a := memByte_of_mem (mem_modTask ..) a
  obtain ⟨redo, hredo⟩ := htasks id k hk
  have htask := task_tcDone hredo ({ · with state := .preempted, saved := ns.map fun n => (s.strandAt n).gangRank }) d
  refine ⟨tcStatus_tcDone .., ?_, fun n hn => ⟨(hstrands n).trans (hstrand n hn), ?_⟩, fun n hn => (hstrands n).trans (hothers n hn),
    fun a ha => (hmem a).trans (hmemory a ha)⟩
  · have hat : (t.taskAt id).redo = redo := congrArg Task.redo (smFind_some_smGet _ _ _ htask)
    rw [hat]
    exact htask
  · have hlen := bytes_length (s.recordOf n)
    have hbytes := memBytes_of_memByte (t := t) (a := s.areaOf area n) (l := (s.recordOf n).bytes) fun i hi => (hmem _).trans (hrecord n hn i (hlen ▸ hi))
    rw [hlen] at hbytes
    exact hbytes

end Sys2Proof.Machine

/-!
TaskControl (O50): the commands of task control, from the branches that refuse or ignore one to what each leaves where it is taken.
-/
namespace Sys2Proof.Machine

section
variable {s : State}

/-- While a command is BUSY, others are ignored (R458). -/
theorem commands_ignored (hjob : (s.dieAt s.ev.k).tcJob.isSome) :
    exec .tcCmd s = .next s ∧ exec .discard s = .next s ∧ exec .gwsave s = .next s ∧ exec .gwrestore s = .next s := by
  refine ⟨?_, ?_, ?_, ?_⟩
  · rw [exec_tcCmd, execTcCmd, if_pos hjob]
    rfl
  · rw [exec_discard, execDiscard, if_pos hjob]
    rfl
  · rw [exec_gwsave, execGwsave, if_pos hjob]
    rfl
  · rw [exec_gwrestore, execGwrestore, if_pos hjob]
    rfl

/-- A command on a task is the command of its number (R458). -/
theorem exec_preempt_of {t : State} (h : s.tcTask 1 = t) : exec .preempt s = .next t := congrArg Host.Outcome.next h
theorem exec_resume_of {t : State} (h : s.tcTask 2 = t) : exec .resume s = .next t := congrArg Host.Outcome.next h
theorem exec_fault_of {t : State} (h : s.tcTask 4 = t) : exec .fault s = .next t := congrArg Host.Outcome.next h

variable (hjob : (s.dieAt s.ev.k).tcJob = none)
include hjob

theorem exec_tcCmd_refused : exec .tcCmd s = .next (s.tcRefused s.ev.k 1) := by
  rw [exec_tcCmd, execTcCmd, hjob]
  exact congrArg _ (tcRefuse_eq hjob 1)

variable (hturn : s.ev.status ≠ 1)
include hturn

/-- A reason that every command has refuses every command. -/
theorem commands_refused {r : Nat} (h0 : r ≠ 0) (hr : ∀ op, s.tcReason s.ev.k op (s.ev.v.toNat % 2 ^ 32) s.ev.tenant = r) :
    exec .preempt s = .next (s.tcRefused s.ev.k r) ∧ exec .resume s = .next (s.tcRefused s.ev.k r) ∧
    exec .discard s = .next (s.tcRefused s.ev.k r) ∧ exec .fault s = .next (s.tcRefused s.ev.k r) :=
  ⟨exec_preempt_of (tcTask_refused hturn hjob (hr 1) h0), exec_resume_of (tcTask_refused hturn hjob (hr 2) h0), discard_refused hjob (hr 3) h0,
    exec_fault_of (tcTask_refused hturn hjob (hr 4) h0)⟩

variable {k : Task} (hk : smFind s.tasks (s.ev.v.toNat % 2 ^ 32) = some k)
include hk

theorem preempted_refuses (hstate : k.state = .preempted) (htenant : s.ev.tenant = 0) :
    exec .preempt s = .next (s.tcRefused s.ev.k 3) ∧ exec .fault s = .next (s.tcRefused s.ev.k 3) :=
  ⟨exec_preempt_of (tcTask_refused hturn hjob (htenant ▸ tcReason_preempted hk hstate (.inl rfl)) (by decide)),
    exec_fault_of (tcTask_refused hturn hjob (htenant ▸ tcReason_preempted hk hstate (.inr rfl)) (by decide))⟩

theorem running_refuses (hstate : k.state = .running) (htenant : s.ev.tenant = 0) :
    exec .resume s = .next (s.tcRefused s.ev.k 3) ∧ exec .discard s = .next (s.tcRefused s.ev.k 3) :=
  ⟨exec_resume_of (tcTask_refused hturn hjob (htenant ▸ tcReason_running hk hstate (.inl rfl)) (by decide)),
    discard_refused hjob (htenant ▸ tcReason_running hk hstate (.inr rfl)) (by decide)⟩

end

/-- The machine in which a command has been taken. -/
def State.taken (s : State) (op : Nat) : State :=
  s.setDie s.ev.k { s.dieAt s.ev.k with
    tcStatus := 1, tcJob := some (op, s.ev.v.toNat % 2 ^ 32)
    tcRecs := if op = 4 then (s.trappedOf (s.ev.v.toNat % 2 ^ 32)).map fun n => (n, s.strandAt n) else [] }

theorem dieAt_taken (s : State) (op : Nat) : (s.taken op).dieAt s.ev.k = { s.dieAt s.ev.k with
    tcStatus := 1, tcJob := some (op, s.ev.v.toNat % 2 ^ 32)
    tcRecs := if op = 4 then (s.trappedOf (s.ev.v.toNat % 2 ^ 32)).map fun n => (n, s.strandAt n) else [] } :=
  (dieAt_setDie ..).trans (if_pos rfl)

theorem strandAt_taken (s : State) (op n : Nat) : (s.taken op).strandAt n = s.strandAt n := rfl

/-- Settles O50: a command is ignored, refused or taken by its state and reason, and a PREEMPT keeps its records apart by the
strands' ranks. -/
theorem taskControl : Obligations.TaskControl := by
  unfold Obligations.TaskControl
  intro s d x id busy free
  refine ⟨?_, ?_, ?_⟩
  · intro hjob
    obtain ⟨hcmd, hdiscard, hsave, hrestore⟩ := commands_ignored hjob
    refine ⟨hcmd, hdiscard, hsave, hrestore, fun hturn => ⟨?_, ?_, ?_⟩⟩
    · exact exec_preempt_of (tcTask_busy hturn hjob)
    · exact exec_resume_of (tcTask_busy hturn hjob)
    · exact exec_fault_of (tcTask_busy hturn hjob)
  · intro hjob hturn refused
    refine ⟨exec_tcCmd_refused hjob, fun hnone => ?_, fun k hk => ?_⟩
    · exact commands_refused hjob hturn (by decide) fun _ => tcReason_none hnone
    · have htask : s.taskAt id = k := smFind_some_smGet _ _ _ hk
      refine ⟨fun h0 ht => ?_, fun h0 hstate => ?_, fun h0 hstate => ?_, ?_, ?_, fun hreason => ?_, ?_⟩
      · exact commands_refused hjob hturn (by decide) fun _ => tcReason_tenant hk h0 ht
      · exact preempted_refuses hjob hturn hk hstate h0
      · exact running_refuses hjob hturn hk hstate h0
      · intro hreason hfree hplain hquiet hranks hnodup
        have hdie := dieAt_taken s 1
        have harea : ((s.taken 1).dieAt d).tcArea = x.tcArea := (congrArg Die.tcArea hdie).trans rfl
        have hfree : (s.taken 1).areaHeld ((s.taken 1).dieAt d).tcArea.toNat (4096 * k.gang.length) = [] := by
          rw [harea, ← htask]
          exact hfree
        have hrun := tcRun_preempt (s := s.taken 1) (congrArg Die.tcJob hdie) hk hfree
        have hdone := preempted (s := s.taken 1) (d := d) hk ⟨hplain, hquiet, hranks, hnodup⟩
        simp only [harea] at hdone
        exact ⟨_, exec_preempt_of ((tcTask_taken hturn hjob hreason).trans hrun), hdone⟩
      · intro u xs hreason hfree hread hfit hcores
        have hdie := dieAt_taken s 2
        have hfree : (s.taken 2).areaHeld ((s.taken 2).dieAt d).tcArea.toNat (4096 * k.gang.length) = [] := by
          rw [congrArg Die.tcArea hdie, ← htask]
          exact hfree
        have hrun := tcRun_resume (s := s.taken 2) (congrArg Die.tcJob hdie) (congrArg Die.tcRecs hdie) hk hfree hread hfit
        exact ⟨_, exec_resume_of ((tcTask_taken hturn hjob hreason).trans hrun), resumed hcores hfit d⟩
      · exact ⟨_, discard_taken hjob hreason, discarded hk d⟩
      · intro n hreason hhalted hstrand hsync hstatus
        have hdie := dieAt_taken s 4
        have hrun := tcRun_fault (s := s.taken 4) (congrArg Die.tcJob hdie) (congrArg Die.tcRecs hdie) hk hhalted
        rw [strandAt_taken] at hrun
        have hdone := faulted (s := s.taken 4) hk hstrand (noSync_of_strands hsync) hstatus
          ((s.strandAt n).now.trapCause.toNat % 256) d (s.strandAt n).now.trapPc (s.strandAt n).now.trapInfo
        exact ⟨_, exec_fault_of ((tcTask_taken hturn hjob hreason).trans hrun), hdone⟩
  · intro l k w core y h word
    obtain ⟨hpc, htask, hcancelling, hrank, hbase, hsup, htrapped⟩ := restored_strand h
    exact ⟨hpc, htask, hcancelling, hrank, hbase, hsup, htrapped, fun i h1 h64 => restored_s h h1 h64, fun i hi => restored_lc h hi,
      fun i hi => restored_f h hi, fun i hi => restored_t h hi⟩

end Sys2Proof.Machine

/-!
Copy channels (O41): what the end of a step leaves of the cores, and which channels it keeps active.
-/
namespace Sys2Proof.Machine

/-! ### A core whose channels are put in order (R89) -/

theorem apq_keepActive (x : Core) (l : List Nat) : (x.keepActive l).apq = x.apq := by
  unfold Core.keepActive
  split <;> rfl

/-- A channel that stays active is one of those given. -/
theorem active_keepActive {x : Core} {l : List Nat} {k : Nat} {h : Chan} (hmem : (k, h) ∈ (x.keepActive l).chans)
    (hactive : h.active = true) : k ∈ l := by
  unfold Core.keepActive at hmem
  split at hmem
  · rename_i hall
    rw [List.all_eq_true] at hall
    simpa [hactive] using hall _ hmem
  · obtain ⟨⟨k', h'⟩, -, heq⟩ := List.mem_map.mp hmem
    obtain ⟨rfl, rfl⟩ := Prod.mk.inj heq
    simp only [Bool.and_eq_true, List.contains_iff_mem] at hactive
    exact hactive.2

/-- Every core of the package with its channels in order. -/
def State.keepChannels (s : State) : State := { s with cores := s.cores.map fun (c, x) => (c, x.keepActive (s.openChans c)) }

theorem apq_keepChannels (s : State) (c : Nat) : (s.keepChannels.coreAt c).apq = (s.coreAt c).apq := by
  have h := smGet_map ({} : Core) (fun c x => x.keepActive (s.openChans c)) s.cores c rfl
  exact (congrArg Core.apq h).trans (apq_keepActive _ _)

/-- The channels whose copy entries are in service follow from the strands' queues and the aperture queue alone. -/
theorem openChans_congr {s t : State} (hs : t.strands = s.strands) (hq : ∀ c, (t.coreAt c).apq = (s.coreAt c).apq) (c : Nat) :
    t.openChans c = s.openChans c := by
  have hheads : (t.heads 2 c).map (·.2.2) = (s.heads 2 c).map (·.2.2) := by
    simp only [State.heads, hs, hq, List.map_append, List.map_filterMap]
    refine congrArg (· ++ _) (congrArg (List.filterMap · s.strands) (funext fun p => ?_))
    by_cases hcore : coreOf p.1 = c
    · cases hq : smGet [] p.2.queues 2 <;> simp [hcore]
    · simp [hcore]
  have hof (u : State) : u.openChans c = ((u.heads 2 c).map (·.2.2)).filterMap fun e =>
      if e.begun then (mCode e.instr).map fun p => p.2.ch else none := by
    rw [List.filterMap_map]
    rfl
  rw [hof, hof, hheads]

/-- R89: a channel is active only while its copy entry is in service. -/
def State.channelsKept (s : State) : Prop :=
  ∀ c x k h, (c, x) ∈ s.cores → (k, h) ∈ x.chans → h.active = true → k ∈ s.openChans c

theorem channelsKept_keepChannels (s : State) : s.keepChannels.channelsKept := by
  intro c x k h hx hk hactive
  obtain ⟨⟨c', y⟩, -, heq⟩ := List.mem_map.mp hx
  obtain ⟨rfl, rfl⟩ := Prod.mk.inj heq
  rw [openChans_congr (s := s) (t := s.keepChannels) rfl (apq_keepChannels s)]
  exact active_keepActive hk hactive

theorem channelsKept_of_inactive {s : State} (hall : (s.cores.all fun c => c.2.chans.all fun h => !h.2.active) = true) : s.channelsKept := by
  intro c x k h hx hk hactive
  have := List.all_eq_true.mp (List.all_eq_true.mp hall _ hx) _ hk
  simp [hactive] at this

theorem channelsKept_settle (s : State) : s.settle.channelsKept := by
  unfold State.settle
  extract_lets u
  split
  · rename_i hall
    exact channelsKept_of_inactive hall
  · exact channelsKept_keepChannels u

/-- What a step carried is no part of a queue. -/
theorem channelsKept_finish (s : State) : s.finish.channelsKept := by
  intro c x k h hx hk hactive
  rw [openChans_congr (s := s.settle) (t := s.finish) rfl fun _ => rfl]
  exact channelsKept_settle s c x k h hx hk hactive

/-- Settles O41: every step ends by putting the channels in order. -/
theorem stepKeepsChannels : Obligations.StepKeepsChannels := by
  unfold Obligations.StepKeepsChannels
  intro s t hstep
  have hfinish : ∃ u : State, t = u.finish := by
    unfold step at hstep
    cases hnext : s.next with
    | next u =>
      rw [hnext] at hstep
      exact ⟨u, (Host.Outcome.next.inj hstep).symm⟩
    | fault r => simp [hnext, andThen] at hstep
    | refused r => simp [hnext, andThen] at hstep
  obtain ⟨u, rfl⟩ := hfinish
  exact channelsKept_finish u

end Sys2Proof.Machine

/-!
Sync objects (O17, O18): what an instruction on a sync object finds, acquires and releases without bound copies, the fields of the
barrier after a write, and the slots.
-/
namespace Sys2Proof.Machine

/-! ### The place of an object (R97, R98, R208) -/

/-- A page keeps an address's low twelve bits. -/
theorem leafPa_mod (e lvl va : Nat) : leafPa e lvl va % 64 = va % 64 := by
  have hdvd : (64 : Nat) ∣ 2 ^ (12 + 9 * lvl) := ⟨2 ^ (6 + 9 * lvl), by rw [show 12 + 9 * lvl = 6 + (6 + 9 * lvl) by omega, pow_add]; rfl⟩
  have h := Nat.mod_mod_of_dvd va hdvd
  unfold leafPa
  omega

theorem mem_of_placeOf {node pa a : Nat} (h : placeOf node pa = .ok (.mem a)) : a = pa % 2 ^ 46 := by
  unfold placeOf at h
  grind

theorem placeOk_mem {s : State} {core kind a : Nat} {sup : Bool} {p : Place} (h : s.placeOk core sup kind p = .ok (.mem a)) : p = .mem a := by
  unfold State.placeOk at h
  grind

theorem localPlace_ne_mem (core off a : Nat) : localPlace core off ≠ .ok (.mem a) := by
  unfold localPlace
  split
  · nofun
  · split
    · nofun
    · split
      · nofun
      · split <;> nofun

/-- An address in the package's memory is aligned there as it is virtually. -/
theorem place_mem_mod {s u : State} {core kind pa : Nat} {sup : Bool} {need : Need} {va : Word}
    (h : s.place core sup need kind va = (u, .ok (.mem pa))) : pa % 64 = va.toNat % 64 := by
  unfold State.place at h
  split at h
  · exact absurd (Prod.mk.inj h).2 (localPlace_ne_mem _ _ _)
  · have hpage : (s.pagePlace core sup need va.toNat).2 = .ok (.mem pa) := by
      unfold State.globalPlace at h
      split at h
      · rename_i hq
        rw [hq, placeOk_mem (congrArg Prod.snd h)]
      · exact congrArg Prod.snd h
    unfold State.pagePlace at hpage
    grind [leafPa_mod, mem_of_placeOf]

/-! ### What an instruction finds in an object (R208) -/

/-- A read of a line of which the L1 holds no sector is made at the home (R187). -/
theorem loadMem_uncached {s : State} (h : s.stores = []) {core pa : Nat} (hl : ∀ q ∈ (s.coreAt core).l1, q.1 / 8 ≠ pa / 128) (n : Nat) :
    s.loadMem core pa n 2 = (s, s.memBytes pa n) := by
  have hnone : smFind (s.coreAt core).l1 (pa / 16) = none := by
    cases hq : smFind (s.coreAt core).l1 (pa / 16) with
    | none => rfl
    | some v => exact absurd (by dsimp only; omega) (hl _ (mem_of_smFind hq))
  simp only [State.loadMem, performWhere_of_stores_nil h, hnone]
  rfl

theorem fetchMem_object {s : State} (hm : s.plainMem) {w : Who} {pa : Nat} (ha : pa % 64 = 0)
    (hl : ∀ q ∈ (s.coreAt w.core).l1, q.1 / 8 ≠ pa / 128) : ∃ l, s.fetchMem w pa 64 2 = (s, .bytes l) := by
  have hload (i : Nat) (hi : i < 8) : s.loadMem w.core (pa + i * 8) 8 2 = (s, s.memBytes (pa + i * 8) 8) := by
    refine loadMem_uncached hm.1 (fun q hq => ?_) 8
    have := hl q hq
    omega
  have hbytes (p : State × List Byte) (hp : p.1 = s) : ∃ l, (p.1, Fetch.bytes p.2) = (s, .bytes l) := ⟨p.2, by rw [hp]⟩
  unfold State.fetchMem
  rw [hm.2.2.1]
  simp only [List.any_nil, Bool.false_eq_true, if_false, if_true, scanMem_plain hm]
  refine hbytes _ ?_
  refine List.foldlRecOn (motive := fun p : State × List Byte => p.1 = s) _ _ rfl fun p hp i hi => ?_
  have hi : i < 8 := by simpa using hi
  dsimp only
  rw [hp, show min 64 8 = 8 from rfl, hload i hi]

theorem Translated.st {s t : State} (h : Translated s t) : t.st = s.st := by
  rw [State.st, State.strandAt, h.strands, h.cur]
  rfl

/-- Nothing of strand `s.cur` is bound. -/
def State.unbound (s : State) : Prop := ∀ p ∈ s.st.sync, p.2.att = none

/-- The object that an instruction names is found as `objectAt` says: `u` is the machine after translation. -/
structure Found (s u : State) (y : Word) (pa : Nat) : Prop where
  plain : u.plainMem
  sound : u.objSound pa = true
  unbound : u.unbound
  st : u.st = s.st
  cur : u.cur = s.cur

theorem found_of_objectAt {s u : State} {y : Word} {need : Need} {pa : Nat} (h : s.objectAt y need pa u) : Found s u y pa := by
  obtain ⟨-, hplace, hplain, hsound, hunbound, -⟩ := h
  have ht : Translated s u := by
    have := place_translated s s.curCore s.st.src.sup need 2 y
    rwa [hplace] at this
  exact ⟨hplain, hsound, hunbound, ht.st, ht.cur⟩

theorem withObject_found {s u : State} {y : Word} {need : Need} {pa : Nat} (h : s.objectAt y need pa u) (f : State → Nat → State) :
    s.withObject y need f = f u pa := by
  have hf := found_of_objectAt h
  obtain ⟨halign, hplace, hplain, hsound, -, hl1⟩ := h
  have hcore : s.curCore = u.curCore := congrArg coreOf hf.cur.symm
  rw [hcore] at hl1
  obtain ⟨l, hfetch⟩ := fetchMem_object (w := u.who) hplain ((place_mem_mod hplace).trans halign) hl1
  simp only [State.withObject, halign, hplace, performWhere_of_stores_nil hplain.1, hfetch, unsure_of_sound hsound]
  rfl

/-! ### Acquires and releases without bound copies (R79, R80) -/

theorem refetch_unbound {s : State} (h : s.unbound) : s.refetch = (s, none) := by
  refine foldl_fix _ fun p hp => ?_
  have hnone : p.2.att = none := h p hp
  simp only [hnone]

theorem writeBackRegions_unbound {s : State} (h : s.unbound) (rs : List (Nat × Nat)) : s.writeBackRegions rs = (s, none) := by
  refine foldl_fix _ fun p hp => ?_
  have hnone : p.2.att = none := h p hp
  simp only [hnone]

/-- A sync slot after an acquire of byte ranges: the lines that one overlaps are to be fetched again. -/
def SyncSlot.acquired (rs : List (Nat × Nat)) (sl : SyncSlot) : SyncSlot :=
  match sl.att with
  | some a =>
    let touches (l : Nat) : Bool := rs.any fun p => decide (p.1 < a.va + (l - a.base) + 128) && decide (a.va + (l - a.base) < p.1 + p.2)
    { sl with att := some { a with filled := a.filled.filter fun l => !touches l, refetch := a.refetch ++ a.filled.filter touches } }
  | none => sl

/-- The strand after an acquire of byte ranges. -/
def Strand.acquired (x : Strand) (rs : List (Nat × Nat)) : Strand := { x with sync := x.sync.map fun p => (p.1, p.2.acquired rs) }

theorem dropL1_strands (s : State) (core pa n : Nat) : (s.dropL1 core pa n).strands = s.strands ∧ (s.dropL1 core pa n).cur = s.cur := by
  unfold State.dropL1
  split <;> exact ⟨rfl, rfl⟩

/-- Of the strands, an acquire changes the current one's slots alone. -/
theorem acquireRanges_st (s : State) (rs : List (Nat × Nat)) : (s.acquireRanges rs).st = s.st.acquired rs := by
  unfold State.acquireRanges
  extract_lets core u touches
  have hu : u.strands = s.strands ∧ u.cur = s.cur := by
    dsimp only [u]
    split
    · exact ⟨rfl, rfl⟩
    · refine List.foldlRecOn (motive := fun t : State => t.strands = s.strands ∧ t.cur = s.cur) rs _ ⟨rfl, rfl⟩ fun t ht r _ => ?_
      refine List.foldlRecOn (motive := fun t : State => t.strands = s.strands ∧ t.cur = s.cur) _ _ ht fun t ht i _ => ?_
      split
      · obtain ⟨hstrands, hcur⟩ := dropL1_strands t core _ _
        exact ⟨hstrands.trans ht.1, hcur.trans ht.2⟩
      · exact ht
  have hst : u.st = s.st := by rw [State.st, State.strandAt, hu.1, hu.2]; rfl
  rw [State.modSt, st_setSt, hst]
  rfl

theorem acquired_of_none {sl : SyncSlot} (h : sl.att = none) (rs : List (Nat × Nat)) : sl.acquired rs = sl := by
  unfold SyncSlot.acquired
  rw [h]

theorem unbound_acquireRanges {s : State} (h : s.unbound) (rs : List (Nat × Nat)) : (s.acquireRanges rs).unbound := by
  intro p hp
  rw [acquireRanges_st] at hp
  obtain ⟨q, hq, rfl⟩ := List.mem_map.mp hp
  dsimp only
  rw [acquired_of_none (h q hq)]
  exact h q hq

/-- A line of a bound copy that is still filled after an acquire lies outside its ranges. -/
theorem filled_acquired {rs : List (Nat × Nat)} {sl : SyncSlot} {c : Attachment} (hc : (sl.acquired rs).att = some c) {l : Nat} (hl : l ∈ c.filled)
    {r : Nat × Nat} (hr : r ∈ rs) : r.1 + r.2 ≤ c.va + (l - c.base) ∨ c.va + (l - c.base) + 128 ≤ r.1 := by
  unfold SyncSlot.acquired at hc
  split at hc
  · obtain rfl := Option.some.inj hc
    have hout := (List.mem_filter.mp hl).2
    simp only [Bool.not_eq_true', List.any_eq_false, Bool.and_eq_true, decide_eq_true_eq, not_and, not_lt] at hout
    have := hout r hr
    dsimp only
    omega
  · rename_i hnone
    rw [hnone] at hc
    cases hc

theorem acquire_unbound {s : State} (h : s.unbound) (pa : Nat) (v info : Word) (f : State → State) :
    s.acquire pa v info f = f ((s.acquireRanges (s.boundRegions pa)).modSt ({ · with acq := none })) := by
  rw [State.acquire, State.acquireEnd, refetch_unbound (unbound_acquireRanges h _)]

/-- No error stands in the package's memory, and the host holds no line of it. -/
def State.soundMem (s : State) : Prop := s.held = [] ∧ s.memSyn = [] ∧ s.poison = [] ∧ s.lost = [] ∧ s.l2inj = []

theorem State.plainMem.sound {s : State} (h : s.plainMem) : s.soundMem := h.2.2

/-- A write where no error stands: its bytes, and the parity updates that it begins. -/
theorem performMem_quiet {s : State} (h : s.soundMem) (tenant task a : Nat) (bs : List Byte) (core strand : Option Nat) :
    ∃ p, s.performMem tenant task a bs core strand = { s.putMem a bs with parity := p } := by
  obtain ⟨-, hsyn, hpoison, hlost, hl2⟩ := h
  refine ⟨((s.putMem a bs).beginParity a bs.length core strand).parity, ?_⟩
  rw [performMem_of_sound hsyn hpoison hlost]
  have h1 : synAfter s.memSyn a bs.length = (s.putMem a bs).memSyn := by rw [hsyn]; exact hsyn.symm
  have h2 : l2After s.l2inj a bs.length = (s.putMem a bs).l2inj := by rw [hl2]; exact hl2.symm
  rw [h1, h2]
  rfl

/-- The machine after RELSEQ of the object at `pa` has been counted. -/
def State.counted (s : State) (pa : Nat) (p : List Parity) : State :=
  { s.putMemNat pa 8 ((s.memNat pa 8 + 1) % 2 ^ 64) with parity := p }

/-- A release without bound copies, stores and posted writes counts RELSEQ (R79). -/
theorem release_quiet {s : State} (hm : s.plainMem) (h : s.unbound) (y : Word) (pa : Nat) (scope : BitVec 3) (f : State → Word → State) :
    ∃ p, s.release y pa scope f = f (s.counted pa p) (BitVec.ofNat 64 (s.memNat pa 8 + 1)) := by
  let u : State := { s with parity := (s.flushStrand (scope == 5)).parity }
  have hflush : s.flushStrand (scope == 5) = u := by
    simp only [u, State.flushStrand, performWhere_of_stores_nil hm.1, State.completeWhere]
    split <;> rfl
  have hposted (g : State → Posted → State) (c : Posted → Bool) : (u.posted.filter c).foldl g u = u := by
    rw [show u.posted = [] from hm.2.1]
    rfl
  have hready : u.releaseReady (s.boundRegions pa) scope = true := by
    simp only [State.releaseReady, show u.posted = [] from hm.2.1, show u.stores = [] from hm.1, List.any_nil, Bool.not_false, Bool.or_true,
      Bool.and_self]
  have hu : u.plainMem := hm
  obtain ⟨p, hp⟩ := performMem_quiet hu.sound 0 u.st.task pa (leBytes 8 ((s.memNat pa 8 + 1) % 2 ^ 64)) none none
  refine ⟨p, ?_⟩
  have hnat : (BitVec.ofNat 64 (u.memNat pa 8 + 1)).toNat = (s.memNat pa 8 + 1) % 2 ^ 64 := BitVec.toNat_ofNat ..
  simp only [State.release, writeBackRegions_unbound h, hflush, hposted, ite_self, hready, if_true, hnat, hp]
  rfl

/-! ### Numbers and barriers in memory (R4, R207) -/

theorem memNat_of_mem {s t : State} (hm : t.mem = s.mem) (a n : Nat) : t.memNat a n = s.memNat a n := congrArg leNat (memBytes_of_mem hm a n)

theorem barrier_of_mem {s t : State} (hm : t.mem = s.mem) (pa : Nat) : t.barrier pa = s.barrier pa := by
  simp only [State.barrier, memNat_of_mem hm]

theorem memNat_lt (s : State) (a n : Nat) : s.memNat a n < 2 ^ (8 * n) := by
  have h := leNat_lt (s.memBytes a n)
  rwa [memBytes_length] at h

/-- A number that a write does not touch. -/
theorem memNat_putMem_other {s : State} {a b n : Nat} {bs : List Byte} (h : b + n ≤ a ∨ a + bs.length ≤ b) :
    (s.putMem a bs).memNat b n = s.memNat b n := by
  refine congrArg leNat (List.map_congr_left fun i hi => memByte_putMem_other ?_)
  have := List.mem_range.mp hi
  omega

/-- A part of the bytes that were written reads back. -/
theorem memNat_putMem_part (s : State) (a : Nat) (pre mid post : List Byte) :
    (s.putMem a (pre ++ mid ++ post)).memNat (a + pre.length) mid.length = leNat mid := by
  refine congrArg leNat (List.ext_getElem (memBytes_length ..) fun i h1 h2 => ?_)
  have hlen : (pre ++ mid ++ post).length = pre.length + mid.length + post.length := by rw [List.length_append, List.length_append]
  simp only [State.memBytes, List.getElem_map, List.getElem_range, memByte_putMem, hlen]
  rw [if_pos (by omega), show a + pre.length + i - a = pre.length + i by omega, List.append_assoc,
    List.getElem?_append_right (by omega), Nat.add_sub_cancel_left, List.getElem?_append_left h2, List.getElem?_eq_getElem h2]
  rfl

/-- The numbers of a barrier fit their fields. -/
structure Barrier.Fits (b : Barrier) : Prop where
  expect : b.expect < 2 ^ 16
  arrived : b.arrived < 2 ^ 16
  phase : b.phase < 2 ^ 32

theorem barrier_fits (s : State) (pa : Nat) : (s.barrier pa).Fits := ⟨memNat_lt .., memNat_lt .., memNat_lt ..⟩

/-- The bytes of a BARRIER word. -/
def Barrier.bytes (b : Barrier) : List Byte := leBytes 4 b.phase ++ leBytes 2 b.arrived ++ leBytes 2 b.expect

theorem bytes_barrier_length (b : Barrier) : b.bytes.length = 8 := by simp [Barrier.bytes]

theorem barrier_putMem (s : State) (pa : Nat) {b : Barrier} (hb : b.Fits) : (s.putMem (pa + 8) b.bytes).barrier pa = b := by
  obtain ⟨he, ha, hp⟩ := hb
  have h16 : 256 ^ 2 = 2 ^ 16 := rfl
  have h32 : 256 ^ 4 = 2 ^ 32 := rfl
  have hphase : (s.putMem (pa + 8) b.bytes).memNat (pa + 8) 4 = b.phase := by
    have h := memNat_putMem_part s (pa + 8) [] (leBytes 4 b.phase) (leBytes 2 b.arrived ++ leBytes 2 b.expect)
    rw [leBytes_length, leNat_leBytes, h32, Nat.mod_eq_of_lt hp, List.nil_append, ← List.append_assoc] at h
    exact h
  have harrived : (s.putMem (pa + 8) b.bytes).memNat (pa + 12) 2 = b.arrived := by
    have h := memNat_putMem_part s (pa + 8) (leBytes 4 b.phase) (leBytes 2 b.arrived) (leBytes 2 b.expect)
    rwa [leBytes_length, leBytes_length, leNat_leBytes, h16, Nat.mod_eq_of_lt ha] at h
  have hexpect : (s.putMem (pa + 8) b.bytes).memNat (pa + 14) 2 = b.expect := by
    have h := memNat_putMem_part s (pa + 8) (leBytes 4 b.phase ++ leBytes 2 b.arrived) (leBytes 2 b.expect) []
    rwa [List.length_append, leBytes_length, leBytes_length, leBytes_length, leNat_leBytes, h16, Nat.mod_eq_of_lt he, List.append_nil] at h
  simp only [State.barrier, hphase, harrived, hexpect]

/-- A write of an object's words where no error stands. -/
theorem writeObj_quiet {s : State} (h : s.plainMem) (task pa off : Nat) (bs : List Byte) :
    ∃ p o, s.writeObj task pa off bs = { s.putMem (pa + off) bs with parity := p, objs := o } := by
  obtain ⟨p, hp⟩ := performMem_quiet h.sound 0 task (pa + off) bs none none
  unfold State.writeObj
  extract_lets sound u
  split
  · exact ⟨p, smSet 0 u.objs pa (u.objNow pa), by rw [show u = _ from hp]⟩
  · exact ⟨p, s.objs, hp⟩

theorem setBarrier_quiet {s : State} (h : s.plainMem) (pa : Nat) (b : Barrier) :
    ∃ p o, s.setBarrier pa b = { s.putMem (pa + 8) b.bytes with parity := p, objs := o } := writeObj_quiet h 0 pa 8 b.bytes

/-! ### Arrivals (R213) -/

/-- The barrier after an arrival: the last one ends the phase. -/
def Barrier.arrive (b : Barrier) : Barrier :=
  if b.arrived + 1 = b.expect then { b with arrived := 0, phase := (b.phase + 1) % 2 ^ 32 } else { b with arrived := (b.arrived + 1) % 2 ^ 16 }

theorem arrive_fits {b : Barrier} (h : b.Fits) : b.arrive.Fits := by
  obtain ⟨he, ha, hp⟩ := h
  unfold Barrier.arrive
  split
  · exact ⟨he, Nat.two_pow_pos 16, Nat.mod_lt _ (by decide)⟩
  · exact ⟨he, Nat.mod_lt _ (by decide), hp⟩

/-- The machine after an arrival through slot `k`. -/
def State.arrived (s : State) (pa k : Nat) (sl : SyncSlot) (p : List Parity) (o : SMap Nat) : State :=
  { (s.setSt { s.st with sync := smPut s.st.sync k { sl with phase := BitVec.ofNat 32 (s.barrier pa).phase } }).putMem (pa + 8)
      (s.barrier pa).arrive.bytes with parity := p, objs := o }

theorem arriveAt_quiet {s : State} (h : s.plainMem) (pa k : Nat) (sl : SyncSlot) : ∃ p o, s.arriveAt pa k sl = s.arrived pa k sl p o :=
  setBarrier_quiet (s := s.setSt { s.st with sync := smPut s.st.sync k { sl with phase := BitVec.ofNat 32 (s.barrier pa).phase } }) h pa
    (s.barrier pa).arrive

/-- RELSEQ is no part of the barrier. -/
theorem barrier_counted (s : State) (pa : Nat) (p : List Parity) : (s.counted pa p).barrier pa = s.barrier pa := by
  have hmem : (s.counted pa p).mem = (s.putMem pa (leBytes 8 ((s.memNat pa 8 + 1) % 2 ^ 64))).mem := rfl
  have hother (x n : Nat) (hx : pa + 8 ≤ x) : (s.counted pa p).memNat x n = s.memNat x n :=
    (memNat_of_mem hmem x n).trans (memNat_putMem_other (.inr (by rw [leBytes_length]; exact hx)))
  simp only [State.barrier, hother _ _ (show pa + 8 ≤ pa + 14 by omega), hother _ _ (show pa + 8 ≤ pa + 12 by omega), hother _ _ (Nat.le_refl _)]

/-! ### ACQ and WAITB (R209, R214) -/

section
variable {s u : State} {d a b : BitVec 6} {k : BitVec 3} {pa : Nat} (h : s.objectAt (s.rs a) .rd pa u) (ha : s.st.acq = none)
include h ha

theorem exec_acq_found : exec (.acq d a b k) s = .next (
    if b ≠ 0 ∧ 2 ^ 63 ≤ (BitVec.ofNat 64 (u.memNat pa 8) - s.rs b).toNat then u.setSt { u.st with blocked := 1 }
    else ((u.acquireRanges (u.boundRegions pa)).modSt ({ · with acq := none })).boardS d.toNat (BitVec.ofNat 64 (u.memNat pa 8))) := by
  have hf := found_of_objectAt h
  have hb : u.rs b = s.rs b := by rw [State.rs, State.rs, hf.st]
  rw [exec_acq, execAcq, ha]
  dsimp only
  rw [withObject_found h, acquire_unbound hf.unbound, hb]
  refine congrArg Host.Outcome.next (if_congr ?_ rfl rfl)
  simp

theorem exec_waitb_found : exec (.waitb d a b k) s = .next (
    let ahead := (BitVec.ofNat 32 (u.barrier pa).phase - (s.rs b).setWidth 32).toNat
    if 1 ≤ ahead ∧ ahead < 2 ^ 31 then
      (((u.setSt { u.st with waitObj := none }).acquireRanges (u.boundRegions pa)).modSt ({ · with acq := none })).boardS d.toNat
        (BitVec.ofNat 64 (u.barrier pa).phase)
    else u.setSt { u.st with waitObj := some pa, blocked := 3 }) := by
  have hf := found_of_objectAt h
  have hb : u.rs b = s.rs b := by rw [State.rs, State.rs, hf.st]
  have hfree : (u.setSt { u.st with waitObj := none }).unbound := by
    intro p hp
    rw [st_setSt] at hp
    exact hf.unbound p hp
  have hwait : (u.setSt { u.st with waitObj := some pa }).wait 3 = u.setSt { u.st with waitObj := some pa, blocked := 3 } := by
    simp only [State.wait, State.modSt, st_setSt, setSt_setSt]
  rw [exec_waitb, execWaitb, ha]
  dsimp only
  rw [withObject_found h, hb]
  refine congrArg Host.Outcome.next ((if_congr ?_ (acquire_unbound hfree ..) hwait))
  simp

end

/-! ### REL and ARV (R79, R213) -/

section
variable {s u : State} {d a b : BitVec 6} {k : BitVec 3} {pa : Nat} (h : s.objectAt (s.rs a) .wr pa u) (hc : s.commitsNow)
include h hc

theorem exec_rel_found : ∃ p, exec (.rel d a b k) s = .next ((u.counted pa p).boardS d.toNat (BitVec.ofNat 64 (u.memNat pa 8 + 1))).committed := by
  have hf := found_of_objectAt h
  obtain ⟨p, hp⟩ := release_quiet hf.plain hf.unbound (u.rs a) pa k fun s v => (s.boardS d.toNat v).committed
  refine ⟨p, ?_⟩
  rw [exec_rel, execRel, commit_now hc, withObject_found h, hp]
  rfl

theorem exec_arv_refused (hslot : ∀ j sl, u.st.slotOf (s.rs a) = some (j, sl) → sl.phase.toNat = (u.barrier pa).phase) :
    exec (.arv d a b k) s = .next (u.raise (7, 0x33) (s.rs a)) := by
  rw [exec_arv, execArv, commit_now hc, withObject_found h]
  cases hfind : u.st.slotOf (s.rs a) with
  | none => rfl
  | some q =>
    obtain ⟨j, sl⟩ := q
    exact congrArg Host.Outcome.next (if_pos (hslot j sl hfind))

theorem exec_arv_found {j : Nat} {sl : SyncSlot} (hslot : u.st.slotOf (s.rs a) = some (j, sl)) (hphase : sl.phase.toNat ≠ (u.barrier pa).phase) :
    ∃ p q o, exec (.arv d a b k) s = .next ((((u.counted pa p).arrived pa j sl q o).boardS d.toNat
      (BitVec.ofNat 64 (u.barrier pa).phase)).committed) := by
  have hf := found_of_objectAt h
  obtain ⟨p, hp⟩ := release_quiet hf.plain hf.unbound (s.rs a) pa k fun s _ =>
    ((s.arriveAt pa j sl).boardS d.toNat (BitVec.ofNat 64 (s.barrier pa).phase)).committed
  obtain ⟨q, o, harrive⟩ := arriveAt_quiet (s := u.counted pa p) hf.plain pa j sl
  rw [harrive, barrier_counted] at hp
  refine ⟨p, q, o, ?_⟩
  rw [exec_arv, execArv, commit_now hc, withObject_found h]
  dsimp only
  rw [hslot]
  dsimp only
  rw [if_neg hphase, hp]
  rfl

end

/-! ### The obligation -/

theorem arrived_fields (s : State) (pa k : Nat) (sl : SyncSlot) (p : List Parity) (o : SMap Nat) :
    (s.arrived pa k sl p o).barrier pa = (s.barrier pa).arrive ∧
    smFind (s.arrived pa k sl p o).st.sync k = some { sl with phase := BitVec.ofNat 32 (s.barrier pa).phase } ∧
    (∀ x, x < pa + 8 ∨ pa + 16 ≤ x → (s.arrived pa k sl p o).memByte x = s.memByte x) ∧
    (s.arrived pa k sl p o).memNat pa 8 = s.memNat pa 8 := by
  have hmem : (s.arrived pa k sl p o).mem = (s.putMem (pa + 8) (s.barrier pa).arrive.bytes).mem := rfl
  refine ⟨(barrier_of_mem hmem pa).trans (barrier_putMem _ _ (arrive_fits (barrier_fits ..))), ?_, fun x hx => ?_, ?_⟩
  · have hst : (s.arrived pa k sl p o).st = { s.st with sync := smPut s.st.sync k { sl with phase := BitVec.ofNat 32 (s.barrier pa).phase } } :=
      st_setSt ..
    rw [hst, smFind_smPut, if_pos rfl]
  · exact (memByte_of_mem hmem x).trans (memByte_putMem_other (by rw [bytes_barrier_length]; omega))
  · exact (memNat_of_mem hmem pa 8).trans (memNat_putMem_other (.inl (Nat.le_refl _)))

theorem counted_fields (s : State) (pa : Nat) (p : List Parity) :
    (s.counted pa p).memNat pa 8 = (s.memNat pa 8 + 1) % 2 ^ 64 ∧
    ∀ x, x < pa ∨ pa + 8 ≤ x → (s.counted pa p).memByte x = s.memByte x := by
  have hmem : (s.counted pa p).mem = (s.putMemNat pa 8 ((s.memNat pa 8 + 1) % 2 ^ 64)).mem := rfl
  refine ⟨(memNat_of_mem hmem pa 8).trans ?_, fun x hx => (memByte_of_mem hmem x).trans (memByte_putMem_other (by rw [leBytes_length]; exact hx))⟩
  rw [memNat_putMemNat, show 256 ^ 8 = 2 ^ 64 from rfl, Nat.mod_mod]

theorem boards_boardS (s : State) (d : Nat) (v : Word) : Boards s (s.boardS d v) (.s d) (v.setWidth 256) := ⟨_, rfl, rfl, rfl, rfl, rfl⟩

theorem setWidth_ofNat64 (n : Nat) : (BitVec.ofNat 64 n).setWidth 256 = BitVec.ofNat 256 (n % 2 ^ 64) := by
  apply BitVec.eq_of_toNat_eq
  simp

/-- What a value boarded by an instruction that then commits leaves. -/
theorem boardS_committed_fields (s : State) (d : Nat) (v : Word) :
    ((s.boardS d v).committed).mem = s.mem ∧ ((s.boardS d v).committed).st.sync = s.st.sync ∧
    ((s.boardS d v).committed).st.board.getLast?.map (fun e => (e.dst, e.val)) = some (.s d, some (v.setWidth 256)) := by
  have hst : (s.boardS d v).committed.st = (s.boardS d v).st.commitClose := st_setSt ..
  have hboard : (s.boardS d v).st = { s.st with board := s.st.board ++
      [{ dst := .s d, val := some (v.setWidth 256), seq := s.st.seq, rid := s.st.curRid }] } := st_setSt ..
  refine ⟨rfl, ?_, ?_⟩
  · rw [hst, hboard]
    rfl
  · rw [hst, hboard]
    show (List.getLast? (s.st.board ++ _)).map _ = _
    rw [List.getLast?_concat]
    rfl

/-- Settles O17: without bound copies nothing is fetched or written back, so an acquire ends at once and a release counts at once. -/
theorem acquiresAndReleases : Obligations.AcquiresAndReleases := by
  unfold Obligations.AcquiresAndReleases
  refine ⟨fun s u d a b k pa h ha => ?_, fun s u d a b k pa h hc => ?_⟩
  · intro acquired v p ahead
    have hacq := exec_acq_found (d := d) (b := b) (k := k) h ha
    have hwaitb := exec_waitb_found (d := d) (b := b) (k := k) h ha
    refine ⟨fun hpassed => ?_, fun hb hlate => ?_, fun h1 h31 => ⟨_, ?_, ?_, rfl⟩, fun hlate => ?_, fun w rs e c l r hl1 he hc hl hr => ?_⟩
    · rw [hacq, if_neg]
      rintro ⟨hb, hlate⟩
      exact hpassed.elim hb fun hlt => absurd hlate (not_le.mpr hlt)
    · rw [hacq, if_pos ⟨hb, hlate⟩]
    · rw [hwaitb]
      exact congrArg Host.Outcome.next (if_pos ⟨h1, h31⟩)
    · simp only [State.boardS, State.modSt, st_setSt, acquired, acquireRanges_st]
      rfl
    · rw [hwaitb]
      refine congrArg Host.Outcome.next (if_neg ?_)
      rintro ⟨h1, h31⟩
      change 1 ≤ ahead at h1
      change ahead < 2 ^ 31 at h31
      omega
    · rw [acquireRanges_st] at he
      obtain ⟨q, -, rfl⟩ := List.mem_map.mp he
      exact filled_acquired hc hl hr
  · intro q r
    refine ⟨?_, fun j sl hslot hphase => ?_, fun j sl hslot hphase => ?_, fun hnone => ?_⟩
    · obtain ⟨p, hp⟩ := exec_rel_found (d := d) (b := b) (k := k) h hc
      obtain ⟨hseq, hbytes⟩ := counted_fields u pa p
      have hboards := boards_boardS (u.counted pa p) d.toNat (BitVec.ofNat 64 (u.memNat pa 8 + 1))
      rw [setWidth_ofNat64] at hboards
      obtain ⟨hmem, -, -⟩ := boardS_committed_fields (u.counted pa p) d.toNat (BitVec.ofNat 64 (u.memNat pa 8 + 1))
      exact ⟨_, hp, (memNat_of_mem hmem pa 8).trans hseq, fun x hx => (memByte_of_mem hmem x).trans (hbytes x hx), _, hboards, rfl⟩
    · obtain ⟨p, y, o, hp⟩ := exec_arv_found (d := d) (b := b) (k := k) h hc hslot hphase
      obtain ⟨hseq, hbytes⟩ := counted_fields u pa p
      obtain ⟨hbar, hsync, hout, hnat⟩ := arrived_fields (u.counted pa p) pa j sl y o
      obtain ⟨hmem, hst, hboard⟩ := boardS_committed_fields ((u.counted pa p).arrived pa j sl y o) d.toNat (BitVec.ofNat 64 (u.barrier pa).phase)
      rw [barrier_counted] at hbar hsync
      have hphase : (BitVec.ofNat 64 (u.barrier pa).phase).setWidth 256 = BitVec.ofNat 256 (u.barrier pa).phase := by
        rw [setWidth_ofNat64, Nat.mod_eq_of_lt ((barrier_fits u pa).phase.trans (by decide))]
      refine ⟨_, hp, (memNat_of_mem hmem pa 8).trans (hnat.trans hseq), (barrier_of_mem hmem pa).trans hbar, hst ▸ hsync, hphase ▸ hboard,
        fun x hx => (memByte_of_mem hmem x).trans ((hout x (by omega)).trans (hbytes x (by omega)))⟩
    · exact exec_arv_refused h hc fun j' sl' hslot' => by
        obtain ⟨rfl, rfl⟩ := Prod.mk.inj (Option.some.inj (hslot.symm.trans hslot'))
        exact hphase
    · exact exec_arv_refused h hc fun j sl hslot => by rw [hnone] at hslot; cases hslot

end Sys2Proof.Machine

/-!
Bindings (O18): what BIND and UNBIND leave of an object's words and of the strand's slots.
-/
namespace Sys2Proof.Machine

/-- A BND word of an object (R78). -/
def State.bnd (s : State) (pa i : Nat) : Nat := s.memNat (pa + 32 + 8 * i) 8

theorem controlOk_iff (c : Word) : controlOk c = true ↔ c &&& 0xFFFFFFFFC00FFEE0 = 0 ∧ c.toNat % 16 ≠ 0 := by
  have h15 : c &&& 15 = 0 ↔ c.toNat % 16 = 0 := by
    rw [← BitVec.toNat_inj, BitVec.toNat_and]
    exact Eq.congr (Nat.and_two_pow_sub_one_eq_mod _ 4) rfl
  simp only [controlOk, Bool.and_eq_true, beq_iff_eq, bne_iff_ne, ne_eq, h15]

/-- Without bound copies no slot has what only an attachment can have. -/
theorem any_unbound {s : State} (h : s.unbound) {g : Nat × SyncSlot → Bool} (hg : ∀ p, p.2.att = none → g p = false) : s.st.sync.any g = false := by
  simp only [List.any_eq_false, Bool.not_eq_true]
  exact fun p hp => hg p (h p hp)

theorem bitsOf_29_20 (n : Nat) : bitsOf n 29 20 = n / 2 ^ 20 % 2 ^ 10 := rfl

/-- Sync slot `k` of the current strand is written. -/
def State.putSync (s : State) (k : Nat) (sl : SyncSlot) : State := s.modSt fun x => { x with sync := smPut x.sync k sl }

/-! ### Control words and slots that are refused (R210) -/

section
variable {s u : State} {d a b : BitVec 6} {k : BitVec 3} {pa : Nat} (h : s.objectAt (s.rs a) .wr pa u)
include h

theorem exec_bind_reserved (hbad : controlOk (s.rs d) = false) : exec (.bind d a b k) s = .next (u.raise (7, 0x30) (s.rs a)) := by
  rw [exec_bind, execBind, withObject_found h]
  simp only [hbad]
  rfl

theorem exec_unbind_reserved (hbad : controlOk (s.rs d) = false) : exec (.unbind d a b k) s = .next (u.raise (7, 0x30) (s.rs a)) := by
  rw [exec_unbind, execUnbind, withObject_found h]
  simp only [hbad]
  rfl

variable (hok : controlOk (s.rs d) = true)
include hok

theorem exec_unbind_free (hslot : smFind u.st.sync ((s.rs d).toNat % 16) = none) :
    exec (.unbind d a b k) s = .next (u.raise (7, 0x32) (s.rs a)) := by
  rw [exec_unbind, execUnbind, withObject_found h]
  simp only [hok, hslot]
  rfl

/-! ### BIND of a free slot (R211) -/

section
variable (hslot : smFind u.st.sync ((s.rs d).toNat % 16) = none)
include hslot

/-- The first free BND word. -/
def State.freeBnd (s : State) (pa : Nat) : Option Nat := (List.range 4).find? fun i => s.bnd pa i % 2 ^ 20 == 0

theorem exec_bind_register (hreg : (s.rs d).getLsbD 4 = true) (hspm : (s.rs d).getLsbD 8 = false) (hpages : (s.rs b).toNat % 2 ^ 20 = 0)
    (hexpect : (u.barrier pa).expect < 65535) : exec (.bind d a b k) s = .next
      ((u.setBarrier pa { u.barrier pa with expect := (u.barrier pa).expect + 1 }).putSync ((s.rs d).toNat % 16)
        { obj := s.rs a, pa, reg := true, phase := BitVec.ofNat 32 (u.barrier pa).phase - 1 }) := by
  have hnew := smFind_eq_none_smGet { obj := s.rs a, pa } _ _ hslot
  rw [exec_bind, execBind, withObject_found h]
  simp only [hok, hnew, hreg, hspm, hpages, beq_false_of_ne (Nat.ne_of_lt hexpect), bne_self_eq_false, Bool.false_and, Bool.not_false, Bool.not_true,
    Bool.and_true, Bool.false_eq_true, ne_eq, not_true_eq_false, if_true, if_false]
  rfl

theorem exec_bind_region (hreg : (s.rs d).getLsbD 4 = false) (hspm : (s.rs d).getLsbD 8 = false) (hpages : (s.rs b).toNat % 2 ^ 20 ≠ 0)
    (hnew : ∀ i < 4, u.bnd pa i ≠ (s.rs b).toNat) {f : Nat} (hf : u.freeBnd pa = some f) : exec (.bind d a b k) s = .next
      ((u.writeObj u.st.task pa (32 + 8 * f) (leBytes 8 (s.rs b).toNat)).putSync ((s.rs d).toNat % 16) { obj := s.rs a, pa }) := by
  have hdefault := smFind_eq_none_smGet { obj := s.rs a, pa } _ _ hslot
  have hany : ((List.range 4).any fun i => u.bnd pa i == (s.rs b).toNat) = false := by
    simp only [List.any_eq_false, List.mem_range, beq_iff_eq]
    exact hnew
  unfold State.freeBnd at hf
  unfold State.bnd at hf hany
  rw [exec_bind, execBind, withObject_found h]
  simp only [hok, hdefault, hreg, hspm, bne_iff_ne.mpr hpages, hany, hf, Option.isNone_some, Option.getD_some, Bool.false_and, Bool.not_false, Bool.not_true,
    Bool.and_true, Bool.and_false, Bool.false_eq_true, ne_eq, not_true_eq_false, if_true, if_false]
  rfl

theorem exec_bind_attach (hreg : (s.rs d).getLsbD 4 = false) (hspm : (s.rs d).getLsbD 8 = true) (hpages : (s.rs b).toNat % 2 ^ 20 ≠ 0)
    (hold : ∃ i < 4, u.bnd pa i = (s.rs b).toNat)
    (hwin : u.st.inWindow (bitsOf (s.rs d).toNat 29 20 * 4096) ((s.rs b).toNat % 2 ^ 20 * 4096) = true) : exec (.bind d a b k) s = .next
      (u.putSync ((s.rs d).toNat % 16) { obj := s.rs a, pa, att := some {
        base := bitsOf (s.rs d).toNat 29 20 * 4096, pages := (s.rs b).toNat % 2 ^ 20, va := (s.rs b).toNat / 2 ^ 20 * 4096 } }) := by
  have hf := found_of_objectAt h
  have hdefault := smFind_eq_none_smGet { obj := s.rs a, pa } _ _ hslot
  have hany : ((List.range 4).any fun i => u.bnd pa i == (s.rs b).toNat) = true := by
    simpa only [List.any_eq_true, List.mem_range, beq_iff_eq] using hold
  have hclear {g : Nat × SyncSlot → Bool} (hg : ∀ p, p.2.att = none → g p = false) : ¬ (true && (false || u.st.sync.any g)) = true := by
    rw [any_unbound hf.unbound hg]
    decide
  unfold State.bnd at hany
  rw [exec_bind, execBind, withObject_found h]
  simp only [hok, hdefault, hreg, hspm, beq_false_of_ne hpages, hany, hwin, Bool.false_and, Bool.not_true,
    Bool.and_false, Bool.false_eq_true, ne_eq, not_true_eq_false, if_false]
  exact congrArg Host.Outcome.next (if_neg (hclear fun p hp => by simp only [hp, Bool.and_false]))

end

/-! ### UNBIND of a participant (R212) -/

theorem exec_unbind_participant {sl : SyncSlot} (hslot : smFind u.st.sync ((s.rs d).toNat % 16) = some sl) (hobj : sl.obj = s.rs a)
    (hpart : sl.reg = true) (hreg : (s.rs d).getLsbD 4 = true) (hpages : (s.rs b).toNat % 2 ^ 20 = 0) :
    exec (.unbind d a b k) s = .next ((u.setBarrier pa (deregister (u.barrier pa) sl.phase.toNat)).modSt fun x => { x with
      sync := smDel x.sync ((s.rs d).toNat % 16) }) := by
  have hf := found_of_objectAt h
  have hatt : sl.att = none := hf.unbound _ (mem_of_smFind hslot)
  rw [exec_unbind, execUnbind, withObject_found h]
  simp only [hok, hslot, hobj, hatt, hreg, hpart, hpages, Bool.and_self, Bool.not_true, Bool.false_eq_true, ne_eq, not_true_eq_false, if_true, if_false]
  rfl

end

/-! ### The words of an object -/

/-- An object with its barrier written. -/
theorem setBarrier_fields {s : State} (h : s.plainMem) (pa : Nat) {b : Barrier} (hb : b.Fits) :
    (s.setBarrier pa b).barrier pa = b ∧ (∀ i, (s.setBarrier pa b).bnd pa i = s.bnd pa i) ∧ (s.setBarrier pa b).st = s.st := by
  obtain ⟨p, o, hset⟩ := setBarrier_quiet h pa b
  have hmem : (s.setBarrier pa b).mem = (s.putMem (pa + 8) b.bytes).mem := by rw [hset]
  refine ⟨(barrier_of_mem hmem pa).trans (barrier_putMem _ _ hb), fun i => ?_, by rw [hset]; rfl⟩
  exact (memNat_of_mem hmem _ _).trans (memNat_putMem_other (.inr (by rw [bytes_barrier_length]; omega)))

/-- An object with one BND word written. -/
theorem writeBnd_fields {s : State} (h : s.plainMem) (task pa f : Nat) {w : Nat} (hw : w < 2 ^ 64) :
    let t := s.writeObj task pa (32 + 8 * f) (leBytes 8 w)
    t.barrier pa = s.barrier pa ∧ (∀ i, t.bnd pa i = if i = f then w else s.bnd pa i) ∧ t.st = s.st := by
  intro t
  obtain ⟨p, o, hset⟩ := writeObj_quiet h task pa (32 + 8 * f) (leBytes 8 w)
  have hmem : t.mem = (s.putMemNat (pa + (32 + 8 * f)) 8 w).mem := by rw [show t = _ from hset]; rfl
  have hother (x n : Nat) (hx : x + n ≤ pa + (32 + 8 * f) ∨ pa + (32 + 8 * f) + 8 ≤ x) : t.memNat x n = s.memNat x n :=
    (memNat_of_mem hmem x n).trans (memNat_putMem_other (by rw [leBytes_length]; exact hx))
  refine ⟨?_, fun i => ?_, by rw [show t = _ from hset]; rfl⟩
  · simp only [State.barrier, hother _ _ (show pa + 14 + 2 ≤ _ ∨ _ from .inl (by omega)), hother _ _ (show pa + 12 + 2 ≤ _ ∨ _ from .inl (by omega)),
      hother _ _ (show pa + 8 + 4 ≤ _ ∨ _ from .inl (by omega))]
  · by_cases hi : i = f
    · subst hi
      rw [if_pos rfl, State.bnd, Nat.add_assoc, memNat_of_mem hmem, memNat_putMemNat]
      exact Nat.mod_eq_of_lt hw
    · rw [if_neg hi]
      exact hother _ _ (by omega)

theorem putSync_fields (s : State) (k : Nat) (sl : SyncSlot) : (s.putSync k sl).mem = s.mem ∧ smFind (s.putSync k sl).st.sync k = some sl := by
  refine ⟨rfl, ?_⟩
  rw [State.putSync, State.modSt, st_setSt, smFind_smPut, if_pos rfl]

/-- A participant that leaves before the phase ends with it, or ends it. -/
theorem deregister_of_fits {b : Barrier} (hb : b.Fits) {phase x y : Nat} (hexpect : 0 < b.expect) (harrived : phase = b.phase → 0 < b.arrived)
    (hx : x = b.expect - 1) (hy : y = if phase = b.phase then b.arrived - 1 else b.arrived) : deregister b phase =
      if 0 < x ∧ y = x then { expect := x, arrived := 0, phase := (b.phase + 1) % 2 ^ 32 } else { expect := x, arrived := y, phase := b.phase } := by
  obtain ⟨he, ha, -⟩ := hb
  have hx' : (b.expect + 65535) % 65536 = x := by omega
  have hy' : (if phase = b.phase then (b.arrived + 65535) % 65536 else b.arrived) = y := by
    rw [hy]
    split
    · have := harrived ‹_›
      omega
    · rfl
  simp only [deregister, hx', hy', Bool.and_eq_true, decide_eq_true_eq, beq_iff_eq]

theorem deregister_fits {b : Barrier} (hb : b.Fits) (phase : Nat) : (deregister b phase).Fits := by
  obtain ⟨he, ha, hp⟩ := hb
  unfold deregister
  extract_lets e a
  have ha' : a < 2 ^ 16 := by
    dsimp only [a]
    split
    · exact Nat.mod_lt _ (by decide)
    · exact ha
  split
  · exact ⟨Nat.mod_lt _ (by decide), Nat.two_pow_pos 16, Nat.mod_lt _ (by decide)⟩
  · exact ⟨Nat.mod_lt _ (by decide), ha', hp⟩

/-- The first free word of the four. -/
theorem freeBnd_eq {s : State} {pa f : Nat} (hf : f < 4) (hfree : s.bnd pa f % 2 ^ 20 = 0) (hused : ∀ i < f, s.bnd pa i % 2 ^ 20 ≠ 0) :
    s.freeBnd pa = some f := by
  refine List.find?_range_eq_some.mpr ⟨by simpa using hfree, by simpa using hf, fun i hi => ?_⟩
  simpa using hused i hi

/-- Settles O18: BIND of a free slot writes what its control word asks for, and UNBIND of a participant takes it off the barrier. -/
theorem bindings : Obligations.Bindings := by
  unfold Obligations.Bindings
  intro s u d a b k pa h c w j r range base pages
  have hf := found_of_objectAt h
  have hfits := barrier_fits u pa
  refine ⟨fun hbad => ?_, fun hmask hj hslot => ?_, fun sl hmask hj hslot hobj hpart hreg hspm hpages hexpect harrived => ?_⟩
  · have hno : controlOk (s.rs d) = false := by
      rw [← Bool.not_eq_true, controlOk_iff]
      rintro ⟨hmask, hj⟩
      exact hbad.elim (absurd hmask) (absurd · hj)
    exact ⟨exec_bind_reserved h hno, exec_unbind_reserved h hno⟩
  · have hok : controlOk (s.rs d) = true := (controlOk_iff _).mpr ⟨hmask, hj⟩
    refine ⟨fun hreg hspm hpages hexpect => ?_, fun hreg hspm hpages f hlt hnew hfree hused => ?_, fun hreg hspm hpages hold hwin => ?_,
      exec_unbind_free h hok hslot⟩
    · have hfit : ({ r with expect := r.expect + 1 } : Barrier).Fits := ⟨by dsimp only; omega, hfits.arrived, hfits.phase⟩
      obtain ⟨hbar, hbnd, -⟩ := setBarrier_fields hf.plain pa hfit
      obtain ⟨hmem, hsync⟩ := putSync_fields (u.setBarrier pa { r with expect := r.expect + 1 }) j
        { obj := s.rs a, pa, reg := true, phase := BitVec.ofNat 32 r.phase - 1 }
      exact ⟨_, exec_bind_register h hok hslot hreg hspm hpages hexpect, (barrier_of_mem hmem pa).trans hbar, hsync,
        fun i _ => (memNat_of_mem hmem _ _).trans (hbnd i)⟩
    · obtain ⟨hbar, hbnd, -⟩ := writeBnd_fields hf.plain u.st.task pa f (s.rs b).isLt
      obtain ⟨hmem, hsync⟩ := putSync_fields (u.writeObj u.st.task pa (32 + 8 * f) (leBytes 8 w)) j { obj := s.rs a, pa }
      exact ⟨_, exec_bind_region h hok hslot hreg hspm hpages hnew (freeBnd_eq hlt hfree hused), (barrier_of_mem hmem pa).trans hbar, hsync,
        fun i _ => (memNat_of_mem hmem _ _).trans (hbnd i)⟩
    · obtain ⟨hmem, hsync⟩ := putSync_fields u j { obj := s.rs a, pa, att := some { base, pages, va := w / 2 ^ 20 * 4096 } }
      exact ⟨_, exec_bind_attach h hok hslot hreg hspm hpages hold hwin, hmem, hsync⟩
  · intro x y
    have hok : controlOk (s.rs d) = true := (controlOk_iff _).mpr ⟨hmask, hj⟩
    obtain ⟨hbar, -, hst⟩ := setBarrier_fields hf.plain pa (deregister_fits hfits sl.phase.toNat)
    refine ⟨_, exec_unbind_participant h hok hslot hobj hpart hreg hpages, ?_, ?_⟩
    · rw [State.modSt, st_setSt, hst, smFind_smDel, if_pos rfl]
    · have hmem : ((u.setBarrier pa (deregister (u.barrier pa) sl.phase.toNat)).modSt fun x => { x with sync := smDel x.sync j }).mem =
          (u.setBarrier pa (deregister (u.barrier pa) sl.phase.toNat)).mem := rfl
      exact (barrier_of_mem hmem pa).trans (hbar.trans (deregister_of_fits hfits hexpect harrived (x := x) (y := y) rfl rfl))

end Sys2Proof.Machine

/-!
FENCE and DRAIN (O19): the stores that are performed where no error stands in memory, and what the strand then waits for.
-/
namespace Sys2Proof.Machine

/-! ### Stores performed where no error stands (R73) -/

theorem soundMem_performStore {s : State} (h : s.soundMem) (x : Store) : (s.performStore x).soundMem ∧
    (s.performStore x).mem = if isHostRange x.pa then s.mem else memPut s.mem x.pa x.bytes := by
  unfold State.performStore
  split
  · have hframe := hostPost_frame s (s.tenantOf x.core) x.pa x.bytes []
    generalize s.hostPost (s.tenantOf x.core) x.pa x.bytes = t at hframe
    rw [show t = { s with fns := t.fns, out := t.out } from hframe]
    exact ⟨h, rfl⟩
  · obtain ⟨p, hp⟩ := performMem_quiet h (s.tenantOf x.core) 0 x.pa x.bytes (some x.core) (some x.strand)
    rw [hp]
    exact ⟨h, rfl⟩

/-- `t` is `s` after the stores `l` have been gone through, of which those with `p` have been performed. -/
structure StoresDone (s : State) (p : Store → Bool) (l : List Store) (t : State) : Prop where
  sound : t.soundMem
  mem : t.mem = (l.filter fun x => p x && !isHostRange x.pa).foldl (fun m x => memPut m x.pa x.bytes) s.mem
  stores : t.stores = s.stores ++ l.filter fun x => !p x
  frame : t = { s with mem := t.mem, memSyn := t.memSyn, poison := t.poison, parity := t.parity, l2inj := t.l2inj, dies := t.dies,
                       fresh := t.fresh, fns := t.fns, out := t.out, stores := t.stores }

/-- One store more. -/
theorem StoresDone.snoc {s t : State} {p : Store → Bool} {l : List Store} (h : StoresDone s p l t) (x : Store) :
    StoresDone s p (l ++ [x]) (if p x && !(t.held.contains (x.pa / 128)) then t.performStore x else { t with stores := t.stores ++ [x] }) := by
  obtain ⟨hsound, hmem, hstores, hframe⟩ := h
  have hheld : t.held.contains (x.pa / 128) = false := by rw [hsound.1]; rfl
  rw [hheld, Bool.not_false, Bool.and_true]
  by_cases hp : p x = true
  · rw [if_pos hp]
    obtain ⟨hsound', hmem'⟩ := soundMem_performStore hsound x
    have hx := performStore_frame t x
    refine ⟨hsound', ?_, ?_, ?_⟩
    · rw [hmem', hmem, List.filter_append, List.foldl_append]
      by_cases hhost : isHostRange x.pa = true
      · simp [hhost, hp]
      · simp [hhost, hp]
    · rw [hx.stores, hstores, List.filter_append]
      simp [hp]
    · generalize t.performStore x = u at hx
      rw [MemoryDiffers] at hx
      rw [hx]
      clear hx hmem' hsound'
      rw [hframe]
  · rw [if_neg hp]
    refine ⟨hsound, ?_, ?_, ?_⟩
    · rw [List.filter_append, List.foldl_append, ← hmem]
      simp [hp]
    · dsimp only
      rw [hstores, List.filter_append, List.append_assoc]
      simp [hp]
    · rw [hframe]

theorem storesDone_foldl {s : State} (h : s.soundMem) (p : Store → Bool) (l : List Store) : StoresDone s p l (l.foldl (fun t x =>
    if p x && !(t.held.contains (x.pa / 128)) then t.performStore x else { t with stores := t.stores ++ [x] }) s) := by
  induction l using List.reverseRecOn with
  | nil => exact ⟨h, rfl, (List.append_nil _).symm, rfl⟩
  | append_singleton l x ih =>
    rw [List.foldl_append]
    exact ih.snoc x

/-- The stores with `p` are performed, and the others stay. -/
theorem performWhere_sound {s : State} (h : s.soundMem) (p : Store → Bool) : StoresDone { s with stores := [] } p s.stores (s.performWhere p) := by
  unfold State.performWhere
  split
  · rename_i hnone
    rw [List.isEmpty_iff] at hnone
    rw [hnone]
    exact ⟨h, rfl, hnone, rfl⟩
  · exact storesDone_foldl (s := { s with stores := [] }) h p s.stores

/-! ### FENCE (R83, R216) -/

/-- The strand waits for a load that has not been answered. -/
def Board.pends (b : Board) : Bool := b.req != 0 && b.val.isNone

section
variable {s : State} (h : s.soundMem)
include h

/-- The machine when the strand's stores have been performed. -/
def State.fenced (s : State) : State := s.performWhere fun x => x.strand == s.cur

theorem fenced_fields : StoresDone { s with stores := [] } (fun x => x.strand == s.cur) s.stores s.fenced ∧ s.fenced.strands = s.strands ∧
    s.fenced.cur = s.cur ∧ s.fenced.posted = s.posted ∧ s.fenced.node = s.node ∧ s.fenced.scalarPosted s.cur = s.scalarPosted s.cur := by
  have hdone := performWhere_sound h fun x => x.strand == s.cur
  have hframe := hdone.frame
  exact ⟨hdone, (congrArg State.strands hframe).trans rfl, (congrArg State.cur hframe).trans rfl, (congrArg State.posted hframe).trans rfl,
    (congrArg State.node hframe).trans rfl, (congrArg (State.scalarPosted · s.cur) hframe).trans rfl⟩

/-- No write to another package, nor one within this one, is to be performed here: the fence performs stores alone. -/
theorem exec_fence_of (hremote : ∀ p ∈ s.posted, p.pa / 2 ^ 46 ≠ s.node) (k : BitVec 3) : exec (.fence k) s = .next
    (if ((s.scalarPosted s.cur).map (·.id) ++ s.st.board.filterMap fun b => if b.pends then some b.req else none).isEmpty then s.fenced
      else s.fenced.wait 7) := by
  obtain ⟨hdone, hstrands, hcur, hposted, hnode, hscalar⟩ := fenced_fields h
  have hown : s.fenced.stores.filter (·.strand == s.cur) = [] := by
    rw [hdone.stores, List.filter_eq_nil_iff]
    simp
  have hnone : (s.scalarPosted s.cur).filter (fun p => p.pa / 2 ^ 46 == s.node) = [] := by
    rw [ List.filter_eq_nil_iff]
    intro p hp
    simpa using hremote p (List.mem_filter.mp hp).1
  have hboard : (s.fenced.strandAt s.cur).board = s.st.board := by rw [State.strandAt, hstrands]; rfl
  have hearlier : s.earlier s.cur = (s.fenced, (s.scalarPosted s.cur).map (·.id) ++
      s.st.board.filterMap fun b => if b.pends then some b.req else none) := by
    have hdef : (s.performWhere fun x => x.strand == s.cur) = s.fenced := rfl
    simp only [State.earlier, hdef, hscalar, hnode, hnone, List.foldl_nil, hown, hboard]
    rfl
  rw [exec_fence, execFence, hearlier]
  rfl

theorem exec_fence_waits (hremote : ∀ p ∈ s.posted, p.pa / 2 ^ 46 ≠ s.node)
    (hleft : (∃ p ∈ s.posted, p.strand = s.cur ∧ s.entryOfPosted p = none) ∨ ∃ b ∈ s.st.board, b.req ≠ 0 ∧ b.val = none) (k : BitVec 3) :
    ∃ t, exec (.fence k) s = .next t ∧ t.st.blocked = 7 := by
  refine ⟨_, (exec_fence_of h hremote k).trans (congrArg Host.Outcome.next (if_neg ?_)), ?_⟩
  · rw [List.isEmpty_iff, List.append_eq_nil_iff, List.map_eq_nil_iff, List.filterMap_eq_nil_iff]
    rintro ⟨hposted, hboard⟩
    rcases hleft with ⟨p, hp, hstrand, hentry⟩ | ⟨b, hb, hreq, hval⟩
    · refine List.filter_eq_nil_iff.mp hposted p hp ?_
      simp [hstrand, hentry]
    · have := hboard b hb
      simp [Board.pends, hreq, hval] at this
  · rw [State.wait, State.modSt, st_setSt]

end

/-! ### DRAIN (R85, R217, R512) -/

theorem completeWhere_eq (s : State) (p : Parity → Bool) : ∃ q, s.completeWhere p = { s with parity := q } := by
  unfold State.completeWhere
  split
  · exact ⟨s.parity, rfl⟩
  · exact ⟨_, rfl⟩

/-- The machine when a DRAIN has ended; `q` is what is left of the parity updates. -/
def State.drained (s : State) (p : BitVec 3) (q : List Parity) : State :=
  (if p = 3 ∨ p = 5 then ({ s with parity := q } : State).settleOwner s.cur else { s with parity := q }).modSt fun x =>
    { x with drain := none, unseen := x.unseen.map (drainSeen p.toNat) }

/-- DRAIN with no store and no posted write on its way: parity updates complete, and the strand waits for the transfers that are left. -/
theorem exec_drain_of {s : State} (hs : s.stores = []) (hp : s.posted = []) (hd : s.st.drain = none) (p : BitVec 3) :
    ∃ q, exec (.drain p) s = .next (if ((s.drainSet p.toNat).filter s.drainLeft).isEmpty then s.drained p q
      else (({ s with parity := q } : State).modSt ({ · with drain := some ((s.drainSet p.toNat).filter s.drainLeft) })).wait 1) := by
  obtain ⟨q, hq⟩ : ∃ q, (if (p = 1 || p = 3 || p = 5) = true then s.completeWhere fun x => x.core == some s.curCore else s) = { s with parity := q } := by
    split
    · exact completeWhere_eq ..
    · exact ⟨s.parity, rfl⟩
  refine ⟨q, ?_⟩
  have hposted : ({ s with parity := q } : State).posted = [] := hp
  have hleft : ({ s with parity := q } : State).drainLeft = s.drainLeft := rfl
  have hcur : ({ s with parity := q } : State).cur = s.cur := rfl
  rw [exec_drain, execDrain, hd, State.drained]
  generalize ({ s with parity := q } : State) = u at hq hposted hleft hcur ⊢
  simp only [performWhere_of_stores_nil hs, hq, hposted, hleft, hcur, List.filter_nil, List.foldl_nil, Option.getD_none]
  simp only [Bool.or_eq_true, decide_eq_true_eq]
  rfl

/-- Once a strand's writes of the owner table have settled, no check uses what one of them replaced. -/
theorem writer_settleOwner {s : State} {n : Nat} {o : OldOwner} (ho : o ∈ (s.settleOwner n).ownerOld) : o.writer ≠ .strand n := by
  obtain ⟨⟨o', k⟩, hmem, rfl⟩ := List.mem_map.mp ho
  obtain ⟨hzip, hlast⟩ := List.mem_filter.mp hmem
  have hk : s.ownerOld[k]? = some o' := List.mk_mem_zipIdx_iff_getElem?.mp hzip
  intro hwriter
  simp only [Bool.not_eq_true', List.any_eq_false, Bool.and_eq_true, beq_iff_eq, not_and] at hlast
  have hself : o' ∈ s.ownerOld.drop k := List.mem_of_getElem? (i := 0) (by rw [List.getElem?_drop]; exact hk)
  exact hlast o' hself rfl hwriter

/-- A stash entry of the strand is a transfer of the stash path that is outstanding. -/
theorem stash_drains {s : State} {e : Entry} (he : e ∈ smGet [] s.st.queues 4) {p : BitVec 3} (hp : p = 4 ∨ p = 5) :
    (s.cur * 8 + 4, e.seq) ∈ (s.drainSet p.toNat).filter s.drainLeft := by
  have hslot : s.cur ∈ (List.range Config.slots).map fun k => s.curCore * Config.slots + k :=
    List.mem_map.mpr ⟨s.cur % 4, List.mem_range.mpr (Nat.mod_lt _ (by decide)), Nat.div_add_mod' s.cur 4⟩
  have hstash : (s.cur * 8 + 4, e.seq) ∈ ((List.range Config.slots).map fun k => s.curCore * Config.slots + k).flatMap fun n =>
      (smGet [] (s.strandAt n).queues 4).map fun e => (n * 8 + 4, e.seq) :=
    List.mem_flatMap.mpr ⟨s.cur, hslot, List.mem_map.mpr ⟨e, he, rfl⟩⟩
  have hpath : (p.toNat = 4 || p.toNat = 5) = true := by
    rcases hp with rfl | rfl <;> rfl
  refine List.mem_filter.mpr ⟨?_, ?_⟩
  · unfold State.drainSet
    simp only [hpath, if_true, List.mem_append]
    exact .inl (.inr hstash)
  · have h1 : (s.cur * 8 + 4) / 8 = s.cur := by omega
    have h2 : (s.cur * 8 + 4) % 8 = 4 := by omega
    have hqueue : (smGet [] (s.strandAt s.cur).queues 4).any (·.seq == e.seq) = true := List.any_eq_true.mpr ⟨e, he, beq_self_eq_true _⟩
    rw [State.drainLeft, if_neg (by dsimp only; omega), if_neg (by dsimp only; omega), if_neg (by dsimp only; omega), h1, h2]
    exact hqueue

/-- Settles O19: a fence performs the strand's stores and waits for what is still to be answered; a drain waits for the transfers of its
path that are left. -/
theorem fencesAndDrains : Obligations.FencesAndDrains := by
  unfold Obligations.FencesAndDrains
  refine ⟨fun s k hheld hsyn hpoison hlost hl2 => ?_, fun s p hs hp hd => ?_⟩
  · intro mine
    have h : s.soundMem := ⟨hheld, hsyn, hpoison, hlost, hl2⟩
    have hnone (hp : s.posted = []) : ∀ p ∈ s.posted, p.pa / 2 ^ 46 ≠ s.node := by simp [hp]
    refine ⟨fun hp hb => ?_, fun hleft hremote => exec_fence_waits h hremote (.inl hleft) k,
      fun hleft hp => exec_fence_waits h (hnone hp) (.inr hleft) k⟩
    obtain ⟨hdone, hstrands, -⟩ := fenced_fields h
    refine ⟨_, (exec_fence_of h (hnone hp) k).trans (congrArg Host.Outcome.next (if_pos ?_)), hdone.mem, hstrands, hdone.stores⟩
    have hboard : (s.st.board.filterMap fun b => if b.pends then some b.req else none) = [] := by
      rw [List.filterMap_eq_nil_iff]
      intro b hmem
      rcases hb b hmem with hreq | hval
      · simp [Board.pends, hreq]
      · simp [Board.pends, hval]
    rw [hboard, State.scalarPosted, hp]
    rfl
  · obtain ⟨q, hq⟩ := exec_drain_of hs hp hd p
    refine ⟨fun hnone => ?_, fun e he h45 => ?_⟩
    · rw [hnone, if_pos (by rfl)] at hq
      have hst : (s.drained p q).st = { s.st with drain := none, unseen := s.st.unseen.map (drainSeen p.toNat) } := by
        unfold State.drained
        split <;> exact st_setSt ..
      refine ⟨_, hq, (congrArg Strand.drain hst).trans rfl, fun h35 o ho => ?_, (congrArg Strand.blocked hst).trans rfl, ?_⟩
      · unfold State.drained at ho
        rw [if_pos h35] at ho
        exact writer_settleOwner (s := { s with parity := q }) ho
      · show (s.drained p q).mem = s.mem
        unfold State.drained
        split <;> rfl
    · have hmem := stash_drains he h45
      rw [if_neg (by rw [List.isEmpty_iff]; exact List.ne_nil_of_mem hmem)] at hq
      refine ⟨_, hq, ?_, ?_⟩
      · simp only [State.wait, State.modSt, st_setSt]
      · simp only [State.wait, State.modSt, st_setSt, Option.getD_some]
        exact hmem

end Sys2Proof.Machine

/-!
Engine ports (O20): what a pop leaves of the result FIFO and of the strand, and what a push gives to an engine or a launch queue.
-/
namespace Sys2Proof.Machine

/-! ### Pops (R88, R220, R221) -/

/-- `t` is `s` but for strands, and of the current strand for an acquire in progress. -/
def AcquiresEnd (s t : State) : Prop := t = { s with strands := t.strands } ∧ t.st = { s.st with acq := t.st.acq }

theorem AcquiresEnd.modStrand {s t : State} (h : AcquiresEnd s t) (m : Nat) : AcquiresEnd s (t.modStrand m ({ · with acq := none })) := by
  obtain ⟨hframe, hst⟩ := h
  have hcur : t.cur = s.cur := (congrArg State.cur hframe).trans rfl
  refine ⟨?_, ?_⟩
  · generalize t.strands = x at hframe
    rw [hframe]
    rfl
  · have hafter : (t.modStrand m ({ · with acq := none })).st = if t.cur = m then { t.strandAt m with acq := none } else t.st := strandAt_setStrand ..
    rw [hafter]
    split
    · rename_i hm
      rw [← hm, show t.strandAt t.cur = t.st from rfl, hst]
    · exact hst

/-- The acquires of a core's strands that wait in COMMIT end. -/
def State.endAcquires (s : State) (core : Nat) : State := (List.range Config.slots).foldl (fun s k =>
  if (s.strandAt (core * Config.slots + k)).commit then s.modStrand (core * Config.slots + k) ({ · with acq := none }) else s) s

theorem endAcquires_frame (s : State) (core : Nat) : AcquiresEnd s (s.endAcquires core) := by
  refine List.foldlRecOn (motive := AcquiresEnd s) _ _ ⟨rfl, rfl⟩ fun t ht k _ => ?_
  split
  · exact ht.modStrand _
  · exact ht

/-- With no sector in the L1, an acquire changes the current strand alone. -/
theorem acquireRanges_uncached {s : State} (h : (s.coreAt s.curCore).l1 = []) (rs : List (Nat × Nat)) :
    s.acquireRanges rs = s.setSt (s.st.acquired rs) := by
  rw [State.acquireRanges, h]
  rfl

/-- The machine in which an element has left its FIFO, and its acquire has ended. -/
structure Popped (s u : State) (port : Nat) : Prop where
  mem : u.mem = s.mem
  cur : u.cur = s.cur
  pc : u.st.pc = s.st.pc
  fifo : u.fifo s.curCore port = (s.fifo s.curCore port).drop 1

/-- A pop goes on from the machine `w` whose lines have been fetched again. -/
theorem popped_of_acquired {s w : State} (hmem : w.mem = s.mem) (hcur : w.cur = s.cur) (hcores : w.cores = s.cores) (hpc : w.st.pc = s.st.pc)
    (port : Nat) (e : Elem) : Popped s (((w.modSt ({ · with acq := none })).setFifo s.curCore port
      (((w.modSt ({ · with acq := none })).fifo s.curCore port).drop 1)).endAcquires s.curCore |>.modSt fun x =>
        { x with unseen := x.unseen.filter fun m => !(e.cover.any fun c => touchesRange s.curCore c.1 c.2 m.covers) }) port := by
  have hfifo : (w.modSt ({ · with acq := none })).fifo s.curCore port = s.fifo s.curCore port := by
    show smGet [] (smGet {} w.cores s.curCore).fifos port = _
    rw [hcores]
    rfl
  rw [hfifo]
  obtain ⟨hframe, hst⟩ := endAcquires_frame ((w.modSt ({ · with acq := none })).setFifo s.curCore port ((s.fifo s.curCore port).drop 1)) s.curCore
  generalize State.endAcquires _ s.curCore = t at hframe hst
  have hst' : t.st.pc = s.st.pc := by
    rw [hst]
    show ((w.modSt ({ · with acq := none }))).st.pc = _
    rw [State.modSt, st_setSt]
    exact hpc
  refine ⟨?_, ?_, ?_, ?_⟩
  · exact (congrArg State.mem hframe).trans hmem
  · exact (congrArg State.cur hframe).trans hcur
  · rw [State.modSt, st_setSt]
    exact hst'
  · show smGet [] (smGet {} t.cores s.curCore).fifos port = _
    rw [(congrArg State.cores hframe).trans rfl]
    show smGet [] (State.coreAt (State.setFifo _ s.curCore port _) s.curCore).fifos port = _
    rw [State.setFifo, State.modCore, coreAt_setCore, if_pos rfl, smGet_smSet, if_pos rfl]

theorem popElem_popped {s : State} (hl : (s.coreAt s.curCore).l1 = []) (h : s.unbound) (port : Nat) (e : Elem) (d : Nat) (f : State → State) :
    ∃ u, Popped s u port ∧ s.popElem port e d f = f (u.boardS d e.v) := by
  obtain ⟨w, hw, hmem, hcur, hcores, hpc, hfree⟩ : ∃ w, (if s.st.acq = some e then s else s.acquireRanges e.cover) = w ∧ w.mem = s.mem ∧
      w.cur = s.cur ∧ w.cores = s.cores ∧ w.st.pc = s.st.pc ∧ w.unbound := by
    split
    · exact ⟨s, rfl, rfl, rfl, rfl, rfl, h⟩
    · have hst := acquireRanges_st s e.cover
      have hb := unbound_acquireRanges h e.cover
      rw [acquireRanges_uncached hl] at hst hb ⊢
      exact ⟨_, rfl, rfl, rfl, rfl, (congrArg Strand.pc hst).trans rfl, hb⟩
  refine ⟨_, popped_of_acquired hmem hcur hcores hpc port e, ?_⟩
  rw [State.popElem, hw]
  dsimp only
  rw [State.acquireEnd, refetch_unbound hfree]
  rfl

/-! ### What a commit leaves of a popped value -/

/-- What an instruction that boards a value and writes a guard leaves. -/
theorem boardS_wg_fields (s : State) (d : Nat) (v : Word) (b : Bool) :
    ((s.boardS d v).wg 7 b).committed.mem = s.mem ∧ ((s.boardS d v).wg 7 b).committed.cores = s.cores ∧
    ((s.boardS d v).wg 7 b).committed.st.board.getLast?.map (fun e => (e.dst, e.val)) = some (.s d, some (v.setWidth 256)) ∧
    ((s.boardS d v).wg 7 b).committed.st.now.getG 7 = b ∧
    ((s.boardS d v).wg 7 b).committed.st.regions.map (fun r => (r.id, r.entry)) = [(0xFFFF, s.st.pc)] := by
  have hboard : (s.boardS d v).st = { s.st with board := s.st.board ++
      [{ dst := .s d, val := some (v.setWidth 256), seq := s.st.seq, rid := s.st.curRid }] } := st_setSt ..
  have hg : ((s.boardS d v).wg 7 b).st = (s.boardS d v).st.modNow (·.setG 7 b) := st_setSt ..
  have hst : ((s.boardS d v).wg 7 b).committed.st = ((s.boardS d v).wg 7 b).st.commitClose := st_setSt ..
  refine ⟨rfl, rfl, ?_, ?_, ?_⟩
  · rw [hst, hg, hboard]
    show (List.getLast? (s.st.board ++ _)).map _ = _
    rw [List.getLast?_concat]
    rfl
  · rw [hst, hg, (queues_commitClose _).2]
    exact (getG_setG _ 7 7 (by decide) (by decide) b).trans (if_pos ⟨rfl, by decide⟩)
  · rw [hst, regions_commitClose, hg, hboard]
    rfl

theorem regions_boardS_committed (s : State) (d : Nat) (v : Word) :
    (s.boardS d v).committed.st.regions.map (fun r => (r.id, r.entry)) = [(0xFFFF, s.st.pc)] := by
  have hboard : (s.boardS d v).st = { s.st with board := s.st.board ++
      [{ dst := .s d, val := some (v.setWidth 256), seq := s.st.seq, rid := s.st.curRid }] } := st_setSt ..
  have hst : (s.boardS d v).committed.st = (s.boardS d v).st.commitClose := st_setSt ..
  rw [hst, regions_commitClose, hboard]

section
variable {s : State} (hc : s.commitsNow) (d p : BitVec 6)
include hc

theorem exec_epop_of {e : Elem} {r : List Elem} (hl : (s.coreAt s.curCore).l1 = []) (h : s.unbound)
    (hf : s.fifo s.curCore p.toNat = e :: r) : ∃ u, Popped s u p.toNat ∧ exec (.epop d p) s = .next (u.boardS d.toNat e.v).committed := by
  obtain ⟨u, hu, hpop⟩ := popElem_popped hl h p.toNat e d.toNat State.committed
  refine ⟨u, hu, ?_⟩
  rw [exec_epop, execEpop, commit_now hc, hf]
  exact congrArg Host.Outcome.next hpop

theorem exec_epopt_of {e : Elem} {r : List Elem} (hl : (s.coreAt s.curCore).l1 = []) (h : s.unbound)
    (hf : s.fifo s.curCore p.toNat = e :: r) :
    ∃ u, Popped s u p.toNat ∧ exec (.epopt d p) s = .next ((u.boardS d.toNat e.v).wg 7 false).committed := by
  obtain ⟨u, hu, hpop⟩ := popElem_popped hl h p.toNat e d.toNat fun s => (s.wg 7 false).committed
  refine ⟨u, hu, ?_⟩
  rw [exec_epopt, execEpopt, commit_now hc, hf]
  exact congrArg Host.Outcome.next hpop

theorem exec_epop_empty (hf : s.fifo s.curCore p.toNat = []) : exec (.epop d p) s = .next (s.setSt { s.st with commit := true, blocked := 6 }) := by
  rw [exec_epop, execEpop, commit_now hc, hf]
  rfl

theorem exec_epopt_empty (hf : s.fifo s.curCore p.toNat = []) : exec (.epopt d p) s = .next ((s.boardS d.toNat 0).wg 7 true).committed := by
  rw [exec_epopt, execEpopt, commit_now hc, hf]
  rfl

/-! ### Pushes (R222, R223) -/

/-- An element that its engine admits enters the strand's input FIFO. -/
theorem exec_epush_input {a : BitVec 6} (h14 : p ≠ 0x14) (hgood : badElement p.toNat (s.rs a).toNat = false) (hs : s.stores = [])
    (hroom : (smGet [] s.st.inFifo p.toNat).length < 4) : ∃ t, exec (.epush a p) s = .next t ∧
      smGet [] t.st.inFifo p.toNat = smGet [] s.st.inFifo p.toNat ++ [s.rs a] ∧ t.mem = s.mem := by
  refine ⟨(s.modSt fun x => { x with inFifo := smSet [] x.inFifo p.toNat (smGet [] s.st.inFifo p.toNat ++ [s.rs a]) }).committed, ?_, ?_, rfl⟩
  · rw [exec_epush, execEpush, commit_now hc, if_neg h14, hgood]
    dsimp only
    rw [if_neg Bool.false_ne_true, if_neg (by omega), performWhere_of_stores_nil hs]
    rfl
  · rw [State.committed, State.modSt, st_setSt, State.modSt, st_setSt]
    show smGet [] (smSet [] s.st.inFifo p.toNat _) p.toNat = _
    rw [smGet_smSet, if_pos rfl]

theorem exec_epush_bad {a : BitVec 6} (h14 : p ≠ 0x14) (hbad : badElement p.toNat (s.rs a).toNat = true) :
    exec (.epush a p) s = .next (s.raise (7, 7) s.st.addr) := by
  rw [exec_epush, execEpush, commit_now hc, if_neg h14, hbad]
  rfl

theorem exec_epush_tail {a : BitVec 6} (hv : s.rs a &&& 0xFFFF0000FFFFFFF8 = 0) (ht : (s.lqAt ((s.rs a).toNat % 8)).tenant = s.tenantOf s.curCore)
    (hs : s.stores = []) : ∃ t, exec (.epush a 0x14) s = .next t ∧ t.mem = s.mem ∧
      ∃ e, (.lqTail, e) ∈ t.inbox ∧ e.k = (s.rs a).toNat % 8 ∧ e.v = BitVec.ofNat 64 ((s.rs a).toNat / 2 ^ 32 % 2 ^ 16) := by
  let e : Event := { agent := .strand s.cur, tenant := s.tenantOf s.curCore, k := (s.rs a).toNat % 8, n := 0x1000 * ((s.rs a).toNat % 8) + 0x18,
                     v := BitVec.ofNat 64 (bitsOf (s.rs a).toNat 47 32) }
  obtain ⟨q, hq⟩ : ∃ q, s.flushStrand = { s with parity := q } := by
    rw [State.flushStrand, performWhere_of_stores_nil hs]
    exact completeWhere_eq ..
  refine ⟨(({ s with parity := q } : State).post [(.lqTail, e)]).committed, ?_, rfl, e, ?_, rfl, rfl⟩
  · rw [exec_epush, execEpush, commit_now hc, if_pos rfl, hq]
    simp only [hv, ht, ne_eq, not_true_eq_false, decide_false, Bool.or_self, Bool.false_eq_true, if_false]
    rfl
  · exact List.mem_append_right _ (List.mem_singleton_self _)

theorem exec_epush_tail_bad {a : BitVec 6} (hv : s.rs a &&& 0xFFFF0000FFFFFFF8 ≠ 0) :
    exec (.epush a 0x14) s = .next (s.raise (7, 7) s.st.addr) := by
  rw [exec_epush, execEpush, commit_now hc, if_pos rfl]
  exact congrArg Host.Outcome.next (if_pos (Bool.or_eq_true_iff.2 (.inl (decide_eq_true hv))))

end

/-- Settles O20: a pop takes the head of its FIFO or finds none, and a push is admitted, refused or stores a queue's tail. -/
theorem enginePorts : Obligations.EnginePorts := by
  unfold Obligations.EnginePorts
  intro s d a p hc hl h fifo v last
  refine ⟨fun e r hf => ⟨?_, ?_⟩, fun hf => ⟨exec_epop_empty hc d p hf, ?_⟩, ?_, ?_, ?_, ?_⟩
  · obtain ⟨u, hu, hexec⟩ := exec_epop_of hc d p hl h hf
    obtain ⟨hmem, -, hboard⟩ := boardS_committed_fields u d.toNat e.v
    have hregions := regions_boardS_committed u d.toNat e.v
    rw [hu.pc] at hregions
    refine ⟨_, hexec, hu.fifo.trans ?_, hboard, hmem.trans hu.mem, hregions⟩
    rw [show s.fifo s.curCore p.toNat = e :: r from hf]
    rfl
  · obtain ⟨u, hu, hexec⟩ := exec_epopt_of hc d p hl h hf
    obtain ⟨hmem, hcores, hboard, hguard, hregions⟩ := boardS_wg_fields u d.toNat e.v false
    rw [hu.pc] at hregions
    refine ⟨_, hexec, hu.fifo.trans ?_, hboard, hguard, hmem.trans hu.mem, hregions⟩
    rw [show s.fifo s.curCore p.toNat = e :: r from hf]
    rfl
  · obtain ⟨hmem, -, hboard, hguard, -⟩ := boardS_wg_fields s d.toNat 0 true
    exact ⟨_, exec_epopt_empty hc d p hf, hboard, hguard, hmem⟩
  · rintro rfl h64 h128 hs hroom
    refine exec_epush_input hc 0x10 (by decide) ?_ hs hroom
    have : (s.rs a).toNat / 64 = 1 := by
      simp only [v] at h64 h128
      omega
    simp [badElement, this]
  · rintro rfl hlayout hs hroom
    refine exec_epush_input hc 0x13 (by decide) ?_ hs hroom
    exact bne_eq_false_iff_eq.2 hlayout
  · rintro rfl hv ht hs
    exact exec_epush_tail hc hv ht hs
  · rintro (⟨rfl, hv⟩ | rfl | rfl | ⟨rfl, hv⟩ | ⟨rfl, hv⟩)
    · exact exec_epush_bad hc 0x10 (by decide) (by simpa [badElement] using hv)
    · exact exec_epush_bad hc 0x11 (by decide) rfl
    · exact exec_epush_bad hc 0x12 (by decide) rfl
    · exact exec_epush_bad hc 0x13 (by decide) (by simpa [badElement] using hv)
    · exact exec_epush_tail_bad hc hv

end Sys2Proof.Machine

/-!
Translations, the L1's copies and stored check bits (O22): what a TLBI removes, what CINV drops, and what DSTCHK leaves in a word's syndrome.
-/
namespace Sys2Proof.Machine

/-! ### TLBI (R102, R241) -/

theorem Tlb.range_pos (e : Tlb) : 0 < e.range.2 := by
  unfold Tlb.range
  dsimp only
  split <;> exact Nat.two_pow_pos _

/-- The whole virtual range overlaps the range of every cached translation in it. -/
theorem overlap_whole (e : Tlb) (h : e.range.1 < 2 ^ 56) : overlap (0, 2 ^ 56) e.range = true := by
  have hpos := e.range_pos
  simp only [overlap, Bool.and_eq_true, decide_eq_true_eq]
  omega

theorem concerns_page (t va u : Nat) : (TlbiScope.page t va).concerns u = true ↔ u = t := beq_iff_eq.trans eq_comm

theorem concerns_tenant (t u : Nat) : (TlbiScope.tenant t).concerns u = true ↔ u = t := beq_iff_eq.trans eq_comm

theorem priv_sup {s : State} (h : s.st.src.sup = true) (f : State → State) : s.priv f = f s := if_pos h

theorem strandAt_wg {s : State} (r : BitVec 3) (b : Bool) {n : Nat} (h : n ≠ s.cur) : (s.wg r b).strandAt n = s.strandAt n :=
  (strandAt_setStrand ..).trans (if_neg h)

theorem getG_wg (s : State) {r : BitVec 3} (h : r ≠ 0) (b : Bool) : (s.wg r b).st.now.getG r.toNat = b := by
  rw [State.wg, State.modSt, st_setSt]
  refine (getG_setG _ _ _ r.isLt r.isLt b).trans (if_pos ⟨rfl, fun h0 => h (BitVec.eq_of_toNat_eq h0)⟩)

theorem tlbi_idle {s : State} {sc : TlbiScope} (hb : s.tlbiBusy sc = false) (hs : s.stores = []) (hp : s.posted = []) (hr : s.reqs = []) :
    s.tlbi sc = (s.tlbiRemove sc).wg 7 false := by
  rw [State.tlbi, hb]
  dsimp only
  rw [if_neg Bool.false_ne_true, performWhere_of_stores_nil hs, hp]
  simp only [List.filter_nil, List.foldl_nil, hs, hr]
  rfl

theorem tlbi_busy {s : State} {sc : TlbiScope} (hb : s.tlbiBusy sc = true) : s.tlbi sc = s.wg 7 true := if_pos hb

theorem tlbiBusy_of_disabled {s : State} (h : ∀ q ∈ s.lqs, q.2.state = 0) (sc : TlbiScope) : s.tlbiBusy sc = false := by
  refine List.any_eq_false.2 fun q hq => ?_
  simp [h q hq]

theorem tlbiBusy_append {s : State} {q : Nat × LaunchQueue} {sc : TlbiScope} (hq : q.2.state ≠ 0) (hc : sc.concerns q.2.tenant = true)
    (ho : overlap (s.tlbiRange sc) (q.2.base.toNat, 64 * 2 ^ q.2.size) = true) : ({ s with lqs := s.lqs ++ [q] } : State).tlbiBusy sc = true := by
  refine List.any_eq_true.2 ⟨q, List.mem_append_right _ (List.mem_singleton_self q), ?_⟩
  have ho' : overlap (({ s with lqs := s.lqs ++ [q] } : State).tlbiRange sc) (q.2.base.toNat, 64 * 2 ^ q.2.size) = true := ho
  simp [hq, hc, ho']

/-- The translations that a TLBI leaves. -/
theorem mem_tlb_tlbiRemove (s : State) (sc : TlbiScope) (e : Tlb) :
    e ∈ (s.tlbiRemove sc).tlb ↔ e ∈ s.tlb ∧ ¬ (sc.concerns e.tenant = true ∧ overlap (s.tlbiRange sc) e.range = true) := by
  refine List.mem_filter.trans (and_congr_right fun _ => ?_)
  rw [Bool.not_eq_true', ← Bool.not_eq_true, Bool.and_eq_true]

section
variable {s : State} (hq : ∀ q ∈ s.lqs, q.2.state = 0) (hs : s.stores = []) (hp : s.posted = []) (hr : s.reqs = [])
include hq hs hp hr

/-- A TLBI that no queue holds up removes the translations of its scope, and nothing else that a program reads. -/
theorem tlbi_removes {sc : TlbiScope} {c : Tlb → Prop} (hc : ∀ e ∈ s.tlb, c e ↔ sc.concerns e.tenant = true ∧ overlap (s.tlbiRange sc) e.range = true) :
    (s.tlbi sc).st.now.getG 7 = false ∧ (∀ e, e ∈ (s.tlbi sc).tlb ↔ e ∈ s.tlb ∧ ¬ c e) ∧ (s.tlbi sc).mem = s.mem ∧
      ∀ n, n ≠ s.cur → (s.tlbi sc).strandAt n = s.strandAt n := by
  rw [tlbi_idle (tlbiBusy_of_disabled hq sc) hs hp hr]
  refine ⟨getG_wg _ (by decide) false, fun e => (mem_tlb_tlbiRemove s sc e).trans ?_, rfl, fun n hn => strandAt_wg 7 false hn⟩
  exact and_congr_right fun he => not_congr (hc e he).symm

end

/-! ### The L1's copies (R242) -/

theorem mem_dropL1 (s : State) (core pa n : Nat) (q : Nat × BitVec 128) :
    q ∈ ((s.dropL1 core pa n).coreAt core).l1 ↔ q ∈ (s.coreAt core).l1 ∧ (q.1 * 16 + 16 ≤ pa ∨ pa + n ≤ q.1 * 16) := by
  unfold State.dropL1
  split
  · rename_i h
    rw [List.isEmpty_iff.1 h]
    simp
  · rw [State.modCore, coreAt_setCore, if_pos rfl]
    simp

theorem mem_dropL1_eq (s : State) (core pa n : Nat) : (s.dropL1 core pa n).mem = s.mem := by
  unfold State.dropL1
  split <;> rfl

/-! ### Stored check bits (R469, R470) -/

theorem secdedCols_lt {c : Nat} (h : c ∈ secdedCols) : c < 2 ^ 8 := by
  rcases List.mem_append.1 h with h | h
  · exact List.mem_range.1 (List.mem_filter.1 h).1
  · simp at h
    omega

theorem secdedBits_lt (w : Nat) : secdedBits w < 2 ^ 8 := by
  unfold secdedBits
  refine List.foldlRecOn (motive := (· < 2 ^ 8)) _ _ (by decide) fun acc hacc p hp => ?_
  dsimp only
  split
  · exact Nat.xor_lt_two_pow hacc (secdedCols_lt (List.of_mem_zip hp).2)
  · exact hacc

/-- A word whose stored check bits are the computed ones has no entry. -/
theorem synPut_nil {w v : Nat} (hv : v < 2 ^ 8) (g : Nat) :
    synPut [] g w v = if v = secdedBits w then [] else [(g, BitVec.ofNat 8 (secdedBits w ^^^ v))] := by
  have hx : secdedBits w ^^^ v < 2 ^ 8 := Nat.xor_lt_two_pow (secdedBits_lt w) hv
  have hzero : BitVec.ofNat 8 (secdedBits w ^^^ v) = 0 ↔ v = secdedBits w := by
    rw [← BitVec.toNat_inj, BitVec.toNat_ofNat, Nat.mod_eq_of_lt hx]
    exact Nat.xor_eq_zero_iff.trans eq_comm
  unfold synPut smSet
  split
  · rw [if_pos (hzero.1 ‹_›)]
    rfl
  · rw [if_neg fun h => ‹¬ _› (hzero.2 h)]
    rfl

theorem flushPosted_nil {s : State} (h : s.posted = []) (n line : Nat) : s.flushPosted n line = s := by
  rw [State.flushPosted, h]
  rfl

section
variable {s : State} {a b : BitVec 6} {k : BitVec 1} {off : Nat} (hsup : s.st.src.sup = true) (ho : s.ownBytes (s.rs a) off 8)
include hsup ho

theorem exec_dstchk_reserved (hb : 256 ≤ (s.rs b).toNat) : exec (.dstchk a b k) s = .next (s.raise (7, 7) (s.rs a)) := by
  obtain ⟨hva, hend, -, -⟩ := ho
  rw [exec_dstchk, execDstchk, priv_sup hsup]
  dsimp only
  rw [place_own hva (by omega)]
  exact congrArg Host.Outcome.next (if_pos hb)

/-- DSTCHK of a word of the strand's window changes the syndrome of that word alone. -/
theorem exec_dstchk_own (hb : (s.rs b).toNat < 256) (hp : s.posted = []) (hs : s.plainSpm s.curCore) :
    exec (.dstchk a b k) s = .next (s.modCore s.curCore fun y =>
      { y with spmSyn := synPut y.spmSyn (off / 8) (leNat (s.spmBytes s.curCore off 8)) (s.rs b).toNat }) := by
  obtain ⟨hva, hend, halign, hwin⟩ := ho
  have hword : off / 8 * 8 = off := by simp only [localBase] at hva; omega
  rw [exec_dstchk, execDstchk, priv_sup hsup]
  dsimp only
  rw [place_own hva (by omega)]
  dsimp only
  rw [if_neg (by omega), hword, hwin, behindMark_plain hs, flushPosted_nil hp]
  simp only [Bool.not_true, Bool.and_false, Bool.false_eq_true, if_false]
  rfl

end

/-- Settles O22: a TLBI filters the cached translations by its scope or finds a queue's ring in it, CINV filters the L1, and DSTCHK
stores a syndrome, which is zero for the computed check bits. -/
theorem translationsAndCaches : Obligations.TranslationsAndCaches := by
  unfold Obligations.TranslationsAndCaches
  refine ⟨?_, ?_⟩
  · intro s a hsup hs hp hr own other removed hq
    refine ⟨?_, ?_, ?_, ?_, ?_, ?_⟩
    · rw [exec_tlbiPage, execTlbiPage, priv_sup hsup]
      exact ⟨_, rfl, tlbi_removes hq hs hp hr fun e _ => and_congr_left fun _ => (concerns_page ..).symm⟩
    · intro hown hrange
      rw [exec_tlbiTenant, execTlbiTenant, priv_sup hsup]
      refine ⟨_, congrArg Host.Outcome.next (if_neg ?_), tlbi_removes hq hs hp hr fun e he => ?_⟩
      · simp only [Bool.and_eq_true, decide_eq_true_eq]
        exact fun ⟨hother, hzero⟩ => hown.elim hother hzero
      · exact (concerns_tenant ..).symm.trans (iff_self_and.2 fun _ => overlap_whole e (hrange e he))
    · intro hown hrange
      rw [exec_tlbiAll, execTlbiAll, priv_sup hsup]
      refine ⟨_, congrArg Host.Outcome.next (if_neg (not_not_intro hown)), tlbi_removes hq hs hp hr fun e he => ?_⟩
      exact iff_of_true trivial ⟨rfl, overlap_whole e (hrange e he)⟩
    · intro hother hown
      rw [exec_tlbiTenant, execTlbiTenant, priv_sup hsup]
      refine congrArg Host.Outcome.next (if_pos ?_)
      simp only [Bool.and_eq_true, decide_eq_true_eq]
      exact ⟨hother, hown⟩
    · intro hown
      rw [exec_tlbiAll, execTlbiAll, priv_sup hsup]
      exact congrArg Host.Outcome.next (if_pos hown)
    · rintro q hstate htenant ⟨_, rfl, hover⟩
      have hsup' : ({ s with lqs := s.lqs ++ [q] } : State).st.src.sup = true := hsup
      rw [exec_tlbiPage, execTlbiPage, priv_sup hsup']
      exact congrArg Host.Outcome.next (tlbi_busy (tlbiBusy_append hstate ((concerns_page ..).2 htenant) hover))
  · intro s a b p k va size
    refine ⟨?_, rfl, ?_, ?_⟩
    · intro pa hlocal hva hpa
      refine ⟨s.dropL1 s.curCore pa size, ?_, mem_dropL1_eq .., (dropL1_strands ..).1, fun q => mem_dropL1 s s.curCore pa size q⟩
      have hunit : cacheUnit va p = (va / size * size, size) := by
        unfold cacheUnit
        simp only [size]
        split <;> rfl
      rw [exec_cinv, execCinv]
      dsimp only
      rw [show cacheUnit (s.rs a).toNat p = _ from hunit]
      dsimp only
      rw [hpa, if_neg (by simp only [Bool.or_eq_true, decide_eq_true_eq]; rintro (h | h); exacts [absurd (hlocal.symm.trans h) (by decide), by omega])]
      rfl
    · intro off hsup hp hs ho hb w
      refine ⟨_, exec_dstchk_own hsup ho hb hp hs, ?_, rfl, ?_⟩
      · rw [State.modCore, coreAt_setCore, if_pos rfl]
      · rw [State.modCore, coreAt_setCore, if_pos rfl]
        show synPut (s.coreAt s.curCore).spmSyn _ _ _ = _
        rw [hs.1]
        exact synPut_nil hb _
    · exact fun hsup off ho hb => exec_dstchk_reserved hsup ho hb

end Sys2Proof.Machine

/-!
The writes of an engine's entry to its strand's own scratchpad (R87, R94, R252): the plan of writes that its codes give, what each byte
holds after them, and the entry's end (O26).
-/
namespace Sys2Proof.Machine

/-! ### Bytes with bit masks -/

/-- A byte of a virtual address after one write of a plan. -/
def written (w : Nat × List (Byte × Byte)) (va : Nat) (old : Byte) : Byte :=
  if va < w.1 then old
  else match w.2[va - w.1]? with
    | some b => maskByte old b.1 b.2
    | none => old

theorem maskByte_full (old new : Byte) : maskByte old new 0xFF = new := by
  show (old &&& 0#8) ||| (new &&& BitVec.allOnes 8) = new
  rw [BitVec.and_zero, BitVec.zero_or, BitVec.and_allOnes]

theorem maskByte_maskByte (old : Byte) (a b : Byte × Byte) :
    maskByte (maskByte old a.1 a.2) b.1 b.2 = maskByte old (overByte a b).1 (overByte a b).2 := by
  simp only [maskByte, overByte]
  refine BitVec.eq_of_getLsbD_eq fun i hi => ?_
  simp only [BitVec.getLsbD_or, BitVec.getLsbD_and, BitVec.getLsbD_not, hi, decide_true, Bool.true_and]
  cases old.getLsbD i <;> cases a.1.getLsbD i <;> cases a.2.getLsbD i <;> cases b.1.getLsbD i <;> cases b.2.getLsbD i <;> rfl

theorem written_of_lt {w : Nat × List (Byte × Byte)} {va : Nat} (h : va < w.1) (old : Byte) : written w va old = old := if_pos h

theorem written_of_ge {w : Nat × List (Byte × Byte)} {va : Nat} (h : w.1 + w.2.length ≤ va) (old : Byte) : written w va old = old := by
  unfold written
  rw [if_neg (by omega), List.getElem?_eq_none (by omega)]

theorem written_append (a : Nat) (bs cs : List (Byte × Byte)) (va : Nat) (old : Byte) :
    written (a, bs ++ cs) va old = written (a + bs.length, cs) va (written (a, bs) va old) := by
  unfold written
  dsimp only
  by_cases h : va < a
  · rw [if_pos h, if_pos h, if_pos (by omega)]
  · rw [if_neg h, if_neg h]
    by_cases hlen : va < a + bs.length
    · rw [if_pos hlen, List.getElem?_append_left (by omega)]
    · rw [if_neg hlen, List.getElem?_append_right (by omega), List.getElem?_eq_none (by omega : bs.length ≤ va - a), Nat.sub_sub]

theorem written_single (a : Nat) (x y : Byte × Byte) (va : Nat) (old : Byte) :
    written (a, [overByte x y]) va old = written (a, [y]) va (written (a, [x]) va old) := by
  by_cases h : va = a
  · subst h
    simp [written, maskByte_maskByte]
  · rcases Nat.lt_or_gt_of_ne h with h | h
    · rw [written_of_lt h, written_of_lt h, written_of_lt h]
    · rw [written_of_ge h, written_of_ge h, written_of_ge h]

/-! ### Plans of writes -/

/-- A byte of a virtual address after writes, the latest of them listed first. -/
def planned (l : List (Nat × List (Byte × Byte))) (va : Nat) (old : Byte) : Byte := l.foldr (fun w b => written w va b) old

/-- Joined or not, a write comes after the writes before it. -/
theorem planned_joinWrite (l : List (Nat × List (Byte × Byte))) (w : Nat × List (Byte × Byte)) (va : Nat) (old : Byte) :
    planned (joinWrite l w) va old = written w va (planned l va old) := by
  obtain ⟨c, cs⟩ := w
  unfold joinWrite
  split
  · rfl
  · rename_i a bs r
    split
    · rename_i h
      simp only [Bool.and_eq_true, beq_iff_eq] at h
      show written (a, bs ++ cs) va (planned r va old) = _
      rw [written_append, h.2]
      rfl
    · split
      · rename_i h
        simp only [Bool.and_eq_true, beq_iff_eq, Bool.not_eq_true', List.isEmpty_eq_false_iff] at h
        obtain ⟨⟨⟨-, hone⟩, hne⟩, hlast⟩ := h
        obtain ⟨y, rfl⟩ := List.length_eq_one_iff.1 hone
        obtain ⟨bs, x, rfl⟩ : ∃ bs' x, bs = bs' ++ [x] := ⟨_, _, (List.dropLast_append_getLast hne).symm⟩
        rw [List.length_append] at hlast
        have hc : c = a + bs.length := by simp at hlast; omega
        subst hc
        show written (a, _ ++ [overByte _ y]) va (planned r va old) = _
        rw [List.dropLast_concat, List.getLast?_concat, Option.getD_some, written_append, written_single, ← written_append a bs [x]]
        rfl
      · rfl

theorem planned_foldl_joinWrite (ws l : List (Nat × List (Byte × Byte))) (va : Nat) (old : Byte) :
    planned (ws.foldl joinWrite l) va old = ws.foldl (fun b w => written w va b) (planned l va old) := by
  induction ws generalizing l with
  | nil => rfl
  | cons w r ih => rw [List.foldl_cons, ih, planned_joinWrite, List.foldl_cons]

/-- The bytes of a write one by one. -/
theorem foldl_written_zipIdx (a : Nat) (bs : List (Byte × Byte)) (k va : Nat) (old : Byte) :
    ((bs.zipIdx k).map fun (b, i) => (a + i, [b])).foldl (fun b w => written w va b) old = written (a + k, bs) va old := by
  induction bs generalizing k old with
  | nil => simp [written]
  | cons b r ih =>
    rw [List.zipIdx_cons, List.map_cons, List.foldl_cons, ih, show b :: r = [b] ++ r from rfl, written_append]
    rfl

theorem foldl_written_splitWrite (w : Nat × List (Byte × Byte)) (va : Nat) (old : Byte) :
    (splitWrite w).foldl (fun b w => written w va b) old = written w va old := by
  unfold splitWrite
  split
  · rfl
  · exact foldl_written_zipIdx w.1 w.2 0 va old

/-- A byte after the plan of an entry's codes: each code's bytes, in their order. -/
theorem foldl_written_writePlan (l : List Put) (va : Nat) (old : Byte) :
    (writePlan l).foldl (fun b w => written w va b) old = l.foldl (fun b p => written (putBytes p) va b) old := by
  have h (a : List (Nat × List (Byte × Byte))) : planned (l.foldl (fun a p => (splitWrite (putBytes p)).foldl joinWrite a) a) va old =
      l.foldl (fun b p => written (putBytes p) va b) (planned a va old) := by
    induction l generalizing a with
    | nil => rfl
    | cons p r ih => rw [List.foldl_cons, ih, planned_foldl_joinWrite, foldl_written_splitWrite, List.foldl_cons]
  rw [writePlan, List.foldl_reverse]
  exact h []

/-! ### Writes within the strand's window -/

/-- A write of at least one byte, within the scratchpad and the window of the strand (R28). -/
def Strand.ownWrite (x : Strand) (w : Nat × List (Byte × Byte)) : Prop :=
  w.2 ≠ [] ∧ localBase + x.spmBase ≤ w.1 ∧ w.1 + w.2.length ≤ localBase + x.spmBase + x.spmLen ∧ w.1 + w.2.length ≤ localBase + 0x400000

theorem ownWrite_joinWrite {x : Strand} {l : List (Nat × List (Byte × Byte))} {w : Nat × List (Byte × Byte)} (hl : ∀ p ∈ l, x.ownWrite p)
    (hw : x.ownWrite w) : ∀ p ∈ joinWrite l w, x.ownWrite p := by
  obtain ⟨c, cs⟩ := w
  unfold joinWrite
  split
  · exact List.forall_mem_singleton.2 hw
  · rename_i a bs r
    obtain ⟨⟨hne, hlo, hhi, hend⟩, hr⟩ := List.forall_mem_cons.1 hl
    obtain ⟨hne', hlo', hhi', hend'⟩ := hw
    dsimp only at hne hlo hhi hend hne' hlo' hhi' hend'
    split
    · rename_i h
      simp only [Bool.and_eq_true, beq_iff_eq] at h
      refine List.forall_mem_cons.2 ⟨⟨List.append_ne_nil_of_left_ne_nil hne cs, hlo, ?_, ?_⟩, hr⟩ <;> dsimp only at * <;> rw [List.length_append] <;> omega
    · split
      · have hlen : (bs.dropLast ++ [overByte (bs.getLast?.getD (0, 0)) (cs.headD (0, 0))]).length = bs.length := by
          have := List.length_pos_of_ne_nil hne
          rw [List.length_append, List.length_dropLast, List.length_singleton]
          omega
        exact List.forall_mem_cons.2 ⟨⟨List.append_ne_nil_of_right_ne_nil _ (List.cons_ne_nil _ _), hlo, by rw [hlen]; exact hhi,
          by rw [hlen]; exact hend⟩, hr⟩
      · exact List.forall_mem_cons.2 ⟨⟨hne', hlo', hhi', hend'⟩, hl⟩

theorem ownWrite_splitWrite {x : Strand} {w : Nat × List (Byte × Byte)} (hw : x.ownWrite w) : ∀ p ∈ splitWrite w, x.ownWrite p := by
  unfold splitWrite
  split
  · exact List.forall_mem_singleton.2 hw
  · intro p hp
    obtain ⟨⟨b, i⟩, hmem, rfl⟩ := List.mem_map.1 hp
    have hi : i < 0 + w.2.length := (List.mem_zipIdx hmem).2.1
    obtain ⟨-, hlo, hhi, hend⟩ := hw
    refine ⟨List.cons_ne_nil _ _, ?_, ?_, ?_⟩ <;> dsimp only [List.length_singleton] <;> omega

theorem ownWrite_writePlan {x : Strand} {l : List Put} (h : ∀ p ∈ l, x.ownWrite (putBytes p)) : ∀ w ∈ writePlan l, x.ownWrite w := by
  intro w hw
  refine List.foldlRecOn (motive := fun a => ∀ p ∈ a, x.ownWrite p) l _ (by simp) (fun a ha p hp => ?_) w (List.mem_reverse.1 hw)
  exact List.foldlRecOn (motive := fun a => ∀ p ∈ a, x.ownWrite p) (splitWrite (putBytes p)) _ ha fun a ha q hq =>
    ownWrite_joinWrite ha (ownWrite_splitWrite (h p hp) q hq)

/-- A write of a strand's own scratchpad, by its offset. -/
theorem Strand.ownWrite.offset {x : Strand} {w : Nat × List (Byte × Byte)} (h : x.ownWrite w) :
    ∃ off, w.1 = localBase + off ∧ off + w.2.length ≤ 0x400000 ∧ off < 0x400000 ∧ x.inWindow off w.2.length = true := by
  obtain ⟨hne, hlo, hhi, hend⟩ := h
  have hpos := List.length_pos_of_ne_nil hne
  refine ⟨w.1 - localBase, by omega, by omega, by omega, ?_⟩
  rw [Strand.inWindow, Bool.and_eq_true, decide_eq_true_eq, decide_eq_true_eq]
  omega

/-! ### Codes of whole bytes -/

theorem leBytes_getElem? (n x i : Nat) : (leBytes n x)[i]? = if i < n then some (BitVec.ofNat 8 (x / 2 ^ (8 * i))) else none := by
  induction n generalizing x i with
  | zero => rfl
  | succ n ih =>
    cases i with
    | zero => simp [leBytes]
    | succ i =>
      have hdiv : x / 256 / 2 ^ (8 * i) = x / 2 ^ (8 * (i + 1)) := by
        rw [Nat.div_div_eq_div_mul, show 8 * (i + 1) = 8 + 8 * i by omega, Nat.pow_add]
      rw [leBytes, List.getElem?_cons_succ, ih, hdiv]
      simp only [Nat.add_lt_add_iff_right]

/-- The bytes of a code that fills whole bytes. -/
theorem putBytes_whole {p : Put} {off k : Nat} (h : p.1 = (8 * ((localBase + off : Nat) : Int), 8 * k)) (hk : 1 ≤ k) :
    putBytes p = (localBase + off, (leBytes k p.2).zip (leBytes k (2 ^ (8 * k) - 1))) := by
  have hspan : spanBytes p.1 = (((localBase + off : Nat) : Int), ((localBase + off + k - 1 : Nat) : Int)) := by
    rw [h, spanBytes]
    refine Prod.ext ?_ ?_
    · exact Int.mul_fdiv_cancel_left _ (by decide)
    · dsimp only
      rw [Int.fdiv_eq_ediv_of_nonneg _ (by decide)]
      push_cast
      omega
  have hn : (((localBase + off + k - 1 : Nat) : Int) - ((localBase + off : Nat) : Int) + 1).toNat = k := by omega
  have hsh : (p.1.1 - ((localBase + off : Nat) : Int) * 8).toNat = 0 := by
    rw [h]
    show (8 * ((localBase + off : Nat) : Int) - ((localBase + off : Nat) : Int) * 8).toNat = 0
    omega
  have hlen : p.1.2 = 8 * k := by rw [h]
  rw [putBytes, hspan]
  dsimp only
  rw [hn, hsh, hlen, pow_zero, Nat.mul_one, Nat.mul_one, Int.toNat_natCast]

theorem mask_whole {k i : Nat} (h : i < k) : (leBytes k (2 ^ (8 * k) - 1))[i]? = some 0xFF := by
  rw [leBytes_getElem?, if_pos h]
  refine congrArg some (BitVec.eq_of_toNat_eq ?_)
  rw [BitVec.toNat_ofNat]
  have hbits : (2 ^ (8 * k) - 1) / 2 ^ (8 * i) % 2 ^ 8 = 2 ^ 8 - 1 := by
    refine Nat.eq_of_testBit_eq fun j => ?_
    rw [Nat.testBit_mod_two_pow, Nat.testBit_div_two_pow, Nat.testBit_two_pow_sub_one, Nat.testBit_two_pow_sub_one]
    by_cases hj : j < 8
    · simp [hj]; omega
    · simp [hj]
  exact hbits

/-- A byte after a code that fills whole bytes. -/
theorem written_putBytes {p : Put} {off k : Nat} (h : p.1 = (8 * ((localBase + off : Nat) : Int), 8 * k)) (hk : 1 ≤ k) (a : Nat) (old : Byte) :
    written (putBytes p) (localBase + a) old = if off ≤ a ∧ a < off + k then BitVec.ofNat 8 (p.2 / 2 ^ (8 * (a - off))) else old := by
  rw [putBytes_whole h hk, written]
  dsimp only
  by_cases hlo : off ≤ a
  · rw [if_neg (by omega), show localBase + a - (localBase + off) = a - off by omega]
    by_cases hhi : a < off + k
    · have hbyte := leBytes_getElem? k p.2 (a - off)
      rw [if_pos (by omega)] at hbyte
      have hboth : ((leBytes k p.2).zip (leBytes k (2 ^ (8 * k) - 1)))[a - off]? = some (BitVec.ofNat 8 (p.2 / 2 ^ (8 * (a - off))), 0xFF) :=
        List.getElem?_zip_eq_some.2 ⟨hbyte, mask_whole (by omega)⟩
      rw [if_pos ⟨hlo, hhi⟩, hboth]
      exact maskByte_full ..
    · rw [if_neg (by omega), List.getElem?_eq_none (by rw [List.length_zip, leBytes_length]; omega)]
  · rw [if_pos (by omega), if_neg (by omega)]

theorem ownWrite_putBytes {x : Strand} {p : Put} {off k : Nat} (h : p.1 = (8 * ((localBase + off : Nat) : Int), 8 * k)) (hk : 1 ≤ k)
    (hend : off + k ≤ 0x400000) (hwin : x.inWindow off k = true) : x.ownWrite (putBytes p) := by
  have hlen : ((leBytes k p.2).zip (leBytes k (2 ^ (8 * k) - 1))).length = k := by rw [List.length_zip, leBytes_length, leBytes_length, Nat.min_self]
  rw [Strand.inWindow, Bool.and_eq_true, decide_eq_true_eq, decide_eq_true_eq] at hwin
  rw [putBytes_whole h hk]
  exact ⟨List.ne_nil_of_length_pos (by dsimp only; omega), by dsimp only; omega, by dsimp only; omega, by dsimp only; omega⟩

/-! ### Writes to a scratchpad that no copy is bound to (R20, R89) -/

/-- An entry's writes to its own scratchpad meet no failing check bits, no bound copy and, where its engine minds them, no active copy range. -/
structure State.takes (s : State) (e : Entry) : Prop where
  sound : (s.coreAt e.core).spmSyn = []
  mark : e.marks = true → ∀ p ∈ (s.coreAt e.core).chans, p.2.active = false
  free : ∀ k, k < Config.slots → ∀ p ∈ (s.strandAt (e.core * Config.slots + k)).sync, p.2.att = none

theorem State.plainSpm.takes {s : State} {e : Entry} (h : s.plainSpm e.core) : s.takes e := ⟨h.1, fun _ => h.2.1, h.2.2⟩

theorem takes_putSpm {s : State} {e : Entry} (h : s.takes e) (off : Nat) (bs : List Byte) : (s.putSpm e.core off bs).takes e := by
  obtain ⟨hsound, hmark, hfree⟩ := h
  have hcore : (s.putSpm e.core off bs).coreAt e.core = { s.coreAt e.core with spm := memPut (s.coreAt e.core).spm off bs } :=
    (coreAt_setCore ..).trans (if_pos rfl)
  exact ⟨by rw [hcore]; exact hsound, by rw [hcore]; exact hmark, hfree⟩

theorem touchSpm_free {s : State} {core : Nat} (h : ∀ k, k < Config.slots → ∀ p ∈ (s.strandAt (core * Config.slots + k)).sync, p.2.att = none)
    (off n : Nat) (sup : Bool) (task : Nat) : s.touchSpm core off n sup task = (s, none) := by
  have hb : s.boundAt core off n = [] := by
    unfold State.boundAt
    simp only [List.flatMap_eq_nil_iff, List.filterMap_eq_nil_iff]
    intro k hk p hp
    simp [h k (List.mem_range.mp hk) p hp]
  simp [State.touchSpm, hb]

theorem writeSpm_free {s : State} {core : Nat} (hs : (s.coreAt core).spmSyn = [])
    (h : ∀ k, k < Config.slots → ∀ p ∈ (s.strandAt (core * Config.slots + k)).sync, p.2.att = none) (off : Nat) (bs : List Byte) :
    s.writeSpm core off bs = s.putSpm core off bs := by
  unfold State.writeSpm
  extract_lets n fixed u v
  have hu : u = s := if_pos (by rw [hs]; rfl)
  have hv : v = s.putSpm core off bs := congrArg (·.putSpm core off bs) hu
  rw [mapBound_plain _ (by rw [hv]; exact h), hv]

/-- The scratchpad after one write of a plan. -/
def State.landed (s : State) (core : Nat) (w : Nat × List (Byte × Byte)) : State :=
  s.putSpm core (w.1 - localBase) (maskBytes (s.spmBytes core (w.1 - localBase) w.2.length) (w.2.map (·.1)) (w.2.map (·.2)))

theorem spm_landed (s : State) (core : Nat) {w : Nat × List (Byte × Byte)} (hw : localBase ≤ w.1) (a : Nat) :
    smGet 0 ((s.landed core w).coreAt core).spm a = written w (localBase + a) (smGet 0 (s.coreAt core).spm a) := by
  have hlen : (maskBytes (s.spmBytes core (w.1 - localBase) w.2.length) (w.2.map (·.1)) (w.2.map (·.2))).length = w.2.length := by
    simp [maskBytes, spmBytes_length]
  rw [State.landed, spm_putSpm, hlen, written]
  by_cases hlo : w.1 - localBase ≤ a
  · rw [if_neg (show ¬ localBase + a < w.1 by omega), show localBase + a - w.1 = a - (w.1 - localBase) by omega]
    by_cases hhi : a < w.1 - localBase + w.2.length
    · rw [if_pos ⟨hlo, hhi⟩, List.getElem?_eq_getElem (show a - (w.1 - localBase) < w.2.length by omega)]
      simp [maskBytes, State.spmBytes, show a - (w.1 - localBase) < w.2.length by omega,
        show w.1 - localBase + (a - (w.1 - localBase)) = a by omega]
    · rw [if_neg (by omega), List.getElem?_eq_none (by omega)]
  · rw [if_neg (by omega), if_pos (by omega)]

section
variable {s : State} {e : Entry} {n : Nat} (he : e.strand = some n) (hu : e.undef = false)
include he hu

theorem writeVa_own (ht : s.takes e) {w : Nat × List (Byte × Byte)} (hw : (s.strandAt n).ownWrite w) :
    s.writeVa e w = (s.landed e.core w, none) := by
  obtain ⟨off, hva, hend, hoff, hwin⟩ := hw.offset
  have hnat : (BitVec.ofNat 64 w.1).toNat = localBase + off := by
    rw [BitVec.toNat_ofNat, hva, Nat.mod_eq_of_lt (by simp only [localBase]; omega)]
  have hbehind : (e.marks && s.behindMark e.core off w.2.length) = false := by
    rw [Bool.and_eq_false_imp]
    intro hm
    unfold State.behindMark
    exact List.any_eq_false.2 fun p hp => by simp [ht.mark hm p hp]
  obtain ⟨va, bm⟩ := w
  dsimp only at hva hend hwin hnat hbehind
  rw [State.writeVa]
  dsimp only
  rw [if_neg (by rw [hu]; decide)]
  dsimp only
  rw [place_own hnat hoff]
  dsimp only
  simp only [he, hwin, hbehind, touchSpm_free ht.free, writeSpm_free ht.sound ht.free, Bool.not_true, Bool.and_false, Bool.false_eq_true, if_false,
    Bool.and_assoc]
  rw [State.landed, hva, Nat.add_sub_cancel_left]

/-- Writes of the strand's own scratchpad are all made. -/
theorem writeEach_own (l : List (Nat × List (Byte × Byte))) (ht : s.takes e) (hl : ∀ w ∈ l, (s.strandAt n).ownWrite w) :
    s.writeEach e l = (l.foldl (·.landed e.core ·) s, [], none) := by
  induction l generalizing s with
  | nil => rfl
  | cons w r ih =>
    obtain ⟨hw, hr⟩ := List.forall_mem_cons.1 hl
    rw [State.writeEach, writeVa_own he hu ht hw]
    exact ih (takes_putSpm ht ..) hr

end

theorem spm_foldl_landed (s : State) (core : Nat) {l : List (Nat × List (Byte × Byte))} (h : ∀ w ∈ l, localBase ≤ w.1) (a : Nat) :
    smGet 0 ((l.foldl (·.landed core ·) s).coreAt core).spm a = l.foldl (fun b w => written w (localBase + a) b) (smGet 0 (s.coreAt core).spm a) := by
  induction l generalizing s with
  | nil => rfl
  | cons w r ih =>
    obtain ⟨hw, hr⟩ := List.forall_mem_cons.1 h
    rw [List.foldl_cons, ih _ hr, spm_landed s core hw, List.foldl_cons]

/-- Writes of a scratchpad change its bytes alone. -/
theorem foldl_landed_frame (s : State) (core : Nat) (l : List (Nat × List (Byte × Byte))) :
    l.foldl (·.landed core ·) s = { s with cores := (l.foldl (·.landed core ·) s).cores } ∧
    ∀ c, (l.foldl (·.landed core ·) s).coreAt c = { s.coreAt c with spm := ((l.foldl (·.landed core ·) s).coreAt c).spm } := by
  refine List.foldlRecOn (motive := fun t : State => t = { s with cores := t.cores } ∧ ∀ c, t.coreAt c = { s.coreAt c with spm := (t.coreAt c).spm })
    l _ ⟨rfl, fun _ => rfl⟩ fun t ⟨hframe, hcore⟩ w _ => ⟨?_, fun c => ?_⟩
  · generalize t.cores = x at hframe
    rw [hframe]
    rfl
  · rw [State.landed, State.putSpm, State.modCore, coreAt_setCore]
    split
    · rename_i hc
      rw [hc, hcore core]
    · exact hcore c

/-- The last turn of an entry whose writes all go to its strand's own scratchpad (R87). -/
theorem drainPlan_own {s : State} {e : Entry} {n : Nat} (he : e.strand = some n) (hu : e.undef = false) (hpace : s.pace = 0)
    (hposted : s.posted = []) (ht : s.takes e) (hl : ∀ w ∈ e.plan, (s.strandAt n).ownWrite w) (fin : State → Entry → State) :
    s.drainPlan e fin = (fin (e.plan.foldl (·.landed e.core ·) s) { e with phase := 2, plan := [] }).endEntry { e with phase := 2, plan := [] } := by
  have hall : s.writeAll e e.plan = (e.plan.foldl (·.landed e.core ·) s, [], none) := by
    rw [State.writeAll, hpace]
    exact writeEach_own he hu e.plan ht hl
  have hnone : (e.plan.foldl (·.landed e.core ·) s).posted = [] := (congrArg State.posted (foldl_landed_frame ..).1).trans hposted
  rw [State.drainPlan, hall]
  dsimp only
  rw [hnone]
  rfl

/-! ### The flags of an entry's lanes (R253, R269) -/

theorem lanes_orLane (r : Regs) (lane fl j : Nat) :
    smGet 0 (r.orLane lane fl).lanes j = if lane = j then smGet 0 r.lanes j ||| BitVec.ofNat 5 fl else smGet 0 r.lanes j := by
  unfold Regs.orLane
  split
  · rename_i h
    have hzero : BitVec.ofNat 5 fl = 0#5 := BitVec.eq_of_toNat_eq (by rw [BitVec.toNat_ofNat]; exact h)
    rw [hzero, BitVec.or_zero, ite_self]
  · rw [smGet_smSet]
    by_cases hj : j = lane
    · subst hj
      exact (if_pos rfl).trans (if_pos rfl).symm
    · rw [if_neg hj, if_neg (Ne.symm hj)]

theorem orLane_frame (r : Regs) (lane fl : Nat) : r.orLane lane fl = { r with lanes := (r.orLane lane fl).lanes } := by
  unfold Regs.orLane
  split <;> rfl

theorem ne_of_mem_smDel {α : Type} {m : SMap α} {i : Nat} {p : Nat × α} (h : p ∈ smDel m i) : p.1 ≠ i := by
  simpa using (List.mem_filter.1 h).2

theorem smSorted_smPut {α : Type} {m : SMap α} (h : smSorted m = true) (i : Nat) (v : α) : smSorted (smPut m i v) = true :=
  smSorted_smIns (smSorted_smDel h i) v fun _ => ne_of_mem_smDel

theorem smGet_of_forall_ne {α : Type} (d : α) {m : SMap α} {j : Nat} (h : ∀ p ∈ m, p.1 ≠ j) : smGet d m j = d := by
  induction m with
  | nil => rfl
  | cons p r ih =>
    obtain ⟨hp, hr⟩ := List.forall_mem_cons.1 h
    exact (if_neg hp).trans (ih hr)

/-- The flags kept by lane for an entry, put into its strand's lanes. -/
def Regs.orLanes (r : Regs) (parts : SMap (List Nat)) : Regs := parts.foldl (fun r x => r.orLane x.1 (x.2.headD 0)) r

theorem lanes_orLanes {parts : SMap (List Nat)} (h : smSorted parts = true) (r : Regs) (j : Nat) :
    smGet 0 (r.orLanes parts).lanes j = smGet 0 r.lanes j ||| BitVec.ofNat 5 ((smGet [] parts j).headD 0) := by
  induction parts generalizing r with
  | nil => exact (BitVec.or_zero ..).symm
  | cons p t ih =>
    obtain ⟨hlt, ht⟩ := (smSorted_cons p t).1 h
    refine (ih ht (r.orLane p.1 (p.2.headD 0))).trans ?_
    rw [lanes_orLane]
    show _ = smGet 0 r.lanes j ||| BitVec.ofNat 5 ((if p.1 = j then p.2 else smGet [] t j).headD 0)
    by_cases hj : p.1 = j
    · rw [if_pos hj, if_pos hj, smGet_of_forall_ne [] fun q hq => by have := hlt q hq; omega]
      exact BitVec.or_zero ..
    · rw [if_neg hj, if_neg hj]

theorem orLanes_frame (r : Regs) (parts : SMap (List Nat)) : r.orLanes parts = { r with lanes := (r.orLanes parts).lanes } := by
  refine List.foldlRecOn (motive := fun u : Regs => u = { r with lanes := u.lanes }) parts _ rfl fun u hu p _ => ?_
  rw [orLane_frame u, hu]

/-- The flags kept by lane are, for each lane, all that the entry raised there. -/
theorem laneFlags_spec (l : List (Nat × Nat)) : smSorted (laneFlags l) = true ∧ ∀ (j : Nat) (b : BitVec 5),
    b ||| BitVec.ofNat 5 ((smGet [] (laneFlags l) j).headD 0) = l.foldl (fun a x => if x.1 % 256 = j then a ||| BitVec.ofNat 5 x.2 else a) b := by
  induction l using List.reverseRecOn with
  | nil => exact ⟨rfl, fun j b => BitVec.or_zero⟩
  | append_singleton l x ih =>
    obtain ⟨hsorted, hflags⟩ := ih
    have hlast : laneFlags (l ++ [x]) = if x.2 = 0 then laneFlags l else
        smPut (laneFlags l) (x.1 % 256) [(smGet [] (laneFlags l) (x.1 % 256)).headD 0 ||| x.2] := by
      rw [laneFlags, List.foldl_append]
      rfl
    rw [hlast]
    refine ⟨?_, fun j b => ?_⟩
    · split
      · exact hsorted
      · exact smSorted_smPut hsorted ..
    · rw [List.foldl_append, List.foldl_cons, List.foldl_nil, ← hflags]
      by_cases hzero : x.2 = 0
      · rw [if_pos hzero, hzero, show BitVec.ofNat 5 0 = 0#5 from rfl, BitVec.or_zero, ite_self]
      · rw [if_neg hzero, smGet_smPut]
        by_cases hj : j = x.1 % 256
        · subst hj
          rw [if_pos rfl, if_pos rfl, List.headD_cons, BitVec.ofNat_or, BitVec.or_assoc]
        · rw [if_neg hj, if_neg (Ne.symm hj)]

/-! ### The end of a V entry -/

theorem vFin_lanes {s : State} {e : Entry} {n : Nat} (he : e.strand = some n) (hk : e.keep = []) :
    s.vFin e = s.modStrand n (·.modNow (·.orLanes e.parts)) := by
  rw [State.vFin, he, hk]
  rfl

/-- The strand in whose queue the entry stands as it is now. -/
def Strand.replaced (x : Strand) (e : Entry) : Strand :=
  { x with queues := x.queues.map fun p => (p.1, if some p.1 = engineOf e.instr then modEntries e.seq (fun _ => e) p.2 else p.2) }

theorem putEntry_eq {s : State} {e : Entry} {n : Nat} (he : e.strand = some n) : s.putEntry e = s.modStrand n (·.replaced e) := by
  rw [State.putEntry, he]
  rfl

/-- An entry that its queue holds as it is now leaves the queue as the entry before it would. -/
theorem filter_modEntries (e : Entry) (l : List Entry) : (modEntries e.seq (fun _ => e) l).filter (·.seq != e.seq) = l.filter (·.seq != e.seq) := by
  induction l with
  | nil => rfl
  | cons x r ih =>
    rw [modEntries, List.map_cons, List.filter_cons, List.filter_cons]
    by_cases h : x.seq = e.seq
    · rw [if_pos h, bne_self_eq_false, show (x.seq != e.seq) = false by simp [h]]
      exact ih
    · rw [if_neg h]
      exact congrArg (fun t => if (x.seq != e.seq) = true then x :: t else t) ih

/-- The queues of a strand whose entry was replaced in its queue before it left. -/
theorem queues_dropped_replaced {e e' : Entry} {j : Nat} (hj : engineOf e.instr = some j) (hi : e'.instr = e.instr) (hseq : e'.seq = e.seq)
    (x : Strand) (k : Nat) : smGet [] ((x.replaced e).dropped e').queues k =
      if k = j then (smGet [] x.queues j).filter (·.seq != e.seq) else smGet [] x.queues k := by
  have hreplaced := smGet_map [] (fun i (l : List Entry) => if some i = engineOf e.instr then modEntries e.seq (fun _ => e) l else l)
    x.queues k (by simp [modEntries])
  rw [queues_dropped (j := j) (by rw [hi]; exact hj), show smGet [] (x.replaced e).queues k = _ from hreplaced, hj, hseq]
  by_cases hk : k = j
  · subst hk
    rw [if_pos rfl, if_pos rfl, if_pos rfl, filter_modEntries]
  · rw [if_neg hk, if_neg hk, if_neg (by simpa using hk)]

/-- The entry with its writes under way. -/
def Entry.writing (e : Entry) (puts : List Put) (fl : List (Nat × Nat)) : Entry := { e with phase := 2, plan := writePlan puts, parts := laneFlags fl }

/-- The machine with a V entry's writes made and its lanes' flags taken. -/
def State.vLanded (s : State) (e : Entry) (n : Nat) (puts : List Put) (fl : List (Nat × Nat)) : State :=
  ((writePlan puts).foldl (·.landed e.core ·) (s.modStrand n (·.replaced (e.writing puts fl)))).modStrand n (·.modNow (·.orLanes (laneFlags fl)))

theorem vWrite_own {s : State} {e : Entry} {n : Nat} {xs : List Src} {puts : List Put} (he : e.strand = some n) (hk : e.keep = []) (hu : e.undef = false)
    (hpace : s.pace = 0) (hs : s.plainSpm e.core) (hposted : s.posted = [])
    (halias : s.hiddenAlias e (puts.map (·.1)) (xs.flatMap fun x => if sameOperand e x then [] else
      (touched (e.view x.pos) x.ix x.whole (!x.raw)).1 ++ (touched (e.view x.pos) x.ix x.whole (!x.raw)).2) = false)
    (hputs : ∀ w ∈ writePlan puts, (s.strandAt n).ownWrite w) (fl : List (Nat × Nat)) :
    s.vWrite e xs puts fl = (s.vLanded e n puts fl).endEntry { e.writing puts fl with plan := [] } := by
  have he' : (e.writing puts fl).strand = some n := he
  have hstrand (m : Nat) : (s.modStrand n (·.replaced (e.writing puts fl))).strandAt m =
      if m = n then (s.strandAt n).replaced (e.writing puts fl) else s.strandAt m := strandAt_setStrand ..
  have ht : (s.modStrand n (·.replaced (e.writing puts fl))).takes (e.writing puts fl) := by
    refine ⟨hs.1, fun _ => hs.2.1, fun k hk => ?_⟩
    have hsync : ((s.modStrand n (·.replaced (e.writing puts fl))).strandAt (e.core * Config.slots + k)).sync =
        (s.strandAt (e.core * Config.slots + k)).sync := by
      rw [hstrand]
      split
      · rename_i h
        rw [h]
        rfl
      · rfl
    exact hsync.symm ▸ hs.2.2 k hk
  have hown : ∀ w ∈ (e.writing puts fl).plan, ((s.modStrand n (·.replaced (e.writing puts fl))).strandAt n).ownWrite w := by
    rw [hstrand, if_pos rfl]
    exact hputs
  have hdrain := drainPlan_own (s := s.modStrand n (·.replaced (e.writing puts fl))) he' hu hpace hposted ht hown State.vFin
  rw [vFin_lanes (e := { e.writing puts fl with phase := 2, plan := [] }) he hk] at hdrain
  rw [State.vWrite]
  dsimp only
  rw [if_neg (by rw [halias]; exact Bool.false_ne_true)]
  dsimp only
  rw [putEntry_eq (e := { e with phase := 2, plan := writePlan puts, parts := laneFlags fl }) he]
  exact hdrain

/-- The strands, the memory and the scratchpad of a machine with a V entry's writes made. -/
theorem vLanded_fields (s : State) (e : Entry) (n : Nat) (puts : List Put) (fl : List (Nat × Nat)) :
    (s.vLanded e n puts fl).mem = s.mem ∧
    (∀ m, m ≠ n → (s.vLanded e n puts fl).strandAt m = s.strandAt m) ∧
    (s.vLanded e n puts fl).strandAt n = ((s.strandAt n).replaced (e.writing puts fl)).modNow (·.orLanes (laneFlags fl)) ∧
    ((∀ w ∈ writePlan puts, localBase ≤ w.1) → ∀ a, smGet 0 ((s.vLanded e n puts fl).coreAt e.core).spm a =
      puts.foldl (fun b p => written (putBytes p) (localBase + a) b) (smGet 0 (s.coreAt e.core).spm a)) := by
  let u := s.modStrand n (·.replaced (e.writing puts fl))
  obtain ⟨hframe, -⟩ := foldl_landed_frame u e.core (writePlan puts)
  have hstrands (m : Nat) : ((writePlan puts).foldl (·.landed e.core ·) u).strandAt m = u.strandAt m := (congrArg (fun t : State => t.strandAt m) hframe).trans rfl
  refine ⟨(congrArg State.mem hframe).trans rfl, fun m hm => ?_, ?_, fun h a => ?_⟩
  · rw [State.vLanded, State.modStrand, strandAt_setStrand, if_neg hm, hstrands]
    exact (strandAt_setStrand ..).trans (if_neg hm)
  · rw [State.vLanded, State.modStrand, strandAt_setStrand, if_pos rfl, hstrands]
    exact congrArg (Strand.modNow · _) ((strandAt_setStrand ..).trans (if_pos rfl))
  · exact (spm_foldl_landed u e.core h a).trans (foldl_written_writePlan ..)

/-- Settles O26: the plan of a V entry's writes is made at once, byte by byte as its codes stand, and its end takes it from its queue, raises
its flag and keeps the lanes that it raised. -/
theorem vectorWritesLand : Obligations.VectorWritesLand := by
  unfold Obligations.VectorWritesLand
  intro s e n xs puts fl he _ heng hk hu hpace hs _ hposted halias hputs t at8
  have hown : ∀ w ∈ writePlan puts, (s.strandAt n).ownWrite w := ownWrite_writePlan fun p hp => by
    obtain ⟨off, k, hspan, h1, -, hend, hwin⟩ := hputs p hp
    exact ownWrite_putBytes hspan h1 hend hwin
  have ht : t = (s.vLanded e n puts fl).endEntry { e.writing puts fl with plan := [] } := vWrite_own he hk hu hpace hs hposted halias hown fl
  obtain ⟨hmem, hothers, hstrand, hspm⟩ := vLanded_fields s e n puts fl
  have he' : ({ e.writing puts fl with plan := [] } : Entry).strand = some n := he
  obtain ⟨hmem', -, hcores', hothers'⟩ := endEntry_frame (s := s.vLanded e n puts fl) he'
  obtain ⟨hqueues, -⟩ := endEntry_strand (s := s.vLanded e n puts fl) he'
  obtain ⟨hflag, hnow⟩ := endEntry_flag (s := s.vLanded e n puts fl) he'
  rw [← ht] at hmem' hcores' hothers' hqueues hflag hnow
  have hlanes := orLanes_frame (s.strandAt n).now (laneFlags fl)
  have hnow0 : ((s.vLanded e n puts fl).strandAt n).now = (s.strandAt n).now.orLanes (laneFlags fl) := by rw [hstrand]; rfl
  refine ⟨fun a ha => ?_, hmem'.trans hmem, fun k => ?_, fun k hk => ?_, fun j hj => ?_, ?_, fun m hm => (hothers' m hm).trans (hothers m hm)⟩
  · rw [hcores' e.core]
    refine (hspm (fun w hw => by have := hown w hw; unfold Strand.ownWrite at this; omega) a).trans ?_
    refine List.foldl_ext _ _ _ fun b p hp => ?_
    obtain ⟨off, k, hspan, h1, -, -, -⟩ := hputs p hp
    have hat : at8 p = off := by
      show (p.1.1 / 8).toNat - localBase = off
      rw [hspan]
      dsimp only
      omega
    rw [written_putBytes hspan h1, hat, hspan]
    dsimp only
    rw [Nat.mul_div_cancel_left k (by decide)]
  · rw [hqueues, hstrand]
    exact queues_dropped_replaced (e := e.writing puts fl) (e' := { e.writing puts fl with plan := [] }) heng rfl rfl (s.strandAt n) k
  · rw [hflag k, hnow0, hlanes]
    rfl
  · rw [hnow]
    show smGet 0 ((s.vLanded e n puts fl).strandAt n).now.lanes j = _
    obtain ⟨hsorted, hflags⟩ := laneFlags_spec fl
    rw [hnow0, lanes_orLanes hsorted, hflags]
  · rw [hnow, hnow0, hlanes]

end Sys2Proof.Machine

/-!
What comes back to a request of the fabric (O46): acknowledgements of posted writes, data, refusals, and the trap of a failed access.
-/
namespace Sys2Proof.Machine

/-! ### Posted writes that are acknowledged (R90, R91) -/

/-- The machine in which a posted write is no longer outstanding. -/
def State.unposted (s : State) (p : Posted) : State :=
  let s := { s with posted := s.posted.filter (·.id != p.id), reqs := s.reqs.filter (·.id != p.id) }
  match p.window with
  | some w => s.modCore p.core fun c => { c with outst := smSet 0 c.outst w (smGet 0 c.outst w - 1) }
  | none => s

theorem ackPosted_found {s : State} {id : Nat} {p : Posted} (h : s.posted.find? (fun q => q.id == id) = some p) : s.ackPosted id = s.unposted p := by
  have hid : p.id = id := by simpa using List.find?_some h
  rw [State.ackPosted, h, State.unposted, hid] <;> rfl

/-- Cores are as they were but for the count of the write's window. -/
theorem coreAt_unposted (s : State) (p : Posted) (c : Nat) :
    (s.unposted p).coreAt c = { s.coreAt c with outst := ((s.unposted p).coreAt c).outst } := by
  unfold State.unposted
  dsimp only
  split
  · rw [State.modCore, coreAt_setCore]
    split
    · rename_i h
      rw [h]
      rfl
    · rfl
  · rfl

theorem unposted_frame (s : State) (p : Posted) : s.unposted p = { s with
    posted := s.posted.filter (·.id != p.id), reqs := s.reqs.filter (·.id != p.id), cores := (s.unposted p).cores } := by
  unfold State.unposted
  split <;> rfl

theorem outst_unposted (s : State) (p : Posted) (w : Nat) : smGet 0 ((s.unposted p).coreAt p.core).outst w =
    if p.window = some w then smGet 0 (s.coreAt p.core).outst w - 1 else smGet 0 (s.coreAt p.core).outst w := by
  unfold State.unposted
  dsimp only
  split
  · rename_i v hv
    rw [State.modCore, coreAt_setCore, if_pos rfl, hv]
    show smGet 0 (smSet 0 (s.coreAt p.core).outst v (smGet 0 (s.coreAt p.core).outst v - 1)) w = _
    rw [smGet_smSet]
    by_cases h : w = v
    · subst h
      rw [if_pos rfl, if_pos rfl]
    · rw [if_neg h, if_neg (by simpa using Ne.symm h)]
  · rename_i hv
    rw [hv]
    rfl

theorem unposted_strands (s : State) (p : Posted) : (s.unposted p).strands = s.strands := (congrArg State.strands (unposted_frame s p)).trans rfl

theorem plainSpm_unposted {s : State} {core : Nat} (h : s.plainSpm core) (p : Posted) : (s.unposted p).plainSpm core := by
  refine ⟨by rw [coreAt_unposted]; exact h.1, by rw [coreAt_unposted]; exact h.2.1, fun k hk => ?_⟩
  rw [State.strandAt, unposted_strands]
  exact h.2.2 k hk

theorem exec_remoteWriteAck_found {s : State} {p : Posted} (h : s.posted.find? (fun q => q.id == s.ev.n) = some p) :
    exec .remoteWriteAck s = .next (if p.pa / 2 ^ 46 = s.node then s.performPosted p else s.ackPosted p.id) := by
  rw [exec_remoteWriteAck, execRemoteWriteAck, h]
  rfl

theorem find_posted_id {s : State} {id : Nat} {p : Posted} (h : s.posted.find? (fun q => q.id == id) = some p) :
    s.posted.find? (fun q => q.id == p.id) = some p := by
  have hid : p.id = id := by simpa using List.find?_some h
  rw [hid]
  exact h

/-- A posted write of the package whose target its tenant holds. -/
theorem performPosted_own {s : State} {p : Posted} {id : Nat} (h : s.posted.find? (fun q => q.id == id) = some p)
    (ht : s.tenantOf p.core = s.tenantOf ((p.pa % 2 ^ 46 - 0x3FFE00000000) / 0x400000))
    (hs : s.plainSpm ((p.pa % 2 ^ 46 - 0x3FFE00000000) / 0x400000)) : s.performPosted p =
      (s.unposted p).putSpm ((p.pa % 2 ^ 46 - 0x3FFE00000000) / 0x400000) ((p.pa % 2 ^ 46 - 0x3FFE00000000) % 0x400000)
        (maskBytes (s.spmBytes ((p.pa % 2 ^ 46 - 0x3FFE00000000) / 0x400000) ((p.pa % 2 ^ 46 - 0x3FFE00000000) % 0x400000) p.bytes.length)
          p.bytes p.mask) := by
  have hplain := plainSpm_unposted hs p
  have htenant (c : Nat) : (s.unposted p).tenantOf c = s.tenantOf c :=
    congrArg (fun d => (smGet {} d (dieOf c)).tenant) ((congrArg State.dies (unposted_frame s p)).trans rfl)
  have hbytes (c off n : Nat) : (s.unposted p).spmBytes c off n = s.spmBytes c off n := by
    unfold State.spmBytes
    rw [coreAt_unposted]
  rw [State.performPosted, ackPosted_found (find_posted_id h)]
  dsimp only
  rw [htenant, htenant, if_pos (by rw [ht, decide_eq_true rfl]; rfl), readSpm_plain hplain, hbytes]
  exact writeSpm_plain hplain ..

theorem maskBytes_length (old new mask : List Byte) : (maskBytes old new mask).length = min old.length (min new.length mask.length) := by
  simp [maskBytes]

theorem maskBytes_getElem? {old new mask : List Byte} {i : Nat} (ho : i < old.length) (hn : i < new.length) (hm : i < mask.length) :
    (maskBytes old new mask)[i]? = some (maskByte old[i] new[i] mask[i]) := by
  simp [maskBytes, ho, hn, hm]

/-- A byte of a scratchpad after a masked write. -/
theorem spm_putSpm_maskBytes (s t : State) (core off : Nat) {new mask : List Byte} (h : new.length = mask.length)
    (ht : ∀ k, smGet 0 (t.coreAt core).spm k = smGet 0 (s.coreAt core).spm k) (k : Nat) :
    smGet 0 ((t.putSpm core off (maskBytes (s.spmBytes core off new.length) new mask)).coreAt core).spm k =
      if off ≤ k ∧ k < off + new.length then maskByte (smGet 0 (s.coreAt core).spm k) ((new[k - off]?).getD 0) ((mask[k - off]?).getD 0)
      else smGet 0 (s.coreAt core).spm k := by
  have hlen : (maskBytes (s.spmBytes core off new.length) new mask).length = new.length := by
    rw [maskBytes_length, spmBytes_length, h, Nat.min_self, Nat.min_self]
  rw [spm_putSpm, hlen, ht]
  by_cases hk : off ≤ k ∧ k < off + new.length
  · have hi : k - off < new.length := by omega
    rw [if_pos hk, if_pos hk, maskBytes_getElem? (by rw [spmBytes_length]; exact hi) hi (by omega), List.getElem?_eq_getElem hi,
      List.getElem?_eq_getElem (show k - off < mask.length by omega)]
    simp [State.spmBytes, show off + (k - off) = k by omega]
  · rw [if_neg hk, if_neg hk]

/-! ### Requests that are answered (R154, R480) -/

theorem exec_data_found {s : State} {r : Req} (h : s.findReq s.ev.n s.ev.flit = some r) : exec .data s = .next
    (if r.op ≠ 3 && r.op ≠ 4 then s.badFlit s.ev.n
     else if (smPut r.data s.ev.flit.fidx s.ev.flit.payload).length ≤ s.ev.flit.flast then s.putReq { r with data := smPut r.data s.ev.flit.fidx s.ev.flit.payload }
     else (s.closeReq r).deliver r (((smPut r.data s.ev.flit.fidx s.ev.flit.payload).flatMap (·.2)).take r.len)) := by
  rw [exec_data, execData]
  dsimp only
  rw [h]
  rfl

theorem exec_data_last {s : State} {r : Req} (h : s.findReq s.ev.n s.ev.flit = some r) (hop : r.op = 3 ∨ r.op = 4) (hdata : r.data = [])
    (hlast : s.ev.flit.flast = 0) (hlen : s.ev.flit.payload.length = r.len) :
    exec .data s = .next ((s.closeReq r).deliver r s.ev.flit.payload) := by
  have hbad : (decide (r.op ≠ 3) && decide (r.op ≠ 4)) = false := by
    rcases hop with h | h <;> rw [h] <;> rfl
  have hflits : ((smPut [] s.ev.flit.fidx s.ev.flit.payload : SMap (List Byte)).flatMap (·.2)).take r.len = s.ev.flit.payload := by
    show (s.ev.flit.payload ++ []).take r.len = _
    rw [List.append_nil, List.take_of_length_le (Nat.le_of_eq hlen)]
  rw [exec_data_found h, hbad, hdata, hlast, hflits]
  rfl

theorem findReq_toHost {s : State} {d : Nat} {f : Flit} {r : Req} (h : s.findReq d f = some r) : r.toHost = false := by
  have := List.find?_some h
  simp only [Bool.and_eq_true, Bool.not_eq_true'] at this
  exact this.1.1.1

theorem closeReq_frame (s : State) (r : Req) : s.closeReq r = { s with reqs := s.reqs.filter (·.id != r.id), dies := (s.closeReq r).dies } := by
  unfold State.closeReq
  dsimp only
  split <;> rfl

theorem inFlight_closeReq {s : State} {r : Req} (h : r.toHost = false) :
    ((s.closeReq r).dieAt r.die).inFlight = (s.dieAt r.die).inFlight - r.flits.length := by
  unfold State.closeReq
  dsimp only
  rw [if_neg (by rw [h]; decide), modDie_eq, dieAt_setDie, if_pos rfl]
  rfl

/-- Reserve credits come back for flits that need no reservation: none (R494). -/
theorem regain_reserved {r : Req} (h : ∀ g ∈ r.flits, g.rsv = 1) (s : State) (n : Nat) : s.regain r n = s := by
  have hnone : r.flits.find? (·.rsv == 0) = none := List.find?_eq_none.2 fun g hg => by simp [h g hg]
  rw [State.regain, hnone]

/-- A value for the one entry of a strand's board that waits for a request. -/
theorem board_deliverScalar {u : State} {m : Nat} {r : Req} {b : Board} (bs : List Byte) (hamo : (u.strandAt m).amo = none)
    (hboard : (u.strandAt m).board = [b]) (hreq : b.req = r.id) (hhost : r.toHost = false) (hsize : bs.length = b.size) :
    u.deliverScalar m r bs = u.modStrand m fun x => { x with board :=
      [{ b with req := 0, val := some (if b.size ≤ 8 then (loadVal b.sext bs).setWidth 256 else BitVec.ofNat 256 (leNat bs)) }] } := by
  have hfill : u.fillHostLine (coreOf m) r bs = u := by
    unfold State.fillHostLine
    dsimp only
    rw [hhost]
    rfl
  rw [State.deliverScalar, hamo, if_neg nofun]
  dsimp only
  rw [hfill, hhost, State.modStrand, State.modStrand]
  refine congrArg (u.setStrand m) ?_
  rw [hboard]
  simp [hreq, List.take_of_length_le (Nat.le_of_eq hsize)]

/-! ### Requests that fail (R246, R489, R499) -/

theorem reqs_landAll (s : State) (n : Nat) (h : (s.strandAt n).late = []) : (s.landAll n).reqs = s.reqs := by
  rw [landAll_of_late_nil h]
  rfl

theorem reqs_undefCells (s : State) (core : Nat) (rs : List (Nat × Nat)) : (s.undefCells core rs).reqs = s.reqs := by
  unfold State.undefCells
  refine List.foldlRecOn (motive := fun t : State => t.reqs = s.reqs) rs _ rfl fun t ht q _ => ?_
  exact List.foldlRecOn (motive := fun t : State => t.reqs = s.reqs) (List.range q.2) _ ht fun u hu i _ => hu

theorem reqs_noteRedo (s : State) (n : Nat) (l : List Region) : (s.noteRedo n l).reqs = s.reqs := by
  unfold State.noteRedo State.modTask
  dsimp only
  split
  · split <;> rfl
  · rfl

theorem reqs_enterTrap {s : State} {n : Nat} {p : Pending} (hl : (s.strandAt n).late = []) (ht : (s.strandAt n).now.trapped = false)
    (hv : (s.coreAt (coreOf n)).tvec ≠ 0) : (s.enterTrap n p).reqs = s.reqs := by
  obtain ⟨u, hu, hreqs⟩ : ∃ u, u = (s.landAll n).undefCells (coreOf n) (((s.landAll n).strandAt n).discards p.rid) ∧ u.reqs = s.reqs :=
    ⟨_, rfl, (reqs_undefCells ..).trans (reqs_landAll s n hl)⟩
  have hx : (s.landAll n).strandAt n = s.strandAt n := by
    rw [landAll_of_late_nil hl, strandAt_setStrand, if_pos rfl, ← hl]
  have hview := sameTrapView_undefCells (s.landAll n) (coreOf n) (((s.landAll n).strandAt n).discards p.rid)
  have htvec : (u.coreAt (coreOf n)).tvec = (s.coreAt (coreOf n)).tvec := by
    rw [hu, hview.tvec, landAll_of_late_nil hl]
    rfl
  have hnow : (u.strandAt n).now.trapped = false := by rw [hu, hview.strandAt, hx]; exact ht
  unfold State.enterTrap
  dsimp only
  rw [← hu, if_neg (by rw [hnow, htvec]; simpa using hv)]
  exact (reqs_noteRedo ..).trans hreqs

/-- A fault that its report makes ready is taken at once (R246), and no request changes. -/
theorem trapAt_recordFault_of_ready {s : State} {n : Nat} {p : Pending} (hf : (s.strandAt n).fault = none) (hp : p.replay = 0)
    (hlate : (s.strandAt n).late = []) (htrap : (s.strandAt n).now.trapped = false) (htvec : (s.coreAt (coreOf n)).tvec ≠ 0)
    (hready : ((s.strandAt n).faulted p).faultReady = true) : TrapAt s (s.recordFault n p) n p ∧ (s.recordFault n p).reqs = s.reqs := by
  have hn : (s.setStrand n ((s.strandAt n).faulted p)).strandAt n = (s.strandAt n).faulted p := by rw [strandAt_setStrand, if_pos rfl]
  have htake : s.recordFault n p = (s.setStrand n ((s.strandAt n).faulted p)).enterTrap n p := by
    rw [recordFault_of_no_fault hf, if_pos hready, State.takeFault, hn]
    simp [Strand.faulted, hp]
  have hlate' : ((s.setStrand n ((s.strandAt n).faulted p)).strandAt n).late = [] := by rw [hn]; exact hlate
  have htrap' : ((s.setStrand n ((s.strandAt n).faulted p)).strandAt n).now.trapped = false := by rw [hn]; exact htrap
  obtain ⟨ht, -⟩ := trapAt_enterTrap (p := p) hlate' htrap' htvec
  rw [htake]
  exact ⟨ht.of_view (by rw [hn]; rfl) (by rw [hn]; rfl) rfl fun m hne => by rw [strandAt_setStrand, if_neg hne],
    reqs_enterTrap hlate' htrap' htvec⟩

/-- The fault of a strand's one outstanding access is ready as it is reported. -/
theorem faultReady_of_board {s : State} {n : Nat} {b : Board} {p : Pending} (hb : (s.strandAt n).board = [b]) (hq : (s.strandAt n).queues = [])
    (hseq : p.seq = b.seq) (hrid : p.rid = b.rid) (hclear : s.clearBefore n b.seq b.rid) : ((s.strandAt n).faulted p).faultReady = true := by
  obtain ⟨hflight, hchecks⟩ := hclear
  have hf : ((s.strandAt n).faulted p).flight = none := by rw [Strand.faulted, hseq]; exact hflight
  have hi : ((s.strandAt n).faulted p).idle = true := by
    simp [Strand.idle, Strand.faulted, hb, hq, hseq]
  show (((s.strandAt n).faulted p).idle && ((s.strandAt n).faulted p).flight.isNone &&
    ((s.strandAt n).regions.takeWhile (·.rid != p.rid)).all fun r => r.expCycles == 0 || r.checked) = true
  simp only [hi, hf, hrid, Option.isNone_none, Bool.true_and, List.all_eq_true, Bool.or_eq_true, beq_iff_eq]
  exact hchecks

/-- What the trap of a failed load says of it. -/
def failTrap (r : Req) (b : Board) (t : Trap) : Pending :=
  { cause := t.1, info := if r.toHost then BitVec.ofNat 64 (r.addr / r.len * r.len + b.addr.toNat % r.len) else b.addr, aux := BitVec.ofNat 64 t.2,
    seq := b.seq, rid := b.rid }

/-- A strand that can trap traps when its load fails, and the request is closed. -/
theorem failReq_trap {s : State} {r : Req} {m : Nat} {b : Board} (ho : r.owner = .strand m) (hamo : (s.strandAt m).amo = none)
    (hb : (s.strandAt m).board = [b]) (hreq : b.req = r.id) (hf : (s.strandAt m).fault = none) (hq : (s.strandAt m).queues = [])
    (hlate : (s.strandAt m).late = []) (htrap : (s.strandAt m).now.trapped = false) (htvec : (s.coreAt (coreOf m)).tvec ≠ 0)
    (hclear : s.clearBefore m b.seq b.rid) (t : Trap) (code : Nat) :
    ((s.closeReq r).failReq r t code).reqs = s.reqs.filter (·.id != r.id) ∧ TrapAt s ((s.closeReq r).failReq r t code) m (failTrap r b t) := by
  have hframe := closeReq_frame s r
  have hstrand (k : Nat) : (s.closeReq r).strandAt k = s.strandAt k := (congrArg (fun u : State => u.strandAt k) hframe).trans rfl
  have hcore (k : Nat) : (s.closeReq r).coreAt k = s.coreAt k := (congrArg (fun u : State => u.coreAt k) hframe).trans rfl
  have hfail : (s.closeReq r).failReq r t code = (s.closeReq r).recordFault m (failTrap r b t) := by
    rw [State.failReq, ho]
    show (s.closeReq r).failScalar m r t = _
    rw [State.failScalar, hstrand, hamo, if_neg nofun, hb]
    dsimp only
    rw [show [b].find? (fun b => b.req == r.id) = some b by simp [hreq]]
    rfl
  obtain ⟨htrapAt, hreqs⟩ := trapAt_recordFault_of_ready (s := s.closeReq r) (n := m) (p := failTrap r b t) (by rw [hstrand]; exact hf) rfl
    (by rw [hstrand]; exact hlate) (by rw [hstrand]; exact htrap) (by rw [hcore]; exact htvec)
    (by rw [hstrand]; exact faultReady_of_board hb hq rfl rfl hclear)
  rw [hfail]
  refine ⟨hreqs.trans ((congrArg State.reqs hframe).trans rfl), htrapAt.of_view ?_ ?_ ?_ fun k _ => hstrand k⟩
  · rw [hstrand]
  · rw [hstrand]
  · rw [hcore]

theorem exec_nak_found {s : State} {r : Req} (h : s.findReq s.ev.n s.ev.flit = some r) (hflits : ∀ g ∈ r.flits, g.rsv = 1) {m : Nat}
    (ho : r.owner = .strand m) (hcode : leNat ((s.ev.flit.payload.drop 32).take 1) ≠ 1) : exec .nak s = .next ((s.closeReq r).failReq r
      (nakTrap r s.ev.flit (leNat ((s.ev.flit.payload.drop 32).take 1))) (leNat ((s.ev.flit.payload.drop 32).take 1))) := by
  rw [exec_nak, execNak]
  dsimp only
  rw [h]
  dsimp only
  rw [if_neg hcode, regain_reserved hflits, ho]
  rfl

theorem exec_nak_again {s : State} {r : Req} (h : s.findReq s.ev.n s.ev.flit = some r) (hcode : leNat ((s.ev.flit.payload.drop 32).take 1) = 1) :
    exec .nak s = .next (s.retryFlit r (bitsOf (leNat (s.ev.flit.payload.take 32)) 53 48) (bitsOf (leNat (s.ev.flit.payload.take 32)) 255 224)) := by
  rw [exec_nak, execNak]
  dsimp only
  rw [h]
  dsimp only
  rw [if_pos hcode]
  rfl

theorem exec_ack_posted {s : State} {r : Req} (h : s.findReq s.ev.n s.ev.flit = some r) (hflits : ∀ g ∈ r.flits, g.rsv = 1) {m : Nat}
    (ho : r.owner = .posted m) : exec .ack s = .next ((s.closeReq r).ackPosted r.id) := by
  rw [exec_ack, execAck]
  dsimp only
  rw [h]
  dsimp only
  rw [regain_reserved hflits, ho]
  rfl

/-- A reply that answers no request is discarded and counted (R489). -/
theorem exec_reply_unknown {s : State} (h : s.findReq s.ev.n s.ev.flit = none) : exec .data s = .next (s.badFlit s.ev.n) ∧
    exec .ack s = .next (s.badFlit s.ev.n) ∧ exec .nak s = .next (s.badFlit s.ev.n) := by
  refine ⟨?_, ?_, ?_⟩
  · rw [exec_data, execData]
    dsimp only
    rw [h]
    rfl
  · rw [exec_ack, execAck]
    dsimp only
    rw [h]
    rfl
  · rw [exec_nak, execNak]
    dsimp only
    rw [h]
    rfl

/-- A flit that is sent again carries the age that its refusal brought, after the backoff of its count (R488). -/
theorem retryFlit_spec (s : State) (r : Req) (i age : Nat) : ∃ q, (s.retryFlit r i age).reqs = (s.reqs.map fun y => if y.id = r.id then q else y) ∧
    q.id = r.id ∧ smGet 0 q.naks i = smGet 0 r.naks i + 1 ∧ smFind q.backoff i = some (64 * 2 ^ min (smGet 0 r.naks i + 1) 6) ∧
    (∀ g ∈ q.flits, g.fidx = i → g.age = age) ∧ (s.retryFlit r i age).strands = s.strands ∧ (s.retryFlit r i age).mem = s.mem := by
  refine ⟨_, rfl, rfl, (smGet_smPut ..).trans (if_pos rfl), (smFind_smPut ..).trans (if_pos rfl), fun g hg hi => ?_, rfl, rfl⟩
  obtain ⟨g', -, rfl⟩ := List.mem_map.1 hg
  by_cases h : g'.fidx = i
  · rw [if_pos h]
  · rw [if_neg h] at hi
    exact absurd hi h

/-- A flit whose backoff ends goes before its gateway's port with the token that it holds (R488, R497). -/
theorem exec_retryBackoff_found {s : State} {r : Req} {w : Nat} (h : s.reqs.find? (·.id == s.ev.n) = some r) (hw : smFind r.backoff s.ev.k = some w) :
    exec .retryBackoff s = .next ((s.putReq { r with backoff := smDel r.backoff s.ev.k }).inject r.die (r.flits.filter (·.fidx == s.ev.k))) := by
  rw [exec_retryBackoff, execRetryBackoff, h]
  dsimp only
  rw [hw]
  rfl

theorem inject_of_tokens (s : State) (d : Nat) {l : List Flit} (h : ∀ g ∈ l, g.tc ≠ 0 ∨ g.token = smGet 0 (s.dieAt d).token g.tenant) :
    s.inject d l = s.setDie d { s.dieAt d with inject := (s.dieAt d).inject ++ l } := by
  have hmap : (l.map fun f => if f.tc = 0 then { f with token := smGet 0 (s.dieAt d).token f.tenant } else f) = l := by
    refine (List.map_congr_left fun g hg => ?_).trans (List.map_id l)
    rcases h g hg with h0 | ht
    · exact if_neg h0
    · rw [← ht]
      exact ite_self g
  rw [State.inject, modDie_eq, hmap]

/-- Settles O46: an acknowledged write leaves the outstanding ones and its window's count, and within the package is made then; a reply is
matched to its request, which it completes, has sent again, or fails with the trap of the load. -/
theorem fabricReplies : Obligations.FabricReplies := by
  unfold Obligations.FabricReplies
  refine ⟨fun s p hp => ?_, fun s => ?_⟩
  · intro core off
    have hid : p.id = s.ev.n := by simpa using List.find?_some hp
    have hframe := unposted_frame s p
    have hposted : (s.unposted p).posted = s.posted.filter (·.id != s.ev.n) := by rw [← hid]; exact (congrArg State.posted hframe).trans rfl
    have hmem : (s.unposted p).mem = s.mem := (congrArg State.mem hframe).trans rfl
    refine ⟨fun hnode => ⟨s.unposted p, ?_, hposted, hmem, unposted_strands s p, outst_unposted s p⟩, fun hnode ht hs hlen hend => ?_⟩
    · rw [exec_remoteWriteAck_found hp, if_neg hnode, ackPosted_found (find_posted_id hp)]
    · refine ⟨(s.unposted p).putSpm core off (maskBytes (s.spmBytes core off p.bytes.length) p.bytes p.mask),
        (exec_remoteWriteAck_found hp).trans (by rw [if_pos hnode, performPosted_own hp ht hs]), hposted, unposted_strands s p, hmem, fun k => ?_⟩
      exact spm_putSpm_maskBytes s (s.unposted p) core off hlen (fun k => by rw [coreAt_unposted]) k
  · intro d f bad
    refine ⟨fun h => exec_reply_unknown h, fun r h => ?_, fun r w h hw hflits => ?_⟩
    · intro closed code
      have hhost := findReq_toHost h
      have hframe := closeReq_frame s r
      have hstrand (k : Nat) : (s.closeReq r).strandAt k = s.strandAt k := (congrArg (fun u : State => u.strandAt k) hframe).trans rfl
      have hclosed : (s.closeReq r).reqs = s.reqs.filter (·.id != r.id) := (congrArg State.reqs hframe).trans rfl
      refine ⟨fun h3 h4 => ?_, fun h3 hlen => ?_, fun m b ho hamo hb hreq => ⟨fun h3 hdata hlast hlen hsize hle _ => ?_, ?_⟩,
        fun m ho hamo h4 hdata hlast hlen => ?_, fun m p ho hp hflits => ?_, fun hcode => ?_⟩
      · rw [exec_data_found h, if_pos (by simp [h3, h4])]
        rfl
      · rw [exec_data_found h, if_neg (by simp [h3]), if_pos hlen]
        rfl
      · refine ⟨(s.closeReq r).deliverScalar m r f.payload, ?_, ?_⟩
        · rw [exec_data_last h (.inl h3) hdata hlast hlen, State.deliver, ho]
        · rw [board_deliverScalar f.payload (by rw [hstrand]; exact hamo) (by rw [hstrand]; exact hb) hreq hhost (hlen.trans hsize.symm), hsize]
          refine ⟨hclosed, (congrArg State.mem hframe).trans rfl, ?_, inFlight_closeReq hhost⟩
          rw [State.modStrand, strandAt_setStrand, if_pos rfl]
      · intro hcode hflits hf hq hlate htrap htvec _ h3 hclear
        have hne : code ≠ 1 := by omega
        have hnak : nakTrap r f code = (if code = 2 then 8 else 7, if code = 2 then f.sdie * 2 ^ 10 + f.snode else 5) := by
          rw [nakTrap, ho]
          dsimp only
          rw [h3]
          rcases hcode with hc | hc <;> rw [hc] <;> simp [tokenAux, causeTenantKey, causeAccess]
        obtain ⟨hreqs, htrapAt⟩ := failReq_trap ho hamo hb hreq hf hq hlate htrap htvec hclear (nakTrap r f code) code
        have htrapOf : failTrap r b (nakTrap r f code) = { cause := if code = 2 then 8 else 7, info := b.addr
                                                           aux := BitVec.ofNat 64 (if code = 2 then f.sdie * 2 ^ 10 + f.snode else 5), seq := b.seq, rid := b.rid } := by
          rw [failTrap, hnak, hhost]
          rfl
        exact ⟨_, exec_nak_found h hflits ho hne, hreqs, htrapOf ▸ htrapAt⟩
      · refine ⟨(s.closeReq r).deliverScalar m r f.payload, ?_, ?_⟩
        · rw [exec_data_last h (.inr h4) hdata hlast hlen, State.deliver, ho]
        · rw [State.deliverScalar]
          dsimp only
          rw [hstrand, if_pos hamo]
          exact ⟨hclosed, (strandAt_setStrand ..).trans (if_pos rfl)⟩
      · have hp' : (s.closeReq r).posted.find? (fun q => q.id == r.id) = some p := by
          rw [(congrArg State.posted hframe).trans rfl]
          exact hp
        have hid : p.id = r.id := by simpa using List.find?_some hp
        have hu := unposted_frame (s.closeReq r) p
        refine ⟨(s.closeReq r).unposted p, ?_, ?_, ?_, ?_, ?_, fun w => ?_⟩
        · rw [exec_ack_posted h hflits ho, ackPosted_found hp']
        · show ((s.closeReq r).unposted p).reqs = _
          rw [(congrArg State.reqs hu).trans rfl, hclosed, hid, List.filter_filter]
          simp only [Bool.and_self]
        · rw [(congrArg State.posted hu).trans rfl, hid, (congrArg State.posted hframe).trans rfl]
        · rw [unposted_strands, (congrArg State.strands hframe).trans rfl]
        · rw [(congrArg State.mem hu).trans rfl, (congrArg State.mem hframe).trans rfl]
        · have hcore : (s.closeReq r).coreAt p.core = s.coreAt p.core := (congrArg (fun u : State => u.coreAt p.core) hframe).trans rfl
          rw [outst_unposted, hcore]
      · intro hdr i n
        obtain ⟨q, hq⟩ := retryFlit_spec s r i (hdr / 2 ^ 224 % 2 ^ 32)
        exact ⟨_, q, exec_nak_again h hcode, hq⟩
    · refine ⟨_, exec_retryBackoff_found h hw, ?_⟩
      have hinject := inject_of_tokens (s.putReq { r with backoff := smDel r.backoff s.ev.k }) r.die (l := r.flits.filter (·.fidx == s.ev.k))
        fun g hg => hflits g (List.mem_filter.1 hg).1
      rw [hinject]
      exact ⟨rfl, congrArg Die.inject ((dieAt_setDie ..).trans (if_pos rfl)), rfl, rfl⟩

end Sys2Proof.Machine

/-!
What the host answers and asks of the port (O57): completions and their failures, translations and lines that it takes back, message
vectors, and the reset of a VF with its queues.
-/
namespace Sys2Proof.Machine

/-! ### What work of the package leaves of a host function (R438, R443, R447) -/

/-- What only the host and a reset change of a function. -/
def HostFn.config (f : HostFn) : Bool × Word × BitVec 32 := (f.flr, f.vfmap, f.mask)

/-- Every function's reset, VFMAP and vector masks stand. -/
structure FnsKept (s t : State) : Prop where
  config : ∀ k, (t.fnAt k).config = (s.fnAt k).config

theorem FnsKept.refl (s : State) : FnsKept s s := ⟨fun _ => rfl⟩

theorem FnsKept.trans {s t u : State} (h : FnsKept s t) (k : FnsKept t u) : FnsKept s u := ⟨fun n => (k.config n).trans (h.config n)⟩

theorem FnsKept.of_fns {s t : State} (h : t.fns = s.fns) : FnsKept s t := ⟨fun k => by rw [State.fnAt, h, State.fnAt]⟩

theorem vector_fnsKept (s : State) (fn vec : Nat) : FnsKept s (s.vector fn vec) := by
  unfold State.vector
  split
  · exact FnsKept.refl s
  · split
    · refine ⟨fun k => ?_⟩
      rw [fnAt_modFn]
      split
      · rename_i h
        rw [h]
        rfl
      · rfl
    · exact FnsKept.of_fns rfl

theorem rasVector_fnsKept (s : State) (tenant : Nat) : FnsKept s (s.rasVector tenant) :=
  List.foldlRecOn (motive := FnsKept s) _ _ (vector_fnsKept s 0 11) fun t ht p _ => ht.trans (vector_fnsKept t p.1 11)

theorem rasWrite_fnsKept (s : State) (d : Nat) (r : RasRec) : FnsKept s (s.rasWrite d r) := by
  unfold State.rasWrite
  extract_lets u x w3 a v w
  have hw : FnsKept s w := FnsKept.of_fns rfl
  split
  · exact FnsKept.of_fns rfl
  · split
    · exact hw.trans (rasVector_fnsKept w r.tenant)
    · exact hw

theorem fns_fixBefore (s : State) (a n : Nat) : (s.fixBefore a n).fns = s.fns := by
  refine List.foldlRecOn (motive := fun t : State => t.fns = s.fns) _ _ rfl fun t ht p _ => ?_
  dsimp only
  split
  · exact ht
  · split
    · exact ht
    · exact ht

theorem performMem_fnsKept (s : State) (tenant task a : Nat) (bs : List Byte) (core strand : Option Nat) :
    FnsKept s (s.performMem tenant task a bs core strand) := by
  unfold State.performMem
  dsimp only
  split
  · split
    · exact FnsKept.of_fns rfl
    · exact rasWrite_fnsKept ..
  · exact FnsKept.of_fns (fns_fixBefore ..)

theorem fns_snoopLine (s : State) (line : Nat) : (s.snoopLine line).fns = s.fns := by
  unfold State.snoopLine
  split <;> rfl

theorem fns_ite {c : Prop} [Decidable c] {a b : State × Nat} {x : SMap HostFn} (ha : a.1.fns = x) (hb : b.1.fns = x) :
    (if c then a else b).1.fns = x := by
  split
  · exact ha
  · exact hb

theorem fns_postFor (s : State) (n : Nat) (q : Posted) : (s.postFor n q).fns = s.fns := by
  unfold State.postFor
  extract_lets x node lseq prev u mask
  have hu : u.fns = s.fns := by
    simp only [u]
    split <;> rfl
  suffices h : ∀ r : State × Nat, r.1.fns = s.fns → (match r with
      | (s, id) =>
        let s := { s with posted := s.posted ++ [{ q with id, strand := n, lseq, task := x.task, mask }] }
        match q.window with
        | some w => s.modCore q.core fun c => { c with outst := smSet 0 c.outst w (smGet 0 c.outst w + 1) }
        | none => s).fns = s.fns by
    exact h _ (fns_ite hu hu)
  rintro ⟨w, id⟩ hw
  dsimp only
  split <;> exact hw

theorem fns_writeRun (s : State) (n : Nat) (sup skip : Bool) (a : Attachment) (run : Nat × Nat) : (s.writeRun n sup skip a run).1.fns = s.fns := by
  unfold State.writeRun
  extract_lets core va bs
  have hplace : (s.globalPlace core sup .wr 1 va).1.fns = s.fns := (congrArg State.fns (globalPlace_translated s core sup .wr 1 va)).trans rfl
  generalize s.globalPlace core sup .wr 1 va = r at hplace
  obtain ⟨u, p⟩ := r
  have hsnoop (line : Nat) : (if u.held.contains line then u.snoopLine line else u).fns = s.fns := by
    split
    · exact (fns_snoopLine ..).trans hplace
    · exact hplace
  cases p with
  | error t => exact hplace
  | ok p =>
    cases p with
    | mem pa =>
      dsimp only
      split
      · exact hplace
      · exact hsnoop (pa / 128)
    | host pa =>
      dsimp only
      split
      · exact hplace
      · exact hsnoop (pa / 128)
    | remote pa =>
      dsimp only
      split
      · exact hplace
      · exact (fns_postFor ..).trans hplace
    | _ => exact hplace

theorem fns_writeBack (s : State) (n : Nat) (sup skip : Bool) (a : Attachment) : (s.writeBack n sup skip a).1.fns = s.fns := by
  unfold State.writeBack
  extract_lets runs
  refine List.foldlRecOn (motive := fun p : State × Attachment × Option FillStop => p.1.fns = s.fns) runs _ rfl fun p hp run _ => ?_
  obtain ⟨t, b, stop⟩ := p
  dsimp only
  split
  · exact hp
  · have hr := fns_writeRun t n sup skip b run
    split
    · rename_i heq
      rw [heq] at hr
      exact hr.trans hp
    · rename_i heq
      rw [heq] at hr
      exact hr.trans hp

theorem fns_unsure (s : State) (pa : Nat) : (s.unsure pa).fns = s.fns := by
  unfold State.unsure
  split
  · rfl
  · split <;> rfl

theorem writeObj_fnsKept (s : State) (task pa off : Nat) (bs : List Byte) : FnsKept s (s.writeObj task pa off bs) := by
  have hput := performMem_fnsKept s 0 task (pa + off) bs none none
  unfold State.writeObj
  extract_lets sound u
  split
  · exact FnsKept.trans (t := u) hput (FnsKept.of_fns rfl)
  · exact hput

theorem releaseSlot_fnsKept (s : State) (n : Nat) (sl : SyncSlot) : FnsKept s (s.releaseSlot n sl) := by
  unfold State.releaseSlot
  extract_lets core sup u
  have hu : FnsKept s u := by
    simp only [u]
    split
    · exact FnsKept.of_fns (fns_writeBack ..)
    · exact FnsKept.refl s
  split
  · split
    · split
      · exact hu
      · exact hu.trans ((FnsKept.of_fns (fns_unsure ..)).trans (writeObj_fnsKept ..))
    · exact hu
  · exact hu

theorem cancelStrand_fnsKept (s : State) (n : Nat) : FnsKept s (s.cancelStrand n) := by
  unfold State.cancelStrand
  split
  · unfold State.leaveSlot
    extract_lets u
    have hu : FnsKept s u := List.foldlRecOn (motive := FnsKept s) _ _ (FnsKept.refl s) fun t ht p _ => ht.trans (releaseSlot_fnsKept t n p.2)
    exact hu.trans (FnsKept.of_fns rfl)
  · exact FnsKept.of_fns rfl

theorem cancelTask_fnsKept (s : State) (id : Nat) : FnsKept s (s.cancelTask id) := by
  unfold State.cancelTask
  extract_lets u
  have hu : u.fns = s.fns := (congrArg State.fns (modTask_frame ..)).trans rfl
  exact List.foldlRecOn (motive := FnsKept s) _ _ (FnsKept.of_fns hu) fun t ht n _ => ht.trans (cancelStrand_fnsKept t n)

theorem cancelQueue_fnsKept (s : State) (q : Nat) : FnsKept s (s.cancelQueue q) := by
  have hcancels : FnsKept s (s.cancelsQueue q) := List.foldlRecOn (motive := FnsKept s) _ _ (FnsKept.of_fns rfl)
    fun t ht p _ => ht.trans (cancelTask_fnsKept t p.1)
  exact hcancels.trans (FnsKept.of_fns ((congrArg State.fns (drainQueue_frame ..)).trans rfl))

/-! ### The queues of a VF in reset (R447, R455) -/

/-- One queue's part in the reset of a tenant's function. -/
def State.flrQueue (s : State) (tenant q : Nat) : State :=
  if (s.lqAt q).tenant = tenant && (s.lqAt q).state != 0 then (s.modLq q ({ · with state := 2, destroy := true })).cancelQueue q else s

theorem flrQueue_fnsKept (s : State) (tenant q : Nat) : FnsKept s (s.flrQueue tenant q) := by
  unfold State.flrQueue
  split
  · exact FnsKept.trans (t := s.modLq q ({ · with state := 2, destroy := true })) (FnsKept.of_fns rfl) (cancelQueue_fnsKept ..)
  · exact FnsKept.refl s

theorem lqAt_cancelQueue_other (s : State) {q k : Nat} (h : k ≠ q) : (s.cancelQueue q).lqAt k = s.lqAt k := by
  have hcancels : (s.cancelsQueue q).lqAt k = s.lqAt k := by
    have hlqs : (s.cancelsQueue q).lqs = (s.modLq q ({ · with cancel := true })).lqs :=
      List.foldlRecOn (motive := fun t : State => t.lqs = (s.modLq q ({ · with cancel := true })).lqs) _ _ rfl
        fun t ht p _ => (cancelTask_kept t p.1).1.trans ht
    rw [State.lqAt, hlqs]
    exact (lqAt_modLq ..).trans (if_neg h)
  have hdrain (t : State) : (t.drainQueue q).lqAt k = t.lqAt k := by
    unfold State.drainQueue
    dsimp only
    split
    · exact (lqAt_modLq t q k LaunchQueue.off).trans (if_neg h)
    · rfl
  rw [cancelQueue_eq, hdrain, hcancels]

theorem lqAt_flrQueue_other (s : State) (tenant : Nat) {q k : Nat} (h : k ≠ q) : (s.flrQueue tenant q).lqAt k = s.lqAt k := by
  unfold State.flrQueue
  split
  · exact (lqAt_cancelQueue_other _ h).trans ((lqAt_modLq ..).trans (if_neg h))
  · rfl

/-- The queue is disabled, or drains with its tasks cancelled. -/
def LaunchQueue.stopped (l : LaunchQueue) : Prop := l.state = 0 ∨ (l.state = 2 ∧ l.cancel = true)

theorem stopped_cancelQueue {s : State} {q : Nat} (h : (s.lqAt q).state = 2) : ((s.cancelQueue q).lqAt q).stopped := by
  rw [lqAt_cancelQueue h]
  split
  · exact .inl rfl
  · exact .inr ⟨h, rfl⟩

/-- A task that stands as it was, or cancelled, stays one of the two, and is cancelled where its cancelling began. -/
theorem cancelTask_either {s : State} {id : Nat} {k : Task} (i : Nat)
    (h : smFind s.tasks id = some k ∨ smFind s.tasks id = some k.cancelled) :
    smFind (s.cancelTask i).tasks id = some k ∨ smFind (s.cancelTask i).tasks id = some k.cancelled := by
  rw [(cancelTask_kept s i).2]
  split
  · subst_vars
    rcases h with h | h
    · exact .inr (by rw [h, Option.map_some])
    · exact .inr (by rw [h, Option.map_some, cancelled_cancelled])
  · exact h

theorem cancelTask_stays {s : State} {id : Nat} {k : Task} (i : Nat) (h : smFind s.tasks id = some k.cancelled) :
    smFind (s.cancelTask i).tasks id = some k.cancelled := by
  rw [(cancelTask_kept s i).2]
  split
  · subst_vars
    rw [h, Option.map_some, cancelled_cancelled]
  · exact h

section
variable {s : State} {id : Nat} {k : Task}

theorem cancelQueue_either (q : Nat) (h : smFind s.tasks id = some k ∨ smFind s.tasks id = some k.cancelled) :
    smFind (s.cancelQueue q).tasks id = some k ∨ smFind (s.cancelQueue q).tasks id = some k.cancelled := by
  rw [cancelQueue_eq, tasks_drainQueue]
  exact List.foldlRecOn (motive := fun t : State => smFind t.tasks id = some k ∨ smFind t.tasks id = some k.cancelled) _ _ h
    fun t ht p _ => cancelTask_either p.1 ht

theorem cancelQueue_stays (q : Nat) (h : smFind s.tasks id = some k.cancelled) : smFind (s.cancelQueue q).tasks id = some k.cancelled := by
  rw [cancelQueue_eq, tasks_drainQueue]
  exact List.foldlRecOn (motive := fun t : State => smFind t.tasks id = some k.cancelled) _ _ h fun t ht p _ => cancelTask_stays p.1 ht

theorem cancelQueue_cancels {q : Nat} (horigin : k.origin = .queue q) (hstate : k.state = .running)
    (h : smFind s.tasks id = some k ∨ smFind s.tasks id = some k.cancelled) : smFind (s.cancelQueue q).tasks id = some k.cancelled := by
  rcases h with h | h
  · rw [cancelQueue_eq, tasks_drainQueue]
    exact (cancelsQueue_task h horigin hstate).1
  · exact cancelQueue_stays q h

theorem flrQueue_either (tenant q : Nat) (h : smFind s.tasks id = some k ∨ smFind s.tasks id = some k.cancelled) :
    smFind (s.flrQueue tenant q).tasks id = some k ∨ smFind (s.flrQueue tenant q).tasks id = some k.cancelled := by
  unfold State.flrQueue
  split
  · exact cancelQueue_either q h
  · exact h

theorem flrQueue_stays (tenant q : Nat) (h : smFind s.tasks id = some k.cancelled) : smFind (s.flrQueue tenant q).tasks id = some k.cancelled := by
  unfold State.flrQueue
  split
  · exact cancelQueue_stays q h
  · exact h

/-- A queue of the tenant is stopped at its turn, and its running tasks are cancelled. -/
theorem flrQueue_stops {tenant q : Nat} (htenant : (s.lqAt q).tenant = tenant) (hon : (s.lqAt q).state ≠ 0) :
    ((s.flrQueue tenant q).lqAt q).stopped ∧ (k.origin = .queue q → k.state = .running →
      smFind s.tasks id = some k ∨ smFind s.tasks id = some k.cancelled → smFind (s.flrQueue tenant q).tasks id = some k.cancelled) := by
  rw [State.flrQueue, if_pos (by simp [htenant, hon])]
  refine ⟨stopped_cancelQueue (by rw [lqAt_modLq_self]), fun horigin hstate h => cancelQueue_cancels horigin hstate h⟩

end

/-- A queue that is stopped stays so. -/
theorem flrQueue_stopped {s : State} {q : Nat} (h : (s.lqAt q).stopped) (tenant k : Nat) : ((s.flrQueue tenant k).lqAt q).stopped := by
  by_cases hk : q = k
  · subst hk
    unfold State.flrQueue
    split
    · exact stopped_cancelQueue (by rw [lqAt_modLq_self])
    · exact h
  · rw [lqAt_flrQueue_other _ _ hk]
    exact h

section
variable {s : State} {tenant q : Nat} {l : List Nat} (hq : q ∈ l) (htenant : (s.lqAt q).tenant = tenant) (hon : (s.lqAt q).state ≠ 0)
include hq htenant hon

/-- The reset of a tenant's function stops each of its queues. -/
theorem flrQueues_stopped : ((l.foldl (·.flrQueue tenant ·) s).lqAt q).stopped := by
  refine foldl_reaches (P := fun t : State => t.lqAt q = s.lqAt q ∨ (t.lqAt q).stopped) (Q := fun t : State => (t.lqAt q).stopped) hq (.inl rfl)
    (fun t k ht => ?_) (fun t ht => ?_) fun t k ht => flrQueue_stopped ht tenant k
  · rcases ht with ht | ht
    · by_cases hk : q = k
      · subst hk
        exact .inr (flrQueue_stops (id := 0) (k := {}) (by rw [ht]; exact htenant) (by rw [ht]; exact hon)).1
      · exact .inl ((lqAt_flrQueue_other t tenant hk).trans ht)
    · exact .inr (flrQueue_stopped ht tenant k)
  · rcases ht with ht | ht
    · exact (flrQueue_stops (id := 0) (k := {}) (by rw [ht]; exact htenant) (by rw [ht]; exact hon)).1
    · exact flrQueue_stopped ht tenant q

/-- The running tasks of the queues of a function in reset are cancelled. -/
theorem flrQueues_cancelled {id : Nat} {k : Task} (hk : smFind s.tasks id = some k) (horigin : k.origin = .queue q) (hstate : k.state = .running) :
    smFind (l.foldl (·.flrQueue tenant ·) s).tasks id = some k.cancelled := by
  let stands (t : State) : Prop := t.lqAt q = s.lqAt q ∧ (smFind t.tasks id = some k ∨ smFind t.tasks id = some k.cancelled)
  have hstop (t : State) (ht : stands t) : smFind (t.flrQueue tenant q).tasks id = some k.cancelled :=
    (flrQueue_stops (by rw [ht.1]; exact htenant) (by rw [ht.1]; exact hon)).2 horigin hstate ht.2
  refine foldl_reaches (P := fun t : State => stands t ∨ smFind t.tasks id = some k.cancelled)
    (Q := fun t : State => smFind t.tasks id = some k.cancelled) hq (.inl ⟨rfl, .inl hk⟩)
    (fun t i ht => ?_) (fun t ht => ?_) fun t i ht => flrQueue_stays tenant i ht
  · rcases ht with ht | ht
    · by_cases hi : q = i
      · subst hi
        exact .inr (hstop t ht)
      · exact .inl ⟨(lqAt_flrQueue_other t tenant hi).trans ht.1, flrQueue_either tenant i ht.2⟩
    · exact .inr (flrQueue_stays tenant i ht)
  · rcases ht with ht | ht
    · exact hstop t ht
    · exact flrQueue_stays tenant q ht

end

/-! ### Completions (R440) -/

theorem fillHostLine_frame (s : State) (core : Nat) (r : Req) (bs : List Byte) (h : r.len ≠ 128) :
    s.fillHostLine core r bs = { s with cores := (s.fillHostLine core r bs).cores } := by
  unfold State.fillHostLine
  extract_lets a
  split
  · rfl
  · split
    · rename_i hlen
      simp [h] at hlen
    · split
      · split <;> rfl
      · rfl

/-- The value of a strand's one outstanding load of less than a line of host memory. -/
theorem deliverScalar_host {u : State} {m : Nat} {r : Req} {b : Board} {bs : List Byte} (hamo : (u.strandAt m).amo = none)
    (hboard : (u.strandAt m).board = [b]) (hreq : b.req = r.id) (hlen : r.len ≠ 128) (hsize : bs.length = b.size) :
    (u.deliverScalar m r bs).mem = u.mem ∧ (u.deliverScalar m r bs).reqs = u.reqs ∧ ((u.deliverScalar m r bs).strandAt m).board =
      [{ b with req := 0, val := some (if b.size ≤ 8 then (loadVal b.sext bs).setWidth 256 else BitVec.ofNat 256 (leNat bs)) }] := by
  have hframe := fillHostLine_frame u (coreOf m) r bs hlen
  have hstrand : (u.fillHostLine (coreOf m) r bs).strandAt m = u.strandAt m := (congrArg (fun w : State => w.strandAt m) hframe).trans rfl
  have hwhole : (r.len == 128 && r.toHost) = false := by simp [hlen]
  rw [State.deliverScalar, hamo, if_neg nofun]
  dsimp only
  rw [hwhole]
  refine ⟨(congrArg State.mem hframe).trans rfl, (congrArg State.reqs hframe).trans rfl, ?_⟩
  rw [State.modStrand, strandAt_setStrand, if_pos rfl, hstrand]
  show (u.strandAt m).board.map _ = _
  rw [hboard]
  simp [hreq, List.take_of_length_le (Nat.le_of_eq hsize)]

theorem cacheHostLine_frame (s : State) (line : Nat) :
    s.cacheHostLine line = { s with cxlCache := (s.cacheHostLine line).cxlCache, out := (s.cacheHostLine line).out } := by
  unfold State.cacheHostLine
  split
  · rfl
  · split
    · split <;> rfl
    · rfl

section
variable {s : State} {r : Req}

theorem exec_hostCompletion_ok {l : List Byte} (h : (s.reqs.find? fun q => q.id == s.ev.n && q.toHost) = some r) (hstatus : s.ev.status = 0)
    (hdata : s.ev.data = l.map some) (hlen : l.length = r.len) :
    exec .hostCompletion s = .next (((s.closeReq r).cacheHostLine (r.addr / 128)).deliver r l) := by
  have hbytes : (s.ev.data.take r.len).map (·.getD 0) = l := by
    rw [hdata, List.take_of_length_le (by rw [List.length_map, hlen]), List.map_map]
    exact List.map_id l
  have hfull : s.ev.data.length = r.len := by rw [hdata, List.length_map, hlen]
  rw [exec_hostCompletion, execHostCompletion]
  dsimp only
  rw [h]
  dsimp only
  rw [hstatus, hfull, hbytes, if_neg (by simp)]
  rfl

theorem exec_hostCompletion_failed (h : (s.reqs.find? fun q => q.id == s.ev.n && q.toHost) = some r) (hstatus : s.ev.status ≠ 0) :
    exec .hostCompletion s = .next ((s.closeReq r).failReq r (7, 1) 3) := by
  rw [exec_hostCompletion, execHostCompletion]
  dsimp only
  rw [h]
  dsimp only
  rw [if_pos (by simp [hstatus])]
  rfl

theorem exec_completionTimeout_found (h : (s.reqs.find? fun q => q.id == s.ev.n && q.toHost) = some r) :
    exec .completionTimeout s = .next ((s.closeReq r).failReq r (7, 1) 3) := by
  rw [exec_completionTimeout, execCompletionTimeout, h]
  rfl

end

/-! ### Translations and lines that the host takes back (R440, R441) -/

/-- The machine in which an ATS_INVALIDATE that now begins has removed its translation. -/
def State.atsBegun (s : State) (page : Nat) : State :=
  { s with ats := s.ats.filter (· != page), ev := { s.ev with status := 1, list := s.usersOf page } }

theorem exec_atsInvalidate_begun {s : State} (h : s.ev.status ≠ 1) : exec .atsInvalidate s = .next
    (if s.reqs.any fun r => (s.usersOf s.ev.n).contains r.id then (s.atsBegun s.ev.n).postpone .atsInvalidate
     else { s.atsBegun s.ev.n with out := s.out ++ [.atsDone s.ev.n] }) := by
  have hbegun : (if s.ev.status = 1 then s
      else { s with ats := s.ats.filter (· != s.ev.n), ev := { s.ev with status := 1, list := s.usersOf s.ev.n } }) = s.atsBegun s.ev.n := if_neg h
  rw [exec_atsInvalidate, execAtsInvalidate]
  dsimp only
  rw [hbegun]
  rfl

/-- A request that uses the page is outstanding. -/
theorem any_of_mem_usersOf {s : State} {page i : Nat} (h : i ∈ s.usersOf page) : (s.reqs.any fun r => (s.usersOf page).contains r.id) = true := by
  obtain ⟨r, hr, rfl⟩ := List.mem_map.1 h
  exact List.any_eq_true.2 ⟨r, (List.mem_filter.1 hr).1, List.contains_iff_mem.2 h⟩

/-- The machine in which the host has given up a line. -/
def State.lineGiven (s : State) (line : Nat) : State := { s with held := s.held.filter (· != line), snooped := s.snooped.filter (· != line) }

theorem exec_backInvalidateAnswer_eq (s : State) : exec .backInvalidateAnswer s = .next
    (if (s.ev.data.map (·.getD 0)).length = 128 then (s.lineGiven s.ev.n).performMem 0 0 (s.ev.n * 128) (s.ev.data.map (·.getD 0))
     else s.lineGiven s.ev.n) := rfl

/-! ### Message vectors (R443) -/

theorem exec_msixVectorUnmask_eq {s : State} (h : s.ev.status ≠ 1) : exec .msixVectorUnmask s = .next
    { s.modFn s.ev.n (fun f => { f with mask := f.mask &&& ~~~(1#32 <<< s.ev.k), pending := f.pending &&& ~~~(1#32 <<< s.ev.k) }) with
      out := s.out ++ (if (s.fnAt s.ev.n).pending.getLsbD s.ev.k then [.msix s.ev.n s.ev.k] else []) } := by
  rw [exec_msixVectorUnmask, execMsixVectorUnmask]
  dsimp only
  rw [if_neg h]
  by_cases hp : (s.fnAt s.ev.n).pending.getLsbD s.ev.k = true
  · rw [if_pos hp]
    exact congrArg Host.Outcome.next (if_pos hp)
  · rw [if_neg hp, List.append_nil]
    exact congrArg Host.Outcome.next (if_neg hp)

/-- A VF in reset: its queue's tenant and its VF enable alone stand (R447). -/
def HostFn.inReset (f : HostFn) : HostFn := { vfmap := f.vfmap, enabled := f.enabled, flr := true }

theorem exec_vfFlr_eq (s : State) : exec .vfFlr s = .next
    (if (s.fnAt s.ev.n).vfmap.getLsbD 63 then
      (List.range 8).foldl (·.flrQueue ((s.fnAt s.ev.n).vfmap.toNat % 256) ·) (s.modFn s.ev.n HostFn.inReset)
     else s.modFn s.ev.n HostFn.inReset) := by
  rw [exec_vfFlr, execVfFlr]
  by_cases h : (s.fnAt s.ev.n).vfmap.getLsbD 63 = true
  · dsimp only
    rw [h]
    rfl
  · dsimp only
    rw [if_neg h, if_pos (by simpa using h)]
    rfl

/-- Settles O57: a completion reaches the load that waits, or its failure traps; an invalidation waits for the accesses that use the page; a line
given back takes the host's bytes; a vector's pending message is sent; and a VF's reset stops the queues of its tenant. -/
theorem hostAnswers : Obligations.HostAnswers := by
  unfold Obligations.HostAnswers
  intro s n
  refine ⟨fun r m b h ho hamo hb hreq => ⟨fun l hstatus hdata hlen hle hsize => ?_, fun hf hq hclear hlate htrap htvec hhost => ?_⟩, ⟨fun hstatus husers => ?_,
    fun i hstatus hi => ?_⟩, ⟨fun hdata => ?_, fun l hl hdata hsyn hpoison hlost => ?_⟩, rfl, fun hstatus => ?_, exec_msixVectorUnmask_eq, fun hmap => ?_,
    fun hmap => ?_, rfl⟩
  · let u := (s.closeReq r).cacheHostLine (r.addr / 128)
    have hclosed := closeReq_frame s r
    have hcached := cacheHostLine_frame (s.closeReq r) (r.addr / 128)
    have hstrand : u.strandAt m = s.strandAt m :=
      ((congrArg (fun w : State => w.strandAt m) hcached).trans rfl).trans ((congrArg (fun w : State => w.strandAt m) hclosed).trans rfl)
    have hreqs : u.reqs = s.reqs.filter (·.id != r.id) := ((congrArg State.reqs hcached).trans rfl).trans ((congrArg State.reqs hclosed).trans rfl)
    have hmem : u.mem = s.mem := ((congrArg State.mem hcached).trans rfl).trans ((congrArg State.mem hclosed).trans rfl)
    obtain ⟨hmem', hreqs', hboard⟩ := deliverScalar_host (u := u) (r := r) (b := b) (bs := l) (by rw [hstrand]; exact hamo) (by rw [hstrand]; exact hb) hreq
      (by omega) (hlen.trans hsize.symm)
    refine ⟨u.deliverScalar m r l, ?_, hreqs'.trans hreqs, ?_, hmem'.trans hmem⟩
    · rw [exec_hostCompletion_ok h hstatus hdata hlen, State.deliver, ho]
    · rw [hboard, hsize]
  · intro p
    obtain ⟨hreqs, htrapAt⟩ := failReq_trap ho hamo hb hreq hf hq hlate htrap htvec hclear (7, 1) 3
    have hp : failTrap r b (7, 1) = p := by rw [failTrap, hhost]; rfl
    rw [hp] at htrapAt
    exact ⟨⟨_, exec_completionTimeout_found h, hreqs, htrapAt⟩, fun hstatus => ⟨_, exec_hostCompletion_failed h hstatus, hreqs, htrapAt⟩⟩
  · have hnone : (s.reqs.any fun r => (s.usersOf s.ev.n).contains r.id) = false :=
      List.any_eq_false.2 fun r _ => by rw [show s.usersOf s.ev.n = [] from husers]; exact Bool.false_ne_true
    rw [exec_atsInvalidate_begun hstatus, hnone, State.atsBegun, show s.usersOf s.ev.n = [] from husers]
    rfl
  · refine ⟨(s.atsBegun n).postpone .atsInvalidate, ?_, rfl, ?_, ?_⟩
    · rw [exec_atsInvalidate_begun hstatus, any_of_mem_usersOf hi]
      rfl
    · show n ∉ s.ats.filter (· != n)
      simp
    · exact List.map_append
  · rw [exec_backInvalidateAnswer_eq, hdata]
    rfl
  · have hbytes : s.ev.data.map (·.getD 0) = l := by
      rw [hdata, List.map_map]
      exact List.map_id l
    refine ⟨(s.lineGiven n).performMem 0 0 (n * 128) l, ?_, ?_⟩
    · rw [exec_backInvalidateAnswer_eq, hbytes, if_pos hl]
    · rw [performMem_of_sound (s := s.lineGiven n) hsyn hpoison hlost]
      refine ⟨rfl, rfl, rfl, fun a => ?_⟩
      exact (memByte_putMem (s.lineGiven n) (n * 128) a l).trans (by rw [hl]; rfl)
  · rw [exec_msixVectorUnmask, execMsixVectorUnmask]
    exact congrArg Host.Outcome.next (if_pos hstatus)
  · rw [exec_vfFlr_eq, show (s.fnAt s.ev.n).vfmap.getLsbD 63 = false from hmap]
    rfl
  · have hkept : FnsKept (s.modFn n HostFn.inReset)
        ((List.range 8).foldl (·.flrQueue ((s.fnAt n).vfmap.toNat % 256) ·) (s.modFn n HostFn.inReset)) :=
      List.foldlRecOn (motive := FnsKept (s.modFn n HostFn.inReset)) _ _ (FnsKept.refl _) fun t ht q _ => ht.trans (flrQueue_fnsKept ..)
    have hfn := hkept.config n
    rw [fnAt_modFn, if_pos rfl] at hfn
    simp only [HostFn.config, HostFn.inReset, Prod.mk.injEq] at hfn
    obtain ⟨hflr, hvfmap, hmask⟩ := hfn
    refine ⟨_, (exec_vfFlr_eq s).trans (congrArg Host.Outcome.next (if_pos hmap)), hflr, hvfmap, hmask, fun q hq hon htenant => ⟨?_, fun id k hk horigin hstate hzero => ?_⟩⟩
    · exact flrQueues_stopped (s := s.modFn n HostFn.inReset) (List.mem_range.2 hq) htenant hon
    · refine ⟨_, flrQueues_cancelled (s := s.modFn n HostFn.inReset) (List.mem_range.2 hq) htenant hon hk horigin hstate, ?_⟩
      exact if_pos hzero

end Sys2Proof.Machine

/-!
Requests of the fabric at their destination (O58): the answers that a die sends back, masked writes of a target, reassembled and streamed
writes, reads, and atomics at their home.
-/
namespace Sys2Proof.Machine

/-! ### Answers (R479, R480, R489) -/

/-- Flits that a die sends back to the source of `f`. -/
def State.backFlits (s : State) (d : Nat) (f : Flit) (tc op : Nat) (l : List (List Byte)) : List Flit :=
  l.zipIdx.map fun p => { tc, op, tenant := f.tenant, dnode := f.snode, ddie := f.sdie, snode := s.node, sdie := d, msgid := f.msgid, fidx := p.2
                          flast := l.length - 1, payload := p.1 }

/-- The machine with more flits before a die's injection port. -/
def State.injects (s : State) (d : Nat) (l : List Flit) : State := s.setDie d { s.dieAt d with inject := (s.dieAt d).inject ++ l }

theorem sendBack_eq {tc : Nat} (h : tc ≠ 0) (s : State) (d : Nat) (f : Flit) (op : Nat) (l : List (List Byte)) :
    s.sendBack d f tc op l = s.injects d (s.backFlits d f tc op l) := by
  refine inject_of_tokens s d fun g hg => .inl ?_
  obtain ⟨p, -, rfl⟩ := List.mem_map.1 hg
  exact h

theorem nak_eq (s : State) (d : Nat) (f : Flit) (code : Nat) :
    s.nak d f code = s.injects d (s.backFlits d f 2 0x40 [leBytes 32 f.header ++ [BitVec.ofNat 8 code]]) := sendBack_eq (by decide) ..

theorem ack_eq (s : State) (d : Nat) (f : Flit) (credits : Nat) :
    s.ack d f false credits = s.injects d (s.backFlits d f 1 0x21 [leBytes 8 0 ++ leBytes 8 credits]) := sendBack_eq (by decide) ..

theorem inject_injects (s : State) (d : Nat) (l : List Flit) : ((s.injects d l).dieAt d).inject = (s.dieAt d).inject ++ l :=
  congrArg Die.inject ((dieAt_setDie ..).trans (if_pos rfl))

theorem inject_modDie {s : State} {d : Nat} {g : Die → Die} (h : (g (s.dieAt d)).inject = (s.dieAt d).inject) :
    ((s.modDie d g).dieAt d).inject = (s.dieAt d).inject := by
  rw [modDie_eq, dieAt_setDie, if_pos rfl]
  exact h

theorem dieAt_modDie_self (s : State) (d : Nat) (g : Die → Die) : (s.modDie d g).dieAt d = g (s.dieAt d) := (dieAt_setDie ..).trans (if_pos rfl)

theorem nakToken_eq (s : State) (d : Nat) (f : Flit) : s.nakToken d f =
    (s.modDie d fun x => { x with tokFail := min (x.tokFail + 1) (2 ^ 32 - 1) }).injects d
      (s.backFlits d f 2 0x40 [leBytes 32 f.header ++ [BitVec.ofNat 8 2]]) := nak_eq ..

/-- The answer of code 2 is sent, and counted. -/
theorem inject_nakToken (s : State) (d : Nat) (f : Flit) : ((s.nakToken d f).dieAt d).inject = (s.dieAt d).inject ++
    s.backFlits d f 2 0x40 [leBytes 32 f.header ++ [BitVec.ofNat 8 2]] := by
  rw [nakToken_eq, inject_injects, inject_modDie]
  rfl

/-! ### Masked writes of a target (R91, R94) -/

theorem maskByte_zero (old new : Byte) : maskByte old new 0#8 = old := by
  show (old &&& BitVec.allOnes 8) ||| (new &&& 0#8) = old
  rw [BitVec.and_zero, BitVec.or_zero, BitVec.and_allOnes]

theorem written_of_nil (a va : Nat) (old : Byte) : written (a, []) va old = old := by
  unfold written
  split <;> rfl

/-- The runs that a mask has selected and those that its last byte joins or begins. -/
theorem maskRuns_cons (i : Nat) (p : Byte × Byte) (r : List (Byte × Byte)) (acc : List (Nat × List (Byte × Byte))) :
    maskRuns i (p :: r) acc = maskRuns (i + 1) r (if p.2 = 0 then acc
      else match acc with
        | (a, l) :: t => if a + l.length = i then (a, l ++ [p]) :: t else (i, [p]) :: acc
        | [] => [(i, [p])]) := rfl

/-- The runs of a mask, put at a base: what a byte holds after them. -/
theorem planned_maskRuns (base : Nat) (l : List (Byte × Byte)) (i : Nat) (acc : List (Nat × List (Byte × Byte))) (va : Nat) (old : Byte) :
    planned ((maskRuns i l acc).map fun r => (base + r.1, r.2)) va old = written (base + i, l) va (planned (acc.map fun r => (base + r.1, r.2)) va old) := by
  induction l generalizing i acc with
  | nil => exact (written_of_nil ..).symm
  | cons p r ih =>
    have hstep : written (base + i, p :: r) va (planned (acc.map fun r => (base + r.1, r.2)) va old) =
        written (base + (i + 1), r) va (written (base + i, [p]) va (planned (acc.map fun r => (base + r.1, r.2)) va old)) :=
      written_append (base + i) [p] r va _
    rw [maskRuns_cons, ih, hstep]
    refine congrArg (written (base + (i + 1), r) va) ?_
    by_cases hp : p.2 = 0
    · have hnone (x : Byte) : written (base + i, [p]) va x = x := by
        by_cases hva : va = base + i
        · subst hva
          simp [written, hp, maskByte_zero]
        · rcases Nat.lt_or_gt_of_ne hva with h | h
          · exact written_of_lt h x
          · exact written_of_ge h x
      rw [if_pos hp, hnone]
    · rw [if_neg hp]
      cases acc with
      | nil => rfl
      | cons q t =>
        obtain ⟨a, bs⟩ := q
        dsimp only
        split
        · rename_i h
          show written (base + a, bs ++ [p]) va _ = _
          rw [written_append, Nat.add_assoc, h]
          rfl
        · rfl

/-- A byte after the writes of a target, in their order. -/
theorem foldl_written_maskRuns (base : Nat) (l : List (Byte × Byte)) (va : Nat) (old : Byte) :
    ((maskRuns 0 l []).reverse.map fun r => (base + r.1, r.2)).foldl (fun b w => written w va b) old = written (base, l) va old := by
  rw [List.map_reverse, List.foldl_reverse]
  exact planned_maskRuns base l 0 [] va old

theorem plainSpm_landed {s : State} {core c : Nat} (h : s.plainSpm c) (w : Nat × List (Byte × Byte)) : (s.landed core w).plainSpm c := by
  obtain ⟨hsyn, hchans, hfree⟩ := h
  have hcore : (s.landed core w).coreAt c = { s.coreAt c with spm := ((s.landed core w).coreAt c).spm } := (foldl_landed_frame s core [w]).2 c
  exact ⟨by rw [hcore]; exact hsyn, by rw [hcore]; exact hchans, hfree⟩

/-- A target in a plain scratchpad takes its runs as bytes with masks. -/
theorem putTarget_spm {s : State} {core : Nat} (h : s.plainSpm core) (tenant o : Nat) (l : List (Byte × Byte)) :
    s.putTarget tenant (.spm core o) l = ((maskRuns 0 l []).reverse.map fun r => (localBase + o + r.1, r.2)).foldl (·.landed core ·) s := by
  unfold State.putTarget
  generalize (maskRuns 0 l []).reverse = runs
  induction runs generalizing s with
  | nil => rw [List.map_nil, List.foldl_nil, List.foldl_nil]
  | cons r t ih =>
    have hput : s.putRun tenant (.spm core o) r = s.landed core (localBase + o + r.1, r.2) := by
      have hoff : localBase + o + r.1 - localBase = o + r.1 := by omega
      rw [State.putRun, State.landed]
      dsimp only
      rw [readSpm_plain h, hoff]
      exact writeSpm_plain h ..
    rw [List.foldl_cons, List.map_cons, List.foldl_cons, hput, ih (plainSpm_landed h _)]

/-- A byte of memory after a masked write. -/
theorem memByte_putMem_maskBytes (s : State) (a : Nat) (l : List (Byte × Byte)) (b : Nat) :
    (s.putMem a (maskBytes (s.memBytes a l.length) (l.map (·.1)) (l.map (·.2)))).memByte b = written (a, l) b (s.memByte b) := by
  have hlen : (maskBytes (s.memBytes a l.length) (l.map (·.1)) (l.map (·.2))).length = l.length := by
    simp [maskBytes_length, memBytes_length]
  rw [memByte_putMem, hlen, written]
  dsimp only
  by_cases hlo : a ≤ b
  · rw [if_neg (show ¬ b < a by omega)]
    by_cases hhi : b < a + l.length
    · have hi : b - a < l.length := by omega
      rw [if_pos ⟨hlo, hhi⟩, List.getElem?_eq_getElem hi, maskBytes_getElem? (by rw [memBytes_length]; exact hi) (by rw [List.length_map]; exact hi)
        (by rw [List.length_map]; exact hi)]
      simp [State.memBytes, show a + (b - a) = b by omega]
    · rw [if_neg (by omega), List.getElem?_eq_none (by omega)]
  · rw [if_neg (by omega), if_pos (by omega)]

/-- A target in sound memory takes its runs as bytes with masks. -/
theorem putTarget_mem {s : State} (h : s.soundMem) (tenant a : Nat) (l : List (Byte × Byte)) : ∃ m q,
    s.putTarget tenant (.mem a) l = { s with mem := m, parity := q } ∧
    ∀ b, (s.putTarget tenant (.mem a) l).memByte b = written (a, l) b (s.memByte b) := by
  have hruns (b : Nat) := foldl_written_maskRuns a l b (s.memByte b)
  rw [State.putTarget]
  simp only [← hruns]
  generalize (maskRuns 0 l []).reverse = runs
  clear hruns
  induction runs generalizing s with
  | nil => exact ⟨s.mem, s.parity, rfl, fun b => rfl⟩
  | cons r t ih =>
    obtain ⟨p, hp⟩ := performMem_quiet h tenant 0 (a + r.1) (maskBytes (s.memBytes (a + r.1) r.2.length) (r.2.map (·.1)) (r.2.map (·.2))) none none
    have hput : s.putRun tenant (.mem a) r =
        { s.putMem (a + r.1) (maskBytes (s.memBytes (a + r.1) r.2.length) (r.2.map (·.1)) (r.2.map (·.2))) with parity := p } := hp
    have hbyte (b : Nat) : (s.putRun tenant (.mem a) r).memByte b = written (a + r.1, r.2) b (s.memByte b) := by
      rw [hput]
      exact memByte_putMem_maskBytes s (a + r.1) r.2 b
    have hsound : (s.putRun tenant (.mem a) r).soundMem := by rw [hput]; exact h
    obtain ⟨m, q, hframe, hbytes⟩ := ih hsound
    refine ⟨m, q, ?_, fun b => ?_⟩
    · rw [List.foldl_cons, hframe, hput]
      rfl
    · rw [List.foldl_cons, hbytes, hbyte]
      rfl

/-! ### Messages (R490, R492) -/

/-- What a request leaves: one die alone changes, and of it the reassembly, the counters and what goes before its port. -/
structure Answered (s t : State) (d : Nat) (l : List Flit) : Prop where
  inject : (t.dieAt d).inject = (s.dieAt d).inject ++ l
  mem : t.mem = s.mem
  cores : t.cores = s.cores
  strands : t.strands = s.strands

theorem answered_injects (s : State) (d : Nat) (l : List Flit) : Answered s (s.injects d l) d l := ⟨inject_injects s d l, rfl, rfl, rfl⟩

theorem answered_nakToken (s : State) (d : Nat) (f : Flit) :
    Answered s (s.nakToken d f) d (s.backFlits d f 2 0x40 [leBytes 32 f.header ++ [BitVec.ofNat 8 2]]) :=
  ⟨inject_nakToken s d f, rfl, rfl, rfl⟩

theorem assemble_eq (s : State) (d : Nat) (f : Flit) (bad : Nat) : ∃ rs, (s.assemble d f bad).1 = s.modDie d ({ · with reasm := rs }) := by
  unfold State.assemble
  dsimp only
  split
  · exact ⟨_, rfl⟩
  · exact ⟨_, rfl⟩

/-- A refused flit is answered by a NAK. -/
theorem answered_refuseFlit (s : State) (d : Nat) (f : Flit) (code : Nat) :
    Answered s (s.refuseFlit d f code) d (s.backFlits d f 2 0x40 [leBytes 32 f.header ++ [BitVec.ofNat 8 code]]) := by
  obtain ⟨rs, hrs⟩ := assemble_eq s d f code
  unfold State.refuseFlit
  dsimp only
  rw [hrs]
  split
  · rename_i h
    subst h
    refine ⟨?_, rfl, rfl, rfl⟩
    rw [inject_nakToken, inject_modDie]
    · rfl
    · rfl
  · refine ⟨?_, ?_, ?_, ?_⟩ <;> rw [nak_eq]
    · rw [inject_injects, inject_modDie]
      · rfl
      · rfl
    all_goals rfl

theorem tokFail_refuseFlit (s : State) (d : Nat) (f : Flit) :
    ((s.refuseFlit d f 2).dieAt d).tokFail = min ((s.dieAt d).tokFail + 1) (2 ^ 32 - 1) := by
  obtain ⟨rs, hrs⟩ := assemble_eq s d f 2
  unfold State.refuseFlit
  dsimp only
  rw [hrs, if_pos rfl, nakToken_eq, State.injects, dieAt_setDie, if_pos rfl]
  dsimp only
  rw [dieAt_modDie_self, dieAt_modDie_self]

/-- A message whose last flit comes is acknowledged once. -/
theorem answered_endMessage (s : State) (d : Nat) (f : Flit) : Answered s (s.endMessage d f) d
    (if (s.reasmFor d f).bitmap ||| 2 ^ f.fidx = 2 ^ ((s.reasmFor d f).flast + 1) - 1 ∧ (s.reasmFor d f).bad = 0 then
      s.backFlits d f 1 0x21 [leBytes 8 0 ++ leBytes 8 ((s.reasmFor d f).credits + (1 - f.rsv))] else []) := by
  unfold State.endMessage State.assemble
  extract_lets r q rest
  have hbad : q.bad = r.bad := by
    show (if r.bad = 0 then 0 else r.bad) = r.bad
    split <;> omega
  have hwhole : q.bitmap = 2 ^ (q.flast + 1) - 1 ↔ r.bitmap ||| 2 ^ f.fidx = 2 ^ (r.flast + 1) - 1 := Iff.rfl
  have hquiet (rs : List Reasm) : ((s.modDie d ({ · with reasm := rs })).dieAt d).inject = (s.dieAt d).inject := inject_modDie rfl
  by_cases hall : q.bitmap = 2 ^ (q.flast + 1) - 1
  · rw [if_pos hall]
    dsimp only
    by_cases hzero : q.bad = 0
    · rw [if_pos hzero, if_pos ⟨hwhole.1 hall, hbad ▸ hzero⟩, ack_eq]
      exact ⟨(inject_injects ..).trans (congrArg (· ++ _) (hquiet _)), rfl, rfl, rfl⟩
    · rw [if_neg hzero, if_neg fun h => hzero (hbad.trans h.2)]
      exact ⟨(hquiet _).trans (List.append_nil _).symm, rfl, rfl, rfl⟩
  · rw [if_neg hall, if_neg fun h => hall (hwhole.2 h.1)]
    exact ⟨(hquiet _).trans (List.append_nil _).symm, rfl, rfl, rfl⟩

section
variable {s : State} (hdup : s.duplicate s.ev.n s.ev.flit = false)
include hdup

/-- A flit of a message to a home in sound memory. -/
theorem exec_write_mem {a : Nat} (ht : s.target (s.ev.flit.addr + 256 * s.ev.flit.fidx) = some (.mem a))
    (hok : s.tokenOk s.ev.n s.ev.flit (s.ownerOf a) = true) (hheld : s.held = []) :
    exec .write s = .next (((s.putTarget s.ev.flit.tenant (.mem a) (s.ev.flit.payload.map fun b => (b, 0xFF))).settleLines (.mem a)
      s.ev.flit.payload.length).endMessage s.ev.n s.ev.flit) := by
  have hlines : s.heldLines (.mem a) s.ev.flit.payload.length = [] := by
    rw [State.heldLines, hheld]
    exact List.filter_eq_nil_iff.2 fun _ _ => Bool.false_ne_true
  rw [exec_write, execWrite]
  rw [hdup, ht]
  dsimp only
  rw [if_neg Bool.false_ne_true, if_neg (by rw [show s.targetOwner (.mem a) = s.ownerOf a from rfl, hok]; decide), hlines]
  rfl

theorem exec_write_none (ht : s.target (s.ev.flit.addr + 256 * s.ev.flit.fidx) = none) : exec .write s = .next (s.refuseFlit s.ev.n s.ev.flit 3) := by
  rw [exec_write, execWrite]
  rw [hdup, ht]
  rfl

theorem exec_write_token {a : Target} (ht : s.target (s.ev.flit.addr + 256 * s.ev.flit.fidx) = some a) (ha : ∀ o, a ≠ .dev o)
    (hok : s.tokenOk s.ev.n s.ev.flit (s.targetOwner a) = false) : exec .write s = .next (s.refuseFlit s.ev.n s.ev.flit 2) := by
  rw [exec_write, execWrite]
  rw [hdup, ht]
  cases a with
  | dev o => exact absurd rfl (ha o)
  | spm c o => dsimp only; rw [hok]; rfl
  | mem p => dsimp only; rw [hok]; rfl
  | host p => dsimp only; rw [hok]; rfl

end

/-- The bytes of a write without mask. -/
theorem written_unmasked (a : Nat) (bs : List Byte) (va : Nat) (old : Byte) : written (a, bs.map fun b => (b, 0xFF)) va old =
    if a ≤ va ∧ va < a + bs.length then (bs[va - a]?).getD 0 else old := by
  unfold written
  dsimp only
  by_cases hlo : a ≤ va
  · rw [if_neg (by omega), List.getElem?_map]
    by_cases hhi : va < a + bs.length
    · rw [if_pos ⟨hlo, hhi⟩, List.getElem?_eq_getElem (show va - a < bs.length by omega)]
      exact maskByte_full ..
    · rw [if_neg (by omega), List.getElem?_eq_none (show bs.length ≤ va - a by omega)]
      rfl
  · rw [if_pos (by omega), if_neg (by omega)]

theorem completeWhere_settle (s : State) (t : Target) (n : Nat) : ∃ q, s.settleLines t n = { s with parity := q } := by
  cases t with
  | mem a => exact completeWhere_eq ..
  | _ => exact ⟨s.parity, rfl⟩

/-- The die when a posted write has been performed: its stream knows it, and the writes that waited for it wait no longer. -/
def Die.streamed (x : Die) (f : Flit) : Die :=
  { x with
    streams := smPut x.streams (streamKey f) ((f.lseq :: smGet [] x.streams (streamKey f)).take 128)
    waiting := x.waiting.filter fun g => !(streamKey g == streamKey f && g.prev == f.lseq) }

/-- The machine in which a posted write's stream goes on. -/
def State.streamed (s : State) (d : Nat) (f : Flit) : State :=
  (s.setDie d ((s.dieAt d).streamed f)).post
    (((s.dieAt d).waiting.filter fun g => streamKey g == streamKey f && g.prev == f.lseq).map fun g => (.writem, { agent := .remote g.snode, n := d, flit := g }))

theorem dieAt_streamed (s : State) (d : Nat) (f : Flit) : (s.streamed d f).dieAt d = (s.dieAt d).streamed f := (dieAt_setDie ..).trans (if_pos rfl)

theorem endWritem_eq (s : State) (d : Nat) (f : Flit) : s.endWritem d f = (s.streamed d f).injects d (s.backFlits d f 1 0x21 [leBytes 8 0 ++ leBytes 8 0]) := by
  unfold State.endWritem
  dsimp only
  rw [ack_eq, dieAt_modDie_self, modDie_eq, modDie_eq, dieAt_setDie, if_pos rfl, setDie_setDie]
  rfl

/-- A performed posted write is acknowledged, its stream goes on, and the writes that waited for it are taken. -/
theorem endWritem_spec (s : State) (d : Nat) (f : Flit) : Answered s (s.endWritem d f) d (s.backFlits d f 1 0x21 [leBytes 8 0 ++ leBytes 8 0]) ∧
    f.lseq ∈ smGet [] ((s.endWritem d f).dieAt d).streams (streamKey f) ∧ (s.endWritem d f).inbox = s.inbox ++
      ((s.dieAt d).waiting.filter fun g => streamKey g == streamKey f && g.prev == f.lseq).map fun g => (.writem, { agent := .remote g.snode, n := d, flit := g }) := by
  rw [endWritem_eq]
  refine ⟨⟨?_, rfl, rfl, rfl⟩, ?_, rfl⟩
  · rw [inject_injects, dieAt_streamed]
    rfl
  · rw [State.injects, dieAt_setDie, if_pos rfl, dieAt_streamed]
    show f.lseq ∈ smGet [] (smPut (s.dieAt d).streams (streamKey f) _) (streamKey f)
    rw [smGet_smPut, if_pos rfl, List.take_succ_cons]
    exact List.mem_cons_self

theorem streamReady_iff (s : State) (d : Nat) (f : Flit) :
    s.streamReady d f = true ↔ f.prev = f.lseq ∨ f.prev ∈ smGet [] (s.dieAt d).streams (f.snode * 2048 + f.sstr) := by
  rw [State.streamReady, Bool.or_eq_true, beq_iff_eq, List.contains_iff_mem]
  rfl

section
variable {s : State} {a : Target} (ht : s.target s.ev.flit.addr = some a)
include ht

theorem exec_writem_token (hok : s.tokenOk s.ev.n s.ev.flit (s.targetOwner a) = false) : exec .writem s = .next (s.nakToken s.ev.n s.ev.flit) := by
  rw [exec_writem, execWritem]
  rw [ht]
  dsimp only
  rw [hok]
  rfl

theorem exec_writem_early (hok : s.tokenOk s.ev.n s.ev.flit (s.targetOwner a) = true) (hready : s.streamReady s.ev.n s.ev.flit = false) :
    exec .writem s = .next (s.modDie s.ev.n fun x => { x with waiting := x.waiting ++ [s.ev.flit] }) := by
  rw [exec_writem, execWritem]
  rw [ht]
  dsimp only
  rw [hok, hready]
  rfl

end

section
variable {s : State} (hready : s.streamReady s.ev.n s.ev.flit = true)
include hready

theorem exec_writem_spm {c o : Nat} (ht : s.target s.ev.flit.addr = some (.spm c o)) (hok : s.tokenOk s.ev.n s.ev.flit (s.tenantOf c) = true) :
    exec .writem s = .next ((s.putTarget s.ev.flit.tenant (.spm c o)
      ((s.ev.flit.payload.take 128).zip (s.ev.flit.payload.drop 128))).endWritem s.ev.n s.ev.flit) := by
  rw [exec_writem, execWritem]
  rw [ht]
  dsimp only
  rw [show s.targetOwner (.spm c o) = s.tenantOf c from rfl, hok, hready]
  rfl

theorem exec_writem_dev {o i : Nat} {v : Word} {r : DevReg} (ht : s.target s.ev.flit.addr = some (.dev o)) (hok : s.tokenOk s.ev.n s.ev.flit 0 = true)
    (hreg : lineReg o ((s.ev.flit.payload.take 128).zip (s.ev.flit.payload.drop 128)) = some (i, v)) (hdev : devReg i = some r) :
    exec .writem s = .next ((s.post (s.devWrites (.remote s.ev.flit.snode) 0 i r v)).endWritem s.ev.n s.ev.flit) := by
  rw [exec_writem, execWritem]
  rw [ht]
  dsimp only
  rw [show s.targetOwner (.dev o) = 0 from rfl, hok, hready, hreg]
  dsimp only
  rw [hdev]
  rfl

end

/-! ### Reads and atomics (R192, R480) -/

theorem scanSpm_plain {s : State} {core : Nat} (h : s.plainSpm core) (tenant task off n : Nat) : s.scanSpm core tenant task off n = (s, .ok) :=
  if_pos (by rw [h.1]; rfl)

/-- A register's bytes fill one flit. -/
theorem chunksOf_leBytes (v : Nat) : chunksOf 256 (leBytes 8 v) = [leBytes 8 v] := by
  have hlen : (leBytes 8 v).length ≤ 256 := by rw [leBytes_length]; decide
  rw [chunksOf, leBytes_length, show (8 + 256 - 1) / 256 = 1 from rfl, List.range_one, List.map_singleton, Nat.zero_mul, List.drop_zero,
    List.take_of_length_le hlen]

theorem exec_read_none {s : State} (ht : s.target s.ev.flit.addr = none) : exec .read s = .next (s.nak s.ev.n s.ev.flit 3) := by
  rw [exec_read, execRead]
  rw [ht]
  rfl

section
variable {s : State} {a b : Target} (ht : s.target s.ev.flit.addr = some a)
    (hu : s.target (s.ev.flit.addr + (leNat (s.ev.flit.payload.take 2) - 1)) = some b)
    (h1 : 1 ≤ leNat (s.ev.flit.payload.take 2)) (hle : leNat (s.ev.flit.payload.take 2) ≤ 16384)
include ht hu h1 hle

theorem exec_read_token (hok : s.tokenOk s.ev.n s.ev.flit (s.targetOwner a) = false ∨ s.tokenOk s.ev.n s.ev.flit (s.targetOwner b) = false) :
    exec .read s = .next (s.nakToken s.ev.n s.ev.flit) := by
  rw [exec_read, execRead]
  rw [ht, hu]
  dsimp only
  rw [if_neg (by simp only [Bool.or_eq_true, decide_eq_true_eq]; omega), if_pos (by rcases hok with h | h <;> simp [h])]
  rfl

variable (ha : s.tokenOk s.ev.n s.ev.flit (s.targetOwner a) = true) (hb : s.tokenOk s.ev.n s.ev.flit (s.targetOwner b) = true)
include ha hb

theorem exec_read_host {p : Nat} (hhost : a = .host p) : exec .read s = .next
    (s.requestHost s.ev.n (.peer s.ev.n s.ev.flit) s.ev.flit.addr s.ev.flit.tenant (leNat (s.ev.flit.payload.take 2)) 0).1 := by
  subst hhost
  rw [exec_read, execRead]
  rw [ht, hu]
  dsimp only
  rw [if_neg (by simp only [Bool.or_eq_true, decide_eq_true_eq]; omega), if_neg (by simp [ha, hb])]
  rfl

/-- A read that its home serves is answered with the bytes in flits. -/
theorem exec_read_served {l : List Byte} (hhost : ∀ p, a ≠ .host p) (hheld : s.heldLines a (leNat (s.ev.flit.payload.take 2)) = [])
    (hserve : s.serveRead s.ev.flit.tenant a (leNat (s.ev.flit.payload.take 2)) = (s, some l)) :
    exec .read s = .next (s.injects s.ev.n (s.backFlits s.ev.n s.ev.flit 1 0x20 (chunksOf 256 l))) := by
  rw [exec_read, execRead]
  rw [ht, hu]
  dsimp only
  rw [if_neg (by simp only [Bool.or_eq_true, decide_eq_true_eq]; omega), if_neg (by simp [ha, hb])]
  have hgo : (match s.heldLines a (leNat (s.ev.flit.payload.take 2)) with
      | [] => (match s.serveRead s.ev.flit.tenant a (leNat (s.ev.flit.payload.take 2)) with
        | (s', some l) => s'.sendBack s.ev.n s.ev.flit 1 0x20 (chunksOf 256 l)
        | (s', none) => s'.nak s.ev.n s.ev.flit 3)
      | h => (h.foldl State.snoopLine s).postpone .read) = s.injects s.ev.n (s.backFlits s.ev.n s.ev.flit 1 0x20 (chunksOf 256 l)) := by
    rw [hheld, hserve]
    exact sendBack_eq (by decide) ..
  cases a with
  | host p => exact absurd rfl (hhost p)
  | _ => exact congrArg Host.Outcome.next hgo

end

theorem heldLines_of_held_nil {s : State} (h : s.held = []) (t : Target) (n : Nat) : s.heldLines t n = [] := by
  cases t with
  | mem a =>
    rw [State.heldLines, h]
    exact List.filter_eq_nil_iff.2 fun _ _ => Bool.false_ne_true
  | _ => rfl

/-- A scratchpad after an atomic's write, or as it was. -/
def State.atomicStored (s : State) (core off : Nat) (new : Option Word) : State :=
  match new with
  | some z => s.putSpm core off (leBytes 8 z.toNat)
  | none => s

theorem atomicStored_frame (s : State) (core off : Nat) (new : Option Word) : (s.atomicStored core off new).mem = s.mem ∧
    (s.atomicStored core off new).strands = s.strands ∧ (s.atomicStored core off new).dies = s.dies := by
  cases new <;> exact ⟨rfl, rfl, rfl⟩

theorem spm_atomicStored (s : State) (core off : Nat) (new : Option Word) (b : Nat) : smGet 0 ((s.atomicStored core off new).coreAt core).spm b =
    if off ≤ b ∧ b < off + 8 then (match new with
      | some z => z.extractLsb' (8 * (b - off)) 8
      | none => smGet 0 (s.coreAt core).spm b) else smGet 0 (s.coreAt core).spm b := by
  cases new with
  | none => exact (ite_self _).symm
  | some z =>
    rw [State.atomicStored, spm_putSpm, leBytes_length]
    by_cases h : off ≤ b ∧ b < off + 8
    · have hbyte := leBytes_getElem? 8 z.toNat (b - off)
      rw [if_pos (by omega)] at hbyte
      rw [if_pos h, if_pos h, hbyte, Option.getD_some, ← Nat.shiftRight_eq_div_pow]
      rfl
    · rw [if_neg h, if_neg h]

/-- An atomic of another package on a plain scratchpad is performed at once. -/
theorem amoSpm_remote {s : State} {core off : Nat} {o : AmoOp} (hs : s.plainSpm core) (ho : o.size = 8) (v expect : Word) :
    s.amoSpm { core } o core off false v expect =
      (s.atomicStored core off (o.new (BitVec.ofNat 64 (leNat (s.spmBytes core off 8))) v expect), .bytes (s.spmBytes core off 8)) := by
  have hfetch : s.fetchSpm { core } core off 8 false = (s, .bytes (s.spmBytes core off 8)) :=
    fetchSpm_plain hs { core } off 8 false fun k hk _ => by cases hk
  unfold State.amoSpm
  rw [ho, hfetch]
  dsimp only
  cases o.new (BitVec.ofNat 64 (leNat (s.spmBytes core off 8))) v expect with
  | some x => exact congrArg (·, _) (writeSpm_plain hs ..)
  | none => rfl

section
variable {s : State} {c o : Nat} {op : AmoOp} (ht : s.target s.ev.flit.addr = some (.spm c o))
    (hop : amoOfCode (leNat (s.ev.flit.payload.take 1)) (leNat ((s.ev.flit.payload.drop 1).take 1)) = some op)
include ht hop

theorem exec_atomic_token (hok : s.tokenOk s.ev.n s.ev.flit (s.tenantOf c) = false) : exec .atomic s = .next (s.nakToken s.ev.n s.ev.flit) := by
  rw [exec_atomic, execAtomic]
  dsimp only
  rw [ht, hop]
  dsimp only
  rw [show s.targetOwner (.spm c o) = s.tenantOf c from rfl, hok]
  rfl

theorem exec_atomic_spm (hok : s.tokenOk s.ev.n s.ev.flit (s.tenantOf c) = true) (hs : s.plainSpm c) (hsize : op.size = 8) :
    exec .atomic s = .next ((s.atomicStored c o (op.new (BitVec.ofNat 64 (leNat (s.spmBytes c o 8)))
      (BitVec.ofNat 64 (leNat ((s.ev.flit.payload.drop 8).take 8))) (BitVec.ofNat 64 (leNat ((s.ev.flit.payload.drop 16).take 8))))).sendBack
        s.ev.n s.ev.flit 1 0x20 [s.spmBytes c o 8]) := by
  rw [exec_atomic, execAtomic]
  dsimp only
  rw [ht, hop]
  dsimp only
  rw [show s.targetOwner (.spm c o) = s.tenantOf c from rfl, hok, amoSpm_remote hs hsize]
  rfl

end

/-! ### The obligation -/

/-- What a WRITE of one flit to a home in plain memory leaves. -/
theorem write_mem_spec {s : State} {a : Nat} (hdup : s.duplicate s.ev.n s.ev.flit = false)
    (ht : s.target (s.ev.flit.addr + 256 * s.ev.flit.fidx) = some (.mem a)) (hok : s.tokenOk s.ev.n s.ev.flit (s.ownerOf a) = true) (hm : s.plainMem) :
    ∃ t, exec .write s = .next t ∧ (∀ b, t.memByte b = if a ≤ b ∧ b < a + s.ev.flit.payload.length then (s.ev.flit.payload[b - a]?).getD 0 else s.memByte b) ∧
      t.cores = s.cores ∧ t.strands = s.strands ∧ (t.dieAt s.ev.n).inject = (s.dieAt s.ev.n).inject ++
        (if (s.reasmFor s.ev.n s.ev.flit).bitmap ||| 2 ^ s.ev.flit.fidx = 2 ^ ((s.reasmFor s.ev.n s.ev.flit).flast + 1) - 1 ∧ (s.reasmFor s.ev.n s.ev.flit).bad = 0 then
          s.backFlits s.ev.n s.ev.flit 1 0x21 [leBytes 8 0 ++ leBytes 8 ((s.reasmFor s.ev.n s.ev.flit).credits + (1 - s.ev.flit.rsv))] else []) := by
  obtain ⟨m, q, hframe, hbytes⟩ := putTarget_mem hm.sound s.ev.flit.tenant a (s.ev.flit.payload.map fun b => (b, 0xFF))
  obtain ⟨q', hsettle⟩ := completeWhere_settle (s.putTarget s.ev.flit.tenant (.mem a) (s.ev.flit.payload.map fun b => (b, 0xFF))) (.mem a) s.ev.flit.payload.length
  have hend := answered_endMessage ((s.putTarget s.ev.flit.tenant (.mem a) (s.ev.flit.payload.map fun b => (b, 0xFF))).settleLines (.mem a)
    s.ev.flit.payload.length) s.ev.n s.ev.flit
  have hmem (b : Nat) : (s.putTarget s.ev.flit.tenant (.mem a) (s.ev.flit.payload.map fun b => (b, 0xFF))).memByte b = _ :=
    (hbytes b).trans (written_unmasked ..)
  refine ⟨_, exec_write_mem hdup ht hok hm.sound.1, fun b => ?_, ?_, ?_, ?_⟩
  · refine (memByte_of_mem hend.mem b).trans ?_
    rw [hsettle]
    exact hmem b
  · rw [hend.cores, hsettle, hframe]
  · rw [hend.strands, hsettle, hframe]
  · rw [hend.inject, hsettle, hframe]
    rfl

/-- What a WRITEM of a line of a plain scratchpad leaves of it. -/
theorem spm_writem {s : State} {c o : Nat} (hs : s.plainSpm c) (tenant : Nat) {p : List Byte} (hlen : p.length = 256) (b : Nat) :
    smGet 0 ((s.putTarget tenant (.spm c o) ((p.take 128).zip (p.drop 128))).coreAt c).spm b =
      if o ≤ b ∧ b < o + 128 then maskByte (smGet 0 (s.coreAt c).spm b) ((p[b - o]?).getD 0) ((p[b - o + 128]?).getD 0)
      else smGet 0 (s.coreAt c).spm b := by
  have hzip : ((p.take 128).zip (p.drop 128)).length = 128 := by simp [hlen]
  rw [putTarget_spm hs, spm_foldl_landed _ _ fun w hw => ?_, foldl_written_maskRuns, written]
  · dsimp only
    by_cases hlo : o ≤ b
    · rw [if_neg (by omega), show localBase + b - (localBase + o) = b - o by omega]
      by_cases hhi : b < o + 128
      · rw [if_pos ⟨hlo, hhi⟩, List.getElem?_eq_getElem (show b - o < p.length by omega), List.getElem?_eq_getElem (show b - o + 128 < p.length by omega),
          List.getElem?_eq_getElem (show b - o < ((p.take 128).zip (p.drop 128)).length by omega)]
        simp [Nat.add_comm]
      · rw [if_neg (by omega), List.getElem?_eq_none (by omega)]
    · rw [if_pos (by omega), if_neg (by omega)]
  · obtain ⟨r, -, rfl⟩ := List.mem_map.1 hw
    show localBase ≤ localBase + o + r.1
    omega

theorem putTarget_spm_frame {s : State} {c : Nat} (hs : s.plainSpm c) (tenant o : Nat) (l : List (Byte × Byte)) :
    s.putTarget tenant (.spm c o) l = { s with cores := (s.putTarget tenant (.spm c o) l).cores } ∧
    ∀ k, k ≠ c → (s.putTarget tenant (.spm c o) l).coreAt k = s.coreAt k := by
  rw [putTarget_spm hs]
  refine ⟨(foldl_landed_frame ..).1, fun k hk => ?_⟩
  exact List.foldlRecOn (motive := fun t : State => t.coreAt k = s.coreAt k) _ _ rfl fun t ht w _ => ((coreAt_setCore ..).trans (if_neg hk)).trans ht

/-- A code of the integer atomics: its operation, and what the operation gives. -/
theorem amoOfCode_integer {k : Byte} (h : k.toNat < 8) : ∃ op, amoOfCode 0x16 k.toNat = some op ∧ op.size = 8 := by
  generalize k.toNat = n at h
  interval_cases n <;> exact ⟨_, rfl, rfl⟩

/-- The operations of the codes that the statement names. -/
theorem amoOfCode_named {k : Byte} {old v w : Word} {new : Option Word}
    (h : (k = 0 ∧ new = some (old + v)) ∨ (k = 1 ∧ new = some (old &&& v)) ∨ (k = 2 ∧ new = some (old ||| v)) ∨ (k = 3 ∧ new = some (old ^^^ v)) ∨
      (k = 6 ∧ new = some v) ∨ (k = 7 ∧ new = if old = w then some v else none)) :
    ∃ op, amoOfCode 0x16 k.toNat = some op ∧ op.size = 8 ∧ op.new old v w = new := by
  rcases h with ⟨rfl, rfl⟩ | ⟨rfl, rfl⟩ | ⟨rfl, rfl⟩ | ⟨rfl, rfl⟩ | ⟨rfl, rfl⟩ | ⟨rfl, rfl⟩
  · exact ⟨.add, rfl, rfl, rfl⟩
  · exact ⟨.and, rfl, rfl, rfl⟩
  · exact ⟨.or, rfl, rfl, rfl⟩
  · exact ⟨.xor, rfl, rfl, rfl⟩
  · exact ⟨.swap, rfl, rfl, rfl⟩
  · exact ⟨.cas, rfl, rfl, rfl⟩

theorem leNat_single (k : Byte) : leNat [k] = k.toNat := by simp [leNat]

/-- Settles O58: a WRITE's bytes are made at a home whose token agrees, and its message is acknowledged with its last flit; a WRITEM waits for its
predecessor; a READ is served in flits or asked of the host; an ATOMIC is performed on the bank. -/
theorem fabricAccesses : Obligations.FabricAccesses := by
  unfold Obligations.FabricAccesses
  refine ⟨fun s => ?_, fun s => ?_⟩
  · intro d f x back ack nak
    refine ⟨fun hdup => ?_, fun hdup => ⟨fun ht => ?_, fun a ht ha hok => ?_, fun a ht hok hm => ?_⟩, ?_⟩
    · rw [exec_write, execWrite]
      exact congrArg Host.Outcome.next (if_pos hdup)
    · obtain ⟨hinject, hmem, -, -⟩ := answered_refuseFlit s d f 3
      exact ⟨_, exec_write_none hdup ht, hinject, hmem⟩
    · obtain ⟨hinject, hmem, hcores, -⟩ := answered_refuseFlit s d f 2
      exact ⟨_, exec_write_token hdup ht ha hok, hinject, tokFail_refuseFlit s d f, hmem, hcores⟩
    · exact write_mem_spec hdup ht hok hm
    · intro l key ready after
      refine ⟨fun ht => ?_, fun a ht hok => ?_, fun a ht hok hready => ?_, fun c o ht hok hready hs hlen => ?_, fun o v i r ht hok hready hreg hdev => ?_⟩
      · refine ⟨s.nak d f 3, ?_, ?_⟩
        · rw [exec_writem, execWritem, ht]
          rfl
        · rw [nak_eq]
          exact ⟨inject_injects .., rfl⟩
      · obtain ⟨hinject, hmem, -, -⟩ := answered_nakToken s d f
        exact ⟨_, exec_writem_token ht hok, hinject, hmem⟩
      · exact exec_writem_early ht hok (Bool.eq_false_iff.2 fun h => hready ((streamReady_iff s d f).1 h))
      · let u := s.putTarget f.tenant (.spm c o) l
        obtain ⟨hframe, hother⟩ := putTarget_spm_frame hs f.tenant o l
        obtain ⟨⟨hinject, hmem, hcores, -⟩, hseq, hinbox⟩ := endWritem_spec u d f
        have hcore (k : Nat) : (u.endWritem d f).coreAt k = u.coreAt k := by rw [State.coreAt, hcores, State.coreAt]
        have hdie : u.dieAt d = x := (congrArg (fun w : State => w.dieAt d) hframe).trans rfl
        refine ⟨_, exec_writem_spm ((streamReady_iff s d f).2 hready) ht hok, ⟨?_, hseq, ?_⟩, ?_, fun k hk => (hcore k).trans (hother k hk), fun b => ?_⟩
        · rw [hdie, (congrArg (fun w : State => w.backFlits d f 1 0x21 [leBytes 8 0 ++ leBytes 8 0]) hframe).trans rfl] at hinject
          exact hinject
        · rw [hdie, (congrArg State.inbox hframe).trans rfl] at hinbox
          rw [List.append_nil]
          exact hinbox
        · exact hmem.trans ((congrArg State.mem hframe).trans rfl)
        · rw [hcore]
          exact spm_writem hs f.tenant hlen b
      · obtain ⟨⟨hinject, hmem, -, -⟩, hseq, hinbox⟩ := endWritem_spec (s.post (s.devWrites (.remote f.snode) 0 i r v)) d f
        exact ⟨_, exec_writem_dev ((streamReady_iff s d f).2 hready) ht hok hreg hdev, ⟨hinject, hseq, hinbox⟩, hmem⟩
  · intro d f x back nak n sent
    have hsent {t : State} {l : List Flit} (h : Answered s t d l) : sent (.next t) l := ⟨t, rfl, h.inject, h.mem, h.cores, h.strands⟩
    refine ⟨fun ht => ?_, fun a b ht hu h1 hle => ⟨fun hok => ?_, fun ha hb => ⟨?_, ?_, ?_, ?_⟩⟩, fun c o ht hs hend hinj => ?_⟩
    · rw [exec_read_none ht, nak_eq]
      exact hsent (answered_injects ..)
    · rw [exec_read_token ht hu h1 hle hok]
      exact hsent (answered_nakToken ..)
    · rintro p rfl hm
      have hserve : s.serveRead f.tenant (.mem p) n = (s, some (s.memBytes p n)) := by
        rw [State.serveRead, scanMem_plain hm]
      rw [exec_read_served ht hu h1 hle ha hb nofun (heldLines_of_held_nil hm.sound.1 ..) hserve]
      exact hsent (answered_injects ..)
    · rintro c o rfl hs hend
      have hserve : s.serveRead f.tenant (.spm c o) n = (s, some (s.spmBytes c o n)) := by
        rw [State.serveRead, if_neg (by omega), scanSpm_plain hs]
        dsimp only
        rw [readSpm_plain hs]
      rw [exec_read_served ht hu h1 hle ha hb nofun rfl hserve]
      exact hsent (answered_injects ..)
    · rintro o r rfl h8 hdev hread
      have hserve : s.serveRead f.tenant (.dev o) n = (s, some (leBytes 8 (s.devRead r).2.toNat)) := by
        rw [State.serveRead, if_neg (by omega), hdev]
        exact congrArg (·, _) hread
      rw [exec_read_served ht hu h1 hle ha hb nofun rfl hserve, chunksOf_leBytes]
      exact hsent (answered_injects ..)
    · rintro p rfl
      exact ⟨_, _, exec_read_host ht hu h1 hle ha hb rfl, rfl, rfl, rfl, rfl, rfl, rfl⟩
    · intro v w l old hmajor
      have hmajor' : leNat (f.payload.take 1) = 0x16 := by rw [hmajor]; rfl
      refine ⟨fun hok k new hk hnew => ?_, fun hok k hlt hk => ?_⟩
      · obtain ⟨op, hop, hsize, hval⟩ := amoOfCode_named hnew
        have hcode : amoOfCode (leNat (f.payload.take 1)) (leNat ((f.payload.drop 1).take 1)) = some op := by rw [hmajor', hk, leNat_single]; exact hop
        obtain ⟨hmem, hstrands, hdies⟩ := atomicStored_frame s c o new
        have hdie : (s.atomicStored c o new).dieAt d = x := by rw [State.dieAt, hdies]; rfl
        refine ⟨(s.atomicStored c o new).injects d (s.backFlits d f 1 0x20 [l]), ?_, ?_, hmem, hstrands, spm_atomicStored s c o new⟩
        · rw [exec_atomic_spm ht hcode hok hs hsize, hval, sendBack_eq (by decide)]
          cases new <;> rfl
        · rw [inject_injects, hdie]
          rfl
      · obtain ⟨op, hop, -⟩ := amoOfCode_integer hlt
        have hcode : amoOfCode (leNat (f.payload.take 1)) (leNat ((f.payload.drop 1).take 1)) = some op := by rw [hmajor', hk, leNat_single]; exact hop
        rw [exec_atomic_token ht hcode hok]
        exact hsent (answered_nakToken ..)

end Sys2Proof.Machine

/-!
The end of a copy command (R313, R315): its channel closes, its element enters the result FIFO, and its entry leaves its queue; the
commands that only end so: a copy whose writes are all made, CWMK and CTPL (O33).
-/
namespace Sys2Proof.Machine

/-! ### Channels (R89, R312) -/

theorem coreAt_modChan (s : State) (core ch : Nat) (g : Chan → Chan) : (s.modChan core ch g).coreAt core =
    { s.coreAt core with chans := smPut (s.coreAt core).chans ch (g (smGet {} (s.coreAt core).chans ch)) } :=
  (coreAt_setCore ..).trans (if_pos rfl)

theorem chan_modChan (s : State) (core ch : Nat) (g : Chan → Chan) :
    smGet {} ((s.modChan core ch g).coreAt core).chans ch = g (smGet {} (s.coreAt core).chans ch) := by
  rw [coreAt_modChan]
  exact (smGet_smPut ..).trans (if_pos rfl)

theorem fifos_modChan (s : State) (core ch : Nat) (g : Chan → Chan) : ((s.modChan core ch g).coreAt core).fifos = (s.coreAt core).fifos := by
  rw [coreAt_modChan]

/-- The watermark of an entry whose writes are all performed is the end of its range (R89). -/
theorem moveMark_done {s : State} (hposted : s.posted = []) (j : Job) :
    s.moveMark j [] = s.modChan j.e.core j.f.ch ({ · with wmark := (destRange j.e.core j.d j.dstElems).2.1 }) := by
  unfold State.moveMark
  rw [hposted]
  exact congrArg (s.modChan j.e.core j.f.ch) (funext fun c => congrArg (fun m => { c with wmark := m }) (ite_self _))

/-- A copy engine's channels are 0 to 15, so their result FIFOs hold 16 elements (R220). -/
theorem fifoDepth_ch (f : MFields) : fifoDepth f.ch = 16 := if_pos (Nat.mod_lt _ (by decide))

/-! ### An entry that ends with its element (R313, R315, R341) -/

/-- `t` is `s` after entry `e` of strand `n` has left its queue in the copy engine and, where `elem` has one, its element has entered the
FIFO of channel `ch`. -/
structure CopyEnded (s t : State) (e : Entry) (n ch : Nat) (elem : List Word) : Prop where
  mem : t.mem = s.mem
  core : t.coreAt e.core = { s.coreAt e.core with fifos := (t.coreAt e.core).fifos, lastServed := (t.coreAt e.core).lastServed }
  fifo : (smGet [] (t.coreAt e.core).fifos ch).map (·.v) = (smGet [] (s.coreAt e.core).fifos ch).map (·.v) ++ elem
  queue : smGet [] (t.strandAt n).queues 2 = (smGet [] (s.strandAt n).queues 2).filter (·.seq != e.seq)

theorem endEntry_copyEnded {s : State} {e : Entry} {n : Nat} (he : e.strand = some n) (heng : engineOf e.instr = some 2) (ch : Nat) :
    CopyEnded s (s.endEntry e) e n ch [] := by
  obtain ⟨hmem, -, hcores, -⟩ := endEntry_frame (s := s) he
  have hcore := hcores e.core
  refine ⟨hmem, ?_, ?_, ?_⟩
  · rw [hcore]
  · rw [hcore, List.append_nil]
  · rw [(endEntry_strand he).1, queues_dropped heng, if_pos rfl]

theorem pushFifo_endEntry_copyEnded {s : State} {e : Entry} {n : Nat} (he : e.strand = some n) (heng : engineOf e.instr = some 2) (ch : Nat)
    (v : Word) (cover : List (Nat × Nat)) : CopyEnded s ((s.pushFifo e.core ch v cover).endEntry e) e n ch [v] := by
  obtain ⟨hmem, hcore, hfifo, hqueue⟩ := endEntry_copyEnded (s := s.pushFifo e.core ch v cover) he heng ch
  obtain ⟨hstate, hstrands⟩ := pushFifo_woken s e.core ch v cover
  have hpushed : (s.pushFifo e.core ch v cover).coreAt e.core = { s.coreAt e.core with
      fifos := smSet [] (s.coreAt e.core).fifos ch (s.fifo e.core ch ++ [{ v := v, cover := cover }]) } :=
    (congrArg (fun t : State => t.coreAt e.core) hstate).trans ((coreAt_setCore ..).trans (if_pos rfl))
  refine ⟨hmem.trans ((congrArg State.mem hstate).trans rfl), ?_, ?_, ?_⟩
  · rw [hcore, hpushed]
  · rw [hfifo, List.append_nil]
    exact (congrArg (List.map _) (fifo_pushFifo ..)).trans List.map_append
  · rw [hqueue, hstrands n]
    rfl

/-- An entry ends where its element has space and it names no sync object's slot. -/
theorem ceFinish_ended {s : State} {j : Job} {n : Nat} (he : j.e.strand = some n) (heng : engineOf j.e.instr = some 2)
    (hslot : (if j.k = .cpyrs || j.k = .cpymc then j.f.slot else 0) = 0)
    (hspace : j.f.res = true → (smGet [] (s.coreAt j.e.core).fifos j.f.ch).length < 16) (status flg value : Nat) (cover : List (Nat × Nat)) :
    CopyEnded (s.closeChan j) (s.ceFinish j status flg value cover) j.e n j.f.ch
      (if j.f.res then [ceElem j.k.code status j.f.tmpl flg value] else []) := by
  have hfull : (j.f.res && (s.closeChan j).fifoFull j.e.core j.f.ch) = false := by
    rw [Bool.and_eq_false_imp]
    intro hres
    have hfifo : (s.closeChan j).fifo j.e.core j.f.ch = smGet [] (s.coreAt j.e.core).fifos j.f.ch :=
      congrArg (smGet [] · j.f.ch) (fifos_modChan ..)
    rw [State.fifoFull, fifoDepth_ch, hfifo]
    exact decide_eq_false (by have := hspace hres; omega)
  let e : Entry := { j.e with phase := 5, plan := [], keep := [status, flg, value] }
  have hend : s.ceFinish j status flg value cover = (if j.f.res then
      (s.closeChan j).pushFifo e.core j.f.ch (ceElem j.k.code status j.f.tmpl flg value) cover else s.closeChan j).endEntry e := by
    rw [State.ceFinish]
    dsimp only
    rw [show State.closeChan s { j with e := { j.e with phase := 5, plan := [], keep := [status, flg, value] } } = s.closeChan j from rfl,
      if_neg (by rw [hfull]; decide), hslot, if_pos rfl]
  rw [hend]
  split
  · obtain ⟨hmem, hcore, hfifo, hqueue⟩ := pushFifo_endEntry_copyEnded (s := s.closeChan j) (e := e) he heng j.f.ch
      (ceElem j.k.code status j.f.tmpl flg value) cover
    exact ⟨hmem, hcore, hfifo, hqueue⟩
  · obtain ⟨hmem, hcore, hfifo, hqueue⟩ := endEntry_copyEnded (s := s.closeChan j) (e := e) he heng j.f.ch
    exact ⟨hmem, hcore, hfifo, hqueue⟩

/-! ### A turn of the copy engine (R314) -/

theorem ceInstr_turn {s : State} {i : Instr} {e : Entry} (he : s.engine = some e) (hr : e.runs = true)
    (hinj : e.phase = 0 → (s.coreAt e.core).inj = []) (run : State → Entry → State) : s.ceInstr i run = .next (run s e) := by
  have hturn : (e.phase = 0 && (smFind (s.coreAt e.core).inj (injKey 7 2)).isSome) = false := by
    by_cases hp : e.phase = 0
    · rw [hinj hp]
      exact Bool.and_false _
    · simp [hp]
  unfold State.ceInstr
  rw [he]
  dsimp only
  rw [State.engineTurn, hturn, if_neg Bool.false_ne_true, if_pos hr]
  rfl

/-- All writes of an entry are made, and none is still on its way. -/
theorem ceDrain_none {s : State} {j : Job} (hplan : j.e.plan = []) (hposted : s.posted = []) (fin : State → Job → State) :
    s.ceDrain j fin = fin (s.moveMark { j with e := { j.e with phase := 4, plan := [] } } []) { j with e := { j.e with phase := 4, plan := [] } } := by
  have hall : s.writeAll j.e [] = (s, [], none) := by
    rw [State.writeAll, List.isEmpty_nil, Bool.or_true]
    rfl
  have hnone (j' : Job) (e : Entry) : (s.moveMark j' []).unacked e = false := by
    rw [State.unacked, show (s.moveMark j' []).posted = s.posted from rfl, hposted]
    rfl
  rw [State.ceDrain, hplan, hall]
  dsimp only
  rw [hnone]
  rfl

theorem ceElem_plain (kind tmpl flg : Nat) {value : Nat} (h : value < 2 ^ 32) :
    ceElem kind 0 tmpl flg value = BitVec.ofNat 64 (kind * 2 ^ 60 + tmpl * 2 ^ 48 + flg * 2 ^ 32 + value) := by
  rw [ceElem, Nat.zero_mul, Nat.add_zero, Nat.mod_eq_of_lt h]

/-- CPYMC after its last write (R328). -/
theorem cpymc_ends {s : State} {e : Entry} {f : MFields} {n : Nat} (hserved : s.engine = some e) (hr : e.runs = true) (hp : e.phase = 4)
    (hplan : e.plan = []) (he : e.strand = some n) (hposted : s.posted = []) (heng : engineOf e.instr = some 2) (hslot : f.slot = 0)
    (hres : f.res = true) (hspace : (smGet [] (s.coreAt e.core).fifos f.ch).length < 16) : ∃ t, exec (.cpymc f) s = .next t ∧
    (smGet [] (t.coreAt e.core).fifos f.ch).map (·.v) = (smGet [] (s.coreAt e.core).fifos f.ch).map (·.v) ++
      [BitVec.ofNat 64 (4 * 2 ^ 60 + f.tmpl * 2 ^ 48 + ((List.range 16).countP fun w => f.imm.getLsbD w))] ∧
    (smGet {} (t.coreAt e.core).chans f.ch).active = false ∧
    smGet [] (t.strandAt n).queues 2 = (smGet [] (s.strandAt n).queues 2).filter (·.seq != e.seq) := by
  let j := jobOf s .cpymc f e
  let j4 : Job := { j with e := { e with phase := 4, plan := [] } }
  have hrun : s.copyRun .cpymc f e = (s.moveMark j4 []).ceFinish j4 0 0 (windowsOf f).length [] := by
    rw [State.copyRun, hp]
    exact ceDrain_none (j := j) hplan hposted State.copyEnd
  have hfifos : ((s.moveMark j4 []).coreAt e.core).fifos = (s.coreAt e.core).fifos := by
    rw [moveMark_done hposted]
    exact fifos_modChan ..
  obtain ⟨-, hended, hfifo, hqueue⟩ := ceFinish_ended (s := s.moveMark j4 []) (j := j4) (n := n) he heng (by exact hslot)
    (fun _ => by rw [show j4.e.core = e.core from rfl, hfifos]; exact hspace) 0 0 (windowsOf f).length []
  have hcount : (windowsOf f).length = (List.range 16).countP fun w => f.imm.getLsbD w := List.countP_eq_length_filter.symm
  have hle : ((List.range 16).countP fun w => f.imm.getLsbD w) ≤ 16 := List.countP_le_length.trans_eq (List.length_range)
  have helem : ceElem 4 0 f.tmpl 0 (windowsOf f).length =
      BitVec.ofNat 64 (4 * 2 ^ 60 + f.tmpl * 2 ^ 48 + ((List.range 16).countP fun w => f.imm.getLsbD w)) := by
    rw [ceElem_plain _ _ _ (by omega), Nat.zero_mul, Nat.add_zero, hcount]
  refine ⟨_, (ceInstr_turn hserved hr (by omega) _).trans (congrArg done hrun), ?_, ?_, hqueue⟩
  · refine hfifo.trans ?_
    rw [show j4.f = f from rfl, show j4.e.core = e.core from rfl,
      show (((s.moveMark j4 []).closeChan j4).coreAt e.core).fifos = _ from fifos_modChan .., hfifos, if_pos hres, ← helem]
    rfl
  · refine (congrArg (fun c : Core => (smGet {} c.chans f.ch).active) hended).trans ?_
    exact congrArg Chan.active (chan_modChan (s.moveMark j4 []) e.core f.ch _)

/-! ### CWMK and CTPL (R320, R329) -/

section
variable {s : State} {e : Entry} {n : Nat} (hm : MReady s e)
include hm

theorem ceInstr_ready (i : Instr) (run : State → Entry → State) : s.ceInstr i run = .next (run s e) :=
  ceInstr_turn hm.served hm.runs (fun _ => hm.sound) run

theorem cwmk_waits {f : MFields} (hfull : 16 ≤ (smGet [] (s.coreAt e.core).fifos f.ch).length) :
    exec (.cwmk f) s = .next (s.putEntry { e with phase := 5 }) := by
  rw [exec_cwmk, execCwmk, ceInstr_ready hm]
  dsimp only
  rw [State.fifoFull, fifoDepth_ch, if_pos (decide_eq_true (by exact hfull))]

theorem cwmk_reports {f : MFields} (he : e.strand = some n) (heng : engineOf e.instr = some 2)
    (hspace : (smGet [] (s.coreAt e.core).fifos f.ch).length < 16) :
    let c : Chan := smGet {} (s.coreAt e.core).chans f.ch
    ∃ t, exec (.cwmk f) s = .next t ∧ smGet [] (t.strandAt n).queues 2 = (smGet [] (s.strandAt n).queues 2).filter (·.seq != e.seq) ∧
      (smGet [] (t.coreAt e.core).fifos f.ch).map (·.v) = (smGet [] (s.coreAt e.core).fifos f.ch).map (·.v) ++
        [BitVec.ofNat 64 (5 * 2 ^ 60 + ((if c.active then 1 else 0) + (if c.faulted then 2 else 0)) * 2 ^ 32 + (c.wmark - c.d) % 2 ^ 32)] ∧
      smGet {} (t.coreAt e.core).chans f.ch = if f.mode.getLsbD 24 then {} else c := by
  intro c
  let elem : Word := ceElem 5 0 0 ((if c.active then 1 else 0) + (if c.faulted then 2 else 0)) (c.wmark - c.d)
  have helem : elem = BitVec.ofNat 64 (5 * 2 ^ 60 + ((if c.active then 1 else 0) + (if c.faulted then 2 else 0)) * 2 ^ 32 + (c.wmark - c.d) % 2 ^ 32) := by
    simp only [elem, ceElem, Nat.zero_mul, Nat.add_zero]
  let u := s.pushFifo e.core f.ch elem
  let v : State := if f.mode.getLsbD 24 then u.modCore e.core fun x => { x with chans := smDel x.chans f.ch } else u
  have hrun : exec (.cwmk f) s = .next (v.endEntry e) := by
    rw [exec_cwmk, execCwmk, ceInstr_ready hm]
    dsimp only
    rw [State.fifoFull, fifoDepth_ch, if_neg (by rw [decide_eq_true_eq]; exact Nat.not_le.2 hspace)]
  have hu : u.coreAt e.core = { s.coreAt e.core with fifos := (u.coreAt e.core).fifos } := by
    have hcores := (pushFifo_woken s e.core f.ch elem []).cores
    have hset : u.coreAt e.core = (s.setFifo e.core f.ch (s.fifo e.core f.ch ++ [{ v := elem, cover := [] }])).coreAt e.core :=
      congrArg (fun m : SMap Core => (smGet {} m e.core : Core)) hcores
    rw [hset, State.setFifo, State.modCore, coreAt_setCore, if_pos rfl]
  have hchan : v.coreAt e.core = { u.coreAt e.core with chans := if f.mode.getLsbD 24 then smDel (s.coreAt e.core).chans f.ch else (s.coreAt e.core).chans } := by
    have hchans : (u.coreAt e.core).chans = (s.coreAt e.core).chans := by rw [hu]
    dsimp only [v]
    split
    · rw [State.modCore, coreAt_setCore, if_pos rfl, hchans]
    · rw [← hchans]
  obtain ⟨-, hcore, hfifo, hqueue⟩ := endEntry_copyEnded (s := v) he heng f.ch
  have hstrand : (v.strandAt n).queues = (s.strandAt n).queues := by
    have hwoken := (pushFifo_woken s e.core f.ch elem []).2 n
    dsimp only [v]
    split
    · exact (congrArg Strand.queues hwoken).trans rfl
    · exact (congrArg Strand.queues hwoken).trans rfl
  refine ⟨_, hrun, ?_, ?_, ?_⟩
  · rw [hqueue, hstrand]
  · rw [hfifo, hchan, List.append_nil, ← helem]
    exact (congrArg (List.map _) (fifo_pushFifo ..)).trans List.map_append
  · rw [hcore, hchan]
    dsimp only
    split
    · exact smGet_smDel_self ..
    · rfl

theorem ctpl_writes {f : MFields} (he : e.strand = some n) (heng : engineOf e.instr = some 2) : ∃ t, exec (.ctpl f) s = .next t ∧
    smGet [] (t.strandAt n).queues 2 = (smGet [] (s.strandAt n).queues 2).filter (·.seq != e.seq) ∧
    ∀ q, smGet 0 (t.coreAt e.core).tmpl q = if q = f.tmpl then f.imm else smGet 0 (s.coreAt e.core).tmpl q := by
  let u := s.modCore e.core fun c => { c with tmpl := smSet 0 c.tmpl f.tmpl f.imm }
  obtain ⟨-, hcore, -, hqueue⟩ := endEntry_copyEnded (s := u) he heng 0
  refine ⟨u.endEntry e, ceInstr_ready hm .., hqueue, fun q => ?_⟩
  rw [hcore]
  dsimp only [u]
  rw [State.modCore, coreAt_setCore, if_pos rfl]
  exact smGet_smSet ..

end

end Sys2Proof.Machine

/-!
The windows of a multicast copy (R328), and the host's stores to an engine port page (R30, R31, R317, R442), for O33.
-/
namespace Sys2Proof.Machine

/-! ### The windows of CPYMC (R328) -/

theorem mem_windowsOf {f : MFields} {w : Nat} : w ∈ windowsOf f ↔ w < 16 ∧ f.imm.getLsbD w = true := by
  rw [windowsOf, List.mem_filter, List.mem_range]

/-- A write of CPYMC is one of the plan, with the number of a window of the mask in place of its own. -/
theorem mem_windowPlan {f : MFields} {v : View} {plan : List (Nat × List (Byte × Byte))} {own : Nat}
    (hv : v.base = localBase + 0x200000000 + own * 0x400000 + v.base % 0x400000) {a : Nat} {bs : List (Byte × Byte)} :
    (a, bs) ∈ windowPlan f v plan ↔ ∃ w, w < 16 ∧ f.imm.getLsbD w = true ∧ ∃ b, (b, bs) ∈ plan ∧ a = b + w * 0x400000 - own * 0x400000 := by
  have hown : (v.base - localBase - 0x200000000) / 0x400000 = own := by omega
  unfold windowPlan
  rw [hown]
  simp only [List.mem_flatMap, List.mem_map, mem_windowsOf, Prod.mk.injEq, Prod.exists]
  constructor
  · rintro ⟨w, ⟨hw, hbit⟩, b, cs, hmem, ha, rfl⟩
    exact ⟨w, hw, hbit, b, hmem, ha.symm⟩
  · rintro ⟨w, hw, hbit, b, hmem, ha⟩
    exact ⟨w, ⟨hw, hbit⟩, b, bs, hmem, ha.symm, rfl⟩

theorem windowPlan_windows (f : MFields) (v : View) (plan : List (Nat × List (Byte × Byte))) (own : Nat)
    (hv : v.base = localBase + 0x200000000 + own * 0x400000 + v.base % 0x400000) (_ : own < 16)
    (hlo : ∀ p ∈ plan, localBase + 0x200000000 + own * 0x400000 ≤ p.1) (a : Nat) (bs : List (Byte × Byte)) (w off : Nat) (hw : w < 16) :
    ((a, bs) ∈ windowPlan f v plan ∧ a = localBase + 0x200000000 + w * 0x400000 + off ∧ off < 0x400000 ∧
        (∀ p ∈ plan, p.1 < localBase + 0x200000000 + (own + 1) * 0x400000)
      → f.imm.getLsbD w = true ∧ (localBase + 0x200000000 + own * 0x400000 + off, bs) ∈ plan) ∧
    (f.imm.getLsbD w = true → (localBase + 0x200000000 + own * 0x400000 + off, bs) ∈ plan →
      (localBase + 0x200000000 + w * 0x400000 + off, bs) ∈ windowPlan f v plan) := by
  constructor
  · rintro ⟨hmem, ha, hoff, hhi⟩
    obtain ⟨x, -, hbit, b, hb, hab⟩ := (mem_windowPlan hv).1 hmem
    have hlob : localBase + 0x200000000 + own * 0x400000 ≤ b := hlo _ hb
    have hhib : b < localBase + 0x200000000 + (own + 1) * 0x400000 := hhi _ hb
    have hx : x = w := by omega
    have hbo : b = localBase + 0x200000000 + own * 0x400000 + off := by subst hx; omega
    exact ⟨hx ▸ hbit, hbo ▸ hb⟩
  · intro hbit hmem
    exact (mem_windowPlan hv).2 ⟨w, hw, hbit, _, hmem, by omega⟩

/-! ### Reserved bits of an M word (R149, R317, R321) -/

theorem lowBit_eq_none {n : Nat} : ∀ {x lo : Nat}, lowBit x n lo = none ↔ x % 2 ^ n = 0 := by
  induction n with
  | zero => intro x lo; simp [lowBit, Nat.mod_one]
  | succ n ih =>
    intro x lo
    rw [lowBit, Nat.pow_succ, Nat.mul_comm, Nat.mod_mul]
    split
    · constructor
      · nofun
      · intro h0
        omega
    · rw [ih]
      omega

theorem lowBitOf_eq_none {w : Nat} {l : List (Nat × Nat)} : lowBitOf w l = none ↔ ∀ p ∈ l, w / 2 ^ p.1 % 2 ^ p.2 = 0 := by
  induction l with
  | nil => simp [lowBitOf]
  | cons p r ih =>
    obtain ⟨lo, n⟩ := p
    rw [lowBitOf, List.forall_mem_cons]
    split
    · rename_i h
      exact ih.trans ⟨fun hr => ⟨h, hr⟩, fun hr => hr.2⟩
    · rename_i h
      rw [lowBit_eq_none, Nat.mod_mod]
      exact ⟨fun h0 => absurd h0 h, fun hr => absurd hr.1 h⟩

theorem mem_unlisted {n : Nat} : ∀ {lo mask i : Nat}, i < n → mask.testBit i = false → (lo + i, 1) ∈ unlisted lo mask n := by
  induction n with
  | zero => intro lo mask i hi; omega
  | succ n ih =>
    intro lo mask i hi hbit
    rw [unlisted]
    cases i with
    | zero =>
      rw [Nat.testBit_zero, decide_eq_false_iff_not] at hbit
      rw [if_neg hbit]
      exact List.mem_cons_self
    | succ i =>
      rw [Nat.testBit_succ] at hbit
      have hmem : (lo + 1 + i, 1) ∈ unlisted (lo + 1) (mask / 2) n := ih (by omega) hbit
      rw [show lo + (i + 1) = lo + 1 + i by omega]
      split
      · exact hmem
      · exact List.mem_cons_of_mem _ hmem

/-! ### Commands through the aperture (R30, R31, R317) -/

/-- A word's field that its operation does not list, and which is not zero. -/
def BadField (mop w : Nat) : Prop := ∃ p ∈ mZero mop (mFields w), p.1 ≠ 120 ∧ w / 2 ^ p.1 % 2 ^ p.2 ≠ 0

/-- The word that a port's command is checked as: its channel is the port's, but for CTPL (R30). -/
def portWord (port w : Nat) : Nat := if w / 2 ^ 184 = 0x46 then w else w / 2 ^ 68 * 2 ^ 68 + port * 2 ^ 64 + w % 2 ^ 64

theorem portWord_eq (port w : Nat) :
    (if w / 2 ^ 184 = 0x46 then w else w - bitsOf w 67 64 * 2 ^ 64 + port * 2 ^ 64) = portWord port w := by
  unfold portWord bitsOf
  split
  · rfl
  · omega

theorem bitsOf_slot (g : MFields) : bitsOf g.mode.toNat 16 13 = g.slot := rfl

/-- A command of the aperture fails the checks of its fields (R317, R321). -/
def PortBad (port w : Nat) : Prop :=
  (mFields (portWord port w)).fe = 1 ∨ BadField (w / 2 ^ 184) (portWord port w) ∨
    w / 2 ^ 184 ≠ 0x46 ∧ ((mFields (portWord port w)).slot ≠ 0 ∨ (mFields (portWord port w)).mode.getLsbD 18 = true)

theorem bitsOf_mode18 (g : MFields) : bitsOf g.mode.toNat 18 18 ≠ 0 ↔ g.mode.getLsbD 18 = true := by
  rw [bitsOf, BitVec.getLsbD, Nat.testBit_eq_decide_div_mod_eq, decide_eq_true_eq]
  omega

theorem lowBitOf_filter_isSome (mop w : Nat) :
    (lowBitOf w ((mZero mop (mFields w)).filter (·.1 != 120))).isSome = true ↔ BadField mop w := by
  rw [Option.isSome_iff_ne_none, Ne, lowBitOf_eq_none, BadField]
  simp only [List.mem_filter, bne_iff_ne, not_forall, exists_prop, and_assoc]

theorem aperWord_eq (port w : Nat) : aperWord port w =
    if w / 2 ^ 184 < 0x40 || decide (0x46 < w / 2 ^ 184) then none
    else if (mFields (portWord port w)).fe = 1 ||
        (lowBitOf (portWord port w) ((mZero (w / 2 ^ 184) (mFields (portWord port w))).filter (·.1 != 120))).isSome ||
        bitsOf (mFields (portWord port w)).mode.toNat 16 13 != 0 && w / 2 ^ 184 != 0x46 ||
        bitsOf (mFields (portWord port w)).mode.toNat 18 18 != 0 && w / 2 ^ 184 != 0x46 then none
    else (mInstr (w / 2 ^ 184) (portWord port w / 2 ^ 64)).map fun mk => mk (mFields (portWord port w)) := by
  rw [← portWord_eq]
  rfl

theorem portBad_iff (port w : Nat) : ((mFields (portWord port w)).fe = 1 ||
    (lowBitOf (portWord port w) ((mZero (w / 2 ^ 184) (mFields (portWord port w))).filter (·.1 != 120))).isSome ||
    bitsOf (mFields (portWord port w)).mode.toNat 16 13 != 0 && w / 2 ^ 184 != 0x46 ||
    bitsOf (mFields (portWord port w)).mode.toNat 18 18 != 0 && w / 2 ^ 184 != 0x46) = true ↔ PortBad port w := by
  simp only [Bool.or_eq_true, Bool.and_eq_true, bne_iff_ne, decide_eq_true_eq, lowBitOf_filter_isSome, bitsOf_mode18, bitsOf_slot, PortBad]
  tauto

theorem aperWord_refused {port w : Nat} (h : w / 2 ^ 184 < 0x40 ∨ 0x46 < w / 2 ^ 184 ∨ PortBad port w) : aperWord port w = none := by
  rw [aperWord_eq]
  rcases h with h | h | h
  · rw [if_pos (Bool.or_eq_true_iff.2 (.inl (decide_eq_true h)))]
  · rw [if_pos (Bool.or_eq_true_iff.2 (.inr (decide_eq_true h)))]
  · rw [if_pos ((portBad_iff port w).2 h), ite_self]

theorem aperWord_command {port w : Nat} (hlo : 0x40 ≤ w / 2 ^ 184) (hhi : w / 2 ^ 184 ≤ 0x46) (h : ¬ PortBad port w) :
    aperWord port w = (mInstr (w / 2 ^ 184) (portWord port w / 2 ^ 64)).map fun mk => mk (mFields (portWord port w)) := by
  rw [aperWord_eq, if_neg (by rw [Bool.or_eq_true, decide_eq_true_eq, decide_eq_true_eq]; omega), if_neg (mt (portBad_iff port w).1 h)]

/-! Fields that no command of the copy engine uses (R321) -/

section
variable {mop : Nat} (hlo : 0x40 ≤ mop) (hhi : mop ≤ 0x46) (g : MFields)
include hlo hhi

theorem mUses_ce : mUses mop g = dieUses mop g.mode.toNat := by
  rw [mUses, if_neg (by simp; omega)]

theorem dieUses_ce (mode : Nat) : (dieUses mop mode).n = false ∧ (dieUses mop mode).acc = false ∧ (dieUses mop mode).mode < 2 ^ 25 ∧
    (mop ≠ 0x41 → (dieUses mop mode).t.testBit 2 = false ∧ (dieUses mop mode).o.testBit 2 = false) ∧
    (0x45 ≤ mop → (dieUses mop mode).t = 0 ∧ (dieUses mop mode).o = 0) ∧ (mop = 0x46 → (dieUses mop mode).mode = 0xFF0) := by
  obtain rfl | rfl | rfl | rfl | rfl | rfl | rfl : mop = 0x40 ∨ mop = 0x41 ∨ mop = 0x42 ∨ mop = 0x43 ∨ mop = 0x44 ∨ mop = 0x45 ∨ mop = 0x46 := by omega
  all_goals simp [dieUses, show Nat.testBit 3 2 = false from rfl]

theorem mem_mZero_n : (128, 16) ∈ mZero mop g := by
  rw [mZero, mUses_ce hlo hhi, (dieUses_ce hlo hhi _).1]
  simp

theorem mem_mZero_acc : (125, 3) ∈ mZero mop g := by
  rw [mZero, mUses_ce hlo hhi, (dieUses_ce hlo hhi _).2.1]
  simp

theorem mem_mZero_mode {i : Nat} (hi : i < 32) (hbit : (dieUses mop g.mode.toNat).mode.testBit i = false) : (64 + i, 1) ∈ mZero mop g := by
  have hmem : (64 + i, 1) ∈ unlisted 64 (dieUses mop g.mode.toNat).mode 32 := mem_unlisted hi hbit
  rw [mZero, mUses_ce hlo hhi]
  simp [hmem]

theorem mem_mZero_third (h : mop ≠ 0x41) : (162, 6) ∈ mZero mop g ∧ (144, 6) ∈ mZero mop g := by
  obtain ⟨ht, ho⟩ := (dieUses_ce hlo hhi g.mode.toNat).2.2.2.1 h
  rw [mZero, mUses_ce hlo hhi, ht, ho]
  simp

theorem mem_mZero_operands (h : 0x45 ≤ mop) :
    (174, 6) ∈ mZero mop g ∧ (168, 6) ∈ mZero mop g ∧ (156, 6) ∈ mZero mop g ∧ (150, 6) ∈ mZero mop g := by
  obtain ⟨ht, ho⟩ := (dieUses_ce hlo hhi g.mode.toNat).2.2.2.2.1 h
  rw [mZero, mUses_ce hlo hhi, ht, ho]
  simp

end

/-! A field of a word, and what of it is not zero -/

theorem bits_ne_zero {n w lo : Nat} (h : bits n w lo ≠ 0) : w / 2 ^ lo % 2 ^ n ≠ 0 :=
  fun h0 => h (BitVec.eq_of_toNat_eq (by rw [BitVec.toNat_ofNat, h0]; rfl))

theorem mode_bit {w i : Nat} (hi : i < 32) (h : (mFields w).mode.getLsbD i = true) : w / 2 ^ (64 + i) % 2 ^ 1 ≠ 0 := by
  have hbit : (w / 2 ^ 64).testBit i = true := by
    have : (bits 32 w 64).getLsbD i = true := h
    rwa [bits, BitVec.getLsbD_ofNat, decide_eq_true hi, Bool.true_and] at this
  rw [Nat.testBit_div_two_pow, Nat.testBit_eq_decide_div_mod_eq, decide_eq_true_eq] at hbit
  rw [Nat.add_comm, pow_one, hbit]
  decide

/-- The fields whose values the aperture refuses (R317, R321). -/
theorem portBad_of {port w : Nat} (hlo : 0x40 ≤ w / 2 ^ 184) (hhi : w / 2 ^ 184 ≤ 0x46)
    (h : let g := mFields (portWord port w)
      g.fe = 1 ∨ g.slot ≠ 0 ∨ g.mode.getLsbD 18 = true ∨ g.n ≠ 0 ∨ g.acc ≠ 0 ∨ 2 ^ 25 ≤ g.mode.toNat ∨ (w / 2 ^ 184 ≠ 0x41 ∧ (g.t3 ≠ 0 ∨ g.o3 ≠ 0)) ∨
        (0x45 ≤ w / 2 ^ 184 ∧ (g.t1 ≠ 0 ∨ g.t2 ≠ 0 ∨ g.o1 ≠ 0 ∨ g.o2 ≠ 0))) : PortBad port w := by
  have hmode (i : Nat) (hi : i < 32) (hbit : (mFields (portWord port w)).mode.getLsbD i = true)
      (hfree : (dieUses (w / 2 ^ 184) (mFields (portWord port w)).mode.toNat).mode.testBit i = false) : PortBad port w :=
    .inr (.inl ⟨_, mem_mZero_mode hlo hhi _ hi hfree, by dsimp only; omega, mode_bit hi hbit⟩)
  have hfield {p : Nat × Nat} (hp : p ∈ mZero (w / 2 ^ 184) (mFields (portWord port w))) (hfl : p.1 ≠ 120)
      (hne : bits p.2 (portWord port w) p.1 ≠ 0) : PortBad port w := .inr (.inl ⟨p, hp, hfl, bits_ne_zero hne⟩)
  have huses := dieUses_ce hlo hhi (mFields (portWord port w)).mode.toNat
  obtain ⟨-, -, hmask, -, -, htpl⟩ := huses
  have h46 (i : Nat) (hi : i = 18 ∨ 13 ≤ i ∧ i < 17) (hbit : (mFields (portWord port w)).mode.getLsbD i = true) (hm : w / 2 ^ 184 = 0x46) :
      PortBad port w := by
    refine hmode i (by omega) hbit ?_
    rw [htpl hm]
    obtain rfl | rfl | rfl | rfl | rfl : i = 18 ∨ i = 13 ∨ i = 14 ∨ i = 15 ∨ i = 16 := by omega
    all_goals rfl
  rcases h with h | h | h | h | h | h | ⟨hm, h⟩ | ⟨hm, h⟩
  · exact .inl h
  · by_cases hm : w / 2 ^ 184 = 0x46
    · obtain ⟨i, hi⟩ := Nat.exists_testBit_of_ne_zero h
      rw [MFields.slot, show 16 = 2 ^ 4 from rfl, Nat.testBit_mod_two_pow, Nat.testBit_div_two_pow, Bool.and_eq_true, decide_eq_true_eq] at hi
      exact h46 (i + 13) (by omega) hi.2 hm
    · exact .inr (.inr ⟨hm, .inl h⟩)
  · by_cases hm : w / 2 ^ 184 = 0x46
    · exact h46 18 (.inl rfl) h hm
    · exact .inr (.inr ⟨hm, .inr h⟩)
  · exact hfield (mem_mZero_n hlo hhi _) (by decide) h
  · exact hfield (mem_mZero_acc hlo hhi _) (by decide) h
  · obtain ⟨i, hi, hbit⟩ := Nat.exists_ge_and_testBit_of_ge_two_pow h
    refine hmode i (Nat.lt_of_not_le fun hle => ?_) hbit (Nat.testBit_lt_two_pow (hmask.trans_le (Nat.pow_le_pow_right (by decide) hi)))
    rw [Nat.testBit_lt_two_pow ((mFields (portWord port w)).mode.isLt.trans_le (Nat.pow_le_pow_right (by decide) hle))] at hbit
    exact Bool.false_ne_true hbit
  · obtain ⟨ht, ho⟩ := mem_mZero_third hlo hhi (mFields (portWord port w)) hm
    rcases h with h | h
    · exact hfield ht (by decide) h
    · exact hfield ho (by decide) h
  · obtain ⟨ht1, ht2, ho1, ho2⟩ := mem_mZero_operands hlo hhi (mFields (portWord port w)) hm
    rcases h with h | h | h | h
    · exact hfield ht1 (by decide) h
    · exact hfield ht2 (by decide) h
    · exact hfield ho1 (by decide) h
    · exact hfield ho2 (by decide) h

/-- A word whose unlisted fields are zero passes. -/
theorem not_portBad {port w : Nat} (hzero : lowBitOf (portWord port w) (mZero (w / 2 ^ 184) (mFields (portWord port w))) = none)
    (hfe : (mFields (portWord port w)).fe = 0) (hslot : (mFields (portWord port w)).slot = 0)
    (h18 : (mFields (portWord port w)).mode.getLsbD 18 = false) : ¬ PortBad port w := by
  rintro (h | ⟨p, hp, -, hne⟩ | ⟨-, h | h⟩)
  · rw [hfe] at h
    exact absurd h (by decide)
  · exact hne (lowBitOf_eq_none.1 hzero p hp)
  · exact h hslot
  · rw [h18] at h
    exact Bool.false_ne_true h

/-! ### Stores to a port page (R30, R31) -/

theorem apert_vector (s : State) (fn vec k : Nat) : ((s.vector fn vec).fnAt k).apert = (s.fnAt k).apert := by
  unfold State.vector
  split
  · rfl
  · split
    · rw [fnAt_modFn]
      split
      · subst_vars
        rfl
      · rfl
    · rfl

/-- The count of refused pushes stops at its greatest value (R442). -/
theorem apert_countApert (s : State) (f : Nat) :
    ((s.countApert f).fnAt f).apert = if (s.fnAt f).apert < 255 then (s.fnAt f).apert + 1 else (s.fnAt f).apert := by
  have hmod : ((s.modFn f fun x => { x with apert := sat1 x.apert 255 }).fnAt f).apert = sat1 (s.fnAt f).apert 255 := by
    rw [fnAt_modFn, if_pos rfl]
  unfold State.countApert State.hostErr
  dsimp only
  split
  · rw [apert_vector]
    exact hmod
  · exact hmod

/-- The machine with a word of a command staged (R30). -/
def State.staged (s : State) (core key : Nat) (v : Word) : State := s.modCore core fun c => { c with staging := smSet 0 c.staging key v }

theorem coreAt_staged (s : State) (core key : Nat) (v : Word) :
    (s.staged core key v).coreAt core = { s.coreAt core with staging := smSet 0 (s.coreAt core).staging key v } :=
  (coreAt_setCore ..).trans (if_pos rfl)

/-- The command that the staged words of a port and a third word make (R30). -/
def State.portCommand (s : State) (core port : Nat) (v : Word) : Nat :=
  v.toNat * 2 ^ 128 + (smGet 0 (s.coreAt core).staging (port * 4 + 1)).toNat * 2 ^ 64 + (smGet 0 (s.coreAt core).staging (port * 4)).toNat

/-- The entry of a command that the host pushes: its registers are those of no strand (R30). -/
def portEntry (core id : Nat) (i : Instr) : Entry := { makeEntry {} i with core, sup := true, seq := id, cycles := 16, after := [] }

theorem portEntry_fields (core id : Nat) (i : Instr) : (portEntry core id i).instr = i ∧ (portEntry core id i).strand = none ∧
    (portEntry core id i).core = core ∧ (portEntry core id i).sup = true ∧ (portEntry core id i).phase = 0 := by
  unfold portEntry makeEntry
  dsimp only
  split
  · exact ⟨rfl, rfl, rfl, rfl, rfl⟩
  · split
    · exact ⟨rfl, rfl, rfl, rfl, rfl⟩
    · exact ⟨rfl, rfl, rfl, rfl, rfl⟩

/-- The machine with a command at the end of a core's aperture queue. -/
def State.portPushed (s : State) (core port : Nat) (v : Word) (i : Instr) : State :=
  ({ s.staged core (port * 4 + 2) v with nextId := s.nextId + 1 } : State).modCore core fun c => { c with apq := c.apq ++ [portEntry core s.nextId i] }

/-- The three outcomes of the host's store of a command's third word, for the command that its word makes (R30, R31). -/
def State.portThird (s : State) (core port : Nat) (v : Word) : Option Instr → State × AperFate
  | none => (s.staged core (port * 4 + 2) v, .refused)
  | some i => if 16 ≤ (s.coreAt core).apq.length then (s, .full) else (s.portPushed core port v i, .accepted)

theorem aperture_third (s : State) (core port : Nat) (v : Word) :
    s.aperture core port 0x10 v {} = s.portThird core port v (aperWord port (s.portCommand core port v)) := by
  unfold State.aperture
  rw [if_neg (by decide)]
  extract_lets c w
  have hw : w = s.portCommand core port v := rfl
  clear_value w
  rw [hw]
  generalize aperWord port (s.portCommand core port v) = i
  cases i with
  | none => rfl
  | some i => rfl

theorem aperture_stages (s : State) (core port : Nat) {off : Nat} (h : off ≠ 0x10) (v : Word) :
    s.aperture core port off v {} = (s.staged core (port * 4 + off / 8) v, .accepted) := by
  unfold State.aperture
  rw [if_pos h]
  rfl

/-- A store that is not accepted is counted (R317, R442). -/
def settled (f : Nat) (r : State × AperFate) : State :=
  match r with
  | (s, .accepted) => s
  | (s, _) => s.countApert f

section
variable {s : State} {f : Nat} (hf : s.ev.agent = .host f)
include hf

theorem aperturePush_elsewhere (h : 16 ≤ s.ev.k / 0x1000 ∨ s.ev.k % 0x1000 ∉ [0, 8, 0x10]) : exec .aperturePush s = .next (s.countRefused f) := by
  have hcond : (decide (16 ≤ s.ev.k / 0x1000) || !(s.ev.k % 0x1000 == 0 || s.ev.k % 0x1000 == 8 || s.ev.k % 0x1000 == 0x10)) = true := by
    simp only [List.mem_cons, List.not_mem_nil, or_false] at h
    simp only [Bool.or_eq_true, Bool.not_eq_true', Bool.or_eq_false_iff, beq_eq_false_iff_ne, decide_eq_true_eq]
    tauto
  rw [exec_aperturePush, execAperturePush, hf, if_pos hcond]
  rfl

/-- A store to a port's words. -/
theorem aperturePush_port (hport : s.ev.k / 0x1000 < 16) (hoff : s.ev.k % 0x1000 ∈ [0, 8, 0x10]) : exec .aperturePush s =
    .next (settled f (s.aperture s.ev.n (s.ev.k / 0x1000) (s.ev.k % 0x1000) s.ev.v {})) := by
  have hcond : (decide (16 ≤ s.ev.k / 0x1000) || !(s.ev.k % 0x1000 == 0 || s.ev.k % 0x1000 == 8 || s.ev.k % 0x1000 == 0x10)) = false := by
    simp only [List.mem_cons, List.not_mem_nil, or_false] at hoff
    simp only [Bool.or_eq_false_iff, Bool.not_eq_false', Bool.or_eq_true, beq_iff_eq, decide_eq_false_iff_not]
    exact ⟨by omega, by tauto⟩
  rw [exec_aperturePush, execAperturePush, hf, hcond, if_neg Bool.false_ne_true]
  rfl

theorem aperturePush_stages (hport : s.ev.k / 0x1000 < 16) (hoff : s.ev.k % 0x1000 = 0 ∨ s.ev.k % 0x1000 = 8) :
    exec .aperturePush s = .next (s.staged s.ev.n (s.ev.k / 0x1000 * 4 + s.ev.k % 0x1000 / 8) s.ev.v) := by
  rw [aperturePush_port hf hport (by simp only [List.mem_cons]; tauto), aperture_stages _ _ _ (by omega)]
  rfl

section
variable (hport : s.ev.k / 0x1000 < 16) (hoff : s.ev.k % 0x1000 = 0x10)
include hport hoff

theorem aperturePush_third : exec .aperturePush s = .next (settled f (s.portThird s.ev.n (s.ev.k / 0x1000) s.ev.v
    (aperWord (s.ev.k / 0x1000) (s.portCommand s.ev.n (s.ev.k / 0x1000) s.ev.v)))) := by
  rw [aperturePush_port hf hport (by rw [hoff]; decide), hoff, aperture_third]

/-- A refused push is counted, and the queue stands (R317, R442). -/
theorem aperturePush_refused (h : aperWord (s.ev.k / 0x1000) (s.portCommand s.ev.n (s.ev.k / 0x1000) s.ev.v) = none ∨ 16 ≤ (s.coreAt s.ev.n).apq.length) :
    ∃ t, exec .aperturePush s = .next t ∧ (t.fnAt f).apert = (if (s.fnAt f).apert < 255 then (s.fnAt f).apert + 1 else (s.fnAt f).apert) ∧
      (t.coreAt s.ev.n).apq = (s.coreAt s.ev.n).apq ∧ t.strands = s.strands ∧ t.mem = s.mem := by
  have hcount (u : State) (hfns : u.fns = s.fns) (happ : (u.coreAt s.ev.n).apq = (s.coreAt s.ev.n).apq) (hstrands : u.strands = s.strands)
      (hmem : u.mem = s.mem) : ((u.countApert f).fnAt f).apert = (if (s.fnAt f).apert < 255 then (s.fnAt f).apert + 1 else (s.fnAt f).apert) ∧
      ((u.countApert f).coreAt s.ev.n).apq = (s.coreAt s.ev.n).apq ∧ (u.countApert f).strands = s.strands ∧ (u.countApert f).mem = s.mem := by
    have hframe := hostErr_frame u f fun x => { x with apert := sat1 x.apert 255 }
    have hfn : u.fnAt f = s.fnAt f := congrArg (fun m : SMap HostFn => (smGet {} m f : HostFn)) hfns
    refine ⟨by rw [apert_countApert, hfn], ?_, ?_, ?_⟩
    · exact (congrArg (fun t : State => (t.coreAt s.ev.n).apq) hframe).trans happ
    · exact (congrArg State.strands hframe).trans hstrands
    · exact (congrArg State.mem hframe).trans hmem
  rw [aperturePush_third hf hport hoff]
  cases hw : aperWord (s.ev.k / 0x1000) (s.portCommand s.ev.n (s.ev.k / 0x1000) s.ev.v) with
  | none => exact ⟨_, rfl, hcount _ rfl (by rw [coreAt_staged]) rfl rfl⟩
  | some i =>
    rw [State.portThird, if_pos (h.resolve_left (by rw [hw]; nofun))]
    exact ⟨_, rfl, hcount s rfl rfl rfl rfl⟩

theorem aperturePush_pushes {i : Instr} (hw : aperWord (s.ev.k / 0x1000) (s.portCommand s.ev.n (s.ev.k / 0x1000) s.ev.v) = some i)
    (hspace : (s.coreAt s.ev.n).apq.length < 16) : exec .aperturePush s = .next (s.portPushed s.ev.n (s.ev.k / 0x1000) s.ev.v i) := by
  rw [aperturePush_third hf hport hoff, hw, State.portThird, if_neg (Nat.not_le.2 hspace)]
  rfl

end

end

theorem coreAt_portPushed (s : State) (core port : Nat) (v : Word) (i : Instr) (d : Nat) : (s.portPushed core port v i).coreAt d =
    if d = core then { s.coreAt core with staging := smSet 0 (s.coreAt core).staging (port * 4 + 2) v, apq := (s.coreAt core).apq ++ [portEntry core s.nextId i] }
    else s.coreAt d := by
  rw [State.portPushed, State.modCore, coreAt_setCore]
  split
  · rw [show State.coreAt { s.staged core (port * 4 + 2) v with nextId := s.nextId + 1 } core = _ from coreAt_staged ..]
  · rename_i h
    exact (coreAt_setCore ..).trans (if_neg h)

/-- A command of the copy engine whose fields pass enters its core's queue (R31, R317). -/
theorem aperturePush_accepted {s : State} {f : Nat} (hf : s.ev.agent = .host f) (hport : s.ev.k / 0x1000 < 16) (hoff : s.ev.k % 0x1000 = 0x10)
    {i : Instr} (hw : aperWord (s.ev.k / 0x1000) (s.portCommand s.ev.n (s.ev.k / 0x1000) s.ev.v) = some i)
    (hspace : (s.coreAt s.ev.n).apq.length < 16) : ∃ (t : State) (e : Entry), exec .aperturePush s = .next t ∧
      (t.coreAt s.ev.n).apq = (s.coreAt s.ev.n).apq ++ [e] ∧ e.instr = i ∧ e.strand = none ∧ e.core = s.ev.n ∧ e.sup = true ∧ e.phase = 0 ∧
      (∀ k, k < 2 → smGet 0 (t.coreAt s.ev.n).staging (s.ev.k / 0x1000 * 4 + k) = smGet 0 (s.coreAt s.ev.n).staging (s.ev.k / 0x1000 * 4 + k)) ∧
      t.strands = s.strands ∧ t.mem = s.mem ∧ ∀ d, d ≠ s.ev.n → t.coreAt d = s.coreAt d := by
  obtain ⟨hinstr, hstrand, hcore, hsup, hphase⟩ := portEntry_fields s.ev.n s.nextId i
  refine ⟨_, _, aperturePush_pushes hf hport hoff hw hspace, ?_, hinstr, hstrand, hcore, hsup, hphase, fun k hk => ?_, rfl, rfl, fun d hd => ?_⟩
  · rw [coreAt_portPushed, if_pos rfl]
  · rw [coreAt_portPushed, if_pos rfl]
    exact (smGet_smSet ..).trans (if_neg (by omega))
  · rw [coreAt_portPushed, if_neg hd]

/-- What the aperture refuses of a command's third word (R317). -/
theorem aperturePush_bad {s : State} {f : Nat} (hf : s.ev.agent = .host f) (hport : s.ev.k / 0x1000 < 16) (hoff : s.ev.k % 0x1000 = 0x10)
    (h : let w := s.portCommand s.ev.n (s.ev.k / 0x1000) s.ev.v
      let g := mFields (portWord (s.ev.k / 0x1000) w)
      g.fe = 1 ∨ g.slot ≠ 0 ∨ g.mode.getLsbD 18 = true ∨ g.n ≠ 0 ∨ g.acc ≠ 0 ∨ 2 ^ 25 ≤ g.mode.toNat ∨ (w / 2 ^ 184 ≠ 0x41 ∧ (g.t3 ≠ 0 ∨ g.o3 ≠ 0)) ∨
        (0x45 ≤ w / 2 ^ 184 ∧ (g.t1 ≠ 0 ∨ g.t2 ≠ 0 ∨ g.o1 ≠ 0 ∨ g.o2 ≠ 0))) :
    ∃ t, exec .aperturePush s = .next t ∧ (t.fnAt f).apert = (if (s.fnAt f).apert < 255 then (s.fnAt f).apert + 1 else (s.fnAt f).apert) ∧
      (t.coreAt s.ev.n).apq = (s.coreAt s.ev.n).apq ∧ t.strands = s.strands ∧ t.mem = s.mem := by
  refine aperturePush_refused hf hport hoff (.inl (aperWord_refused ?_))
  by_cases hlo : s.portCommand s.ev.n (s.ev.k / 0x1000) s.ev.v / 2 ^ 184 < 0x40
  · exact .inl hlo
  · by_cases hhi : 0x46 < s.portCommand s.ev.n (s.ev.k / 0x1000) s.ev.v / 2 ^ 184
    · exact .inr (.inl hhi)
    · exact .inr (.inr (portBad_of (Nat.not_lt.1 hlo) (Nat.not_lt.1 hhi) h))

end Sys2Proof.Machine

/-!
What a copy engine's entry reads of its strand's own scratchpad, also while its own channel is active (R89, R252, R322).
-/
namespace Sys2Proof.Machine

theorem inWindow_sub {x : Strand} {off n i k : Nat} (h : x.inWindow off n = true) (hik : i + k ≤ n) : x.inWindow (off + i) k = true := by
  rw [Strand.inWindow, Bool.and_eq_true, decide_eq_true_eq, decide_eq_true_eq] at h ⊢
  omega

theorem spmBytes_add (s : State) (core off n : Nat) : s.spmBytes core off (n + 1) = s.spmBytes core off n ++ s.spmBytes core (off + n) 1 := by
  simp [State.spmBytes, List.range_succ]

section
variable {s : State} {e : Entry} {n : Nat} (ht : s.takes e) (he : e.strand = some n) (hu : e.undef = false) (hr : ∀ va w, e.races s va w = false)
include ht he hu hr

/-- A read of the strand's own scratchpad. -/
theorem unit_takes {off k : Nat} (hint : Nat) (ho : off < 0x400000) (hw : (s.strandAt n).inWindow off k = true) :
    Rd.unit { s } e (localBase + off) k hint = ({ s }, s.spmBytes e.core off k) := by
  have hv : (BitVec.ofNat 64 (localBase + off)).toNat = localBase + off := by
    rw [BitVec.toNat_ofNat, Nat.mod_eq_of_lt (by simp only [localBase]; omega)]
  have hbehind : (e.marks && s.behindMark e.core off k) = false := by
    rw [Bool.and_eq_false_imp]
    intro hm
    unfold State.behindMark
    exact List.any_eq_false.2 fun p hp => by simp [ht.mark hm p hp]
  have hfetch : s.fetchSpm (e.who s) e.core off k true = (s, .bytes (s.spmBytes e.core off k)) := by
    unfold State.fetchSpm State.scanSpm
    simp [Entry.who, he, hw, hbehind, touchSpm_free ht.free, ht.sound]
  simp [Rd.unit, place_own hv ho, State.fetchPlace, hfetch, hu, hr]

theorem bytes_takes {off k : Nat} (hint : Nat) (h1 : 1 ≤ k) (ho : off + k ≤ 0x400000) (hw : (s.strandAt n).inWindow off k = true) :
    Rd.bytes { s } e (localBase + off) k hint = ({ s }, s.spmBytes e.core off k) := by
  unfold Rd.bytes
  split
  · exact unit_takes ht he hu hr hint (by omega) hw
  · have step (m : Nat) (hm : m ≤ k) : (List.range m).foldl (fun (x : Rd × List Byte) i =>
        ((Rd.unit x.1 e (localBase + off + i) 1 hint).1, x.2 ++ (Rd.unit x.1 e (localBase + off + i) 1 hint).2)) ({ s }, []) =
        ({ s }, s.spmBytes e.core off m) := by
      induction m with
      | zero => rfl
      | succ m ih =>
        rw [List.range_succ, List.foldl_append, ih (by omega), List.foldl_cons, List.foldl_nil]
        dsimp only
        rw [Nat.add_assoc, unit_takes ht he hu hr hint (by omega) (inWindow_sub hw (by omega)), ← spmBytes_add]
    exact step k (Nat.le_refl k)

/-- The code of an element of whole bytes. -/
theorem span_takes {x : Span} {off k : Nat} (hint : Nat) (hx : x = (8 * ((localBase + off : Nat) : Int), 8 * k)) (h1 : 1 ≤ k) (ho : off + k ≤ 0x400000)
    (hw : (s.strandAt n).inWindow off k = true) : Rd.span { s } e x hint = ({ s }, leNat (s.spmBytes e.core off k)) := by
  have hlo : (spanBytes x).1 = ((localBase + off : Nat) : Int) := by
    rw [hx]
    exact Int.mul_fdiv_cancel_left _ (by decide)
  have hhi : (spanBytes x).2 = ((localBase + off + k - 1 : Nat) : Int) := by
    rw [hx, spanBytes]
    dsimp only
    rw [Int.fdiv_eq_ediv_of_nonneg _ (by decide)]
    push_cast
    omega
  have hlen : ((spanBytes x).2 - (spanBytes x).1 + 1).toNat = k := by omega
  have hsh : (x.1 - (spanBytes x).1 * 8).toNat = 0 := by rw [hlo, hx]; dsimp only; omega
  have hbits : x.2 = 8 * k := by rw [hx]
  have hlt : leNat (s.spmBytes e.core off k) < 2 ^ (8 * k) := by
    have := leNat_lt (s.spmBytes e.core off k)
    rwa [spmBytes_length] at this
  have hread : Rd.bytes { s } e (spanBytes x).1.toNat ((spanBytes x).2 - (spanBytes x).1 + 1).toNat hint = ({ s }, s.spmBytes e.core off k) := by
    rw [hlen, hlo, Int.toNat_natCast]
    exact bytes_takes ht he hu hr hint h1 ho hw
  have hval : Rd.span { s } e x hint = ({ s }, leNat (s.spmBytes e.core off k) / 2 ^ (x.1 - (spanBytes x).1 * 8).toNat % 2 ^ x.2) :=
    congrArg (fun r : Rd × List Byte => (r.1, leNat r.2 / 2 ^ (x.1 - (spanBytes x).1 * 8).toNat % 2 ^ x.2)) hread
  rw [hval, hsh, hbits, pow_zero, Nat.div_one, Nat.mod_eq_of_lt hlt]

end

/-! ### The cells of a copy (R322, R323) -/

/-- The code that the scratchpad holds for a cell: 0 where the source has no such element (R322). -/
def Job.codeOf (j : Job) (s : State) (c : Cell) : Nat :=
  match c.src with
  | some rc => leNat (s.spmBytes j.e.core ((j.s.span rc).1 / 8 - localBase).toNat (fmtBits j.s.fmt / 8))
  | none => 0

/-- The value of a cell (R250). -/
def Job.valOf (j : Job) (s : State) (c : Cell) : Val :=
  match c.src with
  | some _ => (scaled (fmtDec j.s.fmt (j.codeOf s c)) none j.s.tscale).1
  | none => valZero

/-- A fold that leaves its state and puts one thing of each element before the others. -/
theorem foldl_collect {α β ρ : Type} {F : ρ × List β → α → ρ × List β} {r : ρ} {g : α → β} (cs : List α)
    (h : ∀ c ∈ cs, ∀ l, F (r, l) c = (r, g c :: l)) (l : List β) : cs.foldl F (r, l) = (r, (cs.map g).reverse ++ l) := by
  induction cs generalizing l with
  | nil => rfl
  | cons c cs ih =>
    rw [List.foldl_cons, h c List.mem_cons_self, ih fun x hx => h x (List.mem_cons_of_mem _ hx), List.map_cons, List.reverse_cons, List.append_assoc]
    rfl

/-- What a copy has read of a cell: its code, or its value. -/
def Job.gotOf (j : Job) (s : State) (c : Cell) : Cell × Nat × List Val :=
  (c, if j.value then 0 else j.codeOf s c, if j.value || c.src.isNone then [j.valOf s c] else [])

/-- The source elements of cells are whole bytes of strand `n`'s scratchpad. -/
def Job.ownSources (j : Job) (s : State) (n : Nat) (cs : List Cell) : Prop := ∀ c ∈ cs, ∀ rc, c.src = some rc → s.ownPuts n [(j.s.span rc, 0)]

section
variable {s : State} {j : Job} {n : Nat} (ht : s.takes j.e) (he : j.e.strand = some n) (hu : j.e.undef = false)
  (hr : ∀ va w, j.e.races s va w = false) (hblk : j.s.blk = 0) (hcplx : fmtComplex j.s.fmt = false)
include ht he hu hr

theorem code_takes {rc : Nat × Nat} (h : s.ownPuts n [(j.s.span rc, 0)]) (hint : Nat) : Rd.code { s } j.e j.s rc hint =
    ({ s }, leNat (s.spmBytes j.e.core ((j.s.span rc).1 / 8 - localBase).toNat (fmtBits j.s.fmt / 8))) := by
  obtain ⟨off, k, hspan, h1, -, hend, hwin⟩ := h _ (List.mem_singleton_self _)
  dsimp only at hspan
  have hoff : ((j.s.span rc).1 / 8 - localBase).toNat = off := by rw [hspan]; dsimp only; omega
  have hk : fmtBits j.s.fmt / 8 = k := by
    have : fmtBits j.s.fmt = 8 * k := congrArg Prod.snd hspan
    omega
  rw [hoff, hk]
  exact span_takes ht he hu hr hint hspan h1 hend hwin

include hblk hcplx

theorem value_takes {rc : Nat × Nat} (h : s.ownPuts n [(j.s.span rc, 0)]) (hint : Nat) :
    (Rd.value { s } j.e j.s rc hint).1 = { s } ∧ (Rd.value { s } j.e j.s rc hint).2.1 =
      [(scaled (fmtDec j.s.fmt (leNat (s.spmBytes j.e.core ((j.s.span rc).1 / 8 - localBase).toNat (fmtBits j.s.fmt / 8)))) none j.s.tscale).1] := by
  have hpart : fmtPart j.s.fmt = j.s.fmt := by
    revert hcplx
    cases j.s.fmt <;> simp [fmtComplex, fmtPart]
  rw [Rd.value, Rd.codeScale, code_takes ht he hu hr h]
  dsimp only
  rw [if_pos hblk]
  dsimp only [elemVal, codeParts]
  rw [hcplx, if_neg Bool.false_ne_true, hpart]
  exact ⟨rfl, rfl⟩

/-- A copy reads all its cells at once. -/
theorem cells_takes {cs : List Cell} (h : j.ownSources s n cs) : Rd.cells { s } j cs = ({ s }, cs.map (j.gotOf s)) := by
  unfold Rd.cells
  rw [foldl_collect (g := j.gotOf s) cs fun c hc l => ?_]
  · simp
  · dsimp only
    cases hsrc : c.src with
    | none =>
      dsimp only
      rw [Job.gotOf, Job.valOf, Job.codeOf, hsrc, hcplx, ite_self]
      simp
    | some rc =>
      dsimp only
      have hown := h c hc rc hsrc
      rw [Job.gotOf, Job.valOf, Job.codeOf, hsrc]
      cases hval : j.value with
      | true =>
        obtain ⟨hst, hv⟩ := value_takes ht he hu hr hblk hcplx hown 2
        rw [if_pos rfl, hst, hv]
        rfl
      | false =>
        rw [if_neg Bool.false_ne_true, code_takes ht he hu hr hown]
        rfl

end

end Sys2Proof.Machine

/-!
The codes that a copy writes, and its run within the own scratchpad from its checks to its element (R89, R322, R323, R327), for O33.
-/
namespace Sys2Proof.Machine

/-! ### The codes that a copy writes (R322) -/

/-- put into a real destination without block scales. -/
theorem putPlain_real {s : State} {e : Entry} {v : View} (hv : fmtComplex v.fmt = false) (rm : Nat) (sat : Bool) (l : List PutVal) :
    (s.putPlain e v rm sat l).1 = s ∧ (s.putPlain e v rm sat l).2.1 =
      l.map fun p => (v.span (v.flat p.j), (putCode v rm (srHash e.srSeed p.ix) sat (p.vals.headD (.fin false 0 1))).1) := by
  induction l with
  | nil => exact ⟨rfl, rfl⟩
  | cons p r ih =>
    rw [State.putPlain, hv]
    dsimp only
    rw [if_neg Bool.false_ne_true]
    exact ⟨ih.1, congrArg _ ih.2⟩

/-- The code that a copy writes for a cell whose source row is in range. -/
def Job.newCode (j : Job) (s : State) (c : Cell) : Nat :=
  if j.value then (putCode j.d (rmOf j.t.rm j.e.rmode) (srHash j.e.srSeed (c.r * j.t.cols + c.c)) j.t.sat (j.valOf s c)).1
  else j.codeOf s c % 2 ^ fmtBits j.d.fmt

/-- A copy's writes: a value's code for the cells of a row in range, then code 0 for the others. -/
def Job.putsOf (j : Job) (s : State) (cs : List Cell) : List Put :=
  (cs.filter fun c => !(c.zero && j.value)).map (fun c => (j.d.span c.dst, j.newCode s c)) ++
    (cs.filter fun c => c.zero && j.value).map fun c => (j.d.span c.dst, 0)

theorem flat_flat {v : View} {rc : Nat × Nat} (h : rc.2 < v.vc) : v.flat (rc.1 * v.vc + rc.2) = rc := by
  have hpos : 0 < v.vc := by omega
  rw [View.flat, Nat.mul_comm, Nat.mul_add_div hpos, Nat.div_eq_of_lt h, Nat.mul_add_mod, Nat.mod_eq_of_lt h]
  rfl

theorem copyPuts_real {s u : State} {j : Job} {cs : List Cell} (hblk : j.d.blk = 0) (hreal : fmtComplex j.d.fmt = false)
    (hdst : ∀ c ∈ cs, c.dst.2 < j.d.vc) : u.copyPuts j (cs.map (j.gotOf s)) = (u, j.putsOf s cs) := by
  unfold State.copyPuts Job.putsOf
  cases hval : j.value with
  | true =>
    have hfilter (p : Cell → Bool) : (cs.map (j.gotOf s)).filter (fun x => p x.1) = (cs.filter p).map (j.gotOf s) := List.filter_map ..
    dsimp only
    rw [if_pos rfl, hfilter fun c => !c.zero, hfilter fun c => c.zero, State.putAll, if_pos hblk, List.map_map, List.map_map]
    obtain ⟨hst, hps⟩ := putPlain_real (s := u) (e := j.e) hreal (rmOf j.t.rm j.e.rmode) j.t.sat ((cs.filter fun c => !c.zero).map
      ((fun x : Cell × Nat × List Val => { j := x.1.dst.1 * j.d.vc + x.1.dst.2, vals := x.2.2, ix := x.1.r * j.t.cols + x.1.c, lane := 0 }) ∘ j.gotOf s))
    refine Prod.ext hst ?_
    refine congrArg₂ (· ++ ·) (hps.trans ?_) ?_
    · rw [List.map_map]
      simp only [Bool.and_true]
      refine List.map_congr_left fun c hc => ?_
      have hflat := flat_flat (hdst c (List.mem_filter.1 hc).1)
      simp [Job.gotOf, Job.newCode, hval, hflat]
    · simp only [Bool.and_true]
      rfl
  | false =>
    have hall : cs.filter (fun c => !(c.zero && false)) = cs := List.filter_eq_self.2 fun c _ => by simp
    have hnone : cs.filter (fun c => c.zero && false) = [] := List.filter_eq_nil_iff.2 fun c _ => by simp
    dsimp only
    rw [if_neg Bool.false_ne_true, hall, hnone, List.map_nil, List.append_nil, List.map_map]
    refine congrArg (Prod.mk u) (List.map_congr_left fun c _ => ?_)
    simp [Job.gotOf, Job.newCode, hval]

/-- The elements that a copy writes lie in the view. -/
theorem dst_of_mem_cells {j : Job} {row : Nat → Option Nat} {c : Cell} (h : c ∈ j.cells row) : c.dst.2 < j.d.vc := by
  unfold Job.cells at h
  simp only [List.mem_flatMap, List.mem_map, List.mem_range] at h
  obtain ⟨r, -, x, hx, hc⟩ := h
  split at hc
  · subst hc
    dsimp only
    omega
  · subst hc
    dsimp only
    omega

/-! ### Bytes after a copy's writes -/

theorem foldl_written_afterPuts {s : State} {n : Nat} {puts : List Put} (h : s.ownPuts n puts) (a : Nat) (old : Byte) :
    puts.foldl (fun b p => written (putBytes p) (localBase + a) b) old = afterPuts puts a old := by
  unfold afterPuts
  refine List.foldl_ext _ _ _ fun b p hp => ?_
  obtain ⟨off, k, hspan, h1, -, -, -⟩ := h p hp
  have hat : (p.1.1 / 8).toNat - localBase = off := by
    rw [hspan]
    dsimp only
    omega
  rw [written_putBytes hspan h1]
  dsimp only
  rw [hat, hspan]
  dsimp only
  rw [Nat.mul_div_cancel_left k (by decide)]

theorem ownWrite_ownPuts {s : State} {n : Nat} {puts : List Put} (h : s.ownPuts n puts) : ∀ w ∈ writePlan puts, (s.strandAt n).ownWrite w :=
  ownWrite_writePlan fun p hp => by
    obtain ⟨off, k, hspan, h1, -, hend, hwin⟩ := h p hp
    exact ownWrite_putBytes hspan h1 hend hwin

/-- The destination elements of cells are whole bytes of strand `n`'s scratchpad. -/
theorem ownPuts_putsOf {s u : State} {j : Job} {n : Nat} {cs : List Cell} (h : ∀ c ∈ cs, s.ownPuts n [(j.d.span c.dst, 0)]) :
    s.ownPuts n (j.putsOf u cs) := by
  intro p hp
  obtain ⟨c, hc, hspan⟩ : ∃ c ∈ cs, p.1 = j.d.span c.dst := by
    rcases List.mem_append.1 hp with hp | hp
    · obtain ⟨c, hc, rfl⟩ := List.mem_map.1 hp
      exact ⟨c, (List.mem_filter.1 hc).1, rfl⟩
    · obtain ⟨c, hc, rfl⟩ := List.mem_map.1 hp
      exact ⟨c, (List.mem_filter.1 hc).1, rfl⟩
  rw [hspan]
  exact h c hc _ (List.mem_singleton_self _)

/-! ### The turn of a copy (R313, R322) -/

/-! An entry's reads do not depend on its phase. -/

theorem unit_phase (r : Rd) (e : Entry) (p va n hint : Nat) : r.unit { e with phase := p } va n hint = r.unit e va n hint := by
  unfold Rd.unit
  rfl

theorem bytes_phase (r : Rd) (e : Entry) (p va n hint : Nat) : r.bytes { e with phase := p } va n hint = r.bytes e va n hint := by
  unfold Rd.bytes
  simp only [unit_phase]

theorem span_phase (r : Rd) (e : Entry) (p : Nat) (x : Span) (hint : Nat) : r.span { e with phase := p } x hint = r.span e x hint := by
  unfold Rd.span
  simp only [bytes_phase]

theorem rows_phase (r : Rd) (j : Job) (p : Nat) : r.rows { j with e := { j.e with phase := p } } = r.rows j := by
  unfold Rd.rows Rd.code
  dsimp only
  simp only [span_phase]
  rfl

/-- The channel's flag of a fault is down as an entry begins (R312). -/
def State.unfaulted (s : State) (core ch : Nat) : State := s.modChan core ch ({ · with faulted := false })

/-- The checks of a command pass (R340). -/
theorem ceBegin_passes {s : State} {j : Job} (hk : j.k ≠ .cpymc) (hd : (s.unfaulted j.e.core j.f.ch).ceTdesc j = none) (hc : j.clash = none)
    (go : State → State) : s.ceBegin j go = go (s.unfaulted j.e.core j.f.ch) := by
  rw [State.ceBegin, ← State.unfaulted, hd]
  dsimp only
  rw [hc]
  dsimp only
  rw [if_neg hk]

/-- A copy begins: its range opens, and it reads. -/
theorem copyRun_begins {s : State} {e : Entry} {k : CeKind} {f : MFields} (hp : e.phase = 0) (hk : k ≠ .cpymc)
    (hd : (s.unfaulted e.core f.ch).ceTdesc (jobOf s k f e) = none) (hc : (jobOf s k f e).clash = none)
    (hv : (jobOf s k f e).versioned = false) : s.copyRun k f e =
      ((s.unfaulted e.core f.ch).openChan (jobOf s k f e)).copyData (jobOf s k f e) := by
  have hstamp (u : State) : u.copyStamp1 (jobOf s k f e) = u.copyData (jobOf s k f e) := by
    rw [State.copyStamp1]
    exact if_pos (by rw [Bool.not_eq_true']; exact hv)
  rw [State.copyRun, hp]
  exact (ceBegin_passes (j := jobOf s k f e) hk hd hc _).trans (hstamp _)

/-- The copy as its data are read (R322). -/
def Job.reading (j : Job) : Job := { j with e := { j.e with phase := 2 } }

/-- The source rows of a copy's template rows (R323). -/
def Job.rowsAt (j : Job) (u : State) : Rd × List (Option Nat) :=
  if j.k = .cpyi then Rd.rows { s := u } j else ({ s := u }, (List.range j.t.rows).map fun r => some ((j.e.org 1).1 + r))

theorem rowsAt_reading (j : Job) (u : State) : j.reading.rowsAt u = j.rowsAt u := by
  unfold Job.rowsAt
  rw [show Rd.rows { s := u } j.reading = Rd.rows { s := u } j from rows_phase ..]
  rfl

/-- The checksum that CPYK keeps of the codes that it writes (R327); no other copy keeps one. -/
def Job.sumOf (j : Job) (u : State) (l : List (Cell × Nat × List Val)) : Nat :=
  if j.k = .cpyk then checksum (bitsOf j.f.mode.toNat 21 20)
    (if j.f.mode.getLsbD 22 then (smGet {} (u.coreAt j.e.core).chans j.f.ch).ck.toNat else j.f.imm.toNat % 2 ^ 32) (copyBytes j.d l) else 0

/-- A copy with its writes under way, keeping the checksum of CPYK. -/
def Job.moving (j : Job) (ps : List Put) (v : Nat) : Job := { j with e := { j.e with plan := writePlan ps, keep := [(j.e.keep[0]?).getD 0, v], got := [] } }

/-- The spans that a copy reads (R254). -/
def Job.readSpans (j : Job) : List Span := (extOf j.e.core 0 j.s j.srcElems j.value).spans ++
  (extOf j.e.core 0 (j.e.view 3) (if j.k = .cpyi then j.ixElems else []) false).spans

/-- What a copy does with the codes or values that it has read (R322, R325). -/
def State.copyWrites (u : State) (j : Job) (l : List (Cell × Nat × List Val)) : State :=
  let (u, ps) := u.copyPuts j l
  let (u, ps) := if u.hiddenAlias j.e (ps.map (·.1)) j.readSpans then u.freePuts ps else (u, ps)
  let plan := if j.k = .cpymc then windowPlan j.f j.d (writePlan ps) else writePlan ps
  let e := { j.e with plan, keep := [(j.e.keep[0]?).getD 0, j.sumOf u l], got := [] }
  (u.putEntry e).copyStamp2 { j with e }

theorem copyData_eq {u : State} {j : Job} {rows : List (Option Nat)} {l : List (Cell × Nat × List Val)} (hrows : j.rowsAt u = ({ s := u }, rows))
    (hcells : Rd.cells { s := u } j.reading (j.reading.cells fun r => (rows[r]?).getD none) = ({ s := u }, l)) :
    u.copyData j = u.copyWrites j.reading l := by
  have hread : u.copyData j = (if (j.reading.rowsAt u).1.need.isEmpty then (j.reading.rowsAt u).1.cells j.reading
      (j.reading.cells fun i => ((j.reading.rowsAt u).2[i]?).getD none) else ((j.reading.rowsAt u).1, [])).1.ce j.reading fun s => s.copyWrites j.reading
      (if (j.reading.rowsAt u).1.need.isEmpty then (j.reading.rowsAt u).1.cells j.reading
        (j.reading.cells fun i => ((j.reading.rowsAt u).2[i]?).getD none) else ((j.reading.rowsAt u).1, [])).2 := rfl
  rw [hread, rowsAt_reading, hrows]
  dsimp only [List.isEmpty_nil]
  rw [if_pos rfl, hcells]
  rfl

theorem copyWrites_eq {u : State} {j : Job} {l : List (Cell × Nat × List Val)} {ps : List Put} (hk : j.k ≠ .cpymc) (hv : j.versioned = false)
    (hputs : u.copyPuts j l = (u, ps)) (halias : u.hiddenAlias j.e (ps.map (·.1)) j.readSpans = false) :
    u.copyWrites j l = (u.putEntry (j.moving ps (j.sumOf u l)).e).ceDrain
      { j.moving ps (j.sumOf u l) with e := { (j.moving ps (j.sumOf u l)).e with phase := 3 } } State.copyEnd := by
  rw [State.copyWrites, hputs]
  dsimp only
  rw [halias, if_neg Bool.false_ne_true]
  dsimp only
  rw [if_neg hk, State.copyStamp2]
  dsimp only
  rw [if_pos (by rw [Bool.not_eq_true']; exact hv)]
  rfl

end Sys2Proof.Machine

/-!
A copy's last turn: its writes land in the own scratchpad, its channel has its range, watermark and checksum, and its element is given
(R89, R313, R315, R327), for O33.
-/
namespace Sys2Proof.Machine

/-- The job of an entry that has made its writes. -/
def Job.drained (j : Job) : Job := { j with e := { j.e with phase := 4, plan := [] } }

/-- The writes of an entry to its strand's own scratchpad are all made, and the watermark is the range's end (R89). -/
theorem ceDrain_own {s : State} {j : Job} {n : Nat} (he : j.e.strand = some n) (hu : j.e.undef = false) (hpace : s.pace = 0) (hposted : s.posted = [])
    (ht : s.takes j.e) (hl : ∀ w ∈ j.e.plan, (s.strandAt n).ownWrite w) (fin : State → Job → State) : s.ceDrain j fin =
      fin ((j.e.plan.foldl (·.landed j.e.core ·) s).modChan j.e.core j.f.ch ({ · with wmark := (destRange j.e.core j.d j.dstElems).2.1 })) j.drained := by
  have hall : s.writeAll j.e j.e.plan = (j.e.plan.foldl (·.landed j.e.core ·) s, [], none) := by
    rw [State.writeAll, hpace]
    exact writeEach_own he hu j.e.plan ht hl
  have hnone : (j.e.plan.foldl (·.landed j.e.core ·) s).posted = [] := (congrArg State.posted (foldl_landed_frame ..).1).trans hposted
  have hmark := moveMark_done hnone j.drained
  have hacked (t : State) (h : t.posted = []) (e : Entry) : t.unacked e = false := by rw [State.unacked, h]; rfl
  rw [State.ceDrain, hall]
  dsimp only
  rw [show State.moveMark _ { j with e := { j.e with phase := 4, plan := [] } } [] = _ from hmark, hacked _ (by exact hnone)]
  rfl

/-- The machine with CPYK's checksum in its channel (R327). -/
def State.summed (s : State) (j : Job) (v : Nat) : State :=
  if j.k = .cpyk then s.modChan j.e.core j.f.ch ({ · with ck := BitVec.ofNat 32 v }) else s

theorem summed_frame (s : State) (j : Job) (v : Nat) : (s.summed j v).mem = s.mem ∧ (s.summed j v).strands = s.strands ∧
    (s.summed j v).coreAt j.e.core = { s.coreAt j.e.core with chans := ((s.summed j v).coreAt j.e.core).chans } ∧
    smGet {} ((s.summed j v).coreAt j.e.core).chans j.f.ch = { smGet {} (s.coreAt j.e.core).chans j.f.ch with
      ck := if j.k = .cpyk then BitVec.ofNat 32 v else (smGet {} (s.coreAt j.e.core).chans j.f.ch).ck } := by
  unfold State.summed
  split
  · exact ⟨rfl, rfl, by rw [coreAt_modChan], chan_modChan ..⟩
  · exact ⟨rfl, rfl, rfl, rfl⟩

/-- The status of a copy's element: 1 where CPYK's checksum is to be the one it names and is not (R327). -/
def Job.status (j : Job) (v : Nat) : Nat := if j.k = .cpyk ∧ (j.f.mode.getLsbD 23 && v != j.f.imm.toNat / 2 ^ 32) = true then 1 else 0

/-- The end of CPY, CPYI and CPYK (R315, R327). -/
theorem copyEnd_eq {s : State} {j : Job} {a v : Nat} (hk : j.k ≠ .cpymc) (hkeep : j.e.keep = [a, v]) (hv : j.k ≠ .cpyk → v = 0) :
    ∃ cover, s.copyEnd j = (s.summed j v).ceFinish j (j.status v) 0 v cover := by
  refine ⟨coverOf j.e.core j.d j.dstElems j.value, ?_⟩
  rw [State.copyEnd, hkeep, State.summed, Job.status]
  cases hkind : j.k with
  | cpyk => simp
  | cpymc => exact absurd hkind hk
  | cpy => simp [hv (by rw [hkind]; decide)]
  | cpyi => simp [hv (by rw [hkind]; decide)]
  | cpyrs => simp [hv (by rw [hkind]; decide)]

theorem chans_foldl_landed (s : State) (core : Nat) (l : List (Nat × List (Byte × Byte))) :
    ((l.foldl (·.landed core ·) s).coreAt core).chans = (s.coreAt core).chans ∧ ((l.foldl (·.landed core ·) s).coreAt core).fifos = (s.coreAt core).fifos := by
  rw [(foldl_landed_frame s core l).2 core]
  exact ⟨rfl, rfl⟩

theorem spm_modChan (s : State) (core ch : Nat) (g : Chan → Chan) : ((s.modChan core ch g).coreAt core).spm = (s.coreAt core).spm := by
  rw [coreAt_modChan]

/-- An entry that its queue holds as it is now leaves the queue as the entry before it would. -/
theorem queue_replaced_filter {e : Entry} {q : Nat} (hq : engineOf e.instr = some q) (x : Strand) :
    (smGet [] (x.replaced e).queues q).filter (·.seq != e.seq) = (smGet [] x.queues q).filter (·.seq != e.seq) := by
  have hreplaced := smGet_map [] (fun i (l : List Entry) => if some i = engineOf e.instr then modEntries e.seq (fun _ => e) l else l)
    x.queues q (by simp [modEntries])
  rw [show smGet [] (x.replaced e).queues q = _ from hreplaced, if_pos hq.symm, filter_modEntries]

/-- The channel of an entry that begins (R89). -/
def Job.opened (j : Job) (c : Chan) : Chan :=
  { c with d := (destRange j.e.core j.d j.dstElems).1, e := (destRange j.e.core j.d j.dstElems).2.1, wmark := (destRange j.e.core j.d j.dstElems).1
           active := decide (localBase ≤ (destRange j.e.core j.d j.dstElems).1) && decide ((destRange j.e.core j.d j.dstElems).2.1 ≤ localBase + 0x400000) }

/-- The machine as a copy's checks have passed: the flag of a fault is down, and the range is open. -/
def State.begun (s : State) (j : Job) : State := (s.unfaulted j.e.core j.f.ch).openChan j

theorem coreAt_begun (s : State) (j : Job) : (s.begun j).coreAt j.e.core = { s.coreAt j.e.core with chans := ((s.begun j).coreAt j.e.core).chans } := by
  have hopen : (s.begun j).coreAt j.e.core = _ := coreAt_modChan (s.unfaulted j.e.core j.f.ch) j.e.core j.f.ch j.opened
  rw [hopen, State.unfaulted, coreAt_modChan]

theorem chan_begun (s : State) (j : Job) : smGet {} ((s.begun j).coreAt j.e.core).chans j.f.ch =
    j.opened { smGet {} (s.coreAt j.e.core).chans j.f.ch with faulted := false } :=
  (chan_modChan (s.unfaulted j.e.core j.f.ch) j.e.core j.f.ch j.opened).trans (congrArg j.opened (chan_modChan ..))

theorem spmBytes_begun (s : State) (j : Job) (off k : Nat) : (s.begun j).spmBytes j.e.core off k = s.spmBytes j.e.core off k := by
  rw [State.spmBytes, coreAt_begun]
  rfl

/-- A copy's entry minds no watermark (R89), so the range that it opened does not stop it. -/
theorem takes_begun {s : State} {j : Job} (hs : s.plainSpm j.e.core) (heng : engineOf j.e.instr = some 2) : (s.begun j).takes j.e := by
  refine ⟨by rw [coreAt_begun]; exact hs.1, fun hm => ?_, hs.2.2⟩
  rw [Entry.marks, heng] at hm
  exact absurd hm (by decide)

theorem takes_putEntry {s : State} {e e' : Entry} {n : Nat} (h : s.takes e) (he : e'.strand = some n) (hcore : e'.core = e.core)
    (hi : e'.instr = e.instr) : (s.putEntry e').takes e' := by
  obtain ⟨hsound, hmark, hfree⟩ := h
  rw [putEntry_eq he]
  refine ⟨by rw [hcore]; exact hsound, fun hm => ?_, fun k hk => ?_⟩
  · rw [Entry.marks, hi] at hm
    rw [hcore]
    exact hmark hm
  · have hsync : ((s.modStrand n (·.replaced e')).strandAt (e'.core * Config.slots + k)).sync = (s.strandAt (e'.core * Config.slots + k)).sync := by
      rw [State.modStrand, strandAt_setStrand]
      split
      · rename_i h
        rw [h]
        rfl
      · rfl
    rw [hsync, hcore]
    exact hfree k hk

/-- `t` is `s` after the writes `ps` of a copy that began in `s`, its entry in its queue as `e`: the range is filled. -/
structure CopyLanded (s t : State) (j : Job) (n : Nat) (ps : List Put) : Prop where
  spm : ∀ a, smGet 0 (t.coreAt j.e.core).spm a = afterPuts ps a (smGet 0 (s.coreAt j.e.core).spm a)
  mem : t.mem = s.mem
  queue : (smGet [] (t.strandAt n).queues 2).filter (·.seq != j.e.seq) = (smGet [] (s.strandAt n).queues 2).filter (·.seq != j.e.seq)
  chan : smGet {} (t.coreAt j.e.core).chans j.f.ch =
    { j.opened { smGet {} (s.coreAt j.e.core).chans j.f.ch with faulted := false } with wmark := (destRange j.e.core j.d j.dstElems).2.1 }
  fifos : (t.coreAt j.e.core).fifos = (s.coreAt j.e.core).fifos

/-- The machine with a copy's writes made and its watermark at the end of its range. -/
def State.filled (s : State) (j : Job) (e : Entry) : State :=
  (e.plan.foldl (·.landed j.e.core ·) ((s.begun j).putEntry e)).modChan j.e.core j.f.ch ({ · with wmark := (destRange j.e.core j.d j.dstElems).2.1 })

theorem copyLanded_filled {s : State} {j : Job} {e : Entry} {n : Nat} {ps : List Put} (he : e.strand = some n) (heng : engineOf e.instr = some 2)
    (hseq : e.seq = j.e.seq) (hplan : e.plan = writePlan ps) (hps : s.ownPuts n ps) : CopyLanded s (s.filled j e) j n ps := by
  let w := (s.begun j).putEntry e
  let x := e.plan.foldl (·.landed j.e.core ·) w
  have hw : w = (s.begun j).modStrand n (·.replaced e) := putEntry_eq he
  have hwcore : w.coreAt j.e.core = (s.begun j).coreAt j.e.core := by rw [hw]; rfl
  obtain ⟨hframe, -⟩ := foldl_landed_frame w j.e.core e.plan
  obtain ⟨hchans, hfifos⟩ := chans_foldl_landed w j.e.core e.plan
  have hstrand : (s.filled j e).strandAt n = (s.strandAt n).replaced e := by
    have hx : x.strandAt n = w.strandAt n := (congrArg (fun t : State => t.strandAt n) hframe).trans rfl
    refine Eq.trans (show _ = x.strandAt n from rfl) (hx.trans ?_)
    rw [hw]
    exact (strandAt_setStrand ..).trans (if_pos rfl)
  refine ⟨fun a => ?_, ?_, ?_, ?_, ?_⟩
  · rw [State.filled, spm_modChan]
    refine (spm_foldl_landed w j.e.core (fun p hp => ?_) a).trans ?_
    · rw [hplan] at hp
      have hp := ownWrite_ownPuts hps p hp
      unfold Strand.ownWrite at hp
      omega
    · rw [hplan, foldl_written_writePlan, foldl_written_afterPuts hps, hwcore, coreAt_begun]
  · refine (congrArg State.mem hframe).trans ?_
    rw [hw]
    rfl
  · rw [hstrand, ← hseq]
    exact queue_replaced_filter heng _
  · rw [State.filled, chan_modChan, hchans, hwcore, chan_begun]
  · rw [State.filled, fifos_modChan, hfifos, hwcore, coreAt_begun]

section
variable {s : State} {j : Job} {n : Nat} (he : j.e.strand = some n) (hu : j.e.undef = false) (hpace : s.pace = 0) (hposted : s.posted = [])
  (hs : s.plainSpm j.e.core) (heng : engineOf j.e.instr = some 2)
include he hu hpace hposted hs heng

/-- A copy's writes land. -/
theorem ceDrain_moving {ps : List Put} (hps : s.ownPuts n ps) (v : Nat) (fin : State → Job → State) :
    ((s.begun j).putEntry (j.moving ps v).e).ceDrain { j.moving ps v with e := { (j.moving ps v).e with phase := 3 } } fin =
      fin (s.filled j (j.moving ps v).e) (j.moving ps v).drained := by
  have hw : (s.begun j).putEntry (j.moving ps v).e = (s.begun j).modStrand n (·.replaced (j.moving ps v).e) := putEntry_eq he
  have ht := takes_putEntry (e' := (j.moving ps v).e) (takes_begun hs heng) he rfl rfl
  have hown : ∀ x ∈ (j.moving ps v).e.plan, (((s.begun j).putEntry (j.moving ps v).e).strandAt n).ownWrite x := by
    rw [hw, State.modStrand, strandAt_setStrand, if_pos rfl]
    exact ownWrite_ownPuts hps
  exact ceDrain_own (j := { j.moving ps v with e := { (j.moving ps v).e with phase := 3 } }) he hu (by rw [hw]; exact hpace) (by rw [hw]; exact hposted)
    ⟨ht.sound, ht.mark, ht.free⟩ hown fin

/-- A copy's writes land, and it ends. -/
theorem copy_ends {ps : List Put} {v : Nat} (hk : j.k ≠ .cpymc) (hk2 : j.k ≠ .cpyrs) (hv : j.k ≠ .cpyk → v = 0) (hps : s.ownPuts n ps)
    (hspace : (smGet [] (s.coreAt j.e.core).fifos j.f.ch).length < 16) :
    let t := ((s.begun j).putEntry (j.moving ps v).e).ceDrain { j.moving ps v with e := { (j.moving ps v).e with phase := 3 } } State.copyEnd
    (∀ a, smGet 0 (t.coreAt j.e.core).spm a = afterPuts ps a (smGet 0 (s.coreAt j.e.core).spm a)) ∧ t.mem = s.mem ∧
    smGet [] (t.strandAt n).queues 2 = (smGet [] (s.strandAt n).queues 2).filter (·.seq != j.e.seq) ∧
    smGet {} (t.coreAt j.e.core).chans j.f.ch =
      { d := (destRange j.e.core j.d j.dstElems).1, e := (destRange j.e.core j.d j.dstElems).2.1, wmark := (destRange j.e.core j.d j.dstElems).2.1
        active := false, faulted := false
        ck := if j.k = .cpyk then BitVec.ofNat 32 v else (smGet {} (s.coreAt j.e.core).chans j.f.ch).ck } ∧
    (smGet [] (t.coreAt j.e.core).fifos j.f.ch).map (·.v) = (smGet [] (s.coreAt j.e.core).fifos j.f.ch).map (·.v) ++
      if j.f.res then [ceElem j.k.code (j.status v) j.f.tmpl 0 v] else [] := by
  intro t
  let z := s.filled j (j.moving ps v).e
  obtain ⟨hspm, hmem, hqueue, hchan, hfifos⟩ := copyLanded_filled (j := j) (e := (j.moving ps v).e) he heng rfl rfl hps
  obtain ⟨cover, hend⟩ := copyEnd_eq (s := z) (j := (j.moving ps v).drained) hk rfl hv
  have ht : t = (z.summed (j.moving ps v).drained v).ceFinish (j.moving ps v).drained (j.status v) 0 v cover :=
    (ceDrain_moving he hu hpace hposted hs heng hps v State.copyEnd).trans hend
  obtain ⟨hmemK, hstrandsK, hcoreK, hchanK⟩ := summed_frame z (j.moving ps v).drained v
  have hslot : (if (j.moving ps v).drained.k = .cpyrs || (j.moving ps v).drained.k = .cpymc then (j.moving ps v).drained.f.slot else 0) = 0 :=
    if_neg (by rw [Bool.or_eq_true, decide_eq_true_eq, decide_eq_true_eq]; exact not_or.2 ⟨hk2, hk⟩)
  obtain ⟨hmemE, hcoreE, hfifoE, hqueueE⟩ := ceFinish_ended (s := z.summed (j.moving ps v).drained v) (j := (j.moving ps v).drained) he heng hslot
    (fun _ => by rw [hcoreK]; exact hfifos.symm ▸ hspace) (j.status v) 0 v cover
  rw [← ht] at hmemE hcoreE hfifoE hqueueE
  refine ⟨fun a => ?_, hmemE.trans (hmemK.trans hmem), ?_, ?_, ?_⟩
  · rw [← hspm a]
    refine (congrArg (fun c : Core => smGet 0 c.spm a) hcoreE).trans ?_
    refine (congrArg (fun m : SMap Byte => smGet 0 m a) (spm_modChan (z.summed (j.moving ps v).drained v) j.e.core j.f.ch _)).trans ?_
    exact (congrArg (fun c : Core => smGet 0 c.spm a) hcoreK).trans rfl
  · refine hqueueE.trans (Eq.trans ?_ hqueue)
    exact congrArg (fun m => (smGet [] (smGet {} m n : Strand).queues 2).filter (·.seq != j.e.seq)) hstrandsK
  · refine (congrArg (fun c : Core => smGet {} c.chans j.f.ch) hcoreE).trans ?_
    refine (chan_modChan (z.summed (j.moving ps v).drained v) j.e.core j.f.ch _).trans ?_
    rw [show smGet {} ((z.summed (j.moving ps v).drained v).coreAt j.e.core).chans j.f.ch = _ from hchanK,
      show smGet {} (z.coreAt (j.moving ps v).drained.e.core).chans (j.moving ps v).drained.f.ch = _ from hchan]
    rfl
  · refine hfifoE.trans (congrArg₂ (· ++ ·) ?_ rfl)
    have hfifosK : ((z.summed (j.moving ps v).drained v).coreAt j.e.core).fifos = (z.coreAt j.e.core).fifos := (congrArg Core.fifos hcoreK).trans rfl
    have hfifosC : (((z.summed (j.moving ps v).drained v).closeChan (j.moving ps v).drained).coreAt j.e.core).fifos = _ :=
      fifos_modChan (z.summed (j.moving ps v).drained v) j.e.core j.f.ch _
    exact congrArg (fun m => (smGet [] m j.f.ch).map (·.v)) (hfifosC.trans (hfifosK.trans hfifos))

end

end Sys2Proof.Machine

/-!
CPY, CPYI and CPYK within the own scratchpad, from the checks to the element (R89, R312 to R327), for O33.
-/
namespace Sys2Proof.Machine

/-- A descriptor's check that fails for its operand is reported (R319, R340). -/
theorem ok_of_meTdesc {s : State} {e : Entry} {d : Desc} {ok : Bool} {rcs : List (Nat × Nat)} {scales : Bool} (h : s.meTdesc e d ok rcs scales = none) :
    ok = true := by
  cases ok with
  | true => rfl
  | false => exact absurd h nofun

/-- A command whose checks pass has a destination and a template that it may have (R319, R326). -/
theorem dstOk_of_ceTdesc {s : State} {j : Job} (h : s.ceTdesc j = none) : j.dstOk (smGet 0 (s.coreAt j.e.core).tmpl j.f.tmpl) = true := by
  unfold State.ceTdesc firstDesc at h
  rw [List.findSome?_eq_none_iff] at h
  have hdst := h (j.f.t2.toNat, s.meTdesc j.e (j.e.desc 2) (j.dstOk (smGet 0 (s.coreAt j.e.core).tmpl j.f.tmpl)) j.dstElems (j.t.conv == 1)) (by simp)
  exact ok_of_meTdesc (Option.map_eq_none_iff.1 hdst)

theorem conv_cpyk {w : Word} {ws wd : Nat} (h : templateBad .cpyk w ws wd = false) : (templateOf w).conv = 0 := by
  rw [templateBad, Bool.or_eq_false_iff] at h
  obtain ⟨-, hkind⟩ := h
  rw [Bool.or_eq_false_iff, Bool.or_eq_false_iff] at hkind
  obtain ⟨⟨hconv, -⟩, -⟩ := hkind
  simpa using hconv

theorem tmpl_unfaulted (s : State) (core ch : Nat) : ((s.unfaulted core ch).coreAt core).tmpl = (s.coreAt core).tmpl := by
  rw [State.unfaulted, coreAt_modChan]

/-- CPYK moves codes (R327). -/
theorem value_cpyk {s u : State} {e : Entry} {f : MFields} (h : u.ceTdesc (jobOf s .cpyk f e) = none)
    (htmpl : (u.coreAt e.core).tmpl = (s.coreAt e.core).tmpl) : (jobOf s .cpyk f e).value = false := by
  have hok : (jobOf s .cpyk f e).dstOk (smGet 0 (u.coreAt e.core).tmpl f.tmpl) = true := dstOk_of_ceTdesc h
  rw [htmpl, Job.dstOk, Bool.and_eq_true, Bool.and_eq_true, Bool.not_eq_true'] at hok
  obtain ⟨⟨-, hbad⟩, -⟩ := hok
  have hconv : (templateOf (smGet 0 (s.coreAt e.core).tmpl f.tmpl)).conv = 0 := conv_cpyk hbad
  show (false || (templateOf (smGet 0 (s.coreAt e.core).tmpl f.tmpl)).conv == 1) = false
  rw [hconv]
  rfl

/-- The codes that CPYK sums are those of its cells. -/
theorem copyBytes_gotOf {s : State} {j : Job} (hv : j.value = false) (d : View) (cs : List Cell) :
    copyBytes d (cs.map (j.gotOf s)) = cs.flatMap fun c => leBytes (fmtBits d.fmt / 8) (j.codeOf s c) := by
  unfold copyBytes
  rw [List.flatMap_map]
  refine List.flatMap_congr fun c _ => ?_
  simp [Job.gotOf, hv]

theorem codeOf_begun (s : State) (j : Job) (c : Cell) : j.codeOf (s.begun j) c = j.codeOf s c := by
  unfold Job.codeOf
  cases c.src with
  | none => rfl
  | some rc => exact congrArg leNat (spmBytes_begun ..)

theorem valOf_begun (s : State) (j : Job) (c : Cell) : j.valOf (s.begun j) c = j.valOf s c := by
  unfold Job.valOf
  rw [codeOf_begun]

theorem putsOf_begun (s : State) (j : Job) (cs : List Cell) : j.putsOf (s.begun j) cs = j.putsOf s cs := by
  unfold Job.putsOf Job.newCode
  simp only [codeOf_begun, valOf_begun]

/-- The checksum of a CPYK that moves these cells (R327); 0 for the other copies. -/
def Job.ckOf (j : Job) (s : State) (cs : List Cell) : Nat :=
  if j.k = .cpyk then checksum (bitsOf j.f.mode.toNat 21 20)
    (if j.f.mode.getLsbD 22 then (smGet {} (s.coreAt j.e.core).chans j.f.ch).ck.toNat else j.f.imm.toNat % 2 ^ 32)
    (cs.flatMap fun c => leBytes (fmtBits j.d.fmt / 8) (j.codeOf s c)) else 0

theorem sumOf_begun {s : State} {j : Job} (hv : j.k = .cpyk → j.value = false) (cs : List Cell) :
    j.sumOf (s.begun j) (cs.map (j.gotOf (s.begun j))) = j.ckOf s cs := by
  unfold Job.sumOf Job.ckOf
  split
  · rename_i hk
    rw [copyBytes_gotOf (hv hk), chan_begun]
    simp only [codeOf_begun]
    rfl
  · rfl

section
variable {s : State} {e : Entry} {f : MFields} {n : Nat} {k : CeKind} (hm : MReady s e) (he : e.strand = some n)
  (hs : s.plainSpm e.core) (heng : engineOf e.instr = some 2) (hr : ∀ va w, e.races s va w = false)
include hm he hs heng hr

/-- The turn of a copy within its strand's scratchpad: its writes, made from what it reads. -/
theorem copyRun_moves {rows : List (Option Nat)} (hk : k ≠ .cpymc) (hk2 : k ≠ .cpyrs) (hv : (jobOf s k f e).versioned = false)
    (hd : (s.unfaulted e.core f.ch).ceTdesc (jobOf s k f e) = none) (hc : (jobOf s k f e).clash = none)
    (hdb : (jobOf s k f e).d.blk = 0) (hsb : (jobOf s k f e).s.blk = 0) (hdc : fmtComplex (jobOf s k f e).d.fmt = false)
    (hsc : fmtComplex (jobOf s k f e).s.fmt = false) (hrows : (jobOf s k f e).rowsAt (s.begun (jobOf s k f e)) = ({ s := s.begun (jobOf s k f e) }, rows))
    (hsrc : (jobOf s k f e).ownSources s n ((jobOf s k f e).cells fun r => (rows[r]?).getD none))
    (halias : (s.begun (jobOf s k f e)).hiddenAlias e (((jobOf s k f e).putsOf s ((jobOf s k f e).cells fun r => (rows[r]?).getD none)).map (·.1))
      (jobOf s k f e).readSpans = false) :
    let j := jobOf s k f e
    let cs := j.cells fun r => (rows[r]?).getD none
    s.copyRun k f e = ((s.begun j).putEntry (j.reading.moving (j.putsOf s cs) (j.ckOf s cs)).e).ceDrain
      { j.reading.moving (j.putsOf s cs) (j.ckOf s cs) with e := { (j.reading.moving (j.putsOf s cs) (j.ckOf s cs)).e with phase := 3 } } State.copyEnd := by
  intro j cs
  have ht := takes_begun (s := s) (j := j.reading) hs heng
  have hcells : Rd.cells { s := s.begun j } j.reading cs = ({ s := s.begun j }, cs.map (j.reading.gotOf (s.begun j))) :=
    cells_takes (s := s.begun j) (j := j.reading) ht he hm.defined hr hsb hsc hsrc
  have hsum : j.reading.sumOf (s.begun j) (cs.map (j.reading.gotOf (s.begun j))) = j.ckOf s cs := by
    refine sumOf_begun (j := j.reading) (fun hkk => ?_) cs
    have hkk : k = .cpyk := hkk
    subst hkk
    exact value_cpyk hd (tmpl_unfaulted ..)
  have hputs : (s.begun j).copyPuts j.reading (cs.map (j.reading.gotOf (s.begun j))) = (s.begun j, j.putsOf s cs) := by
    have hdst : ∀ c ∈ cs, c.dst.2 < j.reading.d.vc := fun c hc => dst_of_mem_cells hc
    exact (copyPuts_real (j := j.reading) hdb hdc hdst).trans (congrArg (Prod.mk (s.begun j)) (putsOf_begun s j.reading cs))
  have hdata : s.copyRun k f e = (s.begun j).copyData j := copyRun_begins hm.begins hk hd hc hv
  rw [hdata, copyData_eq hrows hcells, copyWrites_eq (j := j.reading) hk hv hputs halias, hsum]

/-- A copy within its strand's scratchpad ends as R89, R315 and R322 say. -/
theorem copy_own {i : Instr} {rows : List (Option Nat)} (hposted : s.posted = []) (hi : (i = .cpy f ∧ k = .cpy) ∨ (i = .cpyi f ∧ k = .cpyi) ∨ (i = .cpyk f ∧ k = .cpyk))
    (hv : (jobOf s k f e).versioned = false) (hd : (s.unfaulted e.core f.ch).ceTdesc (jobOf s k f e) = none) (hc : (jobOf s k f e).clash = none)
    (hspace : (smGet [] (s.coreAt e.core).fifos f.ch).length < 16)
    (hdb : (jobOf s k f e).d.blk = 0) (hsb : (jobOf s k f e).s.blk = 0) (hdc : fmtComplex (jobOf s k f e).d.fmt = false)
    (hsc : fmtComplex (jobOf s k f e).s.fmt = false) (hrows : (jobOf s k f e).rowsAt (s.begun (jobOf s k f e)) = ({ s := s.begun (jobOf s k f e) }, rows))
    (hown : ∀ c ∈ (jobOf s k f e).cells fun r => (rows[r]?).getD none, s.ownPuts n [((jobOf s k f e).d.span c.dst, 0)] ∧
      ∀ rc, c.src = some rc → s.ownPuts n [((jobOf s k f e).s.span rc, 0)])
    (halias : (s.begun (jobOf s k f e)).hiddenAlias e (((jobOf s k f e).putsOf s ((jobOf s k f e).cells fun r => (rows[r]?).getD none)).map (·.1))
      (jobOf s k f e).readSpans = false) :
    let j := jobOf s k f e
    let cs := j.cells fun r => (rows[r]?).getD none
    ∃ t, exec i s = .next t ∧ (∀ a, smGet 0 (t.coreAt e.core).spm a = afterPuts (j.putsOf s cs) a (smGet 0 (s.coreAt e.core).spm a)) ∧ t.mem = s.mem ∧
    smGet [] (t.strandAt n).queues 2 = (smGet [] (s.strandAt n).queues 2).filter (·.seq != e.seq) ∧
    smGet {} (t.coreAt e.core).chans f.ch =
      { d := (destRange e.core j.d j.dstElems).1, e := (destRange e.core j.d j.dstElems).2.1, wmark := (destRange e.core j.d j.dstElems).2.1
        active := false, faulted := false
        ck := if k = .cpyk then BitVec.ofNat 32 (j.ckOf s cs) else (smGet {} (s.coreAt e.core).chans f.ch).ck } ∧
    (smGet [] (t.coreAt e.core).fifos f.ch).map (·.v) = (smGet [] (s.coreAt e.core).fifos f.ch).map (·.v) ++
      if f.res then [ceElem k.code (j.status (j.ckOf s cs)) f.tmpl 0 (j.ckOf s cs)] else [] := by
  intro j cs
  obtain ⟨hk, hk2⟩ : k ≠ .cpymc ∧ k ≠ .cpyrs := by
    rcases hi with ⟨-, rfl⟩ | ⟨-, rfl⟩ | ⟨-, rfl⟩
    · exact ⟨nofun, nofun⟩
    · exact ⟨nofun, nofun⟩
    · exact ⟨nofun, nofun⟩
  have hexec : exec i s = .next (s.copyRun k f e) := by
    rcases hi with ⟨rfl, rfl⟩ | ⟨rfl, rfl⟩ | ⟨rfl, rfl⟩
    · exact ceInstr_ready hm ..
    · exact ceInstr_ready hm ..
    · exact ceInstr_ready hm ..
  have hck : k ≠ .cpyk → j.ckOf s cs = 0 := fun h => if_neg h
  have hputs : s.ownPuts n (j.putsOf s cs) := ownPuts_putsOf fun c hc => (hown c hc).1
  rw [hexec, copyRun_moves hm he hs heng hr hk hk2 hv hd hc hdb hsb hdc hsc hrows (fun c hc => (hown c hc).2) halias]
  exact ⟨_, rfl, copy_ends (j := j.reading) he hm.defined hm.whole hposted hs heng hk hk2 hck hputs hspace⟩

end

end Sys2Proof.Machine

/-!
CPYRS at a home of this package (R84, R326), for O33.
-/
namespace Sys2Proof.Machine

/-! ### Rounded codes fit their format (R105) -/

/-- A rounded code of a binary format of the IEEE kind has no bit above its sign. -/
theorem ffRound_lt {f : FloatFmt} (hk : f.kind = .ieee) (hbits : 2 ^ f.bits = 2 * 2 ^ (f.bits - 1)) (hnan : ffNan f < 2 ^ (f.bits - 1))
    (hmax : ffMaxCode f + 1 < 2 ^ (f.bits - 1)) (hinf : ffTop f * 2 ^ f.m < 2 ^ (f.bits - 1)) (mode q : Nat) (v : Val) :
    (ffRound f mode q false v).1 < 2 ^ f.bits := by
  have hsgn (neg : Bool) {c : Nat} (hc : c < 2 ^ (f.bits - 1)) : (if neg then c + 2 ^ (f.bits - 1) else c) < 2 ^ f.bits := by
    rw [hbits]
    split <;> omega
  have hnext {c : Nat} (hc : c ≤ ffMaxCode f) (b : Bool) : (if b then c + 1 else c) < 2 ^ (f.bits - 1) := by
    split <;> omega
  cases v with
  | nan => exact hnan.trans (by omega)
  | snan => exact hnan.trans (by omega)
  | inf neg =>
    unfold ffRound
    rw [hk]
    exact hsgn neg hinf
  | fin neg n d =>
    unfold ffRound
    dsimp only
    split
    · exact hsgn neg (by omega)
    · split
      · exact hsgn neg (by omega)
      · split
        · exact hsgn neg (hnext (Nat.le_refl _) _)
        · rename_i hlo
          rw [decide_eq_true_eq] at hlo
          split
          · exact hsgn neg (by omega)
          · exact hsgn neg (hnext (Nat.not_lt.1 hlo) _)

/-- A sum that CPYRS stores fits its element (R326). -/
theorem reduceCode_lt {f : Fmt} (hf : f = .fp32 ∨ f = .bf16) (old : Nat) (v : Val) : reduceCode f old v < 256 ^ (fmtBits f / 8) := by
  rcases hf with rfl | rfl
  · exact ffRound_lt (f := ffF32) rfl (by decide) (by decide) (by decide) (by decide) 0 0 _
  · exact ffRound_lt (f := ffBF16) rfl (by decide) (by decide) (by decide) (by decide) 0 0 _

/-! ### A read-modify-write at a home (R84) -/

/-- A read at the home changes at most what its core knows of stale sectors (R75). -/
theorem fetchMem_home {s : State} (hm : s.plainMem) (w : Who) {n : Nat} (h1 : 1 ≤ n) (h8 : n ≤ 8) (pa : Nat) :
    ∃ u, s.fetchMem w pa n 2 = (u, .bytes (s.memBytes pa n)) ∧ u = { s with cores := u.cores } := by
  obtain ⟨u, hload, hu⟩ : ∃ u, s.loadMem w.core pa n 2 = (u, s.memBytes pa n) ∧ u = { s with cores := u.cores } := by
    unfold State.loadMem
    rw [performWhere_of_stores_nil hm.1]
    dsimp only
    split
    · exact ⟨s, rfl, rfl⟩
    · split
      · exact ⟨s, rfl, rfl⟩
      · exact ⟨_, rfl, rfl⟩
  refine ⟨u, ?_, hu⟩
  have hk : min n 8 = n := Nat.min_eq_left h8
  have hone : List.range (n / n) = [0] := by rw [Nat.div_self h1]; rfl
  unfold State.fetchMem
  rw [hm.2.2.1]
  simp only [List.any_nil, Bool.false_eq_true, if_false, if_true, scanMem_plain hm, hk, hone, List.foldl_cons, List.foldl_nil, Nat.zero_mul,
    Nat.add_zero, hload, List.nil_append]

theorem mem_updateBytes (s : State) (core pa : Nat) (bs : List Byte) : (s.updateBytes core pa bs).mem = s.mem := by
  unfold State.updateBytes State.updateL1
  dsimp only
  split
  · rfl
  · rfl

theorem rmwMem_home {s : State} {e : Entry} (hm : s.plainMem) (hu : e.undef = false) {n : Nat} (h1 : 1 ≤ n) (h8 : n ≤ 8) (pa : Nat) (g : Nat → Nat) :
    ∃ t, s.rmwMem e pa n g = (t, none) ∧ t.mem = (s.putMemNat pa n (g (s.memNat pa n))).mem := by
  obtain ⟨v, hfetch, hv⟩ := fetchMem_home hm (e.who s) h1 h8 pa
  have hsound : v.soundMem := by
    rw [hv]
    exact hm.sound
  let bs := leBytes n (g (s.memNat pa n))
  obtain ⟨p, hperf⟩ := performMem_quiet hsound (v.tenantOf e.core) (e.who v).task pa bs (some e.core) e.strand
  refine ⟨(v.performMem (v.tenantOf e.core) (e.who v).task pa bs (some e.core) e.strand).updateBytes e.core pa bs, ?_, ?_⟩
  · rw [State.rmwMem, performWhere_of_stores_nil hm.1, hfetch]
    dsimp only
    rw [if_neg (by rw [hu]; exact Bool.false_ne_true)]
    rfl
  · have hmem : v.mem = s.mem := (congrArg State.mem hv).trans rfl
    rw [mem_updateBytes, hperf]
    exact congrArg (memPut · pa bs) hmem

/-! ### One addition at a home (R326) -/

/-- The word of an exact sum (R326). -/
def exactSum (term : Int) (old : Nat) : Nat :=
  ((old : Int) + term).toNat % 2 ^ 64 + (if (old : Int) + term < 0 then (2 ^ 64 - ((-((old : Int) + term)).toNat % 2 ^ 64)) % 2 ^ 64 else 0)

theorem exactSum_eq (term : Int) (old : Nat) : BitVec.ofNat 64 (exactSum term old % 256 ^ 8) = BitVec.ofNat 64 old + BitVec.ofInt 64 term := by
  refine BitVec.eq_of_toNat_eq ?_
  rw [BitVec.toNat_ofNat, BitVec.toNat_add, BitVec.toNat_ofNat, BitVec.toNat_ofInt, exactSum]
  split <;> omega

/-- The bytes of a destination element, and what CPYRS makes of them (R326). -/
def Job.addBytes (j : Job) : Nat := if j.exact then 8 else fmtBits j.d.fmt / 8
def Job.added (j : Job) (v : Val) (term : Int) : Nat → Nat := fun old => if j.exact then exactSum term old else reduceCode j.d.fmt old v

theorem reduceAt_home {s u : State} {j : Job} {va pa : Nat} (hplace : s.place j.e.core j.e.sup .wr 3 (BitVec.ofNat 64 va) = (u, .ok (.mem pa)))
    (hm : u.plainMem) (hu : j.e.undef = false) (h1 : 1 ≤ j.addBytes) (h8 : j.addBytes ≤ 8) (v : Val) (term : Int) :
    ∃ t, s.reduceAt j va v term = (t, none, none) ∧ t.mem = (u.putMemNat pa j.addBytes (j.added v term (u.memNat pa j.addBytes))).mem := by
  obtain ⟨t, hrmw, hmem⟩ := rmwMem_home (e := j.e) hm hu h1 h8 pa (j.added v term)
  refine ⟨t, ?_, hmem⟩
  unfold Job.addBytes Job.added exactSum at hrmw
  rw [State.reduceAt, hplace]
  dsimp only
  rw [hrmw]
  rfl

/-! ### A turn of CPYRS with one element (R326) -/

theorem takes_unfaulted {s : State} {e : Entry} (hs : s.plainSpm e.core) (heng : engineOf e.instr = some 2) (ch : Nat) :
    (s.unfaulted e.core ch).takes e := by
  refine ⟨by rw [State.unfaulted, coreAt_modChan]; exact hs.1, fun hm => ?_, hs.2.2⟩
  rw [Entry.marks, heng] at hm
  exact absurd hm (by decide)

theorem spmBytes_unfaulted (s : State) (core ch off n : Nat) : (s.unfaulted core ch).spmBytes core off n = s.spmBytes core off n := by
  rw [State.spmBytes, State.unfaulted, coreAt_modChan]
  rfl

/-- The job of a CPYRS as its additions are made. -/
def Job.reducing (j : Job) : Job := { j with e := { j.e with keep := [0, 0], phase := 2 } }

/-- What a CPYRS does with the values that it has read, from addition `i` on (R326). -/
def State.reduceWrites (s : State) (j : Job) (l : List (Cell × Nat × List Val)) (i flg : Nat) : State :=
  let (s, i, flg, ids, x) := s.reduceAll j (if s.pace = 0 then l else l.take 1) i flg []
  let e := { j.e with keep := [i, flg], waits := j.e.waits ++ ids }
  let j := { j with e }
  match x with
  | some x => s.ceStop j x
  | none =>
    if s.pace ≠ 0 && 1 < l.length then s.putEntry e
    else if e.waits.isEmpty then s.ceFinish j 0 flg 0 [] else s.putEntry { e with phase := 4 }

theorem reduceRun_eq {s : State} {j : Job} {l : List (Cell × Nat × List Val)} (h : Rd.cells { s } j.reducing j.reducing.reduceCells = ({ s }, l)) :
    s.reduceRun { j with e := { j.e with keep := [0, 0] } } = s.reduceWrites j.reducing l 0 0 := by
  have hrun : s.reduceRun { j with e := { j.e with keep := [0, 0] } } = (Rd.cells { s } j.reducing (j.reducing.reduceCells.drop 0)).1.ce j.reducing
      fun u => u.reduceWrites j.reducing (Rd.cells { s } j.reducing (j.reducing.reduceCells.drop 0)).2 0 0 := rfl
  rw [hrun, List.drop_zero, h]
  rfl

/-- The job of a CPYRS whose one addition is made. -/
def Job.reduced (j : Job) : Job := { j with e := { j.e with keep := [1, 0], waits := j.e.waits ++ [] } }

theorem reduceWrites_single {s t : State} {j : Job} {x : Cell × Nat × List Val} (hpace : s.pace = 0) (hwaits : j.e.waits = [])
    (h : s.reduceAll j [x] 0 0 [] = (t, 1, 0, [], none)) : s.reduceWrites j [x] 0 0 = t.ceFinish j.reduced 0 0 0 [] := by
  rw [State.reduceWrites, if_pos hpace, h]
  dsimp only
  rw [if_neg (by simp), if_pos (by rw [hwaits]; rfl)]
  rfl

/-- The addend of an exact sum, or the reason for none; none is called for otherwise (R326). -/
def Job.term (j : Job) (v : Val) : Except Nat Int := if j.exact then exactTerm (intOfCode 16 (j.f.imm.toNat % 2 ^ 16)) v else .ok 0

theorem reduceAll_single {s t : State} {j : Job} {c : Cell} {code : Nat} {v : Val} {term : Int} (hterm : j.term v = .ok term)
    (hat : s.reduceAt j (spanBytes (j.d.span c.dst)).1.toNat v term = (t, none, none)) :
    s.reduceAll j [(c, code, [v])] 0 0 [] = (t, 1, 0, [], none) := by
  rw [State.reduceAll]
  dsimp only [List.headD_cons]
  rw [show (if j.exact = true then exactTerm (intOfCode 16 (j.f.imm.toNat % 2 ^ 16)) v else Except.ok 0) = .ok term from hterm]
  dsimp only
  rw [hat]
  rfl

theorem toInt_ofNat_eq (k : Nat) : (BitVec.ofNat 16 k).toInt = intOfCode 16 (k % 2 ^ 16) := by
  rw [BitVec.toInt_eq_toNat_cond, BitVec.toNat_ofNat, intOfCode]
  split <;> split <;> omega

/-- A CPYRS whose checks pass has one addition to make: of the element `src` of its strand's scratchpad, at `pa` of this package, for the
element `dst` (R326); it gives no element and arrives nowhere. -/
structure ReducesOne (s : State) (e : Entry) (f : MFields) (n : Nat) (src dst : Nat × Nat) (u : State) (pa : Nat) : Prop where
  described : (s.unfaulted e.core f.ch).ceTdesc (jobOf s .cpyrs f e) = none
  apart : (jobOf s .cpyrs f e).clash = none
  silent : f.res = false
  noSlot : f.slot = 0
  unscaled : (jobOf s .cpyrs f e).s.blk = 0
  real : fmtComplex (jobOf s .cpyrs f e).s.fmt = false
  single : (jobOf s .cpyrs f e).reduceCells = [{ r := 0, c := 0, dst, src := some src }]
  own : s.ownPuts n [((jobOf s .cpyrs f e).s.span src, 0)]
  placed : (s.unfaulted e.core f.ch).place e.core e.sup .wr 3 (BitVec.ofInt 64 (((jobOf s .cpyrs f e).d.span dst).1 / 8)) = (u, .ok (.mem pa))
  home : u.plainMem
  inside : 0 ≤ ((jobOf s .cpyrs f e).d.span dst).1

/-- A state whose memory is another's after a number was written there. -/
theorem memNat_memByte_put {t u : State} {pa n v : Nat} (h : t.mem = (u.putMemNat pa n v).mem) :
    t.memNat pa n = v % 256 ^ n ∧ ∀ a, a < pa ∨ pa + n ≤ a → t.memByte a = u.memByte a := by
  refine ⟨(memNat_of_mem h pa n).trans (memNat_putMemNat ..), fun a ha => ?_⟩
  have hbyte : t.memByte a = (u.putMemNat pa n v).memByte a := congrArg (fun m : List Host.Cell => smGet 0 m a) h
  rw [hbyte, State.putMemNat, memByte_putMem, leBytes_length, if_neg (by omega)]

/-- CPYRS without exact sums adds to FP32 or BF16 elements (R326). -/
theorem fmt_of_cpyrs {s : State} {j : Job} (hk : j.k = .cpyrs) (hx : j.exact = false) (h : s.ceTdesc j = none) : j.d.fmt = .fp32 ∨ j.d.fmt = .bf16 := by
  have hok := dstOk_of_ceTdesc h
  rw [Job.dstOk, Bool.and_eq_true, hk, hx] at hok
  obtain ⟨-, hdst⟩ := hok
  dsimp only at hdst
  rw [Bool.and_eq_true, if_neg Bool.false_ne_true, Bool.or_eq_true, beq_iff_eq (a := j.d.fmt), beq_iff_eq (a := j.d.fmt)] at hdst
  exact hdst.2

section
variable {s : State} {e : Entry} {f : MFields} {n : Nat} (hm : MReady s e) (he : e.strand = some n)
  (hs : s.plainSpm e.core) (heng : engineOf e.instr = some 2) (hr : ∀ va w, e.races s va w = false)
  {src dst : Nat × Nat} {u : State} {pa : Nat} (hone : ReducesOne s e f n src dst u pa)
include hm he hs heng hr hone

theorem cpyrs_single {term : Int} (h1 : 1 ≤ (jobOf s .cpyrs f e).addBytes) (h8 : (jobOf s .cpyrs f e).addBytes ≤ 8) :
    let j := jobOf s .cpyrs f e
    let v := j.valOf s { r := 0, c := 0, dst, src := some src }
    j.term v = .ok term → ∃ t, exec (.cpyrs f) s = .next t ∧ t.mem = (u.putMemNat pa j.addBytes (j.added v term (u.memNat pa j.addBytes))).mem := by
  intro j v hterm
  obtain ⟨hd, hc, hres, hslot, hsb, hsc, hcells, hown, hplace, hplain, hpos⟩ := hone
  let c : Cell := { r := 0, c := 0, dst, src := some src }
  let s0 := s.unfaulted e.core f.ch
  let jr := j.reducing
  have hva : BitVec.ofNat 64 (spanBytes (j.d.span dst)).1.toNat = BitVec.ofInt 64 ((j.d.span dst).1 / 8) := by
    have hlo : (spanBytes (j.d.span dst)).1 = (j.d.span dst).1 / 8 := Int.fdiv_eq_ediv_of_nonneg _ (by decide)
    rw [hlo, ← BitVec.ofInt_natCast, Int.toNat_of_nonneg (Int.ediv_nonneg hpos (by decide))]
  have hread : Rd.cells { s := s0 } jr [c] = ({ s := s0 }, [(c, 0, [v])]) := by
    have hall : jr.ownSources s0 n [c] := by
      intro x hx rc hrc
      obtain rfl := List.mem_singleton.1 hx
      obtain rfl := Option.some.inj hrc
      exact hown
    have ht := takes_unfaulted hs heng f.ch
    have hcells := cells_takes (s := s0) (j := jr) ⟨ht.sound, ht.mark, ht.free⟩ he hm.defined hr hsb hsc hall
    have hval : jr.valOf s0 c = v := by
      show (scaled (fmtDec j.s.fmt (leNat (s0.spmBytes e.core _ _))) none j.s.tscale).1 = _
      rw [spmBytes_unfaulted]
      rfl
    rw [hcells, List.map_singleton, Job.gotOf, hval]
    rfl
  obtain ⟨t, hat, hmem⟩ := reduceAt_home (s := s0) (j := jr) (va := (spanBytes (j.d.span dst)).1.toNat) (by rw [hva]; exact hplace) hplain hm.defined h1 h8 v term
  have hall := reduceAll_single (c := c) (code := 0) (j := jr) hterm hat
  have hrun : s0.reduceRun { j with e := { e with keep := [0, 0] } } = t.ceFinish jr.reduced 0 0 0 [] :=
    (reduceRun_eq (j := j) (by rw [show jr.reduceCells = [c] from hcells]; exact hread)).trans (reduceWrites_single hm.whole hm.fresh.2.2.2.1 hall)
  refine ⟨t.ceFinish jr.reduced 0 0 0 [], ?_, ?_⟩
  · rw [exec_cpyrs, execCpyrs, ceInstr_ready hm]
    dsimp only
    rw [hm.begins]
    rw [ceBegin_passes (j := j) nofun hd hc]
    exact congrArg done hrun
  · have hres' : jr.reduced.f.res = true → (smGet [] (t.coreAt jr.reduced.e.core).fifos jr.reduced.f.ch).length < 16 := fun h =>
      absurd (hres.symm.trans h) Bool.false_ne_true
    exact (ceFinish_ended (j := jr.reduced) he heng (by exact hslot) hres' 0 0 0 []).mem.trans hmem

/-- An addition with one rounding (R326). -/
theorem cpyrs_rounded (hx : (jobOf s .cpyrs f e).exact = false) :
    let j := jobOf s .cpyrs f e
    let w := fmtBits j.d.fmt / 8
    ∃ t, exec (.cpyrs f) s = .next t ∧
      t.memNat pa w = reduceCode j.d.fmt (u.memNat pa w) (j.valOf s { r := 0, c := 0, dst, src := some src }) ∧
      ∀ a, a < pa ∨ pa + w ≤ a → t.memByte a = u.memByte a := by
  intro j w
  have hfmt : j.d.fmt = .fp32 ∨ j.d.fmt = .bf16 := fmt_of_cpyrs (j := j) rfl hx hone.described
  have hlen : j.addBytes = w := by rw [Job.addBytes, hx]; rfl
  have hbytes : w = 4 ∨ w = 2 := by
    dsimp only [w]
    rcases hfmt with h | h
    · exact .inl (by rw [h]; rfl)
    · exact .inr (by rw [h]; rfl)
  obtain ⟨t, hexec, hmem⟩ := cpyrs_single (term := 0) hm he hs heng hr hone (show 1 ≤ j.addBytes by omega) (show j.addBytes ≤ 8 by omega)
    (by rw [Job.term, hx]; rfl)
  rw [show (jobOf s .cpyrs f e).addBytes = w from hlen] at hmem
  obtain ⟨hval, hother⟩ := memNat_memByte_put hmem
  refine ⟨t, hexec, hval.trans ?_, hother⟩
  rw [Job.added, hx]
  exact Nat.mod_eq_of_lt (reduceCode_lt hfmt _ _)

/-- An exact addition (R326). -/
theorem cpyrs_exact (hx : (jobOf s .cpyrs f e).exact = true) {term : Int}
    (hterm : exactTerm (BitVec.ofNat 16 f.imm.toNat).toInt ((jobOf s .cpyrs f e).valOf s { r := 0, c := 0, dst, src := some src }) = .ok term) :
    ∃ t, exec (.cpyrs f) s = .next t ∧ BitVec.ofNat 64 (t.memNat pa 8) = BitVec.ofNat 64 (u.memNat pa 8) + BitVec.ofInt 64 term ∧
      ∀ a, a < pa ∨ pa + 8 ≤ a → t.memByte a = u.memByte a := by
  have hlen : (jobOf s .cpyrs f e).addBytes = 8 := by rw [Job.addBytes, hx]; rfl
  rw [toInt_ofNat_eq] at hterm
  obtain ⟨t, hexec, hmem⟩ := cpyrs_single hm he hs heng hr hone (by omega) (by omega)
    (by rw [Job.term, hx]; exact hterm)
  rw [hlen] at hmem
  obtain ⟨hval, hother⟩ := memNat_memByte_put hmem
  refine ⟨t, hexec, ?_, hother⟩
  rw [hval, Job.added, hx]
  exact exactSum_eq ..

end

end Sys2Proof.Machine

/-!
O33: copies, multicast copies and the engine port aperture, assembled.
-/
namespace Sys2Proof.Machine

/-- Settles O33: a copy's codes or values land in the own scratchpad in their order, with the channel's range, watermark and checksum, and
its element is given; CPYRS adds at a home; CPYMC repeats its plan for each window and ends; the host's third word of a command pushes it or
is refused and counted. -/
theorem copies : Obligations.Copies := by
  unfold Obligations.Copies
  refine ⟨?_, ⟨windowPlan_windows, ?_⟩, ?_⟩
  · intro s e f n hm he _ hposted hs heng ch chan fifo gone elem pushes s0
    refine ⟨?_, ?_, ⟨cwmk_waits hm, cwmk_reports hm he heng⟩, ctpl_writes hm he heng⟩
    · intro i k hi j x rows hv hd hc hspace hdb hsb hdc hsc _ hr hrows cells _ _ hown read val puts ck bad halias
      have hread (c : Cell) : read c = j.codeOf s c := by
        obtain ⟨r, col, dst, src, zero⟩ := c
        cases src with
        | none => rfl
        | some rc => rfl
      have hval (c : Cell) : val c = j.valOf s c := by
        obtain ⟨r, col, dst, src, zero⟩ := c
        cases src with
        | none => rfl
        | some rc => rfl
      have hnew (c : Cell) : j.newCode s c = if j.value then (putCode j.d (rmOf j.t.rm e.rmode) (srHash e.srSeed (c.r * j.t.cols + c.c)) j.t.sat (val c)).1
          else read c % 2 ^ fmtBits j.d.fmt :=
        if_congr Iff.rfl (congrArg (fun v => (putCode j.d (rmOf j.t.rm e.rmode) (srHash e.srSeed (c.r * j.t.cols + c.c)) j.t.sat v).1) (hval c).symm)
          (congrArg (· % 2 ^ fmtBits j.d.fmt) (hread c).symm)
      have hputs : puts = j.putsOf s cells :=
        congrArg (· ++ _) (List.map_congr_left fun c _ => congrArg (Prod.mk (j.d.span c.dst)) (hnew c).symm)
      have hck (h : k = .cpyk) : j.ckOf s cells = ck :=
        (if_pos h).trans (congrArg (checksum _ _) (List.flatMap_congr fun c _ => congrArg (leBytes _) (hread c).symm))
      obtain ⟨t, hexec, hspm, hmem, hqueue, hchan, hfifo⟩ :=
        copy_own hm he hs heng hr hposted hi hv hd hc hspace hdb hsb hdc hsc hrows hown (by rw [← hputs]; exact halias)
      refine ⟨t, hexec, fun a _ => hputs ▸ hspm a, hmem, hqueue, congrArg Chan.active hchan, congrArg Chan.faulted hchan, ?_, ?_, ?_, ?_⟩
      · exact (congrArg Chan.wmark hchan).trans (congrArg Chan.e hchan).symm
      · exact Prod.ext (congrArg Chan.d hchan) (congrArg Chan.e hchan)
      · refine (congrArg Chan.ck hchan).trans ?_
        by_cases h : k = .cpyk
        · rw [if_pos h, if_pos h, ← hck h]
        · rw [if_neg h, if_neg h]
      · refine hfifo.trans (congrArg (List.map (·.v) (fifo s) ++ ·) ?_)
        refine congrArg (fun w => if f.res then [w] else []) ?_
        by_cases h : k = .cpyk
        · have hstatus : j.status ck = if bad then 1 else 0 := if_congr (and_iff_right h) rfl rfl
          rw [if_pos h, hck h, hstatus, h]
          rfl
        · have hzero : j.ckOf s cells = 0 := if_neg h
          have hstatus : j.status 0 = 0 := if_neg fun hboth => h hboth.1
          rw [if_neg h, hzero, hstatus]
          rfl
    · intro j src dst u pa hd hc hres hslot hsb hsc hcells hown hr hplace hplain v w
      exact ⟨fun hx hpos _ _ => cpyrs_rounded hm he hs heng hr ⟨hd, hc, hres, hslot, hsb, hsc, hcells, hown, hplace, hplain, hpos⟩ hx,
        fun hx hpos _ term hterm => cpyrs_exact hm he hs heng hr ⟨hd, hc, hres, hslot, hsb, hsc, hcells, hown, hplace, hplain, hpos⟩ hx hterm⟩
  · intro s e f n hserved hruns hphase hplan he hposted heng hslot hres hspace
    exact cpymc_ends hserved hruns hphase hplan he hposted heng hslot hres hspace
  · intro s f hf c port off staged w mop word refused
    refine ⟨aperturePush_elsewhere hf, fun hport hoff => ?_, fun hport hoff => ⟨fun h => ?_, aperturePush_bad hf hport hoff, fun h => ?_, ?_⟩⟩
    · refine ⟨_, aperturePush_stages hf hport hoff, ?_, fun k => ?_⟩
      · rw [coreAt_staged]
        rfl
      · rw [coreAt_staged]
        exact smGet_smSet ..
    · exact aperturePush_refused hf hport hoff (.inl (aperWord_refused (h.imp_right .inl)))
    · exact aperturePush_refused hf hport hoff (.inr h)
    · intro mk hlo hhi hmk hzero hfe hslot h18 hspace
      exact aperturePush_accepted hf hport hoff
        ((aperWord_command hlo hhi (not_portBad hzero hfe hslot h18)).trans (congrArg (Option.map _) hmk)) hspace

end Sys2Proof.Machine

/-!
Collectives (O34): the end of a command of the collective engine, what it writes for each operation, and CLGRP.
-/
namespace Sys2Proof.Machine

/-! ### A command of the collective engine ends (R335) -/

/-- `t` is `s` after entry `e` of strand `n` has left its queue in the collective engine with element `w`; its group waits no more. -/
structure CollEnded (s t : State) (e : Entry) (n gid : Nat) (w : Word) : Prop where
  mem : t.mem = s.mem
  fifo : (smGet [] (t.coreAt e.core).fifos 0x10).map (·.v) = (smGet [] (s.coreAt e.core).fifos 0x10).map (·.v) ++ [w]
  queue : smGet [] (t.strandAt n).queues 3 = (smGet [] (s.strandAt n).queues 3).filter (·.seq != e.seq)
  group : t.groupAt (dieOf e.core) gid = (s.groupAt (dieOf e.core) gid).map ({ · with busy := false })

theorem modGroup_frame (s : State) (d gid : Nat) (g : Group → Group) :
    s.modGroup d gid g = { s with dies := (s.modGroup d gid g).dies } := by
  unfold State.modGroup
  split <;> rfl

theorem groupAt_modGroup (s : State) (d gid : Nat) (g : Group → Group) : (s.modGroup d gid g).groupAt d gid = (s.groupAt d gid).map g := by
  unfold State.modGroup
  split
  · rename_i x hx
    rw [hx, State.groupAt, State.modDie, dieAt_setDie, if_pos rfl]
    exact (smFind_smPut ..).trans (if_pos rfl)
  · rename_i hx
    rw [hx]
    rfl

section
variable {s : State} {e : Entry} {n : Nat} (he : e.strand = some n) (heng : engineOf e.instr = some 3)
  (hspace : (smGet [] (s.coreAt e.core).fifos 0x10).length < 32)
include he heng hspace

theorem keFinish_ended (f : MFields) (status rank flagw : Nat) (cover : List (Nat × Nat)) :
    CollEnded s (s.keFinish e f status rank flagw cover) e n f.gid
      (keElem (keKind e.instr) status f.gid rank (if status = 0 then flagw else 0)) := by
  rw [State.keFinish, if_neg (by simpa [State.fifoFull, State.fifo, fifoDepth] using hspace)]
  dsimp only
  generalize keElem (keKind e.instr) status f.gid rank (if status = 0 then flagw else 0) = w
  have hgroup := groupAt_modGroup s (dieOf e.core) f.gid ({ · with busy := false })
  have hframe := modGroup_frame s (dieOf e.core) f.gid ({ · with busy := false })
  generalize s.modGroup (dieOf e.core) f.gid ({ · with busy := false }) = u at hgroup hframe
  obtain ⟨hmem, hdies, hcores, -⟩ := endEntry_frame (s := u.pushFifo e.core 0x10 w cover) he
  have hpush := pushFifo_frame u e.core 0x10 w cover
  refine ⟨?_, ?_, ?_, ?_⟩
  · exact hmem.trans ((congrArg State.mem hpush).trans ((congrArg State.mem hframe).trans rfl))
  · rw [hcores e.core]
    refine (congrArg (List.map _) (fifo_pushFifo ..)).trans (List.map_append.trans ?_)
    exact congrArg (fun c : SMap Core => (smGet [] (smGet {} c e.core : Core).fifos 0x10).map (·.v) ++ [w])
      ((congrArg State.cores hframe).trans rfl)
  · rw [(endEntry_strand he).1, queues_dropped heng, if_pos rfl, (pushFifo_woken u e.core 0x10 w cover).2 n]
    exact congrArg (fun m : SMap Strand => (smGet [] (smGet {} m n : Strand).queues 3).filter (·.seq != e.seq))
      ((congrArg State.strands hframe).trans rfl)
  · rw [← hgroup]
    exact congrArg (fun m : SMap Die => smFind (smGet {} m (dieOf e.core) : Die).groups f.gid)
      (hdies.trans ((congrArg State.dies hpush).trans rfl))

end

/-! ### A turn of a collective (R331) -/

/-- The collectives with one word's fields. -/
def collInstrs (f : MFields) : List Instr := [.clar f, .clrs f, .clag f, .clbc f, .clxr f]

theorem exec_collective {s : State} {e : Entry} {f : MFields} {i : Instr} (hi : i ∈ collInstrs f) (hs : s.engine = some e)
    (hr : e.runs = true) : exec i s = .next (s.collRun f e) := by
  have hturn (j : Instr) : s.keInstr j (fun s e => s.collRun f e) = .next (s.collRun f e) := by
    rw [State.keInstr, hs]
    dsimp only
    rw [hr]
    rfl
  simp only [collInstrs, List.mem_cons, List.not_mem_nil, or_false] at hi
  rcases hi with rfl | rfl | rfl | rfl | rfl
  · exact hturn (.clar f)
  · exact hturn (.clrs f)
  · exact hturn (.clag f)
  · exact hturn (.clbc f)
  · exact hturn (.clxr f)

theorem mCode_collective {f : MFields} {i : Instr} (hi : i ∈ collInstrs f) : ∃ op, mCode i = some (op, f) := by
  simp only [collInstrs, List.mem_cons, List.not_mem_nil, or_false] at hi
  rcases hi with rfl | rfl | rfl | rfl | rfl
  · exact ⟨_, rfl⟩
  · exact ⟨_, rfl⟩
  · exact ⟨_, rfl⟩
  · exact ⟨_, rfl⟩
  · exact ⟨_, rfl⟩

section
variable {s : State} {e : Entry} {f : MFields}

/-- A command of a group that is not defined (R336). -/
theorem collRun_undefined (hphase : e.phase = 0) (hparts : e.parts = []) (hg : s.groupAt (dieOf e.core) f.gid = none) :
    s.collRun f e = s.keFinish e f 4 0 0 [] := by
  rw [State.collRun, hphase, if_neg (by decide), hparts]
  dsimp only
  rw [hg]

/-- A command whose writes are made and acknowledged (R335). -/
theorem collRun_ends {g : Group} (hphase : e.phase = 4) (hplan : e.plan = []) (hparts : e.parts = []) (hposted : s.posted = [])
    (hg : s.groupAt (dieOf e.core) f.gid = some g) :
    ∃ cover, s.collRun f e = s.keFinish e f 0 g.rank ((e.keep[2]?).getD 0) cover := by
  have hall : s.writeAll e [] = (s, [], none) := by
    rw [State.writeAll]
    exact if_pos (by simp)
  have hsame : { e with plan := [] } = e := by rw [← hplan]
  refine ⟨coverOf e.core (e.view 2) (Coll.dst { e, f, g }) (decide (Coll.kind { e, f, g } ≤ 1)), ?_⟩
  rw [State.collRun, hphase, if_neg (by decide), hparts]
  dsimp only
  rw [hg]
  dsimp only
  rw [hplan, hall]
  dsimp only
  rw [hposted, ← hsame]
  rfl

/-- A command that waits for packets and finds every member's (R331). -/
theorem collRun_meets {g : Group} {ps : List Packet} {seq r0 op : Nat} (hphase : e.phase = 2) (hkeep : e.keep = [seq, r0])
    (hparts : e.parts = []) (hg : s.groupAt (dieOf e.core) f.gid = some g) (hcode : mCode e.instr = some (op, f))
    (hps : s.packets { e, f, g } seq = ps.map some) : s.collRun f e = s.collMeet { e, f, g } seq := by
  have hready : s.keReady e = true := by
    rw [State.keReady, hphase, keGroup, hcode]
    dsimp only
    split
    · rename_i gid _ hgid
      split at hgid
      · obtain rfl := Option.some.inj hgid
        rw [hg]
        dsimp only
        rw [hkeep, List.getElem?_cons_zero, Option.getD_some, hps]
        simp
      · cases hgid
    · rfl
  rw [State.collRun, hphase, if_neg (by decide), hparts]
  dsimp only
  rw [hg]
  dsimp only
  rw [hready, if_pos rfl, hkeep, List.getElem?_cons_zero, Option.getD_some]
  rfl

end

/-! ### What a collective writes (R332, R333, R338) -/

/-- Codes written one after another from the first element of the destination on. -/
def Coll.raws (c : Coll) (l : List Int) : List Put :=
  l.zipIdx.map fun x => ((c.e.view 2).span ((c.e.view 2).flat (c.od + x.2)), x.1.toNat % 2 ^ fmtBits (c.e.view 2).fmt)

/-- The reductions of the members' values from number `off` on. -/
def Coll.sums (c : Coll) (ps : List Packet) (off : Nat) : List Put :=
  (List.range c.n).map fun k => ((c.e.view 2).span ((c.e.view 2).flat (c.od + k)),
    (putCode (c.e.view 2) (rmOf c.f.krm c.e.rmode) (srHash c.e.srSeed k) c.f.ksat
      (reduceRanks c.f.kop (ps.map fun p => (p.vals[off + k]?).getD valZero))).1)

/-- put into a real destination without block scales. -/
theorem putAll_real {s : State} {e : Entry} {v : View} (hblk : v.blk = 0) (hv : fmtComplex v.fmt = false) (rm : Nat) (sat : Bool)
    (l : List PutVal) : ∃ fs, s.putAll e v rm sat l =
      (s, l.map fun p => (v.span (v.flat p.j), (putCode v rm (srHash e.srSeed p.ix) sat (p.vals.headD valZero)).1), fs) := by
  obtain ⟨hs, hputs⟩ := putPlain_real (s := s) (e := e) hv rm sat l
  exact ⟨_, (if_pos hblk).trans (Prod.ext hs (Prod.ext hputs rfl))⟩

section
variable {c : Coll} {ps : List Packet} (s : State)

theorem collPuts_sums (hk : c.kind ≤ 1) (hblk : (c.e.view 2).blk = 0) (hv : fmtComplex (c.e.view 2).fmt = false) :
    s.collPuts c ps = (s, c.sums ps (if c.kind = 1 then c.g.rank * c.n else 0)) := by
  obtain ⟨fs, hput⟩ := putAll_real (s := s) (e := c.e) hblk hv (rmOf c.f.krm c.e.rmode) c.f.ksat ((List.range c.n).map fun i =>
    { j := c.od + i, vals := [reduceRanks c.f.kop (ps.map fun p => (p.vals[(if c.kind = 1 then c.g.rank * c.n else 0) + i]?).getD valZero)]
      ix := i, lane := 0 })
  rw [State.collPuts, if_pos hk]
  dsimp only
  rw [hput, List.map_map]
  rfl

theorem collPuts_gather (hk : c.kind = 2) : s.collPuts c ps = (s, c.raws (ps.flatMap (·.codes))) := by
  rw [State.collPuts, if_neg (by omega), if_pos hk]
  rfl

theorem collPuts_broadcast (hk : c.kind = 3) : s.collPuts c ps = (s, c.raws ((ps[c.f.root]?).getD {}).codes) := by
  rw [State.collPuts, if_neg (by omega), if_neg (by omega), if_pos hk]
  rfl

theorem toInt_ofInt_eq (k : Int) : (BitVec.ofInt 64 k).toInt = intOfCode 64 (intCode 64 k) := by
  rw [BitVec.toInt_eq_toNat_cond, BitVec.toNat_ofInt, intOfCode, intCode]
  split <;> split <;> omega

/-- What CLXR writes (R338). -/
def Coll.exacts (c : Coll) (ps : List Packet) : List Put :=
  if c.f.kint then c.raws ((List.range c.n).map fun k =>
    exactRound (BitVec.ofInt 64 (ps.map fun p => (p.codes[k]?).getD 0).sum).toInt (BitVec.ofNat 16 c.f.imm.toNat).toInt)
  else c.raws ((exactResults c.n (ps.map fun p => p.vals)).map Int.ofNat)

theorem collPuts_exact (hk : c.kind = 4) : s.collPuts c ps = (s, c.exacts ps) := by
  have hint : c.int = c.f.kint := by simp [Coll.int, hk]
  rw [State.collPuts, if_neg (by omega), if_neg (by omega), if_neg (by omega), hint, Coll.exacts]
  split
  · refine congrArg (fun l => (s, c.raws l)) (List.map_congr_left fun k _ => ?_)
    rw [toInt_ofInt_eq, toInt_ofNat_eq, List.sum_eq_foldl]
    rfl
  · rfl

end

/-- The writes of a collective without a codec, by its instruction. -/
def Coll.made (c : Coll) (ps : List Packet) (i : Instr) : List Put :=
  match i with
  | .clar _ => c.sums ps 0
  | .clrs _ => c.sums ps (c.g.rank * c.n)
  | .clag _ => c.raws (ps.flatMap (·.codes))
  | .clbc _ => c.raws ((ps[c.f.root]?).getD {}).codes
  | _ => c.exacts ps

theorem collPuts_of_instr {s : State} {c : Coll} {ps : List Packet} {i : Instr} (hi : i ∈ collInstrs c.f) (he : c.e.instr = i)
    (hv : i = .clar c.f ∨ i = .clrs c.f → (c.e.view 2).blk = 0 ∧ fmtComplex (c.e.view 2).fmt = false) :
    s.collPuts c ps = (s, c.made ps i) := by
  have hkind : c.kind = keKind i := congrArg keKind he
  simp only [collInstrs, List.mem_cons, List.not_mem_nil, or_false] at hi
  rcases hi with rfl | rfl | rfl | rfl | rfl
  · have hk : c.kind = 0 := hkind
    obtain ⟨hblk, hreal⟩ := hv (.inl rfl)
    rw [collPuts_sums s (by omega) hblk hreal, if_neg (by omega), Coll.made]
  · have hk : c.kind = 1 := hkind
    obtain ⟨hblk, hreal⟩ := hv (.inr rfl)
    rw [collPuts_sums s (by omega) hblk hreal, if_pos hk, Coll.made]
  · exact collPuts_gather s hkind
  · exact collPuts_broadcast s hkind
  · exact collPuts_exact s hkind

/-! ### Every packet is there (R331) -/

/-- The packets of a command are taken. -/
def State.unpacked (s : State) (c : Coll) (seq : Nat) : State :=
  s.modDie (dieOf c.e.core) fun x => { x with collIn := x.collIn.filter fun p => !(p.gid == c.f.gid && p.seq == seq) }

/-- A command with the writes of its result before it. -/
def Coll.result (c : Coll) (ps : List Packet) (seq : Nat) (puts : List Put) : Entry :=
  { c.e with phase := 4, plan := writePlan puts, keep := [seq, c.g.rank, ps.foldl (fun a p => a ||| p.flag) 0] }

theorem collMeet_of_ok {s : State} {c : Coll} {ps : List Packet} {seq : Nat} {puts : List Put} (hps : s.packets c seq = ps.map some)
    (hstatus : c.status ps = 0) (hputs : (s.unpacked c seq).collPuts c ps = (s.unpacked c seq, puts))
    (halias : c.reads = true → c.inPlace = false → (s.unpacked c seq).hiddenAlias c.e (puts.map (·.1)) c.srcExt.spans = false) :
    s.collMeet c seq = (s.unpacked c seq).putEntry (c.result ps seq puts) := by
  have hall : (s.packets c seq).filterMap id = ps := by
    rw [hps, List.filterMap_map]
    exact List.filterMap_some
  have hsafe : ¬ (c.reads && !c.inPlace && (s.unpacked c seq).hiddenAlias c.e (puts.map (·.1)) c.srcExt.spans) = true := by
    intro h
    simp only [Bool.and_eq_true, Bool.not_eq_true'] at h
    obtain ⟨⟨hreads, hplace⟩, hmeet⟩ := h
    rw [halias hreads hplace] at hmeet
    cases hmeet
  rw [State.collMeet]
  dsimp only
  rw [hall, ← State.unpacked, hstatus, if_neg (by decide), hputs]
  dsimp only
  rw [if_neg hsafe]
  rfl

theorem mem_collIn_unpacked (s : State) (c : Coll) (seq : Nat) (q : Packet) :
    q ∈ ((s.unpacked c seq).dieAt (dieOf c.e.core)).collIn ↔ q ∈ (s.dieAt (dieOf c.e.core)).collIn ∧ ¬ (q.gid = c.f.gid ∧ q.seq = seq) := by
  rw [State.unpacked, State.modDie, dieAt_setDie, if_pos rfl]
  simp [List.mem_filter, not_and_or, -not_and]

theorem find_modEntries (e : Entry) (l : List Entry) :
    (modEntries e.seq (fun _ => e) l).find? (·.seq == e.seq) = (l.find? (·.seq == e.seq)).map fun _ => e := by
  induction l with
  | nil => rfl
  | cons x r ih =>
    rw [modEntries, List.map_cons, List.find?_cons, List.find?_cons]
    by_cases h : x.seq = e.seq
    · simp [h]
    · rw [if_neg h, show (x.seq == e.seq) = false by simp [h]]
      exact ih

theorem putEntry_frame (s : State) {e : Entry} {n : Nat} (he : e.strand = some n) : (s.putEntry e).mem = s.mem ∧ (s.putEntry e).dies = s.dies := by
  rw [putEntry_eq he]
  exact ⟨rfl, rfl⟩

/-- The entry that its queue holds as it is now. -/
theorem entryAt_putEntry {s : State} {e e' y : Entry} {n q : Nat} (he : e.strand = some n) (hq : engineOf e.instr = some q)
    (hi : e'.instr = e.instr) (hstrand : e'.strand = e.strand) (hseq : e'.seq = e.seq) (hy : s.entryAt e = some y) :
    (s.putEntry e').entryAt e = some e' := by
  have hreplaced := smGet_map [] (fun i (l : List Entry) => if some i = engineOf e'.instr then modEntries e'.seq (fun _ => e') l else l)
    (s.strandAt n).queues q (by simp [modEntries])
  rw [State.entryAt, he] at hy ⊢
  dsimp only at hy ⊢
  rw [hq, Option.getD_some] at hy ⊢
  rw [putEntry_eq (hstrand.trans he), State.modStrand, strandAt_setStrand, if_pos rfl, Strand.replaced, hreplaced, hi, if_pos hq.symm, ← hseq,
    find_modEntries, hseq, hy]
  rfl

/-! ### The member list of a group (R336) -/

theorem length_eraseDups_le (l : List Nat) : l.eraseDups.length ≤ l.length := by
  induction h : l.length using Nat.strong_induction_on generalizing l with
  | _ k ih =>
    cases l with
    | nil => simp
    | cons a r =>
      have hr := List.length_filter_le (fun b => !b == a) r
      rw [List.length_cons] at h
      rw [List.eraseDups_cons, List.length_cons]
      have := ih _ (by omega) (r.filter fun b => !b == a) rfl
      omega

theorem length_eraseDups_eq_iff (l : List Nat) : l.eraseDups.length = l.length ↔ l.Nodup := by
  induction l with
  | nil => simp
  | cons a r ih =>
    have hle := length_eraseDups_le (r.filter fun b => !b == a)
    have hr := List.length_filter_le (fun b => !b == a) r
    have hfilter : a ∉ r ↔ r.filter (fun b => !b == a) = r := by
      rw [List.filter_eq_self]
      exact ⟨fun h b hb => by simpa using fun hba : b = a => h (hba ▸ hb), fun h ha => by simpa using h a ha⟩
    rw [List.eraseDups_cons, List.length_cons, List.length_cons, List.nodup_cons, ← ih]
    constructor
    · intro h
      have hsame : r.filter (fun b => !b == a) = r := List.filter_sublist.eq_of_length (by omega)
      rw [hsame] at h
      exact ⟨hfilter.2 hsame, by omega⟩
    · rintro ⟨ha, h⟩
      rw [hfilter.1 ha, h]

/-- A list that defines a group of die `me` (R336). -/
def listDefines (me : Nat) (l : List Nat) : Prop := l ≠ [] ∧ (∀ x ∈ l, x < 4608) ∧ l.Nodup ∧ me ∈ l

theorem listStatus_eq {me : Nat} {l : List Nat} (hlen : l.length ≤ 4608) (exact : Bool) :
    (¬ listDefines me l → listStatus me exact l = 6) ∧
    (listDefines me l → listStatus me exact l = if exact && decide (1024 < l.length) then 7 else 0) := by
  have hcount : (l.filter (· == me)).length = l.count me := List.countP_eq_length_filter.symm
  have hbad : (l.isEmpty || decide (4608 < l.length) || l.any (fun x => decide (8192 ≤ x) || decide (576 ≤ x / 8)) ||
      l.eraseDups.length != l.length || (l.filter (· == me)).length != 1) = true ↔ ¬ listDefines me l := by
    simp only [Bool.or_eq_true, List.isEmpty_iff, decide_eq_true_eq, List.any_eq_true, bne_iff_ne, ne_eq, length_eraseDups_eq_iff, hcount,
      listDefines]
    constructor
    · rintro ((((h | h) | ⟨x, hx, h⟩) | h) | h) ⟨hne, hlt, hnodup, hme⟩
      · exact hne h
      · omega
      · have := hlt x hx
        omega
      · exact h hnodup
      · exact h (List.count_eq_one_of_mem hnodup hme)
    · intro h
      by_contra hno
      simp only [not_or, not_exists, not_and, not_not] at hno
      obtain ⟨⟨⟨⟨hne, -⟩, hlt⟩, hnodup⟩, hone⟩ := hno
      refine h ⟨hne, fun x hx => ?_, hnodup, List.count_pos_iff.1 (by omega)⟩
      have := hlt x hx
      omega
  constructor
  · intro h
    exact if_pos (hbad.2 h)
  · intro h
    exact if_neg fun hb => hbad.1 hb h

/-! ### CLGRP (R336) -/

section
variable {s : State} {e : Entry} {f : MFields}

theorem exec_clgrp_runs (hs : s.engine = some e) (hr : e.runs = true) : exec (.clgrp f) s = .next (s.grpRun f e) := by
  rw [exec_clgrp, execClgrp, State.keInstr, hs]
  dsimp only
  rw [hr]
  rfl

/-- The elements of a group's member list. -/
def memberElems (e : Entry) (f : MFields) : List (Nat × Nat) :=
  (ixFrom ((smGet 0 e.o 1).toNat % 2 ^ 32) f.n.toNat).map (e.view 1).flat

/-- CLGRP without a command's undefining bit and of a length that R336 allows. -/
theorem grpRun_defines {l : List Nat} (hphase : e.phase = 0) (hdef : f.mode.getLsbD 14 = false) (hpos : f.n ≠ 0) (hlen : f.n.toNat ≤ 4608)
    (hdesc : s.meTdesc e (e.desc 1) (decide ((e.view 1).kind ≤ 1)) (memberElems e f) false = none)
    (hread : (memberElems e f).foldl (fun (x : Rd × List Nat) rc =>
      ((Rd.code x.1 e (e.view 1) rc 2).1, (Rd.code x.1 e (e.view 1) rc 2).2 :: x.2)) ({ s }, []) = ({ s }, l.reverse)) :
    s.grpRun f e = s.defineGroup e f l := by
  have hcount : ¬ (decide (f.n = 0) || decide (4608 < f.n.toNat)) = true := by
    rw [Bool.or_eq_true, decide_eq_true_eq, decide_eq_true_eq]
    exact not_or.2 ⟨hpos, by omega⟩
  unfold State.grpRun
  split
  · rename_i h _
    rw [hphase] at h
    cases h
  · rw [if_neg (by rw [hdef]; decide), if_neg hcount]
    dsimp only
    rw [← memberElems, hdesc, show firstDesc [(f.t1.toNat, none)] = none from rfl, hread]
    exact congrArg (s.defineGroup e f) l.reverse_reverse

theorem grpRun_undefines (hphase : e.phase = 0) (hdef : f.mode.getLsbD 14 = true) :
    s.grpRun f e = (s.undefGroup (dieOf e.core) f.gid).keFinish e f 0 0 0 [] := by
  unfold State.grpRun
  split
  · rename_i h _
    rw [hphase] at h
    cases h
  · exact if_pos hdef

theorem grpRun_of_length (hphase : e.phase = 0) (hdef : f.mode.getLsbD 14 = false) (hlen : f.n = 0 ∨ 4608 < f.n.toNat) :
    s.grpRun f e = s.keFinish e f 6 0 0 [] := by
  unfold State.grpRun
  split
  · rename_i h _
    rw [hphase] at h
    cases h
  · rw [if_neg (by rw [hdef]; decide)]
    exact if_pos (by rw [Bool.or_eq_true, decide_eq_true_eq, decide_eq_true_eq]; exact hlen)

theorem length_foldl_code (e : Entry) (v : View) (l : List (Nat × Nat)) (x : Rd × List Nat) :
    (l.foldl (fun (x : Rd × List Nat) rc => ((Rd.code x.1 e v rc 2).1, (Rd.code x.1 e v rc 2).2 :: x.2)) x).2.length = x.2.length + l.length := by
  induction l generalizing x with
  | nil => rfl
  | cons rc r ih =>
    rw [List.foldl_cons, ih, List.length_cons, List.length_cons]
    omega

theorem groupAt_undefGroup (s : State) (d gid : Nat) : (s.undefGroup d gid).groupAt d gid = none := by
  rw [State.undefGroup, State.groupAt, State.modDie, dieAt_setDie, if_pos rfl]
  exact (smFind_smDel ..).trans (if_pos rfl)

/-- The group that a list defines for its member `me` (R336). -/
def groupOf (me : Nat) (exact : Bool) (l : List Nat) : Group :=
  { list := l.map fun x => (x / 8, x % 8), rank := l.idxOf me, exact, hash := (~~~(crc32c 0xFFFFFFFF (l.flatMap (leBytes 2)))).toNat }

theorem defineGroup_refused {l : List Nat} {st : Nat} (h : listStatus (s.node * 8 + dieOf e.core) (f.mode.getLsbD 13) l = st) (hst : st ≠ 0) :
    s.defineGroup e f l = s.keFinish e f st 0 0 [] := by
  rw [State.defineGroup]
  dsimp only
  rw [h]
  exact if_pos hst

/-- A list that defines its group: the group stands in the die's table, and nothing else but the die has changed. -/
theorem defineGroup_accepted {l : List Nat} (h : listStatus (s.node * 8 + dieOf e.core) (f.mode.getLsbD 13) l = 0)
    (hme : s.node * 8 + dieOf e.core ∈ l) : ∃ dies, s.defineGroup e f l =
      ({ s with dies } : State).keFinish e f 0 (l.idxOf (s.node * 8 + dieOf e.core)) 0 [] ∧
    ({ s with dies } : State).groupAt (dieOf e.core) f.gid = some (groupOf (s.node * 8 + dieOf e.core) (f.mode.getLsbD 13) l) := by
  have hrank : (l.findIdx? (· == s.node * 8 + dieOf e.core)).getD 0 = l.idxOf (s.node * 8 + dieOf e.core) := by
    rw [List.findIdx?_eq_some_of_exists (p := (· == s.node * 8 + dieOf e.core)) ⟨_, hme, beq_self_eq_true _⟩]
    rfl
  let u := if (s.groupAt (dieOf e.core) f.gid).isSome then s.undefGroup (dieOf e.core) f.gid else s
  have hu : u = { s with dies := u.dies } := by
    dsimp only [u]
    split <;> rfl
  let g := groupOf (s.node * 8 + dieOf e.core) (f.mode.getLsbD 13) l
  let w := u.modDie (dieOf e.core) fun d => { d with groups := smPut d.groups f.gid g }
  have hw : w = { s with dies := w.dies } := (congrArg (fun t : State => { t with dies := w.dies }) hu)
  refine ⟨w.dies, ?_, ?_⟩
  · rw [← hw, State.defineGroup]
    dsimp only
    rw [h, if_neg (by decide), hrank]
    rfl
  · have hdie : w.dieAt (dieOf e.core) = _ := (dieAt_setDie ..).trans (if_pos rfl)
    rw [← hw, State.groupAt, hdie]
    exact (smFind_smPut ..).trans (if_pos rfl)

end

/-! ### The obligation -/

/-- Settles O34: a command without its group, with every packet, and with its writes made; the result of each operation; and CLGRP by the
list that it reads. -/
theorem collectives : Obligations.Collectives := by
  unfold Obligations.Collectives
  intro s e f n hs hr he hparts heng d fifo elem ends five hspace _
  have hends {i : Instr} {dies : SMap Die} {st rank flagw : Nat} {cover : List (Nat × Nat)} (hi : e.instr = i)
      (hexec : exec i s = .next (({ s with dies } : State).keFinish e f st rank flagw cover)) :
      ends i (elem i st rank (if st = 0 then flagw else 0)) := by
    obtain ⟨hmem, hfifo, hqueue, -⟩ := keFinish_ended (s := { s with dies }) he heng hspace f st rank flagw cover
    exact ⟨_, hexec, hi ▸ hfifo, hmem, hqueue⟩
  refine ⟨fun i hi hinstr hg hphase => ?_, fun i hi hinstr g hg hphase hplan hposted => ?_, ?_, ?_, fun op x r => rfl⟩
  · exact hends (dies := s.dies) hinstr ((exec_collective hi hs hr).trans (congrArg _ (collRun_undefined hphase hparts hg)))
  · obtain ⟨cover, hrun⟩ := collRun_ends (f := f) hphase hplan hparts hposted hg
    exact hends (dies := s.dies) hinstr ((exec_collective hi hs hr).trans (congrArg _ hrun))
  · intro i hi hinstr g ps seq r0 hg hphase hkeep c v hps hreal hstatus w raw sum puts halias
    obtain ⟨op, hcode⟩ := mCode_collective hi
    have hputs : (s.unpacked c seq).collPuts c ps = (s.unpacked c seq, puts) := by
      rw [collPuts_of_instr (c := c) hi hinstr hreal]
      rfl
    refine ⟨_, (exec_collective hi hs hr).trans (congrArg _ ((collRun_meets hphase hkeep hparts hg (hinstr ▸ hcode) hps).trans
      (collMeet_of_ok hps hstatus hputs fun h1 h2 => halias h1 h2 s.fresh))), ?_, fun q => ?_, fun y hy => ?_⟩
    · exact (putEntry_frame (s.unpacked c seq) (e := c.result ps seq puts) he).1
    · rw [← mem_collIn_unpacked s c seq q, State.dieAt, (putEntry_frame (s.unpacked c seq) (e := c.result ps seq puts) he).2]
      rfl
    · exact entryAt_putEntry (s := s.unpacked c seq) he heng rfl rfl rfl hy
  · intro hinstr hphase
    have hexec := exec_clgrp_runs (f := f) hs hr
    refine ⟨fun hundef => ?_, fun hdef hlen => ?_, ?_⟩
    · have hrun := hexec.trans (congrArg _ (grpRun_undefines hphase hundef))
      have hended := keFinish_ended (s := s.undefGroup d f.gid) he heng hspace f 0 0 0 []
      refine ⟨hends hinstr hrun, _, hrun, hended.group.trans ?_⟩
      rw [groupAt_undefGroup]
      rfl
    · exact hends (dies := s.dies) hinstr (hexec.trans (congrArg _ (grpRun_of_length hphase hdef hlen)))
    · intro l v rcs hdef hpos hlen hdesc hread me ok
      have hrun := hexec.trans (congrArg _ (grpRun_defines hphase hdef hpos hlen hdesc hread))
      have hlength : l.length ≤ 4608 := by
        have h := length_foldl_code e v rcs ({ s }, [])
        rw [hread] at h
        simp [rcs, ixFrom] at h
        omega
      obtain ⟨hbad, hgood⟩ := listStatus_eq (me := me) hlength (f.mode.getLsbD 13)
      refine ⟨fun hno => ?_, fun hok hexact hbig => ?_, fun hok hsmall => ?_⟩
      · exact hends (dies := s.dies) hinstr (hrun.trans (congrArg _ (defineGroup_refused (hbad hno) (by decide))))
      · have hst : listStatus me (f.mode.getLsbD 13) l = 7 := (hgood hok).trans (if_pos (by simp [hexact, hbig]))
        exact hends (dies := s.dies) hinstr (hrun.trans (congrArg _ (defineGroup_refused hst (by decide))))
      · have hst : listStatus me (f.mode.getLsbD 13) l = 0 :=
          (hgood hok).trans (if_neg (by simpa using hsmall))
        obtain ⟨dies, hdefine, hgroup⟩ := defineGroup_accepted (s := s) (e := e) (f := f) hst hok.2.2.2
        have hended := keFinish_ended (s := { s with dies }) he heng hspace f 0 (l.idxOf me) 0 []
        refine ⟨hends hinstr (hrun.trans (congrArg _ hdefine)), _, { groupOf me (f.mode.getLsbD 13) l with busy := false },
          hrun.trans (congrArg _ hdefine), ?_, rfl, rfl, rfl, rfl⟩
        exact hended.group.trans (congrArg _ hgroup)

end Sys2Proof.Machine

/-!
MSTEP with the signature stage (O32): the pace of a turn is set as the turn begins, and the reads and writes of an entry leave it.
-/
namespace Sys2Proof.Machine

/-! ### Folds that leave the pace -/

theorem pace_foldl {α : Type} {f : State → α → State} (h : ∀ s x, (f s x).pace = s.pace) (l : List α) (s : State) :
    (l.foldl f s).pace = s.pace := by
  induction l generalizing s with
  | nil => rfl
  | cons x r ih => exact (ih (f s x)).trans (h s x)

theorem pace_foldl_pair {α β : Type} {f : State × β → α → State × β} (h : ∀ p x, (f p x).1.pace = p.1.pace) (l : List α) (p : State × β) :
    (l.foldl f p).1.pace = p.1.pace := by
  induction l generalizing p with
  | nil => rfl
  | cons x r ih => exact (ih (f p x)).trans (h p x)

theorem rdPace_foldl {α β : Type} {f : Rd × β → α → Rd × β} (h : ∀ p x, (f p x).1.s.pace = p.1.s.pace) (l : List α) (p : Rd × β) :
    (l.foldl f p).1.s.pace = p.1.s.pace := by
  induction l generalizing p with
  | nil => rfl
  | cons x r ih => exact (ih (f p x)).trans (h p x)

/-! ### Memory and records -/

theorem pace_modStrand (s : State) (n : Nat) (f : Strand → Strand) : (s.modStrand n f).pace = s.pace := rfl
theorem pace_modCore (s : State) (n : Nat) (f : Core → Core) : (s.modCore n f).pace = s.pace := rfl
theorem pace_putMemNat (s : State) (a n v : Nat) : (s.putMemNat a n v).pace = s.pace := rfl
theorem pace_putSpm (s : State) (c off : Nat) (bs : List Byte) : (s.putSpm c off bs).pace = s.pace := rfl

theorem pace_modTask (s : State) (n : Nat) (f : Task → Task) : (s.modTask n f).pace = s.pace := by
  unfold State.modTask
  split <;> rfl

theorem pace_vector (s : State) (fn vec : Nat) : (s.vector fn vec).pace = s.pace := by
  unfold State.vector
  split
  · rfl
  · split <;> rfl

theorem pace_rasVector (s : State) (tenant : Nat) : (s.rasVector tenant).pace = s.pace :=
  (pace_foldl (fun s _ => pace_vector s _ _) _ _).trans (pace_vector ..)

theorem pace_rasWrite (s : State) (d : Nat) (r : RasRec) : (s.rasWrite d r).pace = s.pace := by
  simp only [State.rasWrite]
  split
  · rfl
  · split
    · exact (pace_rasVector ..).trans rfl
    · rfl

theorem pace_corrected (s : State) (d unit addr syn tenant task : Nat) : (s.corrected d unit addr syn tenant task).pace = s.pace := by
  simp only [State.corrected]
  split
  · exact (pace_rasWrite ..).trans rfl
  · rfl

theorem pace_injFate (s : State) (w : Nat) : (s.injFate w).1.pace = s.pace := by
  simp only [State.injFate]
  grind [State.choose]

theorem pace_scanL2 (s : State) (tenant task a n : Nat) : (s.scanL2 tenant task a n).1.pace = s.pace := by
  unfold State.scanL2
  split
  · rfl
  · refine pace_foldl_pair (fun p i => ?_) _ _
    grind [State.choose, pace_injFate, pace_putMemNat, pace_corrected]

theorem pace_scanDram (s : State) (tenant task a n : Nat) : (s.scanDram tenant task a n).1.pace = s.pace := by
  unfold State.scanDram
  split
  · rfl
  · split
    · rfl
    · split
      · rfl
      · refine pace_foldl_pair (fun p i => ?_) _ _
        grind [pace_putMemNat, pace_corrected, pace_rasWrite]

theorem pace_scanMem (s : State) (tenant task a n : Nat) : (s.scanMem tenant task a n).1.pace = s.pace := by
  grind [State.scanMem, pace_scanL2, pace_scanDram]

theorem pace_scanSpm (s : State) (core tenant task off n : Nat) : (s.scanSpm core tenant task off n).1.pace = s.pace := by
  unfold State.scanSpm
  split
  · rfl
  · refine pace_foldl_pair (fun p i => ?_) _ _
    grind [pace_putSpm, pace_modCore, pace_corrected]

theorem pace_fixBefore (s : State) (a n : Nat) : (s.fixBefore a n).pace = s.pace :=
  pace_foldl (fun t x => by grind [pace_putMemNat]) _ _

theorem pace_performMem (s : State) (tenant task a : Nat) (bs : List Byte) (core strand : Option Nat) :
    (s.performMem tenant task a bs core strand).pace = s.pace := by
  unfold State.performMem
  dsimp only
  split
  · split
    · rfl
    · exact pace_rasWrite ..
  · exact pace_fixBefore ..

theorem pace_hostErr (s : State) (fn : Nat) (f : HostFn → HostFn) : (s.hostErr fn f).pace = s.pace := by
  simp only [State.hostErr]
  split
  · exact (pace_vector ..).trans rfl
  · rfl

theorem pace_hostPost (s : State) (tenant pa : Nat) (bs mask : List Byte) : (s.hostPost tenant pa bs mask).pace = s.pace := by
  simp only [State.hostPost]
  split
  · rfl
  · exact pace_hostErr ..

theorem pace_performStore (s : State) (x : Store) : (s.performStore x).pace = s.pace := by
  unfold State.performStore
  split
  · exact pace_hostPost ..
  · exact pace_performMem ..

theorem pace_performWhere (s : State) (p : Store → Bool) : (s.performWhere p).pace = s.pace := by
  unfold State.performWhere
  split
  · rfl
  · refine pace_foldl (fun t x => ?_) _ _
    split
    · exact pace_performStore ..
    · rfl

/-! ### Translation -/

theorem pace_contigWalk (s : State) (tbl va : Nat) : (s.contigWalk tbl va).1.pace = s.pace := by
  grind [State.contigWalk, State.choose]

theorem pace_translate (s : State) (core va : Nat) : (s.translate core va).1.pace = s.pace := by
  grind [State.translate, pace_contigWalk, State.choose]

theorem pace_pagePlace (s : State) (core : Nat) (sup : Bool) (need : Need) (va : Nat) : (s.pagePlace core sup need va).1.pace = s.pace := by
  grind [State.pagePlace, pace_translate]

theorem pace_globalPlace (s : State) (core : Nat) (sup : Bool) (need : Need) (kind va : Nat) :
    (s.globalPlace core sup need kind va).1.pace = s.pace := by
  grind [State.globalPlace, pace_pagePlace]

theorem pace_place (s : State) (core : Nat) (sup : Bool) (need : Need) (kind : Nat) (va : Word) :
    (s.place core sup need kind va).1.pace = s.pace := by
  grind [State.place, pace_globalPlace]

/-! ### The L1 -/

theorem pace_l1Room (s : State) (core line : Nat) : (s.l1Room core line).pace = s.pace := by
  grind [State.l1Room, State.choose, pace_modCore]

theorem pace_fillLine (s : State) (core line : Nat) : (s.fillLine core line).pace = s.pace :=
  (pace_modCore ..).trans (pace_l1Room ..)

theorem pace_updateL1 (s : State) (core pa : Nat) (bs : List (Byte × Byte)) : (s.updateL1 core pa bs).pace = s.pace := by
  simp only [State.updateL1]
  split <;> rfl

theorem pace_dropL1 (s : State) (core pa n : Nat) : (s.dropL1 core pa n).pace = s.pace := by
  simp only [State.dropL1]
  split <;> rfl

theorem pace_loadMem (s : State) (core pa n hint : Nat) : (s.loadMem core pa n hint).1.pace = s.pace := by
  grind [State.loadMem, State.choose, pace_performWhere, pace_fillLine, pace_dropL1, pace_modCore]

theorem pace_scanL1 (s : State) (core task pa n : Nat) : (s.scanL1 core task pa n).1.pace = s.pace := by
  unfold State.scanL1
  split
  · rfl
  · refine pace_foldl_pair (fun p i => ?_) _ _
    grind [pace_injFate, pace_modCore, pace_corrected, pace_dropL1]

/-! ### Requests and posted writes -/

theorem pace_requestRead (s : State) (die : Nat) (owner : ReqOwner) (addr tenant len : Nat) (va : Word) :
    (s.requestRead die owner addr tenant len va).1.pace = s.pace := rfl

theorem pace_requestHost (s : State) (die : Nat) (owner : ReqOwner) (addr tenant len : Nat) (va : Word) :
    (s.requestHost die owner addr tenant len va).1.pace = s.pace := rfl

theorem pace_snoopLine (s : State) (line : Nat) : (s.snoopLine line).pace = s.pace := by
  unfold State.snoopLine
  split <;> rfl

theorem pace_postFor (s : State) (n : Nat) (q : Posted) : (s.postFor n q).pace = s.pace := by
  simp only [State.postFor]
  split <;> split <;> split <;> rfl

/-! ### Bound copies -/

theorem pace_putFill (s : State) (core : Nat) (a : Attachment) (line : Nat) (bs : List Byte) : (s.putFill core a line bs).1.pace = s.pace :=
  pace_foldl (fun t x => by grind [pace_putSpm]) _ _

theorem pace_fillOne (s : State) (n k : Nat) (sup : Bool) (task : Nat) (a : Attachment) (line : Nat) :
    (s.fillOne n k sup task a line).1.pace = s.pace := by
  grind [State.fillOne, pace_globalPlace, pace_snoopLine, pace_performWhere, pace_scanMem, pace_rasWrite, pace_putFill, pace_requestRead,
    pace_requestHost]

theorem pace_fillLines (s : State) (n k : Nat) (sup : Bool) (task : Nat) (a : Attachment) (l : List Nat) :
    (s.fillLines n k sup task a l).1.pace = s.pace := by
  induction l generalizing s a with
  | nil => rfl
  | cons x r ih => grind [State.fillLines, pace_fillOne]

theorem pace_touchSpm (s : State) (core off len : Nat) (sup : Bool) (task : Nat) : (s.touchSpm core off len sup task).1.pace = s.pace := by
  refine pace_foldl_pair (fun p x => ?_) _ _
  grind [pace_fillLines, pace_modStrand]

theorem pace_mapBound (s : State) (core : Nat) {f : State → Nat → Nat → Attachment → State × Attachment}
    (h : ∀ s n k a, (f s n k a).1.pace = s.pace) : (s.mapBound core f).pace = s.pace := by
  refine pace_foldl (fun t i => ?_) _ _
  dsimp only
  split
  · rfl
  · refine pace_foldl (fun u x => ?_) _ _
    grind [pace_modStrand]

theorem pace_writeSpm (s : State) (core off : Nat) (bs : List Byte) : (s.writeSpm core off bs).pace = s.pace := by
  rw [State.writeSpm, pace_mapBound _ _ fun t n k a => by split <;> rfl, pace_putSpm]
  split
  · rfl
  · rw [pace_modCore]
    exact pace_foldl (fun t x => by grind [pace_putSpm]) _ _

theorem pace_readSpm (s : State) (core off n : Nat) : (s.readSpm core off n).1.pace = s.pace := pace_touchSpm ..

theorem pace_writeRun (s : State) (n : Nat) (sup skip : Bool) (a : Attachment) (run : Nat × Nat) :
    (s.writeRun n sup skip a run).1.pace = s.pace := by
  grind [State.writeRun, pace_globalPlace, pace_snoopLine, pace_postFor]

theorem pace_writeBack (s : State) (n : Nat) (sup skip : Bool) (a : Attachment) : (s.writeBack n sup skip a).1.pace = s.pace := by
  refine pace_foldl_pair (fun p x => ?_) _ _
  grind [pace_writeRun]

/-! ### Faults and the ends of tasks -/

theorem pace_writeObj (s : State) (task pa off : Nat) (bs : List Byte) : (s.writeObj task pa off bs).pace = s.pace := by
  rw [State.writeObj, ← pace_performMem s 0 task (pa + off) bs none none]
  split <;> rfl

theorem pace_unsure (s : State) (pa : Nat) : (s.unsure pa).pace = s.pace := by
  unfold State.unsure
  split
  · rfl
  · split <;> rfl

theorem pace_releaseSlot (s : State) (n : Nat) (sl : SyncSlot) : (s.releaseSlot n sl).pace = s.pace := by
  grind [State.releaseSlot, State.setBarrier, pace_writeBack, pace_unsure, pace_writeObj]

theorem pace_leaveSlot (s : State) (n : Nat) : (s.leaveSlot n).pace = s.pace := by
  rw [State.leaveSlot]
  exact pace_foldl (fun t (p : Nat × SyncSlot) => pace_releaseSlot t n p.2) _ _

theorem pace_cancelStrand (s : State) (n : Nat) : (s.cancelStrand n).pace = s.pace := by
  unfold State.cancelStrand
  split
  · exact pace_leaveSlot ..
  · rfl

theorem pace_faultTask (s : State) (n cause : Nat) (pc info : Word) : (s.faultTask n cause pc info).pace = s.pace :=
  (pace_foldl pace_cancelStrand _ _).trans ((pace_leaveSlot ..).trans (pace_modTask ..))

theorem pace_faultTaskId (s : State) (task cause : Nat) (pc info : Word) : (s.faultTaskId task cause pc info).pace = s.pace :=
  (pace_foldl pace_cancelStrand _ _).trans (pace_modTask ..)

theorem pace_undefCells (s : State) (core : Nat) (rs : List (Nat × Nat)) : (s.undefCells core rs).pace = s.pace := by
  refine pace_foldl (fun t x => ?_) _ _
  obtain ⟨a, k⟩ := x
  refine pace_foldl (fun u i => ?_) _ _
  exact pace_modCore ..

theorem pace_noteRedo (s : State) (n : Nat) (l : List Region) : (s.noteRedo n l).pace = s.pace := by
  simp only [State.noteRedo]
  split
  · exact pace_modTask ..
  · rfl

theorem pace_landLate (s : State) (n : Nat) (l : Late) : (s.landLate n l).pace = s.pace := by
  grind [State.landLate, State.choose, pace_modStrand]

theorem pace_landAll (s : State) (n : Nat) : (s.landAll n).pace = s.pace := pace_foldl (fun t l => pace_landLate t n l) _ _

theorem pace_enterTrap (s : State) (n : Nat) (p : Pending) : (s.enterTrap n p).pace = s.pace := by
  simp only [State.enterTrap]
  split
  · simp only [pace_faultTask, pace_undefCells, pace_landAll]
  · simp only [setStrand_pace, pace_noteRedo, pace_undefCells, pace_landAll]

theorem pace_replayRegion (s : State) (n : Nat) (p : Pending) : (s.replayRegion n p).pace = s.pace := by
  simp only [State.replayRegion]
  split
  · simp only [setStrand_pace, pace_rasWrite, pace_noteRedo, pace_undefCells, pace_landAll]
  · simp only [pace_faultTask, pace_rasWrite, pace_undefCells, pace_landAll]

theorem pace_takeFault (s : State) (n : Nat) : (s.takeFault n).pace = s.pace := by
  grind [State.takeFault, pace_replayRegion, pace_enterTrap]

theorem pace_recordFault (s : State) (n : Nat) (p : Pending) : (s.recordFault n p).pace = s.pace := by
  rw [State.recordFault]
  dsimp only
  generalize hx : Strand.mk .. = x
  clear hx
  split
  · exact pace_takeFault ..
  · rfl

theorem pace_ackPosted (s : State) (id : Nat) : (s.ackPosted id).pace = s.pace := by
  grind [State.ackPosted, pace_modCore]

theorem pace_failChan (s : State) (core ch : Nat) : (s.failChan core ch).pace = s.pace := rfl

theorem pace_reportPosted (s : State) (p : Posted) (cause aux lateBit : Nat) : (s.reportPosted p cause aux lateBit).pace = s.pace := by
  grind [State.reportPosted, pace_failChan, pace_modStrand, pace_modCore, pace_faultTaskId, pace_recordFault, pace_faultTask]

theorem pace_performPosted (s : State) (p : Posted) : (s.performPosted p).pace = s.pace := by
  grind [State.performPosted, pace_ackPosted, pace_readSpm, pace_writeSpm, pace_reportPosted]

theorem pace_flushPosted (s : State) (n line : Nat) : (s.flushPosted n line).pace = s.pace := pace_foldl pace_performPosted _ _

/-! ### Reads of an entry -/

theorem pace_poisonRead (s : State) (w : Who) (addr stack : Nat) : (s.poisonRead w addr stack).1.pace = s.pace := pace_rasWrite ..

theorem pace_fetchSpm (s : State) (w : Who) (core off n : Nat) (own : Bool) : (s.fetchSpm w core off n own).1.pace = s.pace := by
  grind [State.fetchSpm, pace_touchSpm, pace_scanSpm]

theorem pace_fetchMem (s : State) (w : Who) (pa n hint : Nat) : (s.fetchMem w pa n hint).1.pace = s.pace := by
  unfold State.fetchMem
  split
  · exact pace_snoopLine ..
  · split
    · grind [pace_scanL1, pace_scanMem, pace_poisonRead]
    · grind [pace_scanL1, pace_scanMem]
    · refine (pace_foldl_pair (fun p i => ?_) _ _).trans ?_
      · exact pace_loadMem ..
      · grind [pace_scanL1, pace_scanMem]

theorem pace_fetchHost (s : State) (w : Who) (pa n hint : Nat) : (s.fetchHost w pa n hint).1.pace = s.pace := by
  grind [State.fetchHost, pace_performWhere, pace_scanL1, pace_poisonRead]

theorem pace_fetchPlace (s : State) (w : Who) (p : Place) (n hint : Nat) : (s.fetchPlace w p n hint).1.pace = s.pace := by
  cases p with
  | spm core off own => exact pace_fetchSpm ..
  | win i off => grind [State.fetchPlace, pace_flushPosted, pace_fetchSpm]
  | mem pa => exact pace_fetchMem ..
  | host pa => exact pace_fetchHost ..
  | port p off => rfl
  | remote pa => rfl
  | dev off => rfl

theorem pace_freeBytes (s : State) (n : Nat) : (s.freeBytes n).1.pace = s.pace := by
  induction n generalizing s with
  | zero => rfl
  | succ n ih => exact (ih s.draw.2).trans rfl

theorem pace_unit (r : Rd) (e : Entry) (va n hint : Nat) : (r.unit e va n hint).1.s.pace = r.s.pace := by
  grind [Rd.unit, pace_place, pace_fetchPlace, pace_freeBytes]

theorem pace_bytes (r : Rd) (e : Entry) (va n hint : Nat) : (r.bytes e va n hint).1.s.pace = r.s.pace := by
  unfold Rd.bytes
  split
  · exact pace_unit ..
  · refine rdPace_foldl (fun p i => ?_) _ _
    exact pace_unit ..

theorem pace_span (r : Rd) (e : Entry) (x : Span) (hint : Nat) : (r.span e x hint).1.s.pace = r.s.pace := pace_bytes ..

theorem pace_codeScale (r : Rd) (e : Entry) (v : View) (rc : Nat × Nat) (hint : Nat) : (r.codeScale e v rc hint).1.s.pace = r.s.pace := by
  grind [Rd.codeScale, Rd.code, pace_span]

theorem pace_meVal (r : Rd) (e : Entry) (v : View) (p : Option (Nat × Nat)) (cplx : Bool) : (Rd.meVal r e v p cplx).1.s.pace = r.s.pace := by
  cases p with
  | none => rfl
  | some rc => grind [Rd.meVal, pace_codeScale]

theorem pace_meBlock (r : Rd) (e : Entry) (v : View) (o : Org) (rows cols : Nat) (cplx : Bool) :
    (Rd.meBlock r e v o rows cols cplx).1.s.pace = r.s.pace := by
  refine rdPace_foldl (fun p i => ?_) _ _
  refine (rdPace_foldl (fun q k => ?_) _ _)
  exact pace_meVal ..

theorem pace_window (r : Rd) (e : Entry) (v : View) (o : Org) (use : Nat → Bool) (w k : Nat) :
    (Rd.window r e v o use w k).1.s.pace = r.s.pace := by
  refine rdPace_foldl (fun p i => ?_) _ _
  split
  split
  · exact pace_meBlock ..
  · rfl

theorem pace_build (r : Rd) (e : Entry) (f : MFields) : (Rd.build r e f).1.s.pace = r.s.pace :=
  (pace_meBlock ..).trans (pace_window ..)

/-! ### Writes of an entry -/

theorem pace_writeVa (s : State) (e : Entry) (w : Nat × List (Byte × Byte)) : (s.writeVa e w).1.pace = s.pace := by
  grind [State.writeVa, State.hostLeaves, pace_freeBytes, pace_place, pace_touchSpm, pace_writeSpm, pace_postFor, pace_snoopLine, pace_performWhere,
    pace_performMem, pace_updateL1, pace_hostPost]

theorem pace_writeEach (s : State) (e : Entry) (l : List (Nat × List (Byte × Byte))) : (s.writeEach e l).1.pace = s.pace := by
  induction l generalizing s with
  | nil => rfl
  | cons x r ih => grind [State.writeEach, pace_writeVa]

theorem pace_putEntry (s : State) (e : Entry) : (s.putEntry e).pace = s.pace := by
  unfold State.putEntry
  split <;> rfl

theorem pace_writeAll {s : State} (hs : s.pace = 0) (e : Entry) (l : List (Nat × List (Byte × Byte))) : (s.writeAll e l).1.pace = 0 := by
  rw [State.writeAll, if_pos (by simp [hs]), pace_writeEach, hs]

end Sys2Proof.Machine

/-!
The matrix engine's turns (O32): a turn that reaches its operation, and the writes of MWB.
-/
namespace Sys2Proof.Machine

/-! ### A turn of the matrix engine reaches its operation (R286, R288) -/

/-- An entry that begins, with nothing injected and no overlap: its turn runs the operation. -/
theorem meInstr_turn {s : State} {e : Entry} {i : Instr} {cycles : Entry → Nat} {exts : Entry → List Ext × List Ext} {run : State → Entry → State}
    (hm : MReady s e) (halias : s.aliased e (exts e) = false) : s.meInstr i cycles exts run = .next (run s e) := by
  obtain ⟨hserved, -, hruns, hphase, -, -, hsound⟩ := hm
  have hturn : s.engineTurn 1 e = fun g => g s e := by
    funext g
    rw [State.engineTurn, hphase, hsound]
    rfl
  have hcells : s.scanCells e = (s, false) := by
    rw [State.scanCells, hsound]
    split <;> rfl
  rw [State.meInstr, hserved]
  dsimp only
  rw [hturn]
  dsimp only
  rw [hruns, halias, Bool.and_false, if_neg Bool.false_ne_true, hcells, ite_self]
  rfl

theorem firstDesc_eq_none_iff {l : List (Nat × Option Nat)} : firstDesc l = none ↔ ∀ x ∈ l, x.2 = none := by
  simp [firstDesc]

theorem withTile_of_tileOf {s : State} {e : Entry} {k T : Nat} (h : s.tileOf e k = some T) (g : State → Nat → State) :
    s.withTile e k g = g s T := by
  rw [State.withTile, h]

theorem tileOf_of_lt {s : State} {e : Entry} {n k : Nat} (he : e.strand = some n) (h : k < (s.strandAt n).accN) :
    s.tileOf e k = some ((s.strandAt n).accBase + k) := by
  rw [State.tileOf, he]
  exact if_pos h

/-- Reads that met nothing go on. -/
theorem done_of_clean (u : State) (e : Entry) (g : State → State) : Rd.done { s := u } e g = g u := rfl

/-- A record that passes its tests (R303). -/
theorem withRecord_of_ok {s u : State} {e : Entry} {reg w : Nat} {reuse : Option (Nat × Nat)} {bs : List Byte}
    (hread : Rd.record { s } e (e.view 3) (selRec (smGet 0 e.o 3)) = ({ s := u }, bs)) (hok : recOk bs (e.view 3).ver w reuse = true)
    (g : State → MapRec → State) : s.withRecord e reg w reuse g = g u (recOf bs).1 := by
  rw [State.withRecord, hread]
  dsimp only
  rw [hok]
  rfl

/-! ### put keeps the state (R251) -/

/-- put of two components into a complex destination without block scales. -/
theorem putAll_complex {s : State} {e : Entry} {v : View} (hblk : v.blk = 0) (hv : fmtComplex v.fmt = true) (rm : Nat) (sat : Bool)
    {l : List PutVal} (hl : ∀ p ∈ l, ∃ x y, p.vals = [x, y]) : ∃ fs, s.putAll e v rm sat l = (s, l.map fun p => (v.span (v.flat p.j),
      (putCode v rm (srHash e.srSeed p.ix) sat (p.vals.headD valZero)).1 +
        (putCode v rm (srHash e.srSeed p.ix) sat ((p.vals[1]?).getD valZero)).1 * 2 ^ (fmtBits v.fmt / 2)), fs) := by
  have hall : (s.putAll e v rm sat l) = s.putPlain e v rm sat l := if_pos hblk
  rw [hall]
  clear hall
  induction l with
  | nil => exact ⟨[], rfl⟩
  | cons p r ih =>
    obtain ⟨x, y, hp⟩ := hl p List.mem_cons_self
    obtain ⟨fs, hr⟩ := ih fun q hq => hl q (List.mem_cons_of_mem _ hq)
    rw [State.putPlain, hv, hp]
    dsimp only
    rw [if_pos rfl, hr, List.map_cons, hp]
    exact ⟨_, rfl⟩

/-- The elements of view `v` for the rows and columns given that lie in it, each with a code. -/
def View.puts (v : View) (o : Org) (c : Nat) (rows : List (Nat × Nat)) (val : Nat → Nat → Nat → Nat) : List Put :=
  rows.flatMap fun p => (List.range c).filterMap fun j => (v.at o p.1 j).map fun rc => (v.span rc, val (p.2 * c + j) p.2 j)

theorem View.at_col {v : View} {o : Org} {i j : Nat} {rc : Nat × Nat} (h : v.at o i j = some rc) : rc.2 < v.vc := by
  unfold View.at at h
  split at h
  · rename_i hlt
    obtain rfl := Option.some.inj h
    simp only [Bool.and_eq_true, decide_eq_true_eq] at hlt
    exact hlt.2
  · cases h

/-- A fold that leaves its state and puts one thing of each element after the others, and joins what else it gives. -/
theorem foldl_emit {α β ρ : Type} {F : ρ × List β × Nat → α → ρ × List β × Nat} {r : ρ} {g : α → β} {h : α → Nat} {l : List α}
    (hF : ∀ x ∈ l, ∀ ps fl, F (r, ps, fl) x = (r, ps ++ [g x], fl ||| h x)) (ps : List β) (fl : Nat) :
    ∃ fl', l.foldl F (r, ps, fl) = (r, ps ++ l.map g, fl') := by
  induction l generalizing ps fl with
  | nil => exact ⟨fl, by simp⟩
  | cons x l ih =>
    obtain ⟨fl', hl⟩ := ih (fun y hy => hF y (List.mem_cons_of_mem _ hy)) (ps ++ [g x]) (fl ||| h x)
    refine ⟨fl', ?_⟩
    rw [List.foldl_cons, hF x List.mem_cons_self, hl, List.append_assoc, List.map_cons]
    rfl

/-! ### The values of MWB (R127, R283) -/

/-- The components and the flags that MWB forms of a cell, or of a pair. -/
def Core.wbVals (a : Core) (tile i j : Nat) (w : WbArgs) : List Val × Nat :=
  let times (x : Val) : Val × Nat := valMul x (tscaleVal w.mul)
  if w.itile then let x := times (valOfInt (a.cell tile i j).toInt); ([x.1], x.2)
  else if w.cplx then
    let x := times (ffDec ffF32 (a.cell tile i (2 * j)).toNat)
    let y := times (ffDec ffF32 (a.cell tile i (2 * j + 1)).toNat)
    ([x.1, y.1], x.2 ||| y.2)
  else let x := times (ffDec ffF32 (a.cell tile i j).toNat); ([x.1], x.2)

theorem intOfCode_toNat (x : BitVec 32) : intOfCode 32 x.toNat = x.toInt := by
  rw [BitVec.toInt_eq_toNat_cond, intOfCode]
  split <;> split <;> omega

theorem readCell_of_lt (s : State) (core tile i : Nat) {j : Nat} (h : j < 192) :
    s.readCell core tile i j = (s, ((s.coreAt core).cell tile i j).toNat) := if_pos h

/-- No column that the tile does not have is read. -/
theorem wbVal_eq (s : State) (core tile i : Nat) {j : Nat} {w : WbArgs} (h : (if w.cplx then 2 * j + 1 else j) < 192) :
    s.wbVal core tile i j w = (s, (s.coreAt core).wbVals tile i j w) := by
  have hj : j < 192 := by split at h <;> omega
  rw [State.wbVal, Core.wbVals]
  dsimp only
  split
  · rw [readCell_of_lt s core tile i hj, ← intOfCode_toNat]
  · split
    · rename_i hcplx
      rw [hcplx, if_pos rfl] at h
      rw [readCell_of_lt s core tile i (by omega), readCell_of_lt s core tile i h]
    · rw [readCell_of_lt s core tile i hj]

/-- The elements of a block that MWB writes: the element, the tile row and the column. -/
def wbElems (v : View) (o : Org) (c : Nat) (rows : List (Nat × Nat)) : List ((Nat × Nat) × Nat × Nat) :=
  rows.flatMap fun (i, b) => (List.range c).filterMap fun j => (v.at o i j).map fun rc => (rc, b, j)

theorem mem_wbElems {v : View} {o : Org} {c : Nat} {rows : List (Nat × Nat)} {x : (Nat × Nat) × Nat × Nat} (h : x ∈ wbElems v o c rows) :
    x.1.2 < v.vc ∧ x.2.2 < c := by
  simp only [wbElems, List.mem_flatMap, List.mem_filterMap, List.mem_range, Option.map_eq_some_iff] at h
  obtain ⟨p, -, j, hj, rc, hrc, rfl⟩ := h
  exact ⟨View.at_col hrc, hj⟩

theorem map_wbElems (v : View) (o : Org) (c : Nat) (rows : List (Nat × Nat)) (val : Nat → Nat → Nat → Nat) :
    (wbElems v o c rows).map (fun x => (v.span x.1, val (x.2.1 * c + x.2.2) x.2.1 x.2.2)) = v.puts o c rows val := by
  simp only [wbElems, View.puts, List.map_flatMap, List.map_filterMap, Option.map_map]
  rfl

/-- What MWB gives to put. -/
def wbPutVals (v : View) (o : Org) (c : Nat) (rows : List (Nat × Nat)) (vals : Nat → Nat → List Val) : List PutVal :=
  (wbElems v o c rows).map fun x => { j := x.1.1 * v.vc + x.1.2, vals := vals x.2.1 x.2.2, ix := x.2.1 * c + x.2.2, lane := 0 }

theorem wbPuts_eq (s : State) (e : Entry) (w : WbArgs) (o : Org) (tile : Nat) {c : Nat} (rows : List (Nat × Nat))
    (hc : (if w.cplx then 2 * c else c) ≤ 192) {puts : List Put}
    (hput : ∃ fs, s.putAll e (viewOf w.d) w.rm w.sat (wbPutVals (viewOf w.d) o c rows fun i j => ((s.coreAt e.core).wbVals tile i j w).1) =
      (s, puts, fs)) : ∃ fl, s.wbPuts e w o tile c rows = (s, puts, fl) := by
  obtain ⟨fs, hput⟩ := hput
  rw [wbPutVals] at hput
  obtain ⟨fl, hfold⟩ := foldl_emit (r := s) (l := wbElems (viewOf w.d) o c rows)
    (F := fun (s, ps, fl) (rc, b, j) =>
      let (s, vs, f) := s.wbVal e.core tile b j w
      (s, ps ++ [({ j := rc.1 * (viewOf w.d).vc + rc.2, vals := vs, ix := b * c + j, lane := 0 } : PutVal)], fl ||| f))
    (g := fun x => { j := x.1.1 * (viewOf w.d).vc + x.1.2, vals := ((s.coreAt e.core).wbVals tile x.2.1 x.2.2 w).1, ix := x.2.1 * c + x.2.2, lane := 0 })
    (h := fun x => ((s.coreAt e.core).wbVals tile x.2.1 x.2.2 w).2)
    (fun x hx ps fl => by
      obtain ⟨rc, b, j⟩ := x
      obtain ⟨-, hj⟩ := mem_wbElems hx
      dsimp only at hj ⊢
      rw [wbVal_eq s e.core tile b (by cases hw : w.cplx <;> simp [hw] at hc ⊢ <;> omega)]) [] 0
  refine ⟨fs.foldl (fun a x => a ||| x.2) fl, ?_⟩
  rw [State.wbPuts]
  dsimp only
  rw [show (List.flatMap _ rows) = wbElems (viewOf w.d) o c rows from rfl, hfold]
  dsimp only
  rw [List.nil_append, hput]

theorem map_wbPutVals (v : View) (o : Org) (c : Nat) (rows : List (Nat × Nat)) (vals : Nat → Nat → List Val) (code : Nat → List Val → Nat) :
    (wbPutVals v o c rows vals).map (fun p => (v.span (v.flat p.j), code p.ix p.vals)) = v.puts o c rows fun ix i j => code ix (vals i j) := by
  rw [← map_wbElems, wbPutVals, List.map_map]
  refine List.map_congr_left fun x hx => ?_
  dsimp only [Function.comp]
  rw [flat_flat (mem_wbElems hx).1]

section
variable {s : State} {e : Entry} {f : MFields} {T : Nat} (o : Org) (rows : List (Nat × Nat)) (u : State)

/-- The number by which MWB multiplies. -/
theorem mulOf_eq (x : Word) : mulOf x.toNat = x.toNat / 2 ^ 32 := Nat.mod_eq_of_lt (by have := x.isLt; omega)

/-- A real write-back (R283). -/
theorem mwbPuts_real (T : Nat) (hv : (e.view 1).blk = 0 ∧ fmtComplex (e.view 1).fmt = false) (hcplx : f.mode.getLsbD 5 = false) (hc : f.cols false ≤ 192) :
    ∃ fl, u.wbPuts e (wbOf f e) o T (f.cols false) rows = (u, (e.view 1).puts o (f.cols false) rows fun ix i j =>
      (putCode (e.view 1) (rmOf (f.mode.toNat % 8) e.rmode) (srHash e.srSeed ix) (f.mode.getLsbD 3)
        (valMul (if f.mode.getLsbD 6 then valOfInt ((u.coreAt e.core).cell T i j).toInt else ffDec ffF32 ((u.coreAt e.core).cell T i j).toNat)
          (tscaleVal (f.imm.toNat / 2 ^ 32))).1).1, fl) := by
  refine wbPuts_eq u e (wbOf f e) o T rows (by simp only [wbOf, hcplx]; exact hc) ?_
  obtain ⟨fs, hput⟩ := putAll_real (s := u) (e := e) hv.1 hv.2 (rmOf (f.mode.toNat % 8) e.rmode) (f.mode.getLsbD 3)
    (wbPutVals (e.view 1) o (f.cols false) rows fun i j => ((u.coreAt e.core).wbVals T i j (wbOf f e)).1)
  refine ⟨fs, hput.trans ?_⟩
  rw [map_wbPutVals (e.view 1) o _ rows _ fun ix l => (putCode (e.view 1) (rmOf (f.mode.toNat % 8) e.rmode) (srHash e.srSeed ix) (f.mode.getLsbD 3)
    (l.headD valZero)).1]
  have hvals (i j : Nat) : ((u.coreAt e.core).wbVals T i j (wbOf f e)).1 = [(valMul (if f.mode.getLsbD 6 then valOfInt ((u.coreAt e.core).cell T i j).toInt
      else ffDec ffF32 ((u.coreAt e.core).cell T i j).toNat) (tscaleVal (f.imm.toNat / 2 ^ 32))).1] := by
    simp only [Core.wbVals, wbOf, hcplx, mulOf_eq]
    split <;> rfl
  simp only [hvals]
  rfl

/-- A complex write-back (R283). -/
theorem mwbPuts_complex (T : Nat) (hblk : (e.view 1).blk = 0) (hv : fmtComplex (e.view 1).fmt = true) (hcplx : f.mode.getLsbD 5 = true)
    (hint : f.mode.getLsbD 6 = false) (hc : f.cols true ≤ 96) :
    ∃ fl, u.wbPuts e (wbOf f e) o T (f.cols true) rows = (u, (e.view 1).puts o (f.cols true) rows fun ix i j =>
      let one (x : Val) : Nat := (putCode (e.view 1) (rmOf (f.mode.toNat % 8) e.rmode) (srHash e.srSeed ix) (f.mode.getLsbD 3)
        (valMul x (tscaleVal (f.imm.toNat / 2 ^ 32))).1).1
      one (ffDec ffF32 ((u.coreAt e.core).cell T i (2 * j)).toNat) +
        one (ffDec ffF32 ((u.coreAt e.core).cell T i (2 * j + 1)).toNat) * 2 ^ (fmtBits (e.view 1).fmt / 2), fl) := by
  have hvals (i j : Nat) : ((u.coreAt e.core).wbVals T i j (wbOf f e)).1 =
      [(valMul (ffDec ffF32 ((u.coreAt e.core).cell T i (2 * j)).toNat) (tscaleVal (f.imm.toNat / 2 ^ 32))).1,
       (valMul (ffDec ffF32 ((u.coreAt e.core).cell T i (2 * j + 1)).toNat) (tscaleVal (f.imm.toNat / 2 ^ 32))).1] := by
    simp only [Core.wbVals, wbOf, hcplx, hint, mulOf_eq]
    rfl
  refine wbPuts_eq u e (wbOf f e) o T rows (by simp only [wbOf, hcplx, if_true]; omega) ?_
  obtain ⟨fs, hput⟩ := putAll_complex (s := u) (e := e) hblk hv (rmOf (f.mode.toNat % 8) e.rmode) (f.mode.getLsbD 3)
    (l := wbPutVals (e.view 1) o (f.cols true) rows fun i j => ((u.coreAt e.core).wbVals T i j (wbOf f e)).1) fun p hp => by
      obtain ⟨x, -, rfl⟩ := List.mem_map.1 hp
      exact ⟨_, _, hvals _ _⟩
  refine ⟨fs, hput.trans ?_⟩
  rw [map_wbPutVals (e.view 1) o _ rows _ fun ix l =>
    (putCode (e.view 1) (rmOf (f.mode.toNat % 8) e.rmode) (srHash e.srSeed ix) (f.mode.getLsbD 3) (l.headD valZero)).1 +
      (putCode (e.view 1) (rmOf (f.mode.toNat % 8) e.rmode) (srHash e.srSeed ix) (f.mode.getLsbD 3) ((l[1]?).getD valZero)).1 *
        2 ^ (fmtBits (e.view 1).fmt / 2)]
  simp only [hvals]
  rfl

end

/-! ### The turn of MWB (R283, R305) -/

theorem hiddenAlias_nil (s : State) (e : Entry) (writes : List Span) : s.hiddenAlias e writes [] = false := by
  rw [State.hiddenAlias]
  dsimp only
  split
  · rfl
  · refine List.any_eq_false.2 fun a _ => ?_
    split <;> simp [spanVas]

section
variable {s : State} {e : Entry} {f : MFields} {n : Nat} (hm : MReady s e)
include hm

/-- MWB without a map writes each row of the tile to the row of its number. -/
theorem exec_mwb_rows {T : Nat} {puts : List Put} (hsig : f.sig = false)
    (hdesc : s.meTdesc e (e.desc 1) (wbKind (e.view 1)) ((e.view 1).block (e.org 1) (wbRows f e) (f.cols (f.mode.getLsbD 5))) true = none)
    (htile : s.tileOf e f.acc.toNat = some T)
    (hputs : ∃ fl, s.wbPuts e (wbOf f e) (e.org 1) T (f.cols (f.mode.getLsbD 5)) ((List.range f.rows).map fun i => (i, i)) = (s, puts, fl)) :
    ∃ fl, exec (.mwb f) s = .next (s.meWrite e (writePlan puts) fl) := by
  obtain ⟨fl, hputs⟩ := hputs
  refine ⟨fl, ?_⟩
  rw [exec_mwb, execMwb, meInstr_turn hm]
  · rw [hm.begins, if_neg (by decide), hsig]
    dsimp only
    rw [if_neg Bool.false_ne_true, firstDesc_eq_none_iff.2 (by simpa using hdesc)]
    dsimp only
    rw [if_neg Bool.false_ne_true, withTile_of_tileOf htile, hputs]
  · rw [State.aliased, hsig]
    exact (Bool.and_eq_false_imp.2 fun _ => hiddenAlias_nil ..)

/-- MWB with a map writes a bucket's row of the tile to each row of the bucket. -/
theorem exec_mwb_buckets {T : Nat} {puts : List Put} {u : State} {bs : List Byte} (hsig : f.sig = true)
    (hdesc : s.meTdesc e (e.desc 1) (wbKind (e.view 1)) ((e.view 1).block (e.org 1) (wbRows f e) (f.cols (f.mode.getLsbD 5))) true = none)
    (hmap : s.mapTdesc e (e.desc 3) (selRec (smGet 0 e.o 3)) = none)
    (hread : Rd.record { s } e (e.view 3) (selRec (smGet 0 e.o 3)) = ({ s := u }, bs))
    (hok : recOk bs (e.view 3).ver (selWin (smGet 0 e.o 3)) none = true) (htile : u.tileOf e f.acc.toNat = some T)
    (halias : s.aliased e ([extOf e.core f.t1.toNat (e.view 1) ((e.view 1).block (e.org 1) (wbRows f e) (f.cols (f.mode.getLsbD 5))) true],
      [recExt e.core f.t3.toNat (e.view 3) (selRec (smGet 0 e.o 3))]) = false)
    (hputs : ∃ fl, u.wbPuts e (wbOf f e) (e.org 1) T (f.cols (f.mode.getLsbD 5))
      ((List.range (recOf bs).1.wrows).filterMap fun i => ((recOf bs).1.bucket i).map fun b => (i, b)) = (u, puts, fl)) :
    ∃ fl, exec (.mwb f) s = .next (u.meWrite e (writePlan puts) fl) := by
  obtain ⟨fl, hputs⟩ := hputs
  refine ⟨fl, ?_⟩
  rw [exec_mwb, execMwb, meInstr_turn hm]
  · rw [hm.begins, if_neg (by decide), hsig]
    dsimp only
    rw [if_pos rfl, firstDesc_eq_none_iff.2 (by simpa using ⟨hdesc, hmap⟩)]
    dsimp only
    rw [if_pos rfl, withRecord_of_ok hread hok, withTile_of_tileOf htile, hputs]
  · rw [hsig]
    exact halias

end

end Sys2Proof.Machine

/-!
MSIG, MSCAT and MSPC (O32): the record, the values of the buckets, and the values kept of each group.
-/
namespace Sys2Proof.Machine

/-! ### The elements of a scatter (R306) -/

/-- The elements of a scatter with their buckets' values, each of which the record gives. -/
theorem wbElems_filterMap_some {v : View} {o : Org} {c : Nat} {rows : List (Nat × Nat)} {value : Nat → Nat → Option (Val × Nat)}
    (h : ∀ x ∈ wbElems v o c rows, (value x.2.1 x.2.2).isSome) :
    (((wbElems v o c rows).map fun (rc, b, j) => (rc, b, j, value b j)).filterMap fun (rc, b, j, x) =>
      x.map fun y => ({ j := rc.1 * v.vc + rc.2, vals := [y.1], ix := b * c + j, lane := 0 } : PutVal)) =
    wbPutVals v o c rows fun b j => [((value b j).getD (valZero, 0)).1] := by
  unfold wbPutVals
  rw [List.filterMap_map]
  refine List.filterMap_eq_map_iff_forall_eq_some.2 fun x hx => ?_
  obtain ⟨y, hy⟩ := Option.isSome_iff_exists.1 (h x hx)
  dsimp only [Function.comp]
  rw [hy]
  rfl

theorem wbElems_filterMap_none {v : View} {value : Nat → Nat → Option (Val × Nat)} {l : List ((Nat × Nat) × Nat × Nat)}
    (h : ∀ x ∈ l, (value x.2.1 x.2.2).isSome) :
    ((l.map fun (rc, b, j) => (rc, b, j, value b j)).filterMap fun (rc, _, _, x) =>
      if x.isNone then some ((v.span rc, 0) : Put) else none) = [] := by
  rw [List.filterMap_map, List.filterMap_eq_nil_iff]
  intro x hx
  obtain ⟨y, hy⟩ := Option.isSome_iff_exists.1 (h x hx)
  exact if_neg (by simp [hy])

/-! ### MSIG (R304) -/

section
variable {s : State} {e : Entry} {f : MFields} (hm : MReady s e)
include hm

theorem exec_msig_writes {u : State} {m : MapRec}
    (halias : s.aliased e ([recExt e.core f.t3.toNat (e.view 3) (selRec (smGet 0 e.o 3))],
      [extOf e.core f.t1.toNat (e.view 1) ((e.view 1).block (e.org 1) f.win e.cnt) true,
       extOf e.core f.hyper (e.view 5) ((e.view 5).block (0, 0) e.cnt f.bits) true]) = false)
    (ha : s.meTdesc e (e.desc 1) (meSourceOk e.core false (e.view 1)) ((e.view 1).block (e.org 1) f.win e.cnt) true = none)
    (hmap : s.mapTdesc e (e.desc 3) (selRec (smGet 0 e.o 3)) = none)
    (hh : s.meTdesc e (e.desc 5) (meSourceOk e.core false (e.view 5)) ((e.view 5).block (0, 0) e.cnt f.bits) true = none)
    (hbuild : Rd.build { s } e f = ({ s := u }, m)) :
    exec (.msig f) s = .next (u.meWrite e (m.plan ((e.view 3).base + selRec (smGet 0 e.o 3) * 4096)) 0) := by
  rw [exec_msig, execMsig, meInstr_turn hm halias, hm.begins, if_neg (by decide), firstDesc_eq_none_iff.2 (by simpa using ⟨ha, hmap, hh⟩)]
  dsimp only
  rw [hbuild]
  rfl

/-! ### MSCAT (R306) -/

/-- put of the values of the buckets: none is free. -/
theorem exec_mscat_writes {u0 u : State} {bs : List Byte} {rows : List (List Val × Nat)} {value : Nat → Nat → Option (Val × Nat)}
    (ha : s.meTdesc e (e.desc 1) (meSourceOk e.core false (e.view 1)) ((e.view 1).block (e.org 1) f.win (f.imm.toNat % 2 ^ 16)) true = none)
    (hd : s.meTdesc e (e.desc 2) (wbKind (e.view 2)) ((e.view 2).block (e.org 2) 128 (f.imm.toNat % 2 ^ 16)) true = none)
    (hmap : s.mapTdesc e (e.desc 3) (selRec (smGet 0 e.o 3)) = none)
    (halias : s.aliased e ([extOf e.core f.t2.toNat (e.view 2) ((e.view 2).block (e.org 2) 128 (f.imm.toNat % 2 ^ 16)) true],
      [extOf e.core f.t1.toNat (e.view 1) ((e.view 1).block (e.org 1) f.win (f.imm.toNat % 2 ^ 16)) true,
       recExt e.core f.t3.toNat (e.view 3) (selRec (smGet 0 e.o 3))]) = false)
    (hread : Rd.record { s } e (e.view 3) (selRec (smGet 0 e.o 3)) = ({ s := u0 }, bs)) (hok : recOk bs (e.view 3).ver f.win none = true)
    (hwin : Rd.window { s := u0 } e (e.view 1) (e.org 1)
      ((recOf bs).1.used (if f.mode.toNat % 4 = 2 then (recOf bs).1.rep else 1)).contains f.win (f.imm.toNat % 2 ^ 16) = ({ s := u }, rows))
    (hv : (e.view 2).blk = 0 ∧ fmtComplex (e.view 2).fmt = false)
    (hvalue : mscatVal (f.mode.toNat % 4) (recOf bs).1 (rows.map (·.1)) = value)
    (hsome : ∀ b j, b < (recOf bs).1.nbkt → j < f.imm.toNat % 2 ^ 16 → (value b j).isSome) :
    ∃ fl, exec (.mscat f) s = .next (u.meWrite e (writePlan ((e.view 2).puts (e.org 2) (f.imm.toNat % 2 ^ 16)
      ((List.range (recOf bs).1.nbkt).map fun b => (b, b)) fun ix b j =>
        (putCode (e.view 2) (rmOf (f.mode.toNat / 4 % 8) e.rmode) (srHash e.srSeed ix) (f.mode.getLsbD 5) ((value b j).getD (valZero, 0)).1).1)) fl) := by
  obtain ⟨fs, hput⟩ := putAll_real (s := u) (e := e) hv.1 hv.2 (rmOf (f.mode.toNat / 4 % 8) e.rmode) (f.mode.getLsbD 5)
    (wbPutVals (e.view 2) (e.org 2) (f.imm.toNat % 2 ^ 16) ((List.range (recOf bs).1.nbkt).map fun b => (b, b)) fun b j =>
      [((value b j).getD (valZero, 0)).1])
  rw [map_wbPutVals (e.view 2) _ _ _ _ fun ix l => (putCode (e.view 2) (rmOf (f.mode.toNat / 4 % 8) e.rmode) (srHash e.srSeed ix) (f.mode.getLsbD 5)
    (l.headD valZero)).1] at hput
  have hsome' : ∀ x ∈ wbElems (e.view 2) (e.org 2) (f.imm.toNat % 2 ^ 16) ((List.range (recOf bs).1.nbkt).map fun b => (b, b)),
      (value x.2.1 x.2.2).isSome := fun x hx => by
    simp only [wbElems, List.mem_flatMap, List.mem_filterMap, List.mem_range, Option.map_eq_some_iff, List.mem_map] at hx
    obtain ⟨p, ⟨b, hb, rfl⟩, j, hj, rc, -, rfl⟩ := hx
    exact hsome b j hb hj
  rw [exec_mscat, execMscat, meInstr_turn hm halias, hm.begins, if_neg (by decide), firstDesc_eq_none_iff.2 (by simpa using ⟨ha, hd, hmap⟩)]
  dsimp only
  rw [withRecord_of_ok hread hok, hwin, done_of_clean, hvalue]
  have helems : ((List.range (recOf bs).1.nbkt).flatMap fun b => (List.range (f.imm.toNat % 2 ^ 16)).filterMap fun j =>
      ((e.view 2).at (e.org 2) b j).map fun rc => (rc, b, j)) =
      wbElems (e.view 2) (e.org 2) (f.imm.toNat % 2 ^ 16) ((List.range (recOf bs).1.nbkt).map fun b => (b, b)) := by
    rw [wbElems, List.flatMap_map]
  rw [helems, wbElems_filterMap_some hsome', wbElems_filterMap_none hsome', hput]
  rw [State.freePuts, List.append_nil]
  exact ⟨_, rfl⟩

end

/-! ### MSPC (R278) -/

/-- The groups of an MSPC and their columns. -/
def spcGroups (g c : Nat) : List (Nat × Nat) := (List.range g).flatMap fun k => (List.range c).map fun j => (k, j)

/-- The destination elements of the groups that lie in the view, each with its row, its column and the source row that it takes. -/
def spcPlaces (v : View) (o : Org) (gj : List (Nat × Nat)) (kept : Nat → Nat → Nat × Option Nat) : List ((Nat × Nat) × Nat × Nat × Option Nat) :=
  ((gj.map fun (k, j) => (k, j, (kept k j).1, (kept k j).2)).flatMap fun (k, j, p, q) =>
    [(2 * k, j, some (4 * k + p)), (2 * k + 1, j, q.map (4 * k + ·))]).filterMap fun (i, j, x) => (v.at o i j).map fun rc => (rc, i, j, x)

/-- The codes of a group's two destination elements: of the value kept, or `out` where a group has only one. -/
def spcPuts (v : View) (o : Org) (c : Nat) (gj : List (Nat × Nat)) (kept : Nat → Nat → Nat × Option Nat) (x : Nat → Nat → Nat → Nat)
    (out : Nat → Nat) : List Put :=
  gj.flatMap fun p =>
    ((v.at o (2 * p.1) p.2).map fun rc => (v.span rc, x (4 * p.1 + (kept p.1 p.2).1) p.2 (2 * p.1 * c + p.2))).toList ++
    ((v.at o (2 * p.1 + 1) p.2).map fun rc => (v.span rc, match (kept p.1 p.2).2 with
      | some y => x (4 * p.1 + y) p.2 ((2 * p.1 + 1) * c + p.2)
      | none => out ((2 * p.1 + 1) * c + p.2))).toList

theorem filterMap_pair {α β : Type} (g : α → Option β) (a b : α) : [a, b].filterMap g = (g a).toList ++ (g b).toList := by
  rw [List.filterMap_cons, List.filterMap_cons]
  cases g a <;> cases g b <;> rfl

theorem map_spcPlaces (v : View) (o : Org) (c : Nat) (gj : List (Nat × Nat)) (kept : Nat → Nat → Nat × Option Nat) (x : Nat → Nat → Nat → Nat)
    (out : Nat → Nat) {code : (Nat × Nat) × Nat × Nat × Option Nat → Nat}
    (hcode : ∀ rc i j y, code (rc, i, j, y) = match y with
      | some a => x a j (i * c + j)
      | none => out (i * c + j)) :
    (spcPlaces v o gj kept).map (fun p => (v.span p.1, code p)) = spcPuts v o c gj kept x out := by
  rw [spcPlaces, spcPuts, List.flatMap_map, List.filterMap_flatMap, List.map_flatMap]
  refine congrArg (fun g => List.flatMap g gj) (funext fun p => ?_)
  rw [filterMap_pair, List.map_append, ← Option.toList_map, ← Option.toList_map, Option.map_map, Option.map_map]
  simp only [Function.comp_def, hcode]
  cases (kept p.1 p.2).2 <;> rfl

theorem mem_spcPlaces {v : View} {o : Org} {gj : List (Nat × Nat)} {kept : Nat → Nat → Nat × Option Nat} {x : (Nat × Nat) × Nat × Nat × Option Nat}
    (h : x ∈ spcPlaces v o gj kept) : x.1.2 < v.vc := by
  simp only [spcPlaces, List.mem_filterMap, Option.map_eq_some_iff] at h
  obtain ⟨p, -, rc, hrc, rfl⟩ := h
  exact View.at_col hrc

/-- put of the values kept of the groups (R278). -/
theorem spcPut {s : State} {e : Entry} {v : View} (hv : v.blk = 0 ∧ fmtComplex v.fmt = false) (rm : Nat) (sat : Bool) (o : Org) (c : Nat)
    (gj : List (Nat × Nat)) (kept : Nat → Nat → Nat × Option Nat) (val : Nat → Nat → Val) :
    ∃ fs, s.putAll e v rm sat ((spcPlaces v o gj kept).map fun (rc, i, j, x) =>
      { j := rc.1 * v.vc + rc.2, ix := i * c + j, lane := 0, vals := match x with
        | some i => [val i j]
        | none => [valZero] }) =
      (s, spcPuts v o c gj kept (fun i j ix => (putCode v rm (srHash e.srSeed ix) sat (val i j)).1)
        (fun ix => (putCode v rm (srHash e.srSeed ix) sat valZero).1), fs) := by
  obtain ⟨fs, hput⟩ := putAll_real (s := s) (e := e) hv.1 hv.2 rm sat ((spcPlaces v o gj kept).map fun (rc, i, j, x) =>
      { j := rc.1 * v.vc + rc.2, ix := i * c + j, lane := 0, vals := match x with
        | some i => [val i j]
        | none => [valZero] })
  refine ⟨fs, hput.trans ?_⟩
  rw [List.map_map, ← map_spcPlaces v o c gj kept _ _ (code := fun x => match x.2.2.2 with
    | some a => (putCode v rm (srHash e.srSeed (x.2.1 * c + x.2.2.1)) sat (val a x.2.2.1)).1
    | none => (putCode v rm (srHash e.srSeed (x.2.1 * c + x.2.2.1)) sat valZero).1) fun _ _ _ _ => rfl]
  refine congrArg (fun l => (s, l, fs)) (List.map_congr_left fun x hx => ?_)
  obtain ⟨rc, i, j, y⟩ := x
  dsimp only [Function.comp]
  rw [flat_flat (mem_spcPlaces hx)]
  cases y <;> rfl

theorem meWrite_of_puts {q : State × List Put × List (Nat × Nat)} {u : State} {ps : List Put} {fs : List (Nat × Nat)} (h : q = (u, ps, fs))
    (e : Entry) (more : List Put) (fl : Nat) :
    ∃ fl', (Host.Outcome.next (q.1.meWrite e (writePlan (q.2.1 ++ more)) (q.2.2.foldl (fun a x => a ||| x.2) fl)) : Out1) =
      .next (u.meWrite e (writePlan (ps ++ more)) fl') := ⟨_, by rw [h]⟩

/-- The metadata of the groups (R278). -/
def spcMetas (v : View) (o : Org) (gj : List (Nat × Nat)) (kept : Nat → Nat → Nat × Option Nat) : List Put :=
  gj.filterMap fun p => (v.at o p.1 p.2).map fun rc =>
    (v.span rc, ((kept p.1 p.2).1 + 4 * (kept p.1 p.2).2.getD ((kept p.1 p.2).1 + 1)) % 2 ^ fmtBits v.fmt)

/-- The positions kept of column `j` of group `k`, for source values `vals`. -/
def spcKept (cnt : Nat) (vals : List (List (Val × Val))) (k j : Nat) : Nat × Option Nat :=
  keepTwo ((List.range (min 4 (cnt - 4 * k))).map fun p => (at2 (valZero, valZero) vals (4 * k + p) j).1)

section
variable {s : State} {e : Entry} {f : MFields} {T : Nat} (hm : MReady s e) (c : Nat) (hc : f.imm.toNat % 2 ^ 16 = c)
  (h1 : s.meTdesc e (e.desc 1) (meSourceOk e.core false (e.view 1)) ((e.view 1).block (e.org 1) e.cnt c) true = none)
  (h2 : s.meTdesc e (e.desc 2) (meSourceOk e.core false (e.view 2)) ((e.view 2).block (e.org 2) (2 * ceilDiv e.cnt 4) c) true = none)
  (h3 : s.meTdesc e (e.desc 3) (meSourceOk e.core false (e.view 3)) ((e.view 3).block (e.org 3) (ceilDiv e.cnt 4) c) false = none)
  (htile : s.tileOf e f.acc.toNat = some T)
  (halias : s.aliased e ([extOf e.core f.t2.toNat (e.view 2) ((e.view 2).block (e.org 2) (2 * ceilDiv e.cnt 4) c) true,
    extOf e.core f.t3.toNat (e.view 3) ((e.view 3).block (e.org 3) (ceilDiv e.cnt 4) c) false],
    [extOf e.core f.t1.toNat (e.view 1) ((e.view 1).block (e.org 1) e.cnt c) true]) = false)
  {u : State} {vals : List (List (Val × Val))} {fl : Nat} (hread : Rd.meBlock { s } e (e.view 1) (e.org 1) e.cnt c true = ({ s := u }, vals, fl))
include hm hc h1 h2 h3 htile halias hread

/-- MSPC with a conversion (R278). -/
theorem exec_mspc_rounded (hraw : spcRaw (e.view 1) (e.view 2) = false) (hv1 : fmtComplex (e.view 1).fmt = false)
    (hv2 : (e.view 2).blk = 0 ∧ fmtComplex (e.view 2).fmt = false) :
    ∃ fl', exec (.mspc f) s = .next (u.meWrite e (writePlan (
      spcPuts (e.view 2) (e.org 2) c (spcGroups (ceilDiv e.cnt 4) c) (spcKept e.cnt vals)
        (fun i j ix => (putCode (e.view 2) (rmOf (f.mode.toNat % 8) e.rmode) (srHash e.srSeed ix) (f.mode.getLsbD 3) (at2 (valZero, valZero) vals i j).1).1)
        (fun ix => (putCode (e.view 2) (rmOf (f.mode.toNat % 8) e.rmode) (srHash e.srSeed ix) (f.mode.getLsbD 3) valZero).1) ++
      spcMetas (e.view 3) (e.org 3) (spcGroups (ceilDiv e.cnt 4) c) (spcKept e.cnt vals))) fl') := by
  rw [exec_mspc, execMspc]
  dsimp only
  rw [hc, meInstr_turn hm halias, hm.begins, if_neg (by decide), firstDesc_eq_none_iff.2 (by simpa using ⟨h1, h2, h3⟩)]
  dsimp only
  rw [withTile_of_tileOf htile, hread]
  dsimp only
  rw [hraw, if_neg Bool.false_ne_true, done_of_clean]
  obtain ⟨fs, hput⟩ := spcPut (s := u) (e := e) hv2 (rmOf (f.mode.toNat % 8) e.rmode) (f.mode.getLsbD 3) (e.org 2) c (spcGroups (ceilDiv e.cnt 4) c)
    (spcKept e.cnt vals) (fun i j => (at2 (valZero, valZero) vals i j).1)
  rw [hv1, List.filterMap_map]
  simp only [if_neg Bool.false_ne_true]
  exact meWrite_of_puts hput e (spcMetas (e.view 3) (e.org 3) (spcGroups (ceilDiv e.cnt 4) c) (spcKept e.cnt vals)) fl

/-- MSPC between the same formats copies the codes (R278). -/
theorem exec_mspc_raw (hraw : spcRaw (e.view 1) (e.view 2) = true) {w : State} {raws : List (List Int)}
    (hcodes : Rd.meRaw { s := u } e (e.view 1) (e.org 1) e.cnt c = ({ s := w }, raws)) :
    ∃ fl', exec (.mspc f) s = .next (w.meWrite e (writePlan (
      spcPuts (e.view 2) (e.org 2) c (spcGroups (ceilDiv e.cnt 4) c) (spcKept e.cnt vals)
        (fun i j _ => if ((e.view 1).at (e.org 1) i j).isSome then intCode (fmtBits (e.view 1).fmt) (at2 0 raws i j) else zeroCode (e.view 2).fmt)
        (fun _ => zeroCode (e.view 2).fmt) ++
      spcMetas (e.view 3) (e.org 3) (spcGroups (ceilDiv e.cnt 4) c) (spcKept e.cnt vals))) fl') := by
  have hputs := map_spcPlaces (e.view 2) (e.org 2) c (spcGroups (ceilDiv e.cnt 4) c) (spcKept e.cnt vals)
    (fun i j _ => if ((e.view 1).at (e.org 1) i j).isSome then intCode (fmtBits (e.view 1).fmt) (at2 0 raws i j) else zeroCode (e.view 2).fmt)
    (fun _ => zeroCode (e.view 2).fmt) (code := fun x => match x.2.2.2 with
      | some i => if ((e.view 1).at (e.org 1) i x.2.2.1).isSome then intCode (fmtBits (e.view 1).fmt) (at2 0 raws i x.2.2.1) else zeroCode (e.view 2).fmt
      | none => zeroCode (e.view 2).fmt) fun _ _ _ _ => rfl
  rw [exec_mspc, execMspc]
  dsimp only
  rw [hc, meInstr_turn hm halias, hm.begins, if_neg (by decide), firstDesc_eq_none_iff.2 (by simpa using ⟨h1, h2, h3⟩)]
  dsimp only
  rw [withTile_of_tileOf htile, hread]
  dsimp only
  rw [hraw, if_pos rfl, hcodes, done_of_clean, List.filterMap_map]
  exact meWrite_of_puts (congrArg (fun l => (w, l, ([] : List (Nat × Nat)))) hputs) e
    (spcMetas (e.view 3) (e.org 3) (spcGroups (ceilDiv e.cnt 4) c) (spcKept e.cnt vals)) fl

end

end Sys2Proof.Machine

/-!
Buckets, row codes and kept values (O32): what the signature stage makes of a window, and which two values of a group MSPC keeps.
-/
namespace Sys2Proof.Machine

/-! ### The nearest code (R296) -/

theorem bitDiff_lt (a b : Nat) : bitDiff a b < 64 := by
  have h := List.length_filter_le (fun i => a.testBit i != b.testBit i) (List.range 11)
  rw [List.length_range] at h
  exact Nat.lt_of_le_of_lt h (by decide)

/-- Position `k` holds the first of the codes that differ least from `c`. -/
def NearestAt (c : Nat) (codes : List Nat) (k x : Nat) : Prop :=
  codes[k]? = some x ∧ ∀ j y : Nat, codes[j]? = some y → bitDiff x c ≤ bitDiff y c ∧ (j < k → bitDiff x c < bitDiff y c)

/-- The difference and the position found among some codes. -/
def nearestPair (c : Nat) (codes : List Nat) : Nat × Nat :=
  codes.zipIdx.foldl (fun best p => if bitDiff p.1 c < best.1 then (bitDiff p.1 c, p.2) else best) (64, 0)

theorem nearestPair_concat (c : Nat) (codes : List Nat) (x : Nat) : nearestPair c (codes ++ [x]) =
    if bitDiff x c < (nearestPair c codes).1 then (bitDiff x c, codes.length) else nearestPair c codes := by
  rw [nearestPair, List.zipIdx_append, List.foldl_append, Nat.zero_add]
  rfl

theorem getElem?_concat {α : Type} {l : List α} {a : α} {i : Nat} {b : α} (h : (l ++ [a])[i]? = some b) :
    l[i]? = some b ∨ i = l.length ∧ b = a := by
  rw [List.getElem?_append] at h
  split at h
  · exact .inl h
  · rw [List.getElem?_singleton] at h
    split at h
    · exact .inr ⟨by omega, (Option.some.inj h).symm⟩
    · cases h

theorem getElem?_concat_of_some {α : Type} {l : List α} {i : Nat} {b : α} (h : l[i]? = some b) (a : α) : (l ++ [a])[i]? = some b := by
  rw [List.getElem?_append_left (List.getElem?_eq_some_iff.1 h).1]
  exact h

theorem nearestPair_spec (c : Nat) (codes : List Nat) :
    (codes = [] ∧ nearestPair c codes = (64, 0)) ∨ ∃ x, NearestAt c codes (nearestPair c codes).2 x ∧ (nearestPair c codes).1 = bitDiff x c := by
  induction codes using List.reverseRecOn with
  | nil => exact .inl ⟨rfl, rfl⟩
  | append_singleton codes y ih =>
    right
    rw [nearestPair_concat]
    by_cases hlt : bitDiff y c < (nearestPair c codes).1
    · rw [if_pos hlt]
      refine ⟨y, ⟨by simp, fun j z hz => ?_⟩, rfl⟩
      rcases getElem?_concat hz with hz | ⟨rfl, rfl⟩
      · rcases ih with ⟨rfl, -⟩ | ⟨x, ⟨-, hleast⟩, heq⟩
        · cases hz
        · have := (hleast j z hz).1
          omega
      · exact ⟨Nat.le_refl _, fun h => absurd h (Nat.lt_irrefl _)⟩
    · rw [if_neg hlt]
      rcases ih with ⟨rfl, hinit⟩ | ⟨x, ⟨hx, hleast⟩, heq⟩
      · rw [hinit] at hlt
        exact absurd (bitDiff_lt y c) hlt
      · refine ⟨x, ⟨?_, fun j z hz => ?_⟩, heq⟩
        · exact getElem?_concat_of_some hx y
        · rcases getElem?_concat hz with hz | ⟨rfl, rfl⟩
          · exact hleast j z hz
          · have hk := (List.getElem?_eq_some_iff.1 hx).1
            exact ⟨by omega, fun h => absurd h (by omega)⟩

theorem nearest_spec (c : Nat) {codes : List Nat} (h : codes ≠ []) : ∃ x, NearestAt c codes (nearest c codes) x := by
  rcases nearestPair_spec c codes with ⟨hnil, -⟩ | ⟨x, hx, -⟩
  · exact absurd hnil h
  · exact ⟨x, hx⟩

/-! ### The buckets of a window (R296) -/

/-- Bucket `k` takes a row of code `c`. -/
def RowPlaced (m : Nat) (codes : List Nat) (c k : Nat) : Prop :=
  ∃ x, codes[k]? = some x ∧ (c ∈ codes → x = c) ∧ (c ∉ codes → codes.length = m ∧ NearestAt c codes k x)

/-- Rows whose code no bucket has. -/
def strays (codes : List Nat) (rows : List (Option Nat)) : Nat :=
  (rows.filter fun r => match r with
    | some c => !codes.contains c
    | none => false).length

/-- The buckets of rows: the codes of the buckets, the bucket of each row that is present, and the count of the rows whose code has none. -/
structure Assigned (m : Nat) (rows : List (Option Nat)) (b : Buckets) : Prop where
  fits : b.codes.length ≤ m
  nodup : b.codes.Nodup
  length : b.member.length = rows.length
  absent : ∀ i : Nat, rows[i]? = some none → b.member[i]? = some none
  placed : ∀ i c : Nat, rows[i]? = some (some c) → ∃ k, b.member[i]? = some (some k) ∧ RowPlaced m b.codes c k
  ovf : b.ovf = strays b.codes rows

theorem assign_concat (m : Nat) (rows : List (Option Nat)) (r : Option Nat) : assign m (rows ++ [r]) =
    match r with
    | none => { assign m rows with member := (assign m rows).member ++ [none] }
    | some c =>
      match (assign m rows).codes.findIdx? (· == c) with
      | some i => { assign m rows with member := (assign m rows).member ++ [some i] }
      | none =>
        if (assign m rows).codes.length < m then
          { assign m rows with member := (assign m rows).member ++ [some (assign m rows).codes.length], codes := (assign m rows).codes ++ [c] }
        else { assign m rows with member := (assign m rows).member ++ [some (nearest c (assign m rows).codes)], ovf := (assign m rows).ovf + 1 } := by
  rw [assign, List.foldl_append]
  rfl

theorem strays_concat (codes : List Nat) (rows : List (Option Nat)) (r : Option Nat) :
    strays codes (rows ++ [r]) = strays codes rows + match r with
      | some c => if c ∈ codes then 0 else 1
      | none => 0 := by
  rw [strays, List.filter_append, List.length_append]
  refine congrArg (strays codes rows + ·) ?_
  cases r with
  | none => rfl
  | some c => by_cases h : c ∈ codes <;> simp [h]

section
variable {m : Nat} {rows : List (Option Nat)} {b : Buckets} (h : Assigned m rows b)
include h

/-- Another row, where the codes stay. -/
theorem Assigned.concat {r : Option Nat} {k : Option Nat} {ovf : Nat} (hnone : r = none → k = none)
    (hsome : ∀ c, r = some c → ∃ i, k = some i ∧ RowPlaced m b.codes c i) (hovf : ovf = strays b.codes (rows ++ [r])) :
    Assigned m (rows ++ [r]) { b with member := b.member ++ [k], ovf } := by
  have hlast : (b.member ++ [k])[rows.length]? = some k := by
    rw [← h.length]
    simp
  refine ⟨h.fits, h.nodup, by simp [h.length], fun i hi => ?_, fun i c hi => ?_, hovf⟩
  · rcases getElem?_concat hi with hi | ⟨rfl, hr⟩
    · exact getElem?_concat_of_some (h.absent i hi) k
    · exact hlast.trans (congrArg some (hnone hr.symm))
  · rcases getElem?_concat hi with hi | ⟨rfl, hr⟩
    · obtain ⟨j, hj, hplaced⟩ := h.placed i c hi
      exact ⟨j, getElem?_concat_of_some hj k, hplaced⟩
    · obtain ⟨j, hj, hplaced⟩ := hsome c hr.symm
      exact ⟨j, hlast.trans (congrArg some hj), hplaced⟩

/-- While there is room for a bucket, every row so far has its own code's. -/
theorem Assigned.mem_of_room (hroom : b.codes.length < m) {i c : Nat} (hi : rows[i]? = some (some c)) : c ∈ b.codes := by
  obtain ⟨k, -, x, -, -, hfar⟩ := h.placed i c hi
  by_contra hc
  exact absurd (hfar hc).1 (by omega)

theorem Assigned.strays_of_room (hroom : b.codes.length < m) {codes : List Nat} (hsub : b.codes ⊆ codes) : strays codes rows = 0 := by
  refine List.length_eq_zero_iff.2 (List.filter_eq_nil_iff.2 fun r hr => ?_)
  obtain ⟨i, hi⟩ := List.mem_iff_getElem?.1 hr
  cases r with
  | none => exact Bool.false_ne_true
  | some c => simpa using hsub (h.mem_of_room hroom hi)

/-- A row that opens a bucket. -/
theorem Assigned.concat_new {c : Nat} (hc : c ∉ b.codes) (hroom : b.codes.length < m) :
    Assigned m (rows ++ [some c]) { b with member := b.member ++ [some b.codes.length], codes := b.codes ++ [c] } := by
  have hlast : (b.member ++ [some b.codes.length])[rows.length]? = some (some b.codes.length) := by
    rw [← h.length]
    simp
  have hsub : b.codes ⊆ b.codes ++ [c] := List.subset_append_left ..
  refine ⟨by simp only [List.length_append, List.length_singleton]; omega, ?_, by simp [h.length], fun i hi => ?_, fun i x hi => ?_, ?_⟩
  · exact List.nodup_append.2 ⟨h.nodup, List.nodup_singleton c, fun a ha y hy hay => hc (by rw [← List.mem_singleton.1 hy, ← hay]; exact ha)⟩
  · rcases getElem?_concat hi with hi | ⟨-, hr⟩
    · exact getElem?_concat_of_some (h.absent i hi) _
    · cases hr
  · rcases getElem?_concat hi with hi | ⟨rfl, hr⟩
    · have hx := h.mem_of_room hroom hi
      obtain ⟨k, hk, y, hy, hsame, -⟩ := h.placed i x hi
      exact ⟨k, getElem?_concat_of_some hk _, y, getElem?_concat_of_some hy c, fun _ => hsame hx, fun hno => absurd (hsub hx) hno⟩
    · obtain rfl := Option.some.inj hr
      exact ⟨_, hlast, x, by simp, fun _ => rfl, fun hno => absurd (by simp) hno⟩
  · show b.ovf = strays (b.codes ++ [c]) (rows ++ [some c])
    rw [strays_concat, h.strays_of_room hroom hsub, h.ovf, h.strays_of_room hroom (List.Subset.refl _)]
    simp

end

theorem assign_assigned {m : Nat} (hm : 0 < m) (rows : List (Option Nat)) : Assigned m rows (assign m rows) := by
  induction rows using List.reverseRecOn with
  | nil => exact ⟨Nat.zero_le _, List.nodup_nil, rfl, fun i h => absurd h (by simp), fun i c h => absurd h (by simp), rfl⟩
  | append_singleton rows r ih =>
    rw [assign_concat]
    generalize assign m rows = b at ih
    cases r with
    | none => exact ih.concat (fun _ => rfl) (fun c hc => by cases hc) (by rw [strays_concat, ih.ovf]; rfl)
    | some c =>
      dsimp only
      split
      · rename_i i hi
        obtain ⟨x, hx, heq⟩ : ∃ x, b.codes[i]? = some x ∧ x = c := by
          obtain ⟨hlt, heq, -⟩ := List.findIdx?_eq_some_iff_getElem.1 hi
          exact ⟨_, List.getElem?_eq_getElem hlt, by simpa using heq⟩
        subst heq
        have hmem : x ∈ b.codes := List.mem_of_getElem? hx
        refine ih.concat (fun hr => by cases hr) (fun c hc => ?_) (by rw [strays_concat, ih.ovf]; simp [hmem])
        obtain rfl := Option.some.inj hc
        exact ⟨i, rfl, x, hx, fun _ => rfl, fun hno => absurd hmem hno⟩
      · rename_i hnone
        have hc : c ∉ b.codes := fun hmem => by simpa using List.findIdx?_eq_none_iff.1 hnone c hmem
        split
        · rename_i hroom
          exact ih.concat_new hc hroom
        · rename_i hfull
          have hlen : b.codes.length = m := by have := ih.fits; omega
          obtain ⟨x, hx⟩ := nearest_spec c (codes := b.codes) (fun hnil => by rw [hnil] at hlen; simp at hlen; omega)
          refine ih.concat (fun hr => by cases hr) (fun d hd => ?_) (by rw [strays_concat, ih.ovf]; simp [hc])
          obtain rfl := Option.some.inj hd
          exact ⟨_, rfl, x, hx.1, fun hmem => absurd hmem hc, fun _ => ⟨hlen, hx⟩⟩

/-! ### The code of a row (R295) -/

/-- The projection on hyperplane `k` is negative. -/
def negProjection (row : List Val) (h : List (List (Val × Val))) (k : Nat) : Bool :=
  match ffDec ffF32 (sumCell 0 (row.zipIdx.map fun x => (x.1, (at2 (valZero, valZero) h x.2 k).1))) with
  | .fin neg n _ => neg && n != 0
  | .inf neg => neg
  | _ => false

theorem sigCode_eq (row : List Val) (h : List (List (Val × Val))) (bits : Nat) :
    sigCode row h bits = (List.range bits).foldl (fun acc k => if negProjection row h k then acc + 2 ^ k else acc) 0 := by
  refine List.foldl_ext _ _ _ fun acc k _ => ?_
  rw [negProjection, sumCell, List.foldl_map]
  change (match ffDec ffF32 (row.zipIdx.foldl (fun c x => (ffRound ffF32 0 0 false
    (valAdd false (ffDec ffF32 c) (valMul x.1 (at2 (valZero, valZero) h x.2 k).1).1).1).1) 0) with
    | .fin neg n _ => if neg && n != 0 then acc + 2 ^ k else acc
    | .inf neg => if neg then acc + 2 ^ k else acc
    | _ => acc) = _
  generalize ffDec ffF32 _ = x
  cases x <;> rfl

/-- A number with the bits below `bits` that `p` gives. -/
theorem testBit_foldl_pow (p : Nat → Bool) (bits : Nat) : (List.range bits).foldl (fun acc k => if p k then acc + 2 ^ k else acc) 0 < 2 ^ bits ∧
    ∀ k, ((List.range bits).foldl (fun acc k => if p k then acc + 2 ^ k else acc) 0).testBit k = (decide (k < bits) && p k) := by
  induction bits with
  | zero => exact ⟨Nat.one_pos, fun k => by simp⟩
  | succ b ih =>
    rw [List.range_succ, List.foldl_append]
    generalize (List.range b).foldl _ 0 = acc at ih
    obtain ⟨hlt, hbits⟩ := ih
    have hpow : 2 ^ (b + 1) = 2 ^ b + 2 ^ b := by omega
    rw [List.foldl_cons, List.foldl_nil]
    split
    · rename_i hp
      refine ⟨by omega, fun k => ?_⟩
      rw [Nat.add_comm]
      rcases Nat.lt_trichotomy k b with hk | rfl | hk
      · rw [Nat.testBit_two_pow_add_gt hk, hbits]
        simp [hk, Nat.lt_succ_of_lt hk]
      · rw [Nat.testBit_two_pow_add_eq, hbits]
        simp [hp]
      · rw [Nat.testBit_lt_two_pow (Nat.lt_of_lt_of_le (by omega) (Nat.pow_le_pow_right (by decide) hk))]
        simp [Nat.not_lt.2 (Nat.succ_le_of_lt hk)]
    · rename_i hp
      refine ⟨by omega, fun k => ?_⟩
      rw [hbits]
      rcases Nat.lt_trichotomy k b with hk | rfl | hk
      · simp [hk, Nat.lt_succ_of_lt hk]
      · simp [hp]
      · simp [Nat.not_lt.2 (Nat.le_of_lt hk), Nat.not_lt.2 (Nat.succ_le_of_lt hk)]

theorem sigCode_testBit (row : List Val) (h : List (List (Val × Val))) (bits k : Nat) :
    (sigCode row h bits).testBit k = (decide (k < bits) && negProjection row h k) := by
  rw [sigCode_eq]
  exact (testBit_foldl_pow _ bits).2 k

/-! ### The two values kept (R278) -/

/-- A value's denominator is none of a number's. -/
def Val.proper (v : Val) : Prop := ∀ g n d, v = .fin g n d → d ≠ 0

/-- What `rankAbove` orders: magnitudes, infinity above them, NaN above that. -/
def Val.rank : Val → WithTop (WithTop ℚ)
  | .nan | .snan => ⊤
  | .inf _ => ((⊤ : WithTop ℚ) : WithTop (WithTop ℚ))
  | .fin _ n d => (((n / d : ℚ) : WithTop ℚ) : WithTop (WithTop ℚ))

theorem rankAbove_fin {g t : Bool} {n d m e : Nat} (hd : d ≠ 0) (he : e ≠ 0) :
    rankAbove (.fin g n d) (.fin t m e) = true ↔ (m / e : ℚ) < n / d := by
  have hd' : (0 : ℚ) < d := by exact_mod_cast Nat.pos_of_ne_zero hd
  have he' : (0 : ℚ) < e := by exact_mod_cast Nat.pos_of_ne_zero he
  rw [div_lt_div_iff₀ he' hd']
  simp only [rankAbove, normAbove, valAbs, valIsNan, valLt, sgnNum]
  simp
  norm_cast

theorem rankAbove_iff {a b : Val} (ha : a.proper) (hb : b.proper) : rankAbove a b = true ↔ b.rank < a.rank := by
  cases b with
  | nan => simp [rankAbove, normAbove, valAbs, valIsNan, Val.rank]
  | snan => simp [rankAbove, normAbove, valAbs, valIsNan, Val.rank]
  | inf t => cases a <;> simp [rankAbove, normAbove, valAbs, valIsNan, valLt, Val.rank]
  | fin t m e =>
    cases a with
    | fin g n d =>
      rw [rankAbove_fin (ha _ _ _ rfl) (hb _ _ _ rfl)]
      simp [Val.rank]
    | _ => simp [rankAbove, normAbove, valAbs, valIsNan, valLt, Val.rank]

/-- The first of the highest of the numbers below `n`, without one that is skipped. -/
def bestBelow (val : Nat → Val) (skip : Option Nat) (n : Nat) : Option Nat :=
  (List.range n).foldl (fun (m : Option Nat) p => if some p = skip then m else match m with
    | none => some p
    | some q => if rankAbove (val p) (val q) then some p else some q) none

/-- `q` is the first of the highest. -/
def BestAt (val : Nat → Val) (skip : Option Nat) (n q : Nat) : Prop :=
  q < n ∧ some q ≠ skip ∧ ∀ r, r < n → some r ≠ skip → (val r).rank ≤ (val q).rank ∧ (r < q → (val r).rank < (val q).rank)

theorem bestBelow_spec {val : Nat → Val} (hval : ∀ i, (val i).proper) (skip : Option Nat) (n : Nat) :
    (bestBelow val skip n = none ∧ ∀ r, r < n → some r = skip) ∨ ∃ q, bestBelow val skip n = some q ∧ BestAt val skip n q := by
  induction n with
  | zero => exact .inl ⟨rfl, fun r hr => absurd hr (Nat.not_lt_zero r)⟩
  | succ n ih =>
    rw [bestBelow, List.range_succ, List.foldl_append, ← bestBelow, List.foldl_cons, List.foldl_nil]
    by_cases hskip : some n = skip
    · rw [if_pos hskip]
      rcases ih with ⟨hnone, hall⟩ | ⟨q, hq, hlt, hne, hbest⟩
      · exact .inl ⟨hnone, fun r hr => (Nat.lt_succ_iff_lt_or_eq.1 hr).elim (hall r) (fun h => h ▸ hskip)⟩
      · exact .inr ⟨q, hq, by omega, hne, fun r hr hr' =>
          (Nat.lt_succ_iff_lt_or_eq.1 hr).elim (fun h => hbest r h hr') (fun h => absurd (h ▸ hskip) hr')⟩
    · rw [if_neg hskip]
      right
      rcases ih with ⟨hnone, hall⟩ | ⟨q, hq, hlt, hne, hbest⟩
      · rw [hnone]
        refine ⟨n, rfl, by omega, hskip, fun r hr hr' => ?_⟩
        rcases Nat.lt_succ_iff_lt_or_eq.1 hr with hr | rfl
        · exact absurd (hall r hr) hr'
        · exact ⟨le_refl _, fun h => absurd h (Nat.lt_irrefl _)⟩
      · rw [hq]
        dsimp only
        by_cases habove : rankAbove (val n) (val q) = true
        · rw [if_pos habove]
          have hrank := (rankAbove_iff (hval n) (hval q)).1 habove
          refine ⟨n, rfl, by omega, hskip, fun r hr hr' => ?_⟩
          rcases Nat.lt_succ_iff_lt_or_eq.1 hr with hr | rfl
          · have := lt_of_le_of_lt (hbest r hr hr').1 hrank
            exact ⟨this.le, fun _ => this⟩
          · exact ⟨le_refl _, fun h => absurd h (Nat.lt_irrefl _)⟩
        · rw [if_neg habove]
          refine ⟨q, rfl, by omega, hne, fun r hr hr' => ?_⟩
          rcases Nat.lt_succ_iff_lt_or_eq.1 hr with hr | rfl
          · exact hbest r hr hr'
          · exact ⟨not_lt.1 fun h => habove ((rankAbove_iff (hval r) (hval q)).2 h), fun h => absurd h (by omega)⟩

theorem bestBelow_of_exists {val : Nat → Val} (hval : ∀ i, (val i).proper) {skip : Option Nat} {n r : Nat} (hr : r < n) (hne : some r ≠ skip) :
    ∃ q, bestBelow val skip n = some q ∧ BestAt val skip n q :=
  (bestBelow_spec hval skip n).resolve_left fun h => hne (h.2 r hr)

theorem zipIdx_eq_map_range (l : List Val) : l.zipIdx = (List.range l.length).map fun i => ((l[i]?).getD valZero, i) := by
  refine List.ext_getElem (by simp) fun i h1 h2 => ?_
  have hi : i < l.length := by simpa using h1
  simp [hi]

theorem keepTwo_eq (l : List Val) : keepTwo l =
    match bestBelow (fun i => (l[i]?).getD valZero) none l.length with
    | none => (0, none)
    | some p => match bestBelow (fun i => (l[i]?).getD valZero) (some p) l.length with
      | none => (p, none)
      | some q => (min p q, some (max p q)) := by
  rw [keepTwo, zipIdx_eq_map_range]
  simp only [List.foldl_map]
  rfl

/-- The two highest of two values or more, in their order (R278): no other ranks above either, and one that ranks with it comes after. -/
theorem keepTwo_spec {l : List Val} (hl : 2 ≤ l.length) (hproper : ∀ v ∈ l, v.proper) :
    ∃ p q, keepTwo l = (p, some q) ∧ p < q ∧ q < l.length ∧ ∀ r x, r < l.length → r ≠ p → r ≠ q → x = p ∨ x = q →
      let a := (l[r]?).getD valZero
      let b := (l[x]?).getD valZero
      rankAbove a b = false ∧ (rankAbove b a = false → x < r) := by
  have hval : ∀ i : Nat, ((l[i]?).getD valZero).proper := fun i => by
    cases h : l[i]? with
    | none =>
      intro g n d hd
      cases hd
      decide
    | some v => exact hproper v (List.mem_of_getElem? h)
  obtain ⟨p, hp, hplt, -, hpbest⟩ := bestBelow_of_exists hval (r := 0) (skip := none) (by omega : 0 < l.length) (by simp)
  obtain ⟨r, hr, hrp⟩ : ∃ r, r < l.length ∧ r ≠ p := by
    by_cases h : p = 0
    · exact ⟨1, by omega, by omega⟩
    · exact ⟨0, by omega, fun h0 => h h0.symm⟩
  obtain ⟨q, hq, hqlt, hqp, hqbest⟩ := bestBelow_of_exists hval (skip := some p) hr (by simpa using hrp)
  have hne : q ≠ p := fun h => hqp (congrArg some h)
  refine ⟨min p q, max p q, ?_, by omega, by omega, fun r x hr hrp hrq hx => ?_⟩
  · rw [keepTwo_eq, hp]
    dsimp only
    rw [hq]
  · have hbest : ((l[r]?).getD valZero).rank ≤ ((l[x]?).getD valZero).rank ∧
        (r < x → ((l[r]?).getD valZero).rank < ((l[x]?).getD valZero).rank) := by
      have hx' : x = p ∨ x = q := by omega
      rcases hx' with rfl | rfl
      · exact hpbest r hr (by simp)
      · exact hqbest r hr (by simp; omega)
    have hxr : r ≠ x := by omega
    refine ⟨Bool.eq_false_iff.2 fun h => absurd ((rankAbove_iff (hval r) (hval x)).1 h) (not_lt.2 hbest.1), fun h => ?_⟩
    by_contra hlt
    exact Bool.eq_false_iff.1 h ((rankAbove_iff (hval x) (hval r)).2 (hbest.2 (by omega)))

end Sys2Proof.Machine

/-!
MSTEP with the signature stage (O32, R298): the record that it builds and writes, and the products of the representatives.
-/
namespace Sys2Proof.Machine

/-! ### Cells after writes (R289) -/

theorem smGet_foldl_writes {l : List (Nat × BitVec 32)} {k : Nat} {v : BitVec 32} (h : ∀ x ∈ l, x.1 = k → x.2 = v) (hk : ∃ x ∈ l, x.1 = k)
    (m : SMap (BitVec 32)) : smGet 0 (l.foldl (fun m x => smSet 0 m x.1 x.2) m) k = v := by
  induction l using List.reverseRecOn generalizing m with
  | nil => simp at hk
  | append_singleton l y ih =>
    rw [List.foldl_append, List.foldl_cons, List.foldl_nil, smGet_smSet]
    split
    · rename_i heq
      exact h y (by simp) heq.symm
    · rename_i hne
      refine ih (fun x hx => h x (by simp [hx])) ?_ m
      obtain ⟨x, hx, heq⟩ := hk
      rcases List.mem_append.1 hx with hx | hx
      · exact ⟨x, hx, heq⟩
      · rw [List.mem_singleton.1 hx] at heq
        exact absurd heq.symm hne

theorem smGet_foldl_others {l : List (Nat × BitVec 32)} {k : Nat} (h : ∀ x ∈ l, x.1 ≠ k) (m : SMap (BitVec 32)) :
    smGet 0 (l.foldl (fun m x => smSet 0 m x.1 x.2) m) k = smGet 0 m k := by
  induction l generalizing m with
  | nil => rfl
  | cons x l ih =>
    rw [List.foldl_cons, ih fun y hy => h y (List.mem_cons_of_mem _ hy), smGet_smSet, if_neg fun heq => h x List.mem_cons_self heq.symm]

theorem putCells_acc {s : State} {e : Entry} (hundef : e.undef = false) (cells : List (Nat × BitVec 32)) (spans : List (Nat × Nat)) :
    ((s.putCells e cells spans).coreAt e.core).acc = cells.foldl (fun m x => smSet 0 m x.1 x.2) (s.coreAt e.core).acc := by
  rw [State.putCells, hundef]
  dsimp only
  rw [if_neg Bool.false_ne_true]
  have hcore (u : State) (c : Core) : ((u.setCore e.core c).coreAt e.core).acc = c.acc := by rw [coreAt_setCore, if_pos rfl]
  split
  · exact hcore ..
  · exact hcore ..

theorem cellNo_inj {T i j i' j' : Nat} (hj : j < 192) (hj' : j' < 192) (h : cellNo T i j = cellNo T i' j') : i = i' ∧ j = j' := by
  unfold cellNo at h
  omega

/-! ### The products of the representatives (R298) -/

theorem accPlain_fst (c : Nat) (l : List (Val × Val)) : (accPlain c l).1 = sumCell c l := by
  have h (fl : Nat) : (l.foldl (fun (c, f) (a, b) =>
      let (p, g) := valMul a b
      let (r, h) := mac32 c p
      (r, f ||| g ||| h)) (c, fl)).1 = sumCell c l := by
    induction l generalizing c fl with
    | nil => rfl
    | cons x l ih => exact ih _ _
  exact h 0

/-- The operands of the products of cell (i, j): the representative's values and those of B. -/
def repOps (m : MapRec) (cnt : Nat) (rows : List (List Val)) (b : List (List (Val × Val))) (i j : Nat) : List (Val × Val) :=
  (List.range cnt).map fun k => ((((rows[(m.repidx[i]?).getD 0]?).getD [])[k]?).getD valZero, (at2 (valZero, valZero) b k j).1)

/-- The sum of a cell of a product with representatives, with its flags. -/
def repSum (m : MapRec) (cnt : Nat) (init pair : Bool) (a : Core) (tile : Nat) (rows : List (List Val)) (b : List (List (Val × Val))) (i j : Nat) :
    Nat × Nat :=
  (if pair then accPaired else accPlain) (if init then 0 else (a.cell tile i j).toNat) (repOps m cnt rows b i j)

/-- The cells of a tile that hold the products. -/
def bucketCells (n c : Nat) : List (Nat × Nat) := (List.range n).flatMap fun i => (List.range c).map fun j => (i, j)

theorem mem_bucketCells {n c : Nat} {p : Nat × Nat} : p ∈ bucketCells n c ↔ p.1 < n ∧ p.2 < c := by
  obtain ⟨i, j⟩ := p
  simp [bucketCells]

/-- The cells that INIT clears. -/
def clearCells (f : MFields) (tile : Nat) : List (Nat × BitVec 32) :=
  if f.init then (List.range f.rows).flatMap fun i => (List.range (f.cols false)).map fun j => (cellNo tile i j, (0 : BitVec 32)) else []

theorem mem_clearCells {f : MFields} {tile : Nat} {x : Nat × BitVec 32} :
    x ∈ clearCells f tile ↔ f.init = true ∧ ∃ i j, i < f.rows ∧ j < f.cols false ∧ x = (cellNo tile i j, 0) := by
  unfold clearCells
  split
  · rename_i hinit
    simp only [List.mem_flatMap, List.mem_map, List.mem_range, hinit, true_and]
    constructor
    · rintro ⟨i, hi, j, hj, rfl⟩
      exact ⟨i, j, hi, hj, rfl⟩
    · rintro ⟨i, j, hi, hj, rfl⟩
      exact ⟨i, hi, j, hj, rfl⟩
  · rename_i hinit
    simp [hinit]

/-- The cells that the products leave. -/
def productCells (e : Entry) (f : MFields) (tile : Nat) (m : MapRec) (a : Core) (rows : List (List Val)) (b : List (List (Val × Val))) :
    List (Nat × BitVec 32) :=
  (bucketCells m.nbkt (f.cols false)).map fun p => (cellNo tile p.1 p.2,
    BitVec.ofNat 32 (repSum m e.cnt f.init (isPair (e.view 1).fmt || isPair (e.view 2).fmt) a tile rows b p.1 p.2).1)

theorem zipIdx_map_range {α : Type} (n : Nat) (g : Nat → α) : ((List.range n).map g).zipIdx = (List.range n).map fun k => (g k, k) :=
  List.ext_getElem (by simp) fun i h1 h2 => by simp

/-- A representative that is a row of the window is never free. -/
theorem repCells_eq (s : State) (e : Entry) {f : MFields} (hrep : f.rep ≠ 1) (tile : Nat) (m : MapRec) (rows : List (List Val))
    (b : List (List (Val × Val))) : ∃ fl, s.repCells e f tile m rows b =
      (s, clearCells f tile ++ productCells e f tile m (s.coreAt e.core) rows b, fl) := by
  have hval (i : Nat) : repVal m f.rep rows i = fun k => some ((((rows[(m.repidx[i]?).getD 0]?).getD [])[k]?).getD valZero, 0) :=
    funext fun k => if_pos hrep
  refine foldl_emit (h := fun p => ((List.range e.cnt).map (repVal m f.rep rows p.1)).foldl (fun g x => g ||| (x.getD (valZero, 0)).2) 0 |||
    (repSum m e.cnt f.init (isPair (e.view 1).fmt || isPair (e.view 2).fmt) (s.coreAt e.core) tile rows b p.1 p.2).2) (fun p _ l fl => ?_) _ _
  obtain ⟨i, j⟩ := p
  dsimp only
  have hany : ((List.range e.cnt).map (repVal m f.rep rows i)).any (·.isNone) = false := by simp [hval]
  have hops : ((List.range e.cnt).map (repVal m f.rep rows i)).zipIdx.map (fun x => ((x.1.getD (valZero, 0)).1, (at2 (valZero, valZero) b x.2 j).1)) =
      repOps m e.cnt rows b i j := by
    rw [zipIdx_map_range, List.map_map, hval]
    rfl
  rw [hany, if_neg Bool.false_ne_true, hops, repSum, ← Nat.or_assoc]
  split <;> rfl

/-- The spans of the cells that a product with representatives writes (R289). -/
def sigSpans (e : Entry) (f : MFields) (m : MapRec) (tile : Nat) : List (Nat × Nat) :=
  if f.init then rowSpans tile (max f.rows m.nbkt) (f.cols false) else if e.cnt = 0 then [] else rowSpans tile m.nbkt (f.cols false)

/-- The cells that a product with representatives leaves: none where it has neither INIT nor a k. -/
def sigCells (e : Entry) (f : MFields) (tile : Nat) (m : MapRec) (a : Core) (rows : List (List Val)) (b : List (List (Val × Val))) :
    List (Nat × BitVec 32) :=
  if (sigSpans e f m tile).isEmpty then [] else clearCells f tile ++ productCells e f tile m a rows b

section
variable {e : Entry} {f : MFields} {tile : Nat} {m : MapRec} {rows : List (List Val)} {b : List (List (Val × Val))} {a : Core}

theorem sigSpans_isEmpty_of_lt {i : Nat} (hi : i < m.nbkt) (h : (sigSpans e f m tile).isEmpty = true) : f.init = false ∧ e.cnt = 0 := by
  unfold sigSpans at h
  split at h
  · simp [rowSpans] at h
    omega
  · rename_i hinit
    split at h
    · rename_i hcnt
      exact ⟨by simpa using hinit, hcnt⟩
    · simp [rowSpans] at h
      omega

theorem mem_productCells {x : Nat × BitVec 32} (h : x ∈ productCells e f tile m a rows b) : ∃ i j, i < m.nbkt ∧ j < f.cols false ∧
    x = (cellNo tile i j, BitVec.ofNat 32 (repSum m e.cnt f.init (isPair (e.view 1).fmt || isPair (e.view 2).fmt) a tile rows b i j).1) := by
  obtain ⟨p, hp, rfl⟩ := List.mem_map.1 h
  obtain ⟨hi, hj⟩ := mem_bucketCells.1 hp
  exact ⟨p.1, p.2, hi, hj, rfl⟩

theorem productCells_mem {i j : Nat} (hi : i < m.nbkt) (hj : j < f.cols false) : (cellNo tile i j,
    BitVec.ofNat 32 (repSum m e.cnt f.init (isPair (e.view 1).fmt || isPair (e.view 2).fmt) a tile rows b i j).1) ∈ productCells e f tile m a rows b :=
  List.mem_map.2 ⟨(i, j), mem_bucketCells.2 ⟨hi, hj⟩, rfl⟩

theorem mem_sigCells (hm : m.nbkt ≤ f.rows) {x : Nat × BitVec 32} (h : x ∈ sigCells e f tile m a rows b) :
    ∃ i j, i < f.rows ∧ j < f.cols false ∧ x.1 = cellNo tile i j := by
  unfold sigCells at h
  split at h
  · cases h
  · rcases List.mem_append.1 h with h | h
    · obtain ⟨-, i, j, hi, hj, rfl⟩ := mem_clearCells.1 h
      exact ⟨i, j, hi, hj, rfl⟩
    · obtain ⟨i, j, hi, hj, rfl⟩ := mem_productCells h
      exact ⟨i, j, by omega, hj, rfl⟩

variable {y : State} (hundef : e.undef = false) (hcols : f.cols false ≤ 192) (spans : List (Nat × Nat))
include hundef hcols

/-- INIT clears the rows that no bucket has. -/
theorem sigCells_clear {i j : Nat} (hinit : f.init = true) (hi : m.nbkt ≤ i) (hrows : i < f.rows) (hj : j < f.cols false) :
    ((y.putCells e (sigCells e f tile m a rows b) spans).coreAt e.core).cell tile i j = 0 := by
  have hspans : (sigSpans e f m tile).isEmpty = false := by
    rw [sigSpans, if_pos hinit]
    simp [rowSpans]
    omega
  rw [Core.cell, putCells_acc hundef, sigCells, hspans, if_neg Bool.false_ne_true, List.foldl_append, smGet_foldl_others fun x hx heq => ?_]
  · refine smGet_foldl_writes (fun x hx _ => ?_) ⟨(cellNo tile i j, 0), mem_clearCells.2 ⟨hinit, i, j, hrows, hj, rfl⟩, rfl⟩ _
    obtain ⟨-, _, _, -, -, rfl⟩ := mem_clearCells.1 hx
    rfl
  · obtain ⟨i', j', hi', hj', rfl⟩ := mem_productCells hx
    have := (cellNo_inj (by omega) (by omega) heq).1
    omega

/-- The cell of a bucket holds its sum. -/
theorem sigCells_bucket {i j : Nat} (hi : i < m.nbkt) (hj : j < f.cols false) (h1 : isPair (e.view 1).fmt = false)
    (h2 : isPair (e.view 2).fmt = false) : ((y.putCells e (sigCells e f tile m (y.coreAt e.core) rows b) spans).coreAt e.core).cell tile i j =
      BitVec.ofNat 32 (sumCell (if f.init then 0 else ((y.coreAt e.core).cell tile i j).toNat) (repOps m e.cnt rows b i j)) := by
  rw [Core.cell, putCells_acc hundef]
  by_cases hempty : (sigSpans e f m tile).isEmpty = true
  · obtain ⟨hinit, hcnt⟩ := sigSpans_isEmpty_of_lt hi hempty
    rw [sigCells, hempty, if_pos rfl, hinit, repOps, hcnt]
    simp [sumCell, Core.cell]
  · rw [sigCells, if_neg hempty, List.foldl_append, ← accPlain_fst]
    have hsum (i j : Nat) : (repSum m e.cnt f.init (isPair (e.view 1).fmt || isPair (e.view 2).fmt) (y.coreAt e.core) tile rows b i j).1 =
        (accPlain (if f.init then 0 else ((y.coreAt e.core).cell tile i j).toNat) (repOps m e.cnt rows b i j)).1 := by
      rw [repSum, h1, h2]
      rfl
    refine smGet_foldl_writes (fun x hx heq => ?_) ⟨_, productCells_mem hi hj, rfl⟩ _
    obtain ⟨i', j', -, hj', rfl⟩ := mem_productCells hx
    obtain ⟨rfl, rfl⟩ := cellNo_inj (by omega) (by omega) heq
    rw [hsum]

end

/-! ### The turn of MSTEP with the signature stage (R298) -/

/-- A product reads the rows of its representatives and B, and leaves its cells. -/
theorem sigProduct_eq {w x y : State} {e e2 : Entry} {f : MFields} {m : MapRec} {tile fb : Nat} {rows : List (List Val × Nat)}
    {b : List (List (Val × Val))} (he : { e with phase := 5, parts := m.parts, plan := [] } = e2) (hrep : f.rep ≠ 1)
    (hwin : Rd.window { s := w } e2 (e2.view 1) (e2.org 1) (m.used f.rep).contains f.win e2.cnt = ({ s := x }, rows))
    (hb : Rd.meBlock { s := x } e2 (e2.view 2) (e2.org 2) (if m.nbkt = 0 then 0 else e2.cnt) (f.cols false) = ({ s := y }, b, fb))
    (hpace : y.pace = 0) : ∃ fl, w.sigProduct e f m tile =
      (y.putCells e2 (sigCells e2 f tile m (y.coreAt e2.core) (rows.map (·.1)) b) (sigSpans e2 f m tile)).meEnd { e2 with keep := [fl] } := by
  obtain ⟨fl, hcells⟩ := repCells_eq y e2 hrep tile m (rows.map (·.1)) b
  subst he
  refine ⟨rowFlags rows (m.used f.rep) ||| fb ||| fl, ?_⟩
  rw [State.sigProduct]
  dsimp only at hwin hb hcells ⊢
  rw [hwin]
  dsimp only
  rw [hb, Rd.stepDone]
  dsimp only
  rw [hpace, hcells]
  rfl

/-- The entry of a building MSTEP that writes its record. -/
def Entry.building (e : Entry) (m : MapRec) : Entry :=
  { e with phase := 4, parts := m.parts, plan := m.plan ((e.view 3).base + selRec (smGet 0 e.o 3) * 4096) }

/-- The same entry as it forms the product. -/
def Entry.multiplying (e : Entry) (m : MapRec) : Entry := { e.building m with phase := 5, plan := [] }

section
variable {s u w x y : State} {e : Entry} {f : MFields} {n : Nat} {m : MapRec} {rows : List (List Val × Nat)} {fb : Nat} {b : List (List (Val × Val))}
  (hm : MReady s e)
include hm

/-- A turn of MSTEP with the signature stage builds its record. -/
theorem exec_mstep_builds {T : Nat} (hsig : f.sig = true) (hreuse : selReuse (smGet 0 e.o 3) = false) (htile : s.tileOf e f.acc.toNat = some T)
    (hstep : firstDesc (s.stepTdesc e f [(e.org 1, e.org 2)] f.win) = none) (hmap : s.mapTdesc e (e.desc 3) (selRec (smGet 0 e.o 3)) = none)
    (hhyper : s.meTdesc e (e.desc 5) (meSourceOk e.core false (e.view 5)) ((e.view 5).block (0, 0) e.cnt f.bits) true = none)
    (halias : s.aliased e ([recExt e.core f.t3.toNat (e.view 3) (selRec (smGet 0 e.o 3))], stepExts e f [(e.org 1, e.org 2)] f.win ++
      [extOf e.core f.hyper (e.view 5) ((e.view 5).block (0, 0) e.cnt f.bits) true]) = false) :
    exec (.mstep f) s = .next (s.sigBuild e f T) := by
  have hrows : stepRows f = f.win := by rw [stepRows, hsig, if_pos rfl]
  have hsteps := firstDesc_eq_none_iff.1 hstep
  rw [exec_mstep, execMstep]
  dsimp only
  rw [hrows, hsig, meInstr_turn hm]
  · rw [hm.begins, if_neg (by decide), if_neg (by decide), firstDesc_eq_none_iff.2 fun x hx => ?_]
    · dsimp only
      simp only [hreuse]
      rw [Bool.and_false, if_neg Bool.false_ne_true, withTile_of_tileOf htile, if_pos trivial]
    · simp only [hreuse, Bool.not_true, Bool.false_eq_true, if_false, List.mem_append] at hx
      rcases hx with ((hx | hx) | hx) | hx
      · exact hsteps x (List.mem_of_mem_take hx)
      · rw [List.mem_singleton.1 hx]
        exact hmap
      · exact hsteps x (List.mem_of_mem_drop hx)
      · rw [List.mem_singleton.1 hx]
        exact hhyper
  · simp only [hreuse]
    exact halias

/-- MSTEP with the signature stage: its record is built and written, and then the product of the representatives is formed. -/
theorem exec_mstep_sig {T : Nat} (hexec : exec (.mstep f) s = .next (s.sigBuild e f T)) (hrep : f.rep ≠ 1)
    (hbuild : Rd.build { s } e f = ({ s := u }, m))
    (hwrite : (u.putEntry (e.building m)).writeAll (e.building m) (e.building m).plan = (w, [], none))
    (hwin : Rd.window { s := w } (e.multiplying m) (e.view 1) (e.org 1) (m.used f.rep).contains f.win e.cnt = ({ s := x }, rows))
    (hb : Rd.meBlock { s := x } (e.multiplying m) (e.view 2) (e.org 2) (if m.nbkt = 0 then 0 else e.cnt) (f.cols false) = ({ s := y }, b, fb)) :
    ∃ fl, exec (.mstep f) s = .next ((y.putCells (e.multiplying m) (sigCells (e.multiplying m) f T m (y.coreAt e.core) (rows.map (·.1)) b)
      (sigSpans (e.multiplying m) f m T)).meEnd { e.multiplying m with keep := [fl] }) := by
  have hpace : y.pace = 0 := by
    have hu : u.pace = 0 := by
      have h := pace_build { s } e f
      rw [hbuild] at h
      exact h.trans hm.whole
    have hw : w.pace = 0 := by
      have h := pace_writeAll ((pace_putEntry u (e.building m)).trans hu) (e.building m) (e.building m).plan
      rw [hwrite] at h
      exact h
    have hx := pace_window { s := w } (e.multiplying m) (e.view 1) (e.org 1) (m.used f.rep).contains f.win e.cnt
    have hy := pace_meBlock { s := x } (e.multiplying m) (e.view 2) (e.org 2) (if m.nbkt = 0 then 0 else e.cnt) (f.cols false) false
    rw [hwin] at hx
    rw [hb] at hy
    exact hy.trans (hx.trans hw)
  have hgot : { e.building m with got := [] } = e.building m := by
    have h : e.got = [] := hm.fresh.2.2.2.2.1
    rw [Entry.building, h]
  obtain ⟨fl, hprod⟩ := sigProduct_eq (e := e.building m) (e2 := e.multiplying m) (m := (e.building m).mapRec) (tile := T) rfl hrep hwin hb hpace
  refine ⟨fl, hexec.trans (congrArg _ ?_)⟩
  rw [State.sigBuild, hbuild]
  dsimp only
  rw [done_of_clean, ← Entry.building, State.sigWrite, hwrite]
  dsimp only
  rw [hgot]
  exact hprod

end

/-- The value of a bucket without its flags (R306). -/
theorem mscatVal_fst (op : Nat) (m : MapRec) (rows : List (List Val)) (b j : Nat) : (mscatVal op m rows b j).map (·.1) =
    let member : List Val := (m.rowsOf b).map fun i => (((rows[i]?).getD [])[j]?).getD valZero
    if op = 2 then (repVal m m.rep rows b j).map (·.1)
    else if op = 1 then (sumRows member).map fun x => (valDiv x.1 (.fin false ((m.count[b]?).getD 1) 1)).1
    else (sumRows member).map (·.1) := by
  by_cases h2 : op = 2
  · subst h2
    rfl
  · rw [mscatVal.eq_2 _ _ _ _ _ h2, Option.map_map]
    dsimp only
    rw [if_neg h2]
    by_cases h1 : op = 1
    · rw [if_pos h1, h1]
      rfl
    · rw [if_neg h1]
      simp only [if_neg h1]
      rfl

/-! ### The obligation -/

/-- Settles O32: the turn of each instruction with the values that it writes, the invariant of the buckets, the bits of a row's code, the
two highest of a group, and the record and the products of MSTEP. -/
theorem matrixResults : Obligations.MatrixResults := by
  unfold Obligations.MatrixResults
  refine ⟨fun s e f n hm he => ⟨?mwb, ?mspc, ?msig, ?mscat⟩, fun m rows hpos => ?assign, fun row h bits k => ?code, fun l hl hproper => ?keep, ?mstep⟩
  case mwb =>
    intro v cplx c rno mul cell back hacc hreal hpair hdesc
    have hback (u : State) (rows : List (Nat × Nat))
        (hexec : ∀ puts, (∃ fl, u.wbPuts e (wbOf f e) (e.org 1) ((s.strandAt n).accBase + f.acc.toNat) c rows = (u, puts, fl)) →
          ∃ fl, exec (.mwb f) s = .next (u.meWrite e (writePlan puts) fl)) : back u rows := by
      refine ⟨fun hv hc => hexec _ ?_, fun hblk hv hc hint => hexec _ ?_⟩
      · obtain ⟨fl, hputs⟩ := mwbPuts_real (e.org 1) rows u ((s.strandAt n).accBase + f.acc.toNat) hv hc hreal
        have hcols : c = f.cols false := congrArg f.cols hc
        rw [hcols]
        exact ⟨fl, hputs⟩
      · obtain ⟨fl, hputs⟩ := mwbPuts_complex (e.org 1) rows u ((s.strandAt n).accBase + f.acc.toNat) hblk hv hc hint hpair
        have hcols : c = f.cols true := congrArg f.cols hc
        rw [hcols]
        exact ⟨fl, hputs⟩
    refine ⟨fun hsig => hback _ _ fun puts hputs => exec_mwb_rows hm hsig hdesc (tileOf_of_lt he hacc) hputs,
      fun hsig hmap u bs hread hok htile halias => hback _ _ fun puts hputs => exec_mwb_buckets hm hsig hdesc hmap hread hok htile halias hputs⟩
  case mspc =>
    intro c g v1 v2 v3 tdesc ext h1 h2 h3 hv1 hv2 hacc halias u vals fl hread kept gj at1 metas both rounded
    exact ⟨fun hraw => exec_mspc_rounded hm c rfl h1 h2 h3 (tileOf_of_lt he hacc) halias hread hraw hv1.2 hv2,
      fun w raws hraw hcodes => exec_mspc_raw hm c rfl h1 h2 h3 (tileOf_of_lt he hacc) halias hread hraw hcodes⟩
  case msig =>
    intro u m rno halias ha hmap hh hbuild
    exact exec_msig_writes hm halias ha hmap hh hbuild
  case mscat =>
    intro u0 u bs rows rno c v m ha hd hmap halias hread hok hwin hv member value hsome
    have hvalue : ∀ b j, value b j = (mscatVal (f.mode.toNat % 4) m (rows.map (·.1)) b j).map (·.1) := fun b j => (mscatVal_fst ..).symm
    obtain ⟨fl, hexec⟩ := exec_mscat_writes hm ha hd hmap halias hread hok hwin hv rfl fun b j hb hj => by
      simpa [hvalue] using hsome b j hb hj
    refine ⟨fl, hexec.trans ?_⟩
    have hcode : ∀ b j, (value b j).getD valZero = ((mscatVal (f.mode.toNat % 4) m (rows.map (·.1)) b j).getD (valZero, 0)).1 := fun b j => by
      rw [hvalue]
      exact Option.getD_map (fun x : Val × Nat => x.1) (valZero, 0) _
    simp only [View.puts, List.flatMap_map, hcode]
    rfl
  case assign =>
    obtain ⟨hfits, hnodup, hlength, habsent, hplaced, hovf⟩ := assign_assigned hpos rows
    refine ⟨hfits, hnodup, hlength, habsent, fun i c hi => ?_, hovf⟩
    obtain ⟨k, hk, x, hx, hsame, hfar⟩ := hplaced i c hi
    exact ⟨k, x, hk, hx, hsame, fun hno => ⟨(hfar hno).1, (hfar hno).2.2⟩⟩
  case code => exact sigCode_testBit row h bits k
  case keep => exact keepTwo_spec hl hproper
  case mstep =>
    intro s u w x y e f n m rows fb b hm he hsig hacc hrep hcols hrows hbuckets sel hreuse hstep hmap hhyper halias T e1 e2 hbuild hwrite hwin hb
    have hundef : (e.multiplying m).undef = false := hm.defined
    obtain ⟨fl, hexec⟩ := exec_mstep_sig hm (exec_mstep_builds hm hsig hreuse (tileOf_of_lt he hacc) hstep hmap hhyper halias) hrep hbuild hwrite hwin hb
    exact ⟨_, _, fl, hexec, fun p hp => mem_sigCells hbuckets hp, fun i j hinit hi hi' hj => sigCells_clear hundef hcols _ hinit hi hi' hj,
      fun i j hi hj h1 h2 => sigCells_bucket hundef hcols _ hi hj h1 h2⟩

end Sys2Proof.Machine
